-- ==== Sys2Proof/Word.lean ====
section
/-! DEFINITION. The word types of the block: bytes, 32-bit register words and 64-bit time values
(04 R4, 19 R756), the canonical sparse map every table of the state is held in, and nothing else. -/

namespace Sys2Proof

/-- A byte, the unit of frames, descriptors and host buffers (R4). -/
abbrev Byte := BitVec 8

/-- A 32-bit register word (R756). -/
abbrev Word := BitVec 32

/-- A table of the machine: pairs of a key and a value, keys strictly rising, with no entry equal to
what an unlisted key reads as. -/
abbrev SMap (α : Type) := List (Nat × α)

end Sys2Proof
end

