-- ==== Sys2Proof/Syntax.lean ====
section
/-! DEFINITION. The commands and events of the block, one constructor of `Instr` per row of
spec/opcode_table.json. The first operand `t` of every constructor is the time at which the step happens, in
quarter nanoseconds since CK_TIME locked (10 R430); the operands after it are what the step's environment
supplies. -/

namespace Sys2Proof

/-- A coefficient: a Q1.31 mantissa and a signed 8-bit exponent (06 R261, 14 R565). -/
structure Coef where
  m : Int
  e : Int
  deriving DecidableEq, Repr

/-- What every descriptor carries beside its payload (14 Table 14.5): its command ring, SEQ, FLG.IRQ and TGT. -/
structure DHdr where
  ring : Nat
  seq  : Nat
  irq  : Bool
  tgt  : Nat
  deriving DecidableEq, Repr

/-- The functions of GROUP_MOVE (14 Table 14.7, 07 R308 to R310). -/
inductive GroupFn where
  | define (seg mask : Nat)
  | dissolve
  | move (targets : List Int)
  deriving DecidableEq, Repr

/-- The functions of LEARN (14 Table 14.7, 05 R227). -/
inductive LearnFn where
  | mode (m : Nat)
  | master (log2n master : Nat) (p o : Int)
  | gains (src : Nat) (lead : Int) (kl ff : Coef)
  | shape (s0 s1 : Coef) (lmin llim : Int)
  | clear
  deriving DecidableEq, Repr

/-- The functions of COUPLE (14 Table 14.7, 05 R235). -/
inductive CoupleFn where
  | define (velocity : Bool) (seg mask : Nat) (clim : Int)
  | load (elem : Nat) (vals : List Coef)
  | swap
  | dissolve
  deriving DecidableEq, Repr

/-- The functions of IDENT (14 Table 14.7, 05 R244). `w20` and `w24` are bytes 20 to 23 and 24 to 27. -/
inductive IdentFn where
  | start (exc rsp mExp settle : Nat) (a : Int) (w20 w24 : Nat) (emax : Int)
  | cancel
  deriving DecidableEq, Repr

/-- The payload of AXIS_CFG (14 R566). -/
structure AxisCfg where
  aw : Nat
  kind : Nat
  fbFrac : Nat
  vffFrac : Nat
  stages : Nat
  faultPol : Nat
  stopPol : Nat
  noReverse : Bool
  cross : Bool
  catchK : Coef
  catchV : Int
  deriving DecidableEq, Repr

/-- The operation a descriptor asks for, one alternative per opcode of 14 Table 14.7. Where an opcode names a
host buffer that is read, the bytes or values read stand in the operation (R556). -/
inductive DOp where
  | nop
  | fence (rings : Nat) (waitCpl : Bool)
  | mode (code : Nat)
  | moveAbs (x : Int)
  | moveRel (d : Int)
  | jog (v : Int)
  | stop
  | limits (vmax amax dmax destop jmax : Int)
  | follow (ai pos : Bool) (src : Nat) (g : Coef) (lagmax : Int)
  | gear (wait : Bool) (master : Nat) (n m ofs : Int)
  | camEngage (table : Nat) (cont cubic : Bool) (mode master : Nat) (oc b : Int) (xsw : Int)
  | camDisengage (holdVel : Bool)
  | groupMove (f : GroupFn)
  | phaseIn (w : Int)
  | setc (index terrace : Nat) (v : Coef)
  | loadset (first terrace : Nat) (vals : List Coef)
  | swapset (mask : Nat)
  | terrace (sel n : Nat) (b : Nat) (t1 t2 t3 h : Int)
  | filter (changed enable : Nat)
  | learn (f : LearnFn)
  | resample (log2n tag : Nat)
  | couple (f : CoupleFn)
  | ident (f : IdentFn)
  | camLoad (table k : Nat) (s rise : Int) (y : List Int)
  | axisCfg (c : AxisCfg)
  | unmute (seg node : Nat)
  | nodeReq (seg node fn buf : Nat) (data : List Byte)
  | timeStep (toDomain : Bool) (s : Int)
  | timeSelect (domain : Nat) (auto : Bool)
  | nvWrite (addr : Nat) (buf : Nat) (len : Nat) (data : List Byte)
  | nvRead (addr buf len : Nat)
  | safetyLoad (data : List Byte)
  | safetyConfirm (check : Nat)
  | inject (double : Bool) (src : Nat)
  | unfence (src : Nat)
  | clearLedger
  | clearFlags (mask : Nat)
  | trace (evtMask segMask : Nat) (compress softPass : Bool) (axisLo axisHi : Nat)
  deriving DecidableEq, Repr

/-- What a twin OUT message says (15 Table 15.4 and R590, R609). -/
inductive TwinOut where
  | configCrc (crc : Nat)
  | degradeHalve (seg : Nat)
  | degradeStop (seg : Nat)
  | resampleSwap (axis : Nat)
  | resampleAbort (axis : Nat)
  | identEnd (axis reason : Nat)
  | axisFault (axis cause : Nat)
  | safeHold
  | handover (cycle : Nat)
  | ringIndices (ring producer consumer : Nat)
  deriving DecidableEq, Repr

/-- A value of the machine's own clockwork for one master axis: position, velocity and validity (01 R11). -/
structure MasterVal where
  pos : Int
  valid : Bool
  deriving DecidableEq, Repr

/-- The commands and events, one per row of spec/opcode_table.json. -/
inductive Instr where
  -- descriptors taking effect at their apply points (14 R563, R565)
  | nop (t : Nat) (h : DHdr)
  | fence (t : Nat) (h : DHdr) (rings : Nat) (waitCpl : Bool)
  | mode (t : Nat) (h : DHdr) (code : Nat)
  | moveAbs (t : Nat) (h : DHdr) (x : Int)
  | moveRel (t : Nat) (h : DHdr) (d : Int)
  | jog (t : Nat) (h : DHdr) (v : Int)
  | stop (t : Nat) (h : DHdr)
  | limits (t : Nat) (h : DHdr) (vmax amax dmax destop jmax : Int)
  | follow (t : Nat) (h : DHdr) (ai pos : Bool) (src : Nat) (g : Coef) (lagmax : Int)
  | gear (t : Nat) (h : DHdr) (wait : Bool) (master : Nat) (n m ofs : Int)
  | camEngage (t : Nat) (h : DHdr) (table : Nat) (cont cubic : Bool) (mode master : Nat) (oc b xsw : Int)
  | camDisengage (t : Nat) (h : DHdr) (holdVel : Bool)
  | groupMove (t : Nat) (h : DHdr) (f : GroupFn)
  | phaseIn (t : Nat) (h : DHdr) (w : Int)
  | setc (t : Nat) (h : DHdr) (index terrace : Nat) (v : Coef)
  | loadset (t : Nat) (h : DHdr) (first terrace : Nat) (vals : List Coef)
  | swapset (t : Nat) (h : DHdr) (mask : Nat)
  | terrace (t : Nat) (h : DHdr) (sel n b : Nat) (t1 t2 t3 hyst : Int)
  | filter (t : Nat) (h : DHdr) (changed enable : Nat)
  | learn (t : Nat) (h : DHdr) (f : LearnFn)
  | resample (t : Nat) (h : DHdr) (log2n tag : Nat)
  | couple (t : Nat) (h : DHdr) (f : CoupleFn)
  | ident (t : Nat) (h : DHdr) (f : IdentFn)
  | camLoad (t : Nat) (h : DHdr) (table k : Nat) (s rise : Int) (y : List Int)
  | axisCfg (t : Nat) (h : DHdr) (c : AxisCfg)
  | nodeMgmtUnmute (t : Nat) (h : DHdr) (request : Bool) (seg node fn buf : Nat) (data : List Byte)
  | timeStep (t : Nat) (h : DHdr) (toDomain : Bool) (s : Int)
  | timeSelect (t : Nat) (h : DHdr) (domain : Nat) (auto : Bool)
  | nvWrite (t : Nat) (h : DHdr) (addr buf len : Nat) (data : List Byte)
  | nvRead (t : Nat) (h : DHdr) (addr buf len : Nat)
  | safetyLoad (t : Nat) (h : DHdr) (data : List Byte)
  | safetyConfirm (t : Nat) (h : DHdr) (check : Nat)
  | inject (t : Nat) (h : DHdr) (double : Bool) (src : Nat)
  | unfence (t : Nat) (h : DHdr) (src : Nat)
  | clearLedger (t : Nat) (h : DHdr)
  | clearFlags (t : Nat) (h : DHdr) (mask : Nat)
  | trace (t : Nat) (h : DHdr) (evtMask segMask : Nat) (compress softPass : Bool) (axisLo axisHi : Nat)
  | descriptorAccepted (t : Nat) (ring : Nat) (bytes buf : List Byte)
  | atPhaseTimeout (t : Nat) (ring : Nat) (pos : Nat)
  -- register commands
  | netSegCommit (t : Nat) (seg : Nat)
  | fbpCommit (t : Nat) (port : Nat)
  | pulCommit (t : Nat) (ch : Nat)
  | adcCommit (t : Nat) (conv : Nat)
  | hstCommit (t : Nat)
  | asyCommit (t : Nat)
  | glbCommitGo (t : Nat)
  | glbCommitAll (t : Nat)
  | glbCommitDiscard (t : Nat)
  | hstRingEnable (t : Nat) (ring : Nat)
  | hstRingDisable (t : Nat) (ring : Nat)
  | twnEnable (t : Nat) (rankBall : Bool)
  | twnRepair (t : Nat)
  | timMtLoRead (t : Nat)
  | adcPopLoRead (t : Nat) (conv : Nat)
  | pulEcntLoRead (t : Nat) (ch : Nat)
  /-- a read of the debug window; `ecc` says what its check finds: 0 none, 1 a single-bit, 2 a double-bit error, with
  its syndrome, corrected bit (0xFF for none) and the axis whose ASB holds the word (0xFFFF for none) -/
  | debugWindowRead (t : Nat) (off ecc syndrome bit axis : Nat)
  | debugWindowWrite (t : Nat) (off : Nat) (v : Word)
  | registerWrite (t : Nat) (off : Nat) (v : Word)
  | unsupportedRequest (t : Nat) (isRead : Bool) (off : Nat)
  -- boundary scan
  | bypass (t : Nat)
  | samplePreload (t : Nat)
  | extest (t : Nat)
  | tapReset (t : Nat)
  -- power, clocks, temperature, boot
  | resetRelease (t : Nat)
  | railGood (t : Nat) (rail : Nat)
  | railTimeout (t : Nat) (rail : Nat)
  | railRetry (t : Nat)
  | railFail (t : Nat) (rail : Nat)
  | railFailShutdown (t : Nat) (rail : Nat)
  | supplyNvw (t : Nat)
  | supplyHold (t : Nat)
  | vrstCrossed (t : Nat)
  | vaonMinCrossed (t : Nat)
  | vsuvCrossed (t : Nat)
  | supplyConditionEnd (t : Nat) (threshold : Nat)
  | tempHigh (t : Nat) (die : Nat)
  | tempShutdown (t : Nat) (die : Nat)
  | thermalRailOff (t : Nat)
  | thermalRestart (t : Nat) (die : Nat)
  | pllLockLoss (t : Nat) (pll : Nat)
  | tdCheck (t : Nat) (ok : Bool)
  | bootStart (t : Nat)
  | bootComplete (t : Nat) (rankBall : Bool)
  | refReady (t : Nat)
  | perst (t : Nat)
  -- internal faults
  | flitCrcError (t : Nat) (link : Nat)
  | linkDown (t : Nat) (link : Nat)
  | nvPageWriteDone (t : Nat)
  | nvTimeout (t : Nat)
  | ledgerPersistence (t : Nat)
  /-- a corrected single-bit error: store, word address, syndrome, corrected bit, and the axis whose ASB holds the word
  (0xFFFF for none) -/
  | eccCorr (t : Nat) (src addr syndrome bit axis : Nat)
  /-- a double-bit error: store, word address, syndrome, and what the word belongs to: the axis of an ASB or learning
  table, 0x1_0000 plus a coupling group, a cam table, a converter, 0xFFFF for none -/
  | eccDouble (t : Nat) (src addr syndrome obj : Nat)
  | parity (t : Nat) (src addr : Nat)
  | fabricTimeout (t : Nat) (hammer : Nat)
  | readyStall (t : Nat) (bench : Nat)
  | jobWatchdog (t : Nat) (hammer : Nat)
  | reissuePoint (t : Nat) (job : Nat)
  | hammerSlow (t : Nat) (hammer : Nat)
  | softLimit (t : Nat) (hammer : Nat)
  | preemptStop (t : Nat) (hammer : Nat)
  | softJobComplete (t : Nat) (hammer : Nat)
  | asbMoveLanded (t : Nat) (axis : Nat)
  | unfenceCheckDone (t : Nat) (src : Nat) (ok : Bool)
  -- the control cycle
  | reportClose (t : Nat) (seg : Nat)
  | reportLost (t : Nat) (seg node : Nat)
  | nodeLost (t : Nat) (seg node : Nat)
  | jobComplete (t : Nat) (hammer : Nat)
  | pourPoint (t : Nat) (seg : Nat)
  -- the Miush network
  | slotTransmit (t : Nat) (seg entry : Nat)
  | rpReceived (t : Nat) (seg : Nat) (chB : Bool) (start : Nat) (frame : List Byte)
  | receiveOverlap (t : Nat) (seg : Nat) (chB : Bool) (start : Nat) (first second : Nat)
  | nodeMuted (t : Nat) (seg node : Nat)
  | sfReceived (t : Nat) (seg : Nat) (chB : Bool) (start : Nat) (frame : List Byte)
  /-- the outcome of an own SY: the measured D_A and D_B in ns of the copies that returned valid (09 R410, R416) -/
  | syReturn (t : Nat) (seg : Nat) (da db : Option Nat)
  | channelLost (t : Nat) (seg : Nat) (chB : Bool)
  | ringHealed (t : Nat) (seg : Nat)
  | delayAdoption (t : Nat) (seg : Nat)
  | portLinkChange (t : Nat) (port : Nat) (up : Bool)
  | listenEnd (t : Nat) (seg : Nat)
  | csReceived (t : Nat) (seg : Nat) (chB : Bool) (frame : List Byte)
  | csPhaseEnd (t : Nat) (seg : Nat)
  | scheduleStart (t : Nat) (seg : Nat)
  | syReceived (t : Nat) (seg : Nat) (chB : Bool) (frame : List Byte)
  | inAnswer (t : Nat) (seg : Nat) (chB : Bool) (start : Nat) (frame : List Byte)
  | lcClaim (t : Nat) (seg : Nat) (chB : Bool) (start : Nat) (frame : List Byte)
  | mgAnswer (t : Nat) (seg : Nat) (chB : Bool) (start : Nat) (frame : List Byte)
  | mgmtRequestTimeout (t : Nat) (seg : Nat)
  | nodeNotFound (t : Nat) (seg node : Nat)
  | latecomerWithdrawn (t : Nat) (seg node : Nat)
  -- major cycle, masters, host
  | majorCycleBoundary (t : Nat)
  | masterInterval (t : Nat)
  | poll (t : Nat) (page : List (Nat × Word))
  | hostHbTimeout (t : Nat)
  | cyclePoint (t : Nat) (k : Nat)
  | pcieLinkDown (t : Nat)
  | pcieLinkUp (t : Nat) (speed width : Nat)
  | plantFrameSend (t : Nat) (port : Nat) (ident len : Nat) (tsReq : Bool) (frame : List Byte)
  | plantFrameReceived (t : Nat) (port : Nat) (stamp : Nat) (fcsOk : Bool) (frame : List Byte)
  -- machine time
  /-- a Sync with its Follow_Up: raw count at the time-stamp point, preciseOriginTimestamp in ns, correctionField in
  2^-16 ns, cumulativeScaledRateOffset (0 without the TLV), logSyncInterval (10 R438, R439) -/
  | gptpSyncReceived (t : Nat) (port : Nat) (rawI : Nat) (origin : Nat) (correction : Int) (cumRate : Int) (logInt : Int)
  | announceReceived (t : Nat) (port : Nat) (gmid : Nat)
  | pdelayReqInterval (t : Nat) (port : Nat)
  /-- a peer-delay exchange ends: meanLinkDelay in 1/16 ns, neighborRateRatio as 1 + nrr × 2^-41, and what clause 11
  says of asCapable apart from the delay threshold (10 R449) -/
  | pdelayResponseReceived (t : Nat) (port : Nat) (mld : Nat) (nrr : Int) (capable : Bool)
  | pdelayReqReceived (t : Nat) (port : Nat) (frame : List Byte)
  | syncReceiptTimeout (t : Nat) (domain : Nat)
  | announceReceiptTimeout (t : Nat) (domain : Nat)
  | holdoverExpiry (t : Nat) (domain : Nat)
  -- encoder ports, latches, steps, converters
  | illegalTransition (t : Nat) (port : Nat)
  | indexEdge (t : Nat) (port : Nat)
  | fbpWire (t : Nat) (port : Nat)
  | fbpAmpl (t : Nat) (port : Nat)
  | fbpOverspeed (t : Nat) (port : Nat)
  | speedWindowEnd (t : Nat) (port : Nat)
  | encSupplyOvl (t : Nat) (port : Nat)
  | encSupplyTotalOvl (t : Nat)
  | encSupplyRestart (t : Nat) (port : Nat)
  | encSupplySettled (t : Nat) (port : Nat)
  | latchEdge (t : Nat) (input : Nat)
  | latchEntryPost (t : Nat) (input : Nat)
  | stepBoundary (t : Nat) (ch : Nat)
  | pulHalt (t : Nat) (ch : Nat)
  | pulParity (t : Nat) (ch : Nat)
  | adcSequenceStart (t : Nat) (conv : Nat)
  | adcConversionComplete (t : Nat) (conv : Nat) (code : Int)
  -- twin link
  | twinHbReceived (t : Nat) (mode : Nat) (role rank pair : Nat) (segStates : List Nat) (deltas : List Int)
  | tagReceived (t : Nat) (seg ring pos seq opc crc status tag minor : Nat)
  | cplReceived (t : Nat) (ring pos : Nat) (record : List Byte)
  | useReceived (t : Nat) (seg : Nat) (tag minor : Nat) (map : Nat) (records : List (Nat × List Byte)) (x : List (Nat × Int))
      (e : List (Nat × Int))
  | mstReceived (t : Nat) (vals : List MasterVal)
  | digReceived (t : Nat) (seg tag minor : Nat) (digest : Nat)
  | outReceived (t : Nat) (o : TwinOut)
  | evtReceived (t : Nat) (mark : List Byte)
  /-- a BLK: its segment (0xFF for a cam table), the identity of its unit or cam table, snapshot cycle, offset
  and bytes (15 R602, R603) -/
  | blkReceived (t : Nat) (seg unit tag minor off : Nat) (crcOk : Bool) (data : List Byte)
  | reqReceived (t : Nat) (off : Nat)
  | twinLaneDown (t : Nat) (lane : Nat)
  | twinLaneUp (t : Nat) (lane : Nat)
  | twinLinkLost (t : Nat)
  | pairingStart (t : Nat)
  | changeover (t : Nat)
  | twinDualLeader (t : Nat)
  -- assay
  | markRelease (t : Nat)
  -- safety island
  | safetyTick (t : Nat) (fbA fbB lowA lowB highA highB : Nat)
  | tickTimeout (t : Nat) (chB : Bool)
  | peerSnapshot (t : Nat) (chB : Bool)
  | resultCompare (t : Nat) (chB : Bool) (same : Bool)
  | peerSilent (t : Nat) (chB : Bool)
  | selftestFail (t : Nat) (chB : Bool)
  | testPulseEnd (t : Nat) (chB : Bool) (tp : Nat)
  | safDiscrepancy (t : Nat) (pair : Nat)
  | stop1DelayExpiry (t : Nat) (fn : Nat)
  | outputReadbackCheck (t : Nat) (out : Nat) (mvA mvB mvSafe : Int)
  | safOverload (t : Nat) (out : Nat)
  | feedbackTimeout (t : Nat) (out : Nat)
  | safConnLost (t : Nat) (conn : Nat)
  | singleTimeExpiry (t : Nat) (conn : Nat)
  | safetyChannelPowerUp (t : Nat) (chB : Bool)
  | safetyInputSample (t : Nat) (chB : Bool) (levels : Nat)
  -- periodic samples and edges
  | quadratureCount (t : Nat) (port : Nat) (up : Bool)
  | sincosSample (t : Nat) (port : Nat) (sin cos : Int)
  | rateMultiplierCarry (t : Nat) (ch : Nat)
  | dividedOutputEdge (t : Nat) (port : Nat)
  | ctReceived (t : Nat) (seg : Nat) (chB : Bool) (frame : List Byte)
  | plantPortLinkChange (t : Nat) (port : Nat) (up : Bool)
  | powerDomainUp (t : Nat) (domain : Nat)
  | abandonedRunStop (t : Nat) (hammer : Nat)
  | temperatureConditionEnd (t : Nat) (die : Nat)
  | msiXVectorUnmask (t : Nat) (vec : Nat)
  | nvPageReadDone (t : Nat)
  deriving DecidableEq, Repr

/-- The time at which a command takes place. -/
def Instr.time : Instr → Nat
  | .nop t _ => t
  | .fence t _ _ _ => t
  | .mode t _ _ => t
  | .moveAbs t _ _ => t
  | .moveRel t _ _ => t
  | .jog t _ _ => t
  | .stop t _ => t
  | .limits t _ _ _ _ _ _ => t
  | .follow t _ _ _ _ _ _ => t
  | .gear t _ _ _ _ _ _ => t
  | .camEngage t _ _ _ _ _ _ _ _ _ => t
  | .camDisengage t _ _ => t
  | .groupMove t _ _ => t
  | .phaseIn t _ _ => t
  | .setc t _ _ _ _ => t
  | .loadset t _ _ _ _ => t
  | .swapset t _ _ => t
  | .terrace t _ _ _ _ _ _ _ _ => t
  | .filter t _ _ _ => t
  | .learn t _ _ => t
  | .resample t _ _ _ => t
  | .couple t _ _ => t
  | .ident t _ _ => t
  | .camLoad t _ _ _ _ _ _ => t
  | .axisCfg t _ _ => t
  | .nodeMgmtUnmute t _ _ _ _ _ _ _ => t
  | .timeStep t _ _ _ => t
  | .timeSelect t _ _ _ => t
  | .nvWrite t _ _ _ _ _ => t
  | .nvRead t _ _ _ _ => t
  | .safetyLoad t _ _ => t
  | .safetyConfirm t _ _ => t
  | .inject t _ _ _ => t
  | .unfence t _ _ => t
  | .clearLedger t _ => t
  | .clearFlags t _ _ => t
  | .trace t _ _ _ _ _ _ _ => t
  | .descriptorAccepted t _ _ _ => t
  | .atPhaseTimeout t _ _ => t
  | .netSegCommit t _ => t
  | .fbpCommit t _ => t
  | .pulCommit t _ => t
  | .adcCommit t _ => t
  | .hstCommit t => t
  | .asyCommit t => t
  | .glbCommitGo t => t
  | .glbCommitAll t => t
  | .glbCommitDiscard t => t
  | .hstRingEnable t _ => t
  | .hstRingDisable t _ => t
  | .twnEnable t _ => t
  | .twnRepair t => t
  | .timMtLoRead t => t
  | .adcPopLoRead t _ => t
  | .pulEcntLoRead t _ => t
  | .debugWindowRead t _ _ _ _ _ => t
  | .debugWindowWrite t _ _ => t
  | .registerWrite t _ _ => t
  | .unsupportedRequest t _ _ => t
  | .bypass t => t
  | .samplePreload t => t
  | .extest t => t
  | .tapReset t => t
  | .resetRelease t => t
  | .railGood t _ => t
  | .railTimeout t _ => t
  | .railRetry t => t
  | .railFail t _ => t
  | .railFailShutdown t _ => t
  | .supplyNvw t => t
  | .supplyHold t => t
  | .vrstCrossed t => t
  | .vaonMinCrossed t => t
  | .vsuvCrossed t => t
  | .supplyConditionEnd t _ => t
  | .tempHigh t _ => t
  | .tempShutdown t _ => t
  | .thermalRailOff t => t
  | .thermalRestart t _ => t
  | .pllLockLoss t _ => t
  | .tdCheck t _ => t
  | .bootStart t => t
  | .bootComplete t _ => t
  | .refReady t => t
  | .perst t => t
  | .flitCrcError t _ => t
  | .linkDown t _ => t
  | .nvPageWriteDone t => t
  | .nvTimeout t => t
  | .ledgerPersistence t => t
  | .eccCorr t _ _ _ _ _ => t
  | .eccDouble t _ _ _ _ => t
  | .parity t _ _ => t
  | .fabricTimeout t _ => t
  | .readyStall t _ => t
  | .jobWatchdog t _ => t
  | .reissuePoint t _ => t
  | .hammerSlow t _ => t
  | .softLimit t _ => t
  | .preemptStop t _ => t
  | .softJobComplete t _ => t
  | .asbMoveLanded t _ => t
  | .unfenceCheckDone t _ _ => t
  | .reportClose t _ => t
  | .reportLost t _ _ => t
  | .nodeLost t _ _ => t
  | .jobComplete t _ => t
  | .pourPoint t _ => t
  | .slotTransmit t _ _ => t
  | .rpReceived t _ _ _ _ => t
  | .receiveOverlap t _ _ _ _ _ => t
  | .nodeMuted t _ _ => t
  | .sfReceived t _ _ _ _ => t
  | .syReturn t _ _ _ => t
  | .channelLost t _ _ => t
  | .ringHealed t _ => t
  | .delayAdoption t _ => t
  | .portLinkChange t _ _ => t
  | .listenEnd t _ => t
  | .csReceived t _ _ _ => t
  | .csPhaseEnd t _ => t
  | .scheduleStart t _ => t
  | .syReceived t _ _ _ => t
  | .inAnswer t _ _ _ _ => t
  | .lcClaim t _ _ _ _ => t
  | .mgAnswer t _ _ _ _ => t
  | .mgmtRequestTimeout t _ => t
  | .nodeNotFound t _ _ => t
  | .latecomerWithdrawn t _ _ => t
  | .majorCycleBoundary t => t
  | .masterInterval t => t
  | .poll t _ => t
  | .hostHbTimeout t => t
  | .cyclePoint t _ => t
  | .pcieLinkDown t => t
  | .pcieLinkUp t _ _ => t
  | .plantFrameSend t _ _ _ _ _ => t
  | .plantFrameReceived t _ _ _ _ => t
  | .gptpSyncReceived t _ _ _ _ _ _ => t
  | .announceReceived t _ _ => t
  | .pdelayReqInterval t _ => t
  | .pdelayResponseReceived t _ _ _ _ => t
  | .pdelayReqReceived t _ _ => t
  | .syncReceiptTimeout t _ => t
  | .announceReceiptTimeout t _ => t
  | .holdoverExpiry t _ => t
  | .illegalTransition t _ => t
  | .indexEdge t _ => t
  | .fbpWire t _ => t
  | .fbpAmpl t _ => t
  | .fbpOverspeed t _ => t
  | .speedWindowEnd t _ => t
  | .encSupplyOvl t _ => t
  | .encSupplyTotalOvl t => t
  | .encSupplyRestart t _ => t
  | .encSupplySettled t _ => t
  | .latchEdge t _ => t
  | .latchEntryPost t _ => t
  | .stepBoundary t _ => t
  | .pulHalt t _ => t
  | .pulParity t _ => t
  | .adcSequenceStart t _ => t
  | .adcConversionComplete t _ _ => t
  | .twinHbReceived t _ _ _ _ _ _ => t
  | .tagReceived t _ _ _ _ _ _ _ _ _ => t
  | .cplReceived t _ _ _ => t
  | .useReceived t _ _ _ _ _ _ _ => t
  | .mstReceived t _ => t
  | .digReceived t _ _ _ _ => t
  | .outReceived t _ => t
  | .evtReceived t _ => t
  | .blkReceived t _ _ _ _ _ _ _ => t
  | .reqReceived t _ => t
  | .twinLaneDown t _ => t
  | .twinLaneUp t _ => t
  | .twinLinkLost t => t
  | .pairingStart t => t
  | .changeover t => t
  | .twinDualLeader t => t
  | .markRelease t => t
  | .safetyTick t _ _ _ _ _ _ => t
  | .tickTimeout t _ => t
  | .peerSnapshot t _ => t
  | .resultCompare t _ _ => t
  | .peerSilent t _ => t
  | .selftestFail t _ => t
  | .testPulseEnd t _ _ => t
  | .safDiscrepancy t _ => t
  | .stop1DelayExpiry t _ => t
  | .outputReadbackCheck t _ _ _ _ => t
  | .safOverload t _ => t
  | .feedbackTimeout t _ => t
  | .safConnLost t _ => t
  | .singleTimeExpiry t _ => t
  | .safetyChannelPowerUp t _ => t
  | .safetyInputSample t _ _ => t
  | .quadratureCount t _ _ => t
  | .sincosSample t _ _ _ => t
  | .rateMultiplierCarry t _ => t
  | .dividedOutputEdge t _ => t
  | .ctReceived t _ _ _ => t
  | .plantPortLinkChange t _ _ => t
  | .powerDomainUp t _ => t
  | .abandonedRunStop t _ => t
  | .temperatureConditionEnd t _ => t
  | .msiXVectorUnmask t _ => t
  | .nvPageReadDone t => t

end Sys2Proof
end

