-- ==== Sys2Proof/Config.lean ====
section
/-! DEFINITION. What the spec leaves to the implementation or leaves open: constants with no body, so that no
proof can lean on a value the spec does not give. -/

namespace Sys2Proof

/-- The fixed rank of a device of stepping A0: GLB_ID at BAR0 0x00_0000 (R1). -/
def Config.deviceId : Nat := 0x0B4E0512

/-- The 64-bit serial number of this device (R798): each device has its own, and the spec names none. A free
value, log 5. -/
opaque Config.serial : Nat

/-- The nonce a segment draws when it enters the CS phase (R392): the spec gives no value. Applied to the
machine's counter `State.free`, so each draw is a fresh free value, log 6. -/
opaque Config.freeNonce : Nat → BitVec 16

/-- Whether the angle of a sine/cosine pair is quantised to the step above it (R472 names 1024 steps and no rounding),
log 8. -/
opaque Config.angleUp : Int → Int → Bool

/-- A free value of any other kind: a result the spec does not state. Applied to the machine's counter
`State.free`, log 7. -/
opaque Config.freeValue : Nat → Int

end Sys2Proof
end

