-- ==== Sys2Proof/Machine/State.lean ====
section
/-! DEFINITION. The state of the block as plain data: every register, queue, counter, mode and pin the spec gives
the machine, and the queue of waiting commands. One structure per unit; tables are sparse maps whose unlisted
entries read as the default that the accessors of Ops.lean name. -/

namespace Sys2Proof.Machine

/-- The faults of the block: none is raised by any meaning, since every command has an effect in the spec; the one
reason is kept for a state no run reaches. Safe: nothing is claimed of it. -/
inductive Fault where
  /-- Raised by no meaning (safe). -/
  | stuck
  deriving DecidableEq, Repr

/-- The refusals of the block. -/
inductive Refusal where
  /-- Raised only by an arm of `exec` whose command has no meaning yet (safe: the model stops where the machine
  goes on). -/
  | notModelled (mnemonic : String)
  deriving DecidableEq, Repr

/-! ## What the block puts on its boundary -/

/-- What the block puts on its boundary: frames, host writes, messages, pin levels and read values (the model's own
output list, log 2). -/
inductive Out where
  /-- the value answered to a BAR0 read -/
  | read (off value : Nat)
  /-- a BAR0 access answered as an Unsupported Request (R543) -/
  | unsupported (isRead : Bool) (off : Nat)
  /-- a Miush frame on one port: channel A leaves West, channel B East (R348) -/
  | frame (seg : Nat) (chB : Bool) (start : Nat) (bytes : List Byte)
  /-- a frame that a follower passes on, unmodified, from the port where its channel arrives to the other (15 R584); its
  latency, at most 320 ns, is not told -/
  | forward (seg : Nat) (chB : Bool) (bytes : List Byte)
  /-- one entry of a host ring (14 Table 14.2) -/
  | ring (r index : Nat) (entry : List Byte)
  /-- bytes written to the status page (14 Table 14.4) -/
  | status (off : Nat) (bytes : List Byte)
  /-- bytes written to a host buffer (NV_READ, NODE_MGMT) -/
  | hostWrite (addr : Nat) (bytes : List Byte)
  /-- an MSI-X message (R573, R374) -/
  | msi (vec : Nat)
  /-- a twin message: type, segment, cycle, payload, and the bits of its CRC-32C that an injection inverts (15 Tables
  15.2 and 15.3, 16 R648) -/
  | twin (type seg tag minor : Nat) (payload : List Byte) (flip : Nat)
  /-- a host frame on a plant port, with its pad and without its FCS (R570) -/
  | plant (port : Nat) (bytes : List Byte)
  /-- a gPTP message on a plant port: 0 Pdelay_Req, 1 Pdelay_Resp, 2 Pdelay_Resp_Follow_Up, its domainNumber and its
  sequence (R449) -/
  | gptp (port msg domain seq : Nat)
  /-- one emitted step: STEP active (low where `low`) for `width` clocks from the CK_FB clock `start` on (R511) -/
  | step (ch : Nat) (up : Bool) (start width : Nat) (low : Bool)
  /-- one emitted step in mode AB: the new state 0 to 3 of A and B (R511) -/
  | quad (ch state : Nat)
  /-- the DIR ball changes in the CK_FB clock `start` (R511) -/
  | dir (ch : Nat) (start : Nat) (up : Bool)
  /-- one quadrature edge of a divided-pulse output, with the new state 0 to 3 (R481) -/
  | divided (port state : Nat)
  /-- the Z output of a divided-pulse stage, high for `width` samples from the next sample on (R483) -/
  | index (port width : Nat)
  /-- an encoder supply switched on or off (R484, R485) -/
  | supply (port : Nat) (on : Bool)
  /-- a safety output switch: channel, output, closed (R661) -/
  | safety (chB : Bool) (out : Nat) (closed : Bool)
  /-- a test-pulse source switched off for its pulse (R676) -/
  | pulse (tp : Nat)
  /-- a switch of a safety output opened for its test pulse of 300 µs (R688) -/
  | outPulse (chB : Bool) (out : Nat)
  /-- a safety tick carrying MT (R663) -/
  | tick (mt : Nat)
  deriving DecidableEq, Repr

/-! ## Machine time (10) -/

/-- The states of a time domain (10 Table 10.1). -/
inductive DomState where
  | off | listen | acquire | locked | holdover | lost
  deriving DecidableEq, Repr

/-- One time domain (R437 to R440). -/
structure Domain where
  st : DomState := .off
  ofs : Int := 0
  rate : Int := 0
  r0 : Nat := 0
  freq : Int := 0
  lastE : Int := 0
  mld : Nat := 0
  gmid : Nat := 0
  lastRaw : Nat := 0
  good : Nat := 0
  /-- the next sample is the first one of ACQUIRE (R440) -/
  first : Bool := false
  /-- the clamp of F_k, and that of RATE_k, bound in the last sample (R439) -/
  clampF : Bool := false
  clampR : Bool := false
  announced : Bool := false
  capable : Bool := false
  enteredAt : Nat := 0
  /-- logSyncInterval of the last Sync (Table 10.3A) -/
  syncLog : Int := 0
  /-- the raw count at which a sample was last taken, with OFS_k, RATE_k and R_k before it (R457) -/
  prior : Option (Nat × Int × Int × Nat) := none
  deriving DecidableEq, Repr

/-- One plant port (R449 to R453, R570). -/
structure PlantPort where
  up : Bool := false
  prod : Nat := 0
  cons : Nat := 0
  seq : Nat := 0
  drop : Nat := 0
  nrr : Int := 0
  pdSeq : Nat := 0
  /-- the core clock in which the last host frame left (14 R570) -/
  sentAt : Option Nat := none
  /-- the raw count at which the last Pdelay_Req left -/
  pdAt : Option Nat := none
  deriving DecidableEq, Repr

/-- The time unit (R430 to R436): `lockAt` is the time at which CK_TIME locked, in quarter nanoseconds. -/
structure TimeUnit where
  lockAt : Nat := 0
  ofs : Int := 0
  rate : Int := 0
  r0 : Nat := 0
  mtHi : Nat := 0
  stepped : Bool := false
  slewing : Bool := false
  /-- a TIME_STEP and a TIME_SELECT acted at the boundary in progress (R455, R456) -/
  stepTaken : Bool := false
  selTaken : Bool := false
  /-- the core clocks, plus one, of the last major-cycle boundary and master interval taken (R434, 11 R464) -/
  lastBoundary : Nat := 0
  lastInterval : Nat := 0
  /-- the raw count of the boundary at which the active domain last changed (R458) -/
  switchedAt : Option Nat := none
  d0 : Domain := {}
  d1 : Domain := {}
  p0 : PlantPort := {}
  p1 : PlantPort := {}
  deriving DecidableEq, Repr

/-! ## Modes, power, clocks (18, 01) -/

/-- The device modes (14 Table 14.8), in the order of their codes. -/
inductive DevMode where
  | reset | boot | commission | idle | armed | run | degraded | safeHold | follow
  deriving DecidableEq, Repr

/-- The causes of the last reset (18 Table 18.12). -/
inductive ResetCause where
  | powerOn | vrst | rail | thermal | clock
  deriving DecidableEq, Repr

/-- The nine rails (18 Table 18.1), in the order of PWR_STATUS.GOOD from bit 16 up. -/
inductive Rail where
  | vaon | vio | vafe | v1p0 | vcore | venc5 | venc3 | vsa | vsb
  deriving DecidableEq, Repr

/-- Supervisor, clocks and mode (18 R720 to R737, 01 R37, R40). -/
structure Power where
  mode : DevMode := .boot
  prev : DevMode := .reset
  changes : Nat := 0
  degradedFrom : DevMode := .idle
  /-- allowed MODE transitions waiting for the boundary: from, to, descriptor (R735) -/
  pendMode : List (DevMode × DevMode × Nat) := []
  railsGood : List Rail := []
  enabling : Option (Rail × Nat) := none
  /-- failed sequencing attempts, and the time of the last (R37) -/
  attempts : Nat := 0
  failedAt : Nat := 0
  /-- a failure of VIO or VAFE whose shutdown is due, and the start of a thermal shutdown (R722, R40) -/
  railLost : Option Nat := none
  shutAt : Option Nat := none
  nvw : Bool := false
  /-- the core clock, plus 1, in which VNVW was crossed: a page write that starts in it is written (R750) -/
  nvwAt : Nat := 0
  hold : Bool := false
  vrst : Bool := false
  vaonMin : Bool := false
  vsuv : Bool := false
  hot : List Nat := []
  shut : List Nat := []
  cause : ResetCause := .powerOn
  causeRail : Nat := 0
  resets : Nat := 0
  /-- power domains on, by the bit numbers of PWR_DOM -/
  domains : List Nat := []
  plls : List Nat := []
  tdOk : Bool := false
  /-- the last measurement of the TD oscillator (R731) -/
  tdAt : Option Nat := none
  refclk : Bool := false
  perst : Bool := false
  /-- inter-die links down, by number 0 to 3 (R7) -/
  linksDown : List Nat := []
  retrans : SMap Nat := []
  /-- the last time at which the total current of the encoder supplies switched one off (11 R486) -/
  supTotalAt : Option Nat := none
  deriving DecidableEq, Repr

/-! ## Non-volatile store (18 R742 to R748) -/

/-- A page transfer in progress (R742). -/
inductive NvJob where
  /-- NV_WRITE of the pages left, from a page number, `done` bytes written -/
  | write (id page : Nat) (rest : List Byte) (done : Nat)
  /-- NV_READ into a host buffer -/
  | read (id page left buf done : Nat)
  /-- NV_READ of a learning snapshot into an axis table -/
  | snapshot (id axis page left : Nat) (got : List Byte)
  /-- SAFETY_CONFIRM writing the SPS and its confirmation page (R747) -/
  | confirm (id page : Nat) (rest : List Byte) (check : Nat)
  /-- ledger persistence (R635) -/
  | ledger (page : Nat) (rest : List (List Byte))
  deriving DecidableEq, Repr

/-- The NV die. -/
structure Nv where
  /-- pages written since manufacture, by page number; each is its 1024 bytes -/
  pages : SMap (List Byte) := []
  job : Option NvJob := none
  waiting : List NvJob := []
  startedAt : Nat := 0
  bootErr : Nat := 0
  image : Nat := 0
  aValid : Bool := false
  bValid : Bool := false
  camBad : Nat := 0
  bootRec : Nat := 0
  gen : Nat := 0
  suspect : Nat := 0
  suspectAddr : Nat := 0
  ledgerPage : Nat := 0
  /-- device data cannot be read or holds no serial (R798) -/
  noSerial : Bool := false
  deriving DecidableEq, Repr

/-! ## Set-up registers (19) -/

/-- The register file: values in force and staging copies by BAR0 offset, and the locked-write record. -/
structure Regs where
  force : SMap Nat := []
  stage : SMap Nat := []
  /-- block codes with staged writes not applied (GLB_PEND0, GLB_PEND1) -/
  pend : List Nat := []
  /-- REASON of the last commit by block code -/
  reason : SMap Nat := []
  glbReason : Nat := 0
  glbSub : Nat := 0
  glbBlock : Nat := 0
  lockedSeen : Bool := false
  lockedCount : Nat := 0
  lockedAddr : Nat := 0
  deriving DecidableEq, Repr

/-! ## Host interface (14) -/

/-- When an accepted descriptor takes effect (R64 to R67, R561, R562). -/
inductive Due where
  | next
  /-- at the (N, 0) apply point of the major cycle named -/
  | cycle (n : Nat)
  | phase (v : Nat)
  deriving DecidableEq, Repr

/-- How far an accepted descriptor has come. -/
inductive Progress where
  | waiting
  /-- took effect in (n, m) and runs on -/
  | running (n m : Nat)
  /-- ended: status, applied cycle, minor cycle, result -/
  | done (status n m : Nat) (result : List Byte)
  deriving DecidableEq, Repr

/-- An accepted descriptor (R556 to R563). -/
structure Entry where
  id : Nat
  ring : Nat
  pos : Nat
  seq : Nat
  irq : Bool
  tgt : Nat
  op : DOp
  due : Due
  accN : Nat
  accT : Nat
  prog : Progress
  /-- the leader's tag, at a follower (R594) -/
  tagged : Option (Nat × Nat × Nat)
  /-- the segment whose apply points it takes, settled at acceptance; none for the device (R67) -/
  seg : Option Nat
  /-- the CRC-32C of its bytes and of the buffer it reads (15 R594) -/
  crc : Nat
  deriving DecidableEq, Repr

/-- One host ring (R546 to R552). -/
structure Ring where
  on : Bool := false
  disabling : Bool := false
  /-- the controller's own index -/
  own : Nat := 0
  /-- the host's index last read -/
  host : Nat := 0
  reason : Nat := 0
  drop : Nat := 0
  /-- a message was sent in this major cycle; one is withheld (R573) -/
  sent : Bool := false
  withheld : Bool := false
  /-- entries dropped in this major cycle, for the detail of RING_DROP -/
  dropNow : Nat := 0
  /-- descriptors fetched and not yet accepted -/
  fetched : Nat := 0
  deriving DecidableEq, Repr

/-- The host engine. -/
structure HostIf where
  rings : SMap Ring := []
  acc : List Entry := []
  /-- the group DEFINEs that took effect: (INTERPOLATION 1 or COUPLING 0, group) to (acceptance number, segment) (02 R67) -/
  defined : List ((Nat × Nat) × (Nat × Nat)) := []
  nextId : Nat := 0
  linkUp : Bool := false
  speed : Nat := 0
  width : Nat := 0
  commitFailed : Bool := false
  hbWord : Nat := 0
  hbAt : Nat := 0
  /-- the granule, counted through all major cycles, of the last poll (R555), and those of the last firings of the cycle points,
  plus one (08 R373) -/
  polledAt : Option Nat := none
  cpFired : SMap Nat := []
  hbChecking : Bool := false
  hbLate : Bool := false
  hbSticky : Bool := false
  msiMasked : List Nat := []
  msiPending : List Nat := []
  cpCount : SMap Nat := []
  /-- the granule, counted from MT 0, of the last cycle-point firing on each vector, plus 1 (R376) -/
  cpLast : SMap Nat := []
  latDrop : Nat := 0
  deriving DecidableEq, Repr

/-! ## The pool (01, 03) -/

/-- What a hammer runs: a hard job or a soft job, by its key. -/
inductive JobKey where
  | axis (a : Nat)
  | group (g : Nat)
  deriving DecidableEq, Repr

/-- The classes of soft work, highest priority first (03 Table 03.1). -/
inductive SoftClass where
  | resample (axis : Nat)
  | ident (axis block : Nat)
  /-- statistics of a segment, with the bytes taken at the update (14 Table 14.12) -/
  | stat (seg : Nat) (area : List Byte)
  | compress
  deriving DecidableEq, Repr

/-- A soft job: serial, class, core clocks run so far, and fabric timeouts met (R30). `accs` are the accumulators ACC0 to
ACC3 with their frozen bits as its context holds them (06 R278): what a program has in them at a stage boundary the spec does
not give, so they are free values (log 88). -/
structure Soft where
  serial : Nat
  cls : SoftClass
  ran : Nat := 0
  timeouts : Nat := 0
  accs : List (Int × Bool) := []
  deriving DecidableEq, Repr

/-- A hard run: its job, its dispatch time in core clocks, the calibrated length, the added cost of its steal
domain. -/
structure HardRun where
  key : JobKey
  since : Nat
  len : Nat
  cost : Nat
  dom : Nat
  deadline : Nat
  copy : Bool
  /-- its rival completed: it stops at its next stage boundary (R132) -/
  abandoned : Bool
  deriving DecidableEq, Repr

/-- A run on a hammer; a soft run may have been asked to stop (R124). -/
inductive Run where
  | hard (r : HardRun)
  | soft (j : Soft) (since : Nat) (stopping : Bool)
  deriving DecidableEq, Repr

/-- One hammer (R12, R111, R126, R135). A fence of a hammer stands in the assay unit's source table. -/
structure Hammer where
  slow : Bool := false
  overrun : Nat := 0
  run : Option Run := none
  ctx : Option (Soft × Nat) := none
  /-- the deadlines of runs that received a copy: no further hard job with one of them (R133) -/
  barred : List Nat := []
  /-- the core clock, plus 1, in which its soft run was asked to stop (R151) -/
  askedAt : Nat := 0
  /-- a run placed on this hammer that waits for a pre-emption or a landing: job, copy, steal domain (R130, R140) -/
  resv : Option (JobKey × Bool × Nat) := none
  deriving DecidableEq, Repr

/-- The report an axis job of a cycle reads (R62, R369, R800). -/
inductive ReportIn where
  /-- a valid report: position, torque actual, status word, aux -/
  | valid (pos tact : Int) (astat aux : Nat)
  | stale
  /-- no valid report outside the stale allowance (R800) -/
  | kept
  deriving DecidableEq, Repr

/-- The inputs of one axis job, taken at its report-close point. -/
structure JobIn where
  rep : ReportIn
  /-- p_M of the axis's phase master and whether it is valid -/
  phaseM : Option Int
  /-- p_M of the motion source's master, none when invalid -/
  srcM : Option Int
  /-- p_M of the master of a pending cam switch -/
  swM : Option Int
  /-- analogue source value, Q1.15 -/
  ai : Int
  /-- the loops are closed in this cycle -/
  closed : Bool
  /-- the record of this cycle is ESTOP_LOCAL (R637, R639) -/
  estop : Bool
  /-- the ENABLE bit of every other record of the cycle (04 R207) -/
  enable : Bool
  /-- the segment is halved: two generator steps (R332) -/
  two : Bool
  deriving DecidableEq, Repr

/-- A hard job of the current cycle. -/
structure Job where
  key : JobKey
  seg : Nat
  n : Nat
  m : Nat
  deadline : Nat
  len : Nat
  input : JobIn
  /-- still in a ready list -/
  ready : Bool
  /-- a copy waits in the home list (row 5 of Table 03.4): the order of its entry, 0 for none -/
  listedCopy : Nat
  hasCopy : Bool
  /-- fabric timeouts met (R30) -/
  timeouts : Nat
  deriving DecidableEq, Repr

/-- The pool's state. -/
structure Pool where
  hammers : SMap Hammer := []
  jobs : List Job := []
  soft : SMap (List Soft) := []
  serial : Nat := 0
  nextValley : Nat := 0
  home : SMap Nat := []
  moving : SMap Nat := []
  steal : SMap Nat := []
  xsteal : SMap Nat := []
  reissue : SMap Nat := []
  preempt : SMap Nat := []
  traceSeq : Nat := 0
  /-- trace records of the present core clock, by ascending hammer and event code, not yet in the ring (R145) -/
  traceHeld : List (List Byte) := []
  traceDrop : Nat := 0
  /-- trace records that wait for their compression job (Table 03.1) -/
  traceBuf : List (List Byte) := []
  compress : Bool := false
  /-- elements that passed UNFENCE and rejoin at the boundary (R47) -/
  rejoin : List Nat := []
  /-- UNFENCE checks running: source and descriptor -/
  checks : List (Nat × Nat) := []
  /-- for each bench whose list holds ready work, the core clock, plus 1, from which its stall count runs (R24, R115) -/
  stall : SMap Nat := []
  /-- group jobs that join their lists in the next core clock (R110) -/
  joining : List JobKey := []
  /-- elements fenced in the present core clock, and the hard runs that were lost in it with the hammer (01 R51) -/
  fencedNow : List Nat := []
  lostNow : List (Nat × HardRun) := []
  /-- longest hard run, steals and copies over the statistics window, by segment (14 Table 14.12) -/
  statLong : SMap Nat := []
  statSteal : SMap Nat := []
  statXsteal : SMap Nat := []
  statCopies : SMap Nat := []
  statHolds : SMap Nat := []
  statSlack : SMap Nat := []
  deriving DecidableEq, Repr

/-! ## Axes: the axis state block (04, 05, 07) -/

/-- The axis kinds (R155), in the order of their AXIS_CFG codes. -/
inductive AxisKind where
  | pos | vel | drv | trq
  deriving DecidableEq, Repr

/-- The axis modes of the MODE descriptor (14 Table 14.7). -/
inductive AxisMode where
  | disabled | enabled | closed
  deriving DecidableEq, Repr

/-- Delay states of a biquad section (R175), Q1.31. -/
structure Biquad where
  x1 : Int := 0
  x2 : Int := 0
  y1 : Int := 0
  y2 : Int := 0
  deriving DecidableEq, Repr

/-- The AXIS_CFG setting in force (R566, R795). -/
structure AxisSet where
  kind : AxisKind := .pos
  /-- 0 default, 1 CLAMP, 2 BACKCALC (R173) -/
  aw : Nat := 0
  fbFrac : Nat := 0
  vffFrac : Nat := 0
  /-- stage enables, AXIS_CFG byte 15 -/
  stages : Nat := 0
  /-- stop policies, 0 HALT 1 RAMP 2 ESTOP (R325) -/
  faultPol : Nat := 2
  stopPol : Nat := 1
  noReverse : Bool := false
  cross : Bool := false
  catchK : Coef := ⟨0x40000000, -3⟩
  catchV : Int := 0
  deriving DecidableEq, Repr

/-- Feedback of an axis (R159 to R162). Positions Q48.16. -/
structure Feedback where
  pM : Int := 0
  p : Int := 0
  v : Int := 0
  repLast : Int := 0
  /-- a valid report has been taken since AXIS_CFG, integration or a grant -/
  seen : Bool := false
  tact : Int := 0
  astat : Nat := 0
  aux : Nat := 0
  /-- FAULT of the last valid report (R352) -/
  repFault : Bool := false
  deriving DecidableEq, Repr

/-- Loop states (R168 to R184). -/
structure LoopSt where
  xp : Int := 0
  xv : Int := 0
  tauPrev : Int := 0
  bq : SMap Biquad := []
  /-- the past inputs of the FIR, newest first -/
  fir : List Int := []
  /-- sections whose delay states the next job fills (R176) -/
  fill : Nat := 0
  /-- sticky flags, 04 Table 04.3 -/
  flags : BitVec 8 := 0
  deriving DecidableEq, Repr

/-- Coefficients and limits (R188). The key of a terraced entry is 128 × bank + 32 × terrace + index; of a FIR
tap, 256 + 16 × bank + k. -/
structure Coefs where
  tab : SMap Coef := []
  /-- active bank of terraces 0 to 3 (bits 0 to 3) and of the FIR (bit 4) -/
  bank : Nat := 0
  kve : Coef := ⟨0x40000000, 1⟩
  vlim : Int := 0x7FFFFFFF
  xpLim : Int := 0
  xvLim : Int := 0
  tlimPos : Int := 0x7FFFFFFF
  tlimNeg : Int := -0x80000000
  dtlim : Int := 0
  tqSet : Int := 0
  auxOut : Nat := 0
  deriving DecidableEq, Repr

/-- The terrace rule (R190 to R196). -/
structure Terrace where
  sel : Nat := 0
  n : Nat := 1
  b : Nat := 1
  t1 : Int := 0
  t2 : Int := 0
  t3 : Int := 0
  h : Int := 0
  active : Nat := 0
  /-- a running blend: from, to, cycle i, length B -/
  blend : Option (Nat × Nat × Nat × Nat) := none
  deriving DecidableEq, Repr

/-- A pending RESAMPLE (R229 to R232). -/
structure Resample where
  id : Nat
  log2n : Nat
  swapN : Nat
  scratch : Option (SMap Int) := none
  failed : Bool := false
  /-- what the leader did at the swap point, once a follower has heard it: swapped, or aborted (R233) -/
  told : Option Bool := none
  deriving DecidableEq, Repr

/-- Phase learning of an axis (R216 to R228). -/
structure Learning where
  /-- the phase master; none before a MASTER has taken effect -/
  master : Option Nat := none
  period : Int := 0
  origin : Int := 0
  log2n : Nat := 8
  bins : SMap Int := []
  /-- 0 OFF, 1 ON, 2 FREEZE -/
  mode : Nat := 0
  src : Nat := 0
  kl : Coef := ⟨0, 0⟩
  ff : Coef := ⟨0x40000000, 1⟩
  lead : Int := 0
  s0 : Coef := ⟨0x40000000, 1⟩
  s1 : Coef := ⟨0, 0⟩
  lmin : Int := 1
  llim : Int := 0x7FFFFFFF
  phiPrev : Option Int := none
  /-- the last committed job clamped u7 or saturated in S6 (Table 05.1) -/
  satBefore : Bool := false
  masterOk : Bool := true
  resample : Option Resample := none
  deriving DecidableEq, Repr

/-- A captured block waiting for its soft job: number, tag, minor cycle, samples newest first, S7 clamps, STALE and
HELD cycles (Table 05.10). -/
structure IdentBlock where
  num : Nat
  n : Nat
  m : Nat
  samples : List (Int × Int)
  clamps : Nat
  stales : Nat
  helds : Nat
  deriving DecidableEq, Repr

/-- An identification in progress (R244 to R253). -/
structure Ident where
  id : Nat
  seq : Nat
  exc : Nat
  rsp : Nat
  blocks : Nat
  settle : Nat
  amp : Int
  w20 : Nat
  w24 : Nat
  emax : Int
  k : Nat := 0
  theta : Nat := 0
  omega : Nat := 0
  g : Nat := 0
  /-- the block being captured -/
  cap : Option IdentBlock := none
  /-- complete blocks whose soft jobs have not finished -/
  full : List IdentBlock := []
  posted : Nat := 0
  dropped : Nat := 0
  /-- a CANCEL took effect at this cycle's apply point: it ends with the cycle's job (R253, R258) -/
  cancel : Bool := false
  /-- a stop of the axis started at this cycle's apply point: it ends with the cycle's job -/
  halted : Bool := false
  /-- it has ended and its descriptor is over; full blocks are still being processed (R258) -/
  ended : Bool := false
  deriving DecidableEq, Repr

/-- What names a block of an identification to its soft job: the identification's descriptor and the block's number, below
16. -/
def Ident.key (x : Ident) (num : Nat) : Nat := 16 * x.id + num

/-- What follows a plan's last cycle (R291, R296, R297, R799). -/
inductive After where
  | arrive
  | replan (x : Int)
  | abort
  deriving DecidableEq, Repr

/-- One run of a plan: cycles, jerk, and what is added to V in the run's last cycle, where R291 lowers a velocity to
the grid. Units 2^-48 counts. -/
structure Seg where
  k : Nat
  j : Int
  dv : Int := 0
  deriving DecidableEq, Repr

/-- A plan: runs of constant jerk, the rest point of its last cycle, what follows, and the number of cycles left that
approach an exceeded limit (R298). Units 2^-48 counts. -/
structure Plan where
  runs : List Seg
  target : Int
  after : After
  lim : Nat := 0
  deriving DecidableEq, Repr

/-- How an engaged gear or cam stands (R314, R320, R323). -/
inductive EngSt where
  | hold
  | catching
  | phasing (w pM0 lag dpiPrev : Int) (started : Bool)
  | locked
  deriving DecidableEq, Repr

/-- A gear or cam engagement (R312 to R323). -/
structure Eng where
  isCam : Bool
  master : Nat
  n : Int := 0
  m : Int := 1
  ofs : Int := 0
  rem : Int := 0
  g : Int := 0
  table : Nat := 0
  cubic : Bool := false
  oc : Int := 0
  cont : Bool := false
  b : Int := 0
  /-- B has been fixed -/
  based : Bool := false
  st : EngSt
  pmPrev : Option Int := none
  dPrev : Int := 0
  vPrev : Int := 0
  /-- the master was invalid in the last cycle (R317) -/
  lost : Bool := false
  id : Option Nat := none
  deriving DecidableEq, Repr

/-- FOLLOW of an axis (R303 to R307). -/
structure Follow where
  ai : Bool
  pos : Bool
  src : Nat
  g : Coef
  lagmax : Int
  /-- the origin p*_0, x_0, once taken -/
  origin : Option (Int × Int) := none
  xPrev : Option Int := none
  lost : Bool := false
  deriving DecidableEq, Repr

/-- A member's own copy of a group path (R309 to R311). Positions p0 and d in Q48.16; len, P, V, A in 2^-48. -/
structure PathCopy where
  g : Nat
  p0 : Int
  d : Int
  len : Int
  vmax : Int
  amax : Int
  dmax : Int
  destop : Int
  jmax : Int
  p : Int := 0
  v : Int := 0
  a : Int := 0
  plan : Option Plan := none
  /-- the policy under which the path stops, once it stops -/
  stop : Option Nat := none
  vPrev : Int := 0
  deriving DecidableEq, Repr

/-- The motion source of an axis (R164, R287). -/
inductive Source where
  | none
  | move (x : Int) (id : Option Nat) (plan : Option Plan) (reversed : Bool)
  /-- velocity in units of 2^-48 -/
  | jog (v : Int) (id : Option Nat)
  | follow (f : Follow)
  | eng (e : Eng)
  | path (c : PathCopy)
  deriving DecidableEq, Repr

/-- A stop in progress (R326 to R331): policy, the limits in force at its start, host STOP descriptors. -/
structure StopRun where
  pol : Nat
  dmax : Int
  jmax : Int
  destop : Int
  fault : Bool
  ids : List Nat
  plan : Option Plan := none
  /-- a move not planned yet when the stop starts, which its first cycle may find arrived: its target and descriptor (R338) -/
  held : Option (Int × Option Nat) := none
  deriving DecidableEq, Repr

/-- A superimposed move (R315), its own generator state in 2^-48 counts. -/
structure Superimposed where
  x : Int
  p : Int := 0
  v : Int := 0
  a : Int := 0
  plan : Option Plan := none
  id : Option Nat := none
  deriving DecidableEq, Repr

/-- Motion of an axis (R288 to R332). Limits and generator state in units of 2^-48. -/
structure Motion where
  limited : Bool := false
  reversed : Bool := false
  hasLim : Bool := false
  vmax : Int := 0
  amax : Int := 0
  dmax : Int := 0
  destop : Int := 0
  jmax : Int := 0
  p : Int := 0
  v : Int := 0
  a : Int := 0
  src : Source := .none
  retained : Option Eng := none
  switch : Option (Eng × Int) := none
  sup : Option Superimposed := none
  supOff : Int := 0
  stop : Option StopRun := none
  /-- a TRQ axis stopped under R331 -/
  zeroTq : Bool := false
  /-- descriptors that end in the cycle in progress, with their status (R286) -/
  ending : List (Nat × Nat) := []
  deriving DecidableEq, Repr

/-- One axis 0 to 567. -/
structure Axis where
  set : AxisSet := {}
  mode : AxisMode := .disabled
  fault : Bool := false
  /-- source and kind codes of the marks that stopped the axis (R638) -/
  faultBy : List (Nat × Nat) := []
  /-- the policy of a stop that a reaction has asked for since the last apply point -/
  req : Option Nat := none
  /-- a fault reaction holds the loops open (R637) -/
  heldOpen : Bool := false
  /-- the segment cycle in which a cause that opens the loops was met: ESTOP_LOCAL begins with the next (16 R637) -/
  openAt : Option (Nat × Nat) := none
  /-- the loops were open in the last committed cycle -/
  wasOpen : Bool := true
  fb : Feedback := {}
  lp : LoopSt := {}
  co : Coefs := {}
  ter : Terrace := {}
  ln : Learning := {}
  ident : Option Ident := none
  /-- identifications before it that have ended and whose last blocks' soft jobs have not -/
  identWas : List Ident := []
  mo : Motion := {}
  /-- descriptors applied in the cycle in progress that end DONE when its job commits (R651) -/
  ends : List Nat := []
  /-- torque command of the last record sent (R79), Q1.15 -/
  lastTq : Int := 0
  deriving DecidableEq, Repr

/-! ## Groups and cams (05, 07) -/

/-- What a member's axis job leaves for its group job (R179, R236). -/
structure Left where
  n : Nat
  m : Nat
  /-- u5; for DRV, vff and τ_ff -/
  u5 : Int
  vff : Int
  tff : Int
  z : Int
  opened : Bool
  aborted : Bool
  /-- the S1 set-points and error the records need -/
  pStar : Int
  e : Int
  stale : Bool
  learnOn : Bool
  /-- the inputs of the member's own job -/
  input : JobIn
  deriving DecidableEq, Repr

/-- A coupling group (R234 to R242). The key of an element is 256 × bank + 16 i + j. -/
structure CGroup where
  seg : Nat
  velocity : Bool
  members : List Nat
  clim : Int
  k : SMap Coef := []
  active : Nat := 0
  left : SMap Left := []
  deriving DecidableEq, Repr

/-- An interpolation group (R308 to R311). -/
structure IGroup where
  seg : Nat
  members : List Nat
  /-- the GROUP_MOVE in progress and the members that have arrived or stopped -/
  moving : Option Nat := none
  arrived : List Nat := []
  stopping : Bool := false
  /-- host STOP descriptors that end when the path has stopped: the member each is aimed at, and the descriptor -/
  stopIds : List (Nat × Nat) := []
  deriving DecidableEq, Repr

/-- A cam table (R318). -/
structure Cam where
  s : Int
  rise : Int
  y : List Int
  deriving DecidableEq, Repr

/-! ## Segments (02, 08, 09) -/

/-- The states of NET_SEGn_RING (09 Table 09.5), in the order of their codes. -/
inductive RingSt where
  | stopped | listening | csPhase | running | integrating | integrated | halted
  deriving DecidableEq, Repr

/-- How a node stands (R377, R397, R399). -/
inductive NodeSt where
  | absent
  /-- polled in a major cycle; the IN answer is awaited -/
  | polled
  /-- assigned by IN; reports from the major cycle named -/
  | assigned (startN : Nat)
  /-- granted a spare slot for so many axes from the start cycle, in the cycle of the grant -/
  | granted (startN count grantN : Nat)
  | live
  deriving DecidableEq, Repr

/-- One node of a segment (08 Table 08.14, 09 Table 09.6). Delays in 1/16 ns. -/
structure Node where
  st : NodeSt := .absent
  count : Nat := 0
  missRun : Nat := 0
  miss : Nat := 0
  aBad : Nat := 0
  bBad : Nat := 0
  muted : Bool := false
  asym : Bool := false
  drift : Bool := false
  offence : Nat := 0
  offended : Bool := false
  /-- the offset o of its last offence, ns (R409) -/
  offO : Int := 0
  halve : Bool := false
  offset : Int := 0
  da : Int := 0
  db : Int := 0
  daTo : Int := 0
  dbTo : Int := 0
  rampAt : Nat := 0
  deltas : List Int := []
  offsets : List Int := []
  baseline : Option Int := none
  /-- its IN answer was refused with the ring open: it is polled again after the ring heals (R418) -/
  waitsHeal : Bool := false
  /-- channels of the last valid reports: seen on A, seen on B in this cycle -/
  onA : Bool := false
  onB : Bool := false
  lastChB : Bool := false
  bothSeen : Bool := false
  /-- the report used in this segment cycle: its records -/
  used : Option (List Byte) := none
  /-- copies made invalid by an overlap in this cycle -/
  badA : Bool := false
  badB : Bool := false
  ident : List Byte := []
  notFound : Bool := false
  polledOnce : Bool := false
  deriving DecidableEq, Repr

/-- One mould entry: an axis's records of a cycle (R69). -/
structure MouldEntry where
  cmd : List Byte
  tel : List Byte
  /-- the command record was replaced by a hold record -/
  held : Bool := false
  deriving DecidableEq, Repr

/-- One bank of a mould (R69 to R76). -/
structure Bank where
  n : Nat := 0
  m : Nat := 0
  opened : Bool := false
  poured : Bool := false
  room : Bool := true
  /-- the records of the cycle are ESTOP_LOCAL (R639) -/
  estop : Bool := false
  /-- the inputs of the axes' jobs of the cycle: what fixes the bits of every record (04 R207) -/
  ins : List (Nat × JobIn) := []
  entries : SMap MouldEntry := []
  /-- axes whose telemetry has been released -/
  telDone : List Nat := []
  /-- core clock of the last command release before the pour point (14 Table 14.12) -/
  lastRel : Nat := 0
  /-- the digest of the cycle has been formed (R600) -/
  digested : Bool := false
  deriving DecidableEq, Repr

/-- A management request in progress (R567). -/
structure MgReq where
  id : Nat
  node : Nat
  fn : Nat
  trans : Nat
  data : List Byte
  buf : Nat
  repeats : Nat
  sent : Bool
  deriving DecidableEq, Repr

/-- An acyclic frame the controller owes its next MG entry (R364, R379, R397). -/
inductive Acyclic where
  | poll (node : Nat)
  | assign (node : Nat) (ident : List Byte)
  | refuse (ident : List Byte)
  | grant (node : Nat) (ident : List Byte) (startN : Nat) (axes : Nat)
  /-- the refusal of a claim, in the major cycle after the claim (R379, R380) -/
  | refuseClaim (ident : List Byte) (grantN : Nat)
  deriving DecidableEq, Repr

/-- One segment. -/
structure Segment where
  ring : RingSt := .stopped
  ringOpen : Bool := false
  retA : Bool := false
  retB : Bool := false
  /-- own SY in a row that did not return valid, by channel (R416), and in a row that did on both (R421) -/
  noRetA : Nat := 0
  noRetB : Nat := 0
  nonce : BitVec 16 := 0
  /-- a first SY has been sent (STATUS.INTEGRATED) -/
  synced : Bool := false
  firstSyN : Nat := 0
  linkW : Bool := false
  linkE : Bool := false
  holds : Nat := 0
  holdsNow : Nat := 0
  commitOk : Bool := false
  stopBy : Bool := false
  /-- the segment cycle in which that stop was taken, from whose successor on it acts, and its causes; none once it acts
  (16 R639) -/
  stopAt : Option (Nat × Nat) := none
  stopFor : List (Nat × Nat) := []
  /-- stopped by DEGRADE: counts no load (R84) -/
  degStop : Bool := false
  halved : Bool := false
  /-- halved by DEGRADE since its last COMMIT (R642) -/
  halvedOnce : Bool := false
  /-- DEGRADE steps due at the boundary: some true halve, some false stop -/
  due : Option Bool := none
  /-- UNFENCE of the segment due at the boundary, with its descriptor -/
  restore : Option Nat := none
  latest : Nat := 0
  cur : Bank := {}
  prevBank : Bank := {}
  /-- the core clock, plus 1, in which an own entry last began, and that entry (08 R360) -/
  lastSent : Nat × Nat := (0, 0)
  /-- p_M of every master at the last report-close point (05 R218): p_M_prev of a switch armed in the next cycle (07 R321) -/
  pmLast : List (Nat × Int) := []
  /-- the records of the next command train, poured at the last pour point -/
  train : List (Nat × List Byte) := []
  da : Int := 0
  db : Int := 0
  d : Int := 0
  daHist : List Int := []
  dbHist : List Int := []
  heal : Nat := 0
  /-- own SY still to be measured after healing, 0 when adoption is not due -/
  remeasure : Nat := 0
  remeasured : Bool := false
  rotate : Nat := 0
  suspectTurn : Bool := false
  /-- the suspect node that an SY named last (R414) -/
  suspectAt : Nat := 0
  nameNext : Option Nat := none
  mg : Option MgReq := none
  trans : Nat := 0
  owe : List Acyclic := []
  /-- last poll address, and who may answer in the open entry of this cycle -/
  lastPoll : Nat := 0
  asked : Option Nat := none
  invited : Bool := false
  /-- the last SY heard while integrating by listening (09 R396) -/
  heard : Option (Nat × Nat × Nat × Nat) := none
  /-- end of the CS phase, once its first CS has left (R391), and whether it has ended (R395) -/
  csUntil : Option Nat := none
  csDone : Bool := false
  /-- it withdrew from its CS phase (R392, R394) -/
  loser : Bool := false
  /-- start of the listen, once a port link is up (R389) -/
  listenFrom : Option Nat := none
  /-- management requests behind the one in progress -/
  mgWait : List MgReq := []
  /-- the segment cycle count of the entry that asked, and the claim taken in the open entry of a cycle (R381) -/
  askedC : Nat := 0
  claim : Option (Nat × Nat × List Byte) := none
  /-- the spare entry that the claim took, as it stood before (R381) -/
  spareWas : Node := {}
  /-- the delays that count are those of the follower's place (15 R611) -/
  viaFollower : Bool := false
  nodes : SMap Node := []
  /-- overlap dropped slots, twin USE map and records of the cycle (R593) -/
  use : Option (Nat × List (Nat × List Byte)) := none
  ctSeen : Bool := false
  /-- the last SY of another controller on each channel: its MT and its arrival (15 R584) -/
  syA : Option (Nat × Nat) := none
  syB : Option (Nat × Nat) := none
  deriving DecidableEq, Repr

/-! ## Encoder ports, latches, step channels, converters (11, 12, 13) -/

/-- One encoder port and its feedback axis (R460 to R487). -/
structure FbPort where
  cnt : BitVec 32 := 0
  idx : BitVec 32 := 0
  spd : Int := 0
  net : Int := 0
  illcnt : Nat := 0
  illegal : Bool := false
  ampl : Bool := false
  wire : Bool := false
  overspeed : Bool := false
  supOvl : Bool := false
  divLost : Bool := false
  idxSeen : Bool := false
  supOn : Bool := false
  settled : Bool := false
  onAt : Nat := 0
  offAt : Nat := 0
  /-- the supply current in mA that SUP_MA shows (R484): a free value while the supply is on, log 87 -/
  ma : Nat := 0
  winStart : BitVec 32 := 0
  up : Bool := false
  down : Bool := false
  /-- the CK_FB sample of the last count, with CNT, `up` and `down` before it (R476) -/
  eve : Option (Nat × BitVec 32 × Bool × Bool) := none
  /-- the granule at which the last window ended -/
  winEnd : Option Nat := none
  invalidIn : Bool := false
  dirchg : Bool := false
  acc : Int := 0
  backlog : Int := 0
  edgeAt : Nat := 0
  outState : Nat := 0
  firstTaken : Bool := false
  angle : Option Nat := none
  ampFails : Nat := 0
  seq : Nat := 0
  /-- position of the feedback axis and the last valid capture -/
  pos : Int := 0
  capture : Option (BitVec 32) := none
  axisValid : Bool := false
  deriving DecidableEq, Repr

/-- A latch event waiting for its position sample (R491): time-stamp MT, edge and skip flag. -/
structure LatchEv where
  mt : Nat
  falling : Bool
  skip : Bool
  deriving DecidableEq, Repr

/-- One latch input (R488 to R494). -/
structure Latch where
  events : Nat := 0
  skipped : Nat := 0
  deadUntil : Nat := 0
  skipSeen : Bool := false
  high : Bool := false
  seq : Nat := 0
  queue : List LatchEv := []
  deriving DecidableEq, Repr

/-- One step channel (R502 to R513). -/
structure StepCh where
  e : Int := 0
  ecntHi : Nat := 0
  acc : Nat := 0
  accAt : Nat := 0
  w : Nat := 0
  down : Bool := false
  parity : Bool := false
  halted : Bool := false
  rateLim : Bool := false
  /-- E at the starts of the present and the previous segment cycle (R505) -/
  e0 : Int := 0
  e1 : Int := 0
  /-- the target record of the last job: target, or a hold record -/
  target : Option Int := none
  /-- set while the drivers of a fenced channel are off (R513) -/
  driversOff : Bool := false
  /-- the CK_FB clocks, plus one, of the last carry and of the last boundary; the state of A and B in mode AB -/
  carriedAt : Nat := 0
  boundAt : Nat := 0
  ab : Nat := 0
  deriving DecidableEq, Repr

/-- One converter (R520 to R534). -/
structure Conv where
  busy : Bool := false
  entry : Nat := 0
  seq : Nat := 0
  started : Bool := false
  slotReady : Bool := false
  drop : Nat := 0
  /-- entries dropped in this major cycle, for the detail of ADC_DROP -/
  dropNow : Nat := 0
  full : Bool := false
  resetRp : Bool := false
  wp : Nat := 0
  rp : Nat := 0
  /-- unread entries held -/
  fill : Nat := 0
  /-- the time at which the first slot of the present entry began -/
  slotAt : Nat := 0
  /-- ring length in use -/
  len : Nat := 512
  lenPend : Bool := false
  /-- the core clock, plus one, of the COMMIT that made it pending (R539) -/
  lenAt : Nat := 0
  popHi : Nat := 0
  /-- the set of the running sequence: CTL and SEQ words -/
  ctl : Nat := 0x01410000
  seqs : SMap Nat := []
  res : SMap Nat := []
  buf : SMap (Nat × Nat) := []
  /-- its on-chip ring took a double-bit error and is not unfenced (01 R35) -/
  ringBad : Bool := false
  deriving DecidableEq, Repr

/-- Converters' common state. -/
structure Analog where
  last : SMap Nat := []
  /-- the CK_ADC clock, plus 1, and converter of the newest result of each channel (R536) -/
  lastBy : SMap (Nat × Nat) := []
  /-- code of the newest usable result of each channel, for FOLLOW (R304) -/
  ai : SMap Int := []
  /-- the core clock, plus 1, at which that result became available, and the code that stood before that clock: it does
  not count at a report-close point of the same clock (R537) -/
  aiAt : SMap Nat := []
  aiPrev : SMap Int := []
  ovr : List Nat := []
  ready : Bool := false
  refOnAt : Nat := 0
  deriving DecidableEq, Repr

/-! ## Twin (15) -/

/-- TWN_STATUS.ROLE. -/
inductive Role where
  | alone | leader | follower
  deriving DecidableEq, Repr

/-- TWN_STATUS.PAIR. -/
inductive Pair where
  | unpaired | pairing | paired | unsynced
  deriving DecidableEq, Repr

/-- TWN_SEGn.STATE. -/
inductive TwinSegSt where
  | notPaired | ready | resync | notReady
  deriving DecidableEq, Repr

/-- A unit of a resynchronisation that has arrived: its axes and coupling groups, the cycle tag and minor index of its
snapshot, its bytes (R602, R603). -/
structure TwinUnit where
  axes : List Nat
  groups : List Nat
  tag : Nat
  m : Nat
  bytes : List Byte
  deriving DecidableEq, Repr

/-- A unit that arrives: its identity (log 35), its snapshot's cycle tag and minor index, its pieces by number. -/
structure TwinPart where
  ident : Nat := 0
  tag : Nat := 0
  m : Nat := 0
  got : SMap (List Byte) := []
  deriving DecidableEq, Repr

/-- What a follower keeps of one segment cycle for replays: the inputs of its axis jobs and the descriptors applied
(R604). -/
structure KeptCycle where
  n : Nat
  m : Nat
  ins : List (Nat × JobIn)
  ents : List Entry
  deriving DecidableEq, Repr

/-- A BLK message that the leader may send again (R587): segment, cycle, offset, payload. -/
structure TwinBlk where
  seg : Nat
  n : Nat
  m : Nat
  off : Nat
  payload : List Byte
  deriving DecidableEq, Repr

/-- One segment's twin state. -/
structure TwinSeg where
  st : TwinSegSt := .notPaired
  misrun : Nat := 0
  covered : Bool := false
  resyncs : Nat := 0
  /-- own digest and the peer's digest of the last cycle -/
  own : Option (Nat × Nat × Nat) := none
  peer : Option (Nat × Nat × Nat) := none
  /-- segment cycles since resynchronisation began (R605) -/
  syncFor : Nat := 0
  /-- units still to be taken into a batch, by their lowest axis (leader), or axes still awaited (follower) -/
  units : List Nat := []
  /-- units of the batch taken at a pour point whose snapshot waits for their jobs: unit, cycle -/
  batch : List (Nat × Nat × Nat) := []
  /-- units that have not wholly arrived, by their lowest axis -/
  got : SMap TwinPart := []
  /-- units that have wholly arrived and wait for the next report-close point -/
  arrived : List TwinUnit := []
  /-- axes whose ASB took a double-bit error and comes back from the other device (01 R23) -/
  lost : List Nat := []
  /-- inputs kept for replays, newest cycle first (R604) -/
  kept : List KeptCycle := []
  e : SMap Int := []
  x : SMap Int := []
  deriving DecidableEq, Repr

/-- A TAG received (R594). -/
structure Tag where
  seg : Nat
  ring : Nat
  pos : Nat
  seq : Nat
  opc : Nat
  crc : Nat
  status : Nat
  tag : Nat
  minor : Nat
  deriving DecidableEq, Repr

/-- The twin link and pairing. -/
structure Twin where
  /-- the level of the TWIN_RANK ball as last given (log 33) -/
  ball : Bool := false
  rank : Nat := 0
  role : Role := .alone
  pair : Pair := .unpaired
  lane0 : Bool := false
  lane1 : Bool := false
  dual : Bool := false
  cfgMis : Bool := false
  cmdMis : Bool := false
  enRej : Bool := false
  silent : Nat := 0
  heardNow : Bool := false
  crcErr : Nat := 0
  resent : Nat := 0
  hbAt : Option Nat := none
  /-- when EN was set: the wait for a first HB counts from there (15 R589) -/
  enAt : Nat := 0
  linkLost : Bool := false
  peerMode : Nat := 0
  peerRole : Nat := 0
  peerRank : Nat := 0
  peerPair : Nat := 0
  peerSegs : List Nat := []
  peerDeltas : List Int := []
  handover : Option Nat := none
  pairBlocked : Bool := false
  segs : SMap TwinSeg := []
  tags : List Tag := []
  cpls : List (Nat × Nat × List Byte) := []
  /-- ring position of the newest TAG, plus 1, by command ring -/
  lastTag : SMap Nat := []
  /-- the BLK messages of the newest batch (R587) -/
  sent : List TwinBlk := []
  /-- cam tables received in part (R590), by table -/
  cams : SMap TwinPart := []
  /-- the start of the pairing in progress -/
  pairAt : Nat := 0
  /-- MT has been put to the leader's for this pairing (R585) -/
  mtStepped : Bool := false
  deriving DecidableEq, Repr

/-! ## Assay unit (16) -/

/-- A mark before it is released (R621): what Table 16.1 needs. `applied` says its reaction was taken at detection. -/
structure Mark where
  src : Nat
  kind : Nat
  cls : Nat
  react : Nat
  addr : Nat
  mt : Nat
  cyc : Nat
  seq : Nat
  detail : List Byte
  inj : Bool
  withheld : Bool
  applied : Bool
  deriving DecidableEq, Repr

/-- One source of ASY_SRCl_i (R629). -/
structure SrcSt where
  /-- kinds whose lasting condition holds -/
  live : List Nat := []
  sticky : Bool := false
  fenced : Bool := false
  lastKind : Nat := 0
  count : Nat := 0
  deriving DecidableEq, Repr

/-- The assay unit. -/
structure Assay where
  held : List Mark := []
  seq : Nat := 0
  /-- ledger slots by number: the 32 bytes of a mark -/
  ledger : SMap (List Byte) := []
  next : Nat := 0
  cnt : Nat := 0
  ff : Option (List Byte) := none
  ffe : Option (List Byte) := none
  drop : Nat := 0
  written : Nat := 0
  dropped : Nat := 0
  /-- marks limited to one per major cycle, already raised: source, kind -/
  once : List (Nat × Nat) := []
  src : SMap SrcSt := []
  /-- armed checkers: source, double-bit (R648) -/
  armed : List (Nat × Bool) := []
  /-- marks written to the ledger and not yet persisted -/
  unpersisted : Nat := 0
  /-- persistence starts once the mark that caused SAFE_HOLD is in the ledger (R725) -/
  persistDue : Bool := false
  /-- sources whose fatal mark was raised, for R737 -/
  fatal : List Nat := []
  /-- cam tables lost with the cam store (R35) -/
  camBad : List Nat := []
  /-- cycle-watchdog firings in this major cycle (R34) -/
  cycWatch : Nat := 0
  deriving DecidableEq, Repr

/-! ## Safety island (17) -/

/-- The states of a safety channel (R669). -/
inductive ChSt where
  | off | run | lockout
  deriving DecidableEq, Repr

/-- The filter of one safety input in one channel (R674 to R677). -/
structure InFilt where
  level : Bool := false
  /-- the core clock in which the filtered state last changed (R715) -/
  movedAt : Option Nat := none
  count : Nat := 0
  lowSeen : Bool := false
  /-- the latest pulse test failed (R677, R680) -/
  testBad : Bool := false
  deriving DecidableEq, Repr

/-- One safety channel. -/
structure SafCh where
  st : ChSt := .off
  inputs : SMap InFilt := []
  /-- the snapshot of the present cycle: inputs, feedback contacts closed, readbacks below 5 V and above VSAFE - 3 V,
  and the inputs and contacts of the snapshot before -/
  snap : Nat := 0
  snapFb : Nat := 0
  snapLow : Nat := 0
  snapHigh : Nat := 0
  prevSnap : Nat := 0
  prevFb : Nat := 0
  /-- valid ticks since a confirmed SPS came into force (R672) -/
  ticks : Nat := 0
  discards : Nat := 0
  /-- raw time of the last tick received -/
  lastTick : Option Nat := none
  tickOk : Bool := false
  /-- causes of LOCKOUT that persist -/
  selftest : Bool := false
  linkDown : Bool := false
  /-- power-up done since the supply returned -/
  powered : Bool := false
  /-- the last pulse of each test-pulse source: its raw start plus 1, and whether its test is open -/
  pulses : SMap (Nat × Bool) := []
  /-- the other channel's snapshot and results of the present cycle have arrived (R667) -/
  gotSnap : Bool := false
  gotRes : Bool := false
  deriving DecidableEq, Repr

/-- The states of a pair (R678 to R681). -/
inductive PairSt where
  | demand | run | fault
  deriving DecidableEq, Repr

/-- One pair of inputs. `startup` is pending since the last entry to RUN; `startSeen` says it has shown DEMAND. -/
structure SafPair where
  st : PairSt := .demand
  discSince : Option Nat := none
  startup : Bool := false
  startSeen : Bool := false
  deriving DecidableEq, Repr

/-- The states of a safety function (R685). -/
inductive FnSt where
  | demand | run | delay
  deriving DecidableEq, Repr

/-- One safety function. -/
structure SafFn where
  st : FnSt := .demand
  left : Nat := 0
  srcPrev : Bool := false
  /-- its T1 ended in this cycle, before the evaluation -/
  expired : Bool := false
  deriving DecidableEq, Repr

/-- One safety output. -/
structure SafOut where
  on : Bool := false
  /-- the result to be applied at the next tick -/
  want : Bool := false
  locked : Bool := false
  ovl : Bool := false
  /-- raw time of the last switching -/
  changedAt : Nat := 0
  /-- a test pulse began at the last tick -/
  testing : Bool := false
  deriving DecidableEq, Repr

/-- The states of a safe connection (17 Table 17.9). -/
inductive ConnSt where
  | ok | single | lost
  deriving DecidableEq, Repr

/-- One safe connection. -/
structure SafConn where
  st : ConnSt := .lost
  rxSeq : Option Nat := none
  rxMt : Nat := 0
  bits : Nat := 0
  bad : Nat := 0
  /-- raw time at which the present SINGLE run began, and whether its time is over -/
  singleFrom : Option Nat := none
  singleOver : Bool := false
  txSeq : Nat := 0
  /-- bytes 0 to 27 of the copies checked by SA and by SB and waiting for their fellow, SB's safe bits uncomplemented -/
  gotA : List Byte := []
  gotB : List Byte := []
  /-- the content of an accepted unit, which counts from the next snapshot, and whether it is a single copy -/
  accepted : Option (List Byte × Bool) := none
  /-- the copies released at the last tick, none while the channel sends none -/
  unitA : List Byte := []
  unitB : List Byte := []
  deriving DecidableEq, Repr

/-- The safety island. -/
structure Safety where
  a : SafCh := {}
  b : SafCh := {}
  cause : Nat := 0
  pairs : SMap SafPair := []
  fns : SMap SafFn := []
  outs : SMap SafOut := []
  conns : SMap SafConn := []
  cycles : Nat := 0
  /-- MT of the last valid tick, and of the one before -/
  tickMt : Nat := 0
  prevMt : Nat := 0
  /-- raw time of the last valid tick -/
  tickRaw : Nat := 0
  /-- the last tick that the spine sent: its raw time, and its core clock plus 1, 0 before the first (R664) -/
  sentRaw : Nat := 0
  sentCore : Nat := 0
  /-- the ticks stand off the MT grid: 0 on it, 1 after a step of MT, 2 on the way back to it (R664) -/
  offGrid : Nat := 0
  /-- RING_OPEN of the segments at the snapshot before the last tick, and at the last (R701) -/
  openPrev : Nat := 0
  openNow : Nat := 0
  /-- the cycle's evaluation is done, and the marks it raised: source (0 for the channel's own), kind, byte 20 -/
  evaluated : Bool := false
  marks : List (Nat × Nat × Nat) := []
  /-- inputs (0 to 15) and feedback contacts (16 to 23) on which the channels disagree (R668) -/
  disagree : List Nat := []
  /-- raw time of the snapshot at which the acknowledge input went high; an acknowledge acts at this snapshot; a
  SAFETY_CONFIRM acts as one at the next -/
  ackSince : Option Nat := none
  ack : Bool := false
  ackOwed : Bool := false
  /-- the SPS loaded and not confirmed -/
  loaded : Option (List Byte) := none
  /-- the confirmed SPS in force -/
  sps : Option (List Byte) := none
  checkLoaded : Nat := 0
  checkForce : Nat := 0
  /-- outputs whose next test pulse opens switch B -/
  switchB : List Nat := []
  deriving DecidableEq, Repr

/-! ## Boundary scan (20 R793) -/

/-- The instruction of the TAP. -/
inductive Tap where
  | bypass | sample | extest
  deriving DecidableEq, Repr

/-! ## Bench SRAM as the debug window shows it (19 R777 to R779) -/

/-- A word of bench SRAM that the debug window has shown or written: its value, and the bits of its check value that an
injection inverted (19 R779). -/
structure SramWord where
  v : Nat
  flips : Nat := 0
  deriving DecidableEq, Repr

/-! ## The whole block -/

/-- The state of the block. `pending` is the queue of waiting commands, first in first out; `now` the time of the
last command in quarter nanoseconds since CK_TIME locked; `free` counts the free values drawn (the model's own). -/
structure State where
  pending : List Instr := []
  now : Nat := 0
  free : Nat := 0
  out : List Out := []
  time : TimeUnit := {}
  pw : Power := {}
  nv : Nv := {}
  regs : Regs := {}
  host : HostIf := {}
  pool : Pool := {}
  axes : SMap Axis := []
  cgroups : SMap CGroup := []
  igroups : SMap IGroup := []
  cams : SMap Cam := []
  /-- master values of axes 528 to 567 posted for the master interval in progress, and those evaluated in it, which are
  posted for the next (R11) -/
  posted : SMap MasterVal := []
  evaluated : SMap MasterVal := []
  /-- position samples of each axis for latches, newest first: the MT of the instant they are counted from, and the
  position, none where the report was missed or the sample was invalid (R491, R492) -/
  samples : SMap (List (Nat × Option Int)) := []
  segs : SMap Segment := []
  fbp : SMap FbPort := []
  lat : SMap Latch := []
  pul : SMap StepCh := []
  adc : SMap Conv := []
  an : Analog := {}
  tw : Twin := {}
  asy : Assay := {}
  saf : Safety := {}
  /-- words of bench SRAM by their offset in the debug window, as far as it has shown or written them in this stay in
  COMMISSION; the layout of what else the SRAM holds is not given (log 34) -/
  sram : SMap SramWord := []
  tap : Tap := .bypass
  tapReset : Bool := true
  deriving DecidableEq, Repr

/-- The machine right after reset: BOOT with PREV = RESET (19 Table 19.7), every register at its reset value (unlisted
entries of the register file), every axis in the reset configuration (R795), no rail or domain up yet (18 Table
18.12). Values the spec gives no reset for are the zeros that log 3 names. -/
def State.reset : State := {}

end Sys2Proof.Machine
end

