-- ==== Sys2Proof/Machine/Ops.lean ====
section
/-! DEFINITION. The named operations every meaning is written over: sparse maps, bytes and check values, machine
time, register fields, mode and fence tests, the raising of marks, host output and completions. -/

namespace Sys2Proof.Machine

/-! ## Sparse maps -/

/-- The entry of `m` at key `k`, or the default `d`. -/
def SMap.get {α : Type} (d : α) (m : SMap α) (k : Nat) : α :=
  match m.lookup k with
  | some v => v
  | none => d

/-- `m` without key `k`. -/
def SMap.erase {α : Type} (m : SMap α) (k : Nat) : SMap α :=
  m.filter fun e => e.1 != k

/-- `m` with the pair `(k, v)` put in key order. -/
def SMap.insert {α : Type} (m : SMap α) (k : Nat) (v : α) : SMap α :=
  match m with
  | [] => [(k, v)]
  | e :: r => if k < e.1 then (k, v) :: e :: r else e :: SMap.insert r k v

/-- `m` with `v` at key `k`: an entry equal to the default is not listed. -/
def SMap.put {α : Type} [DecidableEq α] (d : α) (m : SMap α) (k : Nat) (v : α) : SMap α :=
  if v = d then SMap.erase m k else SMap.insert (SMap.erase m k) k v

/-- Keys strictly rising. -/
def SMap.rising {α : Type} : SMap α → Bool
  | [] => true
  | [_] => true
  | a :: b :: r => decide (a.1 < b.1) && SMap.rising (b :: r)

/-- The canonical form: keys strictly rising and no entry equal to the default. -/
def SMap.wf {α : Type} [DecidableEq α] (d : α) (m : SMap α) : Bool :=
  SMap.rising m && m.all fun e => decide (e.2 ≠ d)

/-! ## Bits and bytes (R4, R343) -/

/-- Bits hi to lo of a number. -/
def bits (v hi lo : Nat) : Nat := (v >>> lo) % 2 ^ (hi + 1 - lo)

/-- Bit i of a number. -/
def bit (v i : Nat) : Bool := v.testBit i

/-- A truth value as a bit. -/
def b2n (b : Bool) : Nat := if b then 1 else 0

/-- The low `n` bytes of a number, little-endian. -/
def leBytes : Nat → Nat → List Byte
  | 0, _ => []
  | n + 1, v => BitVec.ofNat 8 v :: leBytes n (v / 256)

/-- The number a little-endian byte list stands for. -/
def leNat : List Byte → Nat
  | [] => 0
  | b :: r => b.toNat + 256 * leNat r

/-- An integer as an unsigned number of `w` bits (two's complement). -/
def toU (w : Nat) (x : Int) : Nat := (x % (2 ^ w : Nat)).toNat

/-- An unsigned number of `w` bits read as signed. -/
def toS (w : Nat) (v : Nat) : Int :=
  let u := v % 2 ^ w
  if u < 2 ^ (w - 1) then u else (u : Int) - (2 ^ w : Nat)

/-- Bytes `off` to `off + n - 1` of a byte list, absent bytes read as 0. -/
def slice (bs : List Byte) (off n : Nat) : List Byte :=
  let r := (bs.drop off).take n
  r ++ List.replicate (n - r.length) 0

/-- An unsigned little-endian field of a byte list. -/
def fld (bs : List Byte) (off n : Nat) : Nat := leNat (slice bs off n)

/-- A signed little-endian field of a byte list. -/
def fldS (bs : List Byte) (off n : Nat) : Int := toS (8 * n) (fld bs off n)

/-- One byte of a list as a number. -/
def byteAt (bs : List Byte) (off : Nat) : Nat := fld bs off 1

/-- A signed integer as `n` little-endian bytes. -/
def leInt (n : Nat) (x : Int) : List Byte := leBytes n (toU (8 * n) x)

/-- `n` zero bytes. -/
def zeros (n : Nat) : List Byte := List.replicate n 0

/-- A list of given length: bytes cut or padded with 0. -/
def padTo (n : Nat) (bs : List Byte) : List Byte := slice bs 0 n

/-! ## Check values -/

/-- One bit step of a reflected 32-bit CRC. -/
def crcStep (poly c : Nat) : Nat := if c % 2 = 1 then (c / 2) ^^^ poly else c / 2

/-- One byte of a reflected 32-bit CRC. -/
def crcByte (poly c : Nat) (b : Byte) : Nat :=
  let f := crcStep poly
  f (f (f (f (f (f (f (f (c ^^^ b.toNat))))))))

/-- A reflected 32-bit CRC with initial value and final XOR 0xFFFF_FFFF. -/
def crc32with (poly : Nat) (bs : List Byte) : Nat := bs.foldl (crcByte poly) 0xFFFFFFFF ^^^ 0xFFFFFFFF

/-- The IEEE 802.3 CRC-32 of the Miush FCS (R343) and of SB's safe units (R701). -/
def crc32 (bs : List Byte) : Nat := crc32with 0xEDB88320 bs

/-- CRC-32C (R696): polynomial 0x1EDC_6F41 reflected. -/
def crc32c (bs : List Byte) : Nat := crc32with 0x82F63B78 bs

/-- One bit step of the digest CRC-64 (R600), most significant bit first. -/
def crc64Step (c : Nat) : Nat :=
  if bit c 63 then ((c * 2) % 2 ^ 64) ^^^ 0x42F0E1EBA9EA3693 else (c * 2) % 2 ^ 64

/-- The digest CRC-64 (R600): initial value 0, no final inversion. -/
def crc64 (bs : List Byte) : Nat :=
  bs.foldl (fun c b =>
    let f := crc64Step
    f (f (f (f (f (f (f (f (c ^^^ (b.toNat <<< 56)))))))))) 0

/-! ## Rounding (R269) -/

/-- Convergent rounding: x / 2^k, round half to even. -/
def roundConv (x : Int) (k : Nat) : Int :=
  if k = 0 then x else
  let q := x / (2 ^ k : Nat)
  let r := x - q * (2 ^ k : Nat)
  let h : Int := (2 ^ (k - 1) : Nat)
  if r > h || (r == h && q % 2 == 1) then q + 1 else q

/-- The nearest integer of a quotient with positive divisor, ties to even. -/
def roundDiv (a : Int) (b : Int) : Int :=
  if b ≤ 0 then 0 else
  let q := a / b
  let r := a - q * b
  if 2 * r > b || (2 * r == b && q % 2 == 1) then q + 1 else q

/-- clamp(x, lo, hi) of R158. -/
def clampI (x lo hi : Int) : Int := if x < lo then lo else if hi < x then hi else x

/-- Saturation to `w` bits (R269). -/
def satW (w : Nat) (q : Int) : Int := clampI q (-(2 ^ (w - 1) : Nat)) ((2 ^ (w - 1) : Nat) - 1)

/-- The sign of an integer: -1, 0 or 1. -/
def sgn (x : Int) : Int := if x > 0 then 1 else if x < 0 then -1 else 0

/-- Change the pool. -/
def State.modPool (s : State) (f : Pool → Pool) : State := { s with pool := f s.pool }

/-! ## Time (10 R430 to R434) -/

/-- The machine at the time of a command: `now` never runs back. -/
def State.at (s : State) (t : Nat) : State := { s with now := max s.now t }

/-- The raw counter, in ns since CK_TIME locked (R430). -/
def State.raw (s : State) : Nat := (s.now - s.time.lockAt) / 4

/-- Core clocks since CK_TIME locked (800 MHz, 1.25 ns). -/
def State.core (s : State) : Nat := s.now / 5

/-- MT at a raw count (R431). -/
def mtAt (ofs rate : Int) (r0 raw : Nat) : Nat :=
  toU 64 ((raw : Int) + roundConv (ofs + rate * ((raw : Int) - r0)) 32)

/-- Machine time now (R431). -/
def State.mt (s : State) : Nat := mtAt s.time.ofs s.time.rate s.time.r0 s.raw

/-- The 40-bit major-cycle count of a machine time (R434). -/
def cycOf (mt : Nat) : Nat := mt / 125000 % 2 ^ 40

/-- The granule of a machine time within its major cycle (R434). -/
def granOf (mt : Nat) : Nat := (mt % 125000) * 2 / 125

/-- The major-cycle count now. -/
def State.cyc (s : State) : Nat := cycOf s.mt

/-- MT in quarter nanoseconds: MT with the part of a nanosecond that has passed. -/
def State.mtQuarter (s : State) : Nat := 4 * s.mt + (s.now - s.time.lockAt) % 4

/-- The granule now: granules are 62.5 ns, so half of them begin within a nanosecond of MT. -/
def State.gran (s : State) : Nat := s.mtQuarter % 500000 / 250

/-- The granule N × 2000 + g of machine time. -/
def State.granuleNo (s : State) : Nat := s.cyc * 2000 + s.gran

/-- The low 24 bits of a major-cycle count: the cycle tag. -/
def tagOf (n : Nat) : Nat := n % 2 ^ 24

/-! ## Accessors of the tables -/

/-- The reset configuration of an axis (R795): step axes take HALT for both stop policies. -/
def Axis.default (a : Nat) : Axis :=
  if 512 ≤ a ∧ a < 528 then { set := { faultPol := 0, stopPol := 0 } } else {}

/-- Axis a. -/
def State.axis (s : State) (a : Nat) : Axis := SMap.get (Axis.default a) s.axes a

/-- Write axis a. -/
def State.setAxis (s : State) (a : Nat) (x : Axis) : State :=
  { s with axes := SMap.put (Axis.default a) s.axes a x }

/-- Change axis a. -/
def State.modAxis (s : State) (a : Nat) (f : Axis → Axis) : State := s.setAxis a (f (s.axis a))

/-- Segment k. -/
def State.seg (s : State) (k : Nat) : Segment := SMap.get {} s.segs k

/-- Write segment k. -/
def State.setSeg (s : State) (k : Nat) (x : Segment) : State := { s with segs := SMap.put {} s.segs k x }

/-- Change segment k. -/
def State.modSeg (s : State) (k : Nat) (f : Segment → Segment) : State := s.setSeg k (f (s.seg k))

/-- Node j of segment k. -/
def State.node (s : State) (k j : Nat) : Node := SMap.get {} (s.seg k).nodes j

/-- Change node j of segment k. -/
def State.modNode (s : State) (k j : Nat) (f : Node → Node) : State :=
  s.modSeg k fun g => { g with nodes := SMap.put {} g.nodes j (f (SMap.get {} g.nodes j)) }

/-- Host ring r. -/
def State.ringOf (s : State) (r : Nat) : Ring := SMap.get {} s.host.rings r

/-- Change host ring r. -/
def State.modRing (s : State) (r : Nat) (f : Ring → Ring) : State :=
  { s with host := { s.host with rings := SMap.put {} s.host.rings r (f (s.ringOf r)) } }

/-- Hammer h. -/
def State.hammer (s : State) (h : Nat) : Hammer := SMap.get {} s.pool.hammers h

/-- Change hammer h. -/
def State.modHammer (s : State) (h : Nat) (f : Hammer → Hammer) : State :=
  { s with pool := { s.pool with hammers := SMap.put {} s.pool.hammers h (f (s.hammer h)) } }

/-- Encoder port p. -/
def State.port (s : State) (p : Nat) : FbPort := SMap.get {} s.fbp p

/-- Change encoder port p. -/
def State.modPort (s : State) (p : Nat) (f : FbPort → FbPort) : State :=
  { s with fbp := SMap.put {} s.fbp p (f (s.port p)) }

/-- Latch input n. -/
def State.latch (s : State) (n : Nat) : Latch := SMap.get {} s.lat n

/-- Change latch input n. -/
def State.modLatch (s : State) (n : Nat) (f : Latch → Latch) : State :=
  { s with lat := SMap.put {} s.lat n (f (s.latch n)) }

/-- Step channel c. -/
def State.stepCh (s : State) (c : Nat) : StepCh := SMap.get {} s.pul c

/-- Change step channel c. -/
def State.modStep (s : State) (c : Nat) (f : StepCh → StepCh) : State :=
  { s with pul := SMap.put {} s.pul c (f (s.stepCh c)) }

/-- Converter c. -/
def State.conv (s : State) (c : Nat) : Conv := SMap.get {} s.adc c

/-- Change converter c. -/
def State.modConv (s : State) (c : Nat) (f : Conv → Conv) : State :=
  { s with adc := SMap.put {} s.adc c (f (s.conv c)) }

/-- The twin state of segment k. -/
def State.twSeg (s : State) (k : Nat) : TwinSeg := SMap.get {} s.tw.segs k

/-- Change the twin state of segment k. -/
def State.modTwSeg (s : State) (k : Nat) (f : TwinSeg → TwinSeg) : State :=
  { s with tw := { s.tw with segs := SMap.put {} s.tw.segs k (f (s.twSeg k)) } }

/-- Source of the assay unit, by its source code (R621). -/
def State.src (s : State) (c : Nat) : SrcSt := SMap.get {} s.asy.src c

/-- Change a source of the assay unit. -/
def State.modSrc (s : State) (c : Nat) (f : SrcSt → SrcSt) : State :=
  { s with asy := { s.asy with src := SMap.put {} s.asy.src c (f (s.src c)) } }

/-- Time domain k. -/
def State.dom (s : State) (k : Nat) : Domain := if k = 0 then s.time.d0 else s.time.d1

/-- Change time domain k. -/
def State.modDom (s : State) (k : Nat) (f : Domain → Domain) : State :=
  if k = 0 then { s with time := { s.time with d0 := f s.time.d0 } }
  else { s with time := { s.time with d1 := f s.time.d1 } }

/-- Plant port p. -/
def State.plant (s : State) (p : Nat) : PlantPort := if p = 0 then s.time.p0 else s.time.p1

/-- Change plant port p. -/
def State.modPlant (s : State) (p : Nat) (f : PlantPort → PlantPort) : State :=
  if p = 0 then { s with time := { s.time with p0 := f s.time.p0 } }
  else { s with time := { s.time with p1 := f s.time.p1 } }

/-- Add one output, newest first. -/
def State.emit (s : State) (o : Out) : State := { s with out := o :: s.out }

/-- The two lowest bits that an armed checker inverts in its next check value, 0 when it is not armed (16 R648). -/
def State.armedFlip (s : State) (src : Nat) : Nat :=
  match s.asy.armed.find? fun e => decide (e.1 = src) with
  | some (_, double) => if double then 3 else 1
  | none => 0

/-- A checker's injection is used up. -/
def State.disarm (s : State) (src : Nat) : State :=
  { s with asy := { s.asy with armed := s.asy.armed.filter fun e => decide (e.1 ≠ src) } }

/-- Draw a fresh free value: the value and the state with its counter advanced. -/
def State.draw (s : State) : Int × State := (Config.freeValue s.free, { s with free := s.free + 1 })

/-! ## Source codes (01 Table 01.3, 16 Table 16.3) -/

/-- A source code: level in bits 15 to 13, index in bits 12 to 0. -/
def srcCode (level idx : Nat) : Nat := level * 0x2000 + idx

/-- The level of a source code. -/
def srcLevel (c : Nat) : Nat := c / 0x2000

/-- The index of a source code. -/
def srcIdx (c : Nat) : Nat := c % 0x2000

/-- Hammer h. -/
def srcHammer (h : Nat) : Nat := srcCode 1 h
/-- Bench b. -/
def srcBench (b : Nat) : Nat := srcCode 2 b
/-- Valley v. -/
def srcValley (v : Nat) : Nat := srcCode 3 v
/-- Segment k. -/
def srcSeg (k : Nat) : Nat := srcCode 6 (0x060 + k)
/-- Node j of segment k. -/
def srcNode (k j : Nat) : Nat := srcCode 6 (0x080 + 64 * k + j)
/-- Axis a. -/
def srcAxis (a : Nat) : Nat := srcCode 6 (0x400 + a)
/-- Host ring r. -/
def srcRing (r : Nat) : Nat := srcCode 6 (0x020 + r)
/-- The NV die. -/
def srcNv : Nat := srcCode 5 0x040

/-- The element is fenced (R44). -/
def State.fenced (s : State) (c : Nat) : Bool := (s.src c).fenced

/-- The host engine as a source of marks (16 Table 16.3). -/
def srcHostEngine : Nat := srcCode 4 0x002

/-- Put out what the host engine writes to the host; what it produces while fenced is discarded (01 R44). -/
def State.emitHost (s : State) (o : Out) : State := if s.fenced srcHostEngine then s else s.emit o

/-! ## Registers (19): reset values and values in force -/

/-- A BAR0 offset lies in a table of `n` words from `base` with step `step`: the index. -/
def tabIdx (off base step n : Nat) : Option Nat :=
  if base ≤ off ∧ (off - base) % step = 0 ∧ (off - base) / step < n then some ((off - base) / step) else none

/-- The kinds of marks: class and default reaction (16 Tables 16.4, 16.5; 17 Table 17.6A). Class 0 info, 1 warn,
2 error, 3 fatal. -/
def kindClass (k : Nat) : Nat :=
  if k ∈ [0x01, 0x09, 0x0A, 0x19, 0x31, 0x45, 0x46, 0x49, 0x4B, 0x53, 0x58, 0x5B, 0x5D, 0x63, 0x66, 0xC0, 0xCB, 0xCD]
  then 0
  else if k ∈ [0x02, 0x03, 0x04, 0x05, 0x06, 0x07, 0x13, 0x21, 0x23, 0x25, 0x28, 0x30, 0x40, 0x41, 0x42, 0x43, 0x48,
    0x4D, 0x62, 0x64, 0x68, 0x69, 0x70, 0x72, 0xC2, 0xC3, 0xC4, 0xC5, 0xC6, 0xC7, 0xC8, 0xCE] then 2
  else if k ∈ [0x11, 0x12, 0x15, 0x17, 0xC1] then 3
  else 1

/-- The reset value of ASY_KINDk.REACT (R624, Table 16.12). -/
def kindDefault (k : Nat) : Nat :=
  if k ∈ [0x04, 0x30, 0x40, 0x41, 0x42, 0x70, 0x72, 0xCC] then 6
  else if k = 0x05 then 3
  else if k ∈ [0x12, 0x15, 0x17] then 8
  else 0

/-- The kinds whose reaction may be selected (16 Tables 16.4, 16.5). -/
def kindSelectable (k : Nat) : Bool :=
  k ∈ [0x30, 0x40, 0x41, 0x42, 0x70, 0x72, 0x0C, 0x0D, 0x0E, 0x0F, 0x10, 0x13, 0x14, 0x18, 0x19, 0x20, 0x21, 0x22,
    0x23, 0x24, 0x25, 0x26, 0x27, 0x29, 0x2A, 0x2B, 0x2C, 0x2D, 0x2E, 0x2F, 0x31, 0x32, 0x43, 0x44, 0x45, 0x46, 0x47,
    0x48, 0x49, 0x4A, 0x4B, 0x4C, 0x4D, 0x4E, 0x4F, 0x50, 0x51, 0x52, 0x53, 0x58, 0x59, 0x5A, 0x5B, 0x5C, 0x5D, 0x60,
    0x61, 0x62, 0x63, 0x64, 0x65, 0x66, 0x67, 0x69, 0x71, 0x73, 0x74]

/-- LAW_LENk, the calibrated core clocks of component k of an axis job (04 Table 04.7). -/
def lawLen (k : Nat) : Nat :=
  match k with
  | 0 => 380 | 1 => 100 | 2 => 260 | 3 => 70 | 4 => 140 | 5 => 90 | 6 => 60 | 7 => 70 | 8 => 60 | 9 => 140 | 10 => 240
  | 11 => 30 | 12 => 180 | 13 => 120 | _ => 0

/-- LAW_GLENk, the calibrated core clocks of component k of a group job (05 Table 05.7). -/
def lawGLen (k : Nat) : Nat :=
  match k with
  | 0 => 140 | 1 => 35 | 2 => 20 | _ => 0

/-- What a SET or CONST register reads after reset, by BAR0 offset (Tables 03.9 to 03.12, 04.8, 08.13, 09.5, 10.6, 11.7,
11.8, 12.4, 13.6, 14.15, 16.12, 19.7); 0 for every other offset. -/
def Reg.resetValue (off : Nat) : Nat :=
  if off = 0x000000 then Config.deviceId
  else if off = 0x000004 then 0xA001
  else if 0x030100 ≤ off ∧ off < 0x030140 then (if off % 4 = 0 then lawLen ((off - 0x030100) / 4) else 0)
  else if 0x030200 ≤ off ∧ off < 0x030210 then (if off % 4 = 0 then lawGLen ((off - 0x030200) / 4) else 0)
  else if off = 0x010000 then 64 * 2 ^ 11 + 1600
  else if off = 0x010004 then 100
  else if 0x010100 ≤ off ∧ off < 0x010520 then
    (let r := (off - 0x010100) % 0x20
     if r = 0x08 then 6 else if r = 0x10 ∨ r = 0x14 then 0xFFFFFFFF else 0)
  else if off = 0x020000 then 3
  else if off = 0x020010 then 0x1FF * 2 ^ 16 + 0xFF * 2 ^ 8 + 1
  else if off = 0x020014 then 0x237 * 2 ^ 16
  else if off = 0x020020 then 16000
  else if off = 0x030000 then 8
  else if 0x080000 ≤ off ∧ off < 0x090000 then
    (let r := (off - 0x080000) % 0x2000
     if r = 0 then 1 * 2 ^ 30 + 2 * 2 ^ 24 else if r = 4 then 6 else if r = 8 then 496
     else if r = 0x20 then 16 * 2 ^ 16 + 2 ^ 15 + 4 else 0)
  else if off = 0x0C0000 then 8
  else if off = 0x0C0004 then 1000 * 2 ^ 16 + 100 * 2 ^ 8 + 4 * 2 ^ 4 + 1
  else if off = 0x0C0008 then 0x0D1B71
  else if off = 0x0C000C then 0x0346DC
  else if off = 0x0C0010 then 60
  else if off = 0x0C0100 ∨ off = 0x0C0120 then 800
  else if 0x0D0000 ≤ off ∧ off < 0x0D0200 then
    (let r := (off - 0x0D0000) % 0x40
     if r = 0 then 3 * 2 ^ 20 + 3 * 2 ^ 16 + 2 ^ 15 + 5 * 2 ^ 8
     else if r = 8 then 140 * 2 ^ 24 + 50 * 2 ^ 16 + 5000
     else if r = 0x0C then 2 ^ 16 + 1
     else if r = 0x10 then 20 * 2 ^ 16 + 4 else 0)
  else if 0x0D8000 ≤ off ∧ off < 0x0D8200 then
    (if (off - 0x0D8000) % 0x20 = 0 then 20 * 2 ^ 16 + 8 * 2 ^ 8 + 2 * ((off - 0x0D8000) / 0x20 / 4) else 0)
  else if 0x0DC000 ≤ off ∧ off < 0x0DC100 then
    (if (off - 0x0DC000) % 0x10 = 0 then 2 ^ 30 + 2 ^ 28 + 100 * 2 ^ 18 + 10 * 2 ^ 10 + 0x3FF else 0)
  else if off = 0x0E0000 ∨ off = 0x0E0400 then 5 * 2 ^ 22 + 1 * 2 ^ 16
  else if (0x0E0080 ≤ off ∧ off < 0x0E0100) ∨ (0x0E0480 ≤ off ∧ off < 0x0E0500) then 8 * 2 ^ 8 + 3
  else if off = 0x0E0800 then 1
  else if off = 0x100000 then 5
  else if 0x100400 ≤ off ∧ off < 0x100800 then kindDefault ((off - 0x100400) / 4)
  else 0

/-- The value in force of the SET fields at an offset. -/
def State.force (s : State) (off : Nat) : Nat := SMap.get (Reg.resetValue off) s.regs.force off

/-- The staging copy of the SET fields at an offset: what the host wrote since the last apply or discard, else the
value in force. -/
def State.stage (s : State) (off : Nat) : Nat := SMap.get (s.force off) s.regs.stage off

/-- The twin link carries messages: twin operation is on, a lane is up, and the twin buffers are not fenced (15 R588,
01 R35). -/
def State.twinUp (s : State) : Bool :=
  bit (s.force 0x0F0000) 0 && (s.tw.lane0 || s.tw.lane1) && !s.fenced (srcCode 4 0x008)

/-- Send a twin message; an armed twin checker (source 6 0x000, log 22) spoils its CRC-32C. Over a link that carries none
nothing is sent. -/
def State.sendTwin (s : State) (type seg tag minor : Nat) (payload : List Byte) : State :=
  if !s.twinUp then s
  else (s.emit (.twin type seg tag minor payload (s.armedFlip 0xC000))).disarm 0xC000

/-- Put a value into force. -/
def State.setForce (s : State) (off v : Nat) : State :=
  { s with regs := { s.regs with force := SMap.put (Reg.resetValue off) s.regs.force off v } }

/-- NET register offset r of segment k. -/
def netOff (k r : Nat) : Nat := 0x080000 + 0x2000 * k + r

/-- The offset of a ring register. -/
def ringOff (r d : Nat) : Nat := 0x010100 + 0x20 * r + d

/-- The configured cycle length of segment k in granules (Table 02.1), from a CFG word. -/
def cycleLen (cfg : Nat) : Nat := 250 * 2 ^ bits cfg 31 30

/-- The configured cycle length L of segment k, in granules. -/
def State.segL0 (s : State) (k : Nat) : Nat := cycleLen (s.force (netOff k 0))

/-- The present cycle length L of segment k: doubled while DEGRADE holds it halved (R88). -/
def State.segL (s : State) (k : Nat) : Nat :=
  if (s.seg k).halved then min 2000 (2 * s.segL0 k) else s.segL0 k

/-- The pour point of segment k in granules: later by the old L while halved (R88). -/
def State.segPP (s : State) (k : Nat) : Nat :=
  bits (s.force (netOff k 8)) 10 0 + (if (s.seg k).halved then s.segL0 k else 0)

/-- Schedule word e of segment k. -/
def State.sched (s : State) (k e : Nat) : Nat := s.force (netOff k (0x100 + 4 * e))

/-- TYPE of a schedule word (08 Table 08.9). -/
def schType (w : Nat) : Nat := bits w 31 28
/-- SENDER of a schedule word. -/
def schSender (w : Nat) : Nat := bits w 27 22
/-- SPARE of a schedule word. -/
def schSpare (w : Nat) : Bool := bit w 21
/-- MAJ of a schedule word. -/
def schMaj (w : Nat) : Bool := bit w 20
/-- START of a schedule word. -/
def schStart (w : Nat) : Nat := bits w 19 9
/-- LEN of a schedule word. -/
def schLen (w : Nat) : Nat := bits w 8 1

/-- The first schedule entry 0 to 127 that a test accepts, with words read by `rd`. -/
def findEntry (rd : Nat → Nat) (p : Nat → Bool) : Option Nat :=
  (List.range 128).find? fun e => p (rd e)

/-- E_last of R59: end of the last RP entry, or of the CT entry when the schedule has none. -/
def eLast (rd : Nat → Nat) : Nat :=
  let ends (t : Nat) := (List.range 128).foldl (fun acc e =>
    if schType (rd e) = t then max acc (schStart (rd e) + schLen (rd e)) else acc) 0
  if (findEntry rd fun w => schType w = 2).isSome then ends 2 else ends 1

/-- The report-close point RC of segment k in granules (R59). -/
def State.segRC (s : State) (k : Nat) : Nat := eLast (s.sched k) + bits (s.force (netOff k 4)) 7 0

/-- The minor-cycle index of segment k now (R57). -/
def State.minor (s : State) (k : Nat) : Nat := s.gran / s.segL k

/-- The segment cycle count of (N, m) (R346). -/
def State.segCount (s : State) (k n m : Nat) : Nat := n * (2000 / s.segL k) + m

/-- The axis mask of segment k: bit i is axis 64 k + i. -/
def State.axMask (s : State) (k : Nat) : Nat := s.force (netOff k 0x18) + 2 ^ 32 * s.force (netOff k 0x1C)

/-- The network axes of segment k, ascending. -/
def State.netAxes (s : State) (k : Nat) : List Nat :=
  ((List.range 64).filter fun i => bit (s.axMask k) i).map fun i => 64 * k + i

/-- The offset of step channel c's register d. -/
def pulOff (c d : Nat) : Nat := 0x0D8000 + 0x20 * c + d

/-- The step axes that run on segment k (R14): channels whose MODE is not OFF. -/
def State.stepAxes (s : State) (k : Nat) : List Nat :=
  ((List.range 16).filter fun c =>
    bits (s.force (pulOff c 0)) 2 0 = k ∧ bits (s.force (pulOff c 0)) 31 30 ≠ 0).map fun c => 512 + c

/-- The axes with a job on segment k's cycle, ascending. -/
def State.segAxes (s : State) (k : Nat) : List Nat := s.netAxes k ++ s.stepAxes k

/-- The segment on whose cycle an axis runs; none for master axes. -/
def State.segOf (s : State) (a : Nat) : Option Nat :=
  if a < 512 then some (a / 64)
  else if a < 528 then some (bits (s.force (pulOff (a - 512) 0)) 2 0)
  else none

/-- NODE word j of segment k. -/
def State.nodeWord (s : State) (k j : Nat) : Nat := s.force (netOff k (0x300 + 4 * j))

/-- The axes a NODE word gives a node of segment k: FIRST onward, COUNT of them. -/
def nodeAxesOf (k w : Nat) : List Nat :=
  (List.range (bits w 11 8)).map fun i => 64 * k + bits w 21 16 + i

/-- The axes of node j of segment k that have a drive behind them: for a granted spare, those it requested. -/
def State.nodeAxes (s : State) (k j : Nat) : List Nat :=
  let l := nodeAxesOf k (s.nodeWord k j)
  if bit (s.nodeWord k j) 30 then l.take (s.node k j).count else l

/-- The node that drives an axis, if any. -/
def State.nodeOf (s : State) (a : Nat) : Option Nat :=
  let k := a / 64
  (List.range 41).find? fun j => decide (1 ≤ j) && bit (s.nodeWord k j) 31 && (nodeAxesOf k (s.nodeWord k j)).contains a

/-! ## Modes -/

/-- The code of a device mode (14 Table 14.8). -/
def DevMode.code : DevMode → Nat
  | .reset => 0 | .boot => 1 | .commission => 2 | .idle => 3 | .armed => 4 | .run => 5 | .degraded => 6
  | .safeHold => 7 | .follow => 8

/-- The device mode of a code; RESET for a reserved code. -/
def DevMode.ofCode (c : Nat) : DevMode :=
  if c = 1 then .boot else if c = 2 then .commission else if c = 3 then .idle else if c = 4 then .armed
  else if c = 5 then .run else if c = 6 then .degraded else if c = 7 then .safeHold else if c = 8 then .follow
  else .reset

/-- The mode just entered, recorded in GLB_MODE (19 Table 19.7). -/
def State.setMode (s : State) (m : DevMode) : State :=
  if s.pw.mode = m then s
  else { s with pw := { s.pw with mode := m, prev := s.pw.mode, changes := (s.pw.changes + 1) % 2 ^ 16 } }

/-- BOOT, COMMISSION or IDLE: where most blocks count as stopped (19 Table 19.1). -/
def State.setup (s : State) : Bool := s.pw.mode = .boot ∨ s.pw.mode = .commission ∨ s.pw.mode = .idle

/-- Any mode but RESET and BOOT. -/
def State.up (s : State) : Bool := decide (s.pw.mode ≠ .reset ∧ s.pw.mode ≠ .boot)

/-- The device follows (15). -/
def State.following (s : State) : Bool := s.pw.mode = .follow

/-- The segment's schedule runs: STATE 0x3, or 0x5 at a follower (R67). -/
def State.segRuns (s : State) (k : Nat) : Bool :=
  decide ((s.seg k).ring = .running) || (decide ((s.seg k).ring = .integrated) && decide (s.tw.role = .follower))

/-- The segments whose schedules run. -/
def State.running (s : State) : List Nat := (List.range 8).filter fun k => s.segRuns k

/-! ## Marks (16 R621 to R629) -/

/-- The reaction that a kind takes by its REACT in force when it is selectable, else its default (R624). -/
def State.reactOf (s : State) (kind : Nat) : Nat :=
  if kindSelectable kind then bits (s.force (0x100400 + 4 * kind)) 3 0 else kindDefault kind

/-- The kinds that a checker of check values raises (R648). -/
def checked (kind : Nat) : Bool := kind ∈ [0x01, 0x02, 0x03, 0x28]

/-- Add a mark to the assay unit: it takes the next sequence, the MT and the cycle of detection, and the source's
STICKY, kind and count (R621, R622, R629). -/
def State.addMark (s : State) (src kind addr react : Nat) (detail : List Byte) (applied : Bool) : State :=
  let seq := (s.asy.seq + 1) % 256
  let inj := checked kind && s.asy.armed.any fun e => decide (e.1 = src)
  let m : Mark :=
    { src := src, kind := kind, cls := kindClass kind, react := react, addr := addr, mt := s.mt, cyc := s.cyc,
      seq := seq, detail := detail, inj := inj, withheld := false, applied := applied }
  let armed := s.asy.armed.filter fun e => !(inj && decide (e.1 = src))
  let fatal := if kindClass kind = 3 ∧ ¬ s.asy.fatal.contains src then src :: s.asy.fatal else s.asy.fatal
  let s := { s with asy := { s.asy with held := s.asy.held ++ [m], seq := seq, armed := armed, fatal := fatal } }
  s.modSrc src fun e => { e with sticky := true, lastKind := kind, count := (e.count + 1) % 2 ^ 16 }

/-- Raise a mark whose reaction the assay unit takes at release. -/
def State.raise (s : State) (src kind addr : Nat) (detail : List Byte) : State :=
  s.addMark src kind addr (s.reactOf kind) detail false

/-- Raise a mark whose reaction has been taken already, with the reaction's code. -/
def State.raiseDone (s : State) (src kind addr react : Nat) (detail : List Byte) : State :=
  s.addMark src kind addr react detail true

/-- Raise a mark at most once per major cycle and source. -/
def State.raiseOnce (s : State) (src kind addr : Nat) (detail : List Byte) : State :=
  if s.asy.once.contains (src, kind) then s
  else
    let s := s.raise src kind addr detail
    { s with asy := { s.asy with once := (src, kind) :: s.asy.once } }

/-- A lasting condition begins (R629). -/
def State.liveOn (s : State) (src kind : Nat) : State :=
  s.modSrc src fun e => { e with live := if e.live.contains kind then e.live else kind :: e.live }

/-- A lasting condition ends (R629). -/
def State.liveOff (s : State) (src kind : Nat) : State :=
  s.modSrc src fun e => { e with live := e.live.filter fun k => decide (k ≠ kind) }

/-- The LIVE bit of a source. -/
def State.isLive (s : State) (src : Nat) : Bool := !(s.src src).live.isEmpty

/-- Fence an element and raise its FENCE mark with a reason of Table 16.6A; a second fence of it changes nothing
(R657). -/
def State.fence (s : State) (src reason : Nat) : State :=
  if s.fenced src then s
  else
    let s := s.modSrc src fun e => { e with fenced := true }
    s.raiseDone src 0x09 src 0 [BitVec.ofNat 8 reason, 0]

/-- Lift a fence and raise its UNFENCE mark. -/
def State.unfence (s : State) (src : Nat) : State :=
  if s.fenced src then
    (s.modSrc src fun e => { e with fenced := false }).raiseDone src 0x0A src 0 [0, 0]
  else s

/-! ## Host output (14 R544 to R549, R573) -/

/-- The size of a ring in entries (R546). -/
def State.ringSize (s : State) (r : Nat) : Nat := 2 ^ bits (s.force (ringOff r 8)) 4 0

/-- The status-page offset that holds the controller's index of a ring (14 Table 14.4). -/
def ringStatusOff (r : Nat) : Nat :=
  if r < 8 then 4 * r else if r < 16 then 0x40 + 4 * (r - 8) else if r < 24 then 0x60 + 4 * (r - 16)
  else 0x80 + 4 * (r - 24)

/-- Occupied entries of a controller-produced ring. -/
def Ring.used (g : Ring) : Nat := (g.own + 2 ^ 32 - g.host) % 2 ^ 32

/-- An MSI-X message on a vector, or its pending bit while the vector is masked (R376). -/
def State.sendMsi (s : State) (vec : Nat) : State :=
  if s.host.msiMasked.contains vec then
    { s with host := { s.host with msiPending :=
        if s.host.msiPending.contains vec then s.host.msiPending else vec :: s.host.msiPending } }
  else s.emitHost (.msi vec)

/-- A ring's message: at most one per major cycle, the rest withheld (R573). -/
def State.ringMsi (s : State) (r : Nat) : State :=
  if bit (s.force (ringOff r 8)) 21 then
    (if (s.ringOf r).sent then s.modRing r fun g => { g with withheld := true }
     else (s.modRing r fun g => { g with sent := true }).sendMsi (bits (s.force (ringOff r 8)) 26 22))
  else s

/-- A ring cannot take `n` entries that are due: they are dropped, with the count and one mark (R548). -/
def State.ringDrops (s : State) (r n : Nat) : State :=
  let s := s.modRing r fun g => { g with drop := (g.drop + n) % 2 ^ 32, dropNow := g.dropNow + n }
  s.raiseOnce (srcRing r) 0x2D r (leBytes 4 (s.ringOf r).dropNow)

/-- A ring cannot take an entry. -/
def State.ringDrop (s : State) (r : Nat) : State := s.ringDrops r 1

/-- Write one entry and no index. -/
def State.putEntry (s : State) (r : Nat) (e : List Byte) : State :=
  (s.emitHost (.ring r ((s.ringOf r).own) e)).modRing r fun g => { g with own := (g.own + 1) % 2 ^ 32 }

/-- Write the controller's index of a ring to the status page and send its message (R544, R573). -/
def State.putIndex (s : State) (r : Nat) (msg : Bool) : State :=
  let s := s.emitHost (.status (ringStatusOff r) (leBytes 4 (s.ringOf r).own))
  if msg then s.ringMsi r else s

/-- The ring can take `n` more entries. -/
def State.room (s : State) (r n : Nat) : Bool := decide ((s.ringOf r).used + n ≤ s.ringSize r)

/-- Post one entry to a controller-produced ring (R548). A disabled ring takes nothing. -/
def State.post (s : State) (r : Nat) (e : List Byte) : State :=
  if (s.ringOf r).on then
    (if s.room r 1 then (s.putEntry r e).putIndex r true else s.ringDrop r)
  else s

/-- Bytes of the status page. -/
def State.statusWrite (s : State) (off : Nat) (bs : List Byte) : State :=
  if s.host.linkUp then s.emitHost (.status off bs) else s

/-! ## Descriptors: the record of accepted descriptors and its completions (R563, R90) -/

/-- Completion status codes (14 Table 14.6A). -/
def stDone : Nat := 0x00
def stRejMode : Nat := 0x02
def stRejRange : Nat := 0x03
def stRejIncons : Nat := 0x04
def stRejLate : Nat := 0x05
def stSuperseded : Nat := 0x06
def stAborted : Nat := 0x07
def stDeferred : Nat := 0x08
def stRejLocked : Nat := 0x09
def stRejCap : Nat := 0x0A
def stRejSafety : Nat := 0x0B
def stFailedHw : Nat := 0x0C

/-- The completion record of a descriptor (14 Table 14.6). -/
def cplRecord (e : Entry) (status n m : Nat) (res : List Byte) : List Byte :=
  leBytes 2 e.seq ++ [BitVec.ofNat 8 status, BitVec.ofNat 8 (e.ring % 8)] ++ leBytes 3 (tagOf n) ++
    [BitVec.ofNat 8 m] ++ padTo 8 res

/-- The opcode of an operation (14 Table 14.7). -/
def opcOf : DOp → Nat
  | .nop => 0x01 | .fence .. => 0x02 | .mode .. => 0x03 | .moveAbs .. => 0x10 | .moveRel .. => 0x11 | .jog .. => 0x12
  | .stop => 0x13 | .limits .. => 0x14 | .follow .. => 0x15 | .gear .. => 0x16 | .camEngage .. => 0x17
  | .camDisengage .. => 0x18 | .groupMove .. => 0x19 | .phaseIn .. => 0x1A | .setc .. => 0x20 | .loadset .. => 0x21
  | .swapset .. => 0x22 | .terrace .. => 0x23 | .filter .. => 0x24 | .learn .. => 0x28 | .resample .. => 0x29
  | .couple .. => 0x2A | .ident .. => 0x2B | .camLoad .. => 0x30 | .axisCfg .. => 0x38 | .unmute .. => 0x40
  | .nodeReq .. => 0x40 | .timeStep .. => 0x48 | .timeSelect .. => 0x49 | .nvWrite .. => 0x50 | .nvRead .. => 0x51
  | .safetyLoad .. => 0x58 | .safetyConfirm .. => 0x59 | .inject .. => 0x60 | .unfence .. => 0x61
  | .clearLedger => 0x62 | .clearFlags .. => 0x63 | .trace .. => 0x70

/-- The opcode is local, not aligned, in a twin pair (R594). -/
def opcLocal (o : Nat) : Bool := o ∈ [0x01, 0x02, 0x50, 0x51, 0x60, 0x61, 0x62, 0x70]

/-- The entry is over. -/
def Progress.isDone : Progress → Bool
  | .done .. => true
  | _ => false

/-- The device leads and its follower pairs or is paired: what the twin must hear is sent (15 R590, Table 15.3). -/
def State.leads (s : State) : Bool :=
  decide (s.tw.role = .leader) && decide (s.tw.pair = .pairing ∨ s.tw.pair = .paired)

/-- A follower posts its leader's completions as its own (R594). -/
def State.postsLeaders (s : State) : Bool := decide (s.tw.role = .follower) && decide (s.tw.pair ≠ .unpaired)

/-- The completion record that a descriptor may post now: its own once it is over; at a follower, for an aligned opcode,
the leader's, once the descriptor has taken effect, or is not to (R594, R595). -/
def State.recordOf (s : State) (e : Entry) : Option (List Byte) :=
  if s.postsLeaders && !opcLocal (opcOf e.op) then
    (let refused : Bool := match e.tagged with | some (_, _, st) => decide (st ≠ 0) | none => false
     if decide (e.prog = .waiting) && !refused && decide (s.tw.pair ≠ .unsynced) then none
     else (s.tw.cpls.find? fun c => decide (c.1 = e.ring ∧ c.2.1 = e.pos)).map fun c => c.2.2)
  else match e.prog with
    | .done st n m res => some (cplRecord e st n m res)
    | _ => none

/-- The group that a DEFINE forms: its kind, 0 coupling or 1 interpolation, and its number. -/
def defineKey (e : Entry) : Option (Nat × Nat) :=
  match e.op with
  | .couple (.define ..) => some (0, e.tgt)
  | .groupMove (.define ..) => some (1, e.tgt)
  | _ => none

/-- A DEFINE that is not rejected: its place in the order of acceptance and its segment (02 R67). -/
def Entry.defineMark (e : Entry) : Option (Nat × Nat) :=
  let live : Bool := (match e.prog with | .done st .. => decide (st = stDone) | _ => true) &&
    (match e.tagged with | some (_, _, st) => decide (st = 0) | none => true)
  match e.op with
  | .couple (.define _ k _ _) => if live then some (e.id, k) else none
  | .groupMove (.define k _) => if live then some (e.id, k) else none
  | _ => none

/-- Keep the segment of a DEFINE whose completion is posted, unless a later one's is kept (02 R67). -/
def State.keepDefine (s : State) (e : Entry) : State :=
  match defineKey e, e.defineMark with
  | some key, some x =>
    (match s.host.defined.lookup key with
    | some old => if old.1 < x.1 then { s with host := { s.host with
        defined := (s.host.defined.filter fun y => decide (y.1 ≠ key)) ++ [(key, x)] } } else s
    | none => { s with host := { s.host with defined := s.host.defined ++ [(key, x)] } })
  | _, _ => s

/-- Post one completion to CPLr, and to the twin at a leader (R563, 15 Table 15.3). -/
def State.postCpl (s : State) (e : Entry) (rec_ : List Byte) : State :=
  let s := if (s.ringOf (8 + e.ring)).on then
      ((s.putEntry (8 + e.ring) rec_).putIndex (8 + e.ring) e.irq)
    else s
  if s.leads && !opcLocal (opcOf e.op) then s.sendTwin 0x3 0xFF (fld rec_ 4 3) (byteAt rec_ 7) (leBytes 4 e.pos ++ rec_)
  else { s with tw := { s.tw with cpls := s.tw.cpls.filter fun c => decide (¬ (c.1 = e.ring ∧ c.2.1 = e.pos)) } }

/-- Post the completions that stand at the head of their rings, in ring order (R90): one pass over the record, in
which a ring with an open descriptor posts no later one. -/
def postLoop (s : State) (blocked : List Nat) (kept : List Entry) : List Entry → State
  | [] => { s with host := { s.host with acc := kept.reverse } }
  | e :: r =>
    if blocked.contains e.ring then postLoop s blocked (e :: kept) r
    else
      match s.recordOf e with
      | some rec_ => postLoop ((s.postCpl e rec_).keepDefine e) blocked kept r
      | none => postLoop s (e.ring :: blocked) (e :: kept) r

/-- CPLr whose DISABLE waits goes off once CMDr is off and every descriptor accepted from it has completed (R552). -/
def State.cplDisable (s : State) (r : Nat) : State :=
  if (s.ringOf (r + 8)).disabling ∧ ¬ (s.ringOf r).on ∧ ¬ (s.host.acc.any fun e => decide (e.ring = r)) then
    s.modRing (r + 8) fun g => { g with on := false, disabling := false }
  else s

/-- Every pending DISABLE of a completion ring, looked at again. -/
def State.cplDisables (s : State) : State := (List.range 8).foldl (fun s r => s.cplDisable r) s

/-- Post every completion that ring order lets out. -/
def State.postReady (s : State) : State := (postLoop s [] [] s.host.acc).cplDisables

/-- Change the record of one descriptor. -/
def State.modEntry (s : State) (id : Nat) (f : Entry → Entry) : State :=
  { s with host := { s.host with acc := s.host.acc.map fun e => if e.id = id then f e else e } }

/-- The record of a descriptor, while it is not posted. -/
def State.entry (s : State) (id : Nat) : Option Entry := s.host.acc.find? fun e => e.id = id

/-- The cycle a descriptor's completion carries: that of its apply point once it took effect. -/
def Entry.applied (e : Entry) (n m : Nat) : Nat × Nat :=
  match e.prog with
  | .running n m => (n, m)
  | .done _ n m _ => (n, m)
  | .waiting => (n, m)

/-- A descriptor ends with a status and a result, in (n, m) of its apply point. -/
def State.finish (s : State) (id status : Nat) (res : List Byte) : State :=
  s.modEntry id fun e =>
    if e.prog.isDone then e
    else
      let nm := e.applied s.cyc 0
      { e with prog := .done status nm.1 nm.2 res }

/-- End a descriptor that may be absent. -/
def State.finishOpt (s : State) (id : Option Nat) (status : Nat) (res : List Byte) : State :=
  match id with
  | some i => s.finish i status res
  | none => s

/-- Mark a descriptor as having taken effect in (n, m). -/
def State.startEntry (s : State) (id n m : Nat) : State :=
  s.modEntry id fun e => if e.prog.isDone then e else { e with prog := .running n m }

/-- The result bytes of a motion descriptor (R286): cycle tag, minor cycle, low 32 bits of the integer part of a
Q48.16 position. -/
def motionResult (n m : Nat) (pos : Int) : List Byte :=
  leBytes 3 (tagOf n) ++ [BitVec.ofNat 8 m] ++ leInt 4 (pos / 65536)

/-! ## Events of one core clock (log 88) -/

/-- A command that waits at the head of the queue, in the present core clock, satisfies `f`: what the rules on events of the
same core clock look at. -/
def State.meets (s : State) (f : Instr → Bool) : Bool :=
  (s.pending.takeWhile fun c => decide (c.time / 5 ≤ s.core)).any f

/-- The host commits the GLB set, SCH, LAW and TIM, in this core clock too. -/
def State.commitsGlb (s : State) : Bool :=
  s.setup && s.meets fun c => match c with
    | .glbCommitGo _ => true
    | .glbCommitAll _ => true
    | .registerWrite _ off v => decide (off = 0x24 ∧ v.toNat % 4 ≠ 0) && !bit v.toNat 2
    | _ => false

/-- The device changes the masked bits of a value in force, to a value: a staging copy that the host has not written follows it
(R762), and so does a written one that a commit of the same clock applies before it (R782). -/
def State.devSet (s : State) (off mask v : Nat) : State :=
  let s' := s.setForce off v
  match s.regs.stage.lookup off with
  | some x =>
    if s.commitsGlb then
      { s' with regs := { s'.regs with stage := SMap.insert (SMap.erase s'.regs.stage off) off (x - (x &&& mask) + (v &&& mask)) } }
    else s'
  | none => s'

/-- The same for the present CK_FB sample of 5 ns. -/
def State.meetsFb (s : State) (f : Instr → Bool) : Bool :=
  (s.pending.takeWhile fun c => decide (c.time / 20 ≤ s.now / 20)).any f

/-- A command that waits at the head of the queue, with a time up to `until_`, satisfies `f`. -/
def State.awaits (s : State) (until_ : Nat) (f : Instr → Bool) : Bool :=
  (s.pending.takeWhile fun c => decide (c.time ≤ until_)).any f

/-- The hard run of hammer h completes in this core clock too. -/
def State.completesNow (s : State) (h : Nat) : Bool :=
  s.meets fun c => match c with | .jobComplete _ x => decide (x = h) | _ => false

/-- The soft run of hammer h reaches its end in this core clock too. -/
def State.softEndsNow (s : State) (h : Nat) : Bool :=
  s.meets fun c => match c with | .softJobComplete _ x => decide (x = h) | _ => false

/-- A report-close point of segment k falls in this core clock too. -/
def State.closesNow (s : State) (k : Nat) : Bool :=
  s.meets fun c => match c with | .reportClose _ x => decide (x = k) | _ => false

/-- A pour point of segment k falls in this core clock too. -/
def State.poursNow (s : State) (k : Nat) : Bool :=
  s.meets fun c => match c with | .pourPoint _ x => decide (x = k) | _ => false

/-- The copy of hammer h's run is issued in this core clock too. -/
def State.reissuesNow (s : State) (job : Nat) : Bool :=
  s.meets fun c => match c with | .reissuePoint _ x => decide (x = job) | _ => false

end Sys2Proof.Machine
end

