-- ==== Sys2Proof/Machine/Operands.lean ====
section
/-! DEFINITION. Every operand form of the descriptors: the layout of each opcode's payload, check 1 of R559 over it,
and the reading of its fields (14 Tables 14.5 and 14.7, R566). -/

namespace Sys2Proof.Machine

/-- A coefficient of 5 bytes: mantissa Q1.31, then exponent (R565). -/
def fldCoef (bs : List Byte) (off : Nat) : Coef := ⟨fldS bs off 4, fldS bs (off + 4) 1⟩

/-- The payload bytes an opcode and function use, as ranges first, last and the bits used in each byte. -/
def payloadUse (opc f13 : Nat) (bs : List Byte) (tgt : Nat) : List (Nat × Nat × Nat) :=
  let f := byteAt bs 12
  match opc with
  | 0x02 => [(12, 12, 0xFF), (13, 13, 1)]
  | 0x03 => [(12, 12, 0xFF)]
  | 0x10 => [(16, 23, 0xFF)]
  | 0x11 => [(16, 23, 0xFF)]
  | 0x12 => [(16, 19, 0xFF)]
  | 0x14 => [(12, 31, 0xFF)]
  | 0x15 => [(12, 12, 3), (14, 20, 0xFF), (24, 27, 0xFF)]
  | 0x16 => [(12, 12, 0xFF), (14, 31, 0xFF)]
  | 0x17 => [(12, 12, 0xFF), (13, 13, 0x0F), (14, 31, 0xFF), (32, 39, 0xFF)]
  | 0x18 => [(12, 12, 0xFF)]
  | 0x19 =>
    if f = 0 then [(12, 13, 0xFF), (16, 23, 0xFF)] else if f = 2 then [(12, 12, 0xFF), (16, 23, 0xFF)]
    else [(12, 12, 0xFF)]
  | 0x1A => [(16, 23, 0xFF)]
  | 0x20 => [(12, 12, 0xFF), (13, 13, 0x0F), (14, 18, 0xFF)]
  | 0x21 => [(12, 28, 0xFF)]
  | 0x22 => [(12, 12, 0x1F)]
  | 0x23 => [(12, 12, 0xCF), (14, 31, 0xFF)]
  | 0x24 => [(12, 13, 0x1F)]
  | 0x28 =>
    if f = 0 then [(12, 13, 0xFF)] else if f = 1 then [(12, 31, 0xFF)] else if f = 2 then [(12, 25, 0xFF)]
    else if f = 3 then [(12, 12, 0xFF), (14, 31, 0xFF)] else [(12, 12, 0xFF)]
  | 0x29 => [(12, 12, 0xFF), (14, 16, 0xFF)]
  | 0x2A =>
    if f = 0 then [(12, 12, 0xFF), (13, 13, 0x17), (14, 25, 0xFF)]
    else if f = 1 then [(12, 30, 0xFF)] else [(12, 12, 0xFF)]
  | 0x2B =>
    if f = 0 then
      [(12, 12, 0xFF), (13, 13, 0xE0), (14, 21, 0xFF)] ++
        (if bit f13 7 then [(24, 24, 0xFF), (28, 31, 0xFF)] else [(22, 31, 0xFF)])
    else [(12, 12, 0xFF)]
  | 0x30 => [(12, 12, 0xFF), (14, 23, 0xFF)]
  | 0x38 =>
    (if 512 ≤ tgt then [(12, 15, 0xFF)] else [(12, 12, 0x33), (13, 13, 0x1F), (14, 14, 0x0F), (15, 15, 0xFF)]) ++
      [(16, 16, 0x3F), (18, 22, 0xFF), (24, 27, 0xFF)]
  | 0x40 => if f13 = 2 then [(12, 25, 0xFF)] else [(12, 14, 0xFF)]
  | 0x48 => [(12, 12, 0xFF), (16, 23, 0xFF)]
  | 0x49 => [(12, 12, 0xFF), (13, 13, 1)]
  | 0x50 => [(12, 27, 0xFF)]
  | 0x51 => [(12, 27, 0xFF)]
  | 0x58 => [(16, 23, 0xFF)]
  | 0x59 => [(12, 15, 0xFF)]
  | 0x60 => [(12, 12, 1), (14, 15, 0xFF)]
  | 0x61 => [(14, 15, 0xFF)]
  | 0x63 => if 512 ≤ tgt ∧ tgt < 568 then [(12, 31, 0xFF)] else [(12, 12, 0xFF)]
  | 0x70 => [(12, 12, 0xFF), (13, 13, 1), (14, 14, 0xFF), (15, 15, 3), (16, 19, 0xFF)]
  | _ => []

/-- The opcodes of Table 14.7. -/
def opcodes : List Nat :=
  [0x01, 0x02, 0x03, 0x10, 0x11, 0x12, 0x13, 0x14, 0x15, 0x16, 0x17, 0x18, 0x19, 0x1A, 0x20, 0x21, 0x22, 0x23, 0x24,
   0x28, 0x29, 0x2A, 0x2B, 0x30, 0x38, 0x40, 0x48, 0x49, 0x50, 0x51, 0x58, 0x59, 0x60, 0x61, 0x62, 0x63, 0x70]

/-- The payload byte that holds a reserved function, mode, selector or kind code, if any (R559 check 1). -/
def codeFault (opc : Nat) (bs : List Byte) (tgt : Nat) : Option Nat :=
  let f := byteAt bs 12
  let g := byteAt bs 13
  let past (n : Nat) : Option Nat := if f > n then some 12 else none
  match opc with
  | 0x03 => if tgt = 0xFFFF then past 8 else past 2
  | 0x16 => past 1
  | 0x17 => if bits g 1 0 = 3 then some 13 else none
  | 0x18 => past 1
  | 0x19 => past 2
  | 0x20 => if f < 0x20 ∧ 4 ≤ bits g 3 0 ∧ bits g 3 0 ≠ 0xF then some 13 else none
  | 0x21 => if bits g 7 4 = 0 ∨ bits g 7 4 > 3 ∨ bits g 3 0 > 3 then some 13 else none
  | 0x23 => if bits f 7 6 = 3 then some 12 else none
  | 0x28 =>
    if f > 4 then some 12 else if f = 0 ∧ g > 2 then some 13 else if f = 2 ∧ g > 2 then some 13 else none
  | 0x2A => past 3
  | 0x2B => if f > 1 then some 12 else if f = 0 ∧ bits g 6 5 = 3 then some 13 else none
  | 0x38 =>
    if tgt < 512 ∧ bits f 5 4 = 3 then some 12
    else if ¬ (tgt < 512 ∧ bits f 1 0 = 3) ∧ (bits (byteAt bs 16) 5 4 = 3 ∨ bits (byteAt bs 16) 3 2 = 3) then some 16
    else none
  | 0x40 => if g ≠ 1 ∧ g ≠ 2 then some 13 else none
  | 0x48 => past 1
  | 0x49 => past 1
  | _ => none

/-- The payload offset of an opcode's host-buffer address, for those that name one (R565). -/
def bufAt (opc : Nat) (bs : List Byte) : Option Nat :=
  match opc with
  | 0x19 => if byteAt bs 12 = 2 then some 16 else none
  | 0x30 => some 16
  | 0x40 => if byteAt bs 13 = 2 then some 16 else none
  | 0x50 => some 16
  | 0x51 => some 16
  | 0x58 => some 16
  | _ => none

/-- The bits in use of one byte of a descriptor. -/
def usedBits (opc : Nat) (bs : List Byte) (tgt off : Nat) : Nat :=
  match (payloadUse opc (byteAt bs 13) bs tgt).find? fun r => r.1 ≤ off ∧ off ≤ r.2.1 with
  | some r => r.2.2
  | none => 0

/-- The first byte at fault under check 1 of R559: reserved codes and nonzero reserved bits, in byte order. A
payload whose layout depends on a reserved code is examined only up to that code. -/
def formatFault (bs : List Byte) : Option Nat :=
  let opc := byteAt bs 0
  let ext := bit (byteAt bs 1) 1
  let tgt := fld bs 4 2
  let app := byteAt bs 6
  let code := codeFault opc bs tgt
  let bad (off : Nat) : Bool :=
    if off = 0 then !opcodes.contains opc
    else if off = 1 then decide (byteAt bs 1 ≥ 4) || (ext && decide (opc ≠ 0x17))
    else if off < 6 then false
    else if off = 6 then decide (app > 2)
    else if off = 7 then decide (byteAt bs 7 ≠ 0)
    else if off < 12 then
      (if app = 0 then decide (byteAt bs off ≠ 0) else if app = 1 then decide (off = 11 ∧ byteAt bs 11 ≠ 0) else false)
    else if !opcodes.contains opc then false
    else
      match code with
      | some c =>
        if off < c then decide (byteAt bs off &&& (255 - usedBits opc bs tgt off) ≠ 0) else decide (off = c)
      | none =>
        decide (byteAt bs off &&& (255 - usedBits opc bs tgt off) ≠ 0) ||
          (decide (bufAt opc bs = some off) && decide (byteAt bs off % 8 ≠ 0))
  (List.range (if ext then 64 else 32)).find? fun off => bad off

/-- The operation of a descriptor that passed check 1, with the host buffer it names. -/
def readOp (bs buf : List Byte) : DOp :=
  let f := byteAt bs 12
  let g := byteAt bs 13
  match byteAt bs 0 with
  | 0x02 => .fence f (bit g 0)
  | 0x03 => .mode f
  | 0x10 => .moveAbs (fldS bs 16 8)
  | 0x11 => .moveRel (fldS bs 16 8)
  | 0x12 => .jog (fldS bs 16 4)
  | 0x13 => .stop
  | 0x14 => .limits (fld bs 12 4) (fld bs 16 4) (fld bs 20 4) (fld bs 24 4) (fld bs 28 4)
  | 0x15 => .follow (bit f 1) (bit f 0) (fld bs 14 2) (fldCoef bs 16) (fld bs 24 4)
  | 0x16 => .gear (decide (f = 1)) (fld bs 14 2) (fldS bs 16 4) (fldS bs 20 4) (fldS bs 24 8)
  | 0x17 =>
    .camEngage f (bit g 3) (bit g 2) (bits g 1 0) (fld bs 14 2) (fldS bs 16 8) (fldS bs 24 8) (fldS bs 32 8)
  | 0x18 => .camDisengage (decide (f = 1))
  | 0x19 =>
    if f = 0 then .groupMove (.define g (fld bs 16 8)) else if f = 1 then .groupMove .dissolve
    else .groupMove (.move ((List.range (buf.length / 8)).map fun i => fldS buf (8 * i) 8))
  | 0x1A => .phaseIn (fldS bs 16 8)
  | 0x20 => .setc f (bits g 3 0) (fldCoef bs 14)
  | 0x21 => .loadset f (bits g 3 0) ((List.range (bits g 7 4)).map fun i => fldCoef bs (14 + 5 * i))
  | 0x22 => .swapset (bits f 4 0)
  | 0x23 =>
    -- thresholds are in the format of the selector: unsigned 32 bits (R190)
    .terrace (bits f 7 6) (bits f 3 0) (fld bs 14 2) (fld bs 16 4) (fld bs 20 4) (fld bs 24 4) (fld bs 28 4)
  | 0x24 => .filter (bits f 4 0) (bits g 4 0)
  | 0x28 =>
    if f = 0 then .learn (.mode g)
    else if f = 1 then .learn (.master g (fld bs 14 2) (fldS bs 16 8) (fldS bs 24 8))
    else if f = 2 then .learn (.gains g (fld bs 14 2) (fldCoef bs 16) (fldCoef bs 21))
    else if f = 3 then .learn (.shape (fldCoef bs 14) (fldCoef bs 19) (fld bs 24 4) (fldS bs 28 4))
    else .learn .clear
  | 0x29 => .resample f (fld bs 14 3)
  | 0x2A =>
    if f = 0 then .couple (.define (bit g 4) (bits g 2 0) (fld bs 14 8) (fldS bs 22 4))
    else if f = 1 then .couple (.load (fld bs 14 2) ((List.range g).map fun i => fldCoef bs (16 + 5 * i)))
    else if f = 2 then .couple .swap else .couple .dissolve
  | 0x2B =>
    if f = 0 then
      .ident (.start (b2n (bit g 7)) (bits g 6 5) (byteAt bs 14) (byteAt bs 15) (fldS bs 16 4) (fld bs 20 4) (fld bs 24 4)
        (fldS bs 28 4))
    else .ident .cancel
  | 0x30 =>
    .camLoad f (fld bs 14 2) (fldS buf 0 8) (fldS buf 8 8)
      ((List.range (fld bs 14 2)).map fun i => fldS buf (16 + 8 * i) 8)
  | 0x38 =>
    .axisCfg
      { aw := bits f 5 4, kind := bits f 1 0, fbFrac := bits g 4 0, vffFrac := bits (byteAt bs 14) 3 0,
        stages := byteAt bs 15, faultPol := bits (byteAt bs 16) 5 4, stopPol := bits (byteAt bs 16) 3 2,
        noReverse := bit (byteAt bs 16) 1, cross := bit (byteAt bs 16) 0, catchK := fldCoef bs 18,
        catchV := fld bs 24 4 }
  | 0x40 => if g = 1 then .unmute f (byteAt bs 14) else .nodeReq f (byteAt bs 14) (byteAt bs 15) (fld bs 16 8) buf
  | 0x48 => .timeStep (decide (f = 1)) (fldS bs 16 8)
  | 0x49 => .timeSelect f (bit g 0)
  | 0x50 => .nvWrite (fld bs 12 4) (fld bs 16 8) (fld bs 24 4) buf
  | 0x51 => .nvRead (fld bs 12 4) (fld bs 16 8) (fld bs 24 4)
  | 0x58 => .safetyLoad (padTo 4096 buf)
  | 0x59 => .safetyConfirm (fld bs 12 4)
  | 0x60 => .inject (bit f 0) (fld bs 14 2)
  | 0x61 => .unfence (fld bs 14 2)
  | 0x62 => .clearLedger
  | 0x63 => .clearFlags f
  | 0x70 =>
    .trace (f + 256 * (g % 2)) (byteAt bs 14) (bit (byteAt bs 15) 1) (bit (byteAt bs 15) 0) (fld bs 16 2) (fld bs 18 2)
  | _ => .nop

/-- TGT is among the targets that Table 14.7 gives for the opcode (R559 check 2). -/
def tgtOk (opc tgt : Nat) : Bool :=
  match opc with
  | 0x01 => tgt < 568 ∨ tgt = 0xFFFF
  | 0x03 => tgt = 0xFFFF ∨ tgt < 560
  | 0x10 => tgt < 560
  | 0x11 => tgt < 560
  | 0x12 => tgt < 560
  | 0x13 => tgt < 560
  | 0x14 => tgt < 560
  | 0x15 => tgt < 560
  | 0x16 => tgt < 560
  | 0x17 => tgt < 528
  | 0x18 => tgt < 528
  | 0x19 => tgt < 32
  | 0x1A => tgt < 528
  | 0x2A => tgt < 32
  | 0x38 => tgt < 528
  | 0x63 => tgt < 568
  | o => if 0x20 ≤ o ∧ o ≤ 0x2B then tgt < 512 else tgt = 0xFFFF

end Sys2Proof.Machine
end

