-- ==== Sys2Proof/Machine/Flags.lean ====
section
/-! DEFINITION. The sticky saturation flags of an axis (04 Table 04.3, R185) and their setting and clearing. -/

namespace Sys2Proof.Machine

/-- The bit of each flag in telemetry byte 3. -/
def fSatPos : Nat := 7
def fSatVel : Nat := 6
def fSatInt : Nat := 5
def fSatOut : Nat := 4
def fSatFf : Nat := 3
def fGuard : Nat := 2
def fSatLearn : Nat := 1
def fSatCoup : Nat := 0

/-- The flag byte with one flag set. -/
def setFlag (f : BitVec 8) (i : Nat) : BitVec 8 := f ||| BitVec.ofNat 8 (2 ^ i)

/-- Set a flag when a condition holds. -/
def flagIf (f : BitVec 8) (c : Bool) (i : Nat) : BitVec 8 := if c then setFlag f i else f

/-- The flag byte with the named flags cleared (R186). -/
def clearFlagMask (f : BitVec 8) (mask : Nat) : BitVec 8 := f &&& ~~~ BitVec.ofNat 8 mask

end Sys2Proof.Machine
end

