-- ==== Sys2Proof/Machine/Arith.lean ====
section
/-! DEFINITION. The datapath (06): sums on the 72-bit accumulators with their guard bits, narrowing with its
saturation, and the saturating adds. -/

namespace Sys2Proof.Machine

/-- An accumulator: its value and its frozen bit. -/
structure Acc where
  v : Int := 0
  frozen : Bool := false
  deriving DecidableEq, Repr

/-- The largest accumulator value (R266). -/
def accMax : Int := 2 ^ 71 - 1
/-- The smallest accumulator value (R266). -/
def accMin : Int := -(2 ^ 71)

/-- Add one exactly formed term (R266 to R268, R280). -/
def Acc.add (a : Acc) (t : Int) : Acc :=
  if a.frozen then a
  else
    let e := a.v + t
    if e > accMax then ⟨accMax, true⟩
    else if e < accMin then ⟨accMin, true⟩
    else if t > accMax then ⟨accMax, true⟩
    else if t < accMin then ⟨accMin, true⟩
    else ⟨e, false⟩

/-- A term shifted by `k` places: left exactly, right with convergent rounding (R265). -/
def shiftTerm (x k : Int) : Int := if 0 ≤ k then x * (2 ^ k.toNat : Nat) else roundConv x (-k).toNat

/-- The product term of a coefficient and a value of `fx` fraction bits, for a destination of `fo` (R265). -/
def mulT (fo : Nat) (c : Coef) (x : Int) (fx : Nat) : Int := shiftTerm (c.m * x) ((fo : Int) - fx + c.e)

/-- A term that is no product (R265). -/
def addT (fo : Nat) (x : Int) (fx : Nat) : Int := shiftTerm x ((fo : Int) + 31 - fx)

/-- What a narrowing gives: the value, whether it saturated, whether the sum overflowed its guard bits. -/
structure Res where
  v : Int
  sat : Bool := false
  guard : Bool := false
  deriving DecidableEq, Repr

/-- Run a sum over its terms in written order and narrow it to 32 bits (R263 to R269). -/
def sum32 (terms : List Int) : Res :=
  let a := terms.foldl Acc.add {}
  let q := roundConv a.v 31
  ⟨satW 32 q, decide (satW 32 q ≠ q), a.frozen⟩

/-- Saturate an exact expression to `w` bits (R271). -/
def sat (w : Nat) (x : Int) : Res := ⟨satW w x, decide (satW w x ≠ x), false⟩

/-- Drop `k` fraction bits with convergent rounding and saturate to `w` bits (R269, R271). -/
def narrow (w k : Nat) (x : Int) : Res := sat w (roundConv x k)

/-- The fraction bits of Q16.16. -/
def q16 : Nat := 16
/-- The fraction bits of Q1.31. -/
def q31 : Nat := 31

/-- 1.0 as a coefficient (R262). -/
def Coef.one : Coef := ⟨0x40000000, 1⟩
/-- 0 as a coefficient. -/
def Coef.zero : Coef := ⟨0, 0⟩

/-- Comparison of a coefficient's value m × 2^e (R261, R262) with n × 2^-47, exactly: the value in units of 2^-47. -/
def Coef.val (c : Coef) : Int := c.m * (2 ^ (c.e + 16).toNat : Nat)

/-- The value 1.0 in units of 2^-47. -/
def coefUnit : Int := (2 ^ 47 : Nat)

/-- The exponent lies in -16 to 15 (R189). -/
def Coef.expOk (c : Coef) : Bool := decide (-16 ≤ c.e ∧ c.e ≤ 15)

/-- The integer square root by bisection over `fuel` bits: the largest r with r × r ≤ n. -/
def isqrtLoop : Nat → Nat → Nat → Nat
  | 0, _, r => r
  | f + 1, n, r =>
    let c := r + 2 ^ f
    if c * c ≤ n then isqrtLoop f n c else isqrtLoop f n r

/-- The integer square root of a nonnegative integer below 2^512. -/
def isqrt (n : Int) : Int := isqrtLoop 256 n.toNat 0

/-- The largest x in [lo, lo + 2^fuel) for which a falling test holds, given that it holds at lo. -/
def bisect : Nat → (Int → Bool) → Int → Int
  | 0, _, lo => lo
  | f + 1, p, lo =>
    let c := lo + (2 ^ f : Nat)
    if p c then bisect f p c else bisect f p lo

end Sys2Proof.Machine
end

