-- ==== Sys2Proof/Machine/Learn.lean ====
section
/-! DEFINITION. Phase learning, the excitation and the spectra of identification (05): the phase of a master, the
learning table's interpolation and update, the silicon tables, CHIRP and PRBS, and the block-scaled FFT. -/

namespace Sys2Proof.Machine

/-! ## Phase (R219, R220) -/

/-- φ of R219. -/
def phaseOf (pM origin period : Int) : Int :=
  if period ≤ 0 then 0 else ((pM - origin) % period) * 2 ^ 32 / period

/-- Δφ of R220, signed 32 bits. -/
def phaseStep (phi prev : Int) : Int := toS 32 (toU 32 (phi - prev))

/-- Bin r of a learning table. -/
def binOf (t : SMap Int) (r : Int) : Int := SMap.get 0 t r.toNat

/-- The interpolation of R223 at ψ, on a table of 2^log2n bins. -/
def interp (t : SMap Int) (log2n : Nat) (psi : Int) : Int :=
  let s := 32 - log2n
  let n : Int := 2 ^ log2n
  let r := psi / 2 ^ s
  let f := psi % 2 ^ s
  binOf t r + roundConv ((binOf t ((r + 1) % n) - binOf t r) * f) s

/-- The learning term l before its clamp, with its phase advance of LEAD bins (R223). -/
def learnTerm (g : Learning) (phi dir : Int) : Int :=
  interp g.bins g.log2n ((phi + dir * g.lead * 2 ^ (32 - g.log2n)) % 2 ^ 32)

/-- The three-bin update of R224: the table and whether a value saturated or a sum overflowed its guard bits. -/
def learnUpdate (g : Learning) (phi x : Int) (fx : Nat) : SMap Int × Bool × Bool :=
  let s := 32 - g.log2n
  let n : Int := 2 ^ g.log2n
  let d := sum32 [mulT q31 g.kl x fx]
  let b := ((phi + 2 ^ (s - 1)) % 2 ^ 32) / 2 ^ s
  let bins := [((b - 1) % n, g.s1), (b, g.s0), ((b + 1) % n, g.s1)]
  bins.foldl (fun (acc : SMap Int × Bool × Bool) e =>
    let r := sum32 [mulT q31 g.ff (binOf acc.1 e.1) 31, mulT q31 e.2 d.v 31]
    (SMap.put 0 acc.1 e.1.toNat r.v, acc.2.1 || r.sat, acc.2.2 || r.guard)) (g.bins, d.sat, d.guard)

/-- The scratch table of RESAMPLE (R230). -/
def resampleTable (t : SMap Int) (log2n new : Nat) : SMap Int :=
  (List.range (2 ^ new)).foldr (fun (j : Nat) acc =>
    let v := interp t log2n ((j : Int) * 2 ^ (32 - new))
    if v = 0 then acc else (j, v) :: acc) []

/-! ## The silicon sine tables (R246, R250) -/

/-- π in units of 2^-96. -/
def piFix : Int := 248902613312231085230521944622

/-- The terms of the sine series from x^(2 k + 1) / (2 k + 1)! on, all in units of 2^-96. -/
def sinTerms : Nat → Int → Int → Int → Int
  | 0, _, _, _ => 0
  | f + 1, term, x2, k => term + sinTerms f (-(term * x2 / 2 ^ 96) / ((2 * k) * (2 * k + 1))) x2 (k + 1)

/-- sin of an angle in units of 2^-96, for angles up to a quarter turn. -/
def sinSmall (x : Int) : Int := sinTerms 24 x (x * x / 2 ^ 96) 1

/-- sin(2π i / n) in units of 2^-96. -/
def sinFix (i n : Nat) : Int :=
  let i := i % n
  let q := 4 * i / n
  let r := i - q * n / 4
  let a := 2 * piFix * (r : Int) / n
  let b := 2 * piFix * ((n / 4 - r : Nat) : Int) / n
  if q = 0 then sinSmall a else if q = 1 then sinSmall b else if q = 2 then -sinSmall a else -sinSmall b

/-- The nearest integer to an amount in units of 2^-96. -/
def nearest (x : Int) : Int := (x + 2 ^ 95) / 2 ^ 96

/-- SINTAB (R246). -/
def sintab (i : Nat) : Int := nearest (32767 * sinFix i 1024)

/-! ## Excitation (R245 to R247) -/

/-- One excitation cycle: d_k and the identification with its generators advanced. -/
def Ident.excite (x : Ident) : Int × Ident :=
  if (x.settle + x.blocks) * 4096 ≤ x.k then (0, x)
  else if x.exc = 0 then
    let q := x.k % 4096
    let theta := if q = 0 then 0 else x.theta
    let omega := if q = 0 then x.w20 else x.omega
    let d := (sum32 [shiftTerm (x.amp * sintab (theta / 2 ^ 22)) 16]).v
    let delta := ((x.w24 : Int) - x.w20) / 4096
    (d, { x with k := x.k + 1, theta := (theta + omega) % 2 ^ 32, omega := toU 32 (omega + delta) })
  else
    let g := if x.k = 0 then x.w20 % 2 ^ 16 else x.g
    let d := if bit g 15 then x.amp else -x.amp
    let hold := x.w24 % 256
    let b := (b2n (bit g 15) + b2n (bit g 14) + b2n (bit g 12) + b2n (bit g 3)) % 2
    let g1 := if hold ≠ 0 ∧ (x.k + 1) % hold = 0 then (g * 2) % 2 ^ 16 + (if (g * 2) % 2 = 0 then b else 0) else g
    (d, { x with k := x.k + 1, g := g1 })

/-- One sample of the cycle with number `k0` before its advance: the identification with the sample stored in its
block (R248, R249). Whether the soft job of block b has completed by the start of block b + 2 is judged when the job of that
block's first cycle commits, not at that cycle's apply point: the spec does not name the instant (log 88, DESIGN CHOICE). -/
def Ident.capture (x : Ident) (k0 n m : Nat) (cmd rsp : Int) (clamp stale held : Bool) : Ident :=
  let b := k0 / 4096
  if b < x.settle ∨ x.settle + x.blocks ≤ b then x
  else
    let num := b - x.settle
    let x :=
      if k0 % 4096 = 0 then
        (if x.full.any fun f => decide (f.num % 2 = num % 2) then { x with cap := none, dropped := x.dropped + 1 }
         else { x with cap := some { num := num, n := n, m := m, samples := [], clamps := 0, stales := 0, helds := 0 } })
      else x
    match x.cap with
    | none => x
    | some c =>
      let c := { c with samples := (cmd, rsp) :: c.samples, clamps := c.clamps + b2n clamp,
                        stales := min 255 (c.stales + b2n stale), helds := min 255 (c.helds + b2n held) }
      if k0 % 4096 = 4095 then { x with cap := none, full := x.full ++ [c] } else { x with cap := some c }

/-- The last sample stored in the block being captured, 0 for its first (R248). -/
def Ident.lastSample (x : Ident) (k0 : Nat) : Int × Int :=
  if k0 % 4096 = 0 then (0, 0)
  else
    match x.cap with
    | some c => c.samples.headD (0, 0)
    | none => (0, 0)

/-! ## The FFT (R250, R274) -/

/-- A complex value with integer parts. -/
abbrev Cx := Int × Int

/-- The elements of a list at even and at odd places. -/
def evenOdd {α : Type} : List α → List α × List α
  | [] => ([], [])
  | [a] => ([a], [])
  | a :: b :: r =>
    let p := evenOdd r
    (a :: p.1, b :: p.2)

/-- Bit-reversed order of a list of 2^f elements. -/
def bitRev {α : Type} : Nat → List α → List α
  | 0, l => l
  | f + 1, l =>
    let p := evenOdd l
    bitRev f p.1 ++ bitRev f p.2

/-- The twiddle e^(-2πi k / n) from the silicon table. -/
def twiddle (k n : Nat) : Cx :=
  (min 0x7FFFFFFF (nearest (2 ^ 31 * sinFix (k + n / 4) n)), min 0x7FFFFFFF (nearest (-(2 ^ 31) * sinFix k n)))

/-- The twiddle product narrowed to 32 bits; each part is one sum with destination Q1.31 (06 R265). -/
def cmul (w b : Cx) : Cx :=
  ((sum32 [w.1 * b.1, -(w.2 * b.2)]).v, (sum32 [w.1 * b.2, w.2 * b.1]).v)

/-- The butterflies of one block: halves `a` and `b` with their twiddles. -/
def butterflies (ws : List Cx) (a b : List Cx) : List Cx :=
  let t := List.zipWith cmul ws b
  List.zipWith (fun x y => (x.1 + y.1, x.2 + y.2)) a t ++ List.zipWith (fun x y => (x.1 - y.1, x.2 - y.2)) a t

/-- One stage over blocks of 2 × h. -/
def fftStage (h : Nat) (ws : List Cx) : Nat → List Cx → List Cx
  | 0, l => l
  | f + 1, l =>
    if l.isEmpty then [] else butterflies ws (l.take h) ((l.drop h).take h) ++ fftStage h ws f (l.drop (2 * h))

/-- A stage with its block scaling: the values and the block exponent (R250). -/
def fftScaled (n : Nat) (acc : List Cx × Nat) (s : Nat) : List Cx × Nat :=
  let big := acc.1.any fun c => decide (2 ^ 29 ≤ c.1.natAbs) || decide (2 ^ 29 ≤ c.2.natAbs)
  let l := if big then acc.1.map fun c => (roundConv c.1 1, roundConv c.2 1) else acc.1
  let h := 2 ^ s
  let ws := (List.range h).map fun k => twiddle (k * (n / (2 * h))) n
  (fftStage h ws (n / (2 * h)) l, acc.2 + b2n big)

/-- The transform of 2^bits samples: the spectrum and its block exponent. -/
def fft (bits : Nat) (x : List Int) : List Cx × Nat :=
  (List.range bits).foldl (fftScaled (2 ^ bits)) (bitRev bits (x.map fun v => (v, 0)), 0)

end Sys2Proof.Machine
end

