-- ==== Sys2Proof/Machine/Plan.lean ====
section
/-! DEFINITION. The profile generator (07 R288 to R302, R799): the segment equations, the braking leg, the planner of
point-to-point moves, the tracker and the ESTOP ramp. Positions, velocities, accelerations and jerks are integers in
units of 2^-48 counts. Lengths are rounded up exactly, on fractions; where R291 fixes its plan only up to the grids it
names, the integer method below is the model's reading (log 20). -/

namespace Sys2Proof.Machine

/-- A generator state (R289). -/
structure PVA where
  p : Int
  v : Int
  a : Int
  deriving DecidableEq, Repr

/-- Motion limits in internal units (Table 07.2). -/
structure Lim where
  vm : Int
  am : Int
  dm : Int
  jm : Int
  deriving DecidableEq, Repr

/-- One step (R290). -/
def PVA.step (s : PVA) (j : Int) : PVA :=
  let a := s.a + j
  let v := s.v + a
  ⟨s.p + v, v, a⟩

/-- A whole run by the segment equations (R290), with what its last cycle adds to V. -/
def PVA.run (s : PVA) (g : Seg) : PVA :=
  if g.k = 0 then s
  else
    let k : Int := g.k
    ⟨s.p + k * s.v + s.a * (k * (k + 1) / 2) + g.j * (k * (k + 1) * (k + 2) / 6) + g.dv,
      s.v + k * s.a + g.j * (k * (k + 1) / 2) + g.dv, s.a + k * g.j⟩

/-- Several runs in order. -/
def PVA.runAll (s : PVA) (l : List Seg) : PVA := l.foldl PVA.run s

/-- Quotient rounded up, 0 for a negative dividend or a divisor that is not positive. -/
def ceilDiv (a b : Int) : Nat := if b ≤ 0 ∨ a ≤ 0 then 0 else ((a + b - 1) / b).toNat

/-- A ramp of A from `a` to `b` in `k` cycles with the two-valued jerk of R291 step 3. -/
def ramp (a b : Int) (k : Nat) : List Seg :=
  if k = 0 then []
  else
    let d := b - a
    let q := d.natAbs / k
    let r := d.natAbs % k
    [⟨r, sgn d * (q + 1), 0⟩, ⟨k - r, sgn d * q, 0⟩]

/-- What a list of runs adds to V from acceleration `a`. -/
def gain (a : Int) (l : List Seg) : Int := ((⟨0, 0, a⟩ : PVA).runAll l).v

/-- Put an addition to V into the last cycle of a list of runs. -/
def withDv (l : List Seg) (dv : Int) : List Seg :=
  match (l.filter fun g => decide (g.k ≠ 0)).reverse with
  | [] => []
  | g :: r => ({ g with dv := dv } :: r).reverse

/-- Runs for the other direction. -/
def flip (sg : Int) (l : List Seg) : List Seg := l.map fun g => ⟨g.k, sg * g.j, sg * g.dv⟩

/-- The least whole number that is at least √(q/2), or above it with `strict`. -/
def rootUp (strict : Bool) (q : Int) : Int :=
  let r := isqrt (q / 2)
  if 2 * r * r = q ∧ !strict then r else r + 1

/-- A quotient rounded up, 0 for a negative one; with `strict` the least whole number above it. -/
def upDiv (strict : Bool) (a b : Int) : Nat := if strict then (if b ≤ 0 ∨ a < 0 then 0 else (a / b + 1).toNat) else ceilDiv a b

/-- Segments 5 to 7 with `k5`, `k6`, `k7` cycles that take off the velocity `v` from acceleration `a`: the peak deceleration
is lowered to the grid, and what its grid leaves of the velocity goes into the last cycle (R291 steps 3 and 4). None where
the peak cannot be lowered so far. -/
def brakeShape (v a ad jm : Int) (k5 k6 k7 : Nat) : Option (List Seg) :=
  let shape (x : Int) : List Seg := ramp a (-x) k5 ++ [⟨k6, 0, 0⟩] ++ ramp (-x) 0 k7
  let fits (x : Int) : Bool := decide (x ≤ ad) && decide (-gain a (shape x) ≤ v)
  let lo := max 0 (-a - k5 * jm)
  if !fits lo then none
  else
    let l := shape (if k5 = 0 then lo else bisect 64 fits lo)
    if k5 = 0 ∧ -gain a l ≠ v then none else some (withDv l (-(v + gain a l)))

/-- Segments 5 to 7 that take off the velocity `v` ≥ 0 from acceleration `a`, ending with A = 0 and exactly that
velocity lost (R291 steps 1 to 4, R296). A peak that segment 5 does not have to reach, and that the rounded lengths
require to be lowered, takes one cycle of it. None when A must first return to 0. -/
def brakeSegs (v a dm jm : Int) : Option (List Seg) :=
  let q2 := 2 * jm * v - jm * a + a * a
  if dm ≤ 0 ∨ jm ≤ 0 then some []
  else if q2 < 0 then none
  else
    let cut := decide (2 * dm * dm < q2)
    let ad := if cut then dm else isqrt (q2 / 2)
    let top := if cut then dm else rootUp false q2
    if a + top < 0 then none
    else
      let k5 := ceilDiv (a + top) jm
      let k7 := ceilDiv top jm
      let k6 := if cut then ceilDiv (q2 - 2 * dm * dm) (2 * jm * dm) else 0
      match brakeShape v a ad jm k5 k6 k7 with
      | some l => some l
      | none => if k5 = 0 then brakeShape v a ad jm 1 k6 k7 else none

/-- The braking leg from (V, A) to the velocity `vt` in the direction of V. -/
def brakeTo (vt v a dm jm : Int) : List Seg :=
  let sg := if v ≠ 0 then sgn v else sgn a
  match brakeSegs (sg * v - vt) (sg * a) dm jm with
  | some l => flip sg l
  | none =>
    let pre := ramp a 0 (ceilDiv a.natAbs jm)
    let v1 := v + gain a pre
    let sg1 := sgn v1
    if sg1 * v1 ≤ vt then pre
    else
      match brakeSegs (sg1 * v1 - vt) 0 dm jm with
      | some l => pre ++ flip sg1 l
      | none => pre

/-- The lengths of segments 1 to 3 that reach the velocity `vp` from (v0, a0), rounded up; `strict` when the velocity lies
just above `vp`, so that a length that depends on it is longer than at `vp`. -/
def accLens (strict : Bool) (v0 a0 vp am jm : Int) : Option (Nat × Nat × Nat) :=
  let q2 := 2 * jm * (vp - v0) + jm * a0 + a0 * a0
  if q2 < 0 ∨ am < a0 ∨ (0 < a0 ∧ q2 < 2 * a0 * a0) then none
  else if 2 * am * am < q2 then some (ceilDiv (am - a0) jm, upDiv strict (q2 - 2 * am * am) (2 * jm * am), ceilDiv am jm)
  else some (ceilDiv (rootUp strict q2 - a0) jm, 0, ceilDiv (rootUp strict q2) jm)

/-- The lengths of segments 5 and 6 from the velocity `vp` with A = 0; segment 7 is as long as segment 5. -/
def decLens (strict : Bool) (vp dm jm : Int) : Nat × Nat :=
  if dm * dm < jm * vp then (ceilDiv dm jm, upDiv strict (jm * vp - dm * dm) (jm * dm))
  else (ceilDiv (rootUp strict (2 * jm * vp)) jm, 0)

/-- A fraction with a positive denominator. -/
structure Frac where
  n : Int
  d : Int

/-- Sum, product, comparison and the fraction of whole numbers. -/
def Frac.add (x y : Frac) : Frac := ⟨x.n * y.d + y.n * x.d, x.d * y.d⟩
def Frac.mul (x y : Frac) : Frac := ⟨x.n * y.n, x.d * y.d⟩
def Frac.le (x y : Frac) : Bool := decide (x.n * y.d ≤ y.n * x.d)
def Frac.whole (x : Int) : Frac := ⟨x, 1⟩

/-- √(q/2), exact where it is rational, else below it by less than 2^-64. -/
def fracRoot (q : Int) : Frac :=
  let r := isqrt (2 * q)
  if r * r = 2 * q then ⟨r, 2⟩ else ⟨isqrt (2 * q * 2 ^ 128), 2 ^ 65⟩

/-- Displacement and velocity gained over a segment of real length `k`, by the segment equations (R290). -/
def segReal (v a : Frac) (j : Int) (k : Frac) : Frac × Frac :=
  let k1 := k.add (Frac.whole 1)
  let t2 := (k.mul k1).mul ⟨1, 2⟩
  let t3 := (t2.mul (k.add (Frac.whole 2))).mul ⟨1, 3⟩
  (((k.mul v).add (a.mul t2)).add ((Frac.whole j).mul t3), (k.mul a).add ((Frac.whole j).mul t2))

/-- The distance of the time-optimal plan with real lengths that reaches `vp` and brakes from it to rest, R291 step 1; none
when `vp` cannot be reached. -/
def realDist (L : Lim) (v0 a0 vp : Int) : Option Frac :=
  let q2 := 2 * L.jm * (vp - v0) + L.jm * a0 + a0 * a0
  if q2 < 0 ∨ L.am < a0 ∨ (0 < a0 ∧ q2 < 2 * a0 * a0) then none
  else
    let cut := decide (2 * L.am * L.am < q2)
    let ap := if cut then Frac.whole L.am else fracRoot q2
    let per (x : Frac) : Frac := ⟨x.n, x.d * L.jm⟩
    let k1 := per (ap.add (Frac.whole (-a0)))
    let k2 : Frac := if cut then ⟨q2 - 2 * L.am * L.am, 2 * L.jm * L.am⟩ else Frac.whole 0
    let d1 := segReal (Frac.whole v0) (Frac.whole a0) L.jm k1
    let v1 := (Frac.whole v0).add d1.2
    let d2 := segReal v1 ap 0 k2
    let d3 := segReal (v1.add d2.2) ap (-L.jm) (per ap)
    let cutD := decide (L.dm * L.dm < L.jm * vp)
    let ad := if cutD then Frac.whole L.dm else fracRoot (2 * L.jm * vp)
    let neg : Frac := ⟨-ad.n, ad.d⟩
    let k6 : Frac := if cutD then ⟨L.jm * vp - L.dm * L.dm, L.jm * L.dm⟩ else Frac.whole 0
    let d5 := segReal (Frac.whole vp) (Frac.whole 0) (-L.jm) (per ad)
    let v5 := (Frac.whole vp).add d5.2
    let d6 := segReal v5 neg 0 k6
    let d7 := segReal (v5.add d6.2) neg L.jm (per ad)
    some (((((d1.1.add d2.1).add d3.1).add d5.1).add d6.1).add d7.1)

/-- The plan with the rounded lengths `k1` to `k6` (segment 7 as long as segment 5), with the peaks and the cruise velocity
lowered to their grids so that it ends as close to `d` as they allow without passing it; none where they cannot be
(R291 steps 3 and 4, R799). -/
def lowered (L : Lim) (v0 a0 d : Int) (k1 k2 k3 k4 k5 k6 : Nat) : Option (List Seg) :=
  let accS (x : Int) : List Seg := ramp a0 x k1 ++ [⟨k2, 0, 0⟩] ++ ramp x 0 k3
  let decS (x : Int) : List Seg := ramp 0 (-x) k5 ++ [⟨k6, 0, 0⟩] ++ ramp (-x) 0 k5
  let apLow := max (a0 - k1 * L.jm) (-min L.dm (k3 * L.jm))
  let apMax := if k1 = 0 then a0 else min L.am (min (a0 + k1 * L.jm) (k3 * L.jm))
  let adMax := min L.dm (k5 * L.jm)
  let vOf (x : Int) : Int := v0 + gain a0 (accS x)
  let apMin := if k1 = 0 then a0 else if vOf apLow < 0 then max 0 apLow else apLow
  let apOf (vc : Int) : Int := if k1 = 0 then a0 else bisect 64 (fun c => decide (c ≤ apMax) && decide (vOf c ≤ vc)) apMin
  let adOf (vc : Int) : Int := bisect 64 (fun c => decide (c ≤ adMax) && decide (-gain 0 (decS c) ≤ vc)) 0
  let body (ap vc ad : Int) : List Seg :=
    let l := accS ap
    withDv l (vc - v0 - gain a0 l) ++ [⟨k4, 0, 0⟩] ++ decS ad
  let endOf (ap vc ad : Int) : Int := ((⟨0, v0, a0⟩ : PVA).runAll (body ap vc ad)).p
  let cycles : Int := k1 + k2 + k3 + k4 + 2 * k5 + k6
  let ends (ap vc ad : Int) : Option (List Seg) :=
    let e := endOf ap vc ad
    if e ≤ d ∧ d - e ≤ cycles then some (body ap vc ad) else none
  if apMax < apMin ∨ vOf apMin < 0 ∨ L.vm < vOf apMin then none
  else if k1 = 0 then ends a0 (vOf a0) (adOf (vOf a0))
  else
    let ok (vc : Int) : Bool := decide (vc ≤ min L.vm (vOf apMax)) && decide (endOf (apOf vc) vc (adOf vc) ≤ d)
    if !ok (vOf apMin) then none
    else
      let vr := bisect 64 ok (vOf apMin)
      let ap := apOf vr
      let ad := adOf vr
      let n : Int := 1 + k4 + 2 * k5 + k6
      let more := (d - endOf ap vr ad) / n
      if cycles < more then none else ends ap (min L.vm (vr + more)) ad

/-- The seven segments from (v0, a0), v0 ≥ 0, over the distance `d` > 0, or none where no plan exists (R291, R799). The peak
velocity without cruise is taken on the grid of V. Where segment 1 has no length, but the rounded lengths require a lower peak
or cruise velocity, segments 1 and 3 take a cycle for it (log 20). -/
def approach (L : Lim) (v0 a0 d : Int) : Option (List Seg) :=
  if L.jm ≤ 0 ∨ L.am ≤ 0 ∨ L.dm ≤ 0 ∨ L.vm ≤ 0 ∨ d ≤ 0 ∨ v0 < 0 ∨ L.vm < v0 then none
  else
    let up (x : Int) : Int := -((-x) / (2 * L.jm))
    let vlo := max 0 (if 0 < a0 then v0 + up (a0 * a0 - L.jm * a0) else v0 + up (-L.jm * a0 - a0 * a0))
    let distOf (vp : Int) : Frac := (realDist L v0 a0 vp).getD (Frac.whole (d + 1))
    let fitsD (vp : Int) : Bool := decide (vp ≤ L.vm) && (distOf vp).le (Frac.whole d)
    if !fitsD vlo then none
    else
      let cruise := fitsD L.vm
      let vp := if cruise then L.vm else bisect 64 fitsD vlo
      let left := (Frac.whole d).add ⟨-(distOf vp).n, (distOf vp).d⟩
      let strict := !cruise && decide (left.n ≠ 0)
      let k4 := if cruise then ceilDiv left.n (left.d * L.vm) else 0
      match accLens strict v0 a0 vp L.am L.jm with
      | none => none
      | some (k1, k2, k3) =>
        let kd := decLens strict vp L.dm L.jm
        match lowered L v0 a0 d k1 k2 k3 k4 kd.1 kd.2 with
        | some l => some l
        | none => if k1 = 0 then lowered L v0 a0 d 1 k2 (max 1 k3) k4 kd.1 kd.2 else none

/-- The lead-in that brings A and V back under limits they exceed (R298). -/
def leadIn (L : Lim) (s : PVA) : List Seg :=
  let aLim := if s.a * s.v < 0 then L.dm else L.am
  let past := decide (aLim < s.a.natAbs) && decide (0 < L.jm)
  let l1 := if past then ramp s.a (sgn s.a * aLim) (ceilDiv (s.a.natAbs - aLim) L.jm) else []
  let s1 := s.runAll l1
  if (s1.v.natAbs : Int) > L.vm then l1 ++ brakeTo L.vm s1.v s1.a L.dm L.jm else l1

/-- The plan from rest at `p` to `x` (R291); where none exists the move arrives in the first cycle (R799). -/
def planRest (L : Lim) (p x : Int) : Plan :=
  let sg := sgn (x - p)
  match approach L 0 0 (sg * (x - p)) with
  | some l => { runs := flip sg l, target := x, after := .arrive }
  | none => { runs := [], target := x, after := .arrive }

/-- The plan of a braking leg to rest (R296, RAMP of Table 07.5). -/
def planBrake (dm jm : Int) (s : PVA) : Plan :=
  let l := brakeTo 0 s.v s.a dm jm
  { runs := l, target := (s.runAll l).p, after := .arrive }

/-- The plan of a move and whether its target is behind (R291, R295 to R299, R799). -/
def planMove (L : Lim) (noReverse : Bool) (s : PVA) (x : Int) : Plan × Bool :=
  let pre := leadIn L s
  let n := pre.foldl (fun c g => c + g.k) 0
  let s1 := s.runAll pre
  let br := brakeTo 0 s1.v s1.a L.dm L.jm
  let ps := (s1.runAll br).p
  let behind := decide (s1.v ≠ 0 ∧ 0 < (ps - x) * sgn s1.v)
  let toRest (after : After) : Plan := { runs := pre ++ br, target := ps, after := after, lim := n }
  if behind then (toRest (if noReverse then .abort else .replan x), true)
  else
    let sg := if s1.v ≠ 0 then sgn s1.v else sgn (x - s1.p)
    if s1.p = x ∧ s1.v = 0 ∧ s1.a = 0 then ({ runs := pre, target := x, after := .arrive, lim := n }, false)
    else
      match approach L (sg * s1.v) (sg * s1.a) (sg * (x - s1.p)) with
      | some l => ({ runs := pre ++ flip sg l, target := x, after := .arrive, lim := n }, false)
      | none => (toRest (.replan x), false)

/-- How a plan stands after a cycle. -/
inductive PlanEnd where
  | going (pl : Plan)
  | arrived
  | aborted
  deriving DecidableEq, Repr

/-- One cycle of a plan (R290, R292, R296, R297): in its last cycle P := its rest point, V := 0, A := 0. -/
def Plan.advance (L : Lim) (pl : Plan) (s : PVA) : PVA × PlanEnd :=
  let rest : PVA × PlanEnd := (⟨pl.target, 0, 0⟩,
    match pl.after with
    | .arrive => .arrived
    | .abort => .aborted
    | .replan x => .going (planRest L pl.target x))
  match pl.runs.filter fun g => decide (g.k ≠ 0) with
  | [] => rest
  | g :: r =>
    let s1 := s.run { g with k := 1, dv := if g.k = 1 then g.dv else 0 }
    let runs := if g.k = 1 then r else { g with k := g.k - 1 } :: r
    if runs.isEmpty then rest else (s1, .going { pl with runs := runs, lim := pl.lim - 1 })

/-! ## The tracker (R300, R301) -/

/-- settle(V, A) of R300, by its closed form. -/
def settle (jm v a : Int) : Int :=
  if jm ≤ 0 then v
  else
    let m : Int := a.natAbs
    let k := m / jm
    v + sgn a * (k * m - jm * (k * (k + 1) / 2))

/-- The state after a tracker step with jerk `j` (R301). -/
def trackNext (L : Lim) (s : PVA) (j : Int) : PVA :=
  let a := s.a + j
  let lim := if s.v = 0 ∨ 0 < a * s.v then L.am else L.dm
  let a := clampI a (-lim) lim
  ⟨s.p + s.v + a, s.v + a, a⟩

/-- One step of the tracker toward `vd` (units of 2^-48). -/
def track (L : Lim) (s : PVA) (vd0 : Int) : PVA :=
  let vd := clampI vd0 (-L.vm) L.vm
  let sg := sgn (vd - settle L.jm s.v s.a)
  let n :=
    if sg = 0 then trackNext L s (-(sgn s.a) * min L.jm s.a.natAbs)
    else
      let ok (j : Int) : Bool :=
        let t := trackNext L s j
        decide (sg * (settle L.jm t.v t.a - vd) ≤ 0)
      let j :=
        if ok 0 then sg * bisect 64 (fun m => decide (m ≤ L.jm) && ok (sg * m)) 0
        else if ok (-sg * L.jm) then
          -- the smallest magnitude that avoids passing: one above the largest that passes
          -sg * (bisect 64 (fun m => decide (m ≤ L.jm) && !ok (-sg * m)) 0 + 1)
        else -sg * L.jm
      trackNext L s j
  if n.a = 0 ∧ ((n.v - vd).natAbs : Int) < 2 ^ 16 then ⟨s.p + vd, vd, 0⟩ else n

/-- One ESTOP step at the deceleration `d` (R327): the state and whether it is the cycle of rest. -/
def estopStep (d : Int) (s : PVA) : PVA × Bool :=
  if s.v = 0 then (⟨s.p, 0, 0⟩, true)
  else
    let a := -(sgn s.v) * d
    if (s.v + a) * sgn s.v ≤ 0 ∨ d ≤ 0 then (⟨s.p, 0, -s.v⟩, true) else (⟨s.p + s.v + a, s.v + a, a⟩, false)

end Sys2Proof.Machine
end

