-- ==== Sys2Proof/Machine/Motion.lean ====
section
/-! DEFINITION. Stage S1: the set-point sources of an axis job (07). A stage reads the motion state of the axis, the
inputs taken at the report-close point, and answers the new motion state, the set-points, and what the job reports. -/

namespace Sys2Proof.Machine

/-- What a job reports beside its commit. -/
inductive Ev where
  /-- a descriptor ends with a status, with the result of R286 -/
  | finish (id status : Nat)
  /-- a mark of the axis -/
  | mark (kind : Nat) (detail : List Byte)
  /-- this member's copy of a group path has ended, stopped or arrived -/
  | pathEnd (g : Nat) (stopped : Bool)
  deriving DecidableEq, Repr

/-- The inputs of S1 in one cycle. -/
structure S1In where
  j : JobIn
  /-- p of S0, Q48.16 -/
  p : Int
  closed : Bool
  /-- the segment is halved: two generator steps (R332) -/
  two : Bool
  trq : Bool
  tqSet : Int
  noReverse : Bool
  catchK : Coef
  catchV : Int
  cams : SMap Cam
  /-- the emitted count of a step axis whose channel can halt (R325) -/
  halt : Option Int

/-- What S1 answers. `vs`, `accs` are v* and a* in Q16.16, `ps` is p* in Q48.16. -/
structure S1Out where
  mo : Motion
  ps : Int
  vs : Int := 0
  accs : Int := 0
  tau : Int := 0
  satFf : Bool := false
  /-- a sum of the stage overflowed its guard bits (06 R267) -/
  guard : Bool := false
  limited : Bool := false
  reversed : Bool := false
  ev : List Ev := []

/-- The generator state of an axis. -/
def Motion.gen (m : Motion) : PVA := ⟨m.p, m.v, m.a⟩

/-- The motion limits in force. -/
def Motion.lim (m : Motion) : Lim := ⟨m.vmax, m.amax, m.dmax, m.jmax⟩

/-- The motion state with a generator state. -/
def Motion.setGen (m : Motion) (g : PVA) : Motion := { m with p := g.p, v := g.v, a := g.a }

/-- A Q48.16 position in units of 2^-48. -/
def up48 (x : Int) : Int := x * 2 ^ 32

/-- A position in units of 2^-48 as Q48.16 (R289). -/
def to16 (x : Int) : Int := roundConv x 32

/-- p* of the previous cycle. -/
def Motion.pStar (m : Motion) : Int := to16 m.p

/-- An event that ends a descriptor that may be absent. -/
def endId (id : Option Nat) (status : Nat) : List Ev :=
  match id with
  | some i => [.finish i status]
  | none => []

/-- What ends with a stop: its STOP descriptors, with a status, and a move that was held when it started, ABORTED. -/
def StopRun.ends (r : StopRun) (status : Nat) : List (Nat × Nat) :=
  (match r.held with | some (_, some i) => [(i, stAborted)] | _ => []) ++ r.ids.map fun i => (i, status)

/-- The same as events of a job. -/
def StopRun.evs (r : StopRun) (status : Nat) : List Ev := (r.ends status).map fun x => .finish x.1 x.2

/-! ## Leaving a source (R287, R326) -/

/-- An engagement as it is retained: its base takes up the offset that superimposed moves have left. -/
def Motion.asRetained (m : Motion) (e : Eng) : Eng :=
  { e with st := .hold, id := none, b := e.b + to16 (m.supOff + (match m.sup with | some x => x.p | none => 0)) }

/-- The axis leaves its source, with the status its unfinished descriptors take; `keep` retains a gear or cam. -/
def Motion.leave (m : Motion) (status : Nat) (keep : Bool) : Motion × List Ev :=
  let ofSup := match m.sup with | some x => endId x.id status | none => []
  let ofSwitch := match m.switch with | some (e, _) => endId e.id status | none => []
  let ofSrc := match m.src with
    | .move _ id _ _ => endId id status
    | .jog _ id => endId id status
    | .eng e => endId e.id status
    | _ => []
  let retained := match m.src with
    | .eng e => if keep then some (m.asRetained e) else m.retained
    | _ => m.retained
  ({ m with src := .none, retained := retained, switch := none, sup := none, supOff := 0, reversed := false },
    ofSrc ++ ofSup ++ ofSwitch)

/-! ## Cams and gears (R313, R319) -/

/-- y[r] of a cam with its periodic continuation (R319). -/
def Cam.pt (c : Cam) (r : Int) : Int :=
  let k : Int := c.y.length
  if r < 0 then c.y.getD (r + k).toNat 0 - c.rise
  else if r < k then c.y.getD r.toNat 0
  else c.y.getD (r - k).toNat 0 + c.rise

/-- c × RISE + y of R319, at the master distance `u` from the master origin. -/
def Cam.eval (c : Cam) (cubic : Bool) (u : Int) : Int :=
  let k : Int := c.y.length
  if c.s ≤ 0 ∨ k = 0 then 0
  else
    let n := u / c.s
    let x := u - n * c.s
    let r := x * k / c.s
    let f := (x * k % c.s) * 2 ^ 32 / c.s
    let y0 := c.pt r
    let y1 := c.pt (r + 1)
    let y :=
      if cubic then
        let ym := c.pt (r - 1)
        let y2 := c.pt (r + 2)
        y0 + roundConv (f * 2 ^ 64 * (y1 - ym) + f * f * 2 ^ 32 * (2 * ym - 5 * y0 + 4 * y1 - y2) +
          f * f * f * (3 * y0 - 3 * y1 + y2 - ym)) 97
      else y0 + roundConv ((y1 - y0) * f) 32
    n * c.rise + y

/-- The engagement's position d for a master position, with the advance v_src of the cycle, and the engagement with
its running values. `pPrev` is p* of the previous cycle (R313, R319). -/
def Eng.eval (e : Eng) (cams : SMap Cam) (pM pPrev : Int) : Eng × Int × Int :=
  if e.isCam then
    let y := match cams.lookup e.table with
      | some c => c.eval e.cubic (pM - e.oc)
      | none => 0
    let e := if e.based then e else { e with based := true, b := if e.cont then pPrev - y else e.b }
    let d := e.b + y
    let q := if e.pmPrev.isSome then d - e.dPrev else 0
    ({ e with pmPrev := some pM, dPrev := d }, d, q)
  else
    let e := if e.based then e else { e with based := true, b := pPrev - e.ofs, g := 0 }
    let dm := match e.pmPrev with | some x => pM - x | none => 0
    let num := dm * e.n + e.rem
    let m := if e.m = 0 then 1 else e.m
    let q := num / m
    let e := { e with rem := num - q * m, g := e.g + q, pmPrev := some pM }
    let d := e.b + e.g + e.ofs
    ({ e with dPrev := d }, d, q)

/-! ## The tracker in position mode (R305) -/

/-- clamp(x, -CATCH_V, +CATCH_V), where 0 leaves only VMAX to limit the catch-up. -/
def catchClamp (i : S1In) (x : Int) : Int := if i.catchV = 0 then x else clampI x (-i.catchV) i.catchV

/-- lag := sat_q16(d - P), with d in units of 2^-48. -/
def lagOf (d48 p48 : Int) : Int := (narrow 32 32 (d48 - p48)).v

/-- A velocity per cycle in Q16.16 as units of 2^-48 per original cycle (R332). -/
def vel48 (two : Bool) (v : Int) : Int := if two then v * 2 ^ 31 else v * 2 ^ 32

/-- Tracker steps of one job toward `vd` (R301, R332). -/
def trackJob (L : Lim) (two : Bool) (g : PVA) (vd : Int) : PVA :=
  let g1 := track L g vd
  if two then track L g1 vd else g1

/-- Position mode toward d with a source advance v_src in Q16.16, already scaled by G: the state, LIMITED, and whether the sum
CATCH_K × lag overflowed its guard bits (06 R267). -/
def trackPos (i : S1In) (L : Lim) (g : PVA) (d48 vsrc : Int) : PVA × Bool × Bool :=
  let lag := lagOf d48 g.p
  let r := sum32 [mulT q16 i.catchK lag 16]
  let vd := vel48 i.two vsrc + up48 (catchClamp i r.v)
  let n := trackJob L i.two g vd
  (n, decide (n.v ≠ vd) || decide (65536 < lag.natAbs), r.guard)

/-! ## One cycle of each source -/

/-- What one cycle of a source answers: the generator, the source after it, events, LIMITED, REVERSED, GUARD, and the V and A it
delivers where they are not the generator's (R310). -/
structure SrcOut where
  g : PVA
  src : Source
  ev : List Ev := []
  lim : Bool := false
  rev : Bool := false
  guard : Bool := false
  out : Option PVA := none

/-- A plan run for one job: one step, or two under R332. -/
def planJob (L : Lim) (two : Bool) (pl : Plan) (g : PVA) : PVA × PlanEnd :=
  match pl.advance L g with
  | (g1, .going p1) => if two then p1.advance L g1 else (g1, .going p1)
  | r => r

/-- A move (R291 to R299). -/
def runMove (i : S1In) (m : Motion) (x : Int) (id : Option Nat) (pl : Option Plan) (rev : Bool) : SrcOut :=
  let start : Plan × Bool := match pl with
    | some p => (p, rev)
    | none =>
      let r := planMove m.lim i.noReverse m.gen (up48 x)
      (r.1, r.2 || rev)
  let r := planJob m.lim i.two start.1 m.gen
  let lim := decide (0 < start.1.lim)
  match r.2 with
  | .going p => { g := r.1, src := .move x id (some p) start.2, lim := lim, rev := start.2 }
  | .arrived => { g := r.1, src := .none, ev := endId id stDone, lim := lim, rev := start.2 }
  | .aborted => { g := r.1, src := .none, ev := endId id stAborted, lim := lim, rev := start.2 }

/-- JOG (R299), with its velocity in units of 2^-48. -/
def runJog (i : S1In) (m : Motion) (vd : Int) (id : Option Nat) : SrcOut :=
  let g := trackJob m.lim i.two m.gen vd
  let reached := decide (g.v = clampI vd (-m.vmax) m.vmax ∧ g.a = 0)
  { g := g, src := .jog vd (if reached then none else id), ev := if reached then endId id stDone else [],
    lim := decide (g.v ≠ vd) }

/-- FOLLOW (R303 to R307). -/
def runFollow (i : S1In) (m : Motion) (f : Follow) : SrcOut :=
  if f.ai then
    let r := sum32 [mulT q16 f.g i.j.ai 15]
    let vd := up48 r.v
    let g := trackJob m.lim i.two m.gen vd
    { g := g, src := .follow f, lim := decide (g.v ≠ vd), guard := r.guard }
  else
    match i.j.srcM with
    | none =>
      let g := trackJob m.lim i.two m.gen 0
      { g := g, src := .follow { f with lost := true }, ev := if f.lost then [] else [.mark 0x71 []], lim := decide (g.v ≠ 0) }
    | some x =>
      let f := if f.lost then { f with lost := false, origin := none, xPrev := none } else f
      let vsrc := match f.xPrev with | some y => x - y | none => 0
      let o := match f.origin with | some o => o | none => (m.pStar, x)
      let f := { f with origin := some o, xPrev := some x }
      let gr := sum32 [mulT q16 f.g vsrc 16]
      let gv := gr.v
      if f.pos then
        let d48 := up48 o.1 + shiftTerm (f.g.m * (x - o.2)) (f.g.e + 1)
        let r := trackPos i m.lim m.gen d48 gv
        let far := decide (f.lagmax ≠ 0 ∧ f.lagmax * 2 ^ 48 < (d48 - m.p).natAbs)
        { g := r.1, src := .follow f, ev := if far then [.mark 0x70 []] else [], lim := r.2.1, guard := gr.guard || r.2.2 }
      else
        let vd := vel48 i.two gv
        let g := trackJob m.lim i.two m.gen vd
        { g := g, src := .follow f, lim := decide (g.v ≠ vd), guard := gr.guard }

/-- The generator put at a position, with V and A as backward differences (R316). -/
def diffTo (two : Bool) (g : PVA) (p : Int) : PVA :=
  let v := if two then (p - g.p) / 2 else p - g.p
  ⟨p, v, if two then (v - g.v) / 2 else v - g.v⟩

/-- The lock of R314, taken when the axis is within 1 count and within AMAX of the source's velocity. Like the velocities, A is
per original cycle when the segment is halved (R332). -/
def lockAt (two : Bool) (m : Motion) (d48 vs48 vsPrev : Int) : Option PVA :=
  if (d48 - m.p).natAbs ≤ 2 ^ 48 ∧ ((m.v - vs48).natAbs : Int) ≤ m.amax then
    some ⟨d48, vs48, if two then (vs48 - vsPrev) / 2 else vs48 - vsPrev⟩
  else none

/-- The phase-in fraction h of R323, in units of 2^-32. -/
def phaseH (w pM0 pM : Int) : Int × Int :=
  let sg := if w ≤ 0 then 2 ^ 32 else min (2 ^ 32) ((pM - pM0).natAbs * 2 ^ 32 / w)
  (sg, roundConv (3 * sg * sg * 2 ^ 32 - 2 * sg * sg * sg) 64)

/-- An engaged gear or cam (R313 to R317, R323). -/
def runEng (i : S1In) (m : Motion) (e : Eng) : SrcOut :=
  match i.j.srcM with
  | none =>
    -- the last velocity is held until the fault reaction takes the axis (R317); a superimposed move adds its own part
    let of := match m.sup with | some x => (x.p, x.v) | none => ((0 : Int), (0 : Int))
    let v := m.v - of.2
    { g := ⟨m.p - of.1 + (if i.two then 2 * v else v), v, 0⟩, src := .eng { e with lost := true }
      ev := if e.lost then [] else [.mark 0x72 []] }
  | some pM =>
    let fresh := e.pmPrev.isNone
    let r := { e with lost := false }.eval i.cams pM m.pStar
    let e := r.1
    let d := r.2.1
    let d48 := up48 d + m.supOff
    let vs48 := vel48 i.two r.2.2
    match e.st with
    | .locked => { g := diffTo i.two m.gen d48, src := .eng { e with vPrev := vs48 } }
    | .phasing w pM0 lag dpiPrev started =>
      let pM0 := if started then pM0 else pM
      let lag := if started then lag else to16 (d48 - m.p)
      let sh := phaseH w pM0 pM
      let dpi := d - roundConv (lag * (2 ^ 32 - sh.2)) 32
      let vsrc := if started then dpi - dpiPrev else 0
      let dpi48 := up48 dpi + m.supOff
      let lock := if started ∧ sh.1 = 2 ^ 32 then lockAt i.two m d48 (vel48 i.two vsrc) e.vPrev else none
      let vsNow := vel48 i.two vsrc
      (match lock with
      | some g => { g := g, src := .eng { e with st := .locked, id := none, vPrev := vsNow }, ev := endId e.id stDone }
      | none =>
        let t := trackPos i m.lim m.gen dpi48 (sat 32 vsrc).v
        { g := t.1, src := .eng { e with st := .phasing w pM0 lag dpi true, vPrev := vsNow }, lim := t.2.1, guard := t.2.2 })
    | _ =>
      let lock := if fresh then none else lockAt i.two m d48 vs48 e.vPrev
      (match lock with
      | some g => { g := g, src := .eng { e with st := .locked, id := none, vPrev := vs48 }, ev := endId e.id stDone }
      | none =>
        let t := trackPos i m.lim m.gen d48 (sat 32 r.2.2).v
        { g := t.1, src := .eng { e with st := .catching, vPrev := vs48 }, lim := t.2.1, guard := t.2.2 })

/-- The ESTOP steps of one job: two of them when the segment is halved, also where the first comes to rest (R327, R332). -/
def estopJob (d : Int) (two : Bool) (g : PVA) : PVA × Bool :=
  let a := estopStep d g
  if two then (let b := estopStep d a.1; (b.1, a.2 || b.2)) else a

/-- A member's copy of a group path (R309 to R311). At the end of the path the generator is at rest, while v* and a* are still
the backward differences of p* (R310). -/
def runPath (i : S1In) (m : Motion) (c : PathCopy) : SrcOut :=
  let L : Lim := ⟨c.vmax, c.amax, c.dmax, c.jmax⟩
  let g0 : PVA := ⟨c.p, c.v, c.a⟩
  let r : PVA × PlanEnd × Bool :=
    match c.stop with
    | some 2 =>
      let a := estopJob c.destop i.two g0
      (a.1, if a.2 then .arrived else .going (planBrake c.dmax c.jmax a.1), true)
    | some _ =>
      let pl := match c.plan with | some p => p | none => planBrake c.dmax c.jmax g0
      let a := planJob L i.two pl g0
      (a.1, a.2, true)
    | none =>
      let pl := match c.plan with | some p => p | none => (planMove L false g0 c.len).1
      let a := planJob L i.two pl g0
      (a.1, a.2, false)
  let ended := match r.2.1 with | .going _ => false | _ => true
  let l := if ended && !r.2.2 then c.len else r.1.p
  let ps := c.p0 + roundDiv (c.d * l) c.len
  let g := diffTo i.two m.gen (up48 ps)
  if ended then { g := { g with v := 0, a := 0 }, src := .none, ev := [.pathEnd c.g r.2.2], out := some g }
  else
    let plan := match r.2.1 with | .going p => some p | _ => none
    { g := g, src := .path { c with p := r.1.p, v := r.1.v, a := r.1.a, plan := plan, vPrev := g.v } }

/-- The source of an axis for one cycle. -/
def runSource (i : S1In) (m : Motion) : SrcOut :=
  match m.src with
  | .none => { g := ⟨m.p, 0, 0⟩, src := .none }
  | .move x id pl rev => runMove i m x id pl rev
  | .jog v id => runJog i m v id
  | .follow f => runFollow i m f
  | .eng e => runEng i m e
  | .path c => runPath i m c

/-! ## A pending switch (R321), superimposed moves (R315) and stops (R325 to R330) -/

/-- The master has reached the switch position (R321). -/
def reached (prev : Option Int) (pM x : Int) : Bool :=
  decide (pM = x) ||
    (match prev with
    | some p => decide (p < x ∧ x ≤ pM) || decide (x < p ∧ pM ≤ x)
    | none => false)

/-- The pending switch after the old source has run: the new cam takes over, or waits. -/
def runSwitch (i : S1In) (m : Motion) (o : SrcOut) : SrcOut × Option (Eng × Int) × Int :=
  match m.switch, i.j.swM with
  | some (e, x), some pM =>
    if reached e.pmPrev pM x then
      let oldD := match o.src with
        | .eng e0 => e0.dPrev + to16 m.supOff
        | _ => to16 o.g.p
      let r := ({ e with based := false } : Eng).eval i.cams pM oldD
      let e1 := { r.1 with st := .locked, id := none }
      let ofOld := match o.src with
        | .eng e0 => endId e0.id stSuperseded
        | .move _ id _ _ => endId id stSuperseded
        | .jog _ id => endId id stSuperseded
        | _ => []
      let ev := o.ev ++ ofOld ++ endId e.id stDone
      ({ o with g := diffTo i.two m.gen (up48 r.2.1), src := .eng e1, ev := ev }, none, 0)
    else (o, some ({ e with pmPrev := some pM }, x), m.supOff)
  | sw, _ => (o, sw, m.supOff)

/-- A superimposed move runs while its gear or cam is locked: its part is added to the source's output (R315). -/
def runSup (i : S1In) (m : Motion) (o : SrcOut) : SrcOut × Option Superimposed × Int :=
  match m.sup with
  | none => (o, none, m.supOff)
  | some x =>
    let g0 : PVA := ⟨x.p, x.v, x.a⟩
    let pl := match x.plan with | some p => p | none => (planMove m.lim false g0 (up48 x.x)).1
    let r := planJob m.lim i.two pl g0
    let g := diffTo i.two m.gen (o.g.p + r.1.p)
    let o := { o with lim := o.lim || decide (0 < pl.lim) }
    match r.2 with
    | .going p => ({ o with g := g }, some { x with p := r.1.p, v := r.1.v, a := r.1.a, plan := some p }, m.supOff)
    | _ => ({ o with g := g, ev := o.ev ++ endId x.id stDone }, none, m.supOff + up48 x.x)

/-- One cycle of a stop: the generator, the stop that is left, and whether the axis came to rest. -/
def runStop (i : S1In) (m : Motion) (r : StopRun) : PVA × StopRun × Bool :=
  if r.pol = 0 ∧ i.halt.isSome then
    (⟨(match i.halt with | some e => e * 2 ^ 48 | none => m.p), 0, 0⟩, r, true)
  else if r.pol = 1 then
    let pl := match r.plan with | some p => p | none => planBrake r.dmax r.jmax m.gen
    let a := planJob ⟨m.vmax, m.amax, r.dmax, r.jmax⟩ i.two pl m.gen
    match a.2 with
    | .going p => (a.1, { r with plan := some p }, false)
    | _ => (a.1, r, true)
  else
    let a := estopJob r.destop i.two m.gen
    (a.1, r, a.2)

/-! ## S1 -/

/-- What S1 delivers from a generator state (R289, R332). -/
def deliver (i : S1In) (m : Motion) (g : PVA) (o : SrcOut) : S1Out :=
  let d := o.out.getD g
  let v := if i.two then 2 * d.v else d.v
  let a := if i.two then 4 * d.a else d.a
  let rv := narrow 32 32 v
  let ra := narrow 32 32 a
  let mo := { m.setGen g with limited := o.lim, reversed := o.rev }
  { mo := mo, ps := to16 g.p, vs := rv.v, accs := ra.v, satFf := i.two && (rv.sat || ra.sat), guard := o.guard
    limited := o.lim, reversed := o.rev, ev := o.ev }

/-- S1 with open loops (R166, R797). A move whose target was behind stays REVERSED until it arrives (R296); a path ends here for
this member, having been stopped at the report-close point. -/
def s1Open (i : S1In) (m : Motion) : S1Out :=
  let ofStop := match m.stop with
    | some r => r.evs stDone
    | none => []
  let ofSup := match m.sup with | some x => endId x.id stAborted | none => []
  let supOff := match m.sup with | some x => m.supOff + x.p | none => m.supOff
  let src : Source := match m.src with
    | .move x id _ rev => .move x id none rev
    | .eng e => .eng (match e.st with | .locked => { e with st := .catching } | _ => e)
    | .path _ => .none
    | x => x
  let ofPath := match m.src with | .path c => [Ev.pathEnd c.g true] | _ => []
  let rev : Bool := match m.src with | .move _ _ _ r => r | _ => false
  let m := m.setGen ⟨up48 i.p, 0, 0⟩
  let switch := match m.switch with | some (e, x) => some ({ e with pmPrev := i.j.swM }, x) | none => none
  let mo := { m with src := src, switch := switch, sup := none, supOff := supOff, stop := none, limited := false, reversed := rev }
  { mo := mo, ps := i.p, reversed := rev, ev := ofStop ++ ofSup ++ ofPath }

/-- τ* of a TRQ axis, with the saturation and guard of its sum (R164, R165, R303, R331). -/
def tauStar (i : S1In) (m : Motion) : Res :=
  if m.zeroTq then ⟨0, false, false⟩
  else
    match m.src with
    | .follow f => sum32 [mulT q31 f.g i.j.ai 15]
    | _ => ⟨i.tqSet, false, false⟩

/-- A move that was held when the stop started arrives in this cycle, its first (R338). -/
def StopRun.arrives (r : StopRun) (i : S1In) (m : Motion) : Option PVA :=
  match r.held with
  | none => none
  | some (x, _) =>
    match planJob m.lim i.two (planMove m.lim i.noReverse m.gen (up48 x)).1 m.gen with
    | (g, .arrived) => some g
    | _ => none

/-- The generator of the first closed cycle starts at the p of that cycle (04 R167, R797). -/
def Motion.closing (m : Motion) (first : Bool) (p : Int) : Motion := if first then m.setGen ⟨up48 p, 0, 0⟩ else m

/-- Stage S1 of one job. -/
def s1 (i : S1In) (m : Motion) : S1Out :=
  if i.trq then
    let ofStop := match m.stop with
      | some r => r.evs stDone
      | none => []
    let mo := { m.setGen ⟨up48 i.p, 0, 0⟩ with stop := none }
    let r := tauStar i m
    { mo := mo, ps := i.p, tau := if i.closed then r.v else 0, guard := i.closed && r.guard, ev := ofStop }
  else if !i.closed then s1Open i m
  else
    match m.stop with
    | some r0 =>
      match r0.arrives i m with
      | some g =>
        let done := (match r0.held with | some (_, id) => endId id stDone | none => []) ++ { r0 with held := none }.evs stDone
        deliver i { m with stop := none } g { g := g, src := .none, ev := done }
      | none =>
      let r := { r0 with held := none }
      let ofHeld := (match r0.held with | some (_, id) => endId id stAborted | none => [])
      let a := runStop i m r
      let o : SrcOut := { g := a.1, src := .none, ev := ofHeld ++ if a.2.2 then r.evs stDone else [] }
      let w := runSwitch i m o
      -- a cam that a pending switch brings in ends a host stop (R321, R330)
      let taken := !r.fault && m.switch.isSome && w.2.1.isNone
      let ev := w.1.ev ++ (if taken && !a.2.2 then r.evs stSuperseded else [])
      if taken then deliver i { m with stop := none, src := w.1.src, switch := none, supOff := w.2.2 } w.1.g { w.1 with ev := ev }
      else deliver i { m with stop := if a.2.2 then none else some a.2.1, switch := w.2.1 } a.1 o
    | none =>
      let o := runSource i m
      let w := runSwitch i m o
      let x := runSup i { m with supOff := w.2.2 } w.1
      deliver i { m with src := x.1.src, switch := w.2.1, sup := x.2.1, supOff := x.2.2 } x.1.g x.1

end Sys2Proof.Machine
end

