-- ==== Sys2Proof/Machine/Law.lean ====
section
/-! DEFINITION. The axis job (04): S0, the terrace rule, S2 to S7, the learning term, the identification sample, and
the command and telemetry records. A job reads the axis as last committed and the inputs taken at the report-close
point, and answers the axis it commits. -/

namespace Sys2Proof.Machine

/-! ## Coefficients in force (R188 to R193) -/

/-- The value of a terraced entry or FIR tap after AXIS_CFG (Table 04.4). -/
def coefReset (key : Nat) : Coef :=
  if key < 256 then (if key % 32 ∈ [0x02, 0x07, 0x0C, 0x11, 0x16] then Coef.one else Coef.zero)
  else if (key - 256) % 16 = 0 then Coef.one else Coef.zero

/-- The entry at a key. -/
def Coefs.at (c : Coefs) (key : Nat) : Coef := SMap.get (coefReset key) c.tab key

/-- Write the entry at a key. -/
def Coefs.put (c : Coefs) (key : Nat) (v : Coef) : Coefs := { c with tab := SMap.put (coefReset key) c.tab key v }

/-- The key of entry `i` in the active or inactive bank of a terrace. -/
def Coefs.key (c : Coefs) (inactive : Bool) (terrace i : Nat) : Nat :=
  128 * b2n (bit c.bank terrace != inactive) + 32 * terrace + i

/-- The key of FIR tap `k` in the active or inactive bank. -/
def Coefs.firKey (c : Coefs) (inactive : Bool) (k : Nat) : Nat := 256 + 16 * b2n (bit c.bank 4 != inactive) + k

/-- The blended coefficient of cycle `i` of a blend of length `len` (R193). -/
def blendCoef (a b : Coef) (i len : Nat) : Coef :=
  if len ≤ i then b
  else
    let ex := max a.e b.e
    let ma := roundConv a.m (ex - a.e).toNat
    let mb := roundConv b.m (ex - b.e).toNat
    let w : Int := (i * 2 ^ 32 / len : Nat)
    ⟨ma + roundConv ((mb - ma) * w) 32, ex⟩

/-- A terraced entry as the cycle's job reads it. -/
def Axis.coef (ax : Axis) (i : Nat) : Coef :=
  match ax.ter.blend with
  | some (f, t, k, len) => blendCoef (ax.co.at (ax.co.key false f i)) (ax.co.at (ax.co.key false t i)) k len
  | none => ax.co.at (ax.co.key false ax.ter.active i)

/-! ## S0 (R159 to R163, R800) -/

/-- The inputs of the law that do not stand in the axis. -/
structure LawIn where
  n : Nat
  m : Nat
  j : JobIn
  closed : Bool
  two : Bool
  step : Bool
  extrap : Bool
  backcalc : Bool
  /-- the coupling group the axis is a member of: its form is velocity -/
  member : Option Bool
  cams : SMap Cam
  halt : Option Int

/-- S0: the feedback and flags of the cycle, and whether the cycle counts as STALE. -/
def s0 (i : LawIn) (ax : Axis) : Axis :=
  let b := ax.fb
  match i.j.rep with
  | .valid pos tact astat aux =>
    if i.step then
      { ax with fb := { b with pM := pos, v := (sat 32 (pos - b.p)).v, p := pos, seen := true, tact := tact, astat := astat, aux := aux } }
    else
      let sh : Int := 2 ^ (16 - ax.set.fbFrac)
      if b.seen then
        let d := toS 32 (toU 32 (pos - b.repLast))
        let pm := sat 64 (b.pM + d * sh)
        let vr := sat 32 (pm.v - b.p)
        let v := sum32 [addT q16 b.v 16, mulT q16 ax.co.kve (vr.v - b.v) 16]
        let fl := flagIf (flagIf (flagIf ax.lp.flags pm.sat fSatPos) (vr.sat || v.sat) fSatVel) v.guard fGuard
        { ax with fb := { b with pM := pm.v, p := pm.v, v := v.v, repLast := pos, tact := tact, astat := astat, aux := aux },
                  lp := { ax.lp with flags := fl } }
      else
        let pm := toS 32 (toU 32 pos) * sh
        { ax with fb := { b with pM := pm, p := pm, v := 0, repLast := pos, seen := true, tact := tact, astat := astat, aux := aux } }
  | .stale =>
    if i.extrap then
      let p := sat 64 (b.p + b.v)
      { ax with fb := { b with p := p.v }, lp := { ax.lp with flags := flagIf ax.lp.flags p.sat fSatPos } }
    else ax
  | .kept => ax

/-- The cycle had no valid report. -/
def LawIn.stale (i : LawIn) : Bool :=
  match i.j.rep with
  | .valid .. => false
  | _ => true

/-! ## The terrace rule (R190 to R196) -/

/-- T(k) of a terrace rule, 1 ≤ k < n. -/
def Terrace.thr (t : Terrace) (k : Nat) : Int := if k = 1 then t.t1 else if k = 2 then t.t2 else t.t3

/-- The terrace whose region holds x. -/
def Terrace.region (t : Terrace) (x : Int) : Nat :=
  ((List.range (t.n - 1)).filter fun k => decide (t.thr (k + 1) ≤ x)).length

/-- The change the rule calls for, if any. For the phase selector `phis` holds φ of this and of the last cycle. -/
def Terrace.change (t : Terrace) (x : Int) (phis : Option (Int × Int)) : Option Nat :=
  let j := t.region x
  let k := t.active
  if t.n ≤ 1 then (if t.n ≤ k then some 0 else none)
  else if t.n ≤ k then some j
  else
    let wrapped : Bool := match phis with
      | some (phi, prev) =>
        let d := phaseStep phi prev
        decide (0 < d ∧ phi < prev) || decide (d < 0 ∧ prev < phi)
      | none => false
    if wrapped ∧ j ≠ k ∧ ((j = 0 ∧ k = t.n - 1) ∨ (j = t.n - 1 ∧ k = 0)) then some j
    else if j > k ∧ t.thr (k + 1) + t.h ≤ x then some j
    else if j < k ∧ x < t.thr k - t.h then some j
    else none

/-- One cycle of the terrace rule: a running blend advances, or the rule is evaluated. -/
def terraceStep (ax : Axis) (phi : Option Int) : Axis :=
  let t := ax.ter
  match t.blend with
  | some (f, goal, k, len) =>
    let k := k + 1
    { ax with ter := { t with blend := if len ≤ k then none else some (f, goal, k, len) } }
  | none =>
    let x : Option Int :=
      if t.sel = 0 then some ax.fb.v.natAbs
      else if t.sel = 1 then some ax.lp.tauPrev.natAbs
      else phi
    match x with
    | none => ax
    | some x =>
      let phis := match phi, ax.ln.phiPrev with
        | some a, some b => if t.sel = 2 then some (a, b) else none
        | _, _ => none
      match t.change x phis with
      | some j => { ax with ter := { t with active := j, blend := if t.b ≤ 1 then none else some (t.active, j, 1, t.b) } }
      | none => ax

/-! ## S4 (R174 to R176) -/

/-- One biquad section `q`: its output, its new states, saturation and guard overflow. -/
def biquad (ax : Axis) (q : Nat) (x : Int) (fill : Bool) : Res × Biquad :=
  let b := if fill then ⟨x, x, x, x⟩ else SMap.get {} ax.lp.bq q
  let c (k : Nat) : Coef := ax.coef (0x07 + 5 * q + k)
  let r := sum32 [mulT q31 (c 0) x 31, mulT q31 (c 1) b.x1 31, mulT q31 (c 2) b.x2 31, -(mulT q31 (c 3) b.y1 31),
    -(mulT q31 (c 4) b.y2 31)]
  (r, ⟨x, b.x1, r.v, b.y1⟩)

/-- The FIR section: its output and its delay line, newest first. -/
def firSection (ax : Axis) (x : Int) (fill : Bool) : Res × List Int :=
  let d := if fill then List.replicate 15 x else ax.lp.fir
  let at_ (k : Nat) : Int := if k = 0 then x else d.getD (k - 1) 0
  let r := sum32 ((List.range 16).map fun k => mulT q31 (ax.co.at (ax.co.firKey false k)) (at_ k) 31)
  (r, (x :: d).take 15)

/-- S4: the sections enabled in AXIS_CFG byte 15 in their order, with the axis's new filter states. -/
def s4 (ax : Axis) (x : Int) : Int × Axis :=
  let r := (List.range 4).foldl (fun (acc : Int × Axis) q =>
    if bit ax.set.stages (q + 1) then
      let o := biquad ax q acc.1 (bit ax.lp.fill q)
      let lp := acc.2.lp
      let fl := flagIf (flagIf lp.flags o.1.sat fSatOut) o.1.guard fGuard
      (o.1.v, { acc.2 with lp := { lp with bq := SMap.put {} lp.bq q o.2, flags := fl } })
    else acc) (x, ax)
  if bit ax.set.stages 5 then
    let o := firSection ax r.1 (bit ax.lp.fill 4)
    let lp := r.2.lp
    let fl := flagIf (flagIf lp.flags o.1.sat fSatOut) o.1.guard fGuard
    (o.1.v, { r.2 with lp := { lp with fir := o.2, fill := 0, flags := fl } })
  else (r.1, { r.2 with lp := { r.2.lp with fill := 0 } })

/-! ## S2 and S3 (R168 to R172) -/

/-- Set flags of an axis. -/
def Axis.flag (ax : Axis) (c : Bool) (i : Nat) : Axis := { ax with lp := { ax.lp with flags := flagIf ax.lp.flags c i } }

/-- Set the flag named for a saturation, and GUARD when the sum overflowed. -/
def Axis.flagRes (ax : Axis) (r : Res) (i : Nat) : Axis := (ax.flag r.sat i).flag r.guard fGuard

/-- What S2 to S4 leave for S5: u4 (or τ_ff), vff, e, e_v, z, and whether v_c or u3 was clamped. -/
structure Mid where
  ax : Axis
  u : Int := 0
  vff : Int := 0
  e : Int := 0
  ev : Int := 0
  z : Int := 0
  clamped : Bool := false

/-- A clamp with its flag: the value, and the axis with the flag set when the narrowing saturated or the clamp acted. -/
def clampFlag (ax : Axis) (r : Res) (lo hi : Int) (i : Nat) : Int × Axis × Bool :=
  let v := clampI r.v lo hi
  let hit := r.sat || decide (v ≠ r.v)
  (v, (ax.flag hit i).flag r.guard fGuard, hit)

/-- S2 and S3 of a POS or VEL axis, up to u3 and the integrators. -/
def s23 (i : LawIn) (ax : Axis) (o : S1Out) : Mid :=
  let pos := decide (ax.set.kind = .pos)
  let e := sat 32 (o.ps - ax.fb.p)
  let ax := ax.flagRes e fSatPos
  let vff := sum32 [mulT q16 (ax.coef 2) o.vs 16]
  let ax := ax.flagRes vff fSatFf
  -- position loop
  let pre := if pos then sum32 [mulT q16 (ax.coef 0) e.v 16, addT q16 ax.lp.xp 16, addT q16 vff.v 16] else ⟨vff.v, false, false⟩
  let c := clampFlag ax pre (-ax.co.vlim) ax.co.vlim fSatVel
  let vc := c.1
  let ax := c.2.1
  let kip := ax.coef 1
  -- the sign tests compare narrowed values (06 R270)
  let sp := sgn (sum32 [mulT q16 kip e.v 16]).v
  let hold := decide (vc ≠ pre.v) && decide (sp = sgn (pre.v - vc)) && decide (sp ≠ 0)
  let ax :=
    if pos && bit ax.set.stages 0 && !i.stale && !hold then
      let r := sum32 [addT q16 ax.lp.xp 16, mulT q16 kip e.v 16]
      let x := clampFlag ax r (-ax.co.xpLim) ax.co.xpLim fSatInt
      { x.2.1 with lp := { x.2.1.lp with xp := x.1 } }
    else if bit ax.set.stages 0 then ax
    else { ax with lp := { ax.lp with xp := 0 } }
  -- velocity loop
  let ev := sat 32 (vc - ax.fb.v)
  let ax := ax.flagRes ev fSatVel
  let tff := sum32 [mulT q31 (ax.coef 3) o.accs 16]
  let ax := ax.flagRes tff fSatFf
  let up := sum32 [mulT q31 (ax.coef 4) ev.v 16, addT q31 ax.lp.xv 31, addT q31 tff.v 31]
  let u := clampFlag ax up ax.co.tlimNeg ax.co.tlimPos fSatOut
  let u3 := u.1
  let ax := u.2.1
  let kiv := ax.coef 5
  let back := decide (ax.set.aw = 2) || (decide (ax.set.aw = 0) && i.backcalc)
  let sk := sgn (sum32 [mulT q31 kiv ev.v 16]).v
  let holdV := !back && decide (u3 ≠ up.v) && decide (sk = sgn (up.v - u3)) && decide (sk ≠ 0)
  let ax :=
    if i.stale || holdV then ax
    else
      let r := sum32 ([addT q31 ax.lp.xv 31, mulT q31 kiv ev.v 16] ++
        (if back then [mulT q31 (ax.coef 6) (u3 - up.v) 31] else []))
      let x := clampFlag ax r (-ax.co.xvLim) ax.co.xvLim fSatInt
      { x.2.1 with lp := { x.2.1.lp with xv := x.1 } }
  { ax := ax, u := u3, vff := vff.v, e := e.v, ev := ev.v, z := u3, clamped := c.2.2 || u.2.2 }

/-- The stages before S5, by kind (Table 04.1). -/
def s24 (i : LawIn) (ax : Axis) (o : S1Out) : Mid :=
  match ax.set.kind with
  | .trq =>
    let r := s4 ax o.tau
    { ax := r.2, u := r.1, z := o.tau }
  | .drv =>
    let e := sat 32 (o.ps - ax.fb.p)
    let ax := ax.flagRes e fSatPos
    let vff := sum32 [mulT q16 (ax.coef 2) o.vs 16]
    let ax := ax.flagRes vff fSatFf
    let tff := sum32 [mulT q31 (ax.coef 3) o.accs 16]
    let ax := ax.flagRes tff fSatFf
    { ax := ax, u := tff.v, vff := vff.v, e := e.v, z := if i.member = some true then vff.v else tff.v }
  | _ =>
    let m := s23 i ax o
    let r := s4 m.ax m.u
    { m with ax := r.2, u := r.1 }

/-! ## S5 (R178, R222 to R226) -/

/-- S5: the learning term added and the table updated; answers u5 and whether the update was made. -/
def s5 (i : LawIn) (m : Mid) (o : S1Out) (phi : Option Int) : Int × Axis × Bool :=
  let ax := m.ax
  let g := ax.ln
  match phi with
  | none => (m.u, ax, false)
  | some ph =>
    let dphi : Int := match g.phiPrev with | some p => phaseStep ph p | none => 0
    let dir : Int := if 0 ≤ dphi then 1 else -1
    let on := bit ax.set.stages 6
    let l := if on ∧ g.mode ≠ 0 then learnTerm g ph dir else 0
    let c := clampFlag ax ⟨l, false, false⟩ (-g.llim) g.llim fSatLearn
    let s := sat 32 (m.u + c.1)
    let ax := if on then c.2.1.flag s.sat fSatLearn else ax
    let u5 := if on then s.v else m.u
    let may := decide (g.mode = 1) && on && !i.stale && g.phiPrev.isSome && decide (g.lmin ≤ dphi.natAbs) && !m.clamped &&
      !g.satBefore && g.resample.isNone
    if may then
      let x : Int × Nat :=
        if g.src = 0 then (m.e, 16)
        else if g.src = 1 then (m.ev, 16)
        else ((sat 32 (o.tau - ax.fb.tact * 65536)).v, 31)
      let r := learnUpdate g ph x.1 x.2
      let ax := (ax.flag r.2.1 fSatLearn).flag r.2.2 fGuard
      (u5, { ax with ln := { ax.ln with bins := r.1 } }, true)
    else (u5, ax, false)

/-! ## The axis job up to S5 (R179) -/

/-- The phase of the axis's phase master in this cycle, none without a valid master. -/
def Axis.phi (ax : Axis) (j : JobIn) : Option Int :=
  match ax.ln.master, j.phaseM with
  | some _, some p => some (phaseOf p ax.ln.origin ax.ln.period)
  | _, _ => none

/-- The axis job of a network axis up to S5: the axis, what the rest of the job needs, and what it reports. -/
def axisJob (i : LawIn) (ax : Axis) : Axis × Left × List Ev :=
  let ax := s0 i ax
  let phi := ax.phi i.j
  let lostNow := ax.ln.master.isSome && phi.isNone
  let evM : List Ev := if lostNow && ax.ln.masterOk then [.mark 0x74 []] else []
  let ax := terraceStep ax phi
  let o := s1 { j := i.j, p := ax.fb.p, closed := i.closed, two := i.two, trq := decide (ax.set.kind = .trq),
                tqSet := ax.co.tqSet, noReverse := ax.set.noReverse, catchK := ax.set.catchK, catchV := ax.set.catchV,
                cams := i.cams, halt := i.halt } (ax.mo.closing (i.closed && ax.wasOpen) ax.fb.p)
  let ax := (({ ax with mo := o.mo } : Axis).flag o.satFf fSatFf).flag o.guard fGuard
  let keepPhi (ax : Axis) : Axis :=
    { ax with ln := { ax.ln with phiPrev := (match phi with | some p => some p | none => ax.ln.phiPrev), masterOk := !lostNow } }
  if i.closed then
    let m := s24 i ax o
    let r := s5 i m o phi
    let isDrv := decide (ax.set.kind = .drv)
    let l : Left := { n := i.n, m := i.m, u5 := r.1, vff := m.vff, tff := if isDrv then r.1 else 0, z := m.z,
                      opened := false, aborted := false, pStar := o.ps, e := m.e, stale := i.stale, learnOn := r.2.2, input := i.j }
    (keepPhi { r.2.1 with wasOpen := false }, l, o.ev ++ evM)
  else
    let lp := { ax.lp with xp := 0, xv := 0, tauPrev := 0, bq := [], fir := [], fill := 0 }
    let l : Left := { n := i.n, m := i.m, u5 := 0, vff := 0, tff := 0, z := 0, opened := true, aborted := false,
                      pStar := o.ps, e := 0, stale := i.stale, learnOn := false, input := i.j }
    (keepPhi { ax with lp := lp, wasOpen := true }, l, o.ev ++ evM)

/-! ## Records (R203 to R208, 14 Table 14.9) -/

/-- What the records need beside the axis: cycle, HELD, MUTE and whether the record is ESTOP_LOCAL. -/
structure RecIn where
  n : Nat
  m : Nat
  axis : Nat
  held : Bool
  mute : Bool
  estop : Bool
  enable : Bool
  coupled : Bool

/-- Byte 0 of a command record (Table 04.6). -/
def cmdByte0 (kind : Nat) (mute enable brake : Bool) : Byte :=
  BitVec.ofNat 8 (kind * 32 + b2n mute * 16 + b2n enable * 8 + b2n brake * 4)

/-- A hold record with the bits of the record it replaces (R205, R207). -/
def holdRecord (mute enable closed : Bool) : List Byte := cmdByte0 0 mute enable closed :: zeros 7

/-- An ESTOP_LOCAL record (R206, R637, R639). -/
def estopRecord (mute closed : Bool) : List Byte := cmdByte0 3 mute true closed :: zeros 7

/-- The telemetry record of a network axis (Table 14.9). -/
def telRecord (r : RecIn) (ax : Axis) (l : Left) (tq : Int) : List Byte :=
  leBytes 2 r.axis ++
    [BitVec.ofNat 8 (b2n r.held * 128 + b2n l.stale * 64 + b2n ax.mo.reversed * 32 + b2n ax.mo.limited * 16 +
      ax.ter.active % 4 * 4 + b2n l.learnOn * 2 + b2n r.coupled), ax.lp.flags] ++
    leBytes 3 (tagOf r.n) ++ [BitVec.ofNat 8 r.m] ++ leInt 8 ax.fb.p ++ leInt 4 ax.fb.v ++
    leInt 4 (if ax.set.kind = .trq then 0 else l.e) ++ leInt 2 tq ++ leInt 2 ax.fb.tact ++ leBytes 2 ax.fb.astat ++
    leBytes 2 ax.fb.aux

/-! ## S6 and S7 (R180 to R184, R245, R248) -/

/-- The two clamps of S7 with their flag. -/
def s7Clamp (ax : Axis) (u6 : Int) : Int × Axis × Bool :=
  let a := clampFlag ax ⟨u6, false, false⟩ ax.co.tlimNeg ax.co.tlimPos fSatOut
  if ax.co.dtlim = 0 then a
  else
    let b := clampFlag a.2.1 ⟨a.1, false, false⟩ (ax.lp.tauPrev - ax.co.dtlim) (ax.lp.tauPrev + ax.co.dtlim) fSatOut
    (b.1, b.2.1, a.2.2 || b.2.2)

/-- p_wire of R183. -/
def pWire (ps : Int) (fbFrac : Nat) : List Byte := leInt 4 (roundConv ps (16 - fbFrac))

/-- vff_wire of R183. -/
def vffWire (vff : Int) (fbFrac vffFrac : Nat) : Res :=
  let k : Int := 16 - fbFrac - vffFrac
  sat 16 (shiftTerm vff (-k))

/-- S6, the identification's excitation, S7, the records and the history of Table 05.1. `c` is the coupling term. -/
def finishJob (r : RecIn) (velocity : Bool) (c : Option Int) (l : Left) (ax : Axis) :
    Axis × List Byte × List Byte × List Ev :=
  let enable := r.enable
  let wrap (ax : Axis) (cmd : List Byte) (tq : Int) (ev : List Ev) : Axis × List Byte × List Byte × List Ev :=
    (ax, if r.estop then estopRecord r.mute (!l.opened) else cmd, telRecord r ax l tq, ev)
  if l.opened then
    let cmd :=
      if ax.set.kind = .drv then
        cmdByte0 2 r.mute enable false :: [0] ++ pWire ax.fb.p ax.set.fbFrac ++ zeros 2
      else cmdByte0 1 r.mute enable false :: zeros 3 ++ leBytes 4 ax.co.auxOut
    wrap { ax with ln := { ax.ln with satBefore := false } } cmd 0 []
  else
    let isDrv := decide (ax.set.kind = .drv)
    let u := if isDrv then l.tff else l.u5
    let s6 := if velocity then (⟨u, false, false⟩ : Res) else sat 32 (u + (match c with | some x => x | none => 0))
    let vff := if velocity then sat 32 (l.vff + (match c with | some x => x | none => 0)) else ⟨l.vff, false, false⟩
    let ax := ax.flag (s6.sat || vff.sat) fSatCoup
    let k0 := match ax.ident with | some x => x.k | none => 0
    let ex := match ax.ident with
      | some x => let e := x.excite; (e.1, some e.2)
      | none => (0, none)
    let u6 := (sat 32 (s6.v + ex.1)).v
    let a := s7Clamp ax u6
    let ax := a.2.1
    let u7 := a.1
    let rsp (x : Ident) : Int := if x.rsp = 0 then ax.fb.v else if x.rsp = 1 then l.e else ax.fb.tact * 65536
    let ident := ex.2.map fun x => x.capture k0 r.n r.m u7 (rsp x) a.2.2 l.stale r.held
    let tq := (narrow 16 16 u7).v
    let vw := vffWire vff.v ax.set.fbFrac ax.set.vffFrac
    let ax := if isDrv then ax.flag vw.sat fSatOut else ax
    let cmd :=
      if isDrv then
        cmdByte0 2 r.mute enable true :: leInt 1 (narrow 8 24 u7).v ++ pWire l.pStar ax.set.fbFrac ++ leInt 2 vw.v
      else cmdByte0 1 r.mute enable true :: [0] ++ leInt 2 tq ++ leBytes 4 ax.co.auxOut
    let ax := { ax with lp := { ax.lp with tauPrev := u7 }, ident := ident,
                        ln := { ax.ln with satBefore := a.2.2 || s6.sat || vff.sat } }
    wrap ax cmd tq []

/-! ## Step axes (12 R502, R505) -/

/-- The job of a step axis: the axis, the target of its command record, p*, v*, and what it reports. -/
def stepJob (i : LawIn) (ax : Axis) : Axis × Int × S1Out :=
  let ax := s0 { i with step := true } ax
  let o := s1 { j := i.j, p := ax.fb.p, closed := i.closed, two := i.two, trq := false, tqSet := 0,
                noReverse := ax.set.noReverse, catchK := ax.set.catchK, catchV := ax.set.catchV, cams := i.cams,
                halt := i.halt } (ax.mo.closing (i.closed && ax.wasOpen) ax.fb.p)
  ({ ax with mo := o.mo, wasOpen := !i.closed }, roundConv o.ps 16, o)

/-- The telemetry record of a step axis (R505, Table 12.1). -/
def stepTel (r : RecIn) (ax : Axis) (o : S1Out) (status : Nat) (steps : Int) : List Byte :=
  leBytes 2 r.axis ++
    [BitVec.ofNat 8 (b2n r.held * 128 + b2n ax.mo.reversed * 32 + b2n ax.mo.limited * 16), 0] ++ leBytes 3 (tagOf r.n) ++
    [BitVec.ofNat 8 r.m] ++ leInt 8 ax.fb.p ++ leInt 4 ax.fb.v ++ leInt 4 (sat 32 (o.ps - ax.fb.p)).v ++ zeros 4 ++
    leBytes 2 status ++ leInt 2 (clampI steps (-32767) 32767)

/-! ## The group job (05 R237) -/

/-- The coupling term of member i: its value, and whether it saturated or was clamped, and guard overflow. -/
def couplingTerm (g : CGroup) (zs : List Int) (i : Nat) : Res :=
  let fo := if g.velocity then q16 else q31
  let fx := if g.velocity then 16 else 31
  let r := sum32 ((List.range zs.length).map fun j =>
    mulT fo (SMap.get Coef.zero g.k (256 * g.active + 16 * i + j)) (zs.getD j 0) fx)
  let v := clampI r.v (-g.clim) g.clim
  ⟨v, r.sat || decide (v ≠ r.v), r.guard⟩

end Sys2Proof.Machine
end

