-- ==== Sys2Proof/Machine/Load.lean ====
section
/-! DEFINITION. The pool's numbering, the elements in service, calibrated lengths (04 R209, 05), loads and the
admission test (02 R81 to R87). -/

namespace Sys2Proof.Machine

/-! ## Numbering and homing (01 R12 to R14) -/

/-- The bench of a hammer. -/
def benchOf (h : Nat) : Nat := h / 8
/-- The valley of a bench. -/
def valleyOf (b : Nat) : Nat := b / 4
/-- The valley that homes a segment. -/
def valleyOfSeg (k : Nat) : Nat := k / 2

/-- The bench on which an axis 0 to 527 is homed until a fence moves it (R13, R14). -/
def homeBench (a : Nat) : Nat := if a < 512 then a / 32 else 4 * ((a - 512) / 4) + (a - 512) % 4

/-- The present home bench of an axis (R140). -/
def State.home (s : State) (a : Nat) : Nat := SMap.get (homeBench a) s.pool.home a

/-- The axis's ASB is in transit (R29). -/
def State.inTransit (s : State) (a : Nat) : Bool := decide (SMap.get 0 s.pool.moving a ≠ 0)

/-- Bench b is out of service: fenced itself or with its valley. -/
def State.benchOut (s : State) (b : Nat) : Bool := s.fenced (srcBench b) || s.fenced (srcValley (valleyOf b))

/-- Hammer h is out of service: fenced itself, with its bench or with its valley. -/
def State.hammerOut (s : State) (h : Nat) : Bool := s.fenced (srcHammer h) || s.benchOut (benchOf h)

/-- Hammer h is active (R111). -/
def State.activeHammer (s : State) (h : Nat) : Bool := !s.hammerOut h && !(s.hammer h).slow

/-- H_v of R84. -/
def State.hv (s : State) (v : Nat) : Nat := ((List.range 32).filter fun i => s.activeHammer (32 * v + i)).length

/-- The axes that hold an ASB: every network axis, and the step axes whose channel is in use. -/
def State.asbAxes (s : State) : List Nat :=
  List.range 512 ++ ((List.range 16).filter fun c => bits (s.force (pulOff c 0)) 31 30 ≠ 0).map fun c => 512 + c

/-- The axes homed on a bench, ascending. -/
def State.heldBy (s : State) (b : Nat) : List Nat := s.asbAxes.filter fun a => s.home a = b

/-! ## Groups -/

/-- The interpolation group that an axis belongs to. -/
def State.igroupOf (s : State) (a : Nat) : Option (Nat × IGroup) := s.igroups.find? fun e => e.2.members.contains a

/-- The coupling group that an axis belongs to. -/
def State.cgroupOf (s : State) (a : Nat) : Option (Nat × CGroup) := s.cgroups.find? fun e => e.2.members.contains a

/-- The coupling groups of a segment. -/
def State.segGroups (s : State) (k : Nat) : List (Nat × CGroup) := s.cgroups.filter fun e => decide (e.2.seg = k)

/-! ## Calibrated lengths (R82, R106, R209) -/

/-- The source components that an engagement counts. -/
def engLen (e : Eng) : Nat := if e.isCam then lawLen 2 else lawLen 3

/-- The largest source component of an axis (R209): a TRQ axis counts SRC_FOLLOW while FOLLOW is engaged, and no other. -/
def sourceLen (ax : Axis) (step grouped : Bool) : Nat :=
  if ax.set.kind = .trq ∧ ¬ step then
    match ax.mo.src with
    | .follow _ => lawLen 5
    | _ => 0
  else
    let src : Nat := match ax.mo.src with
      | .eng e => engLen e
      | .follow _ => lawLen 5
      | .path _ => lawLen 4
      | _ => 0
    let ret : Nat := match ax.mo.retained with | some e => engLen e | none => 0
    let sw : Nat := match ax.mo.switch with | some (e, _) => engLen e | none => 0
    max (max (lawLen 1) src) (max (max ret sw) (if grouped then lawLen 4 else 0))

/-- The stages that count, of an axis of a kind with AXIS_CFG byte 15 (Table 04.1, Table 04.7). -/
def stageLen (kind : AxisKind) (st : Nat) : Nat :=
  (if kind = .trq then 0 else lawLen 6) + (if kind = .pos ∨ kind = .vel then lawLen 7 else 0) +
    lawLen 8 * (b2n (bit st 1) + b2n (bit st 2) + b2n (bit st 3) + b2n (bit st 4)) + lawLen 9 * b2n (bit st 5) +
    lawLen 10 * b2n (bit st 6)

/-- λ of an axis (R82, R209). -/
def State.lambda (s : State) (a : Nat) : Nat :=
  let ax := s.axis a
  let grouped := (s.igroupOf a).isSome
  if 512 ≤ a then lawLen 0 + sourceLen ax true grouped + lawLen 13
  else lawLen 0 + sourceLen ax false grouped + stageLen ax.set.kind ax.set.stages + (if 2 ≤ ax.ter.n then lawLen 12 else 0) +
    (if (s.cgroupOf a).isSome then lawLen 11 else 0)

/-- γ of a coupling group of a form and size (05). -/
def gammaLen (velocity : Bool) (n : Nat) : Nat := lawGLen 0 + n * (if velocity then lawGLen 2 else lawGLen 1)

/-- γ of a coupling group. -/
def CGroup.len (g : CGroup) : Nat := gammaLen g.velocity g.members.length

/-- The calibrated length of a job. -/
def State.jobLen (s : State) : JobKey → Nat
  | .axis a => s.lambda a
  | .group g => match s.cgroups.lookup g with | some c => c.len | none => 0

/-! ## Loads (R83, R84) -/

/-- Λ of a segment, in core clocks per segment cycle. -/
def State.segLoad (s : State) (k : Nat) : Nat :=
  ((s.segAxes k).map s.lambda).sum + ((s.segGroups k).map fun e => e.2.len).sum

/-- W of a segment in granules, with DEGRADE's pending halving counted when `half` (R84, R88, R592). -/
def State.window (s : State) (k : Nat) (half : Bool) : Int :=
  (s.segPP k : Int) - s.segRC k + (if half then s.segL0 k else 0) - (if bit (s.force 0x0F0000) 0 then 8 else 0)

/-- How a segment counts in a load. -/
inductive Counts where
  | out
  | full
  | half
  deriving DecidableEq, Repr

/-- How a segment counts now: stopped by DEGRADE, due to be stopped or halved, or in full. -/
def State.counts (s : State) (k : Nat) : Counts :=
  let g := s.seg k
  if g.degStop ∨ g.due = some false then .out else if g.due = some true then .half else .full

/-- ρ of a segment as a fraction: Λ over 50 W. -/
def State.segRho (s : State) (k : Nat) (c : Counts) : Nat × Nat :=
  match c with
  | .out => (0, 1)
  | .full => (s.segLoad k, 50 * (s.window k false).toNat)
  | .half => (s.segLoad k, 50 * (s.window k true).toNat)

/-- The sum of two fractions; an empty load is 0 whatever its window. -/
def addFrac (a b : Nat × Nat) : Nat × Nat :=
  if a.1 = 0 then b else if b.1 = 0 then a else (a.1 * b.2 + b.1 * a.2, a.2 * b.2)

/-- A load is at most 0.6 × h; a load without a window exceeds every bound. -/
def fracOk (a : Nat × Nat) (h : Nat) : Bool := decide (a.1 = 0) || (decide (a.2 ≠ 0) && decide (10 * a.1 ≤ 6 * h * a.2))

/-- ρ of a valley under a choice of how its segments count. -/
def State.rho (s : State) (v : Nat) (c : Nat → Counts) : Nat × Nat :=
  addFrac (s.segRho (2 * v) (c (2 * v))) (s.segRho (2 * v + 1) (c (2 * v + 1)))

/-- The check of R87 for a valley. -/
def State.rhoOk (s : State) (v : Nat) : Bool := fracOk (s.rho v s.counts) (s.hv v)

/-- Conditions 2 and 3 of R85 for a segment. -/
def State.chainsOk (s : State) (k : Nat) (c : Counts) : Bool :=
  let w := (s.window k (decide (c = .half))).toNat
  c = .out ||
  ((s.segAxes k).all (fun a => decide (s.lambda a ≤ 30 * w)) &&
    (s.segGroups k).all fun e => decide (((e.2.members.map s.lambda).foldl max 0) + e.2.len ≤ 30 * w))

/-- Admission of a valley (R85), against H_v minus one bench. -/
def State.admits (s : State) (v : Nat) (c : Nat → Counts) : Bool :=
  decide (8 ≤ s.hv v) && fracOk (s.rho v c) (s.hv v - 8) && s.chainsOk (2 * v) (c (2 * v)) && s.chainsOk (2 * v + 1) (c (2 * v + 1))

/-- Admission of the valley of a segment as things stand (R81). -/
def State.admitsSeg (s : State) (k : Nat) : Bool := s.admits (valleyOfSeg k) s.counts

end Sys2Proof.Machine
end

