-- ==== Sys2Proof/Machine/React.lean ====
section
/-! DEFINITION. Stops and reactions: the start of a stop (07 R325 to R331), AXIS_STOP, SEGMENT_STOP, SAFE_HOLD,
CHANGEOVER and DEGRADE with their scopes (16 R636 to R643, 18 R736, R738), and the fence of a segment. -/

namespace Sys2Proof.Machine

/-! ## The start of a stop (R326 to R331, R338) -/

/-- Steepness of a policy: HALT, ESTOP, RAMP from the steepest (R329). -/
def steep (pol : Nat) : Nat := if pol = 0 then 2 else if pol = 2 then 1 else 0

/-- The steeper of two policies. -/
def steeper (p q : Nat) : Nat := if steep p < steep q then q else p

/-- Descriptors that end in the cycle in progress, taken from the events of a left source. -/
def endingOf (l : List Ev) : List (Nat × Nat) :=
  l.filterMap fun e => match e with | .finish id st => some (id, st) | _ => none

/-- A move without a plan yet, which the stop's first cycle looks at (R338). -/
def Motion.heldMove (m : Motion) (closed : Bool) : Option (Int × Option Nat) :=
  match m.src with
  | .move x id none _ => if closed then some (x, id) else none
  | _ => none

/-- A move that arrives in the cycle in which a stop starts has arrived (R338). -/
def Motion.arriveFirst (m : Motion) (two closed : Bool) : Motion :=
  match m.src with
  | .move _ id (some pl) _ =>
    if closed then
      match planJob m.lim two pl m.gen with
      | (g, .arrived) => { m.setGen g with src := .none, ending := m.ending ++ (match id with | some i => [(i, stDone)] | none => []) }
      | _ => m
    else m
  | _ => m

/-- A stop starts, or meets the stop in progress (R326, R329, R331). -/
def Motion.startStop (m : Motion) (trq two closed : Bool) (pol : Nat) (fault : Bool) (ids : List Nat) : Motion :=
  match m.stop with
  | some r =>
    if steep r.pol < steep pol then
      { m with stop := some { r with pol := pol, dmax := m.dmax, jmax := m.jmax, destop := m.destop, plan := none,
                                     fault := fault || r.fault, ids := r.ids ++ ids } }
    else { m with stop := some { r with ids := r.ids ++ ids, fault := fault || r.fault } }
  | none =>
    let m := m.arriveFirst two closed
    let held := m.heldMove closed
    let l := ({ m with src := if held.isSome then .none else m.src } : Motion).leave stAborted true
    { l.1 with
      ending := l.1.ending ++ endingOf l.2, zeroTq := l.1.zeroTq || trq,
      stop := some { pol := pol, dmax := m.dmax, jmax := m.jmax, destop := m.destop, fault := fault, ids := ids, held := held } }

/-- An identification on an axis that takes a stop ends with the cycle (05 R253). -/
def Axis.haltIdent (ax : Axis) : Axis :=
  { ax with ident := match ax.ident with | some x => some { x with halted := true } | none => none }

/-- A member's copy of a path takes up a stop. -/
def PathCopy.stopUnder (c : PathCopy) (pol : Nat) : PathCopy :=
  match c.stop with
  | some p => if steep p < steep pol then { c with stop := some pol, plan := none } else c
  | none => { c with stop := some pol, plan := none }

/-- The whole path of interpolation group g stops (R311); a HALT policy stops it under ESTOP. `ids` are host STOPs with the
members they are aimed at. -/
def State.stopPath (s : State) (g : Nat) (pol : Nat) (ids : List (Nat × Nat)) : State :=
  match s.igroups.lookup g with
  | none => s
  | some ig =>
    let pol := if pol = 0 then 2 else pol
    let s := ig.members.foldl (fun s a => s.modAxis a fun ax =>
      match ax.mo.src with
      | .path c => { ax.haltIdent with mo := { ax.mo with src := .path (c.stopUnder pol) } }
      | _ => ax) s
    { s with igroups := SMap.insert (SMap.erase s.igroups g) g { ig with stopping := true, stopIds := ig.stopIds ++ ids } }

/-- The axis runs a group path, of the group answered. -/
def Axis.onPath (ax : Axis) : Option Nat :=
  match ax.mo.src with
  | .path c => some c.g
  | _ => none

/-- A stop of an axis starts at the present apply point. A stop that finds the loops of a path's member open ends for that
member in its first cycle, and stops the path for the others (R311, R797). -/
def State.stopAxis (s : State) (a : Nat) (two closed : Bool) (pol : Nat) (fault : Bool) (ids : List Nat) : State :=
  let start (ax : Axis) : Axis :=
    { ax.haltIdent with mo := ax.mo.startStop (decide (ax.set.kind = .trq ∧ a < 512)) two closed pol fault ids }
  match (s.axis a).onPath, closed with
  | some g, true => s.stopPath g pol (ids.map fun i => (a, i))
  | some g, false => (s.stopPath g pol []).modAxis a fun ax => { start ax with mo := { (start ax).mo with src := ax.mo.src } }
  | none, _ => s.modAxis a start

/-! ## AXIS_STOP (R636, R637) -/

/-- The causes that open the loops (R637). -/
def opensLoops (kind : Nat) : Bool := kind ∈ [0x40, 0x41, 0x42]

/-- A fault reaction makes the records of an axis ESTOP_LOCAL (16 R637). -/
def Axis.estops (ax : Axis) : Bool := ax.fault && ax.faultBy.any fun c => opensLoops c.2

/-- AXIS_STOP of one axis for a mark's source and kind: FAULT, a stop at the next apply point, and open loops where
the cause opens them. -/
def State.axisStop (s : State) (a src kind : Nat) : State :=
  if 560 ≤ a then s
  else
    s.modAxis a fun ax =>
      let pol := if kind = 0x30 then ax.set.stopPol else ax.set.faultPol
      { ax with
        fault := true, faultBy := if ax.faultBy.contains (src, kind) then ax.faultBy else ax.faultBy ++ [(src, kind)],
        heldOpen := ax.heldOpen || opensLoops kind,
        openAt := if opensLoops kind && !ax.estops then some (s.cyc, (match s.segOf a with | some k => s.minor k | none => 0))
                  else ax.openAt,
        req := some (match ax.req with | some p => steeper p pol | none => pol) }

/-- AXIS_STOP of several axes. -/
def State.axisStops (s : State) (l : List Nat) (src kind : Nat) : State := l.foldl (fun s a => s.axisStop a src kind) s

/-- Every network and step axis of the device that is configured, and the virtual masters. -/
def State.allAxes (s : State) : List Nat :=
  (List.range 8).flatMap s.netAxes ++ ((List.range 16).map fun c => 512 + c) ++ ((List.range 32).map fun i => 528 + i)

/-- The axes of a segment, from its source. -/
def State.segAll (s : State) (k : Nat) : List Nat := s.segAxes k

/-- The scope of an AXIS_STOP (R636). -/
def State.scope (s : State) (src kind addr : Nat) (detail : List Byte) : List Nat :=
  let l := srcLevel src
  let i := srcIdx src
  if kind = 0x04 then
    (if addr < 0x10000 then [addr]
     else match s.cgroups.lookup (addr - 0x10000) with | some g => g.members | none => [])
  else if kind = 0x02 ∧ l = 2 then [fld detail 4 2]
  else if l = 6 ∧ 0x400 ≤ i then [i - 0x400]
  else if l = 6 ∧ 0x080 ≤ i ∧ i < 0x280 then s.nodeAxes ((i - 0x080) / 64) ((i - 0x080) % 64)
  else if l = 6 ∧ 0x060 ≤ i ∧ i < 0x068 then s.segAll (i - 0x060)
  else if l = 4 ∧ 0x010 ≤ i ∧ i < 0x018 then s.segAll (i - 0x010)
  else if l = 3 then s.segAll (2 * i) ++ s.segAll (2 * i + 1)
  else s.allAxes

/-! ## SEGMENT_STOP (R639) -/

/-- The segments that a SEGMENT_STOP acts on. -/
def State.stopScope (s : State) (src : Nat) : List Nat :=
  let l := srcLevel src
  let i := srcIdx src
  if l = 6 ∧ 0x400 ≤ i then (match s.segOf (i - 0x400) with | some k => [k] | none => s.running)
  else if l = 6 ∧ 0x080 ≤ i ∧ i < 0x280 then [(i - 0x080) / 64]
  else if l = 6 ∧ 0x060 ≤ i ∧ i < 0x068 then [i - 0x060]
  else if l = 4 ∧ 0x010 ≤ i ∧ i < 0x020 then [(i - 0x010) % 8]
  else if l = 3 then [2 * i, 2 * i + 1]
  else s.running

/-- Every axis of a segment enters FAULT with its loops open, for a mark. -/
def State.faultSegment (s : State) (k src kind : Nat) : State :=
  (s.segAxes k).foldl (fun s a => s.modAxis a fun ax =>
    { ax with fault := true, heldOpen := true,
              faultBy := if ax.faultBy.contains (src, kind) then ax.faultBy else ax.faultBy ++ [(src, kind)] }) s

/-- SEGMENT_STOP of one segment: from its next segment cycle its records are ESTOP_LOCAL and its loops are open. -/
def State.segmentStop (s : State) (k src kind : Nat) : State :=
  let g := s.seg k
  let s :=
    if g.stopBy ∧ g.stopAt = none then s.faultSegment k src kind
    else s.modSeg k fun g =>
      { g with stopBy := true, stopAt := some (g.stopAt.getD (s.cyc, s.minor k)), stopFor := g.stopFor ++ [(src, kind)] }
  (s.fence (srcSeg k) 13).liveOn (srcSeg k) 0x09

/-- A SEGMENT_STOP acts on the segment: it was taken in an earlier segment cycle. -/
def State.stopActs (s : State) (k : Nat) : Bool := (s.seg k).stopBy && decide ((s.seg k).stopAt = none)

/-- SEGMENT_STOP begins to act: every axis of the segment enters FAULT. -/
def State.stopNow (s : State) (k : Nat) : State :=
  let g := s.seg k
  let s := s.modSeg k fun g => { g with stopBy := true, stopAt := none, stopFor := [] }
  g.stopFor.foldl (fun s c => s.faultSegment k c.1 c.2) s

/-- At a report-close point of (n, m), a stop taken in an earlier segment cycle begins to act. -/
def State.stopDue (s : State) (k n m : Nat) : State :=
  match (s.seg k).stopAt with
  | some c => if c = (n, m) then s else s.stopNow k
  | none => s

/-- SAFE_HOLD, or at a follower its leader's: every axis record is ESTOP_LOCAL (04 R206, 15 Table 15.4). -/
def State.holding (s : State) : Bool := decide (s.pw.mode = .safeHold) || (s.following && decide (s.tw.peerMode = 7))

/-- The trains that leave now carry ESTOP_LOCAL for every axis: in SAFE_HOLD (04 R206), and from the segment cycle after
that of a SEGMENT_STOP. -/
def State.estopTrain (s : State) (k : Nat) : Bool :=
  let g := s.seg k
  s.holding || (g.stopBy && decide (g.stopAt ≠ some (s.cyc, s.minor k)))

/-! ## Outcomes told to a follower (R596) -/

/-- The model's number for the kind of an OUT message (the spec names the kinds and gives no codes, log 21). -/
def outKind : TwinOut → Nat
  | .configCrc _ => 0 | .degradeHalve _ => 1 | .degradeStop _ => 2 | .resampleSwap _ => 3 | .resampleAbort _ => 4
  | .identEnd .. => 5 | .axisFault .. => 6 | .safeHold => 7 | .handover _ => 8 | .ringIndices .. => 9

/-- The data of an OUT message. -/
def outData : TwinOut → List Byte
  | .configCrc c => leBytes 4 c
  | .degradeHalve k => leBytes 1 k
  | .degradeStop k => leBytes 1 k
  | .resampleSwap a => leBytes 2 a
  | .resampleAbort a => leBytes 2 a
  | .identEnd a r => leBytes 2 a ++ leBytes 1 r
  | .axisFault a c => leBytes 2 a ++ leBytes 1 c
  | .safeHold => []
  | .handover n => leBytes 5 n
  | .ringIndices r p c => leBytes 1 r ++ leBytes 4 p ++ leBytes 4 c

/-- A leader sends an outcome to its follower. -/
def State.tellTwin (s : State) (o : TwinOut) : State :=
  if s.leads then
    s.sendTwin 0x7 0xFF (tagOf s.cyc) 0 (leBytes 1 (outKind o) ++ outData o)
  else s

/-- A follower's segments become NOT_READY (R597). -/
def State.notReady (s : State) (l : List Nat) : State := l.foldl (fun s k => s.modTwSeg k fun g => { g with st := .notReady }) s

/-! ## SAFE_HOLD (R736, R738) -/

/-- What SAFE_HOLD does to the axes, for a mark's source and kind (R736). -/
def State.holdAxes (s : State) (src kind : Nat) : State :=
  let s := (List.range 8).foldl (fun s k => (s.netAxes k).foldl (fun s a => s.modAxis a fun ax =>
    { ax with fault := true, heldOpen := true,
              faultBy := if ax.faultBy.contains (src, kind) then ax.faultBy else ax.faultBy ++ [(src, kind)] }) s) s
  s.axisStops (((List.range 16).map fun c => 512 + c) ++ ((List.range 32).map fun i => 528 + i)) src kind

/-- Entry to SAFE_HOLD for a mark's source and kind: at a follower every segment becomes NOT_READY instead. The ledger
is persisted once the mark has been written (R635, R725). -/
def State.safeHold (s : State) (src kind : Nat) : State :=
  let due := bit (s.force 0x100000) 0
  let s := { s with asy := { s.asy with persistDue := s.asy.persistDue || due } }
  match s.pw.mode with
  | .reset => s
  | .boot => s
  | .safeHold => s
  | .follow => s.notReady (List.range 8)
  | _ => ((s.holdAxes src kind).setMode .safeHold).tellTwin .safeHold

/-! ## CHANGEOVER (R640) -/

/-- The reaction CHANGEOVER is open: a leader whose follower is paired and READY on every segment. -/
def State.mayHandOver (s : State) : Bool :=
  decide (s.tw.role = .leader) && decide (s.tw.pair = .paired) &&
    s.running.all fun k => decide ((s.twSeg k).st = .ready)

/-- The reaction taken for a reaction code: CHANGEOVER falls back where R640 says so. -/
def State.fallBack (s : State) (src code : Nat) : Nat :=
  if code ≠ 9 ∨ s.mayHandOver then code
  else
    let l := srcLevel src
    let i := srcIdx src
    if l = 3 ∨ (l = 6 ∧ 0x060 ≤ i ∧ i < 0x068) ∨ (l = 4 ∧ 0x010 ≤ i ∧ i < 0x020) then 7 else 8

/-- The leader hands over at the next major-cycle boundary (R609). -/
def State.handOver (s : State) : State :=
  if s.tw.handover.isSome then s
  else { s.tellTwin (.handover ((s.cyc + 1) % 2 ^ 40)) with tw := { s.tw with handover := some ((s.cyc + 1) % 2 ^ 40) } }

/-! ## The reaction of a mark -/

/-- The kinds whose cause both devices of a pair find alike from the same reports and jobs (15 R593, R599): the lost and
faulty nodes, the limits and masters of an axis. -/
def sharedCause (kind : Nat) : Bool := kind ∈ [0x40, 0x41, 0x42, 0x70, 0x72]

/-- A follower withholds the reaction of its own fault (R597); a SAFE_HOLD or a CHANGEOVER is its leader's to take. -/
def State.withholds (s : State) (kind code : Nat) : Bool :=
  s.following && decide (6 ≤ code) && !(sharedCause kind && decide (code < 8))

/-- The axis outcomes of a leader-local cause are told to the follower (Table 15.4). -/
def State.tellFaults (s : State) (l : List Nat) (kind : Nat) : State :=
  if kind ∈ [0x02, 0x04, 0x30] then l.foldl (fun s a => s.tellTwin (.axisFault a kind)) s else s

/-- Take the reaction of a mark's code, after any fall-back, on control state. -/
def State.takeReaction (s : State) (src kind addr code : Nat) (detail : List Byte) : State :=
  if s.withholds kind code then
    if sharedCause kind then s
    else s.notReady (if code = 8 ∨ code = 9 then List.range 8
      else if code = 7 then s.stopScope src
      else ((s.scope src kind addr detail).filterMap s.segOf).eraseDups)
  else if code = 6 then (s.axisStops (s.scope src kind addr detail) src kind).tellFaults (s.scope src kind addr detail) kind
  else if code = 7 then (s.stopScope src).foldl (fun s k => s.segmentStop k src kind) s
  else if code = 8 then s.safeHold src kind
  else if code = 9 then s.handOver
  else s

/-- A cause of SAFE_HOLD waits in this core clock (Table 16.4: LINK_DOWN of the main link, RAIL_FAIL, TEMP_SHUTDOWN,
SUPPLY_HOLD). -/
def State.holdComes (s : State) : Bool :=
  s.meets fun c => match c with
    | .linkDown _ l => decide (l = 0) && !s.pw.linksDown.contains 0
    | .railFail _ r => decide (r = 1 ∨ r = 2) && [Rail.vio, .vafe, .v1p0, .vcore].all s.pw.railsGood.contains
    | .tempShutdown _ d => !s.pw.shut.contains d
    | .supplyHold _ => !s.pw.hold
    | .vsuvCrossed _ => !s.pw.vsuv
    | _ => false

/-- SAFE_HOLD is among the reactions of the marks detected now. -/
def State.holdsClock (s : State) : Bool :=
  s.holdComes || s.asy.held.any fun m => decide (m.mt = s.mt) && decide ((if m.applied then m.react else s.fallBack m.src m.react) = 8)

/-- The reaction taken for a code at detection: SAFE_HOLD of the same clock replaces AXIS_STOP and SEGMENT_STOP (R641). -/
def State.clocked (s : State) (code : Nat) : Nat := if (code = 6 ∨ code = 7) ∧ s.holdsClock then 8 else code

/-- Raise a mark whose reaction is taken at detection: its rule says the reaction happens within this step. -/
def State.raiseNow (s : State) (src kind addr : Nat) (detail : List Byte) : State :=
  let code := s.clocked (s.fallBack src (s.reactOf kind))
  let s' := s.raiseDone src kind addr (if s.withholds kind code then 0 else code) detail
  s'.takeReaction src kind addr code detail

/-! ## DEGRADE (R642) -/

/-- The CYCLE code of a segment as it stands, or as it will stand once halved. -/
def State.cycleCode (s : State) (k : Nat) (half : Bool) : Nat :=
  bits (s.force (netOff k 0)) 31 30 + (if half ∨ (s.seg k).halved then 1 else 0)

/-- Every integrated node of a segment follows rate halving (R356). -/
def State.nodesHalve (s : State) (k : Nat) : Bool :=
  (s.seg k).nodes.all fun e => !(decide (1 ≤ e.1 ∧ e.1 ≤ 40) && decide (e.2.st = .live)) || e.2.halve

/-- ρ × 1000, rounded down. -/
def milli (a : Nat × Nat) : Nat := if a.1 = 0 ∨ a.2 = 0 then 0 else a.1 * 1000 / a.2

/-- A segment is halved, or stopped, by DEGRADE at the next boundary. -/
def State.degradeAs (s : State) (k : Nat) (half : Bool) : State :=
  let s := s.modSeg k fun g => { g with due := some half, halvedOnce := g.halvedOnce || half }
  let s := (if half then s.fence (srcSeg k) 14 else s.fence (srcSeg k) 13).liveOn (srcSeg k) 0x0B
  let s := s.tellTwin (if half then .degradeHalve k else .degradeStop k)
  s.raiseDone (srcSeg k) 0x0B k 0
    ([BitVec.ofNat 8 (b2n (!half)), BitVec.ofNat 8 (s.cycleCode k half)] ++
      leBytes 2 (milli (s.rho (valleyOfSeg k) s.counts)))

/-- One step of DEGRADE on a segment: halved, or stopped. -/
def State.degradeStep (s : State) (k : Nat) : State :=
  s.degradeAs k (bit (s.force (netOff k 0)) 23 && !(s.seg k).halvedOnce && decide (s.cycleCode k false < 3) && s.nodesHalve k)

/-- The segment of a valley that DEGRADE takes next: not stopped, with the largest ρ, the lower index on a tie. -/
def State.degradePick (s : State) (v : Nat) : Option Nat :=
  let a := 2 * v
  let b := 2 * v + 1
  let ca := s.counts a
  let cb := s.counts b
  let ra := s.segRho a ca
  let rb := s.segRho b cb
  let larger := decide (ra.1 * rb.2 < rb.1 * ra.2) || (decide (rb.2 = 0 ∧ rb.1 ≠ 0) && decide (¬ (ra.2 = 0 ∧ ra.1 ≠ 0)))
  if ca = .out then (if cb = .out then none else some b)
  else if cb = .out then some a
  else if larger then some b else some a

/-- The loop of R642; two segments take at most two steps each. -/
def State.degradeLoop : Nat → State → Nat → State
  | 0, s, _ => s
  | n + 1, s, v =>
    if s.rhoOk v then s
    else
      match s.degradePick v with
      | some k => State.degradeLoop n (s.degradeStep k) v
      | none => s

/-- The check of R87 for a valley, with DEGRADE when it fails. At a follower the leader decides (R596). -/
def State.recheck (s : State) (v : Nat) : State :=
  if s.following ∨ s.fenced (srcValley v) then s else State.degradeLoop 4 s v

end Sys2Proof.Machine
end

