-- ==== Sys2Proof/Machine/Resync.lean ====
section
/-! DEFINITION. Digests and the leader's side of a resynchronisation (15 R600 to R605): the units of a segment, the
batches taken at pour points, their snapshots, and the BLK messages that carry them. What an ASB and a group's state
hold byte by byte the spec does not give: both ways between state and bytes are free functions (log 32). -/

namespace Sys2Proof.Machine

/-- The twin pair as a source of marks (16 Table 16.3). -/
def srcTwin : Nat := srcCode 6 0x000

/-- Byte i of the ASB of an axis: a layout the spec does not give, log 32. -/
opaque Config.asbByte : Axis → Nat → Byte

/-- Byte i of the state of a coupling group, log 32. -/
opaque Config.groupByte : CGroup → Nat → Byte

/-- The axis that the bytes of an ASB stand for, log 32. -/
opaque Config.asbOf : List Byte → Option Axis

/-- The coupling group that the bytes of a group's state stand for, log 32. -/
opaque Config.groupOf : List Byte → Option CGroup

/-! ## Units (R602) -/

/-- The axes that serve an axis as masters: of its phase, of its source, of a pending switch, of a retained gear or
cam. -/
def Axis.masters (ax : Axis) : List Nat :=
  ax.ln.master.toList ++
    (match ax.mo.src with
     | .follow f => if f.ai then [] else [f.src]
     | .eng e => [e.master]
     | _ => []) ++
    (match ax.mo.retained with | some e => [e.master] | none => []) ++
    (match ax.mo.switch with | some (e, _) => [e.master] | none => [])

/-- The axes of segment k that must be in a unit before, or with, axis a: its masters, and the members of its coupling
group. -/
def State.unitNear (s : State) (k a : Nat) : List Nat :=
  ((s.axis a).masters.filter fun m => decide (m < 512 ∧ m ≠ a) && (s.netAxes k).contains m) ++
    (match s.cgroupOf a with | some (_, c) => c.members | none => [])

/-- Elements added to a list that lacks them. -/
def addAll (l xs : List Nat) : List Nat := xs.foldl (fun l x => if l.contains x then l else l ++ [x]) l

/-- What is reached from a list in `fuel` steps. -/
def closure (near : Nat → List Nat) : Nat → List Nat → List Nat
  | 0, l => l
  | n + 1, l =>
    let l' := addAll l (l.flatMap near)
    if l'.length = l.length then l else closure near n l'

/-- Everything that axis a's unit rests on, a first. -/
def State.unitReach (s : State) (k a : Nat) : List Nat := closure (s.unitNear k) 80 [a]

/-- The axes of the unit of axis a, ascending. -/
def State.unitAxes (s : State) (k a : Nat) : List Nat :=
  (s.segAxes k).filter fun b => (s.unitReach k a).contains b && (s.unitReach k b).contains a

/-- The lowest axis of the unit of axis a. -/
def State.unitHead (s : State) (k a : Nat) : Nat := (s.unitAxes k a).headD a

/-- Units in order: the lowest first whose masters' units stand before it. -/
def State.orderUnits (s : State) (k : Nat) : Nat → List Nat → List Nat → List Nat
  | 0, _, done => done
  | n + 1, left, done =>
    let free (h : Nat) : Bool := ((s.unitReach k h).map (s.unitHead k)).all fun x => decide (x = h) || done.contains x
    match left.find? free with
    | some h => s.orderUnits k n (left.filter fun x => decide (x ≠ h)) (done ++ [h])
    | none => done ++ left

/-- The units of a segment, by their lowest axis, in the order in which they go. -/
def State.unitsOf (s : State) (k : Nat) : List Nat :=
  s.orderUnits k 80 ((s.segAxes k).filter fun a => decide (s.unitHead k a = a)) []

/-- The coupling groups of a unit. -/
def State.unitGroups (s : State) (axes : List Nat) : List (Nat × CGroup) :=
  s.cgroups.filter fun g => g.2.members.any axes.contains

/-- The bytes of an axis in a unit: its ASB, its learning table, a pending scratch table. -/
def State.axisLen (s : State) (a : Nat) : Nat :=
  if 512 ≤ a then 4096
  else
    let g := (s.axis a).ln
    4096 + 4 * 2 ^ g.log2n + (match g.resample with | some r => 4 * 2 ^ r.log2n | none => 0)

/-- The length of the unit whose lowest axis is h. -/
def State.unitLen (s : State) (k h : Nat) : Nat :=
  let axes := s.unitAxes k h
  (axes.map s.axisLen).foldl (· + ·) 0 + 4096 * (s.unitGroups axes).length

/-- The bytes of a learning table of 2^n bins. -/
def tableBytes (n : Nat) (t : SMap Int) : List Byte := (List.range (2 ^ n)).flatMap fun r => leInt 4 (SMap.get 0 t r)

/-- The bytes of an axis. -/
def State.axisBytes (s : State) (a : Nat) : List Byte :=
  let ax := s.axis a
  (List.range 4096).map (Config.asbByte ax) ++
    (if 512 ≤ a then []
     else tableBytes ax.ln.log2n ax.ln.bins ++
       (match ax.ln.resample with
        | some r => tableBytes r.log2n (match r.scratch with | some t => t | none => [])
        | none => []))

/-- The bytes of a unit: its axes ascending, then its groups. -/
def State.unitBytes (s : State) (k h : Nat) : List Byte :=
  let axes := s.unitAxes k h
  axes.flatMap s.axisBytes ++ (s.unitGroups axes).flatMap fun g => (List.range 4096).map (Config.groupByte g.2)

/-! ## BLK (R587, R603) -/

/-- Send one BLK and keep it for a repeat. -/
def State.sendBlk (s : State) (b : TwinBlk) : State :=
  let s := s.sendTwin 0x9 b.seg (tagOf b.n) b.m b.payload
  { s with tw := { s.tw with sent := s.tw.sent ++ [b] } }

/-- The identity of a unit of segment k of these axes and coupling groups, with so many bytes: the lowest axis in bits 15 to
0, the number of its pieces in bits 31 to 16, its axes in bits 111 to 32 (bit 32 + i axis 64 k + i, bit 96 + c step channel
c), its groups in bits 143 to 112 (log 35). -/
def unitIdent (k len : Nat) (axes groups : List Nat) : Nat :=
  let axisBit (a : Nat) : Nat := if 512 ≤ a then 96 + (a - 512) else 32 + (a - 64 * k)
  axes.headD 0 + 2 ^ 16 * ((len + 1023) / 1024) + (axes.map fun a => 2 ^ axisBit a).foldl (· + ·) 0 +
    (groups.map fun g => 2 ^ (112 + g)).foldl (· + ·) 0

/-- The axes that an identity names. -/
def identAxes (k u : Nat) : List Nat :=
  ((List.range 64).filter fun i => bit u (32 + i)).map (fun i => 64 * k + i) ++
    ((List.range 16).filter fun c => bit u (96 + c)).map fun c => 512 + c

/-- The coupling groups that an identity names. -/
def identGroups (u : Nat) : List Nat := (List.range 32).filter fun g => bit u (112 + g)

/-- The BLK messages of a unit or a cam table: pieces of 1024 bytes. The payload is the identity in 18 bytes, the snapshot
cycle in 4, the offset in 4, then the piece (log 35). -/
def State.sendBytes (s : State) (seg unit n m : Nat) (bs : List Byte) : State :=
  (List.range ((bs.length + 1023) / 1024)).foldl (fun s i =>
    s.sendBlk { seg := seg, n := n, m := m, off := 1024 * i,
                payload := leBytes 18 unit ++ leBytes 3 (tagOf n) ++ leBytes 1 m ++ leBytes 4 (1024 * i) ++
                  (bs.drop (1024 * i)).take 1024 }) s

/-- No job of a unit is still to commit in a cycle. -/
def State.unitQuiet (s : State) (k h n m : Nat) : Bool :=
  let axes := s.unitAxes k h
  let gs := (s.unitGroups axes).map fun g => g.1
  !(s.pool.jobs.any fun j => decide (j.n = n ∧ j.m = m) &&
    (match j.key with | .axis a => axes.contains a | .group g => gs.contains g))

/-- The snapshots of a batch that may be taken are taken and sent. -/
def State.resyncSend (s : State) (k : Nat) : State :=
  (s.twSeg k).batch.foldl (fun s u =>
    if s.unitQuiet k u.1 u.2.1 u.2.2 then
      let axes := s.unitAxes k u.1
      let ident := unitIdent k (s.unitLen k u.1) axes ((s.unitGroups axes).map fun g => g.1)
      (s.sendBytes k ident u.2.1 u.2.2 (s.unitBytes k u.1)).modTwSeg k fun g =>
        { g with batch := g.batch.filter fun x => decide (x ≠ u) }
    else s) s

/-- The bytes a batch may hold: the budget b of R603. -/
def State.batchBytes (s : State) (k : Nat) : Int :=
  let x : Int := (s.segL k : Int) - s.segPP k + s.segRC k + 8
  (x * 125 - 4000) / (if s.tw.lane0 && s.tw.lane1 then 1 else 2)

/-- The units at the head of a list that fit in a number of bytes. -/
def State.fitting (s : State) (k : Nat) (b : Int) : List Nat → List Nat
  | [] => []
  | u :: r => if (s.unitLen k u : Int) ≤ b then u :: s.fitting k (b - s.unitLen k u) r else []

/-- At a pour point the leader of a segment in RESYNC takes the next batch, of one unit at least. -/
def State.takeBatch (s : State) (k n m : Nat) : State :=
  let g := s.twSeg k
  if s.leads = true ∧ g.st = .resync ∧ ¬ g.units.isEmpty then
    (let l := s.fitting k (s.batchBytes k) g.units
     let l := if l.isEmpty then g.units.take 1 else l
     let s := s.modTwSeg k fun g => { g with units := g.units.drop l.length, batch := g.batch ++ l.map fun u => (u, n, m) }
     ({ s with tw := { s.tw with sent := [] } }).resyncSend k)
  else s

/-- Resynchronisation of a segment begins: the leader has every unit to send, the follower every axis to receive. -/
def State.startResync (s : State) (k : Nat) : State :=
  let us := if s.tw.role = .follower then s.segAxes k else s.unitsOf k
  s.modTwSeg k fun g =>
    { g with st := .resync, units := us, batch := [], got := [], arrived := [], syncFor := 0,
             resyncs := (g.resyncs + 1) % 2 ^ 16, own := none, peer := none }

/-! ## Comparing digests (R601) -/

/-- The two digests of a cycle, once both are there, are compared by the follower. -/
def State.digestCompare (s : State) (k : Nat) : State :=
  let g := s.twSeg k
  match g.own, g.peer with
  | some (n, m, d), some (tag, m', d') =>
    if tagOf n ≠ tag ∨ m ≠ m' ∨ s.tw.role ≠ .follower ∨ g.st = .resync then s
    else
      let s := s.modTwSeg k fun g => { g with own := none, peer := none }
      if d = d' then s.modTwSeg k fun g => { g with misrun := 0 }
      else
        let s := if g.misrun = 0 then s.raise srcTwin 0x65 0 [] else s
        let s := s.modTwSeg k fun g => { g with misrun := min 3 (g.misrun + 1) }
        if 2 ≤ g.misrun then s.startResync k else s
  | _, _ => s

end Sys2Proof.Machine
end

