-- ==== Sys2Proof/Machine/Mould.lean ====
section
/-! DEFINITION. The mould (02 R68 to R79): its banks and entries, the records it builds itself, the release of telemetry, and
the digest of a cycle (15 R600). -/

namespace Sys2Proof.Machine

/-! ## Banks and entries (R69, R79) -/

/-- The telemetry that the mould builds for an axis whose job was aborted or does not run (R79); `learnt` says that the cycle
had a learning update all the same (05 R226). -/
def abortTel (ax : Axis) (a n m : Nat) (rep : ReportIn) (learnt : Bool) : List Byte :=
  let (pos, tact, astat, aux) : Int × Int × Nat × Nat := match rep with
    | .valid pos tact astat aux => (if 512 ≤ a then pos else
        (if ax.fb.seen then ax.fb.pM + toS 32 (toU 32 (pos - ax.fb.repLast)) * 2 ^ (16 - ax.set.fbFrac)
         else toS 32 (toU 32 pos) * 2 ^ (16 - ax.set.fbFrac)), tact, astat, aux)
    | _ => (ax.fb.pM, ax.fb.tact, ax.fb.astat, ax.fb.aux)
  let stale := match rep with | .valid .. => false | _ => true
  leBytes 2 a ++ [BitVec.ofNat 8 (128 + 64 * b2n stale + 2 * b2n learnt), ax.lp.flags] ++ leBytes 3 (tagOf n) ++ [BitVec.ofNat 8 m] ++
    leInt 8 pos ++ zeros 8 ++ leInt 2 ax.lastTq ++ leInt 2 tact ++ leBytes 2 astat ++ leBytes 2 aux

/-- The bank of a segment's mould that holds cycle (n, m). -/
def Segment.bankOf (g : Segment) (n m : Nat) : Option Bool :=
  if g.cur.opened ∧ g.cur.n = n ∧ g.cur.m = m then some false
  else if g.prevBank.opened ∧ g.prevBank.n = n ∧ g.prevBank.m = m then some true
  else none

/-- Change the bank of a cycle. -/
def State.modBank (s : State) (k n m : Nat) (f : Bank → Bank) : State :=
  match (s.seg k).bankOf n m with
  | some false => s.modSeg k fun g => { g with cur := f g.cur }
  | some true => s.modSeg k fun g => { g with prevBank := f g.prevBank }
  | none => s

/-- The bank of a cycle. -/
def State.bank (s : State) (k n m : Nat) : Bank :=
  match (s.seg k).bankOf n m with
  | some false => (s.seg k).cur
  | some true => (s.seg k).prevBank
  | none => {}

/-- The mould of a segment as a source of marks; its train builder (16 Table 16.3). -/
def srcMould (k : Nat) : Nat := srcCode 4 (0x010 + k)

/-- The cycle watchdog as a source of marks (16 Table 16.3). -/
def srcWatchdog : Nat := srcCode 4 0x001

/-- What enters the mould now goes into no train: its cycle has poured, its pour point falls in this core clock (R97), or
the train builder is fenced (01 R33). -/
def State.pourGone (s : State) (k n m : Nat) : Bool := (s.bank k n m).poured || s.poursNow k || s.fenced (srcMould k)

/-- Put an axis's records into its mould entry; an entry that holds records keeps them (R69). -/
def State.mould (s : State) (k n m a : Nat) (cmd tel : List Byte) : State :=
  let held := s.pourGone k n m
  s.modBank k n m fun b =>
    if (b.entries.lookup a).isSome then b
    else { b with entries := SMap.insert b.entries a { cmd := cmd, tel := tel, held := held } }

/-- The mould takes the telemetry of a job that does not run or was aborted, without a command (R79). -/
def State.mouldAbort (s : State) (k n m a : Nat) (rep : ReportIn) (learnt : Bool) : State :=
  s.mould k n m a [] (abortTel (s.axis a) a n m rep learnt)

/-! ## Telemetry (R74 to R76, 14 R549, R569) -/

/-- The telemetry ring of segment k takes the records of axis a in segment cycle (n, m). -/
def State.telSelected (s : State) (k n m a : Nat) : Bool :=
  let r := 16 + k
  let i := if a < 512 then a % 64 else 64
  let mask := s.force (ringOff r 0x10) + 2 ^ 32 * s.force (ringOff r 0x14)
  bit mask i && decide (s.segCount k n m % (bits (s.force (ringOff r 8)) 15 8 + 1) = 0)

/-- A telemetry record with HELD set (R75). -/
def setHeld (tel : List Byte) : List Byte :=
  tel.take 2 ++ [BitVec.ofNat 8 (byteAt tel 2 ||| 128)] ++ tel.drop 3

/-- Release one telemetry record to the host engine. -/
def State.telOut (s : State) (k n m a : Nat) (e : MouldEntry) (room : Bool) : State :=
  if (s.ringOf (16 + k)).on && room && s.telSelected k n m a then
    s.putEntry (16 + k) (if e.held then setHeld e.tel else e.tel)
  else s

/-- Release the telemetry of the bank of (n, m) in axis order, as far as it is contiguous; after the last record the
index is written, and a ring being disabled stops (R74, R549, R552). -/
def State.telFlow (s : State) (k n m : Nat) : State :=
  let b := s.bank k n m
  if !b.poured then s
  else
    let axes := s.segAxes k
    let r := axes.foldl (fun (acc : State × Bool) a =>
      if b.telDone.contains a || acc.2 then acc
      else
        match b.entries.lookup a with
        | some e => ((acc.1.telOut k n m a e b.room).modBank k n m fun c => { c with telDone := a :: c.telDone }, false)
        | none => (acc.1, true)) (s, false)
    let s := r.1
    if axes.all (s.bank k n m).telDone.contains && !(axes.all b.telDone.contains) then
      let s := if (s.ringOf (16 + k)).on then s.putIndex (16 + k) (b.room && axes.any (s.telSelected k n m)) else s
      s.modRing (16 + k) fun g => if g.disabling then { g with on := false, disabling := false } else g
    else s

/-! ## The digest of a cycle (15 R600) -/

/-- What a mould entry contributes to the digest. -/
def digestBytes (e : MouldEntry) : List Byte :=
  (if e.cmd.isEmpty then zeros 8 else e.cmd) ++ slice e.tel 3 1 ++ slice e.tel 8 20

/-- Form the digest of (n, m) once every job is over: a paired device keeps its own and sends DIG. -/
def State.digest (s : State) (k n m : Nat) : State :=
  let b := s.bank k n m
  let axes := s.segAxes k
  if b.opened && !b.digested && axes.all (fun a => (b.entries.lookup a).isSome) && decide (s.tw.pair = .paired) then
    let d := crc64 (axes.flatMap fun a => match b.entries.lookup a with | some e => digestBytes e | none => [])
    let s := s.modBank k n m fun c => { c with digested := true }
    let s := s.modTwSeg k fun g => { g with own := some (n, m, d) }
    (s.sendTwin 0x6 k (tagOf n) m (leBytes 8 d)).digestCompare k
  else s

/-- The bank holds a command record of an axis that may go into the train. -/
def Bank.holds (b : Bank) (a : Nat) : Bool :=
  match b.entries.lookup a with
  | some e => !e.held && !e.cmd.isEmpty
  | none => false

/-- The axes of a list, ascending, whose command records are released: each has its record, and so has every one before it
(R71). -/
def Bank.releasedOf (b : Bank) (axes : List Nat) : List Nat := axes.takeWhile b.holds

/-- How many command records of a cycle are released (R71). -/
def State.released (s : State) (k n m : Nat) : Nat := ((s.bank k n m).releasedOf (s.segAxes k)).length

/-- A release before the pour point is noted, with its core clock (14 Table 14.12). -/
def State.noteRelease (s : State) (k n m before : Nat) : State :=
  if before < s.released k n m then s.modBank k n m fun b => if b.poured then b else { b with lastRel := s.core } else s

/-- The records of an axis enter the mould, which releases what it can. -/
def State.record (s : State) (k n m a : Nat) (cmd tel : List Byte) : State :=
  (((s.mould k n m a cmd tel).noteRelease k n m (s.released k n m)).telFlow k n m).digest k n m

/-- The mould builds the record of an axis whose job was aborted (R79). -/
def State.recordAbort (s : State) (k n m a : Nat) (rep : ReportIn) (learnt : Bool) : State :=
  (((s.mouldAbort k n m a rep learnt).noteRelease k n m (s.released k n m)).telFlow k n m).digest k n m

end Sys2Proof.Machine
end

