-- ==== Sys2Proof/Machine/Pool.lean ====
section
/-! DEFINITION. The hammer pool (03): ready lists, dispatch and stealing, pre-emption, re-issue, the scheduler trace,
and the fences of hammers, benches and valleys (01 R20 to R32, R49, R50). -/

namespace Sys2Proof.Machine

/-! ## Jobs -/

/-- The axis that stands for a job: its own, or the lowest-numbered member's (R110, R147). -/
def State.jobAxis (s : State) : JobKey → Nat
  | .axis a => a
  | .group g => match s.cgroups.lookup g with | some c => c.members.headD 0 | none => 0

/-- The home bench of a job. -/
def State.jobBench (s : State) (k : JobKey) : Nat := s.home (s.jobAxis k)

/-- Every ASB a job needs has landed. -/
def State.landed (s : State) : JobKey → Bool
  | .axis a => !s.inTransit a
  | .group g => match s.cgroups.lookup g with | some c => c.members.all fun a => !s.inTransit a | none => true

/-- The job of a key, while it has not completed. -/
def State.job (s : State) (k : JobKey) : Option Job := s.pool.jobs.find? fun j => j.key = k

/-- Change one job. -/
def State.modJob (s : State) (k : JobKey) (f : Job → Job) : State :=
  s.modPool fun p => { p with jobs := p.jobs.map fun j => if j.key = k then f j else j }

/-- Remove a job. -/
def State.dropJob (s : State) (k : JobKey) : State :=
  s.modPool fun p => { p with jobs := p.jobs.filter fun j => decide (j.key ≠ k) }

/-- The key of a job operand: an axis, or 0x1_0000 plus a group number (16 Table 16.6). -/
def jobKeyOf (j : Nat) : JobKey := if j < 0x10000 then .axis j else .group (j - 0x10000)

/-- The axis or group number of a job. -/
def JobKey.num : JobKey → Nat
  | .axis a => a
  | .group g => g

/-- The number of a job as JOB_WATCHDOG marks carry it (16 Table 16.6). -/
def JobKey.code : JobKey → Nat
  | .axis a => a
  | .group g => 0x10000 + g

/-- The job is cross-eligible (R119). -/
def State.crossEligible (s : State) : JobKey → Bool
  | .axis a => (s.axis a).set.cross && (s.cgroupOf a).isNone
  | .group _ => false

/-! ## The scheduler trace (R144 to R147, R802) -/

/-- The core-clock offset of now from the start of segment cycle (n, m) of a segment. -/
def State.cycleOffset (s : State) (k n m : Nat) : Nat :=
  let start : Int := (n * 500000 : Nat) + (m * s.segL k * 250 : Nat)
  toU 32 (((s.mtQuarter : Int) - start) / 5)

/-- The core-clock offset of now from the start of the present major cycle. -/
def State.majorOffset (s : State) : Nat := s.mtQuarter % 500000 / 5

/-- A trace record passes when the trace runs and its event code is passed (R146, R147). -/
def State.traceOn (s : State) (code : Nat) : Bool :=
  bit (s.force 0x020010) 31 && bit (s.force 0x020010) (15 + code) && (s.ringOf 25).on && !s.fenced (srcCode 4 0x005)

/-- The order of a trace record in its core clock: the hammer, none last, then the event code (R145). -/
def traceKey (b : List Byte) : Nat := 256 * byteAt b 1 + byteAt b 0

/-- Put one 16-byte entry into the trace ring, or drop it when its ring is full (R146). -/
def State.traceEntry (s : State) (e : List Byte) : State :=
  if s.room 25 1 then s.post 25 e
  else
    let s := (s.post 25 e).modPool fun p => { p with traceDrop := min 0xFFFFFFFF (p.traceDrop + 1) }
    s.raiseOnce (srcCode 4 0x005) 0x0F 25 (leBytes 4 (s.ringOf 25).dropNow)

/-- Write one trace record with its sequence number; with compression on it waits for the compression job (Table 03.1). -/
def State.traceWrite (s : State) (body : List Byte) : State :=
  let rec_ := body ++ [BitVec.ofNat 8 s.pool.traceSeq]
  let s := s.modPool fun p => { p with traceSeq := (p.traceSeq + 1) % 256 }
  if s.pool.compress then s.modPool fun p => { p with traceBuf := p.traceBuf ++ [rec_] } else s.traceEntry rec_

/-- Form one trace record: it waits for the end of its core clock, behind those of a lower hammer or of the same hammer
and event code (R145). -/
def State.tracePut (s : State) (body : List Byte) : State :=
  s.modPool fun p => { p with
    traceHeld := p.traceHeld.takeWhile (fun b => decide (traceKey b ≤ traceKey body)) ++
      body :: p.traceHeld.dropWhile (fun b => decide (traceKey b ≤ traceKey body)) }

/-- A trace record about a job of cycle (n, m) of segment seg; `h` is 0xFF without a hammer. -/
def State.traceAbout (s : State) (code h : Nat) (k : JobKey) (seg n m detail : Nat) (copy : Bool) (dom : Nat) (won : Bool) :
    State :=
  let a := s.jobAxis k
  let rng := s.force 0x020014
  if s.traceOn code && bit (s.force 0x020010) (8 + seg) && decide (bits rng 9 0 ≤ a ∧ a ≤ bits rng 25 16) then
    let cls : Nat := match k with | .axis a => a | .group g => 0x4000 + g
    let off := s.cycleOffset seg n m
    let late := decide (50 * s.segPP seg < off)
    s.tracePut ([BitVec.ofNat 8 (16 * code), BitVec.ofNat 8 h] ++ leBytes 2 cls ++ leBytes 3 (tagOf n) ++
      [BitVec.ofNat 8 (16 * seg + m)] ++ leBytes 4 off ++ leBytes 2 detail ++
      [BitVec.ofNat 8 (16 * b2n copy + 8 * b2n late + 4 * b2n (decide (dom = 3)) + 2 * b2n (decide (2 ≤ dom)) + b2n won)])
  else s

/-- A trace record of a hard job's run or of the job itself. -/
def State.traceJob (s : State) (code h : Nat) (k : JobKey) (detail : Nat) (copy : Bool) (dom : Nat) (won : Bool) : State :=
  match s.job k with
  | none => s
  | some j => s.traceAbout code h k j.seg j.n j.m detail copy dom won

/-- A trace record of a soft job. -/
def State.traceSoft (s : State) (code h : Nat) (j : Soft) (detail : Nat) : State :=
  if s.traceOn code && bit (s.force 0x020010) 0 then
    s.tracePut ([BitVec.ofNat 8 (16 * code), BitVec.ofNat 8 h] ++ leBytes 2 (0x8000 + j.serial % 2 ^ 14) ++
      leBytes 3 (tagOf s.cyc) ++ [0] ++ leBytes 4 s.majorOffset ++ leBytes 2 detail ++ [0])
  else s

/-- A trace record of a hammer without a job (R802). -/
def State.traceHammer (s : State) (code h detail : Nat) : State :=
  if s.traceOn code then
    s.tracePut ([BitVec.ofNat 8 (16 * code), BitVec.ofNat 8 h] ++ leBytes 2 0xC000 ++ leBytes 3 (tagOf s.cyc) ++ [0] ++
      leBytes 4 s.majorOffset ++ leBytes 2 detail ++ [0])
  else s

/-! ## Ready lists (R109) -/

/-- The place of a waiting job in its list: deadline, class, then index; a listed re-issue stands ahead of every job
with an equal or later deadline (Table 03.4 row 5). -/
def Job.place (j : Job) : Nat × Nat × Nat :=
  if j.listedCopy ≠ 0 then (j.deadline, 0, 2 ^ 32 - j.listedCopy)
  else match j.key with | .group g => (j.deadline, 1, g) | .axis a => (j.deadline, 2, a)

/-- The lexical order of places. -/
def placeLt (a b : Nat × Nat × Nat) : Bool :=
  decide (a.1 < b.1) || (decide (a.1 = b.1) && (decide (a.2.1 < b.2.1) || (decide (a.2.1 = b.2.1) && decide (a.2.2 < b.2.2))))

/-- A job put into a list in order. -/
def insertJob (j : Job) : List Job → List Job
  | [] => [j]
  | x :: r => if placeLt j.place x.place then j :: x :: r else x :: insertJob j r

/-- The job waits in a list. -/
def Job.waits (j : Job) : Bool := j.ready || decide (j.listedCopy ≠ 0)

/-- The ready list of a bench, head first. A job whose ASB is in transit joins it once the ASB has landed (R140). -/
def State.list (s : State) (b : Nat) : List Job :=
  (s.pool.jobs.filter fun j => j.waits && decide (s.jobBench j.key = b) && s.landed j.key).foldr insertJob []

/-- Hammer h may take a hard job with a deadline (R133). -/
def State.mayTake (s : State) (h dl : Nat) : Bool := !(s.hammer h).barred.contains dl

/-- The jobs of a bench's list that hammer h may take now. -/
def State.takeable (s : State) (b h : Nat) : List Job := (s.list b).filter fun j => s.mayTake h j.deadline

/-- Some hard job waits in a list. -/
def State.anyReady (s : State) : Bool := s.pool.jobs.any Job.waits

/-- Hammer h has no run and none waits on it. -/
def State.idle (s : State) (h : Nat) : Bool := (s.hammer h).run.isNone && (s.hammer h).resv.isNone

/-! ## Dispatch (R111 to R122) -/

/-- Added cost of a steal domain (Table 03.3). -/
def domCost (dom : Nat) : Nat := if dom = 2 then 96 else if dom = 3 then 560 else 0

/-- Add to a count of a table. -/
def bump (m : SMap Nat) (k n : Nat) : SMap Nat := SMap.put 0 m k ((SMap.get 0 m k + n) % 2 ^ 32)

/-- Hammer h starts a run of job k: the job leaves its list. -/
def State.startRun (s : State) (h : Nat) (k : JobKey) (copy : Bool) (dom : Nat) : State :=
  match s.job k with
  | none => s
  | some j =>
    let run : HardRun := { key := k, since := s.core, len := j.len, cost := domCost dom, dom := dom,
                           deadline := j.deadline, copy := copy, abandoned := false }
    let s := s.modHammer h fun m => { m with run := some (.hard run), resv := none }
    s.modJob k fun j => if copy ∨ j.listedCopy ≠ 0 then { j with listedCopy := 0 } else { j with ready := false }

/-- The place of a job in a bench's list, 0 for the head. -/
def State.listPos (s : State) (b : Nat) (k : JobKey) : Nat := ((s.list b).takeWhile fun x => decide (x.key ≠ k)).length

/-- Hammer h takes a job from a bench's list, with its trace record and steal counts; the list's stall count starts again
(R115). -/
def State.takeJob (s : State) (h : Nat) (j : Job) (dom b : Nat) : State :=
  let copy := decide (j.listedCopy ≠ 0) && j.hasCopy
  let v := h / 32
  let pos := s.listPos b j.key
  let s := s.startRun h j.key copy dom
  let s := s.modPool fun p => { p with stall := SMap.put 0 p.stall b (s.core + 1) }
  let s := s.modPool fun p =>
    if dom = 2 then { p with steal := bump p.steal v 1, statSteal := bump p.statSteal j.seg 1 }
    else if dom = 3 then { p with xsteal := bump p.xsteal v 1, statXsteal := bump p.statXsteal j.seg 1 }
    else p
  if dom = 1 then s.traceJob 0x1 h j.key pos copy dom false
  else s.traceJob 0x2 h j.key (256 * b + (s.list b).length) copy dom false

/-- The other benches of a bench's valley in the cyclic order of R117. -/
def cyclic (b : Nat) : List Nat := [1, 2, 3].map fun i => 4 * (b / 4) + (b % 4 + i) % 4

/-- The steal of R117 for hammer h: the tail with the latest deadline, then the longest list, then cyclic order. -/
def State.stealValley (s : State) (h : Nat) : Option (Job × Nat) :=
  ((cyclic (benchOf h)).filter fun b => !s.benchOut b).foldl (fun (best : Option (Job × Nat)) b =>
    match (s.takeable b h).getLast? with
    | none => best
    | some j =>
      match best with
      | none => some (j, b)
      | some (i, c) =>
        if i.deadline < j.deadline ∨ (i.deadline = j.deadline ∧ (s.list c).length < (s.list b).length) then some (j, b)
        else best) none

/-- The jobs of another valley's bench that hammer h may steal (R119, R141). -/
def State.crossJobs (s : State) (h b : Nat) : List Job :=
  if s.benchOut b then []
  else (s.takeable b h).filter fun j => s.crossEligible j.key && decide (s.core + j.len + 560 ≤ j.deadline)

/-- The steal of R119 and R120 for hammer h. -/
def State.stealAcross (s : State) (h : Nat) : Option (Job × Nat) :=
  let v := h / 32
  let busy := (List.range 4).any fun i => !(s.list (4 * v + i)).isEmpty
  if busy ∨ ¬ bit (s.force 0x020000) 0 then none
  else
    (([1, 2, 3].map fun i => (v + i) % 4).flatMap fun w => (List.range 4).map fun i => 4 * w + i).foldl
      (fun (best : Option (Job × Nat)) b =>
        match (s.crossJobs h b).getLast? with
        | none => best
        | some j => match best with
          | none => some (j, b)
          | some (i, _) => if i.deadline < j.deadline then some (j, b) else best) none

/-- Step 1 of Table 03.2 for hammer h. -/
def State.takeOwn (s : State) (h : Nat) : State :=
  if s.idle h && s.activeHammer h then
    match (s.takeable (benchOf h) h).head? with
    | some j => s.takeJob h j 1 (benchOf h)
    | none => s
  else s

/-- Step 2 of Table 03.2 for hammer h. -/
def State.takeValley (s : State) (h : Nat) : State :=
  if s.idle h && s.activeHammer h then
    match s.stealValley h with
    | some (j, b) => s.takeJob h j 2 b
    | none => s
  else s

/-- Step 3 of Table 03.2 for hammer h. -/
def State.takeAcross (s : State) (h : Nat) : State :=
  if s.idle h && s.activeHammer h then
    match s.stealAcross h with
    | some (j, b) => s.takeJob h j 3 b
    | none => s
  else s

/-! ## Soft work (R107, R111 steps 4 to 6, R126) -/

/-- Priority of a soft class (Table 03.1). -/
def SoftClass.prio : SoftClass → Nat
  | .resample _ => 0 | .ident .. => 1 | .stat .. => 2 | .compress => 3

/-- A soft job put into a queue by priority and issue order. -/
def insertSoft (j : Soft) : List Soft → List Soft
  | [] => [j]
  | x :: r =>
    if j.cls.prio < x.cls.prio ∨ (j.cls.prio = x.cls.prio ∧ j.serial < x.serial) then j :: x :: r else x :: insertSoft j r

/-- The soft queue of a valley. -/
def State.softQ (s : State) (v : Nat) : List Soft := SMap.get [] s.pool.soft v

/-- Put a soft job into a valley's queue. -/
def State.queueSoft (s : State) (v : Nat) (j : Soft) : State :=
  s.modPool fun p => { p with soft := SMap.put [] p.soft v (insertSoft j (SMap.get [] p.soft v)) }

/-- The valley that takes the next statistics or compression job (R107). -/
def State.nextSoftValley (s : State) : Nat :=
  (([0, 1, 2, 3].map fun i => (s.pool.nextValley + i) % 4).find? fun v => !s.fenced (srcValley v)).getD 0

/-- Issue a soft job. -/
def State.issueSoft (s : State) (c : SoftClass) : State :=
  let j : Soft := { serial := s.pool.serial, cls := c }
  let s := s.modPool fun p => { p with serial := p.serial + 1 }
  match c with
  | .resample a => s.queueSoft (valleyOfSeg (a / 64)) j
  | .ident a _ => s.queueSoft (valleyOfSeg (a / 64)) j
  | _ =>
    let v := s.nextSoftValley
    (s.queueSoft v j).modPool fun p => { p with nextValley := (v + 1) % 4 }

/-- Hammer h takes the head of a valley's soft queue. It counts as a dispatch (event 0x1), whichever valley's queue it comes
from: Table 03.7 names no other event for it (log 88). -/
def State.takeSoftFrom (s : State) (h v : Nat) : State :=
  match s.softQ v with
  | [] => s
  | j :: r =>
    let s := s.modPool fun p => { p with soft := SMap.put [] p.soft v r }
    (s.modHammer h fun m => { m with run := some (.soft j s.core false) }).traceSoft 0x1 h j 0

/-- Steps 4 to 6 of Table 03.2 for hammer h, which may be SLOW (R112). A resumed soft job counts as started when it is resumed
where R124 asks which started most recently (log 88). -/
def State.takeSoft (s : State) (h : Nat) : State :=
  if s.idle h && !s.hammerOut h then
    match (s.hammer h).ctx with
    | some (j, at_) =>
      (s.modHammer h fun m => { m with run := some (.soft j s.core false), ctx := none }).traceSoft 0x4 h j (min 0xFFFF (s.core - at_))
    | none =>
      if !(s.softQ (h / 32)).isEmpty then s.takeSoftFrom h (h / 32)
      else if bit (s.force 0x020000) 1 then
        match (List.range 4).find? fun v => !(s.softQ v).isEmpty with
        | some v => s.takeSoftFrom h v
        | none => s
      else s
  else s

/-! ## Pre-emption (R123 to R125) -/

/-- The soft run of a hammer that may be a victim for a job with a deadline: not asked to stop already, not at its end in
this core clock (R151), on an active hammer that may take the job (R133). -/
def State.victimOf (s : State) (dl h : Nat) : Option (Nat × Nat × Nat) :=
  match (s.hammer h).run with
  | some (.soft j since false) =>
    if s.activeHammer h && s.mayTake h dl && !s.softEndsNow h then some (j.cls.prio, since, h) else none
  | _ => none

/-- The victim on a bench: the lowest priority, then the latest start, then the highest hammer (R124). -/
def State.victim (s : State) (b dl : Nat) : Option Nat :=
  (((List.range 8).filterMap fun i => s.victimOf dl (8 * b + i)).foldl (fun (best : Option (Nat × Nat × Nat)) x =>
    match best with
    | none => some x
    | some y => if placeLt y x then some x else best) none).map fun x => x.2.2

/-- Pre-emptions pending on a bench for the jobs of its list: those asked for a placed run cover that run alone. -/
def State.pendingPre (s : State) (b : Nat) : Nat :=
  ((List.range 8).filter fun i => match (s.hammer (8 * b + i)).run with
    | some (.soft _ _ true) => (s.hammer (8 * b + i)).resv.isNone
    | _ => false).length

/-- Ask the soft run of a hammer to stop. -/
def State.askStop (s : State) (h : Nat) : State :=
  (s.modHammer h fun m =>
    { m with run := match m.run with | some (.soft j t _) => some (.soft j t true) | r => r, askedAt := s.core + 1 }).modPool
    fun p => { p with preempt := bump p.preempt (h / 32) 1 }

/-- A hammer of a bench is idle and active. -/
def State.idleThere (s : State) (b : Nat) : Bool := (List.range 8).any fun i => s.idle (8 * b + i) && s.activeHammer (8 * b + i)

/-- Pre-empt on one bench for the waiting jobs of a list that no pending pre-emption covers (R123). -/
def State.preemptFor (s : State) (b : Nat) : List Job → State
  | [] => s
  | j :: r =>
    match s.victim b j.deadline with
    | some h => (s.askStop h).preemptFor b r
    | none => s.preemptFor b r

/-- Pre-empt on one bench, once for each waiting job not covered, unless a hammer of it is idle and active (R123). -/
def State.preemptBench (s : State) (b : Nat) : State :=
  if s.idleThere b then s else s.preemptFor b ((s.list b).drop (s.pendingPre b))

/-- The dispatcher top as a source of marks (16 Table 16.3). -/
def srcDispatcher : Nat := srcCode 4 0x000

/-- One round of dispatch: every idle hammer looks for work in the order of Table 03.2, own lists first (R149), then
soft work is pre-empted for what still waits. A fenced dispatcher hands out nothing (01 R44). -/
def State.dispatch (s : State) : State :=
  if s.fenced srcDispatcher then s
  else
  let s :=
    if s.anyReady then
      let s := (List.range 128).foldl State.takeOwn s
      let s := if s.anyReady then (List.range 128).foldl State.takeValley s else s
      if s.anyReady then (List.range 128).foldl State.takeAcross s else s
    else s
  let s :=
    if (s.pool.soft.any fun e => !e.2.isEmpty) ∨ (s.pool.hammers.any fun e => e.2.ctx.isSome) then
      (List.range 128).foldl State.takeSoft s
    else s
  if s.anyReady then (List.range 16).foldl State.preemptBench s else s

/-- Write the trace records of a core clock that is over (R145); the first to wait for compression issues its job. -/
def State.flushTrace (s : State) : State :=
  let was := s.pool.traceBuf.isEmpty
  let s := s.pool.traceHeld.foldl State.traceWrite (s.modPool fun p => { p with traceHeld := [] })
  if was && !s.pool.traceBuf.isEmpty then s.issueSoft .compress else s

/-- The stall counts at the end of a core clock: a list without ready work counts nothing, one that has come to hold some
counts from here (R24). -/
def State.stallCounts (s : State) : State :=
  if s.pool.jobs.isEmpty && s.pool.stall.isEmpty then s
  else (List.range 16).foldl (fun s b =>
    let was := SMap.get 0 s.pool.stall b
    s.modPool fun p => { p with
      stall := SMap.put 0 p.stall b (if (s.list b).isEmpty then 0 else if was = 0 then s.core + 1 else was) }) s

/-! ## The frame of every meaning -/

/-- A core clock ends: the hammers idle in it take work together (R113, R149), its trace records are written in their order
(R145), the stall counts go on, and what was fenced and lost in it is past. -/
def State.endClock (s : State) : State :=
  (s.dispatch.flushTrace.stallCounts).modPool fun p => { p with fencedNow := [], lostNow := [] }

/-- The group jobs that are due join their lists (R110). -/
def State.joinGroups (s : State) : State :=
  s.modPool fun p => { p with
    jobs := p.jobs.map fun j => if p.joining.contains j.key then { j with ready := true } else j, joining := [] }

/-- The core clocks that are over once a command at a later one arrives: that of the last command, and the one after it where
group jobs join their lists in it. -/
def State.settle (s : State) (t : Nat) : State :=
  if t / 5 ≤ s.now / 5 then s
  else
    let s := s.endClock
    if s.pool.joining.isEmpty then s
    else
      let s := (s.at (5 * (s.core + 1))).joinGroups
      if t / 5 ≤ s.core then s else s.endClock

/-- The machine as a command at time `t` finds it: the core clock before it has ended. -/
def State.before (s : State) (t : Nat) : State := (s.settle t).at t

/-- A meaning: the effect `f` takes place on the machine as the command finds it; the queue is as it was and time does not
run back (log 41). -/
def State.does (s : State) (t : Nat) (f : State → State) : Host.Outcome State Fault Refusal :=
  .next { f (s.before t) with pending := s.pending, now := max s.now t }

/-! ## Re-issue (R128 to R134) -/

/-- The first idle active hammer of a bench that may take a run with a deadline. -/
def State.idleOn (s : State) (b dl : Nat) : Option Nat :=
  ((List.range 8).map fun i => 8 * b + i).find? fun h => s.idle h && s.activeHammer h && s.mayTake h dl

/-- Rows 1 to 3 of Table 03.4 for job j: a hammer and its steal domain. Row 3 gives no order among the idle hammers of the
other valleys: the model takes the valleys in the cyclic order that stealing takes, then the benches, then the hammers, ascending (DESIGN
CHOICE, log 88). -/
def State.placeIdle (s : State) (j : Job) : Option (Nat × Nat) :=
  let b := s.jobBench j.key
  match s.idleOn b j.deadline with
  | some h => some (h, 1)
  | none =>
    match (cyclic b).findSome? fun c => s.idleOn c j.deadline with
    | some h => some (h, 2)
    | none =>
      if s.crossEligible j.key && bit (s.force 0x020000) 0 && decide (s.core + j.len + 560 ≤ j.deadline) then
        ((([1, 2, 3].map fun i => (b / 4 + i) % 4).flatMap fun w => (List.range 4).map fun i => 4 * w + i).findSome?
          fun c => s.idleOn c j.deadline).map fun h => (h, 3)
      else none

/-- Row 4 of Table 03.4: a soft run to pre-empt, and the steal domain. -/
def State.placePre (s : State) (j : Job) : Option (Nat × Nat) :=
  let b := s.jobBench j.key
  match s.victim b j.deadline with
  | some h => some (h, 1)
  | none => ((cyclic b).findSome? fun c => s.victim c j.deadline).map fun h => (h, 2)

/-- Place a re-issue of job k under Table 03.4, with its trace record; `orig` is the hammer of the original run, and
`copy` says the re-issue has a rival (R129), else it is the only run (R134). While the ASB is in transit, rows 1, 4 and 5
wait (R140). Its record 0x6 is the only one: Table 03.7 names no dispatch record beside it (log 88). -/
def State.place (s : State) (k : JobKey) (copy : Bool) (orig : Nat) : State :=
  match s.job k with
  | none => s
  | some j =>
    if s.fenced srcDispatcher then s.modJob k fun j => { j with ready := true }
    else
    match s.placeIdle j with
    | some (h, dom) =>
      let s :=
        if s.landed k ∨ dom ≠ 1 then s.startRun h k copy dom
        else s.modHammer h fun m => { m with resv := some (k, copy, dom) }
      s.traceJob 0x6 h k orig copy dom false
    | none =>
      match s.placePre j with
      | some (h, dom) =>
        ((s.askStop h).modHammer h fun m => { m with resv := some (k, copy, dom) }).traceJob 0x6 h k orig copy dom false
      | none =>
        let n := s.pool.serial + 1
        ((s.modPool fun p => { p with serial := n }).modJob k fun j =>
          { j with listedCopy := n, ready := false }).traceJob 0x6 0xFF k orig copy 1 false

/-- The hammers with a run of job k in progress. -/
def State.runsOf (s : State) (k : JobKey) : List Nat :=
  s.pool.hammers.filterMap fun e => match e.2.run with
    | some (.hard r) => if r.key = k ∧ ¬ r.abandoned then some e.1 else none
    | _ => none

/-- The hammers that hold a placed run of job k for later. -/
def State.resvOf (s : State) (k : JobKey) : List Nat :=
  s.pool.hammers.filterMap fun e => match e.2.resv with
    | some (k', _) => if k' = k then some e.1 else none
    | none => none

/-- The core clock is the re-issue point of a job: t_ri of R128. -/
def State.atReissue (s : State) (j : Job) : Bool := decide (s.core + j.len + 64 = j.deadline)

/-- A copy of job k is issued against its run on hammer h, which takes no further hard job with the same deadline (R129,
R133). -/
def State.issueCopy (s : State) (k : JobKey) (j : Job) (h : Nat) : State :=
  let s := (s.modJob k fun j => { j with hasCopy := true }).modHammer h fun m =>
    { m with barred := j.deadline :: m.barred.filter fun d => decide (s.core ≤ d ∧ d ≠ j.deadline) }
  let s := s.modPool fun p => { p with reissue := bump p.reissue (valleyOfSeg j.seg) 1, statCopies := bump p.statCopies j.seg 1 }
  s.place k true h

/-- A job whose run on hammer `orig`, dispatched at `since`, ended by a fault: its copy becomes its only run, or it is
re-issued (R139, R134). Where its re-issue point falls in this core clock, its copy is issued and is its only run (R152). -/
def State.reissueAfterFault (s : State) (k : JobKey) (orig since : Nat) : State :=
  match s.job k with
  | none => s
  | some j =>
    if !(s.runsOf k).isEmpty || !(s.resvOf k).isEmpty || j.waits then s
    else if s.atReissue j && !j.hasCopy && decide (since < s.core) then s.issueCopy k j orig
    else s.place k false orig

/-! ## Runs that end (R132, R135) -/

/-- The overrun count of a hammer after a run ends: R135. -/
def overrunAfter (r : HardRun) (now n : Nat) (completes : Bool) : Nat :=
  if 3 * (r.len + r.cost) < 2 * (now - r.since) then min 64 (n + 1) else if completes then 0 else n

/-- The hard run of hammer h ends, completed or abandoned. -/
def State.endRun (s : State) (h : Nat) (completes : Bool) : State :=
  match (s.hammer h).run with
  | some (.hard r) => s.modHammer h fun m => { m with run := none, overrun := overrunAfter r s.core m.overrun completes }
  | _ => s

/-- A fault ends the hard run of hammer h, which this core clock remembers (01 R51). -/
def State.dropRun (s : State) (h : Nat) (r : HardRun) : State :=
  (s.endRun h false).modPool fun p => { p with lostNow := p.lostNow ++ [(h, r)] }

/-- The valley that homes an axis's ASB (R107). -/
def State.homeValley (s : State) (a : Nat) : Nat := valleyOf (s.home a)

/-- A soft job starts again from its beginning: in the queue of the valley that homes its axis, or, for statistics and trace
compression, in that of the next valley in turn, as for a new one (R107; the choice of turn is log 88). -/
def State.requeueSoft (s : State) (j : Soft) : State :=
  let j := { j with ran := 0, accs := [] }
  match j.cls with
  | .resample a => s.queueSoft (s.homeValley a) j
  | .ident a _ => s.queueSoft (s.homeValley a) j
  | _ =>
    let v := s.nextSoftValley
    (s.queueSoft v j).modPool fun p => { p with nextValley := (v + 1) % 4 }

/-- The run of a hammer ends here and now, by a fence: a hard job is re-issued unless a rival is left, a soft job and
a held context start again from their beginning (R21, R127, R139). -/
def State.loseRun (s : State) (h : Nat) : State :=
  let m := s.hammer h
  let s := match m.run with
    | some (.hard r) => if r.abandoned then s.endRun h false else s.dropRun h r
    | _ => s
  let s := s.modHammer h fun m => { m with run := none, ctx := none, resv := none }
  let s := match m.ctx with | some (j, _) => s.requeueSoft j | none => s
  let s := match m.resv with | some (k, _) => s.reissueAfterFault k h s.core | none => s
  match m.run with
  | some (.soft j _ _) => s.requeueSoft j
  | some (.hard r) => if r.abandoned then s else s.reissueAfterFault r.key h r.since
  | none => s

/-! ## Fences of the pool (R20 to R32, R49, R50, R116, R138 to R141) -/

/-- A FENCE trace record for each hammer of a list not already out of service. -/
def State.traceFences (s : State) (l : List Nat) (reason : Nat) : State :=
  (l.filter fun h => !s.hammerOut h).foldl (fun s h => s.traceHammer 0x8 h reason) s

/-- The moves of a fenced bench start, unless an earlier move to it is still in flight (R26, R27, R54). -/
def State.startMoves (s : State) (b : Nat) : State :=
  let mine := s.heldBy b
  if !s.benchOut b ∨ mine.any s.inTransit then s
  else
    let free := ((List.range 4).map fun i => 4 * (b / 4) + i).filter fun c => !s.benchOut c
    mine.foldl (fun s a =>
      let goal := free.foldl (fun (best : Option Nat) c => match best with
        | none => some c
        | some d => if (s.heldBy c).length < (s.heldBy d).length then some c else best) none
      match goal with
      | some c => s.modPool fun p => { p with home := SMap.put (homeBench a) p.home a c, moving := SMap.put 0 p.moving a 1 }
      | none => s) s

/-- The records of a group job that does not run or was aborted: each member's from its own job's report (R79, R240). -/
def State.recordGroup (s : State) (g : Nat) (j : Job) : State :=
  match s.cgroups.lookup g with
  | none => s
  | some c => c.members.foldl (fun s a =>
      match c.left.lookup a with
      | some l => s.recordAbort j.seg j.n j.m a l.input.rep l.learnOn
      | none => s.recordAbort j.seg j.n j.m a .kept false) s

/-- The jobs of a valley's segments end without a run: their telemetry is built under R79. -/
def State.dropValleyJobs (s : State) (v : Nat) : State :=
  (s.pool.jobs.filter fun j => decide (valleyOfSeg j.seg = v)).foldl (fun s j =>
    let s := match j.key with
      | .axis a => s.recordAbort j.seg j.n j.m a j.input.rep false
      | .group g => s.recordGroup g j
    let s := (s.runsOf j.key).foldl (fun s h => s.modHammer h fun m =>
      { m with run := match m.run with | some (.hard r) => some (.hard { r with abandoned := true }) | r => r }) s
    s.dropJob j.key) s

/-- The axes and groups of a valley whose power was turned off (R56). -/
def State.powerOffValley (s : State) (v : Nat) : State :=
  let axes := (List.range 528).filter fun a => decide (valleyOf (homeBench a) = v)
  let s := axes.foldl (fun s a =>
    let ax := s.axis a
    let l := ax.mo.leave stAborted false
    let ids := (endingOf l.2).map (·.1) ++ (match ax.mo.stop with | some r => (r.ends stAborted).map (·.1) | none => []) ++
      (match ax.ln.resample with | some r => [r.id] | none => []) ++ (match ax.ident with | some r => [r.id] | none => [])
    let s := (ax.mo.ending ++ ids.map fun i => (i, stAborted)).foldl (fun s e => s.finish e.1 e.2 (zeros 8)) s
    let s := ax.ends.foldl (fun s i => s.finish i stDone (zeros 8)) s
    s.setAxis a { Axis.default a with fault := true, faultBy := ax.faultBy }) s
  let gone (k : Nat) : Bool := decide (valleyOfSeg k = v)
  let s := (s.igroups.filter fun e => gone e.2.seg).foldl (fun s e =>
    (e.2.stopIds.map (·.2) ++ (match e.2.moving with | some i => [i] | none => [])).foldl (fun s id => s.finish id stAborted (zeros 8)) s) s
  let s := { s with igroups := s.igroups.filter fun e => !gone e.2.seg, cgroups := s.cgroups.filter fun e => !gone e.2.seg }
  { s with pw := { s.pw with domains := s.pw.domains.filter fun d => decide (d ≠ 4 + v) } }.postReady

/-- An UNFENCE of an element ends FAILED_HW where a new fault of it is detected (R53), and one that passed does not rejoin
(R47). -/
def State.failUnfence (s : State) (src : Nat) : State :=
  let due := s.pool.checks.filter fun c => decide (c.1 = src)
  let s := due.foldl (fun s c => s.finish c.2 stFailedHw (zeros 8)) s
  s.modPool fun p => { p with checks := p.checks.filter fun c => decide (c.1 ≠ src),
                              rejoin := p.rejoin.filter fun c => decide (c ≠ src) }

/-- A new fault meets an element that is fenced already: a FENCE mark is raised for it where the element would have rejoined
(R47). -/
def State.refence (s : State) (src reason : Nat) : State :=
  let was := s.pool.rejoin.contains src
  let s := s.failUnfence src
  if was then s.raiseDone src 0x09 src 0 [BitVec.ofNat 8 reason, 0] else s

/-- A fault fences an element, or meets it fenced. -/
def State.fenceAnew (s : State) (src reason : Nat) : State :=
  if s.fenced src then s.refence src reason
  else ((s.failUnfence src).fence src reason).modPool fun p => { p with fencedNow := src :: p.fencedNow }

/-- Fence valley v (R30, R32, R49, R50): its segments take SEGMENT_STOP, or the leader hands over. -/
def State.fenceValley (s : State) (v reason kind : Nat) : State :=
  if s.fenced (srcValley v) then (s.refence (srcValley v) reason).postReady
  else
    let s := s.traceFences ((List.range 32).map fun i => 32 * v + i) 6
    let hs := (List.range 32).map fun i => 32 * v + i
    let s := s.fenceAnew (srcValley v) reason
    let s := s.dropValleyJobs v
    let s := hs.foldl State.loseRun s
    let code := s.fallBack (srcValley v) 9
    let s :=
      if s.following then s.notReady [2 * v, 2 * v + 1]
      else if code = 9 then s.handOver
      else (s.segmentStop (2 * v) (srcValley v) kind).segmentStop (2 * v + 1) (srcValley v) kind
    let s := if bit (s.force 0x100000) 1 then s.powerOffValley v else s
    if (List.range 4).all fun w => s.fenced (srcValley w) then s.safeHold (srcValley v) kind else s

/-- Fence bench b (R24 to R28, R49, R116, R140). -/
def State.fenceBench (s : State) (b reason kind : Nat) : State :=
  if s.fenced (srcBench b) then (s.refence (srcBench b) reason).postReady
  else
    let hs := (List.range 8).map fun i => 8 * b + i
    let s := s.traceFences hs 5
    let s := s.fenceAnew (srcBench b) reason
    let v := valleyOf b
    if (List.range 4).all fun i => s.fenced (srcBench (4 * v + i)) then s.fenceValley v 9 kind
    else
      let s := s.startMoves b
      let s := hs.foldl State.loseRun s
      s.recheck v

/-- Fence hammer h (R20, R21, R116, R138, R139). -/
def State.fenceHammer (s : State) (h reason kind : Nat) : State :=
  if s.fenced (srcHammer h) then (s.refence (srcHammer h) reason).postReady
  else
    let s := if s.hammerOut h then s else s.traceHammer 0x8 h reason
    let s := s.fenceAnew (srcHammer h) reason
    let s := s.loseRun h
    let s := s.modHammer h fun m => { m with slow := false, overrun := 0 }
    let b := benchOf h
    if (List.range 8).all fun i => s.fenced (srcHammer (8 * b + i)) then s.fenceBench b 8 kind
    else s.recheck (valleyOf b)

/-! ## Rivals (R132) -/

/-- Every other run of job k is abandoned: a listed copy is withdrawn, runs in progress stop at their next stage
boundary, and placed runs are given up. -/
def State.abandonRivals (s : State) (k : JobKey) : State :=
  let s := (s.runsOf k).foldl (fun s h => s.modHammer h fun m =>
    { m with run := match m.run with | some (.hard r) => some (.hard { r with abandoned := true }) | r => r }) s
  (s.resvOf k).foldl (fun s h => s.modHammer h fun m => { m with resv := none }) s

/-- Hammer h's hard run was dispatched before now. -/
def State.runsBefore (s : State) (h : Nat) : Bool :=
  match (s.hammer h).run with
  | some (.hard r) => decide (r.since < s.core)
  | _ => false

/-! ## Two levels in one core clock (01 R51, R52) -/

/-- A bench's list has held ready work for 256 core clocks without a dispatch from it (R24, R115). -/
def State.stalled (s : State) (b : Nat) : Bool :=
  let c := SMap.get 0 s.pool.stall b
  !(s.list b).isEmpty && !s.benchOut b && decide (c ≠ 0 ∧ c + 255 ≤ s.core)

/-- The valley whose fabric the transaction of hammer h's job uses: that of its segment, of the axis of a RESAMPLE or an
identification, else the hammer's own. -/
def State.fabricValley (s : State) (h : Nat) : Nat :=
  match (s.hammer h).run with
  | some (.hard r) => (match s.job r.key with | some j => valleyOfSeg j.seg | none => h / 32)
  | some (.soft j _ _) => (match j.cls with
    | .resample a => s.homeValley a
    | .ident a _ => s.homeValley a
    | _ => h / 32)
  | none => h / 32

/-- The job of hammer h has met a fabric timeout before. -/
def State.fabricSecond (s : State) (h : Nat) : Bool :=
  match (s.hammer h).run with
  | some (.hard r) => (s.job r.key).any fun j => decide (j.timeouts ≠ 0)
  | some (.soft j _ _) => decide (j.timeouts ≠ 0)
  | none => false

/-- A fault row that waits in this core clock fences one of a list of elements. -/
def State.fenceComes (s : State) (l : List Nat) : Bool :=
  s.meets fun c => match c with
    | .readyStall _ b => l.contains (srcBench b) && s.stalled b
    | .parity _ src _ => l.contains src && decide (srcLevel src = 1 ∨ srcLevel src = 2)
    | .eccDouble _ src _ _ _ => l.contains src && decide (srcLevel src = 1)
    | .fabricTimeout _ h => l.contains (srcValley (s.fabricValley h)) && s.fabricSecond h
    | _ => false

/-- One of a list of elements is fenced in this core clock. -/
def State.fencesNow (s : State) (l : List Nat) : Bool := l.any s.pool.fencedNow.contains || s.fenceComes l

/-- The reaction to a fault of hammer h gives way to a higher level's in the same core clock: its bench or valley is fenced
(R51). -/
def State.yields (s : State) (h : Nat) : Bool := s.fencesNow [srcBench (benchOf h), srcValley (h / 32)]

/-! ## Meanings -/

/-- REISSUE_POINT: at t_ri a job whose single run was dispatched before and has not completed gets one copy (R129); none when
that run completes in the same core clock (R150). -/
def execReissuePoint (t : Nat) (job : Nat) (s : State) : Host.Outcome State Fault Refusal :=
  s.does t fun s =>
    let k := jobKeyOf job
    match s.job k with
    | none => s
    | some j =>
      match s.runsOf k with
      | [h] =>
        if s.fenced srcDispatcher || !s.atReissue j || j.hasCopy || j.waits || !s.runsBefore h || s.completesNow h then s
        else s.issueCopy k j h
      | _ => s

/-- The overrun count of a hammer, with the run that passes 1.5 × (L + c) now (R135, R136). -/
def State.overruns (s : State) (h : Nat) : Nat :=
  let m := s.hammer h
  match m.run with
  | some (.hard r) => if 3 * (r.len + r.cost) < 2 * (s.core - r.since) then m.overrun + 1 else m.overrun
  | _ => m.overrun

/-- HAMMER_SLOW: a hammer whose overrun count reached 64 does soft work only; a fenced hammer stays fenced (R136,
R153). -/
def execHammerSlow (t : Nat) (hammer : Nat) (s : State) : Host.Outcome State Fault Refusal :=
  s.does t fun s =>
    let m := s.hammer hammer
    if 64 ≤ s.overruns hammer ∧ ¬ m.slow ∧ ¬ s.fenced (srcHammer hammer) ∧ ¬ s.fencesNow [srcHammer hammer] ∧
        ¬ s.yields hammer then
      let s := s.modHammer hammer fun m => { m with slow := true }
      let code := if s.rhoOk (hammer / 32) then 0 else 5
      let s := s.raiseDone (srcHammer hammer) 0x08 0 code []
      let s := s.traceHammer 0x8 hammer 7
      s.recheck (hammer / 32)
    else s

/-- The accumulators and frozen bits of a soft job at a stage boundary: free values (06 R278, log 88). -/
def State.drawAccs (s : State) : List (Int × Bool) × State :=
  (List.range 4).foldl (fun (r : List (Int × Bool) × State) _ =>
    let a := r.2.draw
    let b := a.2.draw
    (r.1 ++ [(a.1, decide (b.1 % 2 = 1))], b.2)) ([], s)

/-- A placed run starts on the hammer it was placed on, or waits there for its ASB. -/
def State.startPlaced (s : State) (h : Nat) (x : JobKey × Bool × Nat) : State :=
  if s.landed x.1 then s.startRun h x.1 x.2.1 x.2.2 else s.modHammer h fun m => { m with resv := some x }

/-- PREEMPT_STOP: the soft run of a hammer reached its stage boundary; its context is saved and the hammer takes the
run placed on it, or the head of its own list (R125, R126). The pre-empt record is written now, at the stop, since it names
the dispatch that follows (Table 03.7 gives no time for it, log 88). -/
def execPreemptStop (t : Nat) (hammer : Nat) (s : State) : Host.Outcome State Fault Refusal :=
  s.does t fun s =>
    match (s.hammer hammer).run with
    | some (.soft j since true) =>
      let resv := (s.hammer hammer).resv
      let x := s.drawAccs
      let s := x.2.modHammer hammer fun m =>
        { m with run := none, resv := none, ctx := some ({ j with ran := j.ran + (s.core - since), accs := x.1 }, s.core) }
      let next := if s.fenced srcDispatcher then none else (s.takeable (benchOf hammer) hammer).head?
      let s := s.traceSoft 0x3 hammer j (if resv.isSome ∨ next.isSome then hammer else 0xFFFF)
      let s := match resv with
        | some x => s.startPlaced hammer x
        | none => match next with
          | some x => s.takeJob hammer x 1 (benchOf hammer)
          | none => s
      s
    | _ => s

/-- ABANDONED_RUN_STOP: a run whose rival completed stops without commit (R132, R135). -/
def execAbandonedRunStop (t : Nat) (hammer : Nat) (s : State) : Host.Outcome State Fault Refusal :=
  s.does t fun s =>
    match (s.hammer hammer).run with
    | some (.hard r) => if r.abandoned then s.endRun hammer false else s
    | _ => s

/-- ASB_MOVE_LANDED: an axis's ASB is on its new bench; a placed run starts, waiting moves go on, and its jobs may be
dispatched (R29, R54, R140). -/
def execAsbMoveLanded (t : Nat) (axis : Nat) (s : State) : Host.Outcome State Fault Refusal :=
  s.does t fun s =>
    if s.inTransit axis then
      let s := s.modPool fun p => { p with moving := SMap.put 0 p.moving axis 0 }
      let s := s.pool.hammers.foldl (fun s e => match e.2.resv, e.2.run with
        | some (k, copy, dom), none => if s.landed k then s.startRun e.1 k copy dom else s
        | _, _ => s) s
      s.startMoves (s.home axis)
    else s

/-- READY_STALL: a bench's list holds ready work and nothing was dispatched from it for 256 core clocks: the bench is fenced
(R24, R52), unless its valley is in the same core clock (R51). -/
def execReadyStall (t : Nat) (bench : Nat) (s : State) : Host.Outcome State Fault Refusal :=
  s.does t fun s =>
    if s.stalled bench then
      let seg := match (s.list bench).head? with | some j => j.key.num | none => 0
      let gone := s.fencesNow [srcValley (valleyOf bench)]
      let s := s.raiseDone (srcBench bench) 0x05 seg (if gone then 0 else 3) (leBytes 4 256)
      if gone then s else s.fenceBench bench 3 0x05
    else s

/-- The number of the axis or group that a soft job concerns; its valley for one that concerns none. -/
def SoftClass.num (v : Nat) : SoftClass → Nat
  | .resample a => a
  | .ident a _ => a
  | .stat k _ => k
  | .compress => v

/-- FABRIC_TIMEOUT: the transaction of a hammer's job, hard or soft, timed out: the job is re-issued once, and at its second
timeout its valley is fenced; it was aborted 2 µs, 1600 core clocks, after its issue (R30). -/
def execFabricTimeout (t : Nat) (hammer : Nat) (s : State) : Host.Outcome State Fault Refusal :=
  s.does t fun s =>
    let v := s.fabricValley hammer
    match (s.hammer hammer).run with
    | some (.hard r) =>
      (match s.job r.key with
      | none => s
      | some j =>
        if j.timeouts = 0 then
          let s := s.raiseDone (srcValley v) 0x06 r.key.num 1 (leBytes 4 1600)
          let s := (s.modJob r.key fun j => { j with timeouts := 1 }).dropRun hammer r
          s.reissueAfterFault r.key hammer r.since
        else (s.raiseDone (srcValley v) 0x06 r.key.num 4 (leBytes 4 1600)).fenceValley v 10 0x06)
    | some (.soft j _ _) =>
      if j.timeouts = 0 then
        let s := s.raiseDone (srcValley v) 0x06 (j.cls.num v) 1 (leBytes 4 1600)
        let s := s.modHammer hammer fun m => { m with run := none }
        let s := match (s.hammer hammer).resv with
          | some x => (s.modHammer hammer fun m => { m with resv := none }).startPlaced hammer x
          | none => s
        s.requeueSoft { j with timeouts := 1 }
      else (s.raiseDone (srcValley v) 0x06 (j.cls.num v) 4 (leBytes 4 1600)).fenceValley v 10 0x06
    | none => s

end Sys2Proof.Machine
end

