-- ==== Sys2Proof/Machine/Jobs.lean ====
section
/-! DEFINITION. The ends of hard jobs: JOB_COMPLETE and JOB_WATCHDOG, what a job reports, the group job, the mould's
release of telemetry, and the digest of a cycle (02 R69 to R79, 03 R132, 04, 05 R236 to R242, 15 R600). -/

namespace Sys2Proof.Machine

/-! ## Descriptors that end on an axis -/

/-- End a motion descriptor with the result of R286, in cycle (n, m) at position p* (Q48.16). -/
def State.finishMotion (s : State) (n m : Nat) (pos : Int) (x : Nat × Nat) : State :=
  s.finish x.1 x.2 (motionResult n m pos)

/-- End motion descriptors. -/
def State.finishAll (s : State) (n m : Nat) (pos : Int) (l : List (Nat × Nat)) : State :=
  l.foldl (fun s x => s.finishMotion n m pos x) s

/-! ## Identifications (05 R253) -/

/-- An identification of an axis ends, with a status and reason. Blocks already complete stay for their soft jobs. -/
def State.identOver (s : State) (a status reason : Nat) : State :=
  match (s.axis a).ident with
  | none => s
  | some x =>
    if x.ended then s
    else
      let s := s.finish x.id status (leBytes 1 x.posted ++ leBytes 1 x.dropped ++ leBytes 1 reason)
      let s := s.modAxis a fun ax =>
        { ax with ident := if x.full.isEmpty then none
                           else some { x with ended := true, cap := none, k := (x.settle + x.blocks) * 4096 } }
      s.tellTwin (.identEnd a reason)

/-- The same, where the device decides it: a follower leaves to its leader what hangs on soft jobs, end reasons 0 and 4
(15 R596). -/
def State.endIdent (s : State) (a status reason : Nat) : State :=
  if s.following && (decide (reason = 0) || decide (reason = 4)) then s else s.identOver a status reason

/-- An identification all of whose blocks are over is done (end reason 0); of one that has ended, the last block's end leaves
nothing. -/
def State.identDone (s : State) (a : Nat) : State :=
  let s := s.modAxis a fun ax => { ax with identWas := ax.identWas.filter fun x => !x.full.isEmpty }
  match (s.axis a).ident with
  | none => s
  | some x =>
    if x.ended then (if x.full.isEmpty then s.modAxis a fun ax => { ax with ident := none } else s)
    else if (x.settle + x.blocks) * 4096 ≤ x.k ∧ x.full.isEmpty ∧ x.cap.isNone then s.endIdent a stDone 0
    else s

/-- The soft jobs of blocks that a job has completed are issued. -/
def State.identIssue (s : State) (a : Nat) (before : List IdentBlock) : State :=
  match (s.axis a).ident with
  | none => s
  | some x =>
    (x.full.drop before.length).foldl (fun s b => s.issueSoft (.ident a (x.key b.num))) s

/-! ## Marks of an axis (R222, R306, R307, R317, R629) -/

/-- Hold the LIVE state of one axis kind and raise its mark when it goes from 0 to 1. -/
def State.axisCond (s : State) (a kind : Nat) (now : Bool) (detail : List Byte) : State :=
  let src := srcAxis a
  let was := (s.src src).live.contains kind
  if now && !was then (s.liveOn src kind).raise src kind a detail
  else if !now && was then s.liveOff src kind
  else s

/-- The conditions of an axis after its job. `srcM` is the master input of the job. -/
def State.axisConds (s : State) (a : Nat) (srcM : Option Int) (evs : List Ev) : State :=
  let ax := s.axis a
  let far := evs.any fun e => match e with | .mark 0x70 _ => true | _ => false
  let followLost := match ax.mo.src with | .follow f => f.lost | _ => false
  let gearLost := match ax.mo.src with
    | .eng e => e.lost
    | _ => match ax.mo.retained with | some e => e.lost && srcM.isNone | none => false
  let s := s.axisCond a 0x70 far []
  let s := s.axisCond a 0x71 followLost []
  let s := s.axisCond a 0x72 gearLost []
  s.axisCond a 0x74 (ax.ln.master.isSome && !ax.ln.masterOk) []

/-! ## Group paths (07 R309 to R311) -/

/-- Change an interpolation group that is formed. -/
def State.modIGroup (s : State) (g : Nat) (f : IGroup → IGroup) : State :=
  match s.igroups.lookup g with
  | some x => { s with igroups := SMap.insert (SMap.erase s.igroups g) g (f x) }
  | none => s

/-- The position a completion on an axis reports: p*, or p for a TRQ axis (R286). -/
def resultPos (ax : Axis) (pStar : Int) : Int := if ax.set.kind = .trq then ax.fb.p else pStar

/-- The GROUP_MOVE and the stops of a path end in cycle (n, m): each STOP with p* of the member it is aimed at, the GROUP_MOVE
with that of its lowest member (R286; DESIGN CHOICE, log 88: a group has no p* of its own). -/
def State.endPath (s : State) (g n m status : Nat) (x : IGroup) : State :=
  let pos (a : Nat) : Int := resultPos (s.axis a) (s.axis a).mo.pStar
  let s1 := match x.moving with | some i => s.finishMotion n m (pos (x.members.headD 0)) (i, status) | none => s
  let s1 := x.stopIds.foldl (fun s y => s.finishMotion n m (pos y.1) (y.2, stDone)) s1
  s1.modIGroup g fun x => { x with moving := none, arrived := [], stopping := false, stopIds := [] }

/-- A member's path has ended; once every member's has, the GROUP_MOVE and the stops of the path end. -/
def State.pathEnded (s : State) (g a n m : Nat) (stopped : Bool) : State :=
  let s := s.modIGroup g fun x =>
    { x with arrived := if x.arrived.contains a then x.arrived else a :: x.arrived, stopping := x.stopping || stopped }
  match s.igroups.lookup g with
  | none => s
  | some x =>
    if x.members.all x.arrived.contains then s.endPath g n m (if x.stopping then stAborted else stDone) x else s

/-- What a job reports about an axis. -/
def State.axisEv (s : State) (a n m : Nat) (pos : Int) (e : Ev) : State :=
  match e with
  | .finish id st => s.finishMotion n m pos (id, st)
  | .mark _ _ => s
  | .pathEnd g stopped => s.pathEnded g a n m stopped

/-- Everything an axis job reports, with the descriptors that ended at its apply point. -/
def State.axisEvs (s : State) (a n m : Nat) (pos : Int) (srcM : Option Int) (evs : List Ev) : State :=
  let ends := (s.axis a).mo.ending
  let done := (s.axis a).ends
  let s := done.foldl (fun s id => s.finish id stDone (zeros 8)) s
  let s := s.modAxis a fun ax =>
    let mo := ax.mo
    { ax with ends := [], mo := { mo with
      ending := []
      retained := match mo.retained with
        | some e => some { e with lost := e.lost && srcM.isNone }
        | none => none } }
  let s := s.finishAll n m pos ends
  let s := evs.foldl (fun s e => s.axisEv a n m pos e) s
  (s.axisConds a srcM evs).postReady

/-! ## Completing an axis job -/

/-- The node of an axis is muted (09 R409). -/
def State.axisMuted (s : State) (a : Nat) : Bool :=
  match s.nodeOf a with
  | some j => (s.node (a / 64) j).muted
  | none => false

/-- The inputs of the law for a job. -/
def State.lawIn (s : State) (a : Nat) (j : Job) : LawIn :=
  let law := s.force 0x030000
  { n := j.n, m := j.m, j := j.input, closed := j.input.closed, two := j.input.two, step := decide (512 ≤ a),
    extrap := bit law 3, backcalc := bit law 0,
    member := (s.cgroupOf a).map fun e => e.2.velocity,
    cams := s.cams, halt := if 512 ≤ a then some (s.stepCh (a - 512)).e else none }

/-- The segment's bank of the job's cycle has been poured already, or is in this core clock: the job is late (R77, R97). -/
def State.isLate (s : State) (j : Job) : Bool := (s.bank j.seg j.n j.m).poured || s.poursNow j.seg

/-- The record's frame for an axis of a job. -/
def State.recIn (s : State) (a : Nat) (j : Job) (coupled : Bool) : RecIn :=
  { n := j.n, m := j.m, axis := a, held := s.isLate j, mute := s.axisMuted a,
    estop := j.input.estop || s.holding, enable := j.input.enable, coupled := coupled }

/-- The channel status word of a step axis (12 Table 12.1). -/
def State.stepStatus (s : State) (c : Nat) : Nat :=
  let ch := s.stepCh c
  let fenced := s.fenced (srcCode 5 (0x110 + c))
  let on := decide (bits (s.force (pulOff c 0)) 31 30 ≠ 0)
  32768 * b2n (on && !fenced) + 16384 * b2n fenced + 8192 * b2n ch.halted + 4096 * b2n ch.rateLim + 2048 * b2n ch.down

/-- Ends of an identification after a job (R253, end reasons 1, 2 and 3). -/
def State.identLimits (s : State) (a : Nat) (opened : Bool) (e : Int) : State :=
  match (s.axis a).ident with
  | none => s
  | some x =>
    if x.cancel then s.endIdent a stAborted 1
    else if opened ∨ x.halted then s.endIdent a stAborted 2
    else if x.emax ≠ 0 ∧ x.emax < e.natAbs then s.endIdent a stAborted 3
    else s

/-- Finish an axis's law with its coupling term: commit, records and reports. -/
def State.commitAxis (s : State) (a : Nat) (j : Job) (velocity : Bool) (c : Option Int) (coupled : Bool) (ax : Axis)
    (l : Left) : State :=
  let before := match ax.ident with | some x => x.full | none => []
  let r := finishJob (s.recIn a j coupled) velocity c l ax
  let s := s.setAxis a r.1
  let s := s.identIssue a before
  let s := s.identLimits a l.opened l.e
  let s := s.identDone a
  s.record j.seg j.n j.m a r.2.1 r.2.2.1

/-- Complete a step axis's job. -/
def State.completeStep (s : State) (a : Nat) (j : Job) : State :=
  let c := a - 512
  let r := stepJob (s.lawIn a j) (s.axis a)
  let ch := s.stepCh c
  let s := s.setAxis a r.1
  let s := s.axisEvs a j.n j.m r.2.2.ps j.input.srcM r.2.2.ev
  s.record j.seg j.n j.m a (leInt 8 r.2.1) (stepTel (s.recIn a j false) r.1 r.2.2 (s.stepStatus c) (ch.e0 - ch.e1))

/-- The group's job is made once every member has left its values for the cycle; it joins its list in the core clock after
(R110). -/
def State.groupReady (s : State) (g : Nat) (j : Job) : State :=
  match s.cgroups.lookup g with
  | none => s
  | some c =>
    let done (a : Nat) : Bool := match c.left.lookup a with | some l => decide (l.n = j.n ∧ l.m = j.m) | none => false
    if c.members.all done && (s.job (.group g)).isNone then
      s.modPool fun p => { p with joining := p.joining ++ [.group g], jobs := p.jobs ++
        [{ j with key := .group g, len := c.len, ready := false, listedCopy := 0, hasCopy := false, timeouts := 0 }] }
    else s

/-- Change a coupling group that is formed. -/
def State.modCGroup (s : State) (g : Nat) (f : CGroup → CGroup) : State :=
  match s.cgroups.lookup g with
  | some x => { s with cgroups := SMap.insert (SMap.erase s.cgroups g) g (f x) }
  | none => s

/-- Complete a network axis's job: a member leaves its values to the group, any other axis finishes here. -/
def State.completeAxis (s : State) (a : Nat) (j : Job) : State :=
  let r := axisJob (s.lawIn a j) (s.axis a)
  let l := r.2.1
  match s.cgroupOf a with
  | some (g, _) =>
    let s := s.setAxis a r.1
    let s := s.axisEvs a j.n j.m (resultPos r.1 l.pStar) j.input.srcM r.2.2
    (s.modCGroup g fun c => { c with left := SMap.insert (SMap.erase c.left a) a l }).groupReady g j
  | none =>
    let s := s.setAxis a r.1
    let s := s.axisEvs a j.n j.m (resultPos r.1 l.pStar) j.input.srcM r.2.2
    s.commitAxis a j false none false (s.axis a) l

/-- Complete a group job (R237): the members in ascending order, each with the inputs of its own job. A group stays in force
until a COUPLE ends it: an AXIS_CFG that clears S6 of a member, or changes its kind, does not take it out of the group, and c
is still added to it (04 R157 gives no rule for a member without S6: DESIGN CHOICE, log 88). -/
def State.completeGroup (s : State) (g : Nat) (j : Job) : State :=
  match s.cgroups.lookup g with
  | none => s
  | some c =>
    let zs := c.members.map fun a => match c.left.lookup a with | some l => if l.opened then 0 else l.z | none => 0
    (List.range c.members.length).foldl (fun s i =>
      let a := c.members.getD i 0
      match c.left.lookup a with
      | none => s
      | some l =>
        if l.aborted then s
        else
          let t := couplingTerm c zs i
          let ax := s.axis a
          let ax := if l.opened then ax else (ax.flag t.sat fSatCoup).flag t.guard fGuard
          s.commitAxis a { j with input := l.input } (c.velocity && decide (ax.set.kind = .drv)) (if l.opened then none else some t.v) (!l.opened) ax
            { l with pStar := l.pStar }) s

/-- The statistics of a run (14 Table 14.12). -/
def State.statRun (s : State) (k len : Nat) : State :=
  s.modPool fun p => { p with statLong := SMap.put 0 p.statLong k (max (SMap.get 0 p.statLong k) len) }

/-- A hard run of hammer h completes: commit, records, rivals abandoned, next work (R132). -/
def State.completeRun (s : State) (h : Nat) (r : HardRun) (j : Job) : State :=
  let s := s.traceJob 0x5 h r.key (min 0xFFFF (s.core - r.since)) r.copy r.dom true
  let s := s.statRun j.seg (s.core - r.since)
  let s := s.endRun h true
  let s := s.abandonRivals r.key
  let s := s.dropJob r.key
  let s := match r.key with
    | .axis a => if 512 ≤ a then s.completeStep a j else s.completeAxis a j
    | .group g => s.completeGroup g j
  (s.resyncSend j.seg).postReady

/-- A rival run of the same job on a lower-numbered hammer completes in this core clock too (R98). -/
def State.beaten (s : State) (h : Nat) (k : JobKey) : Bool := (s.runsOf k).any fun x => decide (x < h) && s.completesNow x

/-- JOB_COMPLETE: the hard run of a hammer begins its commit. A run that its rival beat, or whose job is gone, commits
nothing (R132), nor does the higher-numbered hammer of two that complete together (R98); a run that completes at the next
report-close point of its segment is left to its abort there (R101). -/
def execJobComplete (t : Nat) (hammer : Nat) (s : State) : Host.Outcome State Fault Refusal :=
  s.does t fun s =>
    match (s.hammer hammer).run with
    | some (.hard r) =>
      if r.abandoned then s
      else
        (match s.job r.key with
        | some j =>
          if s.closesNow j.seg then s
          else if s.beaten hammer r.key then s.endRun hammer true
          else s.completeRun hammer r j
        | none => s.endRun hammer false)
    | _ => s

/-! ## The job watchdog (R17, R19, R79, R239, R240, R248, R651) -/

/-- The identification's cycle of an axis whose job, or whose group's job, was aborted: its excitation goes on, the last sample
repeats (R248), and its ends are judged (R253). -/
def State.identSkip (s : State) (a : Nat) (j : Job) (opened : Bool) (e : Int) : State :=
  match (s.axis a).ident with
  | none => s
  | some x =>
    let k0 := x.k
    let last := x.lastSample k0
    let stale := match j.input.rep with | .valid .. => false | _ => true
    let x1 := (x.excite.2).capture k0 j.n j.m last.1 last.2 false stale true
    let s := s.modAxis a fun ax => { ax with ident := some x1 }
    let s := s.identIssue a x.full
    (s.identLimits a opened e).identDone a

/-- The identifications of a group's members in a cycle whose group job is aborted. -/
def State.groupIdents (s : State) (g : Nat) (j : Job) : State :=
  match s.cgroups.lookup g with
  | none => s
  | some c => c.members.foldl (fun s a =>
      match c.left.lookup a with
      | some l => if l.aborted then s else s.identSkip a { j with input := l.input } l.opened l.e
      | none => s) s

/-- The segment cycle after (n, m). -/
def State.nextCycle (s : State) (k n m : Nat) : Nat × Nat :=
  if m + 1 < 2000 / s.segL k then (n, m + 1) else ((n + 1) % 2 ^ 40, 0)

/-- The descriptors that took effect on axis a in an aborted cycle carry the next job's cycle (R651). -/
def State.deferEffects (s : State) (a : Nat) (j : Job) : State :=
  let nm := s.nextCycle j.seg j.n j.m
  { s with host := { s.host with acc := s.host.acc.map fun e =>
      if e.tgt = a ∧ e.prog = .running j.n j.m then { e with prog := .running nm.1 nm.2 } else e } }

/-- The axis's job of a cycle is aborted: its ASB stays, the mould builds its record, and a group goes on without
it. The z it last left counts, whether or not its loops are open in this cycle: R239 is taken before R238, and a member that
has never left a z contributes 0 (DESIGN CHOICE, log 88). -/
def State.abortAxis (s : State) (a : Nat) (j : Job) : State :=
  let s := (s.identSkip a j false 0).deferEffects a j
  let s := s.recordAbort j.seg j.n j.m a j.input.rep false
  match s.cgroupOf a with
  | some (g, c) =>
    let l : Left := match c.left.lookup a with
      | some l => { l with n := j.n, m := j.m, aborted := true, opened := false, learnOn := false, input := j.input }
      | none => { n := j.n, m := j.m, u5 := 0, vff := 0, tff := 0, z := 0, opened := false, aborted := true, pStar := 0,
                  e := 0, stale := false, learnOn := false, input := j.input }
    (s.modCGroup g fun c => { c with left := SMap.insert (SMap.erase c.left a) a l }).groupReady g j
  | none => s

/-- A job is aborted: R19, R79, R239, R240. `src` raised the mark. -/
def State.abortJob (s : State) (src : Nat) (j : Job) (elapsed : Nat) : State :=
  let s := s.abandonRivals j.key
  let s := s.dropJob j.key
  let s := match j.key with
    | .axis a => s.abortAxis a j
    | .group g => (s.groupIdents g j).recordGroup g j
  s.raiseNow src 0x04 j.key.code (leBytes 4 elapsed)

/-- Run r of hammer h has reached 4 × its job's calibrated length. -/
def HardRun.spent (r : HardRun) (now : Nat) : Bool := !r.abandoned && decide (4 * r.len ≤ now - r.since)

/-- The transaction of hammer h's job times out in this core clock too. -/
def State.timesOutNow (s : State) (h : Nat) : Bool :=
  s.meets fun c => match c with | .fabricTimeout _ x => decide (x = h) | _ => false

/-- The watchdog's mark of a run whose job a higher level's reaction of the same core clock takes over (01 R51, R52). -/
def State.watchdogNote (s : State) (h : Nat) (r : HardRun) : State :=
  s.raiseDone (srcHammer h) 0x04 r.key.code 0 (leBytes 4 (s.core - r.since))

/-- JOB_WATCHDOG: a run has reached 4 × its job's calibrated length; it stops without commit, and the job is aborted
when no run of it remains (R17). When its bench or valley is fenced, or its fabric transaction times out, in the same core
clock, that reaction is taken and only the mark is raised (01 R51, R52). -/
def execJobWatchdog (t : Nat) (hammer : Nat) (s : State) : Host.Outcome State Fault Refusal :=
  s.does t fun s =>
    match (s.hammer hammer).run with
    | some (.hard r) =>
      if !r.spent s.core then s
      else
        (match s.job r.key with
        | some j =>
          let last := decide (s.runsOf r.key = [hammer]) && (s.resvOf r.key).isEmpty && !j.waits
          if s.yields hammer || s.timesOutNow hammer then (if last then s.watchdogNote hammer r else s)
          else
            let s := s.endRun hammer false
            if last then ((s.abortJob (srcHammer hammer) j (s.core - r.since)).resyncSend j.seg).postReady else s
        | none => s.endRun hammer false)
    | _ =>
      match s.pool.lostNow.find? fun e => decide (e.1 = hammer) with
      | some (_, r) => if r.spent s.core && (s.job r.key).any fun j => !j.hasCopy then s.watchdogNote hammer r else s
      | none => s

end Sys2Proof.Machine
end

