-- ==== Sys2Proof/Machine/Soft.lean ====
section
/-! DEFINITION. Soft jobs (03 R104 to R108): the products of RESAMPLE, identification, statistics and trace
compression, and the run-time limit. -/

namespace Sys2Proof.Machine

/-! ## Identification products (05 R250 to R252) -/

/-- The 16 bytes of one bin: CMD real and imaginary, response real and imaginary. -/
def binBytes (a b : Cx) : List Byte := leInt 4 a.1 ++ leInt 4 a.2 ++ leInt 4 b.1 ++ leInt 4 b.2

/-- The data entries of a block's spectra: bins 0 to 2048, two to an entry. -/
def specEntries (a b : List Cx) : List (List Byte) :=
  (List.range 1025).map fun q =>
    let bin (k : Nat) : List Byte := if k ≤ 2048 then binBytes (a.getD k (0, 0)) (b.getD k (0, 0)) else zeros 16
    bin (2 * q) ++ bin (2 * q + 1)

/-- The header entry of a block (Table 05.10). -/
def specHeader (x : Ident) (a : Nat) (blk : IdentBlock) (e1 e2 : Nat) : List Byte :=
  [0x10, BitVec.ofNat 8 (128 * x.exc + 32 * x.rsp)] ++ leBytes 2 a ++ leBytes 2 x.seq ++
    [BitVec.ofNat 8 blk.num, BitVec.ofNat 8 x.blocks] ++ leBytes 3 (tagOf blk.n) ++ [BitVec.ofNat 8 blk.m] ++
    [BitVec.ofNat 8 e1, BitVec.ofNat 8 e2] ++ leBytes 2 1025 ++ leInt 4 x.amp ++ leBytes 4 x.w20 ++ leBytes 4 x.w24 ++
    leBytes 2 blk.clamps ++ [BitVec.ofNat 8 blk.stales, BitVec.ofNat 8 blk.helds]

/-- Write several entries to a ring, with one index. -/
def State.postMany (s : State) (r : Nat) (l : List (List Byte)) : State :=
  (l.foldl (fun s e => s.putEntry r e) s).putIndex r true

/-- The identification of an axis whose block a key names: the last one started, or one before it. -/
def Axis.identOf (ax : Axis) (key : Nat) : Option Ident := (ax.ident.toList ++ ax.identWas).find? fun x => x.id = key / 16

/-- Change the identification whose block a key names. -/
def Axis.modIdent (ax : Axis) (key : Nat) (f : Ident → Ident) : Axis :=
  let g (x : Ident) : Ident := if x.id = key / 16 then f x else x
  { ax with ident := ax.ident.map g, identWas := ax.identWas.map g }

/-- One block of an identification is processed: its spectra are posted whole, or dropped (R252). With the capture ring
disabled they count as dropped, and no mark is raised: R252 names the mark for a ring that lacks room (log 67, DESIGN
CHOICE). -/
def State.identBlock (s : State) (a key : Nat) : State :=
  match (s.axis a).identOf key with
  | none => s
  | some x =>
    match x.full.find? fun b => b.num = key % 16 with
    | none => s
    | some b =>
      let cmd := fft 12 (b.samples.reverse.map (·.1))
      let rsp := fft 12 (b.samples.reverse.map (·.2))
      let rest := x.full.filter fun c => decide (c.num ≠ key % 16)
      let fits := (s.ringOf 28).on && s.room 28 1026
      let f (x : Ident) : Ident :=
        if fits then { x with full := rest, posted := x.posted + 1 } else { x with full := rest, dropped := x.dropped + 1 }
      let s := s.modAxis a fun ax => ax.modIdent key f
      let s :=
        if fits then s.postMany 28 (specHeader x a b cmd.2 rsp.2 :: specEntries cmd.1 rsp.1)
        else if (s.ringOf 28).on then
          (let s := s.ringDrops 28 1026
           s.raise (srcRing 28) 0x2C 28 (leBytes 4 (s.ringOf 28).dropNow))
        else s
      s.identDone a

/-! ## The products of a soft job -/

/-- Sixteen bytes the spec does not state (the compressed form of trace records), drawn as free values (log 7). -/
def State.freeEntry (s : State) : List Byte × State :=
  let a := s.draw
  let b := a.2.draw
  (leInt 8 a.1 ++ leInt 8 b.1, b.2)

/-- A soft job writes its products (Table 03.1). The compressed form of trace records the spec does not give: the entries that
stand for the waiting records, at least one and no more than they are, are free values (log 7). -/
def State.softProduct (s : State) (c : SoftClass) : State :=
  match c with
  | .resample a => s.modAxis a fun ax =>
      match ax.ln.resample with
      | some r => { ax with ln := { ax.ln with resample := some { r with scratch := some (resampleTable ax.ln.bins ax.ln.log2n r.log2n) } } }
      | none => ax
  | .ident a key => s.identBlock a key
  | .stat k area => s.statusWrite (0x400 + 32 * k) area
  | .compress =>
    let d := s.draw
    let n := s.pool.traceBuf.length
    (List.range (if n = 0 then 0 else d.1.natAbs % n + 1)).foldl (fun s _ => let e := s.freeEntry; e.2.traceEntry e.1)
      (d.2.modPool fun p => { p with traceBuf := [] })

/-- A soft job is abandoned (R108, R231, R253). -/
def State.softAbandon (s : State) (c : SoftClass) : State :=
  match c with
  | .resample a => s.modAxis a fun ax =>
      match ax.ln.resample with
      | some r => { ax with ln := { ax.ln with resample := some { r with failed := true } } }
      | none => ax
  | .ident a key =>
    let s := s.modAxis a fun ax => ax.modIdent key fun x => { x with full := x.full.filter fun b => decide (b.num ≠ key % 16) }
    let s := match (s.axis a).ident with
      | some x => if x.id = key / 16 then s.endIdent a stFailedHw 4 else s
      | none => s
    s.identDone a
  | .compress => s.modPool fun p => { p with traceBuf := [] }
  | .stat .. => s

/-- The hammer is free again: a run placed on it starts, then dispatch goes on. A request of the same core clock passes to the
next victim instead, where there is one (R151). -/
def State.freeHammer (s : State) (h : Nat) : State :=
  let m := s.hammer h
  let s := s.modHammer h fun m => { m with run := none, resv := none }
  let s := match m.resv with
    | none => s
    | some x =>
      let next := if m.askedAt = s.core + 1 then (s.job x.1).bind s.placePre else none
      match next with
      | some (v, dom) => (s.askStop v).modHammer v fun m => { m with resv := some (x.1, x.2.1, dom) }
      | none => s.startPlaced h x
  s.postReady

/-- SOFT_JOB_COMPLETE: the soft job of a hammer ends and writes its products; a pre-emption asked of it passes on
(R104, R151). -/
def execSoftJobComplete (t : Nat) (hammer : Nat) (s : State) : Host.Outcome State Fault Refusal :=
  s.does t fun s =>
    match (s.hammer hammer).run with
    | some (.soft j since _) => ((s.traceSoft 0x5 hammer j (min 0xFFFF (j.ran + (s.core - since)))).softProduct j.cls).freeHammer hammer
    | _ => s

/-- The run-time limit of a soft job in core clocks (Table 03.11). -/
def State.softLimit (s : State) : Nat := max 1000 (bits (s.force 0x020020) 23 0) * 800

/-- SOFT_LIMIT: a soft job has run longer than SCH_SOFT_LIMIT and is abandoned (R108). -/
def execSoftLimit (t : Nat) (hammer : Nat) (s : State) : Host.Outcome State Fault Refusal :=
  s.does t fun s =>
    match (s.hammer hammer).run with
    | some (.soft j since _) =>
      if s.softLimit < j.ran + (s.core - since) then
        ((s.raise (srcHammer hammer) 0x0E 0 []).softAbandon j.cls).freeHammer hammer
      else s
    | _ => s

end Sys2Proof.Machine
end

