-- ==== Sys2Proof/Machine/Checks.lean ====
section
/-! DEFINITION. The frame of a descriptor's effect: its record, its apply point, its rejections, and the checks on its
payload that rest on no state (14 R559, R563; the owning chapters' ranges). -/

namespace Sys2Proof.Machine

/-! ## The apply point of a descriptor -/

/-- An apply point: its cycle, whether the target's job of the cycle is still to commit, and the axes on which a stop
started here (07 R333). -/
structure Ctx where
  n : Nat
  m : Nat
  job : Bool
  stopped : List Nat := []
  deriving DecidableEq, Repr

/-- Reject a descriptor with a status that carries no offset. -/
def State.reject (s : State) (e : Entry) (status : Nat) : State := s.finish e.id status (zeros 8)

/-- Reject a descriptor with the offset of the byte at fault (R559). -/
def State.rejectAt (s : State) (e : Entry) (status off : Nat) : State := s.finish e.id status (leBytes 2 off ++ zeros 6)

/-- A descriptor has taken effect and ends DONE: with the job of its axis where one runs, else at once (R651). -/
def State.doneOn (s : State) (c : Ctx) (e : Entry) (a : Nat) : State :=
  if c.job then s.modAxis a fun ax => { ax with ends := ax.ends ++ [e.id] } else s.finish e.id stDone (zeros 8)

/-- Motion descriptors end on an axis: with the job of the cycle, else at once (R286). -/
def State.endMotion (s : State) (c : Ctx) (a : Nat) (l : List (Nat × Nat)) : State :=
  if c.job then s.modAxis a fun ax => { ax with mo := { ax.mo with ending := ax.mo.ending ++ l } }
  else s.finishAll c.n c.m (resultPos (s.axis a) (s.axis a).mo.pStar) l

/-! ## Masters (05 R217, R218, R222) -/

/-- The master value of an axis as last committed or posted, and its validity. -/
def State.masterVal (s : State) (a : Nat) : MasterVal :=
  if 528 ≤ a then SMap.get ⟨0, false⟩ s.posted a
  else
    let ax := s.axis a
    let lost : Bool := match s.nodeOf a with
      | some j => decide (a < 512) && decide (8 ≤ (s.node (a / 64) j).missRun)
      | none => false
    ⟨(sat 64 (ax.fb.p + ax.fb.v)).v, !lost && !ax.fault⟩

/-- p_M of a master, none when it is invalid. -/
def State.masterPos (s : State) (a : Nat) : Option Int :=
  let v := s.masterVal a
  if v.valid then some v.pos else none

/-- An axis may serve as master of a network or step axis: another network axis of its segment, a virtual master or a
feedback axis (R217). -/
def State.masterOk (s : State) (a m : Nat) : Bool :=
  if 528 ≤ a then decide (560 ≤ m ∧ m < 568) || decide (528 ≤ m ∧ m < a)
  else decide (528 ≤ m ∧ m < 568) || (decide (m < 512 ∧ m ≠ a) && decide (s.segOf a = some (m / 64)))

/-! ## Loops (04 R166, R167) -/

/-- The loops may be closed in the device's mode: RUN, DEGRADED entered from RUN, SAFE_HOLD (where axes stop), or
FOLLOW of a leader in one of them. -/
def State.modeCloses (s : State) : Bool :=
  match s.pw.mode with
  | .run => true
  | .degraded => decide (s.pw.degradedFrom = .run)
  | .safeHold => true
  | .follow => decide (s.tw.peerMode = 5 ∨ s.tw.peerMode = 6)
  | _ => false

/-- The node of a network axis is integrated and drives it, which a spare does for the axes it was granted for; an axis that no
node drives counts as such (R377, R379, R398). -/
def State.nodeLive (s : State) (a : Nat) : Bool :=
  match s.nodeOf a with
  | some j => decide (512 ≤ a) || decide ((s.node (a / 64) j).st = .live) && (s.nodeAxes (a / 64) j).contains a
  | none => true

/-- The loops of an axis are closed at this apply point. A virtual master has no loops: its generator always runs. -/
def State.loopsClosed (s : State) (a : Nat) : Bool :=
  let ax := s.axis a
  decide (528 ≤ a) || decide (ax.mode = .closed) && !ax.heldOpen && s.modeCloses && s.nodeLive a &&
    (match s.segOf a with | some k => !s.stopActs k | none => true)

/-- The segment of an axis is halved (R332). -/
def State.twoSteps (s : State) (a : Nat) : Bool := match s.segOf a with | some k => (s.seg k).halved | none => false

/-! ## Ranges that rest on no state -/

/-- The exponent of a coefficient is outside -16 to 15: the offset of its exponent byte. -/
def expFault (c : Coef) (off : Nat) : Option Nat := if (Coef.expOk c) then none else some (off + 4)

/-- A coefficient outside an interval given in units of 2^-47: the offset at fault. -/
def coefFault (c : Coef) (off : Nat) (lo hi : Int) : Option Nat :=
  if !(Coef.expOk c) then some (off + 4) else if (Coef.val c) < lo ∨ hi < (Coef.val c) then some off else none

/-- The first fault of a list. -/
def firstFault (l : List (Option Nat)) : Option Nat := l.findSome? id

/-- A value outside an interval: the offset of its field. -/
def rangeOf (x lo hi : Int) (off : Nat) : Option Nat := if x < lo ∨ hi < x then some off else none

/-- The ranges of a SETC (R189). -/
def setcFault (index : Nat) (v : Coef) : Option Nat :=
  if (0x1B ≤ index ∧ index ≤ 0x1F) ∨ 0x39 ≤ index then some 12
  else if index ≤ 0x2F then expFault v 14
  else if index = 0x30 then coefFault v 14 1 coefUnit
  else if v.e ≠ 0 then some 18
  else if index = 0x31 ∨ index = 0x34 then rangeOf v.m 1 0x7FFFFFFF 14
  else if index = 0x32 ∨ index = 0x33 ∨ index = 0x36 then rangeOf v.m 0 0x7FFFFFFF 14
  else if index = 0x35 then rangeOf v.m (-0x80000000) (-1) 14
  else none

/-- The ranges of a LOADSET (R189, R200). -/
def loadsetFault (first : Nat) (vals : List Coef) : Option Nat :=
  let last := first + vals.length - 1
  if (0x1B ≤ first ∧ first ≤ 0x1F) ∨ 0x30 ≤ first then some 12
  else if ¬ (last ≤ 0x1A ∨ (0x20 ≤ first ∧ last ≤ 0x2F)) then some 0
  else firstFault ((List.range vals.length).map fun i => expFault (vals.getD i Coef.zero) (14 + 5 * i))

/-- The ranges of the LEARN functions (Table 05.3) that rest on no state. -/
def learnFault : LearnFn → Option Nat
  | .mode _ => none
  | .master l _ p _ => firstFault [rangeOf l 8 11 13, rangeOf p 0x10000 0x7FFFFFFFFFFFFFFF 16]
  | .gains _ _ kl ff => firstFault [expFault kl 16, coefFault ff 21 (coefUnit / 2) coefUnit]
  | .shape s0 s1 lmin llim =>
    firstFault [coefFault s0 14 0 coefUnit, coefFault s1 19 0 coefUnit, rangeOf lmin 1 0x7FFFFFFF 24, rangeOf llim 0 0x7FFFFFFF 28]
  | .clear => none

/-- The number of bits set in a mask. -/
def popcount (m : Nat) : Nat := ((List.range 64).filter fun i => bit m i).length

/-- The ranges of an IDENT START (Table 05.9). -/
def identFault : IdentFn → Option Nat
  | .start exc _ m settle a w20 w24 emax =>
    firstFault ([rangeOf m 1 16 14, rangeOf settle 0 15 15, rangeOf a 1 0x20000000 16] ++
      (if exc = 0 then [rangeOf w20 0 0x80000000 20, rangeOf w24 0 0x80000000 24]
       else [rangeOf (w20 % 2 ^ 16 : Nat) 1 0xFFFF 20, rangeOf (w24 % 256 : Nat) 1 16 24]) ++ [rangeOf emax 0 0x7FFFFFFF 28])
  | .cancel => none

/-- The kind of a code. -/
def AxisKind.ofCode (c : Nat) : AxisKind := if c = 0 then .pos else if c = 1 then .vel else if c = 2 then .drv else .trq

/-- Stage enables, by the bits of AXIS_CFG byte 15, that Table 04.1 excludes for a kind. -/
def stagesExcluded (k : AxisKind) : Nat :=
  match k with
  | .pos => 0
  | .vel => 1
  | .drv => 0x3F
  | .trq => 1

/-- The byte of an AXIS_CFG that conflicts with its target, if any (R157, R325). -/
def axisCfgFault (a : Nat) (x : AxisCfg) : Option Nat :=
  let k := AxisKind.ofCode x.kind
  if 528 ≤ a then (if a < 560 ∧ (x.faultPol = 0 ∨ x.stopPol = 0) then some 16 else none)
  else if 512 ≤ a then none
  else if x.stages &&& stagesExcluded k ≠ 0 then some 15
  else if k ≠ .trq ∧ (x.faultPol = 0 ∨ x.stopPol = 0) then some 16
  else none

/-- Two neighbouring thresholds differ by 2 × H or less (R191). -/
def terraceClose (n : Nat) (t1 t2 t3 h : Int) : Bool :=
  (decide (3 ≤ n) && decide (t2 - t1 ≤ 2 * h)) || (decide (4 ≤ n) && decide (t3 - t2 ≤ 2 * h))

/-- The first byte of a descriptor's payload that lies outside a range that rests on no state (R559 check 5). -/
def rangeFault (op : DOp) (tgt : Nat) : Option Nat :=
  match op with
  | .limits v a d _ j =>
    firstFault [rangeOf v 1 0x7FFFFFFF 12, rangeOf a 1 0xFFFFFFFF 16, rangeOf d 1 0xFFFFFFFF 20,
      rangeOf j 1 0xFFFFFFFF 28]
  | .follow ai _ src g _ => firstFault [rangeOf src 0 (if ai then 7 else 567) 14, expFault g 16]
  | .gear _ _ _ m _ => if m = 0 then some 20 else none
  | .groupMove (.define seg _) => rangeOf seg 0 7 13
  | .phaseIn w => rangeOf w 0x10000 0x7FFFFFFFFFFFFFFF 16
  | .setc i _ v => setcFault i v
  | .loadset f _ vals => loadsetFault f vals
  | .terrace _ n b _ _ _ _ => firstFault [rangeOf n 1 4 12, rangeOf b 1 256 14]
  | .learn f => learnFault f
  | .resample l _ => rangeOf l 8 11 12
  | .couple (.define _ _ mask clim) =>
    if popcount mask = 0 ∨ 16 < popcount mask then some 14 else rangeOf clim 0 0x7FFFFFFF 22
  | .couple (.load _ vals) =>
    if vals.length = 0 ∨ 3 < vals.length then some 13
    else firstFault ((List.range vals.length).map fun i => expFault (vals.getD i Coef.zero) (16 + 5 * i))
  | .ident f => identFault f
  | .camLoad _ k sp _ _ => firstFault [rangeOf k 2 8192 14, if sp < 0x10000 then some 0 else none]
  | .axisCfg c =>
    firstFault ((if tgt < 512 then [rangeOf c.fbFrac 0 16 13, rangeOf c.vffFrac 0 8 14] else []) ++ [expFault c.catchK 18])
  | .unmute seg node => firstFault [rangeOf seg 0 7 12, rangeOf node 1 40 14]
  | .nodeReq seg node fn _ data =>
    firstFault [rangeOf seg 0 7 12, rangeOf node 1 40 14, rangeOf fn 0x40 0xFF 15, rangeOf data.length 0 252 24]
  | .trace _ _ _ _ lo hi => firstFault [rangeOf lo 0 0x237 16, rangeOf hi 0 0x237 18]
  | _ => none

/-- What the owning chapters check of a descriptor with no state (R559 check 5): status and offset, 0 where no single byte
carries the fault. -/
def payloadFault (op : DOp) (tgt : Nat) : Option (Nat × Nat) :=
  match rangeFault op tgt with
  | some off => some (stRejRange, off)
  | none =>
    match op with
    | .limits _ _ d e _ => if e < d then some (stRejIncons, 0) else none
    | .axisCfg x => (axisCfgFault tgt x).map fun off => (stRejIncons, off)
    | .terrace _ n _ t1 t2 t3 h => if terraceClose n t1 t2 t3 h then some (stRejIncons, 0) else none
    | _ => none

/-! ## Admission of a descriptor (02 R81, R89) -/

/-- What a segment's admission rests on: the lengths of its jobs. -/
def State.loadSig (s : State) (k : Nat) : List Nat × List Nat :=
  ((s.segAxes k).map s.lambda, (s.segGroups k).map fun e => e.2.len)

/-- The change from `s` to `s'` is admitted for a segment: it changes no length, or the valley still passes. -/
def admitChange (s s' : State) (k : Nat) : Bool := decide (s.loadSig k = s'.loadSig k) || s'.admitsSeg k

/-- Apply a change of an axis's load, or reject the descriptor with none of its payload. A follower takes the leader's
result, which the TAG carries (15 R596). -/
def State.admitted (s : State) (e : Entry) (seg : Option Nat) (s' : State) : State :=
  match seg with
  | some k => if s.tw.role = .follower ∨ admitChange s s' k = true then s' else s.reject e stRejCap
  | none => s'

/-! ## The command form of a descriptor -/

/-- The learning snapshot slots of the NV store (18 R745). -/
def snapBase : Nat := 0x1100000

/-- The axis whose snapshot slot holds an NV address, for a transfer without a buffer (18 R745). -/
def snapAxis (addr buf : Nat) : Option Nat :=
  if buf = 0 ∧ snapBase ≤ addr ∧ (addr - snapBase) / 0x2400 < 512 then some ((addr - snapBase) / 0x2400) else none

/-- The segment whose apply points a descriptor takes: that of its axis, of its group, of a node request or of the axis
of a learning snapshot. -/
def State.targetSeg (s : State) (op : DOp) (tgt : Nat) : Option Nat :=
  match op with
  | .unmute k _ => some k
  | .nodeReq k .. => some k
  | .groupMove (.define k _) => some k
  | .groupMove _ => (s.igroups.lookup tgt).map (·.seg)
  | .couple (.define _ k _ _) => some k
  | .couple _ => (s.cgroups.lookup tgt).map (·.seg)
  | .nvWrite addr buf _ _ => (snapAxis addr buf).map (· / 64)
  | .nvRead addr buf _ => (snapAxis addr buf).map (· / 64)
  | _ => if tgt < 528 then s.segOf tgt else none

/-- The cycle (N, m) that a descriptor taking effect now carries. -/
def State.applyCycle (s : State) (op : DOp) (tgt : Nat) : Nat × Nat :=
  match s.targetSeg op tgt with
  | some k => (s.cyc, if s.segRuns k then s.minor k else 0)
  | none => if 528 ≤ tgt ∧ tgt < 560 then (s.cyc, s.gran / 250) else (s.cyc, 0)

/-- The opcodes that pass check 3 of R559 in SAFE_HOLD. -/
def safeHoldOpc (o : Nat) : Bool := o ∈ [0x01, 0x02, 0x03, 0x51, 0x62, 0x63, 0x70]

/-- The opcodes of 07 Table 07.1 but LIMITS, which COMMISSION and IDLE exclude (18 R734). -/
def motionOpc (o : Nat) : Bool := decide (0x10 ≤ o ∧ o ≤ 0x1A ∧ o ≠ 0x14)

/-- The controller's mode excludes an opcode (R559 check 3). -/
def State.modeExcludes (s : State) (o : Nat) : Bool :=
  (decide (s.pw.mode = .safeHold) && !safeHoldOpc o) ||
    (decide (s.pw.mode = .commission ∨ s.pw.mode = .idle) && motionOpc o)

/-- The record of a descriptor that arrives as a command: the next identity, the device's own index of its ring, and the
cycle it runs in. -/
def State.cmdEntry (s : State) (h : DHdr) (op : DOp) : Entry :=
  let nm := s.applyCycle op h.tgt
  { id := s.host.nextId, ring := h.ring, pos := (s.ringOf h.ring).own, seq := h.seq, irq := h.irq, tgt := h.tgt, op := op,
    due := .next, accN := s.cyc, accT := s.now, prog := .running nm.1 nm.2, tagged := none, seg := s.targetSeg op h.tgt,
    crc := 0 }

/-- The apply point at which such a descriptor takes effect. -/
def State.cmdCtx (s : State) (h : DHdr) (op : DOp) : Ctx :=
  let nm := s.applyCycle op h.tgt
  { n := nm.1, m := nm.2, job := (s.job (.axis h.tgt)).isSome }

/-- The record of such a descriptor is made. -/
def State.cmdTaken (s : State) (h : DHdr) (op : DOp) : State :=
  { s with host := { s.host with nextId := s.host.nextId + 1, acc := s.host.acc ++ [s.cmdEntry h op] } }

/-- A descriptor arriving as a command takes effect now: its record is made, the checks that rest on no state are
applied, then its effect `f`, and the completions that are due are posted. -/
def State.runDescr (s : State) (h : DHdr) (op : DOp) (f : Ctx → Entry → State → State) : State :=
  let e := s.cmdEntry h op
  let c := s.cmdCtx h op
  let s := s.cmdTaken h op
  let s :=
    if !tgtOk (opcOf op) h.tgt then s.rejectAt e stRejRange 4
    else if s.modeExcludes (opcOf op) then s.reject e stRejMode
    else
      match payloadFault op h.tgt with
      | some b => s.rejectAt e b.1 b.2
      | none => f c e s
  s.postReady

end Sys2Proof.Machine
end

