-- ==== Sys2Proof/Machine/Feedback.lean ====
section
/-! DEFINITION. Encoder ports and latch inputs (11): counts, the index, sine/cosine samples, speed windows, the
divided-pulse output, encoder supplies, latch events and their capture-ring entries. -/

namespace Sys2Proof.Machine

/-- Register d of encoder port p. -/
def fbOff (p d : Nat) : Nat := 0x0D0000 + 0x40 * p + d

/-- Encoder port p as a source of marks (16 Table 16.3). -/
def srcPort (p : Nat) : Nat := srcCode 5 (0x100 + p)

/-- FBP_PpCFG.MODE: 0 OFF, 1 QUAD, 2 SINCOS. -/
def State.portMode (s : State) (p : Nat) : Nat := bits (s.force (fbOff p 0)) 31 30

/-- FBP_PpCFG.DIR_INV. -/
def State.portInv (s : State) (p : Nat) : Bool := bit (s.force (fbOff p 0)) 29

/-- FBP_PpCFG.SUP_EN. -/
def State.portSup (s : State) (p : Nat) : Bool := bit (s.force (fbOff p 0)) 28

/-- The count of a port is valid (R462). -/
def State.portValid (s : State) (p : Nat) : Bool :=
  let g := s.port p
  decide (s.portMode p ≠ 0) && (!s.portSup p || (g.supOn && g.settled)) && !g.ampl && !g.wire && !g.supOvl

/-- The count of a port becomes invalid in the present sample by an event still to come (R497, R500). -/
def State.spoilsNow (s : State) (p : Nat) : Bool :=
  s.meetsFb fun c => match c with
    | .fbpWire _ q => decide (q = p ∧ s.portMode p = 1)
    | .fbpAmpl _ q => decide (q = p ∧ s.portMode p = 2)
    | .encSupplyOvl _ q => decide (q = p) && (s.port p).supOn
    | .encSupplyTotalOvl _ => decide ((List.range 8).reverse.find? (fun q => (s.port q).supOn) = some p)
    | _ => false

/-- The supply of a port comes to count as settled in the present sample. -/
def State.settlesNow (s : State) (p : Nat) : Bool :=
  let g := s.port p
  g.supOn && decide (g.onAt + bits (s.force (fbOff p 0)) 11 8 * 40000000 ≤ s.now) &&
    s.meetsFb fun c => match c with | .encSupplySettled _ q => decide (q = p) | _ => false

/-- The count of a port is valid once every event of the present sample has been taken (R500). -/
def State.portValidAfter (s : State) (p : Nat) : Bool :=
  let g := s.port p
  decide (s.portMode p ≠ 0) && (!s.portSup p || (g.supOn && (g.settled || s.settlesNow p))) && !g.ampl && !g.wire && !g.supOvl &&
    !s.spoilsNow p

/-- The count of a port is or becomes invalid: the speed window in progress is spoilt (R479). -/
def State.spoilPort (s : State) (p : Nat) : State := s.modPort p fun g => { g with invalidIn := true }

/-! ## Entries of the capture ring (R493, R494) -/

/-- Post one latch or index entry. -/
def State.capture (s : State) (e : List Byte) : State :=
  if (s.ringOf 28).on then
    (if s.room 28 1 then (s.putEntry 28 e).putIndex 28 true
     else ({ s with host := { s.host with latDrop := (s.host.latDrop + 1) % 2 ^ 32 } }.ringDrops 28 1).raiseOnce (srcRing 28) 0x2C 28 (leBytes 4 ((s.ringOf 28).dropNow + 1)))
  else s

/-! ## Counting (R461, R467, R480, R482) -/

/-- The divider takes `n` counts: accumulator, backlog without its limit (R480). -/
def FbPort.divide (g : FbPort) (num den n : Int) : FbPort :=
  if den ≤ 0 then g
  else
    let x := g.acc + n * num
    { g with acc := x.tmod den, backlog := g.backlog + x.tdiv den }

/-- The count of a valid port moves by `n`, and the divided output with it. -/
def State.count (s : State) (p : Nat) (n : Int) : State :=
  let div := s.force (fbOff p 0x0C)
  let on := bit (s.force (fbOff p 0x10)) 31
  let g := s.port p
  let eve : Option (Nat × BitVec 32 × Bool × Bool) :=
    match g.eve with
    | some x => if x.1 = s.now / 20 then some x else some (s.now / 20, g.cnt, g.up, g.down)
    | none => some (s.now / 20, g.cnt, g.up, g.down)
  let g := { g with cnt := g.cnt + BitVec.ofInt 32 n, up := g.up || decide (0 < n), down := g.down || decide (n < 0), eve := eve }
  let g := if on then g.divide (bits div 31 16) (bits div 15 0) n else g
  let lost := decide (255 < g.backlog.natAbs)
  let first := lost && !g.divLost
  let g := { g with backlog := clampI g.backlog (-255) 255, divLost := g.divLost || lost }
  let s := s.modPort p fun _ => g
  if first then s.raise (srcPort p) 0x24 0 [] else s

/-- QUADRATURE_COUNT: exactly one filtered line changed; `up` says that A leads B (R461, R467). -/
def execQuadratureCount (t port : Nat) (up : Bool) (s : State) : Host.Outcome State Fault Refusal :=
  s.does t fun s =>
    if s.portMode port = 1 ∧ s.portValid port then s.count port (if up = s.portInv port then -1 else 1) else s

/-- ILLEGAL_TRANSITION: both filtered lines changed in one sample (R467, R468). -/
def execIllegalTransition (t port : Nat) (s : State) : Host.Outcome State Fault Refusal :=
  s.does t fun s =>
    if s.portMode port ≠ 1 then s
    else
      let first := !(s.port port).illegal
      let s := s.modPort port fun g => { g with illegal := true, illcnt := min 0xFFFF (g.illcnt + 1) }
      if first then
        let s := s.raise (srcPort port) 0x20 0 []
        { s with asy := { s.asy with once := (srcPort port, 0x20) :: s.asy.once } }
      else s.raiseOnce (srcPort port) 0x20 0 []

/-- The index entry of a port (Table 11.4). -/
def indexEntry (p : Nat) (first : Bool) (mt : Nat) (cnt : BitVec 32) (seq : Nat) : List Byte :=
  [0x21, BitVec.ofNat 8 (8 * b2n first + p)] ++ leBytes 2 (560 + p) ++ leBytes 8 mt ++ leBytes 4 cnt.toNat ++ zeros 7 ++
    leBytes 1 seq ++ zeros 8

/-- The count that the present sample still brings a port (R496). -/
def State.countsNow (s : State) (p : Nat) : Int :=
  if s.portMode p ≠ 1 ∨ ¬ s.portValid p then 0
  else
    (s.pending.takeWhile fun c => decide (c.time / 20 ≤ s.now / 20)).foldl (fun n c => match c with
      | .quadratureCount _ q up => if q = p then n + (if up = s.portInv p then -1 else 1) else n
      | _ => n) 0

/-- INDEX_EDGE: a qualified index; its time is that of the sample less the filter. IDX takes CNT after the count of the same
sample, and an index in a sample that makes the count invalid is ignored (R470, R471, R483, R496, R497). -/
def execIndexEdge (t port : Nat) (s : State) : Host.Outcome State Fault Refusal :=
  s.does t fun s =>
    let cfg := s.force (fbOff port 0)
    let zmode := bits cfg 19 18
    let g := s.port port
    if ¬ s.portValid port ∨ s.spoilsNow port ∨ zmode = 0 ∨ (zmode = 2 ∧ g.firstTaken = true) then s
    else
      let mt := toU 64 ((s.mt : Int) - 5 * max 1 (bits cfg 23 20))
      let cnt := g.cnt + BitVec.ofInt 32 (s.countsNow port)
      let s1 := s.modPort port fun g =>
        { g with idx := cnt, idxSeen := true, firstTaken := true, seq := (g.seq + 1) % 256 }
      let s1 := s1.capture (indexEntry port (decide (zmode = 2)) mt cnt g.seq)
      let w := s.force (fbOff port 0x10)
      if bit w 31 && bit w 30 then s1.emit (.index port (max 1 (bits w 23 16))) else s1

/-- FBP_WIRE: a line fault on a quadrature receiver (R469). -/
def execFbpWire (t port : Nat) (s : State) : Host.Outcome State Fault Refusal :=
  s.does t fun s =>
    if s.portMode port ≠ 1 ∨ (s.port port).wire = true then s
    else ((s.modPort port fun g => { g with wire := true }).spoilPort port).raise (srcPort port) 0x21 0 []

/-! ## Sine/cosine samples (R472 to R475) -/

/-- AMPL sets: the count becomes invalid, and the angle reference is taken anew after the clear (R474, R475). -/
def State.setAmpl (s : State) (p : Nat) : State :=
  ((s.modPort p fun g => { g with ampl := true, angle := none }).spoilPort p).raise (srcPort p) 0x23 0 []

/-- FBP_AMPL: two pairs in a row left the amplitude window (R474). -/
def execFbpAmpl (t port : Nat) (s : State) : Host.Outcome State Fault Refusal :=
  s.does t fun s =>
    if s.portMode port ≠ 2 ∨ (s.port port).ampl = true then s else s.setAmpl port

/-- OVERSPEED sets, with its mark when the flag was 0 (R473). -/
def State.setOverspeed (s : State) (p : Nat) : State :=
  if (s.port p).overspeed then s
  else (s.modPort p fun g => { g with overspeed := true }).raise (srcPort p) 0x22 0 []

/-- FBP_OVERSPEED: a step difference above 384 in one sample (R473). -/
def execFbpOverspeed (t port : Nat) (s : State) : Host.Outcome State Fault Refusal :=
  s.does t fun s => if s.portMode port ≠ 2 then s else s.setOverspeed port

/-- The steps of 2π/1024 that a vector of the first quadrant lies beyond the first axis, rounded down. -/
def quadStep (c s : Int) : Int :=
  bisect 8 (fun k => if k = 128 then decide (c ≤ s) else decide (c * sinFix k.toNat 1024 ≤ s * sinFix (k.toNat + 256) 1024)) 0

/-- The angle atan2(s, c) in steps of 2π/1024 rounded down; its quadrant decides which quarter it lies in. -/
def angleFloor (s c : Int) : Int :=
  if 0 < c ∧ 0 ≤ s then quadStep c s
  else if c ≤ 0 ∧ 0 < s then 256 + quadStep s (-c)
  else if c < 0 ∧ s ≤ 0 then 512 + quadStep (-c) (-s)
  else 768 + quadStep (-s) c

/-- A sine/cosine pair lies exactly on a step, so that nothing is quantised. -/
def onStep (s c : Int) : Bool := decide (s = 0 ∨ c = 0 ∨ s.natAbs = c.natAbs)

/-- θ of R472: one of the two steps next to the angle, which of them the spec leaves open (log 8). -/
def angleOf (s c : Int) : Nat :=
  ((angleFloor s c + (if onStep s c then 0 else b2n (Config.angleUp s c))) % 1024).toNat

/-- The amplitude test of R474. -/
def ampOk (sc : Nat) (s c : Int) : Bool :=
  let nom : Int := bits sc 13 0
  let lo : Int := bits sc 23 16
  let hi : Int := bits sc 31 24
  let q := 10000 * (s * s + c * c)
  decide (lo * lo * nom * nom ≤ q ∧ q ≤ hi * hi * nom * nom)

/-- The step difference of R472, in -512 to 511. -/
def stepDiff (k prev : Nat) : Int := ((k : Int) - prev + 512) % 1024 - 512

/-- SINCOS_SAMPLE: a converted pair; the angle, the count and the amplitude test (R472 to R475). A pair of zeros has
no angle, and its step is a free value (log 7). -/
def execSincosSample (t port : Nat) (sin cos : Int) (s : State) : Host.Outcome State Fault Refusal :=
  s.does t fun s =>
    if s.portMode port ≠ 2 then s
    else
      let pass := ampOk (s.force (fbOff port 8)) sin cos
      let ang : Nat × State := if sin = 0 ∧ cos = 0 then (let d := s.draw; (toU 10 d.1, d.2)) else (angleOf sin cos, s)
      let s := ang.2
      let g := s.port port
      let valid := s.portValid port
      let d := match g.angle with | some k => stepDiff ang.1 k | none => 0
      let s := s.modPort port fun g =>
        { g with ampFails := if pass then 0 else min 2 (g.ampFails + 1),
                 angle := if g.angle.isSome ∨ pass then (if g.ampl then none else some ang.1) else none }
      let fails := (s.port port).ampFails
      if valid then
        (let s := if d = 0 then s else s.count port (if s.portInv port then -d else d)
         let s := if 384 < d.natAbs then s.setOverspeed port else s
         if fails = 2 then s.setAmpl port else s)
      else if fails = 2 ∧ g.ampl = false then s.setAmpl port
      else s

/-! ## Speed (R476 to R479) -/

/-- The window of a port in granules. -/
def State.speedWin (s : State) (p : Nat) : Nat :=
  let w := bits (s.force (fbOff p 4)) 13 0
  if w = 0 then s.segL (bits (s.force (fbOff p 0)) 14 12) else w

/-- A window of a port ends: the granule count is a multiple of WIN, and none has ended in it already (R476). -/
def State.windowDue (s : State) (p : Nat) : Bool :=
  decide (s.granuleNo % s.speedWin p = 0) && decide ((s.port p).winEnd ≠ some s.granuleNo)

/-- CNT, `up` and `down` of a port without what the present sample has counted: that belongs to the window that begins (R476). -/
def State.countedBefore (s : State) (p : Nat) : BitVec 32 × Bool × Bool :=
  let g := s.port p
  match g.eve with
  | some x => if x.1 = s.now / 20 then x.2 else (g.cnt, g.up, g.down)
  | none => (g.cnt, g.up, g.down)

/-- SPEED_WINDOW_END: NET, SPD and DIRCHG of the window that ends (R476, R477, R479). -/
def execSpeedWindowEnd (t port : Nat) (s : State) : Host.Outcome State Fault Refusal :=
  s.does t fun s =>
    if s.portMode port = 0 ∨ ¬ s.windowDue port then s
    else
      let g := s.port port
      let x := s.countedBefore port
      let good := s.portValid port && !g.invalidIn
      let net := if good then (x.1 - g.winStart).toInt else 0
      let spd := satW 32 (roundDiv (net * 2 ^ 20) (s.speedWin port))
      let rest := (g.cnt - x.1).toInt
      s.modPort port fun g =>
        { g with net := net, spd := spd, dirchg := good && x.2.1 && x.2.2, winStart := x.1, up := decide (0 < rest),
                 down := decide (rest < 0), invalidIn := !(s.portValid port), winEnd := some s.granuleNo }

/-! ## Divided-pulse output (R481, R483) -/

/-- DIVIDED_OUTPUT_EDGE: one edge toward zero backlog, ODT samples after the last (R481). -/
def execDividedOutputEdge (t port : Nat) (s : State) : Host.Outcome State Fault Refusal :=
  s.does t fun s =>
    let w := s.force (fbOff port 0x10)
    let g := s.port port
    if bit w 31 = false ∨ ¬ s.portValid port ∨ g.backlog = 0 ∨ s.now < g.edgeAt + 20 * max 2 (bits w 3 0) then s
    else
      let fwd := decide (0 < g.backlog)
      let st := (g.outState + (if fwd != bit w 29 then 1 else 3)) % 4
      let s := s.modPort port fun g =>
        { g with backlog := if fwd then g.backlog - 1 else g.backlog + 1, outState := st, edgeAt := s.now }
      s.emit (.divided port st)

/-! ## Encoder supplies (R484 to R487) -/

/-- A port's supply is switched on; SUP_SETTLE runs from now (R484, R487). The current it draws is a free value, log 87. -/
def State.supplyOn (s : State) (p : Nat) : State :=
  let settle := bits (s.force (fbOff p 0)) 11 8
  let d := s.draw
  (d.2.modPort p fun g => { g with supOn := true, settled := decide (settle = 0), onAt := s.now,
                                   ma := toU 16 d.1 }).emit (.supply p true)

/-- A port's supply is switched off. -/
def State.supplyOff (s : State) (p : Nat) : State :=
  ((s.modPort p fun g => { g with supOn := false, settled := false, offAt := s.now, ma := 0 }).spoilPort p).emit (.supply p false)

/-- A supply switches off for overload (R485). -/
def State.supplyOvl (s : State) (p : Nat) : State :=
  let s := s.supplyOff p
  (s.modPort p fun g => { g with supOvl := true }).raise (srcPort p) 0x25 0 []

/-- ENC_SUPPLY_OVL: a port's current exceeded 120 mA for 10 ms (R485). -/
def execEncSupplyOvl (t port : Nat) (s : State) : Host.Outcome State Fault Refusal :=
  s.does t fun s => if (s.port port).supOn then s.supplyOvl port else s

/-- ENC_SUPPLY_TOTAL_OVL: the total exceeded 500 mA; the highest-numbered supply that is on goes off, 1 ms after the one before
it at the earliest (R486). -/
def execEncSupplyTotalOvl (t : Nat) (s : State) : Host.Outcome State Fault Refusal :=
  s.does t fun s =>
    match (List.range 8).reverse.find? fun p => (s.port p).supOn with
    | some p =>
      let again : Bool := match s.pw.supTotalAt with | some x => decide (s.now < x + 4000000) | none => false
      if again then s else { s.supplyOvl p with pw := { s.pw with supTotalAt := some s.now } }
    | none => s

/-- ENC_SUPPLY_RESTART: 100 ms after switch-off and with SUP_OVL cleared, the supply comes on again (R487). -/
def execEncSupplyRestart (t port : Nat) (s : State) : Host.Outcome State Fault Refusal :=
  s.does t fun s =>
    let g := s.port port
    if s.portSup port = true ∧ g.supOn = false ∧ g.supOvl = false ∧ g.offAt + 400000000 ≤ s.now then s.supplyOn port else s

/-- ENC_SUPPLY_SETTLED: SUP_SETTLE has run since switch-on (R462). -/
def execEncSupplySettled (t port : Nat) (s : State) : Host.Outcome State Fault Refusal :=
  s.does t fun s =>
    let g := s.port port
    let settle := bits (s.force (fbOff port 0)) 11 8
    if g.supOn = true ∧ g.onAt + settle * 40000000 ≤ s.now then s.modPort port fun g => { g with settled := true } else s

/-! ## Sticky flags (R463, R499) -/

/-- Clear sticky flags of a port, at the bit positions of FBP_PpSTATUS. AMPL sets again while its condition lasts. -/
def State.clearPort (s : State) (p : Nat) (mask : Nat) : State :=
  let s := s.modPort p fun g =>
    { g with idxSeen := g.idxSeen && !bit mask 20, divLost := g.divLost && !bit mask 13, supOvl := g.supOvl && !bit mask 12,
             overspeed := g.overspeed && !bit mask 11, wire := g.wire && !bit mask 10, ampl := g.ampl && !bit mask 9,
             illegal := g.illegal && !bit mask 8 }
  if bit mask 9 ∧ (s.port p).ampFails = 2 ∧ s.portMode p = 2 then s.setAmpl p else s

/-! ## Master captures (R464) and position samples (R491) -/

/-- The capture of a port at the start of a master interval, with its validity after the changes of the same sample (R500). -/
def State.portCapture (s : State) (p : Nat) : State :=
  if s.portValidAfter p then
    s.modPort p fun g =>
      let pos := match g.capture with
        | none => g.cnt.toInt * 65536
        | some c => satW 64 (g.pos + (g.cnt - c).toInt * 65536)
      { g with pos := pos, capture := some g.cnt, axisValid := true }
  else s.modPort p fun g => { g with axisValid := false }

/-- Samples kept for an axis: the last four, and the last valid one before them. -/
def keepSamples (l : List (Nat × Option Int)) : List (Nat × Option Int) :=
  l.take 4 ++ (match (l.drop 4).find? fun e => e.2.isSome with | some e => [e] | none => [])

/-- An axis takes a position sample. -/
def State.pushSample (s : State) (a mt : Nat) (p : Option Int) : State :=
  { s with samples := SMap.put [] s.samples a (keepSamples ((mt, p) :: SMap.get [] s.samples a)) }

/-! ## Latch inputs (R488 to R494) -/

/-- Register d of latch input n. -/
def latOff (n d : Nat) : Nat := 0x0DC000 + 0x10 * n + d

/-- The edges that EDGE selects. -/
def edgeSelected (edge : Nat) (rising : Bool) : Bool :=
  if rising then decide (edge ≠ 2) else decide (edge = 2 ∨ edge = 3)

/-- LATCH_EDGE: a level change that held for its filter, at the time of its first sample with the front-end delay
removed (R488 to R490). -/
def execLatchEdge (t input : Nat) (s : State) : Host.Outcome State Fault Refusal :=
  s.does t fun s =>
    let cfg := s.force (latOff input 0)
    let l := s.latch input
    if ¬ s.up ∨ bit cfg 31 = false then s
    else
      let rising := !l.high
      let l := { l with high := rising }
      let l : Latch :=
        if edgeSelected (bits cfg 29 28) rising then
          (if s.now < l.deadUntil then { l with skipped := (l.skipped + 1) % 2 ^ 16, skipSeen := true }
           else
             { l with events := (l.events + 1) % 2 ^ 16, deadUntil := s.now + 400 * max 2 (bits cfg 17 10), skipSeen := false,
                      queue := l.queue ++ [⟨s.mt, !rising, l.skipSeen⟩] })
        else l
      s.modLatch input fun _ => l

/-- The axis named is configured: a network axis of its segment's mask, a step axis or feedback axis whose MODE is not
OFF, a virtual master. -/
def State.configured (s : State) (a : Nat) : Bool :=
  if a < 512 then bit (s.axMask (a / 64)) (a % 64)
  else if a < 528 then decide (bits (s.force (pulOff (a - 512) 0)) 31 30 ≠ 0)
  else if a < 560 then true
  else decide (s.portMode (a - 560) ≠ 0)

/-- The position and POS_STATE of a stamp among an axis's samples, newest first, each counted `ofs` ns later; none
while the next sample has not been taken (R491, R492). -/
def latchPos (l : List (Nat × Option Int)) (ofs : Int) (stamp : Nat) : Option (Int × Nat) :=
  let time (e : Nat × Option Int) : Int := e.1 + ofs
  let before := l.find? fun e => decide (time e ≤ stamp) && e.2.isSome
  match (l.takeWhile fun e => decide ((stamp : Int) < time e)).getLast? with
  | none => none
  | some next =>
    match before with
    | none => some (0, 2)
    | some b =>
      let p0 := b.2.getD 0
      match next.2 with
      | none => some (p0, 1)
      | some p1 => some (p0 + roundDiv ((p1 - p0) * ((stamp : Int) - time b)) (time next - time b), 0)

/-- The entry of a latch event (Table 11.3). -/
def latchEntry (n : Nat) (e : LatchEv) (axis pos : Int) (st seq : Nat) : List Byte :=
  [0x20, BitVec.ofNat 8 (128 * b2n e.falling + 32 * st + 16 * b2n e.skip + n)] ++ leInt 2 axis ++ leBytes 8 e.mt ++
    leInt 8 pos ++ leBytes 3 (tagOf (cycOf e.mt)) ++ leBytes 1 seq ++ leBytes 2 (granOf e.mt) ++ zeros 6

/-- The oldest event of an input, with its position and POS_STATE, once these are settled (R491, R492). -/
def State.latchReady (s : State) (input : Nat) : Option (LatchEv × Int × Nat) :=
  match (s.latch input).queue with
  | [] => none
  | e :: _ =>
    let a := bits (s.force (latOff input 0)) 9 0
    let ofs : Int := if a < 512 then toS 32 (s.force (latOff input 4)) else 0
    let r := if 568 ≤ a ∨ ¬ s.configured a then some (0, 3) else latchPos (SMap.get [] s.samples a) ofs e.mt
    r.map fun x => (e, x)

/-- The oldest event of an input is posted when it is ready (R493, R494). -/
def State.latchPost (s : State) (input : Nat) : State :=
  match s.latchReady input with
  | none => s
  | some (e, pos, st) =>
    let a := bits (s.force (latOff input 0)) 9 0
    let s1 := s.modLatch input fun l => { l with queue := l.queue.tail, seq := (l.seq + 1) % 256 }
    s1.capture (latchEntry input e (if 568 ≤ a then 0xFFFF else a) pos st (s.latch input).seq)

/-- The inputs below this one whose ready event has this stamp: their entries go before (R501). -/
def State.latchFirst (s : State) (input mt : Nat) : List Nat :=
  (List.range input).filter fun i => match s.latchReady i with | some (e, _) => decide (e.mt = mt) | none => false

/-- LATCH_ENTRY_POST: the oldest event of an input is posted once its position is settled, after those of lower inputs that
stamped the same nanosecond and are ready with it (R491 to R494, R501). -/
def execLatchEntryPost (t input : Nat) (s : State) : Host.Outcome State Fault Refusal :=
  s.does t fun s =>
    match s.latchReady input with
    | none => s
    | some (e, _) => ((s.latchFirst input e.mt).foldl State.latchPost s).latchPost input

end Sys2Proof.Machine
end

