-- ==== Sys2Proof/Machine/Pulse.lean ====
section
/-! DEFINITION. Step-pulse channels (12): the rate multiplier, the landing computation at a boundary, HALT, fenced
channels and the read of the emitted count. -/

namespace Sys2Proof.Machine

/-- Step channel c as a source of marks (16 Table 16.3). -/
def srcStep (c : Nat) : Nat := srcCode 5 (0x110 + c)

/-- The CK_FB clock of a time in quarter nanoseconds: 5 ns each. -/
def fbClock (now : Nat) : Nat := now / 20

/-- ACC of a channel after the clock of `now` (R506): it starts from `acc` in the clock of `accAt`. -/
def StepCh.accNow (c : StepCh) (now : Nat) : Nat := (c.acc + c.w * (fbClock now - fbClock c.accAt)) % 2 ^ 48

/-- A carry out of bit 47 falls in the clock of `now` (R506). -/
def StepCh.carries (c : StepCh) (now : Nat) : Bool :=
  decide (fbClock c.accAt < fbClock now) && decide (c.accNow now < c.w)

/-- The carry of the present clock is due: it falls in this clock and has not been taken. -/
def StepCh.carryDue (c : StepCh) (now : Nat) : Bool := c.carries now && decide (c.carriedAt ≠ fbClock now + 1)

/-- E after the step of a carry. -/
def StepCh.stepped (c : StepCh) : Int := satW 64 (if c.down then c.e - 1 else c.e + 1)

/-- The carry of the present clock, where one is due, emits one step and moves E: a STEP pulse of PW clocks from the next clock
on, or an edge of A or B (R503, R506, R511). -/
def State.takeCarry (s : State) (ch : Nat) : State :=
  let c := s.stepCh ch
  if c.carryDue s.now then
    let cfg := s.force (pulOff ch 0)
    let up : Bool := c.down = bit cfg 29
    let ab := (c.ab + (if up then 1 else 3)) % 4
    let s := s.modStep ch fun c => { c with e := c.stepped, carriedAt := fbClock s.now + 1, ab := ab }
    s.emit (if bits cfg 31 30 = 2 then .quad ch ab else .step ch up (fbClock s.now + 1) (bits cfg 15 8) (bit cfg 28))
  else s

/-- RATE_MULTIPLIER_CARRY: a carry out of bit 47 of ACC (R506). -/
def execRateMultiplierCarry (t ch : Nat) (s : State) : Host.Outcome State Fault Refusal :=
  s.does t fun s => s.takeCarry ch

/-- C: the clocks of a segment cycle of L granules. -/
def clocksOf (l : Nat) : Nat := l * 25 / 2

/-- W_MAX of R507. -/
def wMax (cfg : Nat) : Nat := 2 ^ 48 / max 1 (bits cfg 23 16)

/-- The landing computation of R507 for a target. -/
def StepCh.land (c : StepCh) (cfg clocks : Nat) (x : Int) (now : Nat) : StepCh :=
  let n := x - c.e
  let down := if 0 < n then false else if n < 0 then true else c.down
  let turn := decide (down ≠ c.down)
  let blank := bits cfg 15 8 + 22
  let acc := if turn then 0 else c.accNow now
  let ce : Int := if turn then (clocks : Int) - blank else clocks
  let w := ceilDiv (n.natAbs * 2 ^ 48 - acc) ce
  { c with acc := acc, accAt := if turn then now + 20 * blank else now, w := min w (wMax cfg), down := down,
           rateLim := c.rateLim || decide (wMax cfg < w) }

/-- The rate mode of a fenced channel (R513): W from v*, Q16.16 counts per segment cycle. -/
def StepCh.rateMode (c : StepCh) (cfg clocks : Nat) (v : Int) (now : Nat) : StepCh :=
  let w := (roundDiv (v.natAbs * 2 ^ 32) clocks).toNat
  { c with acc := c.accNow now, accAt := now, w := min w (wMax cfg),
           down := if v < 0 then true else if 0 < v then false else c.down, driversOff := decide (v = 0) }

/-- v* of an axis as its last job delivered it (R289, R332). -/
def State.vStar (s : State) (a : Nat) : Int :=
  let v := (s.axis a).mo.v
  (narrow 32 32 (if s.twoSteps a then 2 * v else v)).v

/-- The loops of a step axis are open in its last job, or it is disabled (R510). -/
def State.stepOpen (s : State) (a : Nat) : Bool := (s.axis a).wasOpen || decide ((s.axis a).mode = .disabled)

/-- The clock of now is a boundary of the channel: a segment cycle of its segment begins, and none has been taken in it (R502). -/
def State.boundaryDue (s : State) (ch : Nat) : Bool :=
  decide (s.mtQuarter % (250 * s.segL (bits (s.force (pulOff ch 0)) 2 0)) / 20 = 0) &&
    decide ((s.stepCh ch).boundAt ≠ fbClock s.now + 1)

/-- A HALT reaches the channel in this clock too (R515, R516). -/
def State.haltsNow (s : State) (ch : Nat) : Bool :=
  s.meetsFb fun c => match c with | .pulHalt _ x => decide (x = ch) | _ => false

/-- The DIR ball follows a new direction PW + 2 clocks after the boundary (R511). -/
def State.turnDir (s : State) (ch : Nat) (was : Bool) : State :=
  let c := s.stepCh ch
  let cfg := s.force (pulOff ch 0)
  if c.down = was ∨ bits cfg 31 30 ≠ 1 then s
  else s.emit (.dir ch (fbClock s.now + bits cfg 15 8 + 2) (c.down = bit cfg 29))

/-- STEP_BOUNDARY: the start of a segment cycle of the channel's segment. The carry of its clock is the last of the cycle that
ends (R508); with a HALT in the same clock its computation is discarded (R505, R507 to R511, R513, R515). -/
def execStepBoundary (t ch : Nat) (s : State) : Host.Outcome State Fault Refusal :=
  s.does t fun s =>
    let cfg := s.force (pulOff ch 0)
    if bits cfg 31 30 = 0 ∨ ¬ s.boundaryDue ch then s
    else
      let clocks := clocksOf (s.segL (bits cfg 2 0))
      let s := s.takeCarry ch
      let c := s.stepCh ch
      let s := s.pushSample (512 + ch) s.mt (some (c.e * 65536))
      let fenced := s.fenced (srcStep ch)
      let c := { c with e0 := c.e, e1 := c.e0, boundAt := fbClock s.now + 1, driversOff := s.following || (c.driversOff && fenced) }
      let n : StepCh :=
        if s.following then { c with acc := 0, accAt := s.now, w := 0 }
        else if s.haltsNow ch && !fenced then c
        else if s.stepOpen (512 + ch) then
          { c with acc := c.accNow s.now, accAt := s.now, w := 0, driversOff := c.driversOff || fenced }
        else if fenced then c.rateMode cfg clocks (s.vStar (512 + ch)) s.now
        else
          match c.target with
          | some x => c.land cfg clocks x s.now
          | none => c
      let first := n.rateLim && !c.rateLim
      let s := (s.modStep ch fun _ => n).turnDir ch c.down
      if first then s.raise (srcStep ch) 0x26 0 [] else s

/-- The cut of R512: a carry of the same clock is still emitted, the pulses stop, and the axis takes the emitted count as its
position. -/
def State.haltCut (s : State) (ch : Nat) : State :=
  let s := s.takeCarry ch
  let c := s.stepCh ch
  let moving := decide (c.w ≠ 0)
  let s := s.modStep ch fun c =>
    { c with w := 0, acc := 0, accAt := s.now, target := some c.e, halted := c.halted || moving }
  let s := s.modAxis (512 + ch) fun ax => { ax with mo := ax.mo.setGen ⟨c.e * 2 ^ 48, 0, 0⟩ }
  if moving then s.raise (srcStep ch) 0x27 0 [] else s

/-- PUL_HALT: a HALT reaches a channel (R512). A fenced channel has no HALT cut (R513). -/
def execPulHalt (t ch : Nat) (s : State) : Host.Outcome State Fault Refusal :=
  s.does t fun s =>
    if bits (s.force (pulOff ch 0)) 31 30 = 0 ∨ s.fenced (srcStep ch) = true then s else s.haltCut ch

/-- PUL_PARITY: a parity error in ACC, W or the target register fences the channel into rate mode (R513), after a HALT of the
same clock (R516). The spec gives these registers no numbers: the mark's address is a free value (log 7). -/
def execPulParity (t ch : Nat) (s : State) : Host.Outcome State Fault Refusal :=
  s.does t fun s =>
    if s.fenced (srcStep ch) then (s.refence (srcStep ch) 1).postReady
    else
      let s := if s.haltsNow ch ∧ bits (s.force (pulOff ch 0)) 31 30 ≠ 0 then s.haltCut ch else s
      let d := s.draw
      let s := d.2.modStep ch fun c => { c with parity := true, driversOff := c.driversOff || decide (c.w = 0) }
      let s := s.raise (srcStep ch) 0x28 (toU 32 d.1) [3, 0, 0xFF, 0xFF]
      s.fenceAnew (srcStep ch) 1

/-- Clear sticky flags of a channel, at the bit positions of PUL_CHcSTATUS. -/
def State.clearStep (s : State) (ch mask : Nat) : State :=
  s.modStep ch fun c =>
    { c with parity := c.parity && !bit mask 2, halted := c.halted && !bit mask 1, rateLim := c.rateLim && !bit mask 0 }

/-- PUL_ECNT_LO_READ: the low half of E, and the high half latched (R503, R517). -/
def execPulEcntLoRead (t ch : Nat) (s : State) : Host.Outcome State Fault Refusal :=
  s.does t fun s =>
    let c := s.stepCh ch
    let e := toU 64 (if c.carryDue s.now then c.stepped else c.e)
    (s.modStep ch fun c => { c with ecntHi := e / 2 ^ 32 }).emit (.read (pulOff ch 0x0C) (e % 2 ^ 32))

/-! ## CLEAR_FLAGS (04 R186, 11 R463, 12 R512) -/

/-- CLEAR_FLAGS at its apply point: the named flags of a network axis; every sticky flag of a channel or port. -/
def fxClearFlags (mask : Nat) (c : Ctx) (e : Entry) (s : State) : State :=
  let a := e.tgt
  let s :=
    if a < 512 then s.modAxis a fun ax => { ax with lp := { ax.lp with flags := clearFlagMask ax.lp.flags mask } }
    else if a < 528 then s.clearStep (a - 512) 7
    else if 560 ≤ a then s.clearPort (a - 560) 0xFFFFFFFF
    else s
  s.doneOn c e a

/-- CLEAR_FLAGS. -/
def execClearFlags (t : Nat) (h : DHdr) (mask : Nat) (s : State) : Host.Outcome State Fault Refusal :=
  s.does t fun s => s.runDescr h (.clearFlags mask) (fxClearFlags mask)

end Sys2Proof.Machine
end

