-- ==== Sys2Proof/Machine/Analog.lean ====
section
/-! DEFINITION. Converters (13): sequences, conversions, result words, the on-chip and host rings, the reference
buffer and the code a FOLLOW source reads. -/

namespace Sys2Proof.Machine

/-- Register d of converter c. -/
def adcOff (c d : Nat) : Nat := 0x0E0000 + 0x400 * c + d

/-- Converter c as a source of marks (16 Table 16.3). -/
def srcConv (c : Nat) : Nat := srcCode 5 (0x130 + c)

/-- SEQk after reset: channel VREF, 4 slots (Table 13.6). -/
def seqReset : Nat := 8 * 2 ^ 8 + 3

/-- The set that a starting sequence takes: the SEQ words in use. -/
def State.seqSet (s : State) (c count : Nat) : SMap Nat :=
  (List.range (min 32 count)).foldl (fun m k => SMap.put seqReset m k (s.force (adcOff c (0x80 + 4 * k)))) []

/-- The trigger of a converter is here: granule TRIG_OFS of the major cycle or of a segment's cycle, at the CK_ADC edge nearest
it, or with CONT any slot without a sequence (R522, R523, R540). -/
def State.trigDue (s : State) (ctl : Nat) : Bool :=
  let at_ (per ofs : Nat) (q : Nat) : Bool := decide (q % 500000 / 250 % per = ofs)
  let near (per ofs : Nat) : Bool := at_ per ofs s.mtQuarter || at_ per ofs (s.mtQuarter + 25)
  match bits ctl 31 30 with
  | 1 => true
  | 2 => near 2000 (bits ctl 10 0)
  | 3 => near (s.segL (bits ctl 29 27)) (bits ctl 10 0)
  | _ => false

/-- ADC_SEQUENCE_START: a sequence starts on its trigger, on the set then in force (R522, R524). The first sequence
carries SEQ 0 (log 9). -/
def execAdcSequenceStart (t conv : Nat) (s : State) : Host.Outcome State Fault Refusal :=
  s.does t fun s =>
    let ctl := s.force (adcOff conv 0)
    if ¬ s.up ∨ ¬ s.trigDue ctl ∨ (s.conv conv).busy = true then s
    else
      s.modConv conv fun v =>
        { v with slotAt := s.now, busy := true, entry := 0, seq := if v.started then (v.seq + 1) % 16 else v.seq, started := true,
                 slotReady := s.an.ready, ctl := ctl, seqs := s.seqSet conv (bits ctl 21 16) }

/-! ## The on-chip ring (R531 to R534) -/

/-- The ring length that RLEN in force names. -/
def State.ringLen (s : State) (c : Nat) : Nat := 16 * 2 ^ bits (s.force (adcOff c 0)) 24 22

/-- A pending length takes effect at the write to index 0 (R533, R534): the entries discarded, and whether RP was
reset. -/
def Conv.newLen (v : Conv) (len : Nat) : Conv × Nat × Bool :=
  let reset := decide (len ≤ v.rp)
  let lost := if v.fill = 0 then 0 else v.len - max (min v.rp v.len) (min len v.len)
  ({ v with len := len, lenPend := false, rp := if reset then 0 else v.rp, resetRp := v.resetRp || reset,
            fill := v.fill - lost, drop := (v.drop + lost) % 2 ^ 32, dropNow := v.dropNow + lost }, lost, reset)

/-- An entry that a ring cannot take (R532). -/
def State.adcDrop (s : State) (c : Nat) : State :=
  let s := s.modConv c fun v => { v with drop := (v.drop + 1) % 2 ^ 32, dropNow := v.dropNow + 1, full := true }
  s.raiseOnce (srcConv c) 0x2A c (leBytes 4 (s.conv c).dropNow)

/-- Write one entry to the on-chip ring. A length committed in the same clock waits for the next write to index 0 (R539). -/
def State.ringWrite (s : State) (c word mt : Nat) : State :=
  let v := s.conv c
  if v.ringBad then s.modConv c fun v => { v with drop := (v.drop + 1) % 2 ^ 32, dropNow := v.dropNow + 1 }
  else if v.len ≤ v.fill then s.adcDrop c
  else
    let r := if v.lenPend ∧ v.wp = 0 ∧ v.lenAt ≠ s.core + 1 then v.newLen (s.ringLen c) else (v, 0, false)
    let v := r.1
    let v := { v with buf := SMap.put (0, 0) v.buf v.wp (word, mt), wp := (v.wp + 1) % v.len, fill := v.fill + 1 }
    let s := s.modConv c fun _ => v
    if r.2.2 then s.raise (srcConv c) 0x2B c (leBytes 4 v.dropNow) else s

/-! ## Results (R526 to R530, R536, R537) -/

/-- The result word of Table 13.2. -/
def resultWord (ovr notReady : Bool) (entry chan seq : Nat) (code : Int) : Nat :=
  b2n ovr * 2 ^ 31 + b2n notReady * 2 ^ 30 + entry % 32 * 2 ^ 25 + chan % 32 * 2 ^ 20 + seq % 16 * 2 ^ 16 + toU 16 code

/-- The newest result of a channel: ADC0's when both complete in one CK_ADC clock (R536). A usable code becomes the
value that FOLLOW reads. -/
def State.newest (s : State) (c chan word : Nat) (use : Bool) (code : Int) : State :=
  let clk := s.now / 50 + 1
  let by0 := SMap.get (0, 0) s.an.lastBy chan
  if c = 1 ∧ by0 = (clk, 0) then s
  else
    let core := s.core + 1
    let a := s.an
    let a := { a with last := SMap.put 0 a.last chan word, lastBy := SMap.put (0, 0) a.lastBy chan (clk, c) }
    let a :=
      if use then
        { a with ai := SMap.put 0 a.ai chan code, aiAt := SMap.put 0 a.aiAt chan core,
                 aiPrev := if SMap.get 0 a.aiAt chan = core then a.aiPrev else SMap.put 0 a.aiPrev chan (SMap.get 0 a.ai chan) }
      else a
    { s with an := a }

/-- x of an analogue FOLLOW source at a report-close point now (R304, R537). -/
def State.analog (s : State) (chan : Nat) : Int :=
  if SMap.get 0 s.an.aiAt chan = s.core + 1 then SMap.get 0 s.an.aiPrev chan else SMap.get 0 s.an.ai chan

/-- The last slot of the entry in progress has ended: SLOTS + 1 slots of 1 µs, on the edges of CK_ADC (R520, R523). -/
def State.slotOver (s : State) (c : Nat) : Bool :=
  let v := s.conv c
  decide (v.slotAt + 4000 * (bits (SMap.get seqReset v.seqs v.entry) 2 0 + 1) ≤ s.now + 50)

/-- The entry in progress of a converter is over: its result goes where results go, and the next entry begins (R526 to R530). -/
def State.convert (s : State) (conv : Nat) (code : Int) : State :=
  let v := s.conv conv
  if ¬ s.up ∨ v.busy = false ∨ ¬ s.slotOver conv then s
  else
    let w := SMap.get seqReset v.seqs v.entry
    let chan := bits w 12 8
    let ready := v.slotReady
    let ovr := ready && decide (code < -32768 ∨ 32767 < code)
    let code := if ready then clampI code (-32768) 32767 else 0
    let word := resultWord ovr (!ready) v.entry chan v.seq code
    let stamp := toU 32 ((s.mt : Int) - 250)
    let s := s.modConv conv fun v => { v with res := SMap.put 0 v.res v.entry word }
    let s := s.newest conv chan word ready code
    let first := ovr && !s.an.ovr.contains chan
    let s := if first then { s with an := { s.an with ovr := s.an.ovr ++ [chan] } } else s
    let s := if first then s.raise (srcConv conv) 0x29 0 [BitVec.ofNat 8 chan, BitVec.ofNat 8 conv] else s
    let s :=
      if bit v.ctl 26 = false then s
      else if bit v.ctl 25 = false then s.ringWrite conv word stamp
      else if ¬ (s.ringOf (26 + conv)).on ∨ s.room (26 + conv) 1 = true then
        s.post (26 + conv) (leBytes 4 word ++ leBytes 4 stamp)
      else (s.post (26 + conv) (leBytes 4 word ++ leBytes 4 stamp)).adcDrop conv
    let last := decide (bits v.ctl 21 16 ≤ v.entry + 1)
    s.modConv conv fun v =>
      { v with busy := !last, entry := if last then 0 else v.entry + 1, slotReady := s.an.ready, slotAt := s.now }

/-- ADC_CONVERSION_COMPLETE: the result of the entry in progress; `code` is the input's level in codes, before the
limits of 16 bits (R526 to R530). -/
def execAdcConversionComplete (t conv : Nat) (code : Int) (s : State) : Host.Outcome State Fault Refusal :=
  s.does t fun s => s.convert conv code

/-! ## The read of the on-chip ring (R531, R541) -/

/-- The code of a conversion that completes in this core clock too and writes index 0 under a pending length. -/
def State.lengthNow (s : State) (c : Nat) : Option Int :=
  let v := s.conv c
  if v.lenPend && decide (v.wp = 0) && bit v.ctl 26 && !bit v.ctl 25 then
    (s.pending.takeWhile fun x => decide (x.time / 5 ≤ s.core)).findSome? fun x => match x with
      | .adcConversionComplete _ i code => if i = c then some code else none
      | _ => none
  else none

/-- ADC_POP_LO_READ: one entry of the on-chip ring, or the empty word (R531); a change of the ring's length in the same clock
acts first (R541). -/
def execAdcPopLoRead (t conv : Nat) (s : State) : Host.Outcome State Fault Refusal :=
  s.does t fun s =>
    let s := match s.lengthNow conv with | some code => s.convert conv code | none => s
    let v := s.conv conv
    if v.fill = 0 ∨ v.ringBad = true then
      (s.modConv conv fun v => { v with popHi := 0 }).emit (.read (adcOff conv 0x14) 0x01F00000)
    else
      let e := SMap.get (0, 0) v.buf v.rp
      (s.modConv conv fun v => { v with popHi := e.2, rp := (v.rp + 1) % v.len, fill := v.fill - 1 }).emit
        (.read (adcOff conv 0x14) e.1)

/-! ## The reference buffer (R525) -/

/-- ADC_REF.EN. -/
def State.refEn (s : State) : Bool := bit (s.force 0x0E0800) 0

/-- EN has gone to 1, or PD_IO has come up with EN at 1: the 2 ms count starts. -/
def State.refStart (s : State) : State := { s with an := { s.an with refOnAt := s.now, ready := false } }

/-- REF_READY: 2 ms after the reference buffer came on, READY sets. -/
def execRefReady (t : Nat) (s : State) : Host.Outcome State Fault Refusal :=
  s.does t fun s =>
    if s.refEn = true ∧ s.pw.domains.contains 11 = true ∧ s.an.refOnAt + 8000000 ≤ s.now then
      { s with an := { s.an with ready := true } }
    else s

end Sys2Proof.Machine
end

