-- ==== Sys2Proof/Machine/Motn.lean ====
section
/-! DEFINITION. The motion descriptors at their apply points (07 R284 to R338): moves, jogging, stops, limits, following,
gears, cams, phasing in and interpolation groups. -/

namespace Sys2Proof.Machine

/-! ## Checks at the apply point (R284, R285, R311, R333; 16 R637, R639; 18 R734) -/

/-- A stop by SEGMENT_STOP holds the segment of an axis. -/
def State.stoppedBy (s : State) (a : Nat) : Bool :=
  match s.segOf a with
  | some k => s.stopActs k
  | none => false

/-- The axis is of kind TRQ. -/
def State.isTrq (s : State) (a : Nat) : Bool := decide (a < 512 ∧ (s.axis a).set.kind = .trq)

/-- The axis is a member of a group whose path moves. -/
def State.onMovingPath (s : State) (a : Nat) : Bool :=
  match s.igroupOf a with
  | some (_, g) => g.moving.isSome
  | none => false

/-- The kinds of motion descriptor that the checks tell apart. -/
inductive MotionOp where
  | stop
  | limits
  | follow
  | other
  deriving DecidableEq, Repr

/-- The status with which a motion descriptor is turned away at its apply point, if any. R285 is read as not standing in
the way of the FOLLOW of a TRQ axis, which accepts no LIMITS (Table 07.1). -/
def State.motionBar (s : State) (c : Ctx) (a : Nat) (k : MotionOp) : Option Nat :=
  let free := decide (k = .stop) || decide (k = .limits)
  if (s.pw.mode = .commission ∨ s.pw.mode = .idle) ∧ k ≠ .limits then some stRejMode
  else if s.stoppedBy a ∧ k ≠ .stop then some stRejMode
  else if (s.axis a).fault ∧ ¬ free then some stRejMode
  else if s.isTrq a ∧ k ≠ .stop ∧ k ≠ .follow then some stRejIncons
  else if ¬ (s.axis a).mo.hasLim ∧ ¬ free ∧ ¬ s.isTrq a then some stRejIncons
  else if s.onMovingPath a ∧ k ≠ .stop then some stRejIncons
  else if c.stopped.contains a ∧ ¬ free then some stAborted
  else none

/-- End a motion descriptor at its apply point without effect, with the result of R286 when it was ABORTED. -/
def State.bar (s : State) (c : Ctx) (e : Entry) (st : Nat) : State :=
  if st = stAborted then s.endMotion c e.tgt [(e.id, st)] else s.reject e st

/-- An effect of a motion descriptor that passed its checks. -/
def State.motionEffect (s : State) (c : Ctx) (e : Entry) (k : MotionOp) (f : State → State) : State :=
  match s.motionBar c e.tgt k with
  | some st => s.bar c e st
  | none => f s

/-! ## Taking over (R287, R294, R330) -/

/-- The axis leaves its source, or the host stop that runs, for a new source: what ends is SUPERSEDED. -/
def Motion.takeOver (m : Motion) : Motion × List (Nat × Nat) :=
  let l := m.leave stSuperseded false
  match l.1.stop with
  | some r => ({ l.1 with stop := none }, endingOf l.2 ++ r.ends stSuperseded)
  | none => (l.1, endingOf l.2)

/-- Put a new source on an axis; further descriptors may end at the same apply point. -/
def State.engage (s : State) (c : Ctx) (a : Nat) (f : Motion → Motion) (ends : List (Nat × Nat)) : State :=
  let t := (s.axis a).mo.takeOver
  (s.modAxis a fun ax => { ax with mo := f t.1 }).endMotion c a (t.2 ++ ends)

/-- The same for a descriptor that takes part in admission (02 R81). -/
def State.engageAdmit (s : State) (c : Ctx) (e : Entry) (f : Motion → Motion) (ends : List (Nat × Nat)) : State :=
  s.admitted e (s.segOf e.tgt) (s.engage c e.tgt f ends)

/-! ## Moves and jogging (R291 to R299, R315) -/

/-- A Q48.16 value fits its 64 bits. -/
def fits64 (x : Int) : Bool := decide (satW 64 x = x)

/-- MOVE_ABS at its apply point. -/
def fxMoveAbs (x : Int) (c : Ctx) (e : Entry) (s : State) : State :=
  s.motionEffect c e .other fun s =>
    s.engage c e.tgt (fun m => { m with src := .move x (some e.id) none false }) []

/-- A locked gear or cam drives the axis. -/
def Motion.locked (m : Motion) : Option Eng :=
  match m.src with
  | .eng e => match e.st with | .locked => some e | _ => none
  | _ => none

/-- A superimposed move of `d` counts in Q48.16 is added to what is left of the one that runs (R315). -/
def Motion.superimpose (m : Motion) (d : Int) (id : Nat) : Motion × List (Nat × Nat) :=
  match m.sup with
  | some x => ({ m with sup := some { x with x := x.x + d, plan := none, id := some id } },
      match x.id with | some i => [(i, stSuperseded)] | none => [])
  | none => ({ m with sup := some { x := d, id := some id } }, [])

/-- Superimpose a difference on an axis. -/
def State.superimpose (s : State) (c : Ctx) (a : Nat) (d : Int) (id : Nat) : State :=
  let r := (s.axis a).mo.superimpose d id
  (s.modAxis a fun ax => { ax with mo := r.1 }).endMotion c a r.2

/-- X_prev of R293. -/
def Motion.target (m : Motion) : Int :=
  match m.src with
  | .move x _ _ _ => x
  | _ => m.pStar

/-- MOVE_REL at its apply point: superimposed while a gear or cam is locked (R293, R315). -/
def fxMoveRel (d : Int) (c : Ctx) (e : Entry) (s : State) : State :=
  s.motionEffect c e .other fun s =>
    let m := (s.axis e.tgt).mo
    if m.locked.isSome then s.superimpose c e.tgt d e.id
    else
      let x := m.target + d
      if fits64 x then s.engage c e.tgt (fun m => { m with src := .move x (some e.id) none false }) []
      else s.rejectAt e stRejRange 16

/-- JOG at its apply point (R299). -/
def fxJog (v : Int) (c : Ctx) (e : Entry) (s : State) : State :=
  s.motionEffect c e .other fun s =>
    s.engage c e.tgt (fun m => { m with src := .jog (up48 v) (some e.id) }) []

/-! ## Stops (R325 to R331) -/

/-- The channel of a step axis is fenced, so that its pulses cannot be cut at the next clock (R328). -/
def State.chFenced (s : State) (a : Nat) : Bool :=
  decide (512 ≤ a ∧ a < 528) && s.fenced (srcCode 5 (0x110 + (a - 512)))

/-- Start a stop of an axis under a policy, with R328's fallback. -/
def State.beginStop (s : State) (a pol : Nat) (fault : Bool) (ids : List Nat) : State :=
  if pol = 0 ∧ s.chFenced a then
    (s.raise (srcAxis a) 0x73 a []).stopAxis a (s.twoSteps a) (s.loopsClosed a) 2 fault ids
  else s.stopAxis a (s.twoSteps a) (s.loopsClosed a) pol fault ids

/-- STOP at its apply point. -/
def fxStop (c : Ctx) (e : Entry) (s : State) : State :=
  s.motionEffect c e .stop fun s => s.beginStop e.tgt (s.axis e.tgt).set.stopPol false [e.id]

/-! ## Limits (R288, R298) -/

/-- New limits: the plans that run are made anew; a stop in progress keeps its own. -/
def Motion.setLimits (m : Motion) (vmax amax dmax destop jmax : Int) : Motion :=
  let src : Source := match m.src with
    | .move x id _ rev => .move x id none rev
    | x => x
  { m with
    hasLim := true, vmax := vmax * 2 ^ 32, amax := amax * 2 ^ 24, dmax := dmax * 2 ^ 24, destop := destop * 2 ^ 24,
    jmax := jmax * 2 ^ 16, src := src,
    sup := match m.sup with | some x => some { x with plan := none } | none => none }

/-- LIMITS at its apply point. -/
def fxLimits (vmax amax dmax destop jmax : Int) (c : Ctx) (e : Entry) (s : State) : State :=
  s.motionEffect c e .limits fun s =>
    (s.modAxis e.tgt fun ax => { ax with mo := ax.mo.setLimits vmax amax dmax destop jmax }).endMotion c e.tgt
      [(e.id, stDone)]

/-! ## Following (R303 to R307, R324) -/

/-- A FOLLOW conflicts with its target (R303, R324, Table 07.1). -/
def State.followFault (s : State) (a : Nat) (ai pos : Bool) (src : Nat) : Bool :=
  (ai && pos) || (s.isTrq a && !ai) ||
    (if 528 ≤ a then ai || !s.masterOk a src else !ai && (decide (src = a) || (decide (src < 512) && decide (s.segOf a ≠ some (src / 64)))))

/-- FOLLOW at its apply point. -/
def fxFollow (ai pos : Bool) (src : Nat) (g : Coef) (lagmax : Int) (c : Ctx) (e : Entry) (s : State) : State :=
  s.motionEffect c e .follow fun s =>
    if s.followFault e.tgt ai pos src then s.reject e stRejIncons
    else
      s.engageAdmit c e (fun m => { m with src := .follow { ai := ai, pos := pos, src := src, g := g, lagmax := lagmax },
                                           zeroTq := false }) [(e.id, stDone)]

/-! ## Gears (R312 to R316) -/

/-- N and M with M positive. -/
def gearRatio (n m : Int) : Int × Int := if m < 0 then (-n, -m) else (n, m)

/-- A gear whose base is fixed at p* now, for PHASE_IN to engage (R314). -/
def State.gearWait (s : State) (a : Nat) (e : Eng) : Eng :=
  { e with st := .hold, based := true, b := (s.axis a).mo.pStar - e.ofs, g := 0, pmPrev := s.masterPos e.master, id := none }

/-- A locked gear takes a new ratio, and a new offset as a superimposed move (R315). -/
def State.regear (s : State) (c : Ctx) (e : Entry) (old : Eng) (n m ofs : Int) : State :=
  let ratio := decide (old.n ≠ n ∨ old.m ≠ m)
  let d := ofs - old.ofs
  let new := { old with n := n, m := m, rem := if ratio then 0 else old.rem, ofs := ofs, b := old.b - d }
  let s := s.modAxis e.tgt fun ax => { ax with mo := { ax.mo with src := .eng new } }
  if d = 0 then s.endMotion c e.tgt [(e.id, stDone)] else s.superimpose c e.tgt d e.id

/-- GEAR at its apply point. -/
def fxGear (wait : Bool) (master : Nat) (n m ofs : Int) (c : Ctx) (e : Entry) (s : State) : State :=
  s.motionEffect c e .other fun s =>
    if !s.masterOk e.tgt master then s.reject e stRejIncons
    else
      let r := gearRatio n m
      let new : Eng := { isCam := false, master := master, n := r.1, m := r.2, ofs := ofs, st := .catching, id := some e.id }
      if wait then
        let w := s.gearWait e.tgt new
        s.engageAdmit c e (fun x => { x with retained := some w }) [(e.id, stDone)]
      else
        match (s.axis e.tgt).mo.locked with
        | some old =>
          if !old.isCam && decide (old.master = master) then s.regear c e old r.1 r.2 ofs
          else s.engageAdmit c e (fun x => { x with src := .eng new }) []
        | none => s.engageAdmit c e (fun x => { x with src := .eng new }) []

/-! ## Cams (R318 to R322, R336) -/

/-- A cam that waits for PHASE_IN: with CONTINUE its base is fixed at p* now. -/
def State.camWait (s : State) (a : Nat) (e : Eng) : Eng :=
  let pm := s.masterPos e.master
  let y := match s.cams.lookup e.table, pm with
    | some t, some p => t.eval e.cubic (p - e.oc)
    | _, _ => 0
  { e with st := .hold, id := none, based := !e.cont || pm.isSome, b := if e.cont then (s.axis a).mo.pStar - y else e.b }

/-- p_M_prev of a master for the cycle of this apply point: p_M at the report-close point before, if the segment had one (R321). -/
def State.pmBefore (s : State) (a master : Nat) : Option Int :=
  match s.segOf a with
  | some k => (s.seg k).pmLast.lookup master
  | none => none

/-- CAM_ENGAGE at its apply point. -/
def fxCamEngage (table : Nat) (cont cubic : Bool) (mode master : Nat) (oc b xsw : Int) (c : Ctx) (e : Entry) (s : State) :
    State :=
  s.motionEffect c e .other fun s =>
    if (s.cams.lookup table).isNone then s.reject e stRejIncons
    else if !s.masterOk e.tgt master then s.reject e stRejIncons
    else
      let new : Eng := { isCam := true, master := master, table := table, cubic := cubic, oc := oc, cont := cont, b := b,
                         st := .catching, id := some e.id }
      if mode = 2 then
        let old := match (s.axis e.tgt).mo.switch with
          | some (x, _) => (match x.id with | some i => [(i, stSuperseded)] | none => [])
          | none => []
        let new := { new with pmPrev := s.pmBefore e.tgt master }
        s.admitted e (s.segOf e.tgt)
          ((s.modAxis e.tgt fun ax => { ax with mo := { ax.mo with switch := some (new, xsw) } }).endMotion c e.tgt old)
      else if mode = 1 then
        let w := s.camWait e.tgt new
        s.engageAdmit c e (fun m => { m with retained := some w }) [(e.id, stDone)]
      else s.engageAdmit c e (fun m => { m with src := .eng new }) []

/-- A cam drives the axis. -/
def Motion.onCam (m : Motion) : Bool :=
  match m.src with
  | .eng e => e.isCam
  | _ => false

/-- CAM_DISENGAGE at its apply point: the cam is left; a pending switch is withdrawn (R322, R336). -/
def fxCamDisengage (holdVel : Bool) (c : Ctx) (e : Entry) (s : State) : State :=
  s.motionEffect c e .other fun s =>
    let m := (s.axis e.tgt).mo
    if !m.onCam then s.reject e stRejIncons
    else
      let l := m.leave stSuperseded false
      let m1 :=
        if holdVel then { l.1 with src := .jog l.1.v none }
        else l.1.startStop false (s.twoSteps e.tgt) (s.loopsClosed e.tgt) 1 false []
      s.admitted e (s.segOf e.tgt)
        ((s.modAxis e.tgt fun ax => { ax with mo := m1 }).endMotion c e.tgt (endingOf l.2 ++ [(e.id, stDone)]))

/-- PHASE_IN at its apply point (R323). -/
def fxPhaseIn (w : Int) (c : Ctx) (e : Entry) (s : State) : State :=
  s.motionEffect c e .other fun s =>
    match (s.axis e.tgt).mo.retained with
    | none => s.reject e stRejIncons
    | some r =>
      let new := { r with st := .phasing w 0 0 0 false, id := some e.id }
      s.engageAdmit c e (fun m => { m with src := .eng new, retained := none }) []

/-! ## Interpolation groups (R308 to R311) -/

/-- The axes of a member mask of segment k. -/
def maskAxes (k mask : Nat) : List Nat := ((List.range 64).filter fun i => bit mask i).map fun i => 64 * k + i

/-- The result of a group descriptor that ends at its apply point: its cycle. -/
def groupResult (c : Ctx) : List Byte := leBytes 3 (tagOf c.n) ++ [BitVec.ofNat 8 c.m] ++ zeros 4

/-- A group of interpolation may be formed of these axes. -/
def State.mayForm (s : State) (g : Nat) (l : List Nat) : Bool :=
  decide (l ≠ [] ∧ l.length ≤ 16) &&
    l.all fun a => decide ((s.axis a).set.kind ≠ .trq) &&
      match s.igroupOf a with
      | some (h, _) => decide (h = g)
      | none => true

/-- GROUP_MOVE DEFINE. A group that is formed already is formed anew unless it moves. -/
def State.groupDefine (s : State) (c : Ctx) (e : Entry) (k mask : Nat) : State :=
  let l := maskAxes k mask
  let moving := match s.igroups.lookup e.tgt with | some g => g.moving.isSome | none => false
  if moving then s.reject e stRejIncons
  else if !s.mayForm e.tgt l then s.reject e stRejIncons
  else
    let s' := { s with igroups := SMap.insert (SMap.erase s.igroups e.tgt) e.tgt { seg := k, members := l } }
    if admitChange s s' k then s'.finish e.id stDone (groupResult c) else s.reject e stRejCap

/-- GROUP_MOVE DISSOLVE. -/
def State.groupDissolve (s : State) (c : Ctx) (e : Entry) : State :=
  match s.igroups.lookup e.tgt with
  | none => s.reject e stRejIncons
  | some g =>
    if g.moving.isSome then s.reject e stRejIncons
    else
      let s' := { s with igroups := SMap.erase s.igroups e.tgt }
      if admitChange s s' g.seg then s'.finish e.id stDone (groupResult c) else s.reject e stRejCap

/-- A member bars a MOVE of its group (R309). -/
def State.memberBusy (s : State) (a : Nat) : Bool :=
  let m := (s.axis a).mo
  decide (m.v ≠ 0 ∨ m.a ≠ 0) ||
    match m.src with
    | .eng _ => true
    | .follow _ => true
    | .path _ => true
    | _ => false

/-- The dominant member: the largest |D| / VMAX, the lowest axis on a tie; pairs are |D| and VMAX. -/
def dominant (l : List (Int × Int)) : Int × Int :=
  l.foldl (fun acc x => if acc.1 * x.2 < x.1 * acc.2 then x else acc) (l.headD (0, 1))

/-- A limit of the path: the least of lim × L / |D| over members with D ≠ 0, rounded toward zero. -/
def pathLimit (len : Int) (l : List (Int × Int)) (dflt : Int) : Int :=
  let xs := (l.filter fun x => decide (x.2 ≠ 0)).map fun x => x.1 * len / x.2
  match xs with
  | [] => dflt
  | x :: r => r.foldl min x

/-- GROUP_MOVE MOVE: every member takes its copy of the path. -/
def State.groupGo (s : State) (c : Ctx) (e : Entry) (g : IGroup) (xs : List Int) : State :=
  let mo (a : Nat) : Motion := (s.axis a).mo
  let ds := (List.range g.members.length).map fun i => xs.getD i 0 - (mo (g.members.getD i 0)).pStar
  let absD := ds.map fun d => (d.natAbs : Int)
  let dom := dominant (List.zip absD (g.members.map fun a => (mo a).vmax))
  let len := dom.1
  let lim (f : Motion → Int) : Int :=
    pathLimit len (List.zip (g.members.map fun a => f (mo a)) absD) (f (mo (g.members.headD 0)))
  let vmax := lim Motion.vmax
  let amax := lim Motion.amax
  let dmax := lim Motion.dmax
  let destop := lim Motion.destop
  let jmax := lim Motion.jmax
  let copy (p0 d : Int) : PathCopy :=
    { g := e.tgt, p0 := p0, d := d, len := up48 len, vmax := vmax, amax := amax, dmax := dmax, destop := destop,
      jmax := jmax }
  let s := (List.range g.members.length).foldl (fun s i =>
    let a := g.members.getD i 0
    let x := copy (s.axis a).mo.pStar (ds.getD i 0)
    s.engage c a (fun m => { m with src := .path x }) []) s
  s.modIGroup e.tgt fun x => { x with moving := some e.id, arrived := [], stopping := false, stopIds := [] }

/-- The status with which a MOVE of a group is turned away, if any. -/
def State.groupBar (s : State) (c : Ctx) (g : IGroup) (n : Nat) : Option Nat :=
  if g.members.any fun a => (s.axis a).fault then some stRejMode
  else if g.moving.isSome ∨ n ≠ g.members.length then some stRejIncons
  else if g.members.any (fun a => s.memberBusy a || !(s.axis a).mo.hasLim) then some stRejIncons
  else if g.members.any c.stopped.contains then some stAborted
  else none

/-- GROUP_MOVE at its apply point. -/
def fxGroupMove (f : GroupFn) (c : Ctx) (e : Entry) (s : State) : State :=
  let seg : Option Nat := match f with
    | .define k _ => some k
    | _ => (s.igroups.lookup e.tgt).map (·.seg)
  let stopped : Bool := match seg with | some k => s.stopActs k | none => false
  if s.pw.mode = .commission ∨ s.pw.mode = .idle ∨ stopped = true then s.reject e stRejMode
  else
    match f with
    | .define k mask => s.groupDefine c e k mask
    | .dissolve => s.groupDissolve c e
    | .move xs =>
      match s.igroups.lookup e.tgt with
      | none => s.reject e stRejIncons
      | some g =>
        match s.groupBar c g xs.length with
        | some st => if st = stAborted then s.finish e.id st (groupResult c) else s.reject e st
        | none => s.groupGo c e g xs

/-! ## The commands -/

/-- MOVE_ABS takes effect (R291, R294). -/
def execMoveAbs (t : Nat) (h : DHdr) (x : Int) (s : State) : Host.Outcome State Fault Refusal :=
  s.does t fun s => s.runDescr h (.moveAbs x) (fxMoveAbs x)

/-- MOVE_REL takes effect (R293, R315). -/
def execMoveRel (t : Nat) (h : DHdr) (d : Int) (s : State) : Host.Outcome State Fault Refusal :=
  s.does t fun s => s.runDescr h (.moveRel d) (fxMoveRel d)

/-- JOG takes effect (R299). -/
def execJog (t : Nat) (h : DHdr) (v : Int) (s : State) : Host.Outcome State Fault Refusal :=
  s.does t fun s => s.runDescr h (.jog v) (fxJog v)

/-- STOP takes effect (R325 to R331). -/
def execStop (t : Nat) (h : DHdr) (s : State) : Host.Outcome State Fault Refusal :=
  s.does t fun s => s.runDescr h .stop fxStop

/-- LIMITS takes effect (R288, R298). -/
def execLimits (t : Nat) (h : DHdr) (vmax amax dmax destop jmax : Int) (s : State) : Host.Outcome State Fault Refusal :=
  s.does t fun s => s.runDescr h (.limits vmax amax dmax destop jmax) (fxLimits vmax amax dmax destop jmax)

/-- FOLLOW takes effect (R303). -/
def execFollow (t : Nat) (h : DHdr) (ai pos : Bool) (src : Nat) (g : Coef) (lagmax : Int) (s : State) :
    Host.Outcome State Fault Refusal :=
  s.does t fun s => s.runDescr h (.follow ai pos src g lagmax) (fxFollow ai pos src g lagmax)

/-- GEAR takes effect (R312 to R315). -/
def execGear (t : Nat) (h : DHdr) (wait : Bool) (master : Nat) (n m ofs : Int) (s : State) :
    Host.Outcome State Fault Refusal :=
  s.does t fun s => s.runDescr h (.gear wait master n m ofs) (fxGear wait master n m ofs)

/-- CAM_ENGAGE takes effect (R320, R321). -/
def execCamEngage (t : Nat) (h : DHdr) (table : Nat) (cont cubic : Bool) (mode master : Nat) (oc b xsw : Int) (s : State) :
    Host.Outcome State Fault Refusal :=
  s.does t fun s =>
    s.runDescr h (.camEngage table cont cubic mode master oc b xsw) (fxCamEngage table cont cubic mode master oc b xsw)

/-- CAM_DISENGAGE takes effect (R322). -/
def execCamDisengage (t : Nat) (h : DHdr) (holdVel : Bool) (s : State) : Host.Outcome State Fault Refusal :=
  s.does t fun s => s.runDescr h (.camDisengage holdVel) (fxCamDisengage holdVel)

/-- GROUP_MOVE takes effect (R308 to R311). -/
def execGroupMove (t : Nat) (h : DHdr) (f : GroupFn) (s : State) : Host.Outcome State Fault Refusal :=
  s.does t fun s => s.runDescr h (.groupMove f) (fxGroupMove f)

/-- PHASE_IN takes effect (R323). -/
def execPhaseIn (t : Nat) (h : DHdr) (w : Int) (s : State) : Host.Outcome State Fault Refusal :=
  s.does t fun s => s.runDescr h (.phaseIn w) (fxPhaseIn w)

end Sys2Proof.Machine
end

