-- ==== Sys2Proof/Machine/Conf.lean ====
section
/-! DEFINITION. The configuration of axes and groups at its apply points: axis MODE and AXIS_CFG (04 R155 to R167, 14
R566, 18 R734), coefficients, terraces and filters (04 R174 to R202), learning, RESAMPLE, coupling and identification
(05), and cam tables (07 R318). -/

namespace Sys2Proof.Machine

/-! ## The frame of a configuration descriptor -/

/-- A descriptor that targets an axis or group of a segment that SEGMENT_STOP holds is rejected (16 R639). -/
def State.confEffect (s : State) (e : Entry) (seg : Option Nat) (f : State → State) : State :=
  let stopped : Bool := match seg with | some k => s.stopActs k | none => false
  if stopped then s.reject e stRejMode else f s

/-- The same for a network or step axis. -/
def State.axisEffect (s : State) (e : Entry) (f : State → State) : State := s.confEffect e (s.segOf e.tgt) f

/-! ## Axis MODE (R166, R167; 16 R638; 18 R734) -/

/-- An axis may be asked for code 2 in the controller's mode. -/
def State.mayClose (s : State) : Bool :=
  match s.pw.mode with
  | .run => true
  | .degraded => decide (s.pw.degradedFrom = .run)
  | .follow => decide (s.tw.peerMode = 5 ∨ s.tw.peerMode = 6)
  | _ => false

/-- The status with which an axis MODE is turned away, if any. -/
def State.axisModeBar (s : State) (a code : Nat) : Option Nat :=
  if code = 0 then none
  else if s.stoppedBy a ∨ s.pw.mode = .idle ∨ s.pw.mode = .commission ∨ s.pw.mode = .safeHold then some stRejMode
  else if code = 2 ∧ ¬ s.mayClose then some stRejMode
  else if (s.axis a).fault ∧ (s.axis a).faultBy.any (fun x => s.isLive x.1) then some stRejIncons
  else none

/-- The axis takes a mode and its FAULT ends. -/
def Axis.setMode (ax : Axis) (m : AxisMode) : Axis :=
  { ax with mode := m, fault := false, faultBy := [], heldOpen := false, req := none }

/-- The axis mode of a code. -/
def AxisMode.ofCode (c : Nat) : AxisMode := if c = 0 then .disabled else if c = 1 then .enabled else .closed

/-- MODE of an axis at its apply point. -/
def fxAxisMode (code : Nat) (c : Ctx) (e : Entry) (s : State) : State :=
  match s.axisModeBar e.tgt code with
  | some st => s.reject e st
  | none => (s.modAxis e.tgt fun ax => ax.setMode (AxisMode.ofCode code)).doneOn c e e.tgt

/-! ## AXIS_CFG (R155 to R157, R188, R325, R566, R796) -/

/-- The learning source after AXIS_CFG (Table 05.3). -/
def learnSrcOf (k : AxisKind) : Nat := match k with | .vel => 1 | .trq => 2 | _ => 0

/-- The setting an AXIS_CFG makes, from the one in force. -/
def AxisSet.config (old : AxisSet) (a : Nat) (x : AxisCfg) : AxisSet :=
  let k := AxisKind.ofCode x.kind
  let pol := decide (512 ≤ a) || decide (k ≠ .trq)
  let base : AxisSet :=
    if 512 ≤ a then old
    else { old with kind := k, aw := x.aw, fbFrac := x.fbFrac, vffFrac := x.vffFrac, stages := x.stages }
  { base with
    faultPol := if pol then x.faultPol else old.faultPol, stopPol := if pol then x.stopPol else old.stopPol,
    noReverse := x.noReverse, cross := x.cross, catchK := x.catchK, catchV := x.catchV }

/-- The motion state after AXIS_CFG, and the descriptors that end ABORTED (R796). -/
def Motion.afterConfig (m : Motion) (p : Int) : Motion × List (Nat × Nat) :=
  let l := m.leave stAborted false
  let ids := match m.stop with | some r => r.ends stAborted | none => []
  ({ p := up48 p, zeroTq := m.zeroTq, ending := l.1.ending }, endingOf l.2 ++ ids)

/-- The axis after AXIS_CFG. -/
def Axis.config (ax : Axis) (a : Nat) (x : AxisCfg) (mo : Motion) : Axis :=
  let set := ax.set.config a x
  { ax with
    set := set, mo := mo, co := {}, ter := {}, ln := { src := learnSrcOf set.kind }, fb := { ax.fb with seen := false, repFault := false },
    lp := { ax.lp with fill := 0 } }

/-- AXIS_CFG takes the setting; a path the axis runs on stops (R796). -/
def State.axisConfig (s : State) (c : Ctx) (e : Entry) (x : AxisCfg) : State :=
  let a := e.tgt
  let ax := s.axis a
  let s := match ax.onPath with
    | some g => (s.stopPath g ax.set.faultPol []).pathEnded g a c.n c.m true
    | none => s
  let s := match ax.ln.resample with
    | some r => s.finish r.id stAborted (zeros 8)
    | none => s
  let m := (s.axis a).mo.afterConfig (s.axis a).fb.p
  let s := s.modAxis a fun ax => ax.config a x m.1
  (s.endMotion c a m.2).doneOn c e a

/-- AXIS_CFG at its apply point. -/
def fxAxisCfg (x : AxisCfg) (c : Ctx) (e : Entry) (s : State) : State :=
  s.axisEffect e fun s =>
    if (s.axis e.tgt).mode ≠ .disabled then s.reject e stRejMode
    else
      s.admitted e (s.segOf e.tgt) (s.axisConfig c e x)

/-! ## Coefficients (R188 to R202) -/

/-- An entry of Table 04.4 written in the copies that a SETC names. -/
def Coefs.setc (c : Coefs) (index terrace : Nat) (v : Coef) : Coefs :=
  if index ≤ 0x1A then
    (if terrace = 0xF then (List.range 4).foldl (fun c t => c.put (c.key false t index) v) c
     else c.put (c.key false terrace index) v)
  else if index ≤ 0x2F then c.put (c.firKey false (index - 0x20)) v
  else if index = 0x30 then { c with kve := v }
  else if index = 0x31 then { c with vlim := v.m }
  else if index = 0x32 then { c with xpLim := v.m }
  else if index = 0x33 then { c with xvLim := v.m }
  else if index = 0x34 then { c with tlimPos := v.m }
  else if index = 0x35 then { c with tlimNeg := v.m }
  else if index = 0x36 then { c with dtlim := v.m }
  else if index = 0x37 then { c with tqSet := v.m }
  else { c with auxOut := toU 32 v.m }

/-- SETC at its apply point; a write of TQ_SET ends the zero torque of a stop outside FAULT (R331). -/
def fxSetc (index terrace : Nat) (v : Coef) (c : Ctx) (e : Entry) (s : State) : State :=
  s.axisEffect e fun s =>
    (s.modAxis e.tgt fun ax =>
      { ax with co := ax.co.setc index terrace v,
                mo := { ax.mo with zeroTq := ax.mo.zeroTq && !(decide (index = 0x37) && !ax.fault) } }).doneOn c e e.tgt

/-- Entries written into the inactive bank. -/
def Coefs.loadset (c : Coefs) (first terrace : Nat) (vals : List Coef) : Coefs :=
  (List.range vals.length).foldl (fun c i =>
    let v := vals.getD i Coef.zero
    if first ≤ 0x1A then c.put (c.key true terrace (first + i)) v else c.put (c.firKey true (first + i - 0x20)) v) c

/-- LOADSET at its apply point. -/
def fxLoadset (first terrace : Nat) (vals : List Coef) (c : Ctx) (e : Entry) (s : State) : State :=
  s.axisEffect e fun s =>
    (s.modAxis e.tgt fun ax => { ax with co := ax.co.loadset first terrace vals }).doneOn c e e.tgt

/-- SWAPSET at its apply point. -/
def fxSwapset (mask : Nat) (c : Ctx) (e : Entry) (s : State) : State :=
  s.axisEffect e fun s =>
    (s.modAxis e.tgt fun ax => { ax with co := { ax.co with bank := ax.co.bank ^^^ (mask % 32) } }).doneOn c e e.tgt

/-! ## Terraces and filters (R176, R190 to R197) -/

/-- TERRACE at its apply point. -/
def fxTerrace (sel n b : Nat) (t1 t2 t3 h : Int) (c : Ctx) (e : Entry) (s : State) : State :=
  s.axisEffect e fun s =>
    if sel = 2 ∧ (s.axis e.tgt).ln.master.isNone then s.reject e stRejIncons
    else
      s.admitted e (s.segOf e.tgt)
        ((s.modAxis e.tgt fun ax =>
          { ax with ter := { ax.ter with sel := sel, n := n, b := b, t1 := t1, t2 := t2, t3 := t3, h := h } }).doneOn c e e.tgt)

/-- One section of S4 enabled or disabled (R176): section q is bit q + 1 of the stage enables. -/
def Axis.section (ax : Axis) (q : Nat) (on : Bool) : Axis :=
  let was := bit ax.set.stages (q + 1)
  if was = on then ax
  else if on then
    { ax with set := { ax.set with stages := ax.set.stages + 2 ^ (q + 1) }, lp := { ax.lp with fill := ax.lp.fill ||| 2 ^ q } }
  else
    { ax with
      set := { ax.set with stages := ax.set.stages - 2 ^ (q + 1) }
      lp := { ax.lp with
        bq := if q < 4 then SMap.erase ax.lp.bq q else ax.lp.bq, fir := if q < 4 then ax.lp.fir else [],
        fill := if bit ax.lp.fill q then ax.lp.fill - 2 ^ q else ax.lp.fill } }

/-- The sections a FILTER names. -/
def Axis.filter (ax : Axis) (changed enable : Nat) : Axis :=
  (List.range 5).foldl (fun ax q => if bit changed q then ax.section q (bit enable q) else ax) ax

/-- FILTER at its apply point. -/
def fxFilter (changed enable : Nat) (c : Ctx) (e : Entry) (s : State) : State :=
  s.axisEffect e fun s =>
    if (s.axis e.tgt).set.kind = .drv ∧ changed &&& enable &&& 0x1F ≠ 0 then s.reject e stRejIncons
    else s.admitted e (s.segOf e.tgt) ((s.modAxis e.tgt fun ax => ax.filter changed enable).doneOn c e e.tgt)

/-! ## Learning (05 R216, R225 to R228) -/

/-- A learning source is allowed for a kind (Table 05.2). -/
def learnSrcOk (k : AxisKind) (src : Nat) : Bool :=
  match k with
  | .pos => decide (src ≤ 1)
  | .vel => decide (src = 1)
  | .drv => decide (src = 0)
  | .trq => decide (src = 2)

/-- The rejection of a LEARN function against the axis's state: status and offset. -/
def State.learnBar (s : State) (a : Nat) (f : LearnFn) : Option (Nat × Nat) :=
  let ax := s.axis a
  match f with
  | .mode m =>
    if m ≠ 0 ∧ ¬ bit ax.set.stages 6 then some (stRejIncons, 0)
    else if m ≠ 0 ∧ ax.ln.master.isNone then some (stRejIncons, 0)
    else none
  | .master _ m _ _ =>
    if !s.masterOk a m then some (stRejIncons, 0) else if ax.ln.resample.isSome then some (stRejIncons, 0) else none
  | .gains src lead _ _ =>
    if !learnSrcOk ax.set.kind src then some (stRejIncons, 0)
    else if 2 ^ (ax.ln.log2n - 1) ≤ lead then some (stRejRange, 14)
    else none
  | .shape .. => none
  | .clear => if ax.ln.resample.isSome then some (stRejIncons, 0) else none

/-- The learning state after a LEARN function. -/
def Learning.apply (g : Learning) (f : LearnFn) : Learning :=
  match f with
  | .mode m => { g with mode := m }
  | .master l m p o =>
    { g with master := some m, period := p, origin := o, log2n := l, bins := if l = g.log2n then g.bins else [],
             phiPrev := none, masterOk := true }
  | .gains src lead kl ff => { g with src := src, lead := lead, kl := kl, ff := ff }
  | .shape s0 s1 lmin llim => { g with s0 := s0, s1 := s1, lmin := lmin, llim := llim }
  | .clear => { g with bins := [] }

/-- LEARN at its apply point. -/
def fxLearn (f : LearnFn) (c : Ctx) (e : Entry) (s : State) : State :=
  s.axisEffect e fun s =>
    match s.learnBar e.tgt f with
    | some (st, off) => s.rejectAt e st off
    | none => (s.modAxis e.tgt fun ax => { ax with ln := ax.ln.apply f }).doneOn c e e.tgt

/-! ## RESAMPLE (05 R229 to R233) -/

/-- The segments' axes with a RESAMPLE pending in a valley. -/
def State.resampling (s : State) (v : Nat) : List Nat :=
  (s.axes.filter fun x => decide (x.1 / 128 = v ∧ x.1 < 512) && x.2.ln.resample.isSome).map (·.1)

/-- The swap cycle of a tag as judged at a start point in cycle n (R561): none when it is late. -/
def swapCycle (n tag : Nat) : Option Nat :=
  let next := (n + 1) % 2 ^ 40
  let d := (tag + 2 ^ 24 - tagOf next) % 2 ^ 24
  if 2 ^ 23 ≤ d then none else some ((next + d) % 2 ^ 40)

/-- RESAMPLE at its start point. A tag that names the start point's own cycle has its swap point at or before it. -/
def fxResample (log2n tag : Nat) (c : Ctx) (e : Entry) (s : State) : State :=
  s.axisEffect e fun s =>
    let g := (s.axis e.tgt).ln
    if g.log2n = log2n then s.reject e stRejIncons
    else if g.resample.isSome then s.reject e stRejIncons
    else if tag = tagOf c.n then s.reject e stRejIncons
    else
      match swapCycle c.n tag with
      | none => s.reject e stRejLate
      | some n =>
        if 4 ≤ (s.resampling (e.tgt / 128)).length then s.reject e stRejCap
        else
          (s.modAxis e.tgt fun ax =>
            { ax with ln := { ax.ln with resample := some { id := e.id, log2n := log2n, swapN := n } } }).issueSoft
              (.resample e.tgt)

/-! ## Coupling groups (05 R234 to R242) -/

/-- The rejection of a COUPLE against the state: status and offset (R235). -/
def State.coupleBar (s : State) (g : Nat) (f : CoupleFn) : Option (Nat × Nat) :=
  match f with
  | .define velocity k mask _ =>
    let l := maskAxes k mask
    if (s.cgroups.lookup g).isSome then some (stRejIncons, 0)
    else if l.any fun a => (s.cgroupOf a).isSome || !bit (s.axis a).set.stages 7 then some (stRejIncons, 0)
    else if velocity && l.any (fun a => decide ((s.axis a).set.kind ≠ .drv)) then some (stRejIncons, 0)
    else none
  | .load e vals =>
    match s.cgroups.lookup g with
    | none => some (stRejIncons, 0)
    | some c =>
      let n := c.members.length
      if (List.range vals.length).any fun i => decide (n ≤ (e + i) / 16 ∨ n ≤ (e + i) % 16) then some (stRejRange, 14) else none
  | _ => if (s.cgroups.lookup g).isSome then none else some (stRejIncons, 0)

/-- The matrix elements of a LOAD written in the inactive bank. -/
def CGroup.load (g : CGroup) (e : Nat) (vals : List Coef) : CGroup :=
  (List.range vals.length).foldl (fun g i =>
    { g with k := SMap.put Coef.zero g.k (256 * (1 - g.active) + (e + i)) (vals.getD i Coef.zero) }) g

/-- The effect of a COUPLE that passed its checks. -/
def State.couple (s : State) (g : Nat) (f : CoupleFn) : State :=
  match f with
  | .define velocity k mask clim =>
    let x : CGroup := { seg := k, velocity := velocity, members := maskAxes k mask, clim := clim }
    { s with cgroups := SMap.insert (SMap.erase s.cgroups g) g x }
  | .load e vals => s.modCGroup g fun c => c.load e vals
  | .swap => s.modCGroup g fun c => { c with active := 1 - c.active }
  | .dissolve => { s with cgroups := SMap.erase s.cgroups g }

/-- COUPLE at its apply point. -/
def fxCouple (f : CoupleFn) (_ : Ctx) (e : Entry) (s : State) : State :=
  let seg := s.targetSeg (.couple f) e.tgt
  s.confEffect e seg fun s =>
    match s.coupleBar e.tgt f with
    | some (st, off) => s.rejectAt e st off
    | none => s.admitted e seg ((s.couple e.tgt f).finish e.id stDone (zeros 8))

/-! ## Identification (05 R244, R253) -/

/-- An identification of the axis runs. -/
def Axis.identRuns (ax : Axis) : Bool := match ax.ident with | some x => !x.ended | none => false

/-- The identifications that run in the device. -/
def State.identsRunning (s : State) : Nat :=
  (s.axes.filter fun x => x.2.identRuns).length

/-- The device's mode admits identification: RUN, or a follower of a leader in RUN. -/
def State.inRun (s : State) : Bool := decide (s.pw.mode = .run) || (s.following && decide (s.tw.peerMode = 5))

/-- The rejection of an IDENT START against the state. -/
def State.identBar (s : State) (a : Nat) : Option Nat :=
  if !(s.inRun && s.loopsClosed a) then some stRejMode
  else if s.fenced (srcCode 4 0x004) then some stFailedHw
  else if (s.axis a).set.kind = .drv ∨ (s.axis a).identRuns then some stRejIncons
  else if 8 ≤ s.identsRunning then some stRejCap
  else none

/-- IDENT at its apply point. -/
def fxIdent (f : IdentFn) (c : Ctx) (e : Entry) (s : State) : State :=
  s.axisEffect e fun s =>
    match f with
    | .start exc rsp m settle a w20 w24 emax =>
      (match s.identBar e.tgt with
      | some st => s.reject e st
      | none =>
        let x : Ident := { id := e.id, seq := e.seq, exc := exc, rsp := rsp, blocks := m, settle := settle, amp := a,
                           w20 := w20, w24 := w24, emax := emax }
        s.modAxis e.tgt fun ax => { ax with ident := some x, identWas := ax.ident.toList ++ ax.identWas })
    | .cancel =>
      match (s.axis e.tgt).ident with
      | none => s.reject e stRejIncons
      | some x =>
        if x.ended then s.reject e stRejIncons
        else
          let s := if c.job then s.modAxis e.tgt fun ax => { ax with ident := some { x with cancel := true } }
                   else s.endIdent e.tgt stAborted 1
          s.doneOn c e e.tgt

/-! ## Cam tables (07 R318, 01 R35) -/

/-- Points the store holds in all: 512 Ki (00 scope). -/
def camStorePoints : Nat := 524288

/-- The points in use, without table t. -/
def State.camPoints (s : State) (t : Nat) : Nat :=
  ((s.cams.filter fun c => decide (c.1 ≠ t)).map fun c => c.2.y.length).sum

/-- An axis is engaged on cam table t, or has a switch pending to it. -/
def Motion.usesCam (m : Motion) (t : Nat) : Bool :=
  (match m.src with | .eng e => e.isCam && decide (e.table = t) | _ => false) ||
    (match m.switch with | some (e, _) => decide (e.table = t) | none => false)

/-- CAM_LOAD at its apply point. -/
def fxCamLoad (table k : Nat) (sp rise : Int) (y : List Int) (_ : Ctx) (e : Entry) (s : State) : State :=
  if s.fenced (srcCode 4 0x003) ∧ s.asy.camBad.contains table then s.reject e stFailedHw
  else if s.axes.any fun x => x.2.mo.usesCam table then s.rejectAt e stRejLocked 0
  else if camStorePoints < s.camPoints table + k then s.reject e stRejCap
  else
    ({ s with cams := SMap.insert (SMap.erase s.cams table) table { s := sp, rise := rise, y := y.take k } }).finish e.id
      stDone (zeros 8)

/-! ## The commands -/

/-- SETC takes effect (R198). -/
def execSetc (t : Nat) (h : DHdr) (index terrace : Nat) (v : Coef) (s : State) : Host.Outcome State Fault Refusal :=
  s.does t fun s => s.runDescr h (.setc index terrace v) (fxSetc index terrace v)

/-- LOADSET takes effect (R200). -/
def execLoadset (t : Nat) (h : DHdr) (first terrace : Nat) (vals : List Coef) (s : State) :
    Host.Outcome State Fault Refusal :=
  s.does t fun s => s.runDescr h (.loadset first terrace vals) (fxLoadset first terrace vals)

/-- SWAPSET takes effect (R201). -/
def execSwapset (t : Nat) (h : DHdr) (mask : Nat) (s : State) : Host.Outcome State Fault Refusal :=
  s.does t fun s => s.runDescr h (.swapset mask) (fxSwapset mask)

/-- TERRACE takes effect (R191, R196). -/
def execTerrace (t : Nat) (h : DHdr) (sel n b : Nat) (t1 t2 t3 hyst : Int) (s : State) :
    Host.Outcome State Fault Refusal :=
  s.does t fun s => s.runDescr h (.terrace sel n b t1 t2 t3 hyst) (fxTerrace sel n b t1 t2 t3 hyst)

/-- FILTER takes effect (R176). -/
def execFilter (t : Nat) (h : DHdr) (changed enable : Nat) (s : State) : Host.Outcome State Fault Refusal :=
  s.does t fun s => s.runDescr h (.filter changed enable) (fxFilter changed enable)

/-- LEARN takes effect (R227). -/
def execLearn (t : Nat) (h : DHdr) (f : LearnFn) (s : State) : Host.Outcome State Fault Refusal :=
  s.does t fun s => s.runDescr h (.learn f) (fxLearn f)

/-- RESAMPLE reaches its start point (R229, R230). -/
def execResample (t : Nat) (h : DHdr) (log2n tag : Nat) (s : State) : Host.Outcome State Fault Refusal :=
  s.does t fun s => s.runDescr h (.resample log2n tag) (fxResample log2n tag)

/-- COUPLE takes effect (R234, R235). -/
def execCouple (t : Nat) (h : DHdr) (f : CoupleFn) (s : State) : Host.Outcome State Fault Refusal :=
  s.does t fun s => s.runDescr h (.couple f) (fxCouple f)

/-- IDENT takes effect (R244, R253). -/
def execIdent (t : Nat) (h : DHdr) (f : IdentFn) (s : State) : Host.Outcome State Fault Refusal :=
  s.does t fun s => s.runDescr h (.ident f) (fxIdent f)

/-- CAM_LOAD takes effect (R318). -/
def execCamLoad (t : Nat) (h : DHdr) (table k : Nat) (sp rise : Int) (y : List Int) (s : State) :
    Host.Outcome State Fault Refusal :=
  s.does t fun s => s.runDescr h (.camLoad table k sp rise y) (fxCamLoad table k sp rise y)

/-- AXIS_CFG takes effect (R566, R796). -/
def execAxisCfg (t : Nat) (h : DHdr) (c : AxisCfg) (s : State) : Host.Outcome State Fault Refusal :=
  s.does t fun s => s.runDescr h (.axisCfg c) (fxAxisCfg c)

end Sys2Proof.Machine
end

