-- ==== Sys2Proof/Machine/Assay.lean ====
section
/-! DEFINITION. The assay unit (16): the release of marks to the ledger, the event ring and their reactions, the
clearing of the ledger, fault injection, and the lifting of fences. -/

namespace Sys2Proof.Machine

/-! ## Marks released (R626 to R633, R640, R641) -/

/-- The 32 bytes of a mark (Table 16.1). -/
def markBytes (m : Mark) : List Byte :=
  leBytes 2 m.src ++ [BitVec.ofNat 8 m.kind, BitVec.ofNat 8 (16 * m.cls + m.react)] ++ leBytes 4 m.addr ++
    leBytes 3 (tagOf m.cyc) ++ [BitVec.ofNat 8 m.seq] ++ leBytes 8 m.mt ++ padTo 11 m.detail ++
    [BitVec.ofNat 8 (128 * b2n m.inj + 64 * b2n m.withheld)]

/-- The order of marks: detection time, then source code, then kind code (R627). -/
def markLt (a b : Mark) : Bool :=
  decide (a.mt < b.mt) || (decide (a.mt = b.mt) && (decide (a.src < b.src) || (decide (a.src = b.src) && decide (a.kind < b.kind))))

/-- A mark put into the order, behind its equals. -/
def insertMark (m : Mark) : List Mark → List Mark
  | [] => [m]
  | x :: r => if markLt m x then m :: x :: r else x :: insertMark m r

/-- The marks that MT has passed by 4 µs, in order (R627). -/
def State.dueMarks (s : State) : List Mark :=
  (s.asy.held.filter fun m => decide (m.mt + 4000 ≤ s.mt)).foldl (fun acc m => insertMark m acc) []

/-- The reaction a mark takes when it is released, after fall-back (R624, R640). -/
def State.releaseCode (s : State) (m : Mark) : Nat := if m.applied then m.react else s.fallBack m.src m.react

/-- SAFE_HOLD among the marks of one core clock replaces every AXIS_STOP and SEGMENT_STOP of that clock (R641). -/
def State.clockCode (s : State) (l : List Mark) (m : Mark) : Nat :=
  let c := s.releaseCode m
  if (c = 6 ∨ c = 7) ∧ ¬ m.applied ∧ (l.any fun x => decide (x.mt = m.mt) && decide (s.releaseCode x = 8)) then 8 else c

/-- Write a mark to the ledger, unless the ledger is fenced or the limit of the major cycle drops it (R631, R632, 01
R35). -/
def State.ledgerWrite (s : State) (m : Mark) : State :=
  let bytes := markBytes m
  let a := s.asy
  if 64 ≤ a.written ∧ m.cls ≤ 1 then
    { s with asy := { a with drop := (a.drop + 1) % 2 ^ 32, dropped := a.dropped + 1 } }
  else
    let a := { a with written := a.written + 1, ff := (match a.ff with | none => some bytes | x => x),
                      ffe := (match a.ffe with | none => if 2 ≤ m.cls then some bytes else none | x => x) }
    if s.fenced (srcCode 4 0x006) then { s with asy := a }
    else
      { s with asy := { a with ledger := SMap.put [] a.ledger a.next bytes, next := (a.next + 1) % 64,
                               cnt := min 64 (a.cnt + 1), unpersisted := min 64 (a.unpersisted + 1) } }

/-- A mark was dropped under R632. -/
def State.markDropped (s : State) (m : Mark) : Bool := decide (64 ≤ s.asy.written ∧ m.cls ≤ 1)

/-- Mirror a mark to the event ring, and to the twin at a paired leader (R628, 15 R598). -/
def State.mirror (s : State) (m : Mark) : State :=
  if s.following ∨ (m.cls = 0 ∧ ¬ bit (s.force 0x100000) 2) then s
  else
    let s := s.post 24 (markBytes m)
    if s.leads then s.sendTwin 0x8 0xFF (tagOf m.cyc) 0 (markBytes m) else s

/-- Release one mark with the reaction code settled for it. -/
def State.releaseMark (s : State) (m : Mark) (code : Nat) : State :=
  let held := s.withholds m.kind code
  let shown := if held then 0 else code
  let m1 := { m with react := shown, withheld := held }
  let s := if s.markDropped m1 then s.ledgerWrite m1 else (s.ledgerWrite m1).mirror m1
  if m.applied then s else s.takeReaction m.src m.kind m.addr code m.detail

/-- The assay unit as a source of marks. -/
def srcAssay : Nat := srcCode 4 0x00B

/-- MARK_RELEASE: every mark that is due is written in order and its reaction is applied (R627). What is due while the assay
unit itself is fenced is discarded (01 R44). -/
def execMarkRelease (t : Nat) (s : State) : Host.Outcome State Fault Refusal :=
  s.does t fun s =>
    let due := if s.fenced srcAssay then [] else s.dueMarks
    let codes := due.map fun m => (m, s.clockCode due m)
    let s := { s with asy := { s.asy with held := s.asy.held.filter fun m => !decide (m.mt + 4000 ≤ s.mt) } }
    codes.foldl (fun s x => s.releaseMark x.1 x.2) s

/-! ## CLEAR_LEDGER (R634) -/

/-- CLEAR_LEDGER at its apply point. -/
def fxClearLedger (_ : Ctx) (e : Entry) (s : State) : State :=
  let n := s.asy.cnt
  let src := s.asy.src.map fun x => (x.1, { x.2 with sticky := x.2.sticky && !x.2.live.isEmpty })
  { s with asy := { s.asy with ledger := [], next := 0, cnt := 0, unpersisted := 0, ff := none, ffe := none,
                               src := src.filter fun x => decide (x.2 ≠ ({} : SrcSt)) } }.finish e.id stDone
    (leBytes 2 n ++ zeros 6)

/-- CLEAR_LEDGER takes effect. -/
def execClearLedger (t : Nat) (h : DHdr) (s : State) : Host.Outcome State Fault Refusal :=
  s.does t fun s => s.runDescr h .clearLedger fxClearLedger

/-! ## INJECT (R648 to R650) -/

/-- The sources with a checker that can be armed: SECDED stores of levels 1 to 4, parity of registers, lists and
fabrics, link CRCs, the FCS of a MAC, step-channel parity, and the twin message CRC (source 6 0x000, log 22). -/
def armable (src : Nat) : Bool :=
  let i := srcIdx src
  match srcLevel src with
  | 1 => decide (i < 128)
  | 2 => decide (i < 16)
  | 3 => decide (i < 4)
  | 4 => decide (3 ≤ i ∧ i ≤ 8) || decide (i = 0x00C) || decide (0x010 ≤ i ∧ i < 0x030)
  | 5 => decide (i < 4) || decide (0x110 ≤ i ∧ i < 0x120)
  | 6 => decide (i = 0)
  | _ => false

/-- A source of the safety island. -/
def safetySrc (src : Nat) : Bool := decide (src = srcCode 5 0x050 ∨ src = srcCode 5 0x051)

/-- INJECT at its apply point. -/
def fxInject (double : Bool) (src : Nat) (_ : Ctx) (e : Entry) (s : State) : State :=
  if s.pw.mode ≠ .commission ∧ s.pw.mode ≠ .idle then s.reject e stRejMode
  else if safetySrc src then s.reject e stRejSafety
  else if !armable src then s.rejectAt e stRejRange 14
  else if s.asy.armed.any fun x => decide (x.1 = src) then s.reject e stRejIncons
  else
    ({ s with asy := { s.asy with armed := s.asy.armed ++ [(src, double)] } }).finish e.id stDone (1 :: zeros 7)

/-- INJECT takes effect. -/
def execInject (t : Nat) (h : DHdr) (double : Bool) (src : Nat) (s : State) : Host.Outcome State Fault Refusal :=
  s.does t fun s => s.runDescr h (.inject double src) (fxInject double src)

/-- Checkers still armed when the mode leaves COMMISSION or IDLE are disarmed, with a mark each (R650). -/
def State.disarmAll (s : State) : State :=
  let l := s.asy.armed
  l.foldl (fun s x => s.raise x.1 0x19 0 []) { s with asy := { s.asy with armed := [] } }

/-! ## UNFENCE (R645 to R647, R803; 01 R44 to R47, R53; 03 R137) -/

/-- The elements that can be fenced. -/
def fenceable (src : Nat) : Bool :=
  let i := srcIdx src
  match srcLevel src with
  | 1 => decide (i < 128)
  | 2 => decide (i < 16)
  | 3 => decide (i < 4)
  | 4 => decide (i ≤ 0x00C) || decide (0x010 ≤ i ∧ i < 0x020)
  | 5 => decide (i = 0x040) || decide (0x110 ≤ i ∧ i < 0x120)
  | 6 => decide (0x060 ≤ i ∧ i < 0x068)
  | _ => false

/-- The element is fenced, or a hammer that is SLOW, which UNFENCE also returns (03 R137). -/
def State.unfenceable (s : State) (src : Nat) : Bool :=
  s.fenced src || (decide (srcLevel src = 1) && (s.hammer (srcIdx src)).slow)

/-- A segment at its committed cycle, counted in full. -/
def State.asCommitted (s : State) (k : Nat) : State :=
  s.modSeg k fun g => { g with halved := false, degStop := false, due := none }

/-- The rejection of an UNFENCE of segment k, if any (R645, R646). -/
def State.segUnfenceBar (s : State) (k : Nat) : Option Nat :=
  if s.fenced (srcValley (valleyOfSeg k)) ∨ s.fenced (srcCode 4 (0x018 + k)) ∨ s.fenced (srcCode 4 (0x010 + k)) then
    some stRejIncons
  else if !(s.asCommitted k).admitsSeg k then some stRejCap
  else none

/-- UNFENCE at its apply point: a segment waits for the boundary, any other element for its checks. -/
def fxUnfence (src : Nat) (_ : Ctx) (e : Entry) (s : State) : State :=
  if s.pw.mode = .reset ∨ s.pw.mode = .boot ∨ s.pw.mode = .safeHold then s.reject e stRejMode
  else if !fenceable src then s.rejectAt e stRejRange 14
  else if !s.unfenceable src ∨ s.pool.checks.any (fun c => decide (c.1 = src)) then s.reject e stRejIncons
  else if srcLevel src = 6 then
    (match s.segUnfenceBar (srcIdx src - 0x060) with
    | some st => s.reject e st
    | none => s.modSeg (srcIdx src - 0x060) fun g => { g with restore := some e.id })
  else s.modPool fun p => { p with checks := p.checks ++ [(src, e.id)] }

/-- UNFENCE takes effect. -/
def execUnfence (t : Nat) (h : DHdr) (src : Nat) (s : State) : Host.Outcome State Fault Refusal :=
  s.does t fun s => s.runDescr h (.unfence src) (fxUnfence src)

/-- UNFENCE_CHECK_DONE: the checks of an UNFENCE finish, all passed or not (R46, R47, R803). -/
def execUnfenceCheckDone (t : Nat) (src : Nat) (ok : Bool) (s : State) : Host.Outcome State Fault Refusal :=
  s.does t fun s =>
    match s.pool.checks.find? fun c => decide (c.1 = src) with
    | none => s
    | some (_, id) =>
      let s := s.modPool fun p => { p with checks := p.checks.filter fun c => decide (c.1 ≠ src),
                                           rejoin := if ok then p.rejoin ++ [src] else p.rejoin }
      (s.finish id (if ok then stDone else stFailedHw) (zeros 8)).postReady

/-- The network buffer of a segment is empty: no report, and no record of its twin, waits in it. -/
def Segment.bufferEmpty (g : Segment) : Segment :=
  { g with use := none, nodes := (g.nodes.map fun e => (e.1, { e.2 with used := none })).filter fun e => decide (e.2 ≠ ({} : Node)) }

/-- The twin buffers are empty: no unit, table or batch stands in them in part. -/
def Twin.buffersEmpty (w : Twin) : Twin :=
  { w with sent := [], cams := [],
           segs := (w.segs.map fun e => (e.1, { e.2 with got := [], arrived := [] })).filter fun e => decide (e.2 ≠ ({} : TwinSeg)) }

/-- A spine function that returns: its store is empty where R803 says so, and the cam store has lost the table that
held the failing word. -/
def State.spineReturn (s : State) (i : Nat) : State :=
  if i = 0x003 then
    { s with cams := s.cams.filter fun c => !s.asy.camBad.contains c.1, asy := { s.asy with camBad := [] } }
  else if i = 0x004 then
    s.axes.foldl (fun s e => if e.2.identWas.isEmpty then s else s.modAxis e.1 fun ax => { ax with identWas := [] }) s
  else if i = 0x005 then s.modPool fun p => { p with traceBuf := [] }
  else if i = 0x008 then { s with tw := s.tw.buffersEmpty }
  else if 0x018 ≤ i ∧ i < 0x020 then s.modSeg (i - 0x018) Segment.bufferEmpty
  else if i = 0x006 then
    { s with asy := { s.asy with ledger := [], next := 0, cnt := 0, unpersisted := 0 } }
  else if i = 0x007 then
    (List.range 16).foldl (fun s c => s.modConv c fun v =>
      if v.ringBad then { v with ringBad := false, buf := [], fill := 0, rp := v.wp } else v) s
  else s

/-- A step channel that returns stands at rest (R803). -/
def StepCh.atRest (c : StepCh) (now : Nat) : StepCh := { c with acc := 0, accAt := now, w := 0, driversOff := false }

/-- The hammers of an element of the pool. -/
def hammersOf (src : Nat) : List Nat :=
  let i := srcIdx src
  match srcLevel src with
  | 1 => [i]
  | 2 => (List.range 8).map fun h => 8 * i + h
  | 3 => (List.range 32).map fun h => 32 * i + h
  | _ => []

/-- An unfence trace record for each hammer of a list that was out of service or SLOW and no longer is (Table 03.7). -/
def State.traceUnfences (old s : State) (l : List Nat) : State :=
  (l.filter fun h => (old.hammerOut h || (old.hammer h).slow) && !(s.hammerOut h || (s.hammer h).slow)).foldl
    (fun s h => s.traceHammer 0x9 h 0) s

/-- A valley that returns: after its power was off, each of its axes holds the reset configuration, DISABLED and in FAULT (01
R56); its domain is on again. -/
def State.returnValley (s : State) (v : Nat) : State :=
  if s.pw.domains.contains (4 + v) then s
  else
    let axes := (List.range 528).filter fun a => decide (valleyOf (homeBench a) = v)
    let s := axes.foldl (fun s a => s.setAxis a { Axis.default a with fault := true, faultBy := (s.axis a).faultBy }) s
    { s with pw := { s.pw with domains := s.pw.domains ++ [4 + v] } }

/-- An element rejoins at the major-cycle boundary (01 R47, R647, R803). -/
def State.rejoin (s : State) (src : Nat) : State :=
  let i := srcIdx src
  let s1 := s.unfence src
  let s2 :=
    match srcLevel src with
    | 1 => s1.modHammer i fun h => { h with slow := false, overrun := 0 }
    | 3 => s1.returnValley i
    | 4 => s1.spineReturn i
    | 5 => if 0x110 ≤ i then s1.modStep (i - 0x110) fun c => c.atRest s.now else s1
    | _ => s1
  s.traceUnfences s2 (hammersOf src)

/-- A segment returns at its committed cycle, its axes in FAULT with open loops (R646). -/
def State.restoreSeg (s : State) (k id : Nat) : State :=
  let s := (s.asCommitted k).modSeg k fun g => { g with stopBy := false, stopAt := none, stopFor := [], restore := none }
  let s := (s.segAxes k).foldl (fun s a => s.modAxis a fun ax => { ax with fault := true, heldOpen := true }) s
  let s := ((s.unfence (srcSeg k)).liveOff (srcSeg k) 0x09).liveOff (srcSeg k) 0x0B
  s.finish id stDone (zeros 8)

/-! ## Link retransmissions (01 R6, R8) -/

/-- FLIT_CRC_ERROR: a flit of an inter-die link is sent again; more than 16 in a major cycle raise LINK_RETRY. -/
def execFlitCrcError (t : Nat) (link : Nat) (s : State) : Host.Outcome State Fault Refusal :=
  s.does t fun s =>
    let src := srcCode 5 link
    let n := SMap.get 0 s.pw.retrans link + 1
    let s := ({ s with pw := { s.pw with retrans := SMap.put 0 s.pw.retrans link n } }).disarm src
    if 16 < n then s.raiseOnce src 0x10 0 [] else s

end Sys2Proof.Machine
end

