-- ==== Sys2Proof/Machine/Time.lean ====
section
/-! DEFINITION. Machine time (10): the domain servo and its states, how MT follows the active domain at the major-cycle
boundary, TIME_STEP and TIME_SELECT, and the gPTP events of the plant ports. -/

namespace Sys2Proof.Machine

/-- The source of the time unit. -/
def srcTime : Nat := srcCode 4 0x009

/-- The source of time domain k. -/
def srcDom (k : Nat) : Nat := srcCode 6 (0x050 + k)

/-- The source of plant port p. -/
def srcPlant (p : Nat) : Nat := srcCode 6 (0x058 + p)

/-! ## Settings (Table 10.6) -/

/-- TDk_EN. -/
def State.domOn (s : State) (k : Nat) : Bool := bit (s.force 0x0C0000) k

/-- TIM_CTL.ACTIVE. -/
def State.activeDom (s : State) : Nat := bits (s.force 0x0C0000) 2 2

/-- TIM_CTL.AUTO. -/
def State.autoDom (s : State) : Bool := bit (s.force 0x0C0000) 3

/-- STEP_NS; a value below 100 acts as 100. -/
def State.stepNs (s : State) : Int := max 100 (bits (s.force 0x0C0004) 27 16)

/-- LOCK_NS; 0 acts as 1. -/
def State.lockNs (s : State) : Int := max 1 (bits (s.force 0x0C0004) 15 8)

/-- RATE_LIM. -/
def State.rateLim (s : State) : Int := bits (s.force 0x0C0008) 23 0

/-- SLEW; a value above 214 748 acts as that. -/
def State.slew (s : State) : Int := min 214748 (bits (s.force 0x0C000C) 23 0)

/-- HOLD_S; 0 acts as 1. -/
def State.holdS (s : State) : Nat := max 1 (bits (s.force 0x0C0010) 15 0)

/-! ## Offsets and rates (R431, R432, R437) -/

/-- A signed 96-bit offset. -/
def ofs96 (x : Int) : Int := toS 96 (toU 96 x)

/-- MT counts from raw in units of 2^-32 ns, at raw count r: OFS + RATE × (r - R0). -/
def ofsAt (ofs rate : Int) (r0 r : Nat) : Int := ofs + rate * ((r : Int) - r0)

/-- DT_k at a raw count (R437). -/
def Domain.at (d : Domain) (raw : Nat) : Nat := mtAt d.ofs d.rate d.r0 raw

/-- A new RATE_k, with OFS_k and R_k changed under R432. -/
def Domain.setRate (d : Domain) (rate : Int) (raw : Nat) : Domain :=
  if rate = d.rate then d else { d with ofs := ofs96 (ofsAt d.ofs d.rate d.r0 raw), r0 := raw, rate := rate }

/-- A new RATE of MT (R432). -/
def TimeUnit.setRate (u : TimeUnit) (rate : Int) (raw : Nat) : TimeUnit :=
  if rate = u.rate then u else { u with ofs := ofs96 (ofsAt u.ofs u.rate u.r0 raw), r0 := raw, rate := rate }

/-- DT_k - MT in units of 2^-32 ns, exact. -/
def State.estDiff (s : State) (d : Domain) : Int :=
  ofsAt d.ofs d.rate d.r0 s.raw - ofsAt s.time.ofs s.time.rate s.time.r0 s.raw

/-- The same of a domain's present estimate. -/
def State.domDiff (s : State) (k : Nat) : Int := s.estDiff (s.dom k)

/-- MT steps by an offset in units of 2^-32 ns (R433); the safety tick does not follow it (17 R664). -/
def State.stepMt (s : State) (o : Int) : State :=
  { s with time := { s.time with ofs := ofs96 (s.time.ofs + o), stepped := true },
           saf := { s.saf with offGrid := if s.saf.sentCore = 0 then 0 else 1 } }

/-! ## Domain states (R440) -/

/-- The code of a domain state (Table 10.1). -/
def DomState.code : DomState → Nat
  | .off => 0 | .listen => 1 | .acquire => 2 | .locked => 3 | .holdover => 4 | .lost => 5

/-- A domain enters a state: its mark and its LIVE bit (R440, R629). -/
def State.setDom (s : State) (k : Nat) (st : DomState) : State :=
  let old := (s.dom k).st
  if old = st then s
  else
    let s := s.modDom k fun d => { d with st := st, enteredAt := s.raw, first := decide (st = .acquire), good := 0 }
    let s := if st = .off ∨ st = .locked then s.liveOff (srcDom k) 0x58 else s.liveOn (srcDom k) 0x58
    s.raise (srcDom k) 0x58 0 [BitVec.ofNat 8 old.code, BitVec.ofNat 8 st.code]

/-- Loss of a domain (R440). -/
def State.loseDom (s : State) (k : Nat) : State :=
  if (s.dom k).st = .acquire ∨ (s.dom k).st = .locked then s.setDom k .holdover else s

/-- TDk_EN as it now stands in force: a domain is turned on or off (Table 10.1). -/
def State.domEnable (s : State) (k : Nat) : State :=
  if s.domOn k then (if (s.dom k).st = .off then s.setDom k .listen else s)
  else (s.setDom k .off).modDom k fun d => { d with announced := false }

/-! ## The rate of MT (R442, R443, R457, R458) -/

/-- The domain is LOCKED. -/
def State.domLocked (s : State) (k : Nat) : Bool := decide ((s.dom k).st = .locked)

/-- The rate of MT at a boundary, from an estimate of the active domain (R442, R443). -/
def State.slewTo (s : State) (d : Domain) : State :=
  let a := s.activeDom
  if !s.domLocked a then { s with time := { s.time with slewing := false } }
  else if s.time.stepped then
    let c0 := roundConv (roundDiv (s.estDiff d) 125000) 0
    let c := clampI c0 (-s.slew) s.slew
    { s with time := { (s.time.setRate (d.rate + c) s.raw) with slewing := decide (c ≠ c0) } }
  else { s with time := { (s.time.setRate d.rate s.raw) with slewing := false } }

/-- A domain's estimate as it stood before a sample of this CK_TIME step. -/
def Domain.before (d : Domain) (raw : Nat) : Domain :=
  match d.prior with
  | some (r, ofs, rate, r0) => if r = raw then { d with ofs := ofs, rate := rate, r0 := r0 } else d
  | none => d

/-- The rate of MT at a boundary: from the active domain's estimate before a sample of the same CK_TIME step (R457), unless the
domain becomes active at this boundary: there the sample acts first (R458). -/
def State.slewMt (s : State) : State :=
  let d := s.dom s.activeDom
  s.slewTo (if s.time.switchedAt = some s.raw then d else d.before s.raw)

/-! ## The servo (R438, R439) -/

/-- gm_i of a Sync. -/
def State.syncTime (s : State) (k : Nat) (origin : Nat) (correction : Int) : Int :=
  let nrr := (s.plant k).nrr
  let mld : Int := (s.dom k).mld
  (origin : Int) + roundConv correction 16 + roundConv (mld * (2 ^ 41 + nrr)) 45

/-- The first frequency term: (rr × nrr - 1) × 2^32, rounded (R439). -/
def firstFreq (c n : Int) : Int := roundConv ((c + n) * 2 ^ 41 + c * n) 50

/-- LAST_E of a sample: signed 16 bits, saturating. -/
def lastE (e : Int) : Int := satW 16 e

/-- The domain after its first sample in ACQUIRE. -/
def Domain.firstSample (d : Domain) (lim e : Int) (c n : Int) (raw : Nat) : Domain :=
  let f := clampI (firstFreq c n) (-lim) lim
  { ({ d with ofs := ofs96 (d.ofs + e * 2 ^ 32) }.setRate f raw) with
    freq := f, first := false, good := 0, clampF := decide (f ≠ firstFreq c n), clampR := false }

/-- The domain after a later sample that steps it: neither clamp binds. -/
def Domain.stepSample (d : Domain) (e : Int) : Domain :=
  { d with ofs := ofs96 (d.ofs + e * 2 ^ 32), good := 0, clampF := false, clampR := false }

/-- The frequency term and rate of a later sample before their clamps, F_k clamped (R439). -/
def servoTerms (d : Domain) (lim e t : Int) (ki kp : Nat) : Int × Int × Int :=
  let y := roundDiv (e * 2 ^ 32) t
  let f0 := d.freq + roundConv y ki
  let f := clampI f0 (-lim) lim
  (f0, f, f + roundConv y kp)

/-- The domain after a later sample that steers it. -/
def Domain.steerSample (d : Domain) (lim e t : Int) (ki kp : Nat) (good : Bool) (raw : Nat) : Domain :=
  let x := servoTerms d lim e t ki kp
  let r := clampI x.2.2 (-lim) lim
  { (d.setRate r raw) with
    freq := x.2.1, good := if good then d.good + 1 else 0, clampF := decide (x.2.1 ≠ x.1), clampR := decide (r ≠ x.2.2) }

/-- One sample drives the servo of domain k, which is in ACQUIRE or LOCKED. A step of the domain to which MT switched at a
boundary in the same CK_TIME step acts before that boundary's slew (R458). -/
def State.servo (s : State) (k rawI : Nat) (origin : Nat) (correction cumRate : Int) : State :=
  let d := s.dom k
  let e := toS 64 (toU 64 (s.syncTime k origin correction - (d.at rawI : Int)))
  let step := !d.first && decide (s.stepNs < e.natAbs)
  let good := decide ((e.natAbs : Int) ≤ s.lockNs)
  let d1 :=
    if d.first then d.firstSample s.rateLim e cumRate (s.plant k).nrr s.raw
    else if step then d.stepSample e
    else d.steerSample s.rateLim e ((rawI : Int) - d.lastRaw) (bits (s.force 0x0C0004) 7 4) (bits (s.force 0x0C0004) 3 0)
      good s.raw
  let s1 := s.modDom k fun _ => { d1 with lastE := lastE e, lastRaw := rawI, prior := some (s.raw, d.ofs, d.rate, d.r0) }
  let s1 := if step ∧ s.time.switchedAt = some s.raw ∧ s.activeDom = k ∧ s.tw.role ≠ .follower then s1.slewMt else s1
  let s1 := if step ∧ d.st = .locked then s1.raise (srcDom k) 0x59 0 [] else s1
  let s1 := if (d1.clampF ∧ ¬ d.clampF) ∨ (d1.clampR ∧ ¬ d.clampR) then s1.raise (srcDom k) 0x5A 0 [] else s1
  if d.st = .acquire ∧ 8 ≤ d1.good then s1.setDom k .locked else s1

/-- The time unit as a source of marks; fenced, it takes no samples and steers no time (16 Table 16.3, 01 R44). -/
def srcTimeUnit : Nat := srcCode 4 0x009

/-- GPTP_SYNC_RECEIVED: a valid Sync of the domain of a plant port; it opens acquisition where Table 10.1 says so. A
domain without asCapable takes no Sync, and neither does LISTEN before an Announce. -/
def execGptpSyncReceived (t port rawI origin : Nat) (correction cumRate logInt : Int) (s : State) :
    Host.Outcome State Fault Refusal :=
  s.does t fun s =>
    let d := s.dom port
    if s.fenced srcTimeUnit ∨ d.st = .off ∨ ¬ d.capable ∨ logInt < -7 ∨ 0 < logInt ∨ (d.st = .listen ∧ ¬ d.announced) then s
    else
      let s := if d.st = .listen ∨ d.st = .holdover ∨ d.st = .lost then s.setDom port .acquire else s
      (s.servo port rawI origin correction cumRate).modDom port fun d => { d with syncLog := logInt }

/-- ANNOUNCE_RECEIVED: the port takes the grandmaster named; a new one restarts acquisition (R440, Table 10.3A). -/
def execAnnounceReceived (t port gmid : Nat) (s : State) : Host.Outcome State Fault Refusal :=
  s.does t fun s =>
    let d := s.dom port
    if s.fenced srcTimeUnit ∨ d.st = .off then s
    else
      let s1 := s.modDom port fun d => { d with gmid := gmid, announced := true }
      if d.gmid = gmid ∨ ¬ d.announced then s1
      else if d.st = .locked then s1.setDom port .acquire
      else if d.st = .acquire then s1.modDom port fun d => { d with first := true, good := 0 }
      else s1

/-- The interval 2^log s in units of 2^-7 ns. -/
def log2Sec (log : Int) : Nat := 1000000000 * 2 ^ (log + 7).toNat

/-- Three Sync intervals have passed since the last Sync (Table 10.3A). -/
def State.syncOver (s : State) (k : Nat) : Bool :=
  let d := s.dom k
  decide (3 * log2Sec d.syncLog ≤ 128 * (s.raw - d.lastRaw))

/-- SYNC_RECEIPT_TIMEOUT: three Sync intervals without a Sync (R440). -/
def execSyncReceiptTimeout (t domain : Nat) (s : State) : Host.Outcome State Fault Refusal :=
  s.does t fun s => if s.syncOver domain then s.loseDom domain else s

/-- ANNOUNCE_RECEIPT_TIMEOUT (R440): the interval of the grandmaster's Announce is no operand of ANNOUNCE_RECEIVED, so that the
event stands for its three intervals (log 40). -/
def execAnnounceReceiptTimeout (t domain : Nat) (s : State) : Host.Outcome State Fault Refusal :=
  s.does t fun s => s.loseDom domain

/-- HOLDOVER_EXPIRY: HOLD_S seconds after HOLDOVER began the domain is LOST (R440). -/
def execHoldoverExpiry (t domain : Nat) (s : State) : Host.Outcome State Fault Refusal :=
  s.does t fun s =>
    let d := s.dom domain
    if d.st = .holdover ∧ s.holdS * 1000000000 ≤ s.raw - d.enteredAt then s.setDom domain .lost else s

/-! ## Peer delay (R449) -/

/-- The plant port is powered and its link is up. -/
def State.plantUp (s : State) (p : Nat) : Bool := (s.plant p).up

/-- TIM_PPp_CFG. -/
def State.ptpCfg (s : State) (p : Nat) : Nat := s.force (0x0C0100 + 0x20 * p)

/-- DOMAIN of a port; values above 127 act as 127. -/
def State.ptpDomain (s : State) (p : Nat) : Nat := min 127 (bits (s.ptpCfg p) 23 16)

/-- LOG_PDELAY of a port; outside -3 to +3 it acts as 0. -/
def State.logPdelay (s : State) (p : Nat) : Int :=
  let x := toS 4 (bits (s.ptpCfg p) 15 12)
  if -3 ≤ x ∧ x ≤ 3 then x else 0

/-- The Pdelay_Req interval of a port is over. -/
def State.pdelayDue (s : State) (p : Nat) : Bool :=
  match (s.plant p).pdAt with
  | some r => decide (log2Sec (s.logPdelay p) ≤ 128 * (s.raw - r))
  | none => true

/-- A message put ahead of the last host frame of a port in the output, newest first. -/
def putAhead (port : Nat) (o : Out) : List Out → List Out
  | [] => [o]
  | x :: r => match x with
    | .plant p _ => if p = port then x :: o :: r else x :: putAhead port o r
    | _ => x :: putAhead port o r

/-- A gPTP message leaves a port: ahead of a host frame that became ready in the same core clock (14 R570). -/
def State.emitGptp (s : State) (port : Nat) (o : Out) : State :=
  if (s.plant port).sentAt = some s.core then { s with out := putAhead port o s.out } else s.emit o

/-- PDELAY_REQ_INTERVAL: the port sends a Pdelay_Req of its domain, one in each interval. -/
def execPdelayReqInterval (t port : Nat) (s : State) : Host.Outcome State Fault Refusal :=
  s.does t fun s =>
    if s.domOn port ∧ s.plantUp port ∧ ¬ s.fenced srcTimeUnit ∧ s.pdelayDue port then
      (s.emitGptp port (.gptp port 0 (s.ptpDomain port) (s.plant port).pdSeq)).modPlant port fun p =>
        { p with pdSeq := (p.pdSeq + 1) % 2 ^ 16, pdAt := some s.raw }
    else s

/-- asCapable of a domain as it now stands: its loss is a loss of the domain. -/
def State.setCapable (s : State) (k : Nat) (c : Bool) : State :=
  let s := s.modDom k fun d => { d with capable := c }
  if c then s else s.loseDom k

/-- PDELAY_RESPONSE_RECEIVED: the port's delay, rate ratio and asCapable, with the threshold NPD_THR. -/
def execPdelayResponseReceived (t port mld : Nat) (nrr : Int) (capable : Bool) (s : State) :
    Host.Outcome State Fault Refusal :=
  s.does t fun s =>
    if s.domOn port && !s.fenced srcTimeUnit then
      let s := (s.modPlant port fun p => { p with nrr := nrr }).modDom port fun d => { d with mld := mld }
      s.setCapable port (capable && decide (mld ≤ 16 * bits (s.ptpCfg port) 11 0))
    else s

/-- PDELAY_REQ_RECEIVED: the port answers a request of its domain as a two-step responder; domainNumber is byte 4 of the
PTP header, sequenceId bytes 30 and 31. -/
def execPdelayReqReceived (t port : Nat) (frame : List Byte) (s : State) : Host.Outcome State Fault Refusal :=
  s.does t fun s =>
    let d := s.ptpDomain port
    if s.domOn port ∧ s.plantUp port ∧ ¬ s.fenced srcTimeUnit ∧ byteAt frame 18 = d then
      let seq := 256 * byteAt frame 44 + byteAt frame 45
      (s.emitGptp port (.gptp port 1 d seq)).emitGptp port (.gptp port 2 d seq)
    else s

/-- PLANT_PORT_LINK_CHANGE: a plant link comes up or goes down; without a link the port is not asCapable. -/
def execPlantPortLinkChange (t port : Nat) (up : Bool) (s : State) : Host.Outcome State Fault Refusal :=
  s.does t fun s =>
    let s := s.modPlant port fun p => { p with up := up }
    if up then s else s.setCapable port false

/-! ## MT at the major-cycle boundary (R442 to R444, R455, R456) -/

/-- TIM_CTL with ACTIVE set to d. -/
def timActive (v d : Nat) : Nat := v - 4 * bits v 2 2 + 4 * (d % 2)

/-- Domain d becomes active, with its mark. -/
def State.switchDom (s : State) (d : Nat) : State :=
  let s := { s with time := { s.time with switchedAt := some s.raw } }
  (s.devSet 0x0C0000 4 (timActive (s.force 0x0C0000) d)).raise srcTime 0x5C 0 []

/-- The automatic switch (R444). -/
def State.autoSwitch (s : State) : State :=
  let a := s.activeDom
  if s.autoDom && !s.time.selTaken && !s.domLocked a && s.domOn (1 - a) && s.domLocked (1 - a) then s.switchDom (1 - a)
  else s

/-- The first-lock step (R442). -/
def State.firstLock (s : State) : State :=
  if !s.time.stepped && !s.time.stepTaken && s.domLocked s.activeDom && s.setup then
    (s.stepMt (s.domDiff s.activeDom)).raise srcTime 0x5B 0 []
  else s

/-- What MT does at a boundary, after the TIME_STEP and TIME_SELECT of that boundary; a follower's MT is held to the
leader's instead (15). -/
def State.timeBoundary (s : State) : State :=
  let s := ((s.autoSwitch).firstLock).slewMt
  { s with time := { s.time with stepTaken := false, selTaken := false } }

/-! ## TIME_STEP and TIME_SELECT (R445 to R448) -/

/-- A TIME_STEP is turned away: status and offset (R447). -/
def State.timeStepBar (s : State) (e : Entry) (toDomain : Bool) : Option (Nat × Nat) :=
  if s.pw.mode ≠ .idle ∧ s.pw.mode ≠ .commission then some (stRejMode, 0)
  else if (List.range 8).any (fun k => decide ((s.seg k).ring ≠ .stopped)) then some (stRejIncons, 0)
  else if s.host.acc.any (fun x => decide (x.id ≠ e.id) && decide (x.prog = .waiting) &&
      (match x.due with | .cycle _ => true | _ => false)) then some (stRejIncons, 0)
  else if toDomain && !s.domLocked s.activeDom then some (stRejIncons, 0)
  else none

/-- Turn a descriptor away with a status, and an offset where the status carries one. -/
def State.turnAway (s : State) (e : Entry) (b : Nat × Nat) : State :=
  if b.1 = stRejRange ∨ b.1 = stRejIncons then s.rejectAt e b.1 b.2 else s.reject e b.1

/-- TIME_STEP at its apply point. -/
def fxTimeStep (toDomain : Bool) (x : Int) (_ : Ctx) (e : Entry) (s : State) : State :=
  match s.timeStepBar e toDomain with
  | some b => s.turnAway e b
  | none =>
    let o := if toDomain then s.domDiff s.activeDom else x * 2 ^ 32
    let s := (s.stepMt o).raise srcTime 0x5D 0 []
    let s := { s with time := { s.time with stepTaken := true } }
    (s.modEntry e.id fun e => { e with prog := .running s.cyc 0 }).finish e.id stDone (leInt 8 (roundConv o 32))

/-- TIME_SELECT at its apply point. -/
def fxTimeSelect (domain : Nat) (auto : Bool) (_ : Ctx) (e : Entry) (s : State) : State :=
  if s.pw.mode = .reset ∨ s.pw.mode = .boot then s.reject e stRejMode
  else if !s.domLocked domain then s.reject e stRejIncons
  else
    let v := s.force 0x0C0000
    let s := s.devSet 0x0C0000 8 (v - 8 * bits v 3 3 + 8 * b2n auto)
    let s := if s.activeDom = domain then s else s.switchDom domain
    { s with time := { s.time with selTaken := true } }.finish e.id stDone (zeros 8)

/-- TIME_STEP takes effect. -/
def execTimeStep (t : Nat) (h : DHdr) (toDomain : Bool) (x : Int) (s : State) : Host.Outcome State Fault Refusal :=
  s.does t fun s => s.runDescr h (.timeStep toDomain x) (fxTimeStep toDomain x)

/-- TIME_SELECT takes effect. -/
def execTimeSelect (t : Nat) (h : DHdr) (domain : Nat) (auto : Bool) (s : State) : Host.Outcome State Fault Refusal :=
  s.does t fun s => s.runDescr h (.timeSelect domain auto) (fxTimeSelect domain auto)

/-- TIM_MT_LO_READ: the read answers MT [31:0] and latches MT [63:32] (R436). -/
def execTimMtLoRead (t : Nat) (s : State) : Host.Outcome State Fault Refusal :=
  s.does t fun s =>
    ({ s with time := { s.time with mtHi := s.mt / 2 ^ 32 % 2 ^ 32 } }).emit (.read 0x0C0020 (s.mt % 2 ^ 32))

end Sys2Proof.Machine
end

