-- ==== Sys2Proof/Machine/Host.lean ====
section
/-! DEFINITION. The host interface (14): polls, the acceptance of descriptors, rings enabled and disabled, cycle points,
the PCIe link, plant-port frames, and the descriptors NOP, FENCE and TRACE. -/

namespace Sys2Proof.Machine

/-- The source of the host heartbeat, and of the PCIe link. -/
def srcHb : Nat := srcCode 6 0x010
def srcPcie : Nat := srcCode 6 0x011

/-! ## Rings enabled and disabled (R551, R552, R572, R577) -/

/-- LOG2SIZE of the sizes Table 14.2 allows for a ring, from and to. -/
def ringLog2 (r : Nat) : Nat × Nat :=
  if r < 16 then (6, 12) else if r < 24 then (8, 16) else if r = 24 then (6, 12) else if r = 25 then (8, 16)
  else if r < 28 then (9, 16) else if r = 28 then (11, 16) else (4, 8)

/-- The offset of HST_CPk. -/
def cpOff (k : Nat) : Nat := 0x010040 + 4 * k

/-- The vectors of the cycle points that fire, read by `rd`. -/
def cpVectors (rd : Nat → Nat) : List Nat :=
  ((List.range 4).filter fun k => bit (rd (cpOff k)) 31).map fun k => bits (rd (cpOff k)) 29 25

/-- The staged CFG and BASE words of a ring pass Table 14.13, in its order; the reason code. -/
def State.ringReason (s : State) (r : Nat) : Nat :=
  let cfg := s.stage (ringOff r 8)
  let l := bits cfg 4 0
  let b := ringLog2 r
  if bit cfg 21 ∧ (cpVectors s.force).contains (bits cfg 26 22) then 4
  else if l < b.1 ∨ b.2 < l then 5
  else if s.stage (ringOff r 0) % 4096 ≠ 0 then 6
  else if r < 8 ∧ (¬ (s.ringOf (r + 8)).on ∨ bits (s.force (ringOff (r + 8) 8)) 4 0 ≠ l) then 7
  else if s.host.commitFailed ∨ ¬ s.host.linkUp then 8
  else 0

/-- Staging copies of a list of registers go into force; a register without a staged write keeps its value. SCH_TRACE_DROP
counts from where TRACE_EN goes from 0 to 1 (03 Table 03.11). -/
def State.applyOffs (s : State) (l : List Nat) : State :=
  let on := bit (s.force 0x020010) 31
  let s := l.foldl (fun s off => s.setForce off (s.stage off)) s
  let s := if !on && bit (s.force 0x020010) 31 then s.modPool fun p => { p with traceDrop := 0 } else s
  { s with regs := { s.regs with stage := s.regs.stage.filter fun e => !l.contains e.1 } }

/-- The SET registers of a ring. -/
def ringRegs (r : Nat) : List Nat := [0x00, 0x04, 0x08, 0x10, 0x14].map (ringOff r)

/-- PTX and PRX rings in use, or a time domain enabled: PD_PLANT is needed (18 Table 18.4). -/
def State.plantNeeded (s : State) : Bool :=
  s.domOn 0 || s.domOn 1 || [29, 30, 31, 32].any fun r => (s.ringOf r).on

/-- A power domain goes off when its condition of Table 18.4 holds. -/
def State.dropDomain (s : State) (d : Nat) (needed : Bool) : State :=
  if needed then s else { s with pw := { s.pw with domains := s.pw.domains.filter fun x => decide (x ≠ d) } }

/-- ENABLE of a ring: its fields are checked, put into force, and the ring runs from index 0 (R551). A write of ENABLE to
a ring that runs changes nothing. -/
def State.ringEnable (s : State) (ring : Nat) : State :=
  if (s.ringOf ring).on then s
  else
    let c := s.ringReason ring
    if c ≠ 0 then s.modRing ring fun g => { g with reason := c }
    else
      let s := s.applyOffs (ringRegs ring)
      let s := s.modRing ring fun g =>
        { g with on := true, disabling := false, own := 0, host := 0, reason := 0, withheld := false, fetched := 0 }
      s.statusWrite (ringStatusOff ring) (leBytes 4 0)

/-- HST_RING_ENABLE. -/
def execHstRingEnable (t ring : Nat) (s : State) : Host.Outcome State Fault Refusal := s.does t fun s => s.ringEnable ring

/-- The telemetry of a poured segment cycle is still being written. -/
def State.telBusy (s : State) (k : Nat) : Bool :=
  let open_ (b : Bank) : Bool := b.opened && b.poured && !((s.segAxes k).all b.telDone.contains)
  open_ (s.seg k).cur || open_ (s.seg k).prevBank

/-- The pour point of the segment falls in this core clock (R580). -/
def State.pourNow (s : State) (k : Nat) : Bool :=
  s.segRuns k && decide ((s.mt % (125 * s.segL k / 2)) * 2 / 125 = s.segPP k % s.segL k) && !((s.seg k).cur.poured) && (s.seg k).cur.opened

/-- DISABLE of a ring, at once or after the work R552 names. -/
def State.ringDisable (s : State) (ring : Nat) : State :=
  if !(s.ringOf ring).on then s
  else if ring < 8 then (s.modRing ring fun g => { g with on := false, fetched := 0 }).cplDisable ring
  else if ring < 16 then (s.modRing ring fun g => { g with disabling := true }).cplDisable (ring - 8)
  else if ring < 24 ∧ (s.telBusy (ring - 16) ∨ s.pourNow (ring - 16)) then s.modRing ring fun g => { g with disabling := true }
  else (s.modRing ring fun g => { g with on := false }).dropDomain 13
    ((s.modRing ring fun g => { g with on := false }).plantNeeded)

/-- HST_RING_DISABLE. -/
def execHstRingDisable (t ring : Nat) (s : State) : Host.Outcome State Fault Refusal := s.does t fun s => s.ringDisable ring

/-! ## Polls (R553 to R557, R804) -/

/-- A word of the doorbell page; a word not given reads 0. -/
def pageWord (page : List (Nat × Word)) (off : Nat) : Nat :=
  match page.lookup off with
  | some w => w.toNat
  | none => 0

/-- The doorbell-page offset of the host's index of a ring (Table 14.3). -/
def doorbellOff (r : Nat) : Nat :=
  if r < 8 then 4 * r else if r < 16 then 0x40 + 4 * (r - 8) else if r < 24 then 0x60 + 4 * (r - 16) else 0x80 + 4 * (r - 24)

/-- The host produces the ring. -/
def hostRing (r : Nat) : Bool := decide (r < 8) || decide (r = 29 ∨ r = 30)

/-- One ring's index is read; an invalid index is ignored (R804). -/
def State.readIndex (s : State) (page : List (Nat × Word)) (r : Nat) : State :=
  let g := s.ringOf r
  if !g.on then s
  else
    let x := pageWord page (doorbellOff r)
    let d := if hostRing r then (x + 2 ^ 32 - g.own) % 2 ^ 32 else (g.own + 2 ^ 32 - x) % 2 ^ 32
    if s.ringSize r < d then s.raiseOnce (srcRing r) 0x2F r (leBytes 4 x) else s.modRing r fun g => { g with host := x }

/-- The consumer index of a transmit time-stamp queue is read (R453, R804). -/
def State.readTsIndex (s : State) (page : List (Nat × Word)) (p : Nat) : State :=
  let x := pageWord page (0x0A4 + 4 * p)
  if 16 < ((s.plant p).prod + 2 ^ 32 - x) % 2 ^ 32 then s.raiseOnce (srcPlant p) 0x2F p (leBytes 4 x)
  else s.modPlant p fun q => { q with cons := x }

/-- The heartbeat check applies (R557). -/
def State.hbApplies (s : State) : Bool :=
  bit (s.force 0x010004) 31 && decide (s.pw.mode = .armed ∨ s.pw.mode = .run ∨ s.pw.mode = .degraded ∨ s.pw.mode = .follow)

/-- The heartbeat word is compared with the last one read (R557). -/
def State.hbPoll (s : State) (w : Nat) : State :=
  let h := s.host
  if !s.hbApplies then { s with host := { h with hbChecking := false } }
  else if !h.hbChecking then { s with host := { h with hbChecking := true, hbWord := w, hbAt := s.now } }
  else if h.hbWord = w then s
  else
    let s := { s with host := { h with hbWord := w, hbAt := s.now, hbLate := false } }
    if h.hbLate then (s.liveOff srcHb 0x30).raise srcHb 0x31 0 [] else s

/-- The device status word (Table 14.4). -/
def State.deviceStatus (s : State) : Nat :=
  s.pw.mode.code * 2 ^ 28 + b2n (s.asy.ff.isSome || s.asy.ffe.isSome) * 2 ^ 27 + b2n s.host.hbLate * 2 ^ 26 +
    b2n (decide (s.tw.role = .follower)) * 2 ^ 25 + tagOf s.cyc

/-- FETCH_MAX; 0 acts as 1. -/
def State.fetchMax (s : State) : Nat := max 1 (bits (s.force 0x010000) 18 11)

/-- A poll takes place at the present granule: POLL_OFS, or with POLL_EACH the granules of each cycle of POLL_SEG from it on
(R555). -/
def State.pollGran (s : State) : Bool :=
  let w := s.force 0x010000
  let o := bits w 10 0
  decide (s.gran = o) || (bit w 24 && decide (o ≤ s.gran ∧ (s.gran - o) % s.segL (bits w 23 21) = 0))

/-- POLL: the doorbell page is read, the status words are written, and each command ring may fetch FETCH_MAX
descriptors until the next poll. -/
def execPoll (t : Nat) (page : List (Nat × Word)) (s : State) : Host.Outcome State Fault Refusal :=
  s.does t fun s =>
    if !s.up ∨ ¬ s.host.linkUp ∨ s.fenced srcHostEngine ∨ ¬ s.pollGran ∨ s.host.polledAt = some s.granuleNo then s
    else
      let s := { s with host := { s.host with polledAt := some s.granuleNo } }
      let s := (List.range 33).foldl (fun s r => s.readIndex page r) s
      let s := (s.readTsIndex page 0).readTsIndex page 1
      let s := s.hbPoll (pageWord page 0x0C0)
      let s := (s.statusWrite 0x0C0 (leBytes 4 s.deviceStatus)).statusWrite 0x0C4 (leBytes 4 s.cyc)
      (List.range 8).foldl (fun s r => s.modRing r fun g => { g with fetched := if g.on then s.fetchMax else 0 }) s

/-- The timeout of the host heartbeat in quarter nanoseconds: 1 to 1000 ms. -/
def State.hbTimeout (s : State) : Nat := 4000000 * min 1000 (max 1 (bits (s.force 0x010004) 9 0))

/-- The poll of this granule is still to come and reads a changed heartbeat word (R578). -/
def State.hbChangesNow (s : State) : Bool :=
  s.awaits (s.now + (249 - s.mtQuarter % 250)) fun c => match c with
    | .poll _ page => s.host.linkUp && decide (pageWord page 0x0C0 ≠ s.host.hbWord)
    | _ => false

/-- HOST_HB_TIMEOUT: at a poll the heartbeat word has not changed for HB_MS: HB_LATE sets and every axis takes AXIS_STOP, once
(R557, R578, 01 R41). -/
def execHostHbTimeout (t : Nat) (s : State) : Host.Outcome State Fault Refusal :=
  s.does t fun s =>
    if s.hbApplies ∧ s.pollGran ∧ s.host.hbChecking ∧ ¬ s.host.hbLate ∧ s.hbTimeout ≤ s.now - s.host.hbAt ∧ ¬ s.hbChangesNow then
      let s := { s with host := { s.host with hbLate := true, hbSticky := true } }
      (s.liveOn srcHb 0x30).raiseNow srcHb 0x30 0 []
    else s

/-! ## Acceptance (R550, R556 to R562) -/

/-- Descriptors accepted from a command ring whose completions are owed. -/
def State.owed (s : State) (r : Nat) : Nat := (s.host.acc.filter fun e => decide (e.ring = r)).length

/-- A descriptor of `n` entries can be fetched from a command ring now. -/
def State.mayFetch (s : State) (r n : Nat) : Bool :=
  let g := s.ringOf r
  let c := s.ringOf (r + 8)
  g.on && s.host.linkUp && decide (0 < g.fetched) && decide (n ≤ (g.host + 2 ^ 32 - g.own) % 2 ^ 32) && c.on &&
    decide (c.used + s.owed r + 1 ≤ s.ringSize (r + 8))

/-- The kind of group that an opcode speaks of: 0 coupling, 1 interpolation. -/
def groupKind : DOp → Option Nat
  | .couple _ => some 0
  | .groupMove _ => some 1
  | _ => none

/-- The segment of the latest DEFINE of a group accepted ahead and not rejected: of the descriptors whose completion is owed,
and of those that have posted it (02 R67). -/
def State.definedAhead (s : State) (op : DOp) (tgt : Nat) : Option Nat :=
  match groupKind op with
  | none => none
  | some k =>
    let owed := s.host.acc.filterMap fun e => if defineKey e = some (k, tgt) then e.defineMark else none
    let posted := (s.host.defined.lookup (k, tgt)).toList
    ((owed ++ posted).foldl (fun best x => match best with
      | some b => if b.1 < x.1 then some x else some b
      | none => some x) none).map (·.2)

/-- The segment whose apply points a descriptor takes, settled at acceptance (02 R67). -/
def State.applySeg (s : State) (op : DOp) (tgt : Nat) : Option Nat :=
  match s.targetSeg op tgt with
  | some k => some k
  | none => s.definedAhead op tgt

/-- The granule of the apply point of segment k within its cycle: RC, and RC + 8 at a follower (15 R591). -/
def State.applyGran (s : State) (k : Nat) : Nat := s.segRC k + (if s.tw.role = .follower then 8 else 0)

/-- The earliest apply point of the running segments within their cycles. -/
def State.firstRC (s : State) : Option Nat := (s.running.map s.applyGran).min?

/-- MT less a span in granules: an instant lies in the cycle to which a point, so many granules after the cycle's start,
belongs. -/
def State.mtBack (s : State) (g : Nat) : Nat := toU 64 (((s.mtQuarter : Int) - (250 * g : Nat)) / 4)

/-- n of R561: the first major cycle whose apply point for the target follows now. TIME_STEP and TIME_SELECT take the
boundary (10 R445). -/
def State.firstCycle (s : State) (op : DOp) (tgt : Nat) (seg : Option Nat) : Nat :=
  let next := (s.cyc + 1) % 2 ^ 40
  match op with
  | .timeStep .. => next
  | .timeSelect .. => next
  | _ =>
    if 528 ≤ tgt ∧ tgt < 568 then next
    else
      let rc : Option Nat := match seg with
        | some k => if s.segRuns k then some (s.applyGran k) else none
        | none => s.firstRC
      match rc with
      | some g => (cycOf (s.mtBack g) + 1) % 2 ^ 40
      | none => next

/-- The cycle an AT_CYCLE value names, none when it is late (R561). -/
def atCycle (n value : Nat) : Option Nat :=
  let d := (value + 2 ^ 24 - tagOf n) % 2 ^ 24
  if 2 ^ 23 ≤ d then none else some ((n + d) % 2 ^ 40)

/-- AT_PHASE is allowed for a target (R562). -/
def State.mayPhase (s : State) (tgt : Nat) : Bool := decide (tgt < 512) && (s.axis tgt).ln.master.isSome

/-- When a descriptor takes effect, or the status and offset with which its apply value is turned away. -/
def State.dueOf (s : State) (bs : List Byte) (op : DOp) (tgt : Nat) (seg : Option Nat) : Due ⊕ (Nat × Nat) :=
  match byteAt bs 6 with
  | 1 => match atCycle (s.firstCycle op tgt seg) (fld bs 8 3) with
    | some n => .inl (.cycle n)
    | none => .inr (stRejLate, 0)
  | 2 =>
    let timed : Bool := match op with | .timeStep .. => true | .timeSelect .. => true | _ => false
    if s.mayPhase tgt && !timed then .inl (.phase (fld bs 8 4)) else .inr (stRejIncons, 6)
  | _ => .inl .next

/-- CAM_ENGAGE in SWITCH mode needs its second entry (Table 14.7). -/
def switchFault (op : DOp) (ext : Bool) : Option Nat :=
  match op with
  | .camEngage _ _ _ mode _ _ _ _ => if mode = 2 ∧ ¬ ext then some 13 else none
  | _ => none

/-- The rejection of a descriptor at acceptance, if any: status and offset (R559). -/
def State.acceptBar (s : State) (bs : List Byte) (op : DOp) (tgt : Nat) (seg : Option Nat) : Option (Nat × Nat) :=
  match formatFault bs with
  | some off => some (stRejRange, off)
  | none =>
    if !tgtOk (byteAt bs 0) tgt then some (stRejRange, 4)
    else if s.modeExcludes (byteAt bs 0) then some (stRejMode, 0)
    else
      match s.dueOf bs op tgt seg with
      | .inr b => some b
      | .inl _ =>
        match switchFault op (bit (byteAt bs 1) 1) with
        | some off => some (stRejRange, off)
        | none => payloadFault op tgt

/-- The record of a descriptor at its acceptance. -/
def State.newEntry (s : State) (r : Nat) (bs buf : List Byte) : Entry :=
  let op := if (formatFault bs).isSome then .nop else readOp bs buf
  let tgt := fld bs 4 2
  let seg := s.applySeg op tgt
  let due : Due := match s.dueOf bs op tgt seg with | .inl d => d | .inr _ => .next
  { id := s.host.nextId, ring := r, pos := (s.ringOf r).own, seq := fld bs 2 2, irq := bit (byteAt bs 1) 0, tgt := tgt,
    op := op, due := due, accN := s.cyc, accT := s.now, prog := .waiting, tagged := none, seg := seg, crc := crc32c (bs ++ buf) }

/-- A leader whose follower pairs sends a TAG of an aligned descriptor (15 Table 15.3): ring, position, SEQ, opcode, CRC,
status, and the cycle of its apply point. -/
def State.sendTag (s : State) (e : Entry) (status n m : Nat) : State :=
  if s.leads && !opcLocal (opcOf e.op) then
    (s.modEntry e.id fun e => { e with tagged := some (tagOf n, m, status) }).sendTwin 0x2 (e.seg.getD 0xFF) (tagOf n) m
      (leBytes 1 e.ring ++ leBytes 1 (opcOf e.op) ++ leBytes 2 e.seq ++ leBytes 4 e.pos ++ leBytes 4 e.crc ++ leBytes 1 status)
  else s

/-- The cycle of the apply point that a waiting descriptor takes, seen by itself: none while its phase decides it, and
none for a FENCE. -/
def State.aimOf (s : State) (e : Entry) : Option (Nat × Nat) :=
  match e.due, e.op with
  | _, .fence .. => none
  | .phase _, _ => none
  | .cycle n, _ => some (n, 0)
  | .next, _ =>
    if 528 ≤ e.tgt ∧ e.tgt < 568 then
      (let i := s.gran / 250 + 1
       some (if i < 8 then (s.cyc, i) else ((s.cyc + 1) % 2 ^ 40, 0)))
    else
      match e.seg with
      | some k =>
        if s.segRuns k then
          (let b := s.mtBack (s.applyGran k)
           some (s.nextCycle k (cycOf b) (granOf b / s.segL k)))
        else some ((s.cyc + 1) % 2 ^ 40, 0)
      | none => some (s.firstCycle e.op e.tgt none, 0)

/-- The cycle of the apply point of a descriptor behind the waiting ones of its ring, which take effect before it. -/
def State.aim (s : State) (e : Entry) : Option (Nat × Nat) :=
  ((s.host.acc.filter fun x => decide (x.ring = e.ring ∧ x.prog = .waiting ∧ x.id ≤ e.id)).map s.aimOf).foldl
    (fun acc x => match acc, x with
      | some a, some b => some (if a.1 * 8 + a.2 < b.1 * 8 + b.2 then b else a)
      | _, _ => none) (some (0, 0))

/-- A leader sends the TAG of a descriptor as soon as its apply point is known (15 R594). -/
def State.tagNew (s : State) (e : Entry) : State :=
  match s.aim e with
  | some nm => s.sendTag e 0 nm.1 nm.2
  | none => s

/-! ## TAGs at a follower (15 R594, R595) -/

/-- The follower and its leader do not hold the same descriptors: PAIR = UNSYNCED (R595). -/
def State.cmdMismatch (s : State) : State :=
  if s.tw.pair = .unsynced then s
  else
    let s := { s with tw := { s.tw with cmdMis := true, pair := .unsynced } }
    (s.notReady (List.range 8)).raise srcTwin 0x64 0 []

/-- A TAG meets the descriptor at its position, once that is accepted. A rejection leaves the descriptor without
effect. -/
def State.matchTag (s : State) (x : Tag) : State :=
  match s.host.acc.find? fun e => decide (e.ring = x.ring ∧ e.pos = x.pos) with
  | none => s
  | some e =>
    let s := { s with tw := { s.tw with tags := s.tw.tags.filter fun y => decide (y ≠ x) } }
    if opcOf e.op = x.opc ∧ e.seq = x.seq ∧ e.crc = x.crc then
      (let s := s.modEntry e.id fun e => { e with tagged := some (x.tag, x.minor, x.status) }
       if x.status = 0 then s else s.finish e.id x.status (zeros 8))
    else s.cmdMismatch

/-- A position before the newest TAG of its ring has no TAG. -/
def State.tagSkipped (s : State) : Bool :=
  s.host.acc.any fun e =>
    e.tagged.isNone && !opcLocal (opcOf e.op) &&
      (match s.tw.lastTag.lookup e.ring with
       | some p => decide (2 ^ 31 ≤ (e.pos + 2 ^ 32 - p) % 2 ^ 32)
       | none => false)

/-- A follower brings its TAGs and descriptors together. -/
def State.matchTags (s : State) : State :=
  if s.postsLeaders then
    (let s := s.tw.tags.foldl State.matchTag s
     if s.tagSkipped then s.cmdMismatch else s)
  else s

/-- The entries of a descriptor. -/
def descrLen (bs : List Byte) : Nat := if bit (byteAt bs 1) 1 then 2 else 1

/-- A descriptor enters the record and its ring's consumer index passes it. -/
def State.admitEntry (s : State) (r : Nat) (bs buf : List Byte) : State :=
  let e := s.newEntry r bs buf
  let bar := s.acceptBar bs e.op e.tgt e.seg
  let s := s.modRing r fun g => { g with own := (g.own + descrLen bs) % 2 ^ 32, fetched := g.fetched - 1 }
  let s := s.statusWrite (ringStatusOff r) (leBytes 4 (s.ringOf r).own)
  let s := { s with host := { s.host with nextId := s.host.nextId + 1, acc := s.host.acc ++ [e] } }
  match bar with
  | some b => ((s.turnAway e b).sendTag e b.1 s.cyc 0).matchTags
  | none => (s.tagNew e).matchTags

/-- DESCRIPTOR_ACCEPTED: the last byte of a descriptor and of the buffer it names arrives. -/
def execDescriptorAccepted (t ring : Nat) (bytes buf : List Byte) (s : State) : Host.Outcome State Fault Refusal :=
  s.does t fun s =>
    let bs := padTo (32 * descrLen bytes) bytes
    if s.up && !s.fenced srcHostEngine && decide (ring < 8) && s.mayFetch ring (descrLen bs) then (s.admitEntry ring bs buf).postReady else s

/-- AT_PHASE_TIMEOUT: 65 536 major cycles after acceptance the phase has not been passed (R562). -/
def execAtPhaseTimeout (t ring pos : Nat) (s : State) : Host.Outcome State Fault Refusal :=
  s.does t fun s =>
    match s.host.acc.find? fun e => decide (e.ring = ring ∧ e.pos = pos) with
    | none => s
    | some e =>
      match e.due, e.prog with
      | .phase _, .waiting =>
        if 65536 ≤ (s.cyc + 2 ^ 40 - e.accN) % 2 ^ 40 then
          ((s.reject e stRejLate).sendTag e stRejLate s.cyc 0).postReady
        else s
      | _, _ => s

/-! ## NOP, FENCE and TRACE -/

/-- NOP at its apply point (Table 14.7). -/
def fxNop (_ : Ctx) (e : Entry) (s : State) : State := s.axisEffect e fun s => s.finish e.id stDone (leBytes 8 s.mt)

/-- What a FENCE waits for (02 R91): descriptors accepted earlier from the rings it names, until each has taken effect
or been rejected, or, with WAIT_CPL, until each completion is posted. -/
def State.fenceHeld (s : State) (e : Entry) (rings : Nat) (waitCpl : Bool) : Bool :=
  s.host.acc.any fun x => decide (x.id < e.id) && bit rings x.ring && (waitCpl || decide (x.prog = .waiting))

/-- FENCE at its apply point. -/
def fxFence (_ : Ctx) (e : Entry) (s : State) : State := s.finish e.id stDone (zeros 8)

/-- SCH_TRACE_CTL and SCH_TRACE_RANGE take the filters of a TRACE (03 R144, Table 03.10); TRACE_EN is kept. -/
def fxTrace (evtMask segMask : Nat) (compress softPass : Bool) (lo hi : Nat) (_ : Ctx) (e : Entry) (s : State) : State :=
  let v := s.force 0x020010
  let s := s.devSet 0x020010 0x01FFFF01
    (v - 2 ^ 16 * bits v 24 16 - 2 ^ 8 * bits v 15 8 - bits v 0 0 +
      2 ^ 16 * (evtMask % 2 ^ 9) + 2 ^ 8 * (segMask % 2 ^ 8) + b2n softPass)
  let w := s.force 0x020014
  let s := s.devSet 0x020014 0x03FF03FF (w - 2 ^ 16 * bits w 25 16 - bits w 9 0 + 2 ^ 16 * (hi % 2 ^ 10) + lo % 2 ^ 10)
  ({ s with pool := { s.pool with compress := compress } }).finish e.id stDone (zeros 8)

/-- NOP takes effect. -/
def execNop (t : Nat) (h : DHdr) (s : State) : Host.Outcome State Fault Refusal :=
  s.does t fun s => s.runDescr h .nop fxNop

/-- FENCE takes effect, or waits for the descriptors it names: it then stays in the record until its apply point. -/
def execFence (t : Nat) (h : DHdr) (rings : Nat) (waitCpl : Bool) (s : State) : Host.Outcome State Fault Refusal :=
  s.does t fun s => s.runDescr h (.fence rings waitCpl) fun c e s =>
    if s.fenceHeld e rings waitCpl then s.modEntry e.id fun e => { e with prog := .waiting } else fxFence c e s

/-- TRACE takes effect. -/
def execTrace (t : Nat) (h : DHdr) (evtMask segMask : Nat) (compress softPass : Bool) (axisLo axisHi : Nat) (s : State) :
    Host.Outcome State Fault Refusal :=
  s.does t fun s => s.runDescr h (.trace evtMask segMask compress softPass axisLo axisHi)
    (fxTrace evtMask segMask compress softPass axisLo axisHi)

/-! ## Cycle points and interrupts (08 R373 to R376) -/

/-- A cycle point fires at the present granule. -/
def State.cpFires (s : State) (k : Nat) : Bool :=
  let w := s.force (cpOff k)
  bit w 31 && s.up && decide (s.cyc % (bits w 18 11 + 1) = 0) && decide (SMap.get 0 s.host.cpFired k ≠ s.granuleNo + 1) &&
    (decide (s.gran = bits w 10 0) || (bit w 30 && decide (s.gran = (bits w 10 0 + 1000) % 2000)))

/-- The vector a cycle point is steered to. -/
def State.cpVec (s : State) (k : Nat) : Nat := bits (s.force (cpOff k)) 29 25

/-- Another point of the same vector still waits to fire in this granule. -/
def State.cpAwaits (s : State) (k : Nat) : Bool :=
  s.awaits (s.now + (249 - s.mtQuarter % 250)) fun c => match c with
    | .cyclePoint _ i => decide (i ≠ k ∧ s.cpVec i = s.cpVec k) && s.cpFires i
    | _ => false

/-- CYCLE_POINT: the word of the point is written, then its message is sent; two points of one vector in a granule send
one message, after both words (R374, R376). -/
def execCyclePoint (t k : Nat) (s : State) : Host.Outcome State Fault Refusal :=
  s.does t fun s =>
    if s.cpFires k then
      let vec := s.cpVec k
      let later := s.cpAwaits k
      let count := (SMap.get 0 s.host.cpCount k + 1) % 2 ^ 16
      let here := s.granuleNo + 1
      let sent := decide (SMap.get 0 s.host.cpLast vec = here)
      let s := { s with host := { s.host with cpCount := SMap.put 0 s.host.cpCount k count, cpFired := SMap.put 0 s.host.cpFired k here,
                                              cpLast := if later then s.host.cpLast else SMap.put 0 s.host.cpLast vec here } }
      let s := s.statusWrite (0x100 + 8 * k) (leBytes 3 (tagOf s.cyc) ++ [0] ++ leBytes 2 s.gran ++ leBytes 2 count)
      if sent || later then s else s.sendMsi vec
    else s

/-- MSI_X_VECTOR_UNMASK: the pending message of the vector is sent (R376). -/
def execMsiXVectorUnmask (t vec : Nat) (s : State) : Host.Outcome State Fault Refusal :=
  s.does t fun s =>
    let pending := s.host.msiPending.contains vec
    let s := { s with host := { s.host with msiMasked := s.host.msiMasked.filter fun v => decide (v ≠ vec),
                                            msiPending := s.host.msiPending.filter fun v => decide (v ≠ vec) } }
    if pending then s.emitHost (.msi vec) else s

/-! ## The PCIe link (R545, R575, R579) -/

/-- PCIE_LINK_DOWN: DMA stops and every ring is disabled; descriptors accepted go on. -/
def execPcieLinkDown (t : Nat) (s : State) : Host.Outcome State Fault Refusal :=
  s.does t fun s =>
    if !s.host.linkUp then s
    else
      let s := { s with host := { s.host with linkUp := false, speed := 0, width := 0 } }
      let s := (List.range 33).foldl (fun s r => s.modRing r fun g =>
        { g with on := false, disabling := false, fetched := 0, withheld := false }) s
      let s := s.dropDomain 13 s.plantNeeded
      (s.liveOn srcPcie 0x32).raise srcPcie 0x32 0 []

/-- PCIE_LINK_UP: the link trains. -/
def execPcieLinkUp (t speed width : Nat) (s : State) : Host.Outcome State Fault Refusal :=
  s.does t fun s =>
    ({ s with host := { s.host with linkUp := true, speed := speed, width := width } }).liveOff srcPcie 0x32

/-! ## Plant-port frames (R570, R571; 10 R451, R453) -/

/-- A transmit time-stamp entry (10 Table 10.4), or its drop. -/
def State.txStamp (s : State) (p ident : Nat) (notSent : Bool) : State :=
  let q := s.plant p
  if 16 ≤ (q.prod + 2 ^ 32 - q.cons) % 2 ^ 32 then
    (s.modPlant p fun q => { q with drop := (q.drop + 1) % 2 ^ 32 }).raiseOnce (srcPlant p) 0x2E p (leBytes 4 1)
  else
    let e := leBytes 2 ident ++ [BitVec.ofNat 8 (2 * b2n notSent + p), BitVec.ofNat 8 q.seq] ++ leBytes 8 s.mt ++ zeros 4
    let s := s.statusWrite (0x200 + 0x100 * p + 16 * (q.prod % 16)) e
    let s := s.modPlant p fun q => { q with prod := (q.prod + 1) % 2 ^ 32, seq := (q.seq + 1) % 256 }
    s.statusWrite (0x0A4 + 4 * p) (leBytes 4 (s.plant p).prod)

/-- The consumer index of PTXp passes an entry. -/
def State.ptxPass (s : State) (p : Nat) : State :=
  let s := s.modRing (29 + p) fun g => { g with own := (g.own + 1) % 2 ^ 32 }
  s.statusWrite (ringStatusOff (29 + p)) (leBytes 4 (s.ringOf (29 + p)).own)

/-- PLANT_FRAME_SEND: the head of PTXp is sent, discarded with its link down, or refused for its length. -/
def execPlantFrameSend (t port ident len : Nat) (tsReq : Bool) (frame : List Byte) (s : State) :
    Host.Outcome State Fault Refusal :=
  s.does t fun s =>
    let g := s.ringOf (29 + port)
    if !g.on ∨ g.host = g.own ∨ ¬ s.host.linkUp then s
    else
      let s :=
        if len < 14 ∨ 1514 < len then s.modRing (29 + port) fun g => { g with drop := (g.drop + 1) % 2 ^ 32 }
        else if s.plantUp port then
          (let s := (s.emit (.plant port (padTo (max 60 len) (frame.take len)))).modPlant port fun q => { q with sentAt := some s.core }
           if tsReq then s.txStamp port ident false else s)
        else if tsReq then s.txStamp port ident true
        else s
      s.ptxPass port

/-- The time receiver consumes a frame: its EtherType and destination are those of Table 10.3A. -/
def gptpFrame (frame : List Byte) : Bool :=
  decide (slice frame 0 6 = [0x01, 0x80, 0xC2, 0x00, 0x00, 0x0E]) && decide (slice frame 12 2 = [0x88, 0xF7])

/-- PLANT_FRAME_RECEIVED: a frame the time receiver does not consume goes to PRXp. `stamp` is the raw count at its
time-stamp point. -/
def execPlantFrameReceived (t port stamp : Nat) (fcsOk : Bool) (frame : List Byte) (s : State) :
    Host.Outcome State Fault Refusal :=
  s.does t fun s =>
    if !fcsOk ∨ gptpFrame frame ∨ ¬ (s.ringOf (31 + port)).on then s
    else if 1514 < frame.length then s.modRing (31 + port) fun g => { g with drop := (g.drop + 1) % 2 ^ 32 }
    else
      s.post (31 + port)
        (leBytes 2 frame.length ++ leBytes 1 port ++ [0] ++ leBytes 8 (mtAt s.time.ofs s.time.rate s.time.r0 stamp) ++
          zeros 4 ++ padTo 2032 frame)

end Sys2Proof.Machine
end

