-- ==== Sys2Proof/Machine/Net.lean ====
section
/-! DEFINITION. The Miush network (08, 09): frames and their checks, reports, overlaps and muting, integration of nodes,
late-comers, management requests, ring delay, breaks and healing, cold start and integration by listening. -/

namespace Sys2Proof.Machine

/-! ## Cycles and settings -/

/-- MT at the start of the present segment cycle of segment k, ns. -/
def State.segStart (s : State) (k : Nat) : Nat := s.mt - s.mt % 125000 + s.minor k * s.segL k * 125 / 2

/-- The granule within the present segment cycle. -/
def State.segGran (s : State) (k : Nat) : Nat := s.gran % s.segL k

/-- The segment cycle count now (R346). -/
def State.countNow (s : State) (k : Nat) : Nat := s.segCount k s.cyc (s.minor k)

/-- The segment cycle count `c` cycles ago: a slot late in a cycle reaches its port after the cycle has ended (R361). -/
def State.countBack (s : State) (k c : Nat) : Nat :=
  let all := 2 ^ 40 * (2000 / s.segL k)
  (s.countNow k + all - c) % all

/-- The segment cycle `c` cycles ago. -/
def State.cycleBack (s : State) (k c : Nat) : Nat × Nat :=
  (s.countBack k c / (2000 / s.segL k), s.countBack k c % (2000 / s.segL k))

/-- The granules from the start of the segment cycle `c` cycles ago. -/
def State.backGran (s : State) (k c : Nat) : Nat := s.cycleOffset k (s.cycleBack k c).1 (s.cycleBack k c).2 / 50

/-- A schedule entry was used in the segment cycle `c` cycles ago (R363). -/
def State.usedBack (s : State) (k c e : Nat) : Bool :=
  decide (schType (s.sched k e) ≠ 0) && (!schMaj (s.sched k e) || decide ((s.cycleBack k c).2 = 0))

/-- A schedule entry is used in the present minor cycle (R363). -/
def State.entryUsed (s : State) (k e : Nat) : Bool :=
  decide (schType (s.sched k e) ≠ 0) && (!schMaj (s.sched k e) || decide (s.minor k = 0))

/-- ACC_W; a value below 2 acts as 2. -/
def State.accW (s : State) (k : Nat) : Nat := max 2 (bits (s.force (netOff k 0x20)) 3 0)

/-- ASYM_THR in ns; a value below 4 acts as 4. -/
def State.asymThr (s : State) (k : Nat) : Nat := max 4 (bits (s.force (netOff k 0x20)) 23 16)

/-- STALE_K. -/
def State.staleK (s : State) (k : Nat) : Nat := bits (s.force (netOff k 0)) 27 24

/-- NODEj is PRESENT; is SPARE. -/
def State.present (s : State) (k j : Nat) : Bool := bit (s.nodeWord k j) 31
def State.spare (s : State) (k j : Nat) : Bool := bit (s.nodeWord k j) 30

/-- The node addresses of a segment. -/
def nodeAddrs : List Nat := (List.range 40).map (· + 1)

/-- The node is integrated (NTIMj.INTEG). -/
def Node.live (d : Node) : Bool := decide (d.st = .live)

/-- The address field of node marks (16 Table 16.6). -/
def nodeAddr (k j : Nat) : Nat := 256 * k + j

/-! ## Frames (R343, R344, R348) -/

/-- The controller's timing is in holdover: its active domain is HOLDOVER or LOST. -/
def State.timeHeld (s : State) : Bool :=
  let st := (s.dom s.activeDom).st
  decide (st = .holdover) || decide (st = .lost)

/-- A header (Table 08.2). -/
def State.header (s : State) (k type sender slot : Nat) (chB : Bool) : List Byte :=
  [BitVec.ofNat 8 (16 * type + 1), BitVec.ofNat 8 sender] ++ leBytes 2 (s.countNow k) ++
    [BitVec.ofNat 8 slot, BitVec.ofNat 8 (128 * b2n chB + 64 * b2n (s.seg k).ringOpen + 32 * b2n s.timeHeld)]

/-- The MAC of a port. -/
def srcMac (p : Nat) : Nat := srcCode 4 (0x020 + p)

/-- The port link of a channel's start is up: channel A leaves West, channel B East. -/
def State.portUp (s : State) (k : Nat) (chB : Bool) : Bool := if chB then (s.seg k).linkE else (s.seg k).linkW

/-- The port at which a channel arrives works: channel A arrives at the East port, channel B at the West port. A port whose
link is down receives nothing, nor does a fenced MAC (R342, 01 R44). -/
def State.hears (s : State) (k : Nat) (chB : Bool) : Bool := s.portUp k (!chB) && !s.fenced (srcMac (2 * k + b2n (!chB)))

/-- The channel on which the device covers or runs a segment alone after a changeover: East for rank 1, West for 0. -/
def State.coverB (s : State) : Bool := decide (s.tw.rank = 1)

/-- A follower sends in the slot of this frame itself: that of the leader's CT or safe frame on the channel on which it covers
the segment (15 R606 to R608). -/
def State.inCoverSlot (s : State) (k : Nat) (chB : Bool) (f : List Byte) : Bool :=
  (s.twSeg k).covered && decide (chB = s.coverB) && decide (byteAt f 1 = 0) &&
    (decide (byteAt f 0 / 16 = 1) || decide (byteAt f 0 / 16 = 4))

/-- A follower passes a frame on, whenever both ports work (15 R584), but for one that arrives in the slot of a frame with
which it covers the leader (15 R608). -/
def State.passOn (s : State) (k : Nat) (chB : Bool) (f : List Byte) : State :=
  if s.tw.role = .follower ∧ s.hears k chB ∧ s.portUp k chB ∧ ¬ s.fenced (srcMac (2 * k + b2n chB)) ∧ ¬ s.inCoverSlot k chB f then
    s.emit (.forward k chB f)
  else s

/-- Send one copy of a frame, starting at a machine time, from a port whose link is up; a fenced MAC sends nothing
(01 R44), an armed one spoils its FCS (16 R648). -/
def State.sendCopyAt (s : State) (start k type sender slot : Nat) (payload : List Byte) (chB : Bool) : State :=
  if s.portUp k chB && !s.fenced (srcMac (2 * k + b2n chB)) then
    let body := s.header k type sender slot chB ++ payload
    let src := srcMac (2 * k + b2n chB)
    (s.emit (.frame k chB start (body ++ leBytes 4 (crc32 body ^^^ s.armedFlip src)))).disarm src
  else s

/-- Send one copy of a frame now. -/
def State.sendCopy (s : State) (k type sender slot : Nat) (payload : List Byte) (chB : Bool) : State :=
  s.sendCopyAt s.mt k type sender slot payload chB

/-- The published delay of the device's own place on a channel, in whole ns of MT. -/
def State.ownDelay (s : State) (k : Nat) (chB : Bool) : Int :=
  let own := s.node k 62
  roundConv (if chB then own.db else own.da) 4

/-- The start of a frame with which a follower covers its leader: slot start plus its published delay (15 R606). -/
def State.coverStart (s : State) (k : Nat) : Nat := toU 64 (s.mt + s.ownDelay k s.coverB)

/-- Send a frame on both channels. -/
def State.sendFrame (s : State) (k type sender slot : Nat) (payload : List Byte) : State :=
  (s.sendCopy k type sender slot payload false).sendCopy k type sender slot payload true

/-- The payload of a received frame. -/
def payloadOf (f : List Byte) : List Byte := (f.drop 6).take (f.length - 10)

/-- The FCS of a received frame is correct. -/
def fcsOk (f : List Byte) : Bool :=
  decide (10 ≤ f.length) && decide (fld f (f.length - 4) 4 = crc32 (f.take (f.length - 4)))

/-- A frame of `b` bytes, preamble included, fits an entry of LEN granules (R357): 8 b × 16 ≤ 1000 LEN. -/
def fitsLen (b len : Nat) : Bool := decide (128 * b ≤ 1000 * len)

/-- The type of frame an entry of a schedule type may carry (Table 08.3). -/
def typeOk (entryType frameType : Nat) : Bool :=
  if entryType = 8 then decide (frameType = 6 ∨ frameType = 7 ∨ frameType = 8) else decide (entryType = frameType)

/-- The expected start of a copy in an entry with START s of the segment cycle `c` cycles ago, in 1/16 ns of MT (R403,
15 R611). -/
def State.expected (s : State) (k c sg : Nat) (chB : Bool) : Int :=
  let g := s.seg k
  let own := SMap.get ({} : Node) g.nodes 62
  let d : Int := if s.following ∨ g.viaFollower then (if chB then own.db else own.da) else (if chB then g.db else g.da)
  16 * (s.segStart k : Int) - 1000 * (c * s.segL k) + 1000 * sg + d

/-- The arrival offset o of a copy in 1/16 ns (R403). -/
def State.arrival (s : State) (k c e : Nat) (chB : Bool) (start : Nat) : Int :=
  16 * (start : Int) - s.expected k c (schStart (s.sched k e)) chB

/-- An arrival offset in whole ns. -/
def offNs (o : Int) : Int := roundConv o 4

/-- The used entries of the segment cycle `c` cycles ago that a test accepts. -/
def State.slotsBack (s : State) (k c : Nat) (p : Nat → Bool) : List (Nat × Nat) :=
  ((List.range 128).filter fun e => s.usedBack k c e && p (s.sched k e)).map fun e => (c, e)

/-- The slot that a copy falls in, of the present segment cycle (0) or the one before (1), as the slot moves round the ring
(R359, R361): of the used entries that a test accepts, the one with the least |o|. -/
def State.entryAt (s : State) (k : Nat) (chB : Bool) (start : Nat) (p : Nat → Bool) : Option (Nat × Nat) :=
  (s.slotsBack k 0 p ++ s.slotsBack k 1 p).foldl (fun best x =>
    match best with
    | none => some x
    | some b => if (s.arrival k x.1 x.2 chB start).natAbs < (s.arrival k b.1 b.2 chB start).natAbs then some x else some b) none

/-- The checks of R347 that do not depend on the sender; CYC is held to the count of the slot's own segment cycle. -/
def State.copyOk (s : State) (k c e : Nat) (chB : Bool) (start : Nat) (f : List Byte) : Bool :=
  fcsOk f && decide (byteAt f 0 % 16 = 1) && typeOk (schType (s.sched k e)) (byteAt f 0 / 16) && decide (byteAt f 4 = e) &&
    decide (fld f 2 2 = s.countBack k c % 2 ^ 16) && decide (bit (byteAt f 5) 7 = chB) &&
    decide ((s.arrival k c e chB start).natAbs ≤ 1000 * s.accW k)

/-- Count an invalid copy against its channel (NET_SEGn_NCNTj). -/
def State.badCopy (s : State) (k j : Nat) (chB : Bool) : State :=
  if 1 ≤ j ∧ j ≤ 40 then
    s.modNode k j fun d => if chB then { d with bBad := (d.bBad + 1) % 256 } else { d with aBad := (d.aBad + 1) % 256 }
  else s

/-! ## Published delays (R410 to R414, R420, R422) -/

/-- Move a value toward another by at most `n`. -/
def approachBy (x goal : Int) (n : Nat) : Int := if x < goal then min goal (x + n) else max goal (x - n)

/-- A node's published delays after the ramp of 50 ns per ms, which is one unit of 1/16 ns per 5000 quarter ns. -/
def Node.ramp (d : Node) (now : Nat) : Node :=
  if d.da = d.daTo ∧ d.db = d.dbTo then { d with rampAt := now }
  else
    let n := (now - d.rampAt) / 5000
    { d with da := approachBy d.da d.daTo n, db := approachBy d.db d.dbTo n, rampAt := d.rampAt + 5000 * n }

/-- The published delays of a node as they stand now. -/
def State.rampNode (s : State) (k j : Nat) : State := s.modNode k j fun d => d.ramp s.now

/-- d_A and d_B of R412 from D and the DELTA values of a node, or none under R413. -/
def delaysOf (d : Int) (deltas : List Int) : Option (Int × Int) :=
  let n : Int := deltas.length
  let sum := deltas.sum
  if deltas.isEmpty then none
  else if d * n < 16 * (sum.natAbs : Int) then none
  else
    let a := roundDiv (d * n - 16 * sum) (2 * n)
    some (a, d - a)

/-- Publish a node's delays from its DELTA values, at once. -/
def State.publish (s : State) (k j : Nat) : State :=
  let d := s.node k j
  match delaysOf (s.seg k).d d.deltas with
  | some (a, b) => s.modNode k j fun d => { d with da := a, db := b, daTo := a, dbTo := b, rampAt := s.now }
  | none => if d.deltas.isEmpty then s else s.raiseOnce (srcNode k j) 0x4F 0 []

/-- Published delays follow the measurements: the ring is closed and no adoption is due. -/
def Segment.measures (g : Segment) : Bool := !g.ringOpen && decide (g.remeasure = 0) && !g.remeasured

/-- A DELTA value of a node is taken (R411, R412). -/
def State.takeDelta (s : State) (k j : Nat) (delta : Int) : State :=
  if delta = -0x8000 ∨ (s.seg k).ringOpen then s
  else
    let s := s.modNode k j fun d => { d with deltas := (delta :: d.deltas).take 8 }
    if (s.seg k).measures then s.publish k j else s

/-! ## Asymmetric re-route (R419, R420) -/

/-- The mean of offsets in 1/16 ns. -/
def meanOff (l : List Int) : Int := roundDiv (16 * l.sum) l.length

/-- An open ring is to heal: both links are up and 16 own SY have returned on both channels (R421). -/
def Segment.healDue (g : Segment) : Bool := g.ringOpen && g.linkW && g.linkE && decide (16 ≤ g.heal)

/-- A node is judged under R419 and its correction follows R420, on a valid report that arrived on one channel. With the heal
due no node becomes suspect (R428). -/
def State.judgeAsym (s : State) (k j : Nat) (chB : Bool) : State :=
  let d := s.node k j
  match d.baseline with
  | none => s
  | some b =>
    let diff := meanOff (d.offsets.take 4) - b
    if !(s.seg k).ringOpen ∨ d.bothSeen ∨ d.offsets.length < 4 ∨ (s.seg k).healDue then s
    else
      let far := decide ((16 * s.asymThr k : Int) < diff.natAbs)
      let s :=
        if far ∧ ¬ d.asym then
          (s.modNode k j fun d => { d with asym := true, rampAt := s.now }).raise (srcNode k j) 0x52 0 []
        else s
      if far ∨ d.asym then
        s.modNode k j fun d =>
          let d := d.ramp s.now
          if chB then { d with daTo := d.da + diff } else { d with dbTo := d.db + diff }
      else s

/-! ## Reports (R62, R63, R365 to R371, R398, R404, R405) -/

/-- A node becomes integrated with a valid report: its axes are set up afresh (R382, R398). -/
def State.nodeUp (s : State) (k j : Nat) : State :=
  let s := s.modNode k j fun d => { d with st := .live, missRun := 0 }
  (s.nodeAxes k j).foldl (fun s a => s.modAxis a fun ax => { ax with fb := { ax.fb with seen := false, repFault := false } }) s

/-- What the first valid copy of a cycle leaves. -/
def State.useReport (s : State) (k c j : Nat) (chB : Bool) (o : Int) (payload : List Byte) : State :=
  let s := if (s.node k j).live then s else s.nodeUp k j
  let s := s.modSeg k fun g => { g with latest := max g.latest (s.backGran k c) }
  let s := s.modNode k j fun d =>
    { d with used := some payload, lastChB := chB, offset := satW 16 (offNs o), offsets := (offNs o :: d.offsets).take 8 }
  let s := if (s.seg k).synced ∧ s.segRC k ≤ s.backGran k c + 2 then s.raiseOnce (srcSeg k) 0x0D 0 [] else s
  (s.takeDelta k j (fldS payload 10 2)).judgeAsym k j chB

/-- A report copy that arrives is valid (R347): its slot names the node, whose axes fix its length. -/
def State.reportOk (s : State) (k c e : Nat) (chB : Bool) (start : Nat) (f : List Byte) : Bool :=
  let j := schSender (s.sched k e)
  let d := s.node k j
  s.hears k chB && s.copyOk k c e chB start f && decide (byteAt f 1 = j) &&
    decide (f.length = 10 + 12 * (s.nodeAxes k j).length) && decide (0 < (s.nodeAxes k j).length) &&
    !(if chB then d.badB else d.badA)

/-- The channel A copy of a report completes its checks in this core clock too: it is the one used (R365). -/
def State.copyANow (s : State) (k c e : Nat) : Bool :=
  s.meets fun x => match x with
    | .rpReceived _ k' false start f => decide (k' = k) &&
        decide (s.entryAt k false start (fun w => decide (schType w = 2)) = some (c, e)) && s.reportOk k c e false start f
    | _ => false

/-- The core clock of RC in the cycle that a report copy belongs to is still to come (02 R62, R100). -/
def State.inTime (s : State) (k c : Nat) : Bool :=
  decide (s.cycleOffset k (s.cycleBack k c).1 (s.cycleBack k c).2 < 50 * s.applyGran k)

/-- A valid report copy of node j. That of a muted node is not used: its slot counts as missed (R372). -/
def State.goodReport (s : State) (k c j e : Nat) (chB : Bool) (start : Nat) (f : List Byte) : State :=
  let o := s.arrival k c e chB start
  let drift := decide (1000 * (s.accW k - 1) < o.natAbs)
  let s := if drift ∧ ¬ (s.node k j).drift then (s.modNode k j fun d => { d with drift := true }).raise (srcNode k j) 0x4E 0 [] else s
  let s := s.modNode k j fun d => if chB then { d with onB := true } else { d with onA := true }
  if (s.node k j).used.isNone && !(s.node k j).muted && s.inTime k c && !(chB && s.copyANow k c e) then
    s.useReport k c j chB o (payloadOf f)
  else s

/-- RP_RECEIVED: a report copy completes its checks. `start` is the MT of its start (R403). -/
def execRpReceived (t seg : Nat) (chB : Bool) (start : Nat) (frame : List Byte) (s : State) :
    Host.Outcome State Fault Refusal :=
  s.does t fun s =>
    let s := s.passOn seg chB frame
    if !s.segRuns seg || !s.hears seg chB then s
    else
      match s.entryAt seg chB start fun w => decide (schType w = 2) with
      | none => s
      | some (c, e) =>
        let j := schSender (s.sched seg e)
        if s.reportOk seg c e chB start frame then s.goodReport seg c j e chB start frame else s.badCopy seg j chB

/-- REPORT_LOST: a node's count of missed slots has reached STALE_K + 1 (R370). -/
def execReportLost (t seg node : Nat) (s : State) : Host.Outcome State Fault Refusal :=
  s.does t fun s =>
    let src := srcNode seg node
    if s.staleK seg < (s.node seg node).missRun ∧ ¬ (s.src src).live.contains 0x41 then
      (s.liveOn src 0x41).raiseNow src 0x41 (nodeAddr seg node) []
    else s

/-- NODE_LOST: no valid report for 8 segment cycles (01 R42); the node is integrated again by polling (16). -/
def execNodeLost (t seg node : Nat) (s : State) : Host.Outcome State Fault Refusal :=
  s.does t fun s =>
    let src := srcNode seg node
    if 8 ≤ (s.node seg node).missRun ∧ ¬ (s.src src).live.contains 0x40 then
      let s := (s.liveOn src 0x40).raiseNow src 0x40 (nodeAddr seg node) []
      s.modNode seg node fun d => { d with st := if s.spare seg node then .assigned 0 else .absent }
    else s

/-! ## Overlaps and muting (R406 to R409, R426, R427) -/

/-- The expected duration of an entry's frame in ns (Table 08.8); an MG entry is taken at the length it holds. -/
def State.entryDur (s : State) (k e : Nat) : Nat :=
  let w := s.sched k e
  let bytes :=
    match schType w with
    | 1 => 18 + 8 * (s.netAxes k).length
    | 2 => 18 + 12 * (s.nodeAxes k (schSender w)).length
    | 3 => 50
    | 4 => 50
    | _ => 1000 * schLen w / 128
  8 * bytes

/-- The node an entry belongs to, for offences: none for the controller's own and open entries, and for a muted node. -/
def State.chargeable (s : State) (k e : Nat) : Option Nat :=
  let j := schSender (s.sched k e)
  if 1 ≤ j ∧ j ≤ 40 ∧ ¬ (s.node k j).muted then some j else none

/-- The offenders of an overlap with the offsets o1 and o2, in 1/16 ns (R407). -/
def offenders (a b : Option Nat) (o1 o2 : Int) : List (Nat × Int) :=
  match a, b with
  | none, none => []
  | some i, none => [(i, o1)]
  | none, some j => [(j, o2)]
  | some i, some j =>
    let d : Int := (o1.natAbs : Int) - o2.natAbs
    if d.natAbs ≤ 16 then [(i, o1), (j, o2)] else if 0 < d then [(i, o1)] else [(j, o2)]

/-- A copy made invalid by an overlap. -/
def State.spoil (s : State) (k e : Nat) (chB : Bool) : State :=
  let j := schSender (s.sched k e)
  if 1 ≤ j ∧ j ≤ 40 then
    (s.modNode k j fun d => if chB then { d with badB := true } else { d with badA := true }).badCopy k j chB
  else s

/-- A node is charged once in a cycle (R408). -/
def State.charge (s : State) (k : Nat) (x : Nat × Int) : State :=
  s.modNode k x.1 fun d =>
    if d.offended then d else { d with offended := true, offence := min 3 (d.offence + 1), offO := satW 16 (offNs x.2) }

/-- The used entry of the segment cycle `c` cycles ago with the least START of at least `from_`. -/
def State.usedFrom (s : State) (k c from_ : Nat) : Option Nat :=
  ((List.range 128).filter fun e => s.usedBack k c e && decide (from_ ≤ schStart (s.sched k e))).foldl (fun best e =>
    match best with
    | none => some e
    | some b => if schStart (s.sched k e) < schStart (s.sched k b) then some e else some b) none

/-- The used entry after an entry of the segment cycle `c` cycles ago: of that cycle, else the first of the next. -/
def State.nextUsed (s : State) (k c e : Nat) : Option Nat :=
  match s.usedFrom k c (schStart (s.sched k e) + 1) with
  | some x => some x
  | none => s.usedFrom k (c - 1) 0

/-- RECEIVE_OVERLAP: the receive activity that began at `start` and ends now runs into the next slot. -/
def execReceiveOverlap (t seg : Nat) (chB : Bool) (start first second : Nat) (s : State) :
    Host.Outcome State Fault Refusal :=
  s.does t fun s =>
    let c := if (s.arrival seg 1 first chB start).natAbs < (s.arrival seg 0 first chB start).natAbs then 1 else 0
    let e2 := s.expected seg (if schStart (s.sched seg first) < schStart (s.sched seg second) then c else c - 1)
      (schStart (s.sched seg second)) chB
    if s.segRuns seg && s.hears seg chB && decide (s.nextUsed seg c first = some second) && decide (s.entryDur seg first + 16 < s.mt - start) && decide (e2 < 16 * (s.mt : Int)) then
      let o1 := s.arrival seg c first chB start
      let o2 := 16 * ((s.mt : Int) - s.entryDur seg second) - e2
      let s1 := (s.spoil seg first chB).spoil seg second chB
      (offenders (s.chargeable seg first) (s.chargeable seg second) o1 o2).foldl (fun s x => s.charge seg x) s1
    else s

/-- NODE_MUTED: three consecutive offences mute a node (R409). -/
def execNodeMuted (t seg node : Nat) (s : State) : Host.Outcome State Fault Refusal :=
  s.does t fun s =>
    let d := s.node seg node
    if 3 ≤ d.offence ∧ ¬ d.muted then
      let src := srcNode seg node
      (((s.modNode seg node fun d => { d with muted := true }).liveOn src 0x43)).raiseNow src 0x43 (nodeAddr seg node)
        (leBytes 1 node ++ leInt 2 d.offO)
    else s

/-! ## Integration and late-comers (R377 to R382, R397 to R402, R418) -/

/-- The node addresses that integration still polls. -/
def State.pollable (s : State) (k : Nat) : List Nat :=
  nodeAddrs.filter fun j => s.present k j && !s.spare k j && (match (s.node k j).st with | .absent => true | .polled => true | _ => false)

/-- Detail of an integration mark: address, IDENT, DELTA. -/
def integDetail (addr : List Byte) (f : List Byte) : List Byte := addr ++ slice (payloadOf f) 8 8 ++ slice (payloadOf f) 6 2

/-- The controller owes a frame in its next MG entry. -/
def State.oweFrame (s : State) (k : Nat) (a : Acyclic) : State := s.modSeg k fun g => { g with owe := g.owe ++ [a] }

/-- Address h is to be assigned to the node that answered with a frame (R397, R400). -/
def State.assignNode (s : State) (k h : Nat) (f : List Byte) : State :=
  let p := payloadOf f
  let delta := fldS p 6 2
  let s := s.modNode k h fun d =>
    { d with st := .assigned 0, halve := bit (byteAt p 1) 0, ident := slice p 8 8,
             deltas := if delta = -0x8000 then [] else [delta] }
  s.oweFrame k (.assign h (slice p 8 8))

/-- An IN answer is handled (R397, R400, R418). -/
def State.inAnswer (s : State) (k : Nat) (f : List Byte) : State :=
  let p := payloadOf f
  let h := byteAt p 0
  let g := s.seg k
  let s := s.modSeg k fun g => { g with asked := none, invited := false }
  let refuse := s.oweFrame k (.refuse (slice p 8 8))
  if g.ringOpen ∧ fldS p 6 2 = -0x8000 then
    (if (s.pollable k).contains h then
      refuse.modNode k h fun d => { d with halve := bit (byteAt p 1) 0, waitsHeal := true }
     else refuse)
  else if (s.pollable k).contains h then s.assignNode k h f
  else if h = 63 then
    (if bit (s.force (netOff k 0x20)) 15 then
      refuse.raise (srcSeg k) 0x46 (nodeAddr k 63) (integDetail [] f)
    else
      match (s.pollable k).head? with
      | some a => (s.assignNode k a f).raise (srcNode k a) 0x45 (nodeAddr k a) (integDetail (leBytes 1 a) f)
      | none => refuse.raise (srcSeg k) 0x46 (nodeAddr k 63) (integDetail [] f))
  else refuse.raise (srcSeg k) 0x47 (nodeAddr k h) (integDetail (leBytes 1 h) f)

/-- The open MG entry that a copy falls in, with its segment cycle. -/
def State.openSlot (s : State) (k : Nat) (chB : Bool) (start : Nat) : Option (Nat × Nat) :=
  s.entryAt k chB start fun w => decide (schType w = 8 ∧ schSender w = 63)

/-- The copy is valid in an open MG entry and fits it (R347). -/
def State.openOk (s : State) (k : Nat) (chB : Bool) (start : Nat) (f : List Byte) (x : Nat × Nat) : Bool :=
  let j := byteAt f 1
  s.copyOk k x.1 x.2 chB start f && (decide (1 ≤ j ∧ j ≤ 40) || decide (j = 62 ∨ j = 63)) &&
    fitsLen (f.length + 8) (schLen (s.sched k x.2))

/-- The segment cycle and entry of a copy that is valid in an open MG entry. -/
def State.openEntry (s : State) (k : Nat) (chB : Bool) (start : Nat) (f : List Byte) : Option (Nat × Nat) :=
  match s.openSlot k chB start with
  | some x => if s.hears k chB && s.openOk k chB start f x then some x else none
  | none => none

/-- A copy in an open entry that is not valid counts against its channel: at the node that the controller addressed, else at
the one that it names as its sender (R347; DESIGN CHOICE, log 90: NET_SEGn_NCNTj counts by node). -/
def State.badOpen (s : State) (k : Nat) (chB : Bool) (start : Nat) (f : List Byte) : State :=
  match s.openSlot k chB start with
  | some x =>
    if s.segRuns k && s.hears k chB && !s.openOk k chB start f x then s.badCopy k ((s.seg k).asked.getD (byteAt f 1)) chB else s
  | none => s

/-- The controller asked in the segment cycle, `c` cycles ago, of an open entry. -/
def State.askedIn (s : State) (k c : Nat) : Bool := decide ((s.seg k).askedC = s.countBack k c)

/-- The controller asked in this segment cycle. -/
def State.askedNow (s : State) (k : Nat) : Bool := s.askedIn k 0

/-- A valid late-comer's claim: its length and sender (Tables 08.7, 08.8). -/
def claimFrame (f : List Byte) : Bool := decide (byteAt f 0 / 16 = 7 ∧ f.length = 34 ∧ byteAt f 1 = 63)

/-- Another claim stands in an open entry: one taken before, or one that still waits in the queue (R381, R387). `ident` is the
claim it is held against, none for an answer. -/
def State.claimBeside (s : State) (k : Nat) (x : Nat × Nat) (ident : Option (List Byte)) : Bool :=
  let other (i : List Byte) : Bool := decide (ident ≠ some i)
  (match (s.seg k).claim with
   | some c => decide (c.1 = s.countBack k x.1) && other c.2.2
   | none => false) ||
    s.awaits (s.now + 500 * s.segL k) fun c => match c with
      | .lcClaim _ k' chB start f => decide (k' = k) && claimFrame f && decide (s.openEntry k chB start f = some x) &&
          other (slice (payloadOf f) 8 8)
      | _ => false

/-- A copy in the open entry of a cycle that asked comes from whom R364 lets answer there: the node addressed, or with target
63 a node without an address. -/
def State.mayAnswer (s : State) (k : Nat) (f : List Byte) : Bool :=
  match (s.seg k).asked with
  | some h => decide (byteAt f 1 = h)
  | none => (s.seg k).invited && decide (byteAt f 1 = 63)

/-- The node addressed in this cycle was polled for integration (R397), not asked by NODE_MGMT. -/
def State.polledNow (s : State) (k : Nat) : Bool :=
  match (s.seg k).asked with
  | some h => decide ((s.node k h).st = .polled)
  | none => (s.seg k).invited

/-- IN_ANSWER: the first valid copy of an IN answer in the open entry of the cycle that asked for it. A claim beside the
answer of an addressed node makes both invalid (R387). -/
def execInAnswer (t seg : Nat) (chB : Bool) (start : Nat) (frame : List Byte) (s : State) :
    Host.Outcome State Fault Refusal :=
  s.does t fun s =>
    let s := s.passOn seg chB frame
    match s.openEntry seg chB start frame with
    | none => s.badOpen seg chB start frame
    | some x =>
      if s.segRuns seg && decide (byteAt frame 0 / 16 = 6) && decide (frame.length = 26) && s.askedIn seg x.1 &&
          s.mayAnswer seg frame && s.polledNow seg && !((s.seg seg).asked.isSome && s.claimBeside seg x none) then
        s.inAnswer seg frame
      else s

/-- The spare entry a claim of `n` axes takes: free, with COUNT and RP entry large enough, of lowest address (R379). -/
def State.spareFor (s : State) (k n : Nat) : Option Nat :=
  nodeAddrs.find? fun j => s.present k j && s.spare k j && decide ((s.node k j).st = .absent) &&
    decide (n ≤ bits (s.nodeWord k j) 11 8) && decide (1 ≤ n) &&
    fitsLen (18 + 12 * n) (schLen (s.sched k (bits (s.nodeWord k j) 6 0)))

/-- A claim is refused. -/
def State.refuseClaim (s : State) (k : Nat) (ident : List Byte) : State :=
  (s.oweFrame k (.refuseClaim ident ((s.cyc + 1) % 2 ^ 40))).raise (srcSeg k) 0x4A (nodeAddr k 0) []

/-- A claim is granted or refused. -/
def State.takeClaim (s : State) (k : Nat) (f : List Byte) : State :=
  let p := payloadOf f
  let ident := slice p 8 8
  let n := byteAt p 0
  let delta := fldS p 2 2
  let grantN := (s.cyc + 1) % 2 ^ 40
  if (s.seg k).ringOpen then s.refuseClaim k ident
  else
    match s.spareFor k n with
    | none => s.refuseClaim k ident
    | some j =>
      let s := s.modNode k j fun d =>
        { d with st := .granted ((grantN + 1) % 2 ^ 40) n grantN, count := n, halve := bit (byteAt p 1) 0, ident := ident,
                 deltas := if delta = -0x8000 then [] else [delta] }
      let s := s.publish k j
      (s.oweFrame k (.grant j ident ((grantN + 1) % 2 ^ 40) n)).raise (srcNode k j) 0x49 (nodeAddr k j) []

/-- A second claim in one open entry makes both invalid: the answer to the first is withdrawn, and the spare's entry is what it
was (R381). -/
def State.dropClaim (s : State) (k j : Nat) (was : Node) (ident : List Byte) : State :=
  let s := s.modSeg k fun g => { g with owe := g.owe.filter fun a =>
    match a with | .grant _ i _ _ => decide (i ≠ ident) | .refuseClaim i _ => decide (i ≠ ident) | _ => true }
  if j = 0 then s else s.modNode k j fun _ => was

/-- Keep what a claim of an open entry was: its count, the spare it took, 0 for none, with that entry as it stood, and its IDENT,
empty once claims have spoiled each other. -/
def State.keepClaim (s : State) (k count j : Nat) (was : Node) (ident : List Byte) : State :=
  s.modSeg k fun g => { g with claim := some (count, j, ident), spareWas := was }

/-- A valid claim in the open entry of a cycle, `x` naming it. Invited, it is granted or refused, unless another claim stands
beside it; the two copies of one claim count once. Not invited, it only spoils the answer of the node addressed (R381, R387). -/
def State.hearClaim (s : State) (k : Nat) (x : Nat × Nat) (f : List Byte) : State :=
  let ident := slice (payloadOf f) 8 8
  let n := s.countBack k x.1
  let fresh := match (s.seg k).claim with | some c => decide (c.1 ≠ n) | none => true
  let j := (s.spareFor k (byteAt (payloadOf f) 0)).getD 0
  if s.claimBeside k x (some ident) then
    (match fresh, (s.seg k).claim with
    | false, some (_, j0, i0) => (s.dropClaim k j0 (s.seg k).spareWas i0).keepClaim k n 0 {} []
    | _, _ => s.keepClaim k n 0 {} [])
  else if !fresh then s
  else if (s.seg k).invited && s.askedIn k x.1 then
    (s.takeClaim k f).keepClaim k n (if (s.seg k).ringOpen then 0 else j) (s.node k j) ident
  else s.keepClaim k n 0 {} ident

/-- LC_CLAIM: a late-comer's claim in an open entry (R379 to R381, R387). -/
def execLcClaim (t seg : Nat) (chB : Bool) (start : Nat) (frame : List Byte) (s : State) :
    Host.Outcome State Fault Refusal :=
  s.does t fun s =>
    let s := s.passOn seg chB frame
    match s.openEntry seg chB start frame with
    | none => s.badOpen seg chB start frame
    | some x => if s.segRuns seg && claimFrame frame then s.hearClaim seg x frame else s

/-- NODE_NOT_FOUND: 64 major cycles after the first SY an address is not integrated (R399). -/
def execNodeNotFound (t seg node : Nat) (s : State) : Host.Outcome State Fault Refusal :=
  s.does t fun s =>
    let g := s.seg seg
    if g.synced && (s.pollable seg).contains node && !(s.node seg node).notFound &&
        decide (64 ≤ (s.cyc + 2 ^ 40 - g.firstSyN) % 2 ^ 40) then
      (s.modNode seg node fun d => { d with notFound := true }).raise (srcNode seg node) 0x44 (nodeAddr seg node) []
    else s

/-- LATECOMER_WITHDRAWN: 16 major cycles after a grant its node has sent no valid report (01 R43). -/
def execLatecomerWithdrawn (t seg node : Nat) (s : State) : Host.Outcome State Fault Refusal :=
  s.does t fun s =>
    match (s.node seg node).st with
    | .granted _ _ grantN =>
      if 16 ≤ (s.cyc + 2 ^ 40 - grantN) % 2 ^ 40 ∧ (s.cyc + 2 ^ 40 - grantN) % 2 ^ 40 < 2 ^ 39 then
        (s.modNode seg node fun d => { d with st := .absent, count := 0, deltas := [] }).raise (srcNode seg node) 0x4B
          (nodeAddr seg node) []
      else s
    | _ => s

/-! ## Management requests (14 R567) -/

/-- The next request of a segment, once one is over. -/
def State.nextMg (s : State) (k : Nat) : State :=
  s.modSeg k fun g => { g with mg := g.mgWait.head?, mgWait := g.mgWait.tail }

/-- MG_ANSWER: the valid answer to a management request of the same segment cycle, beside which no claim stands (R387). -/
def execMgAnswer (t seg : Nat) (chB : Bool) (start : Nat) (frame : List Byte) (s : State) :
    Host.Outcome State Fault Refusal :=
  s.does t fun s =>
    let s := s.passOn seg chB frame
    let p := payloadOf frame
    match (s.seg seg).mg, s.openEntry seg chB start frame with
    | _, none => s.badOpen seg chB start frame
    | none, _ => s
    | some r, some x =>
      if s.segRuns seg && decide (byteAt frame 0 / 16 = 8) && s.askedIn seg x.1 &&
          decide ((s.seg seg).asked = some r.node) && decide (byteAt frame 1 = r.node) && decide (4 ≤ p.length) &&
          decide (p.length ≤ 256) && decide (fld p 2 2 = r.trans) && r.sent && !s.claimBeside seg x none then
        let s := (s.emitHost (.hostWrite r.buf (p.drop 4))).modSeg seg fun g => { g with asked := none }
        ((s.nextMg seg).finish r.id stDone (leBytes 2 (p.length - 4) ++ leBytes 1 (byteAt p 0) ++ zeros 5)).postReady
      else s

/-- MGMT_REQUEST_TIMEOUT: a request sent four times brought no valid answer. -/
def execMgmtRequestTimeout (t seg : Nat) (s : State) : Host.Outcome State Fault Refusal :=
  s.does t fun s =>
    match (s.seg seg).mg with
    | none => s
    | some r =>
      if r.sent ∧ 3 ≤ r.repeats ∧ ¬ s.askedNow seg then
        ((s.nextMg seg).finish r.id stAborted [0, 0, 0, 1, 0, 0, 0, 0]).postReady
      else s

/-- The MG entry with SENDER 0 in which a request would be sent: the first in minor cycle 0 after now. -/
def State.requestEntry (s : State) (k : Nat) : Option Nat :=
  let mine (w : Nat) : Bool := decide (schType w = 8 ∧ schSender w = 0)
  let later := findEntry (s.sched k) fun w => mine w && decide (s.minor k = 0) && decide (s.segGran k < schStart w)
  match later with
  | some e => some e
  | none => findEntry (s.sched k) mine

/-- NODE_MGMT UNMUTE at its apply point (R409). -/
def fxUnmute (seg node : Nat) (_ : Ctx) (e : Entry) (s : State) : State :=
    (((s.modNode seg node fun d => { d with muted := false, offence := 0 }).liveOff (srcNode seg node) 0x43)).finish e.id
      stDone (zeros 8)

/-- NODE_MGMT REQUEST at its apply point. -/
def fxNodeReq (seg node fn buf : Nat) (data : List Byte) (_ : Ctx) (e : Entry) (s : State) : State :=
    let fits : Bool := match s.requestEntry seg with
      | some x => fitsLen (22 + data.length) (schLen (s.sched seg x))
      | none => false
    if !fits then s.rejectAt e stRejRange 24
    else if !(s.node seg node).live then s.reject e stRejIncons
    else
      let r : MgReq := { id := e.id, node := node, fn := fn, trans := 0, data := data, buf := buf, repeats := 0, sent := false }
      s.modSeg seg fun g => if g.mg.isNone then { g with mg := some r } else { g with mgWait := g.mgWait ++ [r] }

/-- NODE_MGMT takes effect. -/
def execNodeMgmtUnmute (t : Nat) (h : DHdr) (request : Bool) (seg node fn buf : Nat) (data : List Byte) (s : State) :
    Host.Outcome State Fault Refusal :=
  s.does t fun s =>
    if request then s.runDescr h (.nodeReq seg node fn buf data) (fxNodeReq seg node fn buf data)
    else s.runDescr h (.unmute seg node) (fxUnmute seg node)

/-! ## Ring delay, breaks and healing (R410, R415 to R418, R421 to R423) -/

/-- The means of the kept measurements, and D (R410). -/
def Segment.means (g : Segment) : Segment :=
  let a := meanOff g.daHist
  let b := meanOff g.dbHist
  { g with da := a, db := b, d := roundConv (a + b) 1 }

/-- A measurement of both channels is kept. -/
def Segment.measure (g : Segment) (a b : Nat) : Segment :=
  let g := { g with daHist := ((a : Int) :: g.daHist).take 16, dbHist := ((b : Int) :: g.dbHist).take 16 }
  if g.remeasure = 0 then g.means
  else if g.remeasure = 1 then { g.means with remeasure := 0, remeasured := true }
  else { g with remeasure := g.remeasure - 1 }

/-- Every node's published delays follow a new D. -/
def State.publishAll (s : State) (k : Nat) : State :=
  if (s.seg k).measures then (nodeAddrs.filter fun j => !(s.node k j).deltas.isEmpty).foldl (fun s j => s.publish k j) s else s

/-- SY_RETURN: the outcome of an own SY: which copies returned valid, and their delays. -/
def execSyReturn (t seg : Nat) (da db : Option Nat) (s : State) : Host.Outcome State Fault Refusal :=
  s.does t fun s =>
    let g := s.seg seg
    let da := if s.hears seg false then da else none
    let db := if s.hears seg true then db else none
    if !s.segRuns seg ∨ ¬ g.synced then s
    else
      let s := s.modSeg seg fun g =>
        { g with retA := da.isSome, retB := db.isSome, noRetA := if da.isSome then 0 else min 255 (g.noRetA + 1),
                 noRetB := if db.isSome then 0 else min 255 (g.noRetB + 1),
                 heal := if da.isSome ∧ db.isSome then min 255 (g.heal + 1) else 0 }
      match da, db with
      | some a, some b =>
        if (s.seg seg).ringOpen then s
        else
          let s := (s.modSeg seg fun g => g.measure a b).publishAll seg
          let skew := (s.seg seg).da - (s.seg seg).db
          if (s.seg seg).remeasure = 0 ∧ (16 * s.asymThr seg : Int) < skew.natAbs then s.raiseOnce (srcSeg seg) 0x50 0 [] else s
      | _, _ => s

/-- The ring opens (R416, R417, R419, R423). -/
def State.openRing (s : State) (k : Nat) : State :=
  if (s.seg k).ringOpen then s
  else
    let s := s.modSeg k fun g =>
      { g with ringOpen := true, heal := 0, remeasure := 0, remeasured := false
               nodes := g.nodes.map fun x => (x.1, { x.2 with
                 baseline := if x.2.offsets.isEmpty then none else some (meanOff x.2.offsets), daTo := x.2.da, dbTo := x.2.db }) }
    (s.liveOn (srcSeg k) 0x51).raise (srcSeg k) 0x51 0 []

/-- A channel of the segment is lost (R416). -/
def State.channelGone (s : State) (k : Nat) (chB : Bool) : Bool :=
  let g := s.seg k
  !g.linkW || !g.linkE || decide (2 ≤ (if chB then g.noRetB else g.noRetA))

/-- CHANNEL_LOST (R416). -/
def execChannelLost (t seg : Nat) (chB : Bool) (s : State) : Host.Outcome State Fault Refusal :=
  s.does t fun s => if s.segRuns seg && s.channelGone seg chB then s.openRing seg else s

/-- RING_HEALED: 16 consecutive own SY returned on both channels with both links up (R421, R422). -/
def execRingHealed (t seg : Nat) (s : State) : Host.Outcome State Fault Refusal :=
  s.does t fun s =>
    let g := s.seg seg
    if g.healDue then
      let s := s.modSeg seg fun g =>
        { g with ringOpen := false, remeasure := 16, remeasured := false, daHist := [], dbHist := [], viaFollower := false
                 nodes := g.nodes.map fun x => (x.1, { x.2 with deltas := [], baseline := none, waitsHeal := false }) }
      (s.liveOff (srcSeg seg) 0x51).raise (srcSeg seg) 0x53 0 []
    else s

/-- A new published value replaces the old one, at once or along the ramp (R422). -/
def Node.adopt (d : Node) (now thr : Nat) (a b : Int) : Node :=
  let d := d.ramp now
  let near (x y : Int) : Bool := decide ((x - y).natAbs ≤ 16 * thr)
  { d with da := if near d.da a then a else d.da, db := if near d.db b then b else d.db, daTo := a, dbTo := b, rampAt := now,
           asym := false }

/-- The nodes whose delays are adopted: those in service. -/
def State.serviceNodes (s : State) (k : Nat) : List Nat := nodeAddrs.filter fun j => (s.node k j).live

/-- DELAY_ADOPTION: at the boundary after remeasurement the new delays are adopted (R422). -/
def execDelayAdoption (t seg : Nat) (s : State) : Host.Outcome State Fault Refusal :=
  s.does t fun s =>
    let l := s.serviceNodes seg
    if decide (s.majorOffset = 0) && (s.seg seg).remeasured && l.all (fun j => decide (8 ≤ (s.node seg j).deltas.length)) then
      let s := l.foldl (fun s j =>
        match delaysOf (s.seg seg).d (s.node seg j).deltas with
        | some (a, b) => s.modNode seg j fun d => d.adopt s.now (s.asymThr seg) a b
        | none => (s.modNode seg j fun d => { d with asym := false }).raiseOnce (srcNode seg j) 0x4F 0 []) s
      s.modSeg seg fun g => { g with remeasured := false }
    else s

/-- A segment that is started has an open ring while a port link is down (R342, R416). DEDUCED (log 90): before a schedule of
its own or the leader's runs no SY can heal the ring (R421), and it closes as soon as both links are up. -/
def State.lookRing (s : State) (k : Nat) : State :=
  let g := s.seg k
  if g.ring = .stopped then s
  else if !g.linkW || !g.linkE then s.openRing k
  else if g.ringOpen && (decide (g.ring ≠ .running) && decide (g.ring ≠ .integrated)) then
    (s.modSeg k fun g => { g with ringOpen := false }).liveOff (srcSeg k) 0x51
  else s

/-! ## Cold start (R389 to R395, R425) -/

/-- A segment of the device listens, as soon as a port link is up (R389). -/
def State.beginListen (s : State) (k : Nat) : State :=
  (s.modSeg k fun g => { g with
    ring := .listening, listenFrom := if g.linkW ∨ g.linkE then some s.now else none, csUntil := none, csDone := false,
    heard := none, synced := false, loser := false }).lookRing k

/-- The rank of the cold start: that of TWIN_RANK in a pair, else 0 (R389). -/
def State.rank (s : State) : Nat := if bit (s.force 0x0F0000) 0 then s.tw.rank else 0

/-- The length of the listen in quarter ns: 250 µs + rank × 40 µs (R390). -/
def State.listenLen (s : State) : Nat := 1000000 + 160000 * s.rank

/-- The segment gives up its cold start and integrates by listening. -/
def State.integrate (s : State) (k : Nat) : State := s.modSeg k fun g => { g with ring := .integrating, heard := none }

/-- It does so as the loser of its CS phase (R392, R394). -/
def State.loseContest (s : State) (k : Nat) : State := (s.integrate k).modSeg k fun g => { g with loser := true }

/-- The cycle-length code of NET_SEGn_CFG. -/
def State.ownCode (s : State) (k : Nat) : Nat := bits (s.force (netOff k 0)) 31 30

/-- A loser whose winner works at another cycle length halts (R394). -/
def State.haltRing (s : State) (k : Nat) : State :=
  (s.modSeg k fun g => { g with ring := .halted }).raise (srcSeg k) 0x4D 0 []

/-- PORT_LINK_CHANGE: an NP port link comes up or goes down (R342, R389, R416). -/
def execPortLinkChange (t port : Nat) (up : Bool) (s : State) : Host.Outcome State Fault Refusal :=
  s.does t fun s =>
    let k := port / 2
    let s := s.modSeg k fun g => if port % 2 = 0 then { g with linkW := up } else { g with linkE := up }
    let s := s.modSeg k fun g =>
      if g.ring = .listening ∧ g.listenFrom = none ∧ (g.linkW ∨ g.linkE) then { g with listenFrom := some s.now } else g
    s.lookRing k

/-- The frame lengths of Table 09.1, header to FCS. -/
def csLen (n : Nat) : Bool := decide (n = 18)
def syLen (n : Nat) : Bool := decide (n = 42)
def ctLen (n : Nat) : Bool := decide (18 ≤ n ∧ n ≤ 522 ∧ n % 8 = 2)

/-- A frame passes Table 09.1 as a frame of a type and length; lengths count from the header to the FCS. -/
def coldOk (f : List Byte) (type : Nat) (lenOk : Nat → Bool) (senders : List Nat) : Bool :=
  fcsOk f && decide (byteAt f 0 = 16 * type + 1) && senders.contains (byteAt f 1) && lenOk f.length

/-- A copy that passes Table 09.1 completes its checks in this core clock too (R425). -/
def State.coldNow (s : State) (k : Nat) : Bool :=
  s.meets fun c => match c with
    | .csReceived _ k' b f => decide (k' = k) && s.hears k b && coldOk f 5 csLen [0, 62]
    | .syReceived _ k' b f => decide (k' = k) && s.hears k b && coldOk f 3 syLen [0]
    | .ctReceived _ k' b f => decide (k' = k) && s.hears k b && coldOk f 1 ctLen [0]
    | _ => false

/-- LISTEN_END: a silent segment enters the CS phase with a nonce of the ring oscillators, a free value (R390, R391, R425). -/
def execListenEnd (t seg : Nat) (s : State) : Host.Outcome State Fault Refusal :=
  s.does t fun s =>
    let g := s.seg seg
    match g.ring, g.listenFrom with
    | .listening, some f =>
      if s.listenLen ≤ s.now - f ∧ ¬ s.coldNow seg then
        let d := s.draw
        d.2.modSeg seg fun g => { g with ring := .csPhase, nonce := BitVec.ofInt 16 d.1, csUntil := none, csDone := false }
      else s
    | _, _ => s

/-- The contest of R392 to R394 against another controller's CS: rank, nonce and cycle-length code. -/
def State.contest (s : State) (k rank nonce code : Nat) : State :=
  let g := s.seg k
  let equal := decide (rank = s.rank)
  let s := if equal then s.raise (srcSeg k) 0x4C 0 [] else s
  if equal ∧ nonce = g.nonce.toNat then s.beginListen k
  else if rank < s.rank ∨ (equal ∧ nonce < g.nonce.toNat) then
    (if code ≠ s.ownCode k then s.haltRing k else s.loseContest k)
  else s

/-- CS_RECEIVED: a CS of another controller (R390, R392). -/
def execCsReceived (t seg : Nat) (chB : Bool) (frame : List Byte) (s : State) : Host.Outcome State Fault Refusal :=
  s.does t fun s =>
    let s := s.passOn seg chB frame
    if !s.hears seg chB || !coldOk frame 5 csLen [0, 62] then s
    else
      let p := payloadOf frame
      match (s.seg seg).ring with
      | .listening => s.integrate seg
      | .csPhase => if (s.seg seg).csDone then s else s.contest seg (byteAt p 0) (fld p 2 2) (byteAt p 4)
      | _ => s

/-- CS_PHASE_END: 250 µs after the first CS the phase ends without withdrawal (R395). -/
def execCsPhaseEnd (t seg : Nat) (s : State) : Host.Outcome State Fault Refusal :=
  s.does t fun s =>
    let g := s.seg seg
    match g.ring, g.csUntil with
    | .csPhase, some u => if u ≤ s.now then s.modSeg seg fun g => { g with csDone := true } else s
    | _, _ => s

/-- The segment's schedule begins afresh. -/
def Segment.begin (g : Segment) : Segment :=
  { g with
    ring := .running, csUntil := none, csDone := false, heard := none, listenFrom := none, synced := false, cur := {},
    prevBank := {}, train := [], owe := [], asked := none, invited := false, claim := none, retA := false,
    retB := false, noRetA := 0, noRetB := 0, heal := 0, remeasure := 0, remeasured := false, latest := 0, holdsNow := 0,
    viaFollower := false }

/-- A device with twin operation that runs its schedule after a cold start leads (15 R583). -/
def State.becomeLeader (s : State) : State :=
  if bit (s.force 0x0F0000) 0 then { s with tw := { s.tw with role := .leader } } else s

/-- SCHEDULE_START: at the first major-cycle boundary after the CS phase the schedule begins (R395). -/
def execScheduleStart (t seg : Nat) (s : State) : Host.Outcome State Fault Refusal :=
  s.does t fun s =>
    if (s.seg seg).ring = .csPhase ∧ (s.seg seg).csDone ∧ s.majorOffset = 0 then
      let s := (s.modSeg seg Segment.begin).becomeLeader
      if (s.seg seg).linkW && (s.seg seg).linkE then s else s.openRing seg
    else s

/-! ## Integration by listening (R396; 15 R583, R585) -/

/-- What an SY says: MT, N, m, and its byte 13 bits 5 to 3. -/
def syHead (f : List Byte) : Nat × Nat × Nat × Nat :=
  let p := payloadOf f
  (fld p 0 8, fld p 8 5, byteAt p 13 % 8, bits (byteAt p 13) 5 3)

/-- A second SY is consistent with a first (R396). -/
def syConsistent (a b : Nat × Nat × Nat × Nat) : Bool :=
  let l := 250 * 2 ^ (a.2.2.2 % 4)
  let per := 2000 / l
  let all := 2 ^ 40 * per
  let k := (b.2.1 * per + b.2.2.1 + all - (a.2.1 * per + a.2.2.1)) % all
  decide (1 ≤ k ∧ k ≤ 8) && decide (b.1 = (a.1 + k * l * 125 / 2) % 2 ^ 64) && decide (a.2.2.2 = b.2.2.2) && decide (b.2.2.1 < per)

/-- The delays an SY publishes are kept: a node's, or the device's own under address 62 (15 R584). -/
def State.keepDelays (s : State) (k : Nat) (f : List Byte) : State :=
  let p := payloadOf f
  let j := byteAt p 14
  let s := s.modSeg k fun g => { g with d := fld p 24 4 }
  if j = 0 then s
  else
    let a : Int := fld p 16 4
    let b : Int := fld p 20 4
    s.modNode k j fun d => { d with da := a, db := b, daTo := a, dbTo := b }

/-- The segment is integrated by listening: with twin operation the device becomes a follower (15 R583). -/
def State.integrated (s : State) (k : Nat) : State :=
  let s := s.modSeg k fun g => { g with ring := .integrated }
  if bit (s.force 0x0F0000) 0 ∧ s.tw.role = .alone then { s with tw := { s.tw with role := .follower } } else s

/-- The lowest segment integrated by listening. -/
def State.timeSeg (s : State) : Option Nat := (List.range 8).find? fun k => decide ((s.seg k).ring = .integrated)

/-- A follower's MT is held to the leader's SY (15 R585): `diff` is leader's MT minus own, in ns. At pairing MT steps
once; afterwards only the rate is corrected, within SLEW. -/
def State.followMt (s : State) (diff : Int) : State :=
  if s.tw.mtStepped then
    { s with time := s.time.setRate (clampI (roundDiv (diff * 2 ^ 32) 125000) (-s.slew) s.slew) s.raw }
  else ({ s with tw := { s.tw with mtStepped := true } }).stepMt (diff * 2 ^ 32)

/-- SY_RECEIVED: an SY of another controller, at the end of its copy (50 bytes, 400 ns after its start). A loser of the CS
phase compares the winner's cycle-length code with its own (R394). -/
def execSyReceived (t seg : Nat) (chB : Bool) (frame : List Byte) (s : State) : Host.Outcome State Fault Refusal :=
  s.does t fun s =>
    let s := s.passOn seg chB frame
    let other := decide ((syHead frame).2.2.2 ≠ s.ownCode seg)
    if !s.hears seg chB || !coldOk frame 3 syLen [0] then s
    else
      match (s.seg seg).ring with
      | .listening => s.integrate seg
      | .csPhase => if (s.seg seg).csDone then s else if other then s.haltRing seg else s.loseContest seg
      | .integrating =>
        let h := syHead frame
        if (s.seg seg).loser && other then s.haltRing seg
        else
        (match (s.seg seg).heard with
        | some a => if syConsistent a h then (s.keepDelays seg frame).integrated seg
                    else s.modSeg seg fun g => { g with heard := some h }
        | none => s.modSeg seg fun g => { g with heard := some h })
      | .integrated =>
        let s := s.keepDelays seg frame
        let seen := some ((syHead frame).1, s.mt - 400)
        let s := s.modSeg seg fun g => if chB then { g with syB := seen } else { g with syA := seen }
        let diff : Int := ((syHead frame).1 : Int) + s.ownDelay seg chB + 400 - s.mt
        if s.timeSeg = some seg ∧ s.tw.role = .follower then s.followMt diff else s
      | _ => s

/-- CT_RECEIVED: a CT of another controller (R390, R392; 15 R606, R609). -/
def execCtReceived (t seg : Nat) (chB : Bool) (frame : List Byte) (s : State) : Host.Outcome State Fault Refusal :=
  s.does t fun s =>
    let s := s.passOn seg chB frame
    if !s.hears seg chB || !coldOk frame 1 ctLen [0] then s
    else
      match (s.seg seg).ring with
      | .listening => s.integrate seg
      | .csPhase => if (s.seg seg).csDone then s else s.loseContest seg
      | .integrated =>
        if fld frame 2 2 = s.countNow seg % 2 ^ 16 ∧ bit (byteAt frame 5) 7 = chB then
          { (s.modSeg seg fun g => { g with ctSeen := true }) with tw := { s.tw with heardNow := true, silent := 0 } }
        else s
      | _ => s

end Sys2Proof.Machine
end

