-- ==== Sys2Proof/Machine/Island.lean ====
section
/-! DEFINITION. The safety island (17): the safety parameter set, input filters and test pulses, the safety cycle with
its snapshot and evaluation, LOCKOUT, outputs, contactor feedback, and safe units sent and received. Pairs, functions,
outputs and connections are held once: the two channels evaluate the same combined snapshot (R666). -/

namespace Sys2Proof.Machine

/-! ## The parameter set in force (Table 17.3) -/

/-- A field of the SPS in force, 0 without one. -/
def State.spsFld (s : State) (off n : Nat) : Nat := match s.saf.sps with | some b => fld b off n | none => 0

/-- The word of pair p. -/
def State.pairWord (s : State) (p : Nat) : Nat := s.spsFld (0x020 + 4 * p) 4
/-- Byte i of function f. -/
def State.fnByte (s : State) (f i : Nat) : Nat := s.spsFld (0x040 + 16 * f + i) 1
/-- The word of output k. -/
def State.outWord (s : State) (k : Nat) : Nat := s.spsFld (0x140 + 4 * k) 4
/-- A field of connection c. -/
def State.connFld (s : State) (c off n : Nat) : Nat := s.spsFld (0x160 + 16 * c + off) n

/-- Pair p, function f, output k, connection c is used. -/
def State.pairUsed (s : State) (p : Nat) : Bool := bit (s.pairWord p) 31
def State.fnUsed (s : State) (f : Nat) : Bool := bit (s.fnByte f 0) 7
def State.outUsed (s : State) (k : Nat) : Bool := bit (s.outWord k) 31
def State.connUsed (s : State) (c : Nat) : Bool := bit (s.connFld c 0 1) 7
/-- A pair is SINGLE; ANTIVALENT. -/
def State.pairSingle (s : State) (p : Nat) : Bool := decide (bits (s.pairWord p) 30 29 = 2)
def State.pairAnti (s : State) (p : Nat) : Bool := decide (bits (s.pairWord p) 30 29 = 1)

/-- The acknowledge input, when the SPS names one. -/
def State.ackInput (s : State) : Option Nat :=
  let b := s.spsFld 0x014 1
  if bit b 7 then some (b % 16) else none

/-- The test-pulse source of input i, when it is tested. -/
def State.testSource (s : State) (i : Nat) : Option Nat :=
  let w := s.pairWord (i / 2)
  if i % 2 = 0 then (if bit w 21 then some (bits w 20 19) else none)
  else if bit w 18 then some (bits w 17 16) else none

/-- The samples of a filter, N of R675. -/
def State.filtLen (s : State) (i : Nat) : Nat :=
  let f := bits (s.pairWord (i / 2)) 27 22
  if f = 0 then 60 else 10 * f

/-- P in ms and W in ns of the test pulses. -/
def State.testP (s : State) : Nat := s.spsFld 0x010 2
def State.testW (s : State) : Nat := 1000 * s.spsFld 0x012 2

/-! ## Channels -/

/-- A channel. -/
def State.ch (s : State) (chB : Bool) : SafCh := if chB then s.saf.b else s.saf.a

/-- Change the island. -/
def State.modSaf (s : State) (f : Safety → Safety) : State := { s with saf := f s.saf }

/-- Change a channel. -/
def State.modCh (s : State) (chB : Bool) (f : SafCh → SafCh) : State :=
  s.modSaf fun g => if chB then { g with b := f g.b } else { g with a := f g.a }

/-- A channel as a source of marks. -/
def srcSaf (chB : Bool) : Nat := srcCode 5 (0x050 + b2n chB)

/-- A channel raises a mark with detail bytes 20 and 21. -/
def State.safMark (s : State) (chB : Bool) (kind b20 b21 : Nat) : State :=
  s.raise (srcSaf chB) kind 0 [BitVec.ofNat 8 b20, BitVec.ofNat 8 b21]

/-- Every channel in RUN raises a mark that both detect. -/
def State.safBoth (s : State) (kind b20 : Nat) : State :=
  let s := if s.saf.a.st = .run then s.safMark false kind b20 0 else s
  if s.saf.b.st = .run then s.safMark true kind b20 0 else s

/-- The code of a channel state (Table 17.9). -/
def ChSt.code : ChSt → Nat
  | .off => 0 | .run => 1 | .lockout => 2

/-- A channel changes state, with its SAF_STATE mark. -/
def State.setCh (s : State) (chB : Bool) (st : ChSt) : State :=
  if (s.ch chB).st = st then s else (s.modCh chB fun c => { c with st := st }).safMark chB 0xC0 0 st.code

/-- Both channels are in RUN. -/
def State.safRun (s : State) : Bool := decide (s.saf.a.st = .run) && decide (s.saf.b.st = .run)

/-- Change output k; pair p; function f; connection c. -/
def State.modOut (s : State) (k : Nat) (f : SafOut → SafOut) : State :=
  s.modSaf fun g => { g with outs := SMap.put {} g.outs k (f (SMap.get {} g.outs k)) }
def State.modPair (s : State) (p : Nat) (f : SafPair → SafPair) : State :=
  s.modSaf fun g => { g with pairs := SMap.put {} g.pairs p (f (SMap.get {} g.pairs p)) }
def State.modFn (s : State) (i : Nat) (f : SafFn → SafFn) : State :=
  s.modSaf fun g => { g with fns := SMap.put {} g.fns i (f (SMap.get {} g.fns i)) }
def State.modConn (s : State) (c : Nat) (f : SafConn → SafConn) : State :=
  s.modSaf fun g => { g with conns := SMap.put {} g.conns c (f (SMap.get {} g.conns c)) }
/-- Output k; pair p; function f; connection c. -/
def State.safOut (s : State) (k : Nat) : SafOut := SMap.get {} s.saf.outs k
def State.safPair (s : State) (p : Nat) : SafPair := SMap.get {} s.saf.pairs p
def State.safFn (s : State) (f : Nat) : SafFn := SMap.get {} s.saf.fns f
def State.safConn (s : State) (c : Nat) : SafConn := SMap.get {} s.saf.conns c

/-- Switch output k: both switches move together. -/
def State.switchOut (s : State) (k : Nat) (on : Bool) : State :=
  if (s.safOut k).on = on then s
  else
    let s := s.modOut k fun o => { o with on := on, changedAt := s.raw, testing := false }
    (s.emit (.safety false k on)).emit (.safety true k on)

/-- Every output off. -/
def State.outsOff (s : State) : State :=
  (List.range 8).foldl (fun s k => (s.switchOut k false).modOut k fun o => { o with want := false }) s

/-- An output becomes LOCKED: it goes off at once. -/
def State.lockOut (s : State) (k : Nat) : State := (s.modOut k fun o => { o with locked := true, want := false }).switchOut k false

/-- A channel enters LOCKOUT (R669, R670, R717): its switches open and its sources go off. -/
def State.lockout (s : State) (chB : Bool) (cause : Nat) : State :=
  if (s.ch chB).st = .lockout then s
  else
    let s := (s.setCh chB .lockout).modSaf fun g => { g with cause := cause }
    s.outsOff.safMark chB 0xC1 cause 0

/-- A channel in RUN enters LOCKOUT. -/
def State.lockoutRun (s : State) (chB : Bool) (cause : Nat) : State :=
  if (s.ch chB).st = .run then s.lockout chB cause else s

/-- The supply of the channels is gone, or returns: both start from OFF (R673, R699). -/
def State.safReset (s : State) : State :=
  let s := s.outsOff
  s.modSaf fun g => { a := { linkDown := g.a.linkDown }, b := { linkDown := g.b.linkDown }, cause := g.cause }

/-! ## Input filters and test pulses (R674 to R677) -/

/-- The time since the last pulse of a source began, ns of raw time; none before the first. -/
def SafCh.sincePulse (c : SafCh) (tp raw : Nat) : Option Nat :=
  match SMap.get (0, false) c.pulses tp with
  | (0, _) => none
  | (n + 1, _) => some (raw - n)

/-- A filter takes a level: the state changes with the n-th level in a row that differs from it (R674). -/
def InFilt.advance (f : InFilt) (n : Nat) (lv : Bool) (core : Nat) : InFilt :=
  if lv = f.level then { f with count := 0 }
  else if n ≤ f.count + 1 then { f with level := lv, count := 0, movedAt := some core }
  else { f with count := f.count + 1 }

/-- The filtered state as a snapshot of this core clock takes it: a change in the same clock belongs to the next (R715). -/
def InFilt.seen (f : InFilt) (core : Nat) : Bool := if f.movedAt = some core then !f.level else f.level

/-- One sample of one input by one channel. -/
def State.sampleInput (s : State) (c : SafCh) (i : Nat) (lv : Bool) : InFilt :=
  let f := SMap.get {} c.inputs i
  let n := s.filtLen i
  let since := match s.testSource i with | some tp => c.sincePulse tp s.raw | none => none
  match since with
  | some d =>
    if d ≤ s.testW + 100000 then
      (if 150000 ≤ d ∧ d ≤ s.testW ∧ ¬ lv then { f with lowSeen := true } else f)
    else f.advance n lv s.core
  | none => f.advance n lv s.core

/-- SAFETY_INPUT_SAMPLE: a channel samples every SI (R674 to R677); bit i of `levels` is the level of SIi. -/
def execSafetyInputSample (t : Nat) (chB : Bool) (levels : Nat) (s : State) : Host.Outcome State Fault Refusal :=
  s.does t fun s =>
    let c := s.ch chB
    if !c.powered then s
    else
      s.modCh chB fun _ =>
        { c with inputs := (List.range 16).foldl (fun m i => SMap.put {} m i (s.sampleInput c i (bit levels i))) c.inputs }

/-- TEST_PULSE_END: W after the start of a pulse, a tested input that never read low fails its test (R677). -/
def execTestPulseEnd (t : Nat) (chB : Bool) (tp : Nat) (s : State) : Host.Outcome State Fault Refusal :=
  s.does t fun s =>
    let c := s.ch chB
    if (SMap.get (0, false) c.pulses tp).2 = false ∨ ¬ (c.sincePulse tp s.raw).any (fun d => decide (s.testW ≤ d)) then s
    else
      let l := (List.range 16).filter fun i => decide (s.testSource i = some tp) && s.pairUsed (i / 2)
      let bad := l.filter fun i => !(SMap.get {} c.inputs i).lowSeen
      let s := s.modCh chB fun c =>
        { c with pulses := SMap.put (0, false) c.pulses tp ((SMap.get (0, false) c.pulses tp).1, false),
                 inputs := l.foldl (fun m i =>
                   let f := SMap.get {} m i
                   SMap.put {} m i { f with testBad := !f.lowSeen, lowSeen := false }) c.inputs }
      bad.foldl (fun s i => (s.modPair (i / 2) fun p => { p with st := .fault }).safMark chB 0xC2 i 0) s

/-! ## Safe units (R700 to R707, R709) -/

/-- The check value of a unit on a channel: CID, then bytes 0 to 27. -/
def unitCheck (chB : Bool) (cid : Nat) (body : List Byte) : Nat :=
  if chB then crc32 (leBytes 4 cid ++ body) else crc32c (leBytes 4 cid ++ body)

/-- The body of a unit on a channel: SB complements the safe bits. -/
def unitBody (chB : Bool) (b : List Byte) : List Byte :=
  if chB then b.take 12 ++ ((b.drop 12).take 2).map (fun x => ~~~ x) ++ b.drop 14 else b

/-- A unit to a node, before the channel's own form. -/
def unitTo (c seq : Nat) (isOpen fault : Bool) (mt safeBits : Nat) : List Byte :=
  [BitVec.ofNat 8 c, BitVec.ofNat 8 (128 * b2n isOpen + 64 * b2n fault)] ++ leBytes 2 seq ++ leBytes 8 mt ++
    leBytes 2 safeBits ++ zeros 14

/-- The safe bits to a node: the functions in RUN or DELAY. -/
def State.fnBits (s : State) : Nat :=
  (List.range 16).foldl (fun acc f => acc + (if (s.safFn f).st = .demand then 0 else 2 ^ f)) 0

/-- The island sends a connection's unit on a channel (R709). -/
def State.sendsUnit (s : State) (k : Nat) (chB : Bool) : Bool :=
  if s.following then (s.twSeg k).covered && decide (chB = s.coverB)
  else !(s.seg k).viaFollower || decide (chB = s.coverB)

/-- One channel's copy of a connection's unit as released at a tick, empty while it sends none. -/
def State.copyOf (s : State) (chB : Bool) (c : Nat) : List Byte :=
  let k := bits (s.connFld c 0 1) 2 0
  let x := s.ch chB
  if x.st = .off ∨ ¬ s.sendsUnit k chB then []
  else
    let lock := decide (x.st = .lockout)
    let alone := s.following || (s.seg k).viaFollower
    let b := unitBody chB (unitTo c (s.safConn c).txSeq (alone || bit s.saf.openPrev k) lock s.saf.prevMt
      (if lock then 0 else s.fnBits))
    b ++ leBytes 4 (unitCheck chB (s.connFld c 4 4) b)

/-- The units of a tick are released: SEQ advances for every connection that the island sends. -/
def State.releaseUnits (s : State) : State :=
  ((List.range 32).filter s.connUsed).foldl (fun s c =>
    let k := bits (s.connFld c 0 1) 2 0
    let sends := s.sendsUnit k false || s.sendsUnit k true
    let s := if sends then s.modConn c fun x => { x with txSeq := (x.txSeq + 1) % 2 ^ 16 } else s
    s.modConn c fun x => { x with unitA := s.copyOf false c, unitB := s.copyOf true c }) s

/-- The entry of a connection carries SF frames of the controller (R702). -/
def State.connEntryOk (s : State) (c : Nat) : Bool :=
  let w := s.sched (bits (s.connFld c 0 1) 2 0) (s.connFld c 2 1)
  decide (schType w = 4 ∧ schSender w = 0)

/-- WD of a connection in ns. -/
def State.connWd (s : State) (c : Nat) : Nat := 1000000 * s.connFld c 8 2

/-- Single copies of a connection are refused: none allowed, or the time of the run is over (R707). -/
def State.singleRefused (s : State) (c : Nat) : Bool :=
  let n := s.connFld c 10 2
  decide (n = 0) || (s.safConn c).singleOver ||
    (match (s.safConn c).singleFrom with | some f => decide (f + n * 100000000 ≤ s.raw) | none => false)

/-- The checks of R703 on a copy of bytes 0 to 27 with its check value, but for the age of its SEQ. -/
def State.unitOk (s : State) (c : Nat) (chB : Bool) (p : List Byte) : Bool :=
  decide (fld p 28 4 = unitCheck chB (s.connFld c 4 4) (p.take 28)) && decide (byteAt p 0 = c) && bit (byteAt p 1) 5 &&
    decide (s.mt ≤ fld p 4 8 + s.connWd c)

/-- A copy that fails R703 is counted, and marked at most once per major cycle per connection. -/
def State.connBad (s : State) (c : Nat) (chB : Bool) : State :=
  let s := s.modConn c fun x => { x with bad := (x.bad + 1) % 256 }
  let key := (srcSaf chB, 0xC9 + 256 * (c + 1))
  if s.asy.once.contains key then s
  else
    let s := s.safMark chB 0xC9 c 0
    { s with asy := { s.asy with once := key :: s.asy.once } }

/-- A unit is accepted: it counts from the next snapshot (R705). -/
def State.acceptUnit (s : State) (c : Nat) (b : List Byte) (single : Bool) : State :=
  s.modConn c fun x => { x with rxSeq := some (fld b 2 2), rxMt := fld b 4 8, accepted := some (b, single), gotA := [], gotB := [] }

/-- A channel has its copy of a node's unit. -/
def State.takeUnit (s : State) (c : Nat) (chB : Bool) (p : List Byte) : State :=
  let x := s.safConn c
  let seq := fld p 2 2
  let ahead := match x.rxSeq with | some r => (seq + 2 ^ 16 - r) % 2 ^ 16 | none => 1
  if !s.unitOk c chB p then s.connBad c chB
  else if ahead = 0 then s
  else if 255 < ahead then s.connBad c chB
  else
    let b := unitBody chB (p.take 28)
    let s := s.modConn c fun x => if chB then { x with gotB := b } else { x with gotA := b }
    let x := s.safConn c
    if x.gotA ≠ [] ∧ x.gotA = x.gotB then s.acceptUnit c b false else s

/-- The connection that a segment's node uses; the one whose entry of the controller is e. -/
def State.connOf (s : State) (k j : Nat) : Option Nat :=
  (List.range 32).find? fun c => s.connUsed c && decide (bits (s.connFld c 0 1) 2 0 = k) && decide (s.connFld c 1 1 = j)
def State.connAt (s : State) (k e : Nat) : Option Nat :=
  (List.range 32).find? fun c => s.connUsed c && decide (bits (s.connFld c 0 1) 2 0 = k) && decide (s.connFld c 2 1 = e)

/-- SF_RECEIVED: a safe-frame copy passes R347 and goes to its channel (R354, R703); at a follower the SEQ of a
leader's unit is recorded (R709). -/
def execSfReceived (t seg : Nat) (chB : Bool) (start : Nat) (frame : List Byte) (s : State) :
    Host.Outcome State Fault Refusal :=
  s.does t fun s =>
    let s := s.passOn seg chB frame
    if !s.segRuns seg || !s.hears seg chB then s
    else
      match s.entryAt seg chB start fun w => decide (schType w = 4) with
      | none => s
      | some (c, e) =>
        let j := schSender (s.sched seg e)
        let d := s.node seg j
        let p := payloadOf frame
        if s.copyOk seg c e chB start frame && decide (byteAt frame 1 = j) && decide (frame.length = 42) &&
            !(if chB then d.badB else d.badA) then
          let s := if chB then s.modNode seg j fun d => { d with onB := true } else s.modNode seg j fun d => { d with onA := true }
          if (s.ch chB).st = .off ∨ (s.ch chB).linkDown = true then s
          else if j = 0 then
            (match s.connAt seg e with
             | some c => if s.following ∧ fld p 28 4 = unitCheck chB (s.connFld c 4 4) (p.take 28) then
                 s.modConn c fun x => { x with txSeq := fld p 2 2 } else s
             | none => s)
          else
            match s.connOf seg j with
            | some c => s.takeUnit c chB p
            | none => s
        else s.badCopy seg j chB

/-! ## The snapshot (R665, R668, R682, R706, R707) -/

/-- Single copies waiting at the snapshot are accepted where R707 allows. -/
def State.acceptSingle (s : State) (c : Nat) : State :=
  let x := s.safConn c
  let b := if x.gotA = [] then x.gotB else x.gotA
  if (x.gotA = [] ∨ x.gotB = []) ∧ b ≠ [] ∧ bit (byteAt b 1) 7 = true ∧ x.accepted = none ∧ ¬ s.singleRefused c then
    s.acceptUnit c b true
  else s

/-- A connection at a snapshot: an accepted unit comes to count, or the connection is LOST. -/
def State.connSnapshot (s : State) (c : Nat) : State :=
  let s := s.acceptSingle c
  let x := s.safConn c
  let begins : Bool := match x.accepted with | some (_, true) => decide (x.st ≠ .single) | _ => false
  let s := match x.accepted with
    | some (b, single) => s.modConn c fun x =>
        { x with accepted := none, bits := fld b 12 2, st := if single then .single else .ok,
                 singleFrom := if single then (match x.singleFrom with | some f => some f | none => some s.raw) else none,
                 singleOver := single && x.singleOver }
    | none => s
  let s := if begins then s.safBoth 0xCA c else s
  let x := s.safConn c
  if x.st ≠ .lost ∧ (¬ s.connEntryOk c ∨ x.rxMt + s.connWd c < s.mt) then
    (s.modConn c fun x => { x with st := .lost, bits := 0 }).safBoth 0xC8 c
  else s

/-- The levels of a channel's filtered inputs at a tick of a core clock, bit i for SIi. -/
def SafCh.levels (c : SafCh) (core : Nat) : Nat :=
  (List.range 16).foldl (fun acc i => acc + (if (SMap.get {} c.inputs i).seen core then 2 ^ i else 0)) 0

/-- A channel takes its snapshot. -/
def SafCh.snapshot (c : SafCh) (core fb low high : Nat) : SafCh :=
  { c with prevSnap := c.snap, prevFb := c.snapFb, snap := c.levels core, snapFb := fb, snapLow := low, snapHigh := high,
           gotSnap := false, gotRes := false }

/-- An input is high in both channels' snapshots. -/
def State.bothHigh (s : State) (i : Nat) : Bool := bit s.saf.a.snap i && bit s.saf.b.snap i
/-- A contact is closed, a readback is below 5 V, or above VSAFE - 3 V, in both. -/
def State.bothFb (s : State) (k : Nat) : Bool := bit s.saf.a.snapFb k && bit s.saf.b.snapFb k
def State.bothLow (s : State) (k : Nat) : Bool := bit s.saf.a.snapLow k && bit s.saf.b.snapLow k
def State.bothTop (s : State) (k : Nat) : Bool := bit s.saf.a.snapHigh k && bit s.saf.b.snapHigh k

/-- The acknowledge seen at this snapshot (R682), or one that a SAFETY_CONFIRM gives (R671). -/
def State.seeAck (s : State) : State :=
  match s.ackInput with
  | none => s.modSaf fun g => { g with ack := g.ackOwed, ackOwed := false, ackSince := none }
  | some i =>
    if s.bothHigh i then
      s.modSaf fun g => { g with ack := g.ackOwed, ackOwed := false,
                                 ackSince := match g.ackSince with | some f => some f | none => some s.raw }
    else
      let hit := match s.saf.ackSince with
        | some f => decide (100000000 ≤ s.raw - f ∧ s.raw - f ≤ 2000000000)
        | none => false
      s.modSaf fun g => { g with ack := hit || g.ackOwed, ackOwed := false, ackSince := none }

/-! ## Entry to RUN and leaving LOCKOUT (R671, R672) -/

/-- Every function starts in DEMAND, and every start-up test is pending. -/
def State.startFns (s : State) : State :=
  let s := (List.range 16).foldl (fun s f => s.modFn f fun _ => {}) s
  (List.range 8).foldl (fun s p => s.modPair p fun x =>
    { x with startup := s.pairUsed p && bit (s.pairWord p) 28, startSeen := false }) s

/-- No cause of LOCKOUT persists in a channel (R670). -/
def SafCh.clean (c : SafCh) : Bool := c.powered && !c.selftest && !c.linkDown && c.tickOk

/-- Both channels leave LOCKOUT. -/
def State.leaveLockout (s : State) : State :=
  if (s.saf.a.st = .lockout ∨ s.saf.b.st = .lockout) ∧ s.saf.a.st ≠ .run ∧ s.saf.b.st ≠ .run ∧ s.saf.ack ∧ s.saf.a.clean ∧
      s.saf.b.clean then
    let st := if s.saf.sps.isSome then ChSt.run else ChSt.off
    ((s.setCh false st).setCh true st).startFns
  else s

/-- A channel enters RUN from OFF at the second valid tick after a confirmed SPS is in force. -/
def State.enterRun (s : State) (chB : Bool) : State :=
  let c := s.ch chB
  if c.st = .off ∧ s.saf.sps.isSome ∧ 2 ≤ c.ticks then
    (if c.selftest then s.lockout chB 4 else (s.setCh chB .run).startFns)
  else s

/-! ## The tick (R663, R665, R676, R688) -/

/-- The raw time 500 µs after the last tick. -/
def State.tickNominal (s : State) : Nat := s.saf.sentRaw + 500000

/-- The way from that time to the nearest multiple of 500 000 ns of MT. -/
def State.tickOff (s : State) : Int :=
  let r := mtAt s.time.ofs s.time.rate s.time.r0 s.tickNominal % 500000
  if r ≤ 250000 then -(r : Int) else 500000 - r

/-- The raw time of the next tick while the ticks stand off the grid: 500 µs after the last, and from the second on drawn at most
10 µs toward the grid (R664). -/
def State.tickDueRaw (s : State) : Nat :=
  if s.saf.offGrid = 1 then s.tickNominal else (s.tickNominal + clampI s.tickOff (-10000) 10000).toNat

/-- The spine sends a tick in this core clock: MT reaches a multiple of 500 000 ns, or the time of R664 has come (R663, R664). -/
def State.tickDue (s : State) : Bool :=
  decide (s.saf.sentCore ≠ s.core + 1) &&
    (if s.saf.offGrid = 0 then decide (s.mtQuarter % 2000000 / 5 = 0)
     else decide ((s.time.lockAt + 4 * s.tickDueRaw) / 5 = s.core))

/-- A tick has been sent; one that falls on the grid ends the way back to it. -/
def State.tickSent (s : State) : State :=
  let on := decide (s.saf.offGrid = 0) || decide (s.tickOff.natAbs ≤ (if s.saf.offGrid = 1 then 0 else 10000))
  s.modSaf fun g => { g with sentRaw := s.raw, sentCore := s.core + 1, offGrid := if on then 0 else 2 }

/-- A channel receives ticks. -/
def SafCh.hears (c : SafCh) : Bool := c.powered && !c.linkDown

/-- The tick's interval is inside its window; the first tick a channel hears has none and counts (log 24). -/
def SafCh.tickFits (c : SafCh) (raw : Nat) : Bool :=
  match c.lastTick with
  | none => true
  | some r => decide (450000 ≤ raw - r ∧ raw - r ≤ 550000)

/-- A channel measures a tick. -/
def State.hearTick (s : State) (chB : Bool) : State :=
  let c := s.ch chB
  if !c.hears then s
  else
    let ok := c.tickFits s.raw
    let s := s.modCh chB fun c =>
      { c with lastTick := some s.raw, tickOk := ok, discards := if ok then 0 else c.discards + 1,
               ticks := if ok ∧ s.saf.sps.isSome then min 2 (c.ticks + 1) else c.ticks }
    if 2 ≤ (s.ch chB).discards then s.lockoutRun chB 3 else s

/-- Safety cycle number of a tick: its MT in units of 500 µs, to the nearest. -/
def safCycle (mt : Nat) : Nat := (mt + 250000) / 500000

/-- The results of the cycle that ends are applied to output k, and its test pulse begins when it is due. A channel that
discards the tick holds its switch: an output that is off stays off (R663). -/
def State.applyOut (s : State) (both : Bool) (n k : Nat) : State :=
  let o := s.safOut k
  let s := s.switchOut k (o.want && !o.locked && s.safRun && (o.on || both))
  if (s.safOut k).on ∧ n % 500 = 62 * k then
    let useB := s.saf.switchB.contains k
    ((s.modOut k fun o => { o with testing := true }).modSaf fun g =>
      { g with switchB := if useB then g.switchB.filter fun x => decide (x ≠ k) else g.switchB ++ [k] }).emit (.outPulse useB k)
  else s.modOut k fun o => { o with testing := false }

/-- A test-pulse source pulses in cycle n. -/
def State.pulseDue (s : State) (n tp : Nat) : Bool :=
  decide (0 < s.testP) && decide (n % (2 * s.testP) = tp * s.testP / 2)

/-- A test-pulse source switches off: both channels know the time (R676, R677). -/
def State.startPulse (s : State) (tp : Nat) : State :=
  if (s.ch (decide (2 ≤ tp))).st = .run then
    let s := [false, true].foldl (fun s b => s.modCh b fun c =>
      { c with pulses := SMap.put (0, false) c.pulses tp (s.raw + 1, true),
               inputs := (List.range 16).foldl (fun m i =>
                 if s.testSource i = some tp then SMap.put {} m i { SMap.get {} m i with lowSeen := false } else m) c.inputs }) s
    s.emit (.pulse tp)
  else s

/-- SAFETY_TICK: the spine sends a tick; operands are what each channel reads: contacts closed, readbacks below 5 V and
above VSAFE - 3 V. -/
def execSafetyTick (t fbA fbB lowA lowB highA highB : Nat) (s : State) : Host.Outcome State Fault Refusal :=
  s.does t fun s =>
    if !s.up || !s.tickDue then s
    else
      let s := ((s.tickSent.emit (.tick s.mt)).hearTick false).hearTick true
      let okA := s.saf.a.hears && s.saf.a.tickOk
      let okB := s.saf.b.hears && s.saf.b.tickOk
      if !okA ∧ !okB then s
      else
        let n := safCycle s.mt
        let s := (List.range 8).foldl (fun s k => s.applyOut (okA && okB) n k) s
        let s := ((List.range 4).filter (s.pulseDue n)).foldl (fun s tp => s.startPulse tp) s
        let opens := (List.range 8).foldl (fun acc k => acc + (if (s.seg k).ringOpen then 2 ^ k else 0)) 0
        let s := s.modSaf fun g =>
          { g with prevMt := g.tickMt, tickMt := s.mt, tickRaw := s.raw, openPrev := g.openNow, openNow := opens,
                   cycles := (g.cycles + 1) % 2 ^ 16, evaluated := false, marks := [] }
        let s := s.releaseUnits
        let s := if okA then s.modCh false fun c => c.snapshot s.core fbA lowA highA else s
        let s := if okB then s.modCh true fun c => c.snapshot s.core fbB lowB highB else s
        let s := ((List.range 32).filter s.connUsed).foldl State.connSnapshot s
        let s := s.seeAck.leaveLockout
        let s := if okA then s.enterRun false else s
        if okB then s.enterRun true else s

/-- TICK_TIMEOUT: 600 µs without a tick, or two discarded ticks (R663). -/
def execTickTimeout (t : Nat) (chB : Bool) (s : State) : Host.Outcome State Fault Refusal :=
  s.does t fun s =>
    let c := s.ch chB
    let late : Bool := match c.lastTick with | some r => decide (r + 600000 ≤ s.raw) | none => true
    if late ∨ 2 ≤ c.discards then (s.modCh chB fun c => { c with tickOk := false }).lockoutRun chB 3 else s

/-! ## The evaluation (R666, R668, R678 to R681, R684 to R693) -/

/-- A mark of the evaluation: source, 0 for the channel's own; kind; byte 20. -/
def State.evalMark (s : State) (src kind b20 : Nat) : State := s.modSaf fun g => { g with marks := g.marks ++ [(src, kind, b20)] }

/-- The channels' own values of an input or contact differ now and did so at the snapshot before. -/
def State.differs (s : State) (x : Nat) : Bool :=
  if x < 16 then
    decide (bit s.saf.a.snap x ≠ bit s.saf.b.snap x) && decide (bit s.saf.a.prevSnap x ≠ bit s.saf.b.prevSnap x)
  else decide (bit s.saf.a.snapFb (x - 16) ≠ bit s.saf.b.snapFb (x - 16)) &&
    decide (bit s.saf.a.prevFb (x - 16) ≠ bit s.saf.b.prevFb (x - 16))

/-- R668 for one input or contact. -/
def State.judgeDiffer (s : State) (x : Nat) : State :=
  if s.differs x then
    let s := if s.saf.disagree.contains x then s
      else (s.modSaf fun g => { g with disagree := g.disagree ++ [x] }).evalMark 0 0xC4 (x % 16)
    if x < 16 then s.modPair (x / 2) fun p => { p with st := .fault } else s.lockOut (x - 16)
  else s.modSaf fun g => { g with disagree := g.disagree.filter fun y => decide (y ≠ x) }

/-- An input shows its run level in both channels, or its demand. -/
def State.showsRun (s : State) (i : Nat) : Bool :=
  if i % 2 = 1 ∧ s.pairAnti (i / 2) then !bit s.saf.a.snap i && !bit s.saf.b.snap i else s.bothHigh i

/-- The latest pulse test of a tested input failed in a channel. -/
def State.testFailed (s : State) (i : Nat) : Bool :=
  (s.testSource i).isSome && ((SMap.get {} s.saf.a.inputs i).testBad || (SMap.get {} s.saf.b.inputs i).testBad)

/-- T_DISC of a pair in ns. -/
def State.tDisc (s : State) (p : Nat) : Nat := 1000000 * (s.pairWord p % 2 ^ 16)

/-- A pair goes to FAULT for its discrepancy (R679). -/
def State.pairFault (s : State) (p : Nat) : State := s.modPair p fun x => { x with st := .fault }

/-- One pair. -/
def State.evalPair (s : State) (p : Nat) : State :=
  let single := s.pairSingle p
  let ra := s.showsRun (2 * p)
  let rb := single || s.showsRun (2 * p + 1)
  let x := s.safPair p
  let since := if single ∨ ra = rb then none else (match x.discSince with | some f => some f | none => some s.saf.tickRaw)
  let past : Bool := match since with | some f => decide (s.tDisc p < s.saf.tickRaw - f) | none => false
  let s := s.modPair p fun x => { x with discSince := since }
  let s := if past ∧ x.st ≠ .fault then (s.pairFault p).evalMark 0 0xC3 p else s
  let bad := s.testFailed (2 * p) || (!single && s.testFailed (2 * p + 1))
  let rest := !ra && (single || !rb) && !bad
  s.modPair p fun x =>
    let st := if x.st = .fault ∧ ¬ rest then PairSt.fault else if ra && rb then PairSt.run else PairSt.demand
    if x.startup then
      { x with st := st, startSeen := x.startSeen || decide (st = .demand),
               startup := !(x.startSeen && decide (st = .run)) }
    else { x with st := st }

/-- A pair counts as RUN. -/
def State.pairRuns (s : State) (p : Nat) : Bool := decide ((s.safPair p).st = .run) && !(s.safPair p).startup

/-- The sources of a function are RUN (R684). -/
def State.srcRun (s : State) (f : Nat) : Bool :=
  ((List.range 8).all fun p => !bit (s.fnByte f 1) p || s.pairRuns p) &&
    ((List.range 32).all fun c => !bit (s.spsFld (0x040 + 16 * f + 4) 4) c ||
      (decide ((s.safConn c).st ≠ .lost) && bit (s.safConn c).bits f))

/-- T1 of a function in safety cycles. -/
def State.t1Cycles (s : State) (f : Nat) : Nat := 2 * s.spsFld (0x040 + 16 * f + 8) 4

/-- A function enters DEMAND. -/
def State.fnDemand (s : State) (f : Nat) : State := (s.modFn f fun x => { x with st := .demand, left := 0 }).evalMark 0 0xCB 0

/-- A function enters DELAY: one SAF_STOP1 for each segment of its mask (R686). -/
def State.fnDelay (s : State) (f : Nat) : State :=
  let s := s.modFn f fun x => { x with st := .delay, left := s.t1Cycles f }
  let s := ((List.range 8).filter fun k => bit (s.fnByte f 3) k).foldl (fun s k => s.evalMark (srcSeg k) 0xCC 0) s
  if s.t1Cycles f = 0 then s.fnDemand f else s

/-- One function (R685, R716). -/
def State.evalFn (s : State) (f : Nat) : State :=
  let run := s.srcRun f
  let x := s.safFn f
  let s := s.modFn f fun x => { x with srcPrev := run, expired := false }
  match x.st with
  | .demand =>
    if run ∧ x.expired = false ∧ (bit (s.fnByte f 0) 5 = false ∨ (s.saf.ack ∧ x.srcPrev)) then s.modFn f fun x => { x with st := .run } else s
  | .run => if run then s else if bit (s.fnByte f 0) 6 then s.fnDelay f else s.fnDemand f
  | .delay => if x.left ≤ 1 then s.fnDemand f else s.modFn f fun x => { x with left := x.left - 1 }

/-- An output becomes LOCKED in the evaluation, with its mark. -/
def State.evalLock (s : State) (k kind : Nat) : State := (s.lockOut k).evalMark 0 kind k

/-- A span of ms, rounded up to safety cycles, has passed since output k switched, in ns of raw time. -/
def State.outPast (s : State) (k ms : Nat) : Bool := decide ((s.safOut k).changedAt + ms * 1000000 < s.saf.tickRaw)

/-- The readback of output k at the snapshot (R689). -/
def State.readbackBad (s : State) (k : Nat) : Bool :=
  let o := s.safOut k
  if o.on then !o.testing && s.outPast k 2 && !s.bothTop k else s.outPast k 20 && !s.bothLow k

/-- The feedback contact of output k at the snapshot (R693). -/
def State.feedbackBad (s : State) (k : Nat) : Bool :=
  let w := s.outWord k
  bit w 30 && (if (s.safOut k).on then s.outPast k (bits w 29 20) && s.bothFb k else s.outPast k (bits w 19 10) && !s.bothFb k)

/-- One output (R687 to R693). -/
def State.evalOut (s : State) (k : Nat) : State :=
  let mon := bit (s.outWord k) 30
  let s := if !(s.safOut k).locked && s.readbackBad k then s.evalLock k 0xC5 else s
  let s := if !(s.safOut k).locked && s.feedbackBad k then s.evalLock k 0xC7 else s
  let s := if (s.safOut k).locked && s.saf.ack && s.bothLow k && (!mon || s.bothFb k) && !s.saf.disagree.contains (16 + k) then
      s.modOut k fun o => { o with locked := false, ovl := false } else s
  let fns := (List.range 16).filter fun f => s.fnUsed f && bit (s.fnByte f 2) k
  let want := !fns.isEmpty && (fns.all fun f => decide ((s.safFn f).st ≠ .demand)) && !(s.safOut k).locked
  if want && !(s.safOut k).on && mon && !s.bothFb k then s.evalLock k 0xC7
  else s.modOut k fun o => { o with want := want }

/-- The evaluation of a cycle from the combined snapshot. -/
def State.evaluate (s : State) : State :=
  let s := s.modSaf fun g => { g with evaluated := true, marks := [] }
  let s := (List.range 24).foldl State.judgeDiffer s
  let s := ((List.range 8).filter s.pairUsed).foldl State.evalPair s
  let s := ((List.range 16).filter s.fnUsed).foldl State.evalFn s
  ((List.range 8).filter s.outUsed).foldl State.evalOut s

/-- A channel raises the marks of the evaluation under its own source, SAF_STOP1 under the segment's. -/
def State.raiseEval (s : State) (chB : Bool) : State :=
  s.saf.marks.foldl (fun s m => if m.1 = 0 then s.safMark chB m.2.1 m.2.2 0 else s.raise m.1 m.2.1 0 [BitVec.ofNat 8 m.2.2]) s

/-- PEER_SNAPSHOT: a channel in RUN receives the other's snapshot and evaluates. -/
def execPeerSnapshot (t : Nat) (chB : Bool) (s : State) : Host.Outcome State Fault Refusal :=
  s.does t fun s =>
    if (s.ch chB).st ≠ .run ∨ (s.ch (!chB)).st = .off ∨ (s.ch chB).gotSnap = true then s
    else
      let s := s.modCh chB fun c => { c with gotSnap := true }
      (if s.saf.evaluated then s else s.evaluate).raiseEval chB

/-- RESULT_COMPARE: the results that the other channel, in RUN too, has sent are equal to its own, or the channel locks out (R667,
R670). -/
def execResultCompare (t : Nat) (chB same : Bool) (s : State) : Host.Outcome State Fault Refusal :=
  s.does t fun s =>
    if (s.ch chB).st ≠ .run ∨ (s.ch (!chB)).st ≠ .run ∨ (s.ch chB).gotRes = true then s
    else if same then s.modCh chB fun c => { c with gotRes := true }
    else s.lockoutRun chB 1

/-- The other channel's snapshot or results have missed their time in Table 17.2: 100 µs and 350 µs after the tick. -/
def State.peerLate (s : State) (chB : Bool) : Bool :=
  let c := s.ch chB
  (!c.gotSnap && decide (s.saf.tickRaw + 100000 ≤ s.raw)) || (!c.gotRes && decide (s.saf.tickRaw + 350000 ≤ s.raw))

/-- PEER_SILENT: the other channel's snapshot or results missed their time (R667). -/
def execPeerSilent (t : Nat) (chB : Bool) (s : State) : Host.Outcome State Fault Refusal :=
  s.does t fun s => if s.peerLate chB then s.lockoutRun chB 2 else s

/-- SELFTEST_FAIL (R670). -/
def execSelftestFail (t : Nat) (chB : Bool) (s : State) : Host.Outcome State Fault Refusal :=
  s.does t fun s =>
    if (s.ch chB).powered then (s.modCh chB fun c => { c with selftest := true }).lockout chB 4 else s

/-- The inter-die link of a channel is down (R9, R670). -/
def State.safLinkDown (s : State) (chB : Bool) : State :=
  let s := s.modCh chB fun c => { c with linkDown := true }
  if (s.ch chB).powered then s.lockout chB 5 else s

/-! ## Conditions with a time of their own -/

/-- SAF_DISCREPANCY: T_DISC of a pair has run at the last snapshot, which the evaluation of its cycle finds too (R679). -/
def execSafDiscrepancy (t pair : Nat) (s : State) : Host.Outcome State Fault Refusal :=
  s.does t fun s =>
    let x := s.safPair pair
    match x.discSince with
    | some f => if x.st ≠ .fault ∧ s.tDisc pair < s.saf.tickRaw - f then (s.pairFault pair).safBoth 0xC3 pair else s
    | none => s

/-- STOP1_DELAY_EXPIRY: T1 of a function expires, in the cycle whose evaluation would find it (R685). -/
def execStop1DelayExpiry (t fn : Nat) (s : State) : Host.Outcome State Fault Refusal :=
  s.does t fun s =>
    let x := s.safFn fn
    if x.st = .delay ∧ x.left ≤ 1 ∧ s.saf.evaluated = false then
      let s := (s.modFn fn fun x => { x with st := .demand, left := 0, expired := true }).safBoth 0xCB 0
      ((List.range 8).filter fun k => bit (s.fnByte fn 2) k).foldl (fun s k => s.modOut k fun o => { o with want := false }) s
    else s

/-- OUTPUT_READBACK_CHECK: one readback in mV by each channel, and VSAFE (R689). -/
def execOutputReadbackCheck (t out : Nat) (mvA mvB mvSafe : Int) (s : State) : Host.Outcome State Fault Refusal :=
  s.does t fun s =>
    let o := s.safOut out
    let low := decide (mvA < 5000 ∧ mvB < 5000)
    let top := decide (mvSafe - 3000 < mvA ∧ mvSafe - 3000 < mvB)
    let age := s.raw - o.changedAt
    let pulsing := o.testing && decide (s.raw < s.saf.tickRaw + 300000)
    let bad :=
      if o.on then (if pulsing then decide (250000 ≤ s.raw - s.saf.tickRaw) && !low else decide (2000000 < age) && !top)
      else decide (20000000 < age) && !low
    if bad ∧ s.outUsed out ∧ ¬ o.locked then (s.lockOut out).safBoth 0xC5 out else s

/-- SAF_OVERLOAD: an output carries too much current for 5 ms, or is the one that the total takes (R690). -/
def execSafOverload (t out : Nat) (s : State) : Host.Outcome State Fault Refusal :=
  s.does t fun s =>
    if (s.safOut out).on then ((s.lockOut out).modOut out fun o => { o with ovl := true }).safBoth 0xC6 out else s

/-- T_ON of an output that is on, or T_OFF of one that is off, has run since it switched (R693). -/
def State.feedbackDue (s : State) (k : Nat) : Bool :=
  let w := s.outWord k
  let o := s.safOut k
  decide (o.changedAt + 1000000 * (if o.on then bits w 29 20 else bits w 19 10) ≤ s.raw)

/-- FEEDBACK_TIMEOUT: a contact missed T_ON or T_OFF (R693). -/
def execFeedbackTimeout (t out : Nat) (s : State) : Host.Outcome State Fault Refusal :=
  s.does t fun s =>
    if bit (s.outWord out) 30 ∧ ¬ (s.safOut out).locked ∧ s.feedbackDue out then (s.lockOut out).safBoth 0xC7 out else s

/-- SAF_CONN_LOST: a connection's last accepted unit was older than WD at the last snapshot (R706). -/
def execSafConnLost (t conn : Nat) (s : State) : Host.Outcome State Fault Refusal :=
  s.does t fun s =>
    let x := s.safConn conn
    if s.connUsed conn ∧ x.st ≠ .lost ∧ x.rxMt + s.connWd conn < s.saf.tickMt then
      (s.modConn conn fun x => { x with st := .lost, bits := 0 }).safBoth 0xC8 conn
    else s

/-- SINGLE_TIME_EXPIRY: single copies of a connection are refused from now on (R707). -/
def execSingleTimeExpiry (t conn : Nat) (s : State) : Host.Outcome State Fault Refusal :=
  s.does t fun s =>
    if (s.safConn conn).st = .single ∧ s.singleRefused conn then s.modConn conn fun x => { x with singleOver := true } else s

/-! ## SAFETY_LOAD (R697, R719) -/

/-- The reserved bytes of an SPS. -/
def spsReserved : List Nat :=
  [1, 2, 3] ++ (List.range 8).map (· + 0x008) ++ (List.range 11).map (· + 0x015) ++
    (List.range 16).flatMap (fun f => (List.range 4).map (· + (0x040 + 16 * f + 12))) ++
    (List.range 32).flatMap (fun c => (0x160 + 16 * c + 3) :: (List.range 4).map (· + (0x160 + 16 * c + 12)))

/-- A pair's word is out of range. -/
def pairFaulty (w : Nat) : Bool :=
  bit w 31 && (decide (bits w 30 29 = 3) || decide (40 < bits w 27 22) ||
    (decide (bits w 30 29 ≠ 2) && decide (w % 2 ^ 16 < 10 ∨ 5000 < w % 2 ^ 16)))

/-- An output's word is out of range. -/
def outFaulty (w : Nat) : Bool :=
  bit w 31 && bit w 30 && (decide (bits w 29 20 < 10 ∨ 1000 < bits w 29 20) || decide (bits w 19 10 < 10 ∨ 1000 < bits w 19 10))

/-- The offsets at which an SPS has a field outside its range, in ascending order within each part. -/
def spsRange (b : List Byte) : List Nat :=
  let at1 (c : Bool) (off : Nat) : List Nat := if c then [off] else []
  let p := fld b 0x010 2
  let w := fld b 0x012 2
  at1 (decide (byteAt b 0 ≠ 1)) 0 ++ at1 (decide (p < 10 ∨ 1000 < p ∨ p % 2 = 1)) 0x010 ++
    at1 (decide (w < 200 ∨ 1000 < w)) 0x012 ++
    (List.range 8).flatMap (fun i => at1 (pairFaulty (fld b (0x020 + 4 * i) 4)) (0x020 + 4 * i)) ++
    (List.range 16).flatMap (fun f =>
      at1 (bit (byteAt b (0x040 + 16 * f)) 7 && decide (30000 < fld b (0x048 + 16 * f) 4)) (0x048 + 16 * f)) ++
    (List.range 8).flatMap (fun k => at1 (outFaulty (fld b (0x140 + 4 * k) 4)) (0x140 + 4 * k)) ++
    (List.range 32).flatMap (fun c =>
      let o := 0x160 + 16 * c
      if bit (byteAt b o) 7 then
        at1 (decide (byteAt b (o + 1) < 1 ∨ 40 < byteAt b (o + 1))) (o + 1) ++ at1 (decide (127 < byteAt b (o + 2))) (o + 2) ++
          at1 (decide (fld b (o + 8) 2 < 2 ∨ 1000 < fld b (o + 8) 2)) (o + 8) ++
          at1 (decide (600 < fld b (o + 10) 2)) (o + 10)
      else []) ++
    spsReserved.filter (fun o => decide (byteAt b o ≠ 0)) ++
    at1 ((b.drop 0x360).any fun x => decide (x ≠ 0)) (0x360 + (b.drop 0x360).findIdx fun x => decide (x ≠ 0))

/-- The offsets at which an SPS is inconsistent (R697). -/
def spsIncons (b : List Byte) : List Nat :=
  let at1 (c : Bool) (off : Nat) : List Nat := if c then [off] else []
  let pair (i : Nat) := fld b (0x020 + 4 * i) 4
  let outU (k : Nat) := bit (fld b (0x140 + 4 * k) 4) 31
  let connU (c : Nat) := bit (byteAt b (0x160 + 16 * c)) 7
  let conn (c : Nat) := (byteAt b (0x160 + 16 * c) % 8, byteAt b (0x161 + 16 * c), byteAt b (0x162 + 16 * c))
  let fns := (List.range 16).filter fun f => bit (byteAt b (0x040 + 16 * f)) 7
  let ack := byteAt b 0x014
  let ackPair := pair (ack % 16 / 2)
  let names (f off n : Nat) : Nat := fld b (0x040 + 16 * f + off) n
  at1 (bit ack 7 && bit ackPair 31 && (decide (ack % 2 = 0) || decide (bits ackPair 30 29 ≠ 2))) 0x014 ++
    fns.flatMap (fun f =>
      at1 ((List.range 8).any fun p => bit (names f 1 1) p && !bit (pair p) 31) (0x041 + 16 * f) ++
        at1 ((List.range 8).any fun k => bit (names f 2 1) k && !outU k) (0x042 + 16 * f) ++
        at1 ((List.range 32).any fun c => bit (names f 4 4) c && !connU c) (0x044 + 16 * f)) ++
    (List.range 8).flatMap (fun k => at1 (outU k && !(fns.any fun f => bit (names f 2 1) k)) (0x140 + 4 * k)) ++
    (List.range 32).flatMap (fun c => at1 (connU c && ((List.range c).any fun d => connU d &&
      decide ((conn d).1 = (conn c).1 ∧ ((conn d).2.1 = (conn c).2.1 ∨ (conn d).2.2 = (conn c).2.2)))) (0x160 + 16 * c))

/-- The least of a list. -/
def leastOf : List Nat → Option Nat
  | [] => none
  | x :: r => some (r.foldl min x)

/-- A rejection of SAFETY_LOAD with the offset of the payload field and that of the SPS field. -/
def State.rejectSps (s : State) (e : Entry) (status off : Nat) : State :=
  s.finish e.id status (leBytes 2 0x0010 ++ zeros 2 ++ leBytes 2 off ++ zeros 2)

/-- SAFETY_LOAD at its apply point. -/
def fxSafetyLoad (data : List Byte) (_ : Ctx) (e : Entry) (s : State) : State :=
  if s.pw.mode ≠ .commission then s.reject e stRejMode
  else
    match leastOf (spsRange data), leastOf (spsIncons data) with
    | some o, _ => s.rejectSps e stRejRange o
    | none, some o => s.rejectSps e stRejIncons o
    | none, none =>
      let v := crc32c data
      let s := s.modSaf fun g =>
        { g with loaded := some data, checkLoaded := v, sps := none, checkForce := 0, pairs := [], fns := [], conns := [],
                 disagree := [], ackSince := none, ack := false, ackOwed := false,
                 a := { g.a with ticks := 0 }, b := { g.b with ticks := 0 } }
      let s := (List.range 8).foldl (fun s k => s.modOut k fun o => { o with want := false }) s
      let s := (s.setCh false .off).setCh true .off
      let s := (s.safMark false 0xCD 0 0).safMark true 0xCD 0 0
      s.finish e.id stDone (leBytes 4 v ++ zeros 4)

/-- SAFETY_LOAD. -/
def execSafetyLoad (t : Nat) (h : DHdr) (data : List Byte) (s : State) : Host.Outcome State Fault Refusal :=
  s.does t fun s => s.runDescr h (.safetyLoad data) (fxSafetyLoad data)

end Sys2Proof.Machine
end

