-- ==== Sys2Proof/Machine/Slots.lean ====
section
/-! DEFINITION. What the controller sends in its schedule entries (08 R349 to R364, 09 R391, R397 to R401, R414):
command trains, SY, safe frames, cold-start frames and the frames of the acyclic window. -/

namespace Sys2Proof.Machine

/-! ## Command trains (R349, R391; 15 R606, R607) -/

/-- The record of one axis in the next train: as poured, else a hold record; ESTOP_LOCAL under a stop. -/
def State.trainRecord (s : State) (k a : Nat) : List Byte :=
  if s.estopTrain k then estopRecord (s.axisMuted a) (s.loopsClosed a)
  else
  match (s.seg k).train.lookup a with
  | some r => r
  | none => holdRecord (s.axisMuted a) (decide ((s.axis a).mode ≠ .disabled) && s.nodeLive a) (s.loopsClosed a)

/-- The CT payload: a record for each axis of the mask, ascending. -/
def State.ctPayload (s : State) (k : Nat) : List Byte := (s.netAxes k).flatMap (s.trainRecord k)

/-- The train of a segment that a follower covers: ESTOP_LOCAL for every axis unless the segment is READY (15 R607). -/
def State.coverPayload (s : State) (k : Nat) : List Byte :=
  if (s.twSeg k).st = .ready then s.ctPayload k
  else (s.netAxes k).flatMap fun a => estopRecord (s.axisMuted a) (s.loopsClosed a)

/-- The CS payload (Table 08.7). -/
def State.csPayload (s : State) (k : Nat) : List Byte :=
  [BitVec.ofNat 8 s.rank, 0] ++ leBytes 2 (s.seg k).nonce.toNat ++ [BitVec.ofNat 8 (bits (s.force (netOff k 0)) 31 30)] ++ zeros 3

/-- A CT entry begins: the train, or a CS frame during the CS phase; a covering follower sends on its channel only. With the
train builder and the cycle watchdog both fenced no train is there to leave (01 R33, R44). -/
def State.slotCt (s : State) (k e : Nat) : State :=
  let g := s.seg k
  match g.ring with
  | .running =>
    if s.fenced (srcMould k) && s.fenced srcWatchdog then s else s.sendFrame k 1 0 e (s.ctPayload k)
  | .csPhase =>
    let open_ : Bool := !g.csDone && (match g.csUntil with | some u => decide (s.now < u) | none => true)
    if open_ then
      let s := s.modSeg k fun g => { g with csUntil := match g.csUntil with | some u => some u | none => some (s.now + 1000000) }
      s.sendFrame k 5 (if s.rank = 0 then 0 else 62) e (s.csPayload k)
    else s
  | .integrated =>
    if s.following ∧ (s.twSeg k).covered then s.sendCopyAt (s.coverStart k) k 1 0 e (s.coverPayload k) s.coverB else s
  | _ => s

/-! ## SY (R353, R402, R414) -/

/-- The next of a list of addresses after one, in rotation. -/
def nextAfter (l : List Nat) (j : Nat) : Option Nat :=
  match l.find? fun x => decide (j < x) with
  | some x => some x
  | none => l.head?

/-- The addresses that the delay entry rotates through: the present nodes, then the twin follower. -/
def State.delayAddrs (s : State) (k : Nat) : List Nat :=
  nodeAddrs.filter (s.present k) ++ (if s.tw.hbAt.isSome ∧ s.tw.peerRole = 2 then [62] else [])

/-- The suspect nodes. -/
def State.suspects (s : State) (k : Nat) : List Nat := nodeAddrs.filter fun j => (s.node k j).asym

/-- The node that the next SY names, 0 for none, and the rotation after it. -/
def State.delayEntry (s : State) (k : Nat) : Nat × Segment :=
  let g := s.seg k
  match g.nameNext with
  | some j => (j, { g with nameNext := none })
  | none =>
    match g.suspectTurn, nextAfter (s.suspects k) g.suspectAt with
    | true, some j => (j, { g with suspectTurn := false, suspectAt := j })
    | _, _ =>
      match nextAfter (s.delayAddrs k) g.rotate with
      | some j => (j, { g with suspectTurn := true, rotate := j })
      | none => (0, { g with suspectTurn := true })

/-- The SY payload (Table 08.6). -/
def State.syPayload (s : State) (k j : Nat) : List Byte :=
  let d := s.node k j
  leBytes 8 s.mt ++ leBytes 5 s.cyc ++
    [BitVec.ofNat 8 (32 * s.activeDom + 8 * s.cycleCode k false + s.minor k), BitVec.ofNat 8 j, 0] ++
    leBytes 4 (toU 32 (if j = 0 then 0 else d.da)) ++ leBytes 4 (toU 32 (if j = 0 then 0 else d.db)) ++
    leBytes 4 (toU 32 (s.seg k).d) ++ zeros 4

/-- The schedule has an acyclic window: an MG entry of the controller and an open one. -/
def State.hasWindow (s : State) (k : Nat) : Bool :=
  (findEntry (s.sched k) fun w => schType w = 8 ∧ schSender w = 0).isSome &&
    (findEntry (s.sched k) fun w => schType w = 8 ∧ schSender w = 63).isSome

/-- An SY entry begins. -/
def State.slotSy (s : State) (k e : Nat) : State :=
  if (s.seg k).ring ≠ .running then s
  else
    let x := s.delayEntry k
    let first := !(s.seg k).synced
    let s := (s.modSeg k fun _ => x.2).rampNode k x.1
    let s := s.sendFrame k 3 0 e (s.syPayload k x.1)
    if first then
      let s := s.modSeg k fun g => { g with synced := true, firstSyN := s.cyc }
      if s.hasWindow k then s else s.raise (srcSeg k) 0x48 (nodeAddr k 0) []
    else s

/-! ## Safe frames (R354; 17 R702) -/

/-- An SF entry of the controller begins: each channel's copy, 4 µs after the tick at the earliest. A follower's copy covers its
leader's (15 R606, R607). -/
def State.slotSf (s : State) (k e : Nat) : State :=
  match s.connAt k e with
  | none => s
  | some c =>
    let x := s.safConn c
    if s.raw < s.saf.tickRaw + 4000 then s
    else
      let start := if s.following then s.coverStart k else s.mt
      let s := if x.unitA = [] then s else s.sendCopyAt start k 4 0 e x.unitA false
      if x.unitB = [] then s else s.sendCopyAt start k 4 0 e x.unitB true

/-! ## The acyclic window (R364, R378, R379, R397 to R401; 14 R567) -/

/-- The SF entry of a node, 0xFF for none. -/
def State.sfEntry (s : State) (k j : Nat) : Nat :=
  (findEntry (s.sched k) fun w => schType w = 4 ∧ schSender w = j).getD 0xFF

/-- The IN frame that assigns an address, 0 for a refusal. -/
def State.inFrame (s : State) (k h : Nat) (ident : List Byte) : List Byte :=
  let w := s.nodeWord k h
  if h = 0 then zeros 8 ++ padTo 8 ident
  else
    [BitVec.ofNat 8 h, BitVec.ofNat 8 (bits w 21 16), BitVec.ofNat 8 (bits w 11 8), BitVec.ofNat 8 (bits w 6 0),
      BitVec.ofNat 8 (s.sfEntry k h)] ++ zeros 3 ++ padTo 8 ident

/-- The LC grant, address 0 for a refusal. -/
def State.lcFrame (s : State) (k j startN : Nat) (ident : List Byte) : List Byte :=
  if j = 0 then zeros 8 ++ padTo 8 ident ++ zeros 8
  else
    let w := s.nodeWord k j
    let d := s.node k j
    [BitVec.ofNat 8 j, BitVec.ofNat 8 (bits w 21 16), BitVec.ofNat 8 (bits w 6 0), BitVec.ofNat 8 (s.sfEntry k j)] ++
      leBytes 3 (tagOf startN) ++ [0] ++ padTo 8 ident ++ leBytes 4 (toU 32 d.da) ++ leBytes 4 (toU 32 d.db)

/-- An MG frame of the controller: function, target, transaction number, data. -/
def mgFrame (fn target trans : Nat) (data : List Byte) : List Byte :=
  [BitVec.ofNat 8 fn, BitVec.ofNat 8 target] ++ leBytes 2 trans ++ data

/-- A frame that may leave now: a grant, or a refusal of a claim, not before the major cycle after the claim (R379, R380). -/
def State.mayOwe (s : State) : Acyclic → Bool
  | .grant _ _ startN _ =>
    let ahead := (startN + 2 ^ 40 - s.cyc) % 2 ^ 40
    decide (ahead ≤ 1 ∨ 2 ^ 39 ≤ ahead)
  | .refuseClaim _ grantN =>
    let ahead := (grantN + 2 ^ 40 - s.cyc) % 2 ^ 40
    decide (ahead = 0 ∨ 2 ^ 39 ≤ ahead)
  | _ => true

/-- The first owed frame that may leave, and the rest. -/
def takeOwed (p : Acyclic → Bool) : List Acyclic → Option (Acyclic × List Acyclic)
  | [] => none
  | a :: r => if p a then some (a, r) else match takeOwed p r with | some (x, l) => some (x, a :: l) | none => none

/-- Send an MG frame of the controller that asks a node, or invites with target 63. -/
def State.ask (s : State) (k e fn target : Nat) (data : List Byte) : State :=
  let trans := ((s.seg k).trans + 1) % 2 ^ 16
  let s := s.modSeg k fun g =>
    { g with trans := trans, asked := if target = 63 then none else some target, invited := decide (target = 63),
             askedC := s.countNow k }
  s.sendFrame k 8 0 e (mgFrame fn target trans data)

/-- Send an owed frame. -/
def State.sendOwed (s : State) (k e : Nat) : Acyclic → State
  | .poll h => s.ask k e 0x01 h []
  | .assign h ident =>
    let s := (s.modNode k h fun d => { d with st := .assigned ((s.cyc + 2) % 2 ^ 40) }).publish k h
    (s.modSeg k fun g => { g with nameNext := some h }).sendFrame k 6 0 e (s.inFrame k h ident)
  | .refuse ident => s.sendFrame k 6 0 e (s.inFrame k 0 ident)
  | .grant j ident startN _ => s.sendFrame k 7 0 e (s.lcFrame k j startN ident)
  | .refuseClaim ident _ => s.sendFrame k 7 0 e (s.lcFrame k 0 0 ident)

/-- The request of NODE_MGMT that is due in this minor cycle 0: not sent yet, or to be sent again. -/
def State.requestDue (s : State) (k : Nat) : Option MgReq :=
  match (s.seg k).mg with
  | some r =>
    if s.minor k = 0 ∧ (¬ r.sent ∨ (r.repeats < 3 ∧ ¬ s.askedNow k)) then some r else none
  | none => none

/-- Send a request of NODE_MGMT: a first sending takes a new transaction number. -/
def State.sendRequest (s : State) (k e : Nat) (r : MgReq) : State :=
  let trans := if r.sent then r.trans else ((s.seg k).trans + 1) % 2 ^ 16
  let r := { r with trans := trans, repeats := if r.sent then r.repeats + 1 else 0, sent := true }
  let s := s.modSeg k fun g =>
    { g with mg := some r, trans := if g.mg.any (·.sent) then g.trans else trans, asked := some r.node, invited := false,
             askedC := s.countNow k }
  s.sendFrame k 8 0 e (mgFrame r.fn r.node trans r.data)

/-- A spare entry is free (R378). -/
def State.spareFree (s : State) (k : Nat) : Bool :=
  nodeAddrs.any fun j => s.present k j && s.spare k j && decide ((s.node k j).st = .absent)

/-- An MG entry with SENDER 0 begins: at most one frame, in the order owed, requested, invited, polled, claims invited. -/
def State.slotMg (s : State) (k e : Nat) : State :=
  let g := s.seg k
  if g.ring ≠ .running then s
  else
    match takeOwed s.mayOwe g.owe with
    | some (a, rest) => (s.modSeg k fun g => { g with owe := rest }).sendOwed k e a
    | none =>
      match s.requestDue k with
      | some r => s.sendRequest k e r
      | none =>
        let left := if g.synced ∧ s.hasWindow k then s.pollable k else []
        let l := left.filter fun j => !(s.node k j).waitsHeal
        let polled := left.all fun j => (s.node k j).polledOnce
        if !left.isEmpty && polled && decide (s.minor k = 0) then s.ask k e 0x02 63 []
        else
          match nextAfter l g.lastPoll with
          | some h =>
            let s := s.modNode k h fun d => { d with st := .polled, polledOnce := true }
            (s.modSeg k fun g => { g with lastPoll := h }).ask k e 0x01 h []
          | none =>
            if s.spareFree k && g.mg.isNone && decide (s.minor k = 0) && g.synced then s.ask k e 0x03 63 [] else s

/-! ## The entry -/

/-- It is the core clock of START of an entry, and the entry has not left in it already (R360). -/
def State.slotDue (s : State) (k e : Nat) : Bool :=
  decide (s.cycleOffset k s.cyc (s.minor k) = 50 * schStart (s.sched k e) ∧ (s.seg k).lastSent ≠ (s.core + 1, e))

/-- SLOT_TRANSMIT: a used entry of the controller begins, at its START (R360). -/
def execSlotTransmit (t seg entry : Nat) (s : State) : Host.Outcome State Fault Refusal :=
  s.does t fun s =>
    let w := s.sched seg entry
    if !s.entryUsed seg entry || decide (schSender w ≠ 0) || !s.slotDue seg entry then s
    else
      let s := s.modSeg seg fun g => { g with lastSent := (s.core + 1, entry) }
      match schType w with
      | 1 => s.slotCt seg entry
      | 3 => s.slotSy seg entry
      | 4 => if s.segRuns seg then s.slotSf seg entry else s
      | 8 => s.slotMg seg entry
      | _ => s

end Sys2Proof.Machine
end

