-- ==== Sys2Proof/Machine/Nv.lean ====
section
/-! DEFINITION. The non-volatile store (18 R742 to R748; 01 R38, R39; 16 R635): areas and pages, NV_WRITE and NV_READ
with learning snapshots, SAFETY_CONFIRM and the power-up of a safety channel, and the persistence of the ledger. -/

namespace Sys2Proof.Machine

/-! ## Areas and pages (Table 18.9) -/

/-- The areas of the NV store. -/
inductive NvArea where
  | device | imageA | imageB | sps | ledger | reserved | cams | snapshots | user
  deriving DecidableEq, Repr

/-- The area of an NV address below 32 MiB. -/
def areaOf (addr : Nat) : Option NvArea :=
  if addr < 0x10000 then some .device
  else if addr < 0x410000 then some .imageA
  else if addr < 0x810000 then some .imageB
  else if addr < 0x814000 then some .sps
  else if addr < 0x816000 then some .ledger
  else if addr < 0x900000 then some .reserved
  else if addr < 0x1100000 then some .cams
  else if addr < 0x1580000 then some .snapshots
  else if addr < 0x2000000 then some .user
  else none

/-- What a page that nothing has written reads as: zeros in the ledger area and in the reserved one (00 R3), ones elsewhere (log 4). -/
def blankPage (p : Nat) : List Byte :=
  List.replicate 1024 (if areaOf (1024 * p) = some .ledger ∨ areaOf (1024 * p) = some .reserved then 0x00 else 0xFF)

/-- A page of the store. -/
def Nv.page (v : Nv) (p : Nat) : List Byte := SMap.get (blankPage p) v.pages p

/-- Write a page whole. -/
def Nv.putPage (v : Nv) (p : Nat) (b : List Byte) : Nv := { v with pages := SMap.put (blankPage p) v.pages p (padTo 1024 b) }

/-- The canonical form of the store: pages in rising order, each of 1024 bytes, none that reads as a blank page. -/
def Nv.wf (v : Nv) : Bool :=
  SMap.rising v.pages && v.pages.all fun e => decide (e.2 ≠ blankPage e.1) && decide (e.2.length = 1024)

/-- `n` pages from page `p` on. -/
def Nv.readPages (v : Nv) (p n : Nat) : List Byte := (List.range n).flatMap fun i => v.page (p + i)

/-- The NV die is fenced (R39). -/
def State.nvFenced (s : State) : Bool := s.fenced srcNv

/-! ## Transfers (R38, R724, R742) -/

/-- No new page write starts but those of persistence: VNVW holds, and was not crossed in this core clock (R724, R750). -/
def State.nvBarred (s : State) : Bool := s.pw.nvw && decide (s.pw.nvwAt ≠ s.core + 1)

/-- The transfer writes pages. -/
def NvJob.writes : NvJob → Bool
  | .write .. => true
  | .confirm .. => true
  | .ledger .. => true
  | _ => false

/-- The transfer is the persistence of the ledger. -/
def NvJob.isLedger : NvJob → Bool
  | .ledger .. => true
  | _ => false

/-- Change the NV die. -/
def State.modNv (s : State) (f : Nv → Nv) : State := { s with nv := f s.nv }

/-- Start the next transfer when none runs: persistence first. A write that would begin while VNVW holds is turned away
(R724). -/
def State.nvNext : Nat → State → State
  | 0, s => s
  | n + 1, s =>
    if s.nv.job.isSome then s
    else
      match s.nv.waiting.find? NvJob.isLedger with
      | some j => s.modNv fun v => { v with job := some j, waiting := v.waiting.erase j, startedAt := s.now }
      | none =>
        match s.nv.waiting with
        | [] => s
        | j :: r =>
          let s := s.modNv fun v => { v with waiting := r }
          if s.nvBarred && j.writes then
            State.nvNext n (match j with
              | .write id _ _ done => s.finish id stDeferred (leBytes 4 done ++ zeros 4)
              | .confirm id _ _ _ => s.finish id stDeferred (zeros 8)
              | _ => s)
          else s.modNv fun v => { v with job := some j, startedAt := s.now }

/-- Queue a transfer. -/
def State.nvQueue (s : State) (j : NvJob) : State :=
  let s := s.modNv fun v => { v with waiting := v.waiting ++ [j] }
  s.nvNext (s.nv.waiting.length + 1)

/-- The transfer in progress is over, or gives way; the next begins. -/
def State.nvFree (s : State) : State :=
  let s := s.modNv fun v => { v with job := none }
  s.nvNext (s.nv.waiting.length + 1)

/-- A transfer goes on with its next page: persistence that waits goes first. -/
def State.nvGoOn (s : State) (j : NvJob) : State :=
  if s.nv.waiting.any NvJob.isLedger ∧ ¬ j.isLedger then
    (s.modNv fun v => { v with waiting := v.waiting ++ [j] }).nvFree
  else s.modNv fun v => { v with job := some j, startedAt := s.now }

/-- Every transfer ends FAILED_HW: the NV die is fenced (R39). -/
def State.nvFail (s : State) : State :=
  let l := (match s.nv.job with | some j => [j] | none => []) ++ s.nv.waiting
  let s := s.modNv fun v => { v with job := none, waiting := [] }
  (l.foldl (fun s j => match j with
    | .write id .. => s.finish id stFailedHw (zeros 8)
    | .read id .. => s.finish id stFailedHw (zeros 8)
    | .snapshot id .. => s.finish id stFailedHw (zeros 8)
    | .confirm id .. => s.finish id stFailedHw (zeros 8)
    | .ledger .. => s) s).postReady

/-! ## Learning snapshots (R745) -/

/-- The bytes of a snapshot slot: header page, bins, and zeros up to 9216 bytes (log 26). -/
def snapBytes (a n : Nat) (g : Learning) : List Byte :=
  let bins := (List.range (2 ^ g.log2n)).flatMap fun i => leInt 4 (SMap.get 0 g.bins i)
  let head := leBytes 2 a ++ [BitVec.ofNat 8 g.log2n, 1] ++ leBytes 2 (g.master.getD 0) ++ zeros 2 ++ leInt 8 g.period ++
    leInt 8 g.origin ++ leBytes 3 (tagOf n) ++ zeros 1 ++ leBytes 4 (crc32c bins)
  padTo 9216 (padTo 1024 head ++ bins)

/-- A slot may be loaded into axis a (R745). -/
def snapOk (a : Nat) (g : Learning) (b : List Byte) : Bool :=
  decide (byteAt b 3 = 1) && decide (fld b 0 2 = a) && decide (byteAt b 2 = g.log2n) && g.resample.isNone &&
    decide (fld b 28 4 = crc32c ((b.drop 1024).take (4 * 2 ^ g.log2n)))

/-- The bins of a slot. -/
def snapBins (log2n : Nat) (b : List Byte) : SMap Int :=
  (List.range (2 ^ log2n)).foldl (fun m i => SMap.put 0 m i (fldS b (1024 + 4 * i) 4)) []

/-! ## NV_WRITE and NV_READ (R742, R743, R745) -/

/-- The byte at fault of a transfer's address, buffer or length, if any. -/
def nvRange (addr buf len : Nat) : Option Nat :=
  if addr % 1024 ≠ 0 then some 12
  else if len % 1024 ≠ 0 then some 24
  else
    match areaOf addr with
    | none => some 12
    | some a =>
      if 0 < len ∧ areaOf (addr + len - 1) ≠ some a then some 12
      else if buf = 0 then
        (match snapAxis addr buf with
         | none => some 16
         | some _ => if (addr - snapBase) % 0x2400 ≠ 0 then some 12 else if len ≠ 9216 then some 24 else none)
      else none

/-- NV_WRITE may write an area. -/
def NvArea.writable : NvArea → Bool
  | .imageA => true | .imageB => true | .cams => true | .snapshots => true | .user => true | _ => false

/-- NV_WRITE may write an area in a mode. -/
def NvArea.inMode (a : NvArea) (m : DevMode) : Bool :=
  match a with
  | .imageA => decide (m = .commission)
  | .imageB => decide (m = .commission)
  | .cams => decide (m = .commission ∨ m = .idle)
  | _ => true

/-- NV_WRITE at its apply point. -/
def fxNvWrite (addr buf len : Nat) (data : List Byte) (c : Ctx) (e : Entry) (s : State) : State :=
  if s.nvFenced then s.reject e stFailedHw
  else
    match nvRange addr buf len with
    | some off => s.rejectAt e stRejRange off
    | none =>
      let area := (areaOf addr).getD .reserved
      if !area.writable then s.rejectAt e stRejRange 12
      else if !area.inMode s.pw.mode then s.reject e stRejMode
      else
        let snap := (snapAxis addr buf).map fun a => (a, (s.axis a).ln)
        match snap with
        | some (_, { master := none, .. }) => s.reject e stRejIncons
        | _ =>
          let bytes := match snap with | some (a, g) => snapBytes a c.n g | none => padTo len data
          if s.nvBarred then s.finish e.id stDeferred (zeros 8)
          else if len = 0 then s.finish e.id stDone (zeros 8)
          else s.nvQueue (.write e.id (addr / 1024) bytes 0)

/-- NV_READ at its apply point. -/
def fxNvRead (addr buf len : Nat) (_ : Ctx) (e : Entry) (s : State) : State :=
  if s.nvFenced then s.reject e stFailedHw
  else
    match nvRange addr buf len with
    | some off => s.rejectAt e stRejRange off
    | none =>
      match snapAxis addr buf with
      | some a =>
        if s.pw.mode ≠ .commission ∧ s.pw.mode ≠ .idle ∧ s.pw.mode ≠ .armed then s.reject e stRejMode
        else if !snapOk a (s.axis a).ln (s.nv.readPages (addr / 1024) 9) then s.reject e stRejIncons
        else s.nvQueue (.snapshot e.id a (addr / 1024) 9 [])
      | none => if len = 0 then s.finish e.id stDone (zeros 8) else s.nvQueue (.read e.id (addr / 1024) (len / 1024) buf 0)

/-- NV_WRITE. -/
def execNvWrite (t : Nat) (h : DHdr) (addr buf len : Nat) (data : List Byte) (s : State) : Host.Outcome State Fault Refusal :=
  s.does t fun s => s.runDescr h (.nvWrite addr buf len data) (fxNvWrite addr buf len data)

/-- NV_READ. -/
def execNvRead (t : Nat) (h : DHdr) (addr buf len : Nat) (s : State) : Host.Outcome State Fault Refusal :=
  s.does t fun s => s.runDescr h (.nvRead addr buf len) (fxNvRead addr buf len)

/-! ## The safety parameter set in NV (R747; 17 R698, R699) -/

/-- The first page of copy 0 or 1 of the SPS area: 5 pages each, one after the other (log 27). -/
def spsPage (copy : Nat) : Nat := 0x810000 / 1024 + 5 * copy

/-- The generation of a copy whose confirmation page is complete; an erased page is not. -/
def Nv.spsGen (v : Nv) (copy : Nat) : Option Nat :=
  let g := fld (v.page (spsPage copy + 4)) 4 4
  if g = 0xFFFFFFFF then none else some g

/-- The copy of newer generation. -/
def Nv.spsNewer (v : Nv) : Option Nat :=
  match v.spsGen 0, v.spsGen 1 with
  | none, none => none
  | some _, none => some 0
  | none, some _ => some 1
  | some a, some b => if a < b then some 1 else some 0

/-- The bytes that a SAFETY_CONFIRM writes: the SPS, then its confirmation page. -/
def Nv.spsBytes (v : Nv) (sps : List Byte) (check : Nat) : List Byte :=
  let gen := match v.spsNewer with | some c => ((v.spsGen c).getD 0 + 1) % 0xFFFFFFFF | none => 1
  padTo 4096 sps ++ padTo 1024 (leBytes 4 check ++ leBytes 4 gen)

/-- SAFETY_CONFIRM at its apply point. With no SPS waiting it may act as the acknowledge of 17 R671. -/
def fxSafetyConfirm (check : Nat) (_ : Ctx) (e : Entry) (s : State) : State :=
  if s.pw.mode ≠ .commission then s.reject e stRejMode
  else
    match s.saf.loaded with
    | none =>
      if s.saf.sps.isSome ∧ s.ackInput = none ∧ check = s.saf.checkForce then
        (s.modSaf fun g => { g with ackOwed := true }).finish e.id stDone (zeros 8)
      else s.reject e stRejSafety
    | some sps =>
      if check ≠ s.saf.checkLoaded then s.reject e stRejSafety
      else if s.nvBarred then s.finish e.id stDeferred (zeros 8)
      else if s.nvFenced then s.reject e stFailedHw
      else
        let copy := match s.nv.spsNewer with | some c => 1 - c | none => 0
        s.nvQueue (.confirm e.id (spsPage copy) (s.nv.spsBytes sps check) check)

/-- SAFETY_CONFIRM. -/
def execSafetyConfirm (t : Nat) (h : DHdr) (check : Nat) (s : State) : Host.Outcome State Fault Refusal :=
  s.does t fun s => s.runDescr h (.safetyConfirm check) (fxSafetyConfirm check)

/-- The SPS is confirmed: it is in force, and the channels count their ticks toward RUN. -/
def State.confirmSps (s : State) (check : Nat) : State :=
  if s.saf.loaded.isSome ∧ s.saf.checkLoaded = check then
    let s := s.modSaf fun g =>
      { g with sps := g.loaded, loaded := none, checkForce := check, a := { g.a with ticks := 0 }, b := { g.b with ticks := 0 } }
    (s.safMark false 0xCD 1 0).safMark true 0xCD 1 0
  else s

/-- The confirmed SPS of the store, when its check value agrees. -/
def Nv.spsStored (v : Nv) : Option (List Byte × Nat) :=
  match v.spsNewer with
  | none => none
  | some c =>
    let b := v.readPages (spsPage c) 4
    let x := crc32c b
    if fld (v.page (spsPage c + 4)) 0 4 = x then some (b, x) else none

/-- SAFETY_CHANNEL_POWER_UP: the supply of a channel has returned and its rail is good (R722); it reads and checks the SPS (17 R699). -/
def execSafetyChannelPowerUp (t : Nat) (chB : Bool) (s : State) : Host.Outcome State Fault Refusal :=
  s.does t fun s =>
    if (s.ch chB).powered ∨ s.pw.vsuv ∨ ¬ s.pw.railsGood.contains (if chB then .vsb else .vsa) then s
    else
      let s := s.modCh chB fun c => { linkDown := c.linkDown, powered := true }
      let d := 1 + b2n chB
      let s := { s with pw := { s.pw with domains := if s.pw.domains.contains d then s.pw.domains else s.pw.domains ++ [d] } }
      match (if s.nvFenced then none else s.nv.spsStored) with
      | some (b, x) => s.modSaf fun g => if g.loaded.isSome then g else { g with sps := some b, checkForce := x }
      | none => s.safMark chB 0xCE 0 0

/-! ## Page writes and reads -/

/-- NV_PAGE_WRITE_DONE: the page in progress is written; the transfer goes on, stops for VNVW, or is over. -/
def execNvPageWriteDone (t : Nat) (s : State) : Host.Outcome State Fault Refusal :=
  s.does t fun s =>
    match s.nv.job with
    | some (.write id p rest done) =>
      let s := s.modNv fun v => v.putPage p (rest.take 1024)
      let rest := rest.drop 1024
      if rest.isEmpty then (s.finish id stDone (zeros 8)).nvFree.postReady
      else if s.nvBarred then (s.finish id stDeferred (leBytes 4 (done + 1024) ++ zeros 4)).nvFree.postReady
      else (s.nvGoOn (.write id (p + 1) rest (done + 1024))).postReady
    | some (.confirm id p rest check) =>
      let s := s.modNv fun v => v.putPage p (rest.take 1024)
      let rest := rest.drop 1024
      if rest.isEmpty then ((s.confirmSps check).finish id stDone (zeros 8)).nvFree.postReady
      else if s.nvBarred then (s.finish id stDeferred (zeros 8)).nvFree.postReady
      else (s.nvGoOn (.confirm id (p + 1) rest check)).postReady
    | some (.ledger p pages) =>
      let s := s.modNv fun v => { v.putPage (0x814000 / 1024 + p) (pages.headD []) with ledgerPage := (p + 1) % 8 }
      if pages.tail.isEmpty then s.nvFree.postReady else (s.nvGoOn (.ledger ((p + 1) % 8) pages.tail)).postReady
    | _ => s

/-- NV_PAGE_READ_DONE: a page has been read; its data goes to the host buffer, and a learning table is loaded with the
last page. -/
def execNvPageReadDone (t : Nat) (s : State) : Host.Outcome State Fault Refusal :=
  s.does t fun s =>
    match s.nv.job with
    | some (.read id p left buf done) =>
      let s := s.emitHost (.hostWrite (buf + done) (s.nv.page p))
      if left ≤ 1 then (s.finish id stDone (leBytes 4 (done + 1024) ++ zeros 4)).nvFree.postReady
      else (s.nvGoOn (.read id (p + 1) (left - 1) buf (done + 1024))).postReady
    | some (.snapshot id a p left got) =>
      let got := got ++ s.nv.page p
      if left ≤ 1 then
        let s := s.modAxis a fun ax => { ax with ln := { ax.ln with bins := snapBins ax.ln.log2n got } }
        (s.finish id stDone (leBytes 4 got.length ++ zeros 4)).nvFree.postReady
      else (s.nvGoOn (.snapshot id a (p + 1) (left - 1) got)).postReady
    | _ => s

/-- The page that a transfer is writing. -/
def NvJob.pageOf : NvJob → Nat
  | .write _ p _ _ => p
  | .read _ p .. => p
  | .snapshot _ _ p .. => p
  | .confirm _ p _ _ => p
  | .ledger p _ => 0x814000 / 1024 + p

/-- NV_TIMEOUT: a page write is not confirmed within 1 ms (R38). -/
def execNvTimeout (t : Nat) (s : State) : Host.Outcome State Fault Refusal :=
  s.does t fun s =>
    match s.nv.job with
    | some j =>
      if j.writes ∧ s.nv.startedAt + 4000000 ≤ s.now then
        let s := s.modNv fun v => { v with suspect := min 255 (v.suspect + 1), suspectAddr := 1024 * j.pageOf }
        let s := s.raise srcNv 0x13 0 []
        let s := match j with
          | .write id .. => s.finish id stFailedHw (zeros 8)
          | .confirm id .. => s.finish id stFailedHw (zeros 8)
          | _ => s
        s.nvFree.postReady
      else s
    | none => s

/-! ## Persistence of the ledger (16 R635, 18 R748) -/

/-- The newest `n` marks of the ledger, newest first. -/
def Assay.newest (a : Assay) (n : Nat) : List (List Byte) :=
  (List.range n).map fun i => SMap.get [] a.ledger ((a.next + 64 - 1 - i) % 64)

/-- Marks as pages of 32, the last one padded with zeros. -/
def ledgerPages : Nat → List (List Byte) → List (List Byte)
  | 0, _ => []
  | n + 1, l => if l.isEmpty then [] else padTo 1024 ((l.take 32).flatMap (padTo 32)) :: ledgerPages n (l.drop 32)

/-- LEDGER_PERSISTENCE: after SAFE_HOLD every mark not yet persisted is written, newest first. -/
def execLedgerPersistence (t : Nat) (s : State) : Host.Outcome State Fault Refusal :=
  s.does t fun s =>
    if !s.asy.persistDue then s
    else
      let s := { s with asy := { s.asy with persistDue := false } }
      let l := s.asy.newest (min s.asy.unpersisted s.asy.cnt)
      if s.nvFenced ∨ s.fenced (srcCode 4 0x006) ∨ l.isEmpty then s
      else
        let s := { s with asy := { s.asy with unpersisted := 0 } }
        s.nvQueue (.ledger s.nv.ledgerPage (ledgerPages 3 l))

/-! ## Device data (20 R798) -/

/-- The generation and validity of an image, and its body (R739). -/
def Nv.imageHead (v : Nv) (b : Bool) : List Byte := v.page (if b then 0x410000 / 1024 else 0x10000 / 1024)

end Sys2Proof.Machine
end

