-- ==== Sys2Proof/Machine/Modes.lean ====
section
/-! DEFINITION. Device modes (18 R733 to R738, R753 to R755): the descriptor MODE, the transitions of Table 18.7, and
what entering a mode does to segments and axes. -/

namespace Sys2Proof.Machine

/-! ## Transitions (Table 18.7) -/

/-- The transitions a MODE may ask for. A follower takes part in its leader's ARMED and RUN and stays in FOLLOW (R738). -/
def modeAllowed : DevMode → DevMode → Bool
  | .commission, .idle => true
  | .idle, .commission => true
  | .idle, .armed => true
  | .armed, .idle => true
  | .armed, .run => true
  | .run, .armed => true
  | .run, .idle => true
  | .degraded, .idle => true
  | .safeHold, .idle => true
  | .follow, .idle => true
  | .follow, .armed => true
  | .follow, .run => true
  | _, _ => false

/-- What R737 asks of a MODE to IDLE from SAFE_HOLD. -/
def State.mayLeaveHold (s : State) : Bool :=
  !s.pw.hold && !s.pw.vsuv && (s.asy.src.all fun x => decide (srcLevel x.1 ≠ 5) || x.2.live.isEmpty) &&
    s.asy.fatal.all fun c => !s.isLive c

/-- MODE of the device at its apply point: an allowed transition waits for the boundary (R735, R737). -/
def fxDevMode (code : Nat) (_ : Ctx) (e : Entry) (s : State) : State :=
  let goal := DevMode.ofCode code
  if !modeAllowed s.pw.mode goal then s.reject e stRejMode
  else if s.pw.mode = .safeHold ∧ ¬ s.mayLeaveHold then s.reject e stRejIncons
  else { s with pw := { s.pw with pendMode := s.pw.pendMode ++ [(s.pw.mode, goal, e.id)] } }

/-- MODE at its apply point. -/
def fxMode (code : Nat) (c : Ctx) (e : Entry) (s : State) : State :=
  if e.tgt = 0xFFFF then fxDevMode code c e s else fxAxisMode code c e s

/-- MODE takes effect. -/
def execMode (t : Nat) (h : DHdr) (code : Nat) (s : State) : Host.Outcome State Fault Refusal :=
  s.does t fun s => s.runDescr h (.mode code) (fxMode code)

/-! ## Segments and axes at rest (R733, R734) -/

/-- A node of a stopped segment: not integrated, with its counters and delays kept; a mute holds (09 R409). -/
def Node.halt (d : Node) : Node :=
  { d with st := .absent, missRun := 0, offended := false, used := none, onA := false, onB := false }

/-- A segment stops: its schedule, its integration and what waits for either. The counters keep their values. -/
def Segment.halt (g : Segment) : Segment :=
  { g with
    ring := .stopped, ringOpen := false, synced := false, cur := {}, prevBank := {}, pmLast := [], train := [], owe := [],
    asked := none, invited := false, claim := none, spareWas := {}, csUntil := none, csDone := false, loser := false,
    listenFrom := none, heard := none,
    mg := none, mgWait := [], use := none, ctSeen := false, viaFollower := false,
    nodes := (g.nodes.map fun e => (e.1, e.2.halt)).filter fun e => decide (e.2 ≠ ({} : Node)) }

/-- A segment stops; its management requests end ABORTED. -/
def State.haltSeg (s : State) (k : Nat) : State :=
  let l := (match (s.seg k).mg with | some r => [r] | none => []) ++ (s.seg k).mgWait
  (l.foldl (fun s r => s.finish r.id stAborted (zeros 8)) s).modSeg k Segment.halt

/-- An axis becomes DISABLED and leaves its source; FAULT ends, retained gears and cams go (R734). Moves end ABORTED; a
STOP under way is DONE, since the axis is at rest (log 30). The zero torque of a stopped TRQ axis stays (R331). -/
def State.quietAxis (s : State) (a : Nat) : State :=
  let ax := s.axis a
  let l := ax.mo.leave stAborted false
  let stops := match ax.mo.stop with | some r => r.ends stDone | none => []
  let s := s.finishAll s.cyc 0 (resultPos ax ax.mo.pStar) (ax.mo.ending ++ endingOf l.2 ++ stops)
  let s := ax.ends.foldl (fun s i => s.finish i stDone (zeros 8)) s
  let s := s.endIdent a stAborted 2
  s.modAxis a fun ax =>
    { ax with mode := .disabled, fault := false, faultBy := [], req := none, heldOpen := false, ends := [],
              mo := { l.1 with retained := none, v := 0, a := 0, stop := none, ending := [] } }

/-- A group's path ends with its members' sources. -/
def State.quietGroup (s : State) (g : Nat) (ig : IGroup) : State :=
  s.endPath g s.cyc 0 stAborted ig

/-- Every hard job of the pool is over: its runs stop without commit, and count under 03 R135. -/
def State.quietPool (s : State) : State :=
  let s := s.modPool fun p => { p with jobs := [], joining := [], stall := [] }
  (List.range 128).foldl (fun s h => (s.endRun h false).modHammer h fun m => { m with resv := none, barred := [] }) s

/-- A device that stops every segment is no longer part of a pair (15 R583). -/
def State.leavePair (s : State) : State :=
  { s with tw := { s.tw with role := .alone, pair := .unpaired, segs := [], tags := [], cpls := [], handover := none,
                             lastTag := [], sent := [], cams := [], mtStepped := false, silent := 0 } }

/-- What entry to IDLE or COMMISSION does (R733, R734). -/
def State.quiesce (s : State) : State :=
  let s := (List.range 8).foldl State.haltSeg s
  let s := s.quietPool
  let s := s.igroups.foldl (fun s e => s.quietGroup e.1 e.2) s
  let s := s.axes.foldl (fun s e => s.quietAxis e.1) s
  s.leavePair.postReady

/-- Every segment whose last COMMIT succeeded starts (R733). -/
def State.startSegs (s : State) : State :=
  (List.range 8).foldl (fun s k => if (s.seg k).commitOk then s.beginListen k else s) s

/-- From RUN to ARMED every CLOSED axis becomes ENABLED (R734). -/
def State.openAll (s : State) : State :=
  s.axes.foldl (fun s e => s.modAxis e.1 fun ax => if ax.mode = .closed then { ax with mode := .enabled } else ax) s

/-- The device enters a mode. -/
def State.enter (s : State) (goal : DevMode) : State :=
  let old := s.pw.mode
  let s := s.setMode goal
  let s := if old = .commission ∧ goal ≠ .commission then { s with sram := [] } else s
  let s := if (old = .commission ∨ old = .idle) ∧ goal ≠ .commission ∧ goal ≠ .idle then s.disarmAll else s
  match goal with
  | .idle => s.quiesce
  | .commission => s.quiesce
  | .armed => if old = .idle then s.startSegs else if old = .run then s.openAll else s
  | _ => s

/-! ## At the major-cycle boundary (R735, R753, R754) -/

/-- A follower acts on its leader's MODE (R738). -/
def State.enterFollowed (s : State) (goal : DevMode) : State :=
  if goal = .idle then s.enter .idle
  else if goal = .armed ∧ s.tw.peerMode = 5 then s.openAll
  else s

/-- The device enters SAFE_HOLD by itself in the core clock of now, though its command waits: a cause is detected, or a mark
with that reaction is released. -/
def State.holdFalls (s : State) : Bool :=
  s.holdComes || (s.meets (fun c => match c with | .markRelease _ => true | _ => false) &&
    s.dueMarks.any fun m => !m.applied && decide (s.releaseCode m = 8))

/-- One waiting transition: taken when the device is still in the mode it was asked in and does not enter SAFE_HOLD now, else
REJ_MODE (R753). -/
def State.takeMode (s : State) (x : DevMode × DevMode × Nat) : State :=
  let s' := s.modEntry x.2.2 fun e => if e.prog.isDone then e else { e with prog := .running s.cyc 0 }
  if s.pw.mode ≠ x.1 ∨ s.holdFalls then s'.finish x.2.2 stRejMode (zeros 8)
  else (if x.1 = .follow then s'.enterFollowed x.2.1 else s'.enter x.2.1).finish x.2.2 stDone (zeros 8)

/-- A segment is halved or stopped by DEGRADE. -/
def State.degraded (s : State) : Bool :=
  (List.range 8).any fun k => decide ((s.seg k).ring ≠ .stopped) && ((s.seg k).halved || (s.seg k).degStop)

/-- DEGRADED is entered and left at the boundary (R642, Table 18.7). -/
def State.degradeMode (s : State) : State :=
  if s.degraded then
    (if s.pw.mode = .armed ∨ s.pw.mode = .run then
      ({ s with pw := { s.pw with degradedFrom := s.pw.mode } }).enter .degraded
    else s)
  else if s.pw.mode = .degraded then s.setMode s.pw.degradedFrom
  else s

/-- The mode step of a major-cycle boundary: the first `k` waiting transitions, whose apply points came before it (R735). -/
def State.modeBoundary (s : State) (k : Nat) : State :=
  let l := s.pw.pendMode
  ((l.take k).foldl State.takeMode { s with pw := { s.pw with pendMode := l.drop k } }).degradeMode

end Sys2Proof.Machine
end

