-- ==== Sys2Proof/Machine/RegMap.lean ====
section
/-! DEFINITION. The map of the registers (19 R756, R757, Tables 19.1, 19.2, 19.7 and the register tables of the blocks):
which block a SET field belongs to, which bits it may hold, whether its block runs, and locked writes (R771 to R773). -/

namespace Sys2Proof.Machine

/-! ## Blocks and masks -/

/-- The host ring whose field lies at an offset. -/
def Reg.ring (off : Nat) : Option Nat :=
  if 0x010100 ≤ off ∧ off < 0x010520 then some ((off - 0x010100) / 0x20) else none

/-- The SET bits of a ring register at a displacement (Table 14.15). -/
def Reg.ringMask (r d : Nat) : Nat :=
  if d = 8 then (if 16 ≤ r ∧ r < 24 then 0x07E0FF1F else 0x07E0001F)
  else if d = 0 ∨ d = 4 ∨ d = 0x10 ∨ d = 0x14 then 0xFFFFFFFF
  else 0

/-- The SET bits of a NET register at a displacement (Tables 08.13, 08.14, 09.6). -/
def Reg.netMask (d : Nat) : Nat :=
  if d = 0 then 0xCF800000 else if d = 4 then 0xFF else if d = 8 then 0x7FF
  else if d = 0x18 ∨ d = 0x1C then 0xFFFFFFFF else if d = 0x20 then 0x00FF800F
  else if 0x100 ≤ d ∧ d < 0x300 then 0xFFFFFFFE
  else if 0x304 ≤ d ∧ d ≤ 0x3A0 then 0xC03F0F7F
  else 0

/-- The SET bits of an FBP register at a displacement (Table 11.7). -/
def Reg.fbpMask (d : Nat) : Nat :=
  if d = 0 then 0xF8FFFF00 else if d = 4 then 0x3FFF else if d = 8 then 0xFFFF3FFF else if d = 0x0C then 0xFFFFFFFF
  else if d = 0x10 then 0xE0FF000F else 0

/-- The SET bits of the host registers outside the rings (Table 14.15). -/
def Reg.hstMask (d : Nat) : Nat :=
  if d = 0 then 0x01E7FFFF else if d = 4 then 0x800003FF else if d = 0x10 ∨ d = 0x18 then 0xFFFFF000
  else if d = 0x14 ∨ d = 0x1C then 0xFFFFFFFF else if 0x40 ≤ d ∧ d < 0x50 then 0xFE07FFFF else 0

/-- The SET bits of the TIM registers (Table 10.6). -/
def Reg.timMask (d : Nat) : Nat :=
  if d = 0 then 0xF else if d = 4 then 0x0FFFFFFF else if d = 8 ∨ d = 0x0C then 0xFFFFFF else if d = 0x10 then 0xFFFF
  else if d = 0x100 ∨ d = 0x120 then 0xFFFFFF else 0

/-- The SET bits of a converter's registers (Table 13.6). -/
def Reg.adcMask (d : Nat) : Nat :=
  if d = 0 then 0xFFFF07FF else if 0x80 ≤ d ∧ d < 0x100 then 0x1F07 else 0

/-- The SET bits of the SCH registers (Table 03.10). -/
def Reg.schMask (d : Nat) : Nat :=
  if d = 0 then 3 else if d = 0x10 then 0x81FFFF01 else if d = 0x14 then 0x03FF03FF else if d = 0x20 then 0x00FFFFFF
  else 0

/-- The block code (Table 19.2; 0 for GLB) and the SET bits of the register at an offset; no SET bits for an undefined
offset, and for SAF, PWR, CLK and NV. ADC_REF belongs to ADC0's set (log 28). -/
def Reg.info (off : Nat) : Nat × Nat :=
  if off = 0x20 then (0, 1)
  else match Reg.ring off with
  | some r => (0x04, Reg.ringMask r ((off - 0x010100) % 0x20))
  | none =>
    if off < 0x010000 then (0, 0)
    else if off < 0x020000 then (0x04, Reg.hstMask (off - 0x010000))
    else if off < 0x030000 then (0x01, Reg.schMask (off - 0x020000))
    else if off < 0x040000 then (0x02, if off = 0x030000 then 0x109 else 0)
    else if off < 0x080000 then (0, 0)
    else if off < 0x090000 then (0x08 + (off - 0x080000) / 0x2000, Reg.netMask ((off - 0x080000) % 0x2000))
    else if off < 0x0C0000 then (0, 0)
    else if off < 0x0D0000 then (0x03, Reg.timMask (off - 0x0C0000))
    else if off < 0x0D0200 then (0x20 + (off - 0x0D0000) / 0x40, Reg.fbpMask ((off - 0x0D0000) % 0x40))
    else if off < 0x0D8000 then (0, 0)
    else if off < 0x0D8200 then
      (0x10 + (off - 0x0D8000) / 0x20, if (off - 0x0D8000) % 0x20 = 0 then 0xF0FFFF07 else 0)
    else if off < 0x0DC000 then (0, 0)
    else if off < 0x0DC100 then (0x30, if (off - 0x0DC000) % 0x10 = 0 ∨ (off - 0x0DC000) % 0x10 = 4 then 0xFFFFFFFF else 0)
    else if off < 0x0E0000 then (0, 0)
    else if off < 0x0E0800 then (0x28 + (off - 0x0E0000) / 0x400, Reg.adcMask ((off - 0x0E0000) % 0x400))
    else if off = 0x0E0800 then (0x28, 1)
    else if off = 0x0F0000 then (0x31, 1)
    else if off = 0x100000 then (0x2A, 7)
    else if 0x100400 ≤ off ∧ off < 0x100800 then (0x2A, 0xF)
    else (0, 0)

/-- The offset is the COMMIT register of a staged block: its code. -/
def Reg.commitOf (off : Nat) : Option Nat :=
  if off = 0x010008 then some 0x04
  else if off = 0x100004 then some 0x2A
  else if 0x080000 ≤ off ∧ off < 0x090000 ∧ (off - 0x080000) % 0x2000 = 0x0C then some (0x08 + (off - 0x080000) / 0x2000)
  else if 0x0D0000 ≤ off ∧ off < 0x0D0200 ∧ (off - 0x0D0000) % 0x40 = 0x14 then some (0x20 + (off - 0x0D0000) / 0x40)
  else if 0x0D8000 ≤ off ∧ off < 0x0D8200 ∧ (off - 0x0D8000) % 0x20 = 4 then some (0x10 + (off - 0x0D8000) / 0x20)
  else if off = 0x0E0004 then some 0x28
  else if off = 0x0E0404 then some 0x29
  else none

/-! ## Whether a block runs (Table 19.1) -/

/-- Some host ring is enabled. -/
def State.anyRing (s : State) : Bool := s.host.rings.any fun e => e.2.on

/-- A staged block runs, by its code; the ring fields of HST have their own test. -/
def State.blockRuns (s : State) (b : Nat) : Bool :=
  if b = 0 then false
  else if b = 0x04 then s.anyRing
  else if 0x08 ≤ b ∧ b < 0x10 then decide ((s.seg (b - 0x08)).ring ≠ .stopped)
  else !s.setup

/-- The block of the SET fields at an offset runs. -/
def State.offRuns (s : State) (off : Nat) : Bool :=
  match Reg.ring off with
  | some r => (s.ringOf r).on
  | none => s.blockRuns (Reg.info off).1

/-- GLB, LAT and TWN hold no staging copies. -/
def unstaged (b : Nat) : Bool := decide (b = 0 ∨ b = 0x30 ∨ b = 0x31)

/-! ## Locked writes (R771 to R773) -/

/-- The source of locked writes. -/
def srcLocked : Nat := srcCode 4 0x002

/-- A locked write is discarded, counted, and marked once per block and major cycle. -/
def State.lockedWrite (s : State) (off v b : Nat) : State :=
  let r := s.regs
  let s := { s with regs := { r with
    lockedSeen := true, lockedCount := (r.lockedCount + 1) % 2 ^ 16, lockedAddr := off % 2 ^ 24 } }
  let key := (srcLocked, 0x18 + 0x100 * b)
  if s.asy.once.contains key then s
  else
    let s := s.raise srcLocked 0x18 off (leBytes 4 v ++ [BitVec.ofNat 8 b])
    { s with asy := { s.asy with once := key :: s.asy.once } }

/-! ## Staging copies (R762, R763, R766) -/

/-- What a read of the SET and CONST fields at an offset returns (R760, R761): the staging copy of a staged block while
GLB_CTL.VIEW is 0, else the value in force; GLB, LAT and TWN hold no staging copies. GLB_SERIAL_LO and GLB_SERIAL_HI show the
device's serial number, or 0 where the device data gave none at BOOT (R798). -/
def State.plainRead (s : State) (off : Nat) : Nat :=
  if off = 0x000008 then (if s.nv.noSerial then 0 else Config.serial % 2 ^ 32)
  else if off = 0x00000C then (if s.nv.noSerial then 0 else Config.serial / 2 ^ 32 % 2 ^ 32)
  else if !bit (s.force 0x20) 0 && !unstaged (Reg.info off).1 then s.stage off else s.force off

/-- A value written to a staging copy. -/
def State.setStage (s : State) (off v : Nat) : State :=
  { s with regs := { s.regs with stage := SMap.insert (SMap.erase s.regs.stage off) off v } }

/-- The staged registers that a block's commit applies: ring fields are applied by ENABLE alone. -/
def State.stagedOf (s : State) (bs : List Nat) : List Nat :=
  (s.regs.stage.filter fun e => (Reg.ring e.1).isNone && bs.contains (Reg.info e.1).1).map fun e => e.1

/-- The staging copies of some blocks go into force and their pending bits clear. -/
def State.takeBlocks (s : State) (bs : List Nat) : State :=
  let s := s.applyOffs (s.stagedOf bs)
  { s with regs := { s.regs with pend := s.regs.pend.filter fun b => !bs.contains b } }

/-- REASON of a block. -/
def State.setReason (s : State) (b c : Nat) : State :=
  { s with regs := { s.regs with reason := SMap.put 0 s.regs.reason b c } }

/-- GLB_STATUS. -/
def State.setGlb (s : State) (reason sub block : Nat) : State :=
  { s with regs := { s.regs with glbReason := reason, glbSub := sub, glbBlock := block } }

/-- DISCARD: the staging copies of every stopped staged block are given up (R766). -/
def State.discard (s : State) : State :=
  { s with regs := { s.regs with
    stage := s.regs.stage.filter fun e => s.offRuns e.1
    pend := s.regs.pend.filter fun b => s.blockRuns b } }

/-- A write of the SET bits of a register: staged, taken at once, or locked. TWN_CTL.EN is judged apart. -/
def State.setWrite (s : State) (off v : Nat) : State :=
  let i := Reg.info off
  let x := v &&& i.2
  if i.2 = 0 then s
  else if s.offRuns off then
    (if x = (if unstaged i.1 then s.force off else s.stage off) then s else s.lockedWrite off v i.1)
  else if unstaged i.1 then s.setForce off x
  else
    let s := s.setStage off x
    if (Reg.ring off).isSome ∨ s.regs.pend.contains i.1 then s
    else { s with regs := { s.regs with pend := i.1 :: s.regs.pend } }

end Sys2Proof.Machine
end

