-- ==== Sys2Proof/Machine/Regs.lean ====
section
/-! DEFINITION. Register writes and commits (19 R758 to R783): the checks of each block's reason table, the dependent
checks, the global commit, register writes with their STICKY and PULSE fields, and the bench SRAM debug window. Every
check is made on a candidate state that holds the staging copies in force. -/

namespace Sys2Proof.Machine

/-! ## NET checks (08 Table 08.10, 02 R58 to R60) -/

/-- Nodes and axes that Table 02.1 allows at a cycle length. -/
def segLimits (l : Nat) : Nat × Nat := if l = 250 then (16, 32) else if l = 500 then (32, 64) else (40, 64)

/-- The used schedule entries of a segment, in index order. -/
def State.usedEntries (s : State) (k : Nat) : List Nat :=
  (List.range 128).filter fun e => decide (schType (s.sched k e) ≠ 0)

/-- The present nodes of a segment. -/
def State.presentNodes (s : State) (k : Nat) : List Nat := nodeAddrs.filter fun j => s.present k j

/-- Two entries that follow each other are at least 2 granules apart. -/
def gapsOk (s : State) (k : Nat) : List Nat → Bool
  | a :: b :: r =>
    decide (schStart (s.sched k a) + schLen (s.sched k a) + 2 ≤ schStart (s.sched k b)) && gapsOk s k (b :: r)
  | _ => true

/-- The gap from the last used entry to the first of the next cycle is at least 2 granules. -/
def State.wrapOk (s : State) (k : Nat) (es : List Nat) : Bool :=
  match es.head?, es.getLast? with
  | some f, some l =>
    decide (schStart (s.sched k l) + schLen (s.sched k l) + 2 ≤ s.segL0 k + schStart (s.sched k f))
  | _, _ => true

/-- SLOT. -/
def State.slotOk (s : State) (k : Nat) (es : List Nat) : Bool :=
  let ct := es.filter fun e => decide (schType (s.sched k e) = 1 ∧ schSender (s.sched k e) = 0)
  decide (ct.length = 1) &&
    es.any (fun e => decide (schType (s.sched k e) = 3 ∧ schSender (s.sched k e) = 0)) &&
    es.all fun e =>
      let w := s.sched k e
      [1, 2, 3, 4, 8].contains (schType w) && decide (schLen w ≠ 0) && decide (schStart w + schLen w ≤ s.segL0 k)

/-- The bytes of the frame an entry must hold, preamble and FCS included; none for an MG entry. -/
def State.entryBytes (s : State) (k e : Nat) : Nat :=
  let w := s.sched k e
  if schType w = 1 then 18 + 8 * (s.netAxes k).length
  else if schType w = 2 then 18 + 12 * bits (s.nodeWord k (schSender w)) 11 8
  else if schType w = 3 ∨ schType w = 4 then 50
  else 0

/-- LENGTH. -/
def State.lengthOk (s : State) (k : Nat) (es : List Nat) : Bool :=
  es.all fun e =>
    decide (s.entryBytes k e * 128 ≤ schLen (s.sched k e) * 1000) &&
      (decide (schType (s.sched k e) ≠ 8) || decide (6 ≤ schLen (s.sched k e)))

/-- SENDER. -/
def State.senderOk (s : State) (k : Nat) (es : List Nat) : Bool :=
  let rp := es.filter fun e => decide (schType (s.sched k e) = 2)
  rp.all (fun e => (s.presentNodes k).contains (schSender (s.sched k e))) &&
    (s.presentNodes k).all (fun j =>
      decide ((rp.filter fun e => decide (schSender (s.sched k e) = j)) = [bits (s.nodeWord k j) 6 0])) &&
    es.all fun e =>
      let w := s.sched k e
      (decide (schType w ≠ 8) || decide (schSender w = 0 ∨ schSender w = 63)) &&
        (!schSpare w || ((s.presentNodes k).contains (schSender w) && s.spare k (schSender w)))

/-- NODE. -/
def State.nodesOk (s : State) (k : Nat) : Bool :=
  let axes := (s.presentNodes k).flatMap fun j => nodeAxesOf k (s.nodeWord k j)
  (s.netAxes k).all (fun a => decide ((axes.filter fun x => decide (x = a)).length = 1)) &&
    axes.all (fun a => (s.netAxes k).contains a) &&
    (s.presentNodes k).all fun j =>
      decide (1 ≤ bits (s.nodeWord k j) 11 8 ∧ bits (s.nodeWord k j) 11 8 ≤ 8)

/-- ORDER (02 R60, 15 R592), with twin operation as `en` says. -/
def State.orderOk (s : State) (k : Nat) (en : Bool) : Bool :=
  let rc := s.segRC k
  let pp := bits (s.force (netOff k 8)) 10 0
  let tct := match findEntry (s.sched k) fun w => decide (schType w = 1) with
    | some e => schStart (s.sched k e)
    | none => 0
  decide (bits (s.force (netOff k 4)) 7 0 ≠ 0 ∧ rc < pp ∧ pp + 4 ≤ s.segL0 k + tct) && (!en || decide (rc + 8 < pp))

/-- The reason code of a NET commit. -/
def State.netReason (s : State) (k : Nat) : Nat :=
  let es := s.usedEntries k
  let lim := segLimits (s.segL0 k)
  if lim.1 < (s.presentNodes k).length ∨ lim.2 < (s.netAxes k).length ∨ 8 < bits (s.force (netOff k 0)) 27 24 then 0x1
  else if !s.slotOk k es then 0x4
  else if !gapsOk s k es ∨ !s.wrapOk k es then 0x5
  else if !s.lengthOk k es then 0x6
  else if !s.senderOk k es then 0x7
  else if !s.nodesOk k then 0x8
  else if !s.orderOk k (bit (s.force 0x0F0000) 0) then 0x2
  else if !s.admitsSeg k then 0x3
  else 0

/-! ## Checks of the other blocks -/

/-- The reason code of an FBP commit (Table 11.5). -/
def State.fbpReason (s : State) (p : Nat) : Nat :=
  let cfg := s.force (fbOff p 0)
  let win := bits (s.force (fbOff p 4)) 13 0
  let sc := s.force (fbOff p 8)
  let dv := s.force (fbOff p 0x0C)
  if bits cfg 31 30 = 3 ∨ bits cfg 19 18 = 3 then 1
  else if win ≠ 0 ∧ (win < 16 ∨ 16000 < win) then 2
  else if bit (s.force (fbOff p 0x10)) 31 = true ∧ (bits dv 31 16 = 0 ∨ bits dv 15 0 = 0 ∨ bits dv 15 0 < bits dv 31 16) then 3
  else if bits cfg 31 30 = 2 ∧ (bits sc 31 24 ≤ bits sc 23 16 ∨ bits sc 13 0 = 0) then 4
  else 0

/-- The reason code of a PUL commit (Table 12.2). -/
def State.pulReason (s : State) (c : Nat) : Nat :=
  let cfg := s.force (pulOff c 0)
  let pm := bits cfg 23 16
  let pw := bits cfg 15 8
  if bits cfg 31 30 = 3 then 1
  else if bits cfg 2 0 / 2 ≠ c / 4 then 2
  else if pw < 8 ∨ pm < 20 ∨ (bits cfg 31 30 = 1 ∧ pm < pw + 8) then 3
  else if !s.admitsSeg (bits cfg 2 0) then 4
  else 0

/-- The entries of a converter's sequence, as SEQ words. -/
def State.seqWords (s : State) (c : Nat) : List Nat :=
  (List.range (bits (s.force (adcOff c 0)) 21 16)).map fun k => s.force (adcOff c (0x80 + 4 * k))

/-- LENGTH of a converter (13 R522). -/
def State.adcFits (s : State) (c : Nat) : Bool :=
  let ctl := s.force (adcOff c 0)
  let slots := (s.seqWords c).foldl (fun n w => n + bits w 2 0 + 1) 0
  let span := if bits ctl 31 30 = 2 then 2000 else s.segL0 (bits ctl 29 27)
  decide (bits ctl 31 30 < 2) || decide (bits ctl 10 0 + 16 * slots ≤ span ∧ bits ctl 10 0 < span)

/-- The reason code of an ADC commit (Table 13.7). -/
def State.adcReason (s : State) (c : Nat) : Nat :=
  let ctl := s.force (adcOff c 0)
  let n := bits ctl 21 16
  let ws := s.seqWords c
  if n = 0 ∨ 32 < n ∨ ws.any (fun w => decide (0x11 < bits w 12 8)) then 1
  else if ws.any (fun w => decide ((8 ≤ bits w 12 8 ∧ bits w 2 0 < 1) ∨ (0x0E ≤ bits w 12 8 ∧ bits w 2 0 < 3))) then 2
  else if !s.adcFits c then 3
  else if 6 ≤ bits ctl 24 22 ∨ (bit ctl 26 = true ∧ bit ctl 25 = true ∧ (s.ringOf (26 + c)).on = false) then 4
  else 0

/-- The 64-bit address of a host page. -/
def State.pageAddr (s : State) (d : Nat) : Nat := s.force (0x010000 + d) + 2 ^ 32 * s.force (0x010004 + d)

/-- POLL of Table 14.13. -/
def State.pollOk (s : State) : Bool :=
  let ctl := s.force 0x010000
  decide (bits ctl 10 0 ≤ 1999) && (!bit ctl 24 || decide (bits ctl 10 0 < s.segL0 (bits ctl 23 21)))

/-- RATE (08 R375): no vector takes more than two firings in a major cycle, every enabled point counted in full. -/
def State.rateOk (s : State) : Bool :=
  (List.range 32).all fun v =>
    decide ((List.range 4).foldl (fun n k =>
      let w := s.force (cpOff k)
      if bit w 31 = true ∧ bits w 29 25 = v then n + 1 + b2n (bit w 30) else n) 0 ≤ 2)

/-- VECTOR (14 R572): no cycle point shares its vector with a ring's messages, by the ring settings in force. -/
def State.vectorOk (s : State) : Bool :=
  (List.range 33).all fun r =>
    let cfg := s.force (ringOff r 8)
    !bit cfg 21 || !(cpVectors s.force).contains (bits cfg 26 22)

/-- The reason code of an HST commit (Table 14.13). -/
def State.hstReason (s : State) : Nat :=
  let db := s.pageAddr 0x10
  let st := s.pageAddr 0x18
  if db = 0 ∨ st = 0 ∨ db = st then 1
  else if !s.pollOk then 2
  else if !s.rateOk then 3
  else if !s.vectorOk then 4
  else 0

/-- The order of reactions from the mildest: NOTE, AXIS_STOP, SEGMENT_STOP, CHANGEOVER, SAFE_HOLD (16 R624). -/
def reactRank (c : Nat) : Nat := if c = 6 then 1 else if c = 7 then 2 else if c = 9 then 3 else if c = 8 then 4 else 0

/-- The reason code of an ASY commit (Table 16.13). -/
def State.asyReason (s : State) : Nat :=
  let react (k : Nat) := bits (s.force (0x100400 + 4 * k)) 3 0
  let ks := List.range 256
  if ks.any (fun k => decide (0xA ≤ react k)) then 1
  else if ks.any (fun k => !kindSelectable k && decide (react k ≠ kindDefault k)) then 2
  else if ks.any (fun k => kindSelectable k && !([0, 6, 7, 8, 9].contains (react k))) then 3
  else if ks.any (fun k => kindSelectable k && decide (2 ≤ kindClass k) &&
      decide (reactRank (react k) < reactRank (kindDefault k))) then 4
  else 0

/-- SCH of Table 19.4. -/
def State.schReason (s : State) : Nat :=
  let w := s.force 0x020014
  if 0x237 < bits w 25 16 ∨ 0x237 < bits w 9 0 then 3 else 0

/-- TIM of Table 19.4. -/
def State.timReason (s : State) : Nat :=
  let ctl := s.force 0x0C0000
  let srv := s.force 0x0C0004
  let act := b2n (bit ctl 2)
  if (bit ctl act = false ∧ bit ctl (1 - act) = true) ∨ bits srv 7 4 < bits srv 3 0 then 4 else 0

/-- The reason code of a block's own checks, by its code. -/
def State.ownReason (s : State) (b : Nat) : Nat :=
  if b = 0x01 then s.schReason
  else if b = 0x03 then s.timReason
  else if b = 0x04 then s.hstReason
  else if 0x08 ≤ b ∧ b < 0x10 then s.netReason (b - 0x08)
  else if 0x10 ≤ b ∧ b < 0x20 then s.pulReason (b - 0x10)
  else if 0x20 ≤ b ∧ b < 0x28 then s.fbpReason (b - 0x20)
  else if b = 0x28 ∨ b = 0x29 then s.adcReason (b - 0x28)
  else if b = 0x2A then s.asyReason
  else 0

/-- The dependent checks of a commit of block `b` that leads from `s` to `c` (Table 19.3): the other block and its
reason code. The capacity rows re-run the admission that the block's own check has run already. -/
def dependent (s c : State) (b : Nat) : Option (Nat × Nat) :=
  if 0x08 ≤ b ∧ b < 0x10 then
    (let k := b - 0x08
     if c.segL0 k = s.segL0 k then none
     else
       let bad (i : Nat) : Bool :=
         decide (bits (c.force (adcOff i 0)) 31 30 = 3 ∧ bits (c.force (adcOff i 0)) 29 27 = k) && !c.adcFits i
       if bad 0 then some (0x28, 3)
       else if bad 1 then some (0x29, 3)
       else if bit (c.force 0x010000) 24 = true ∧ bits (c.force 0x010000) 23 21 = k ∧ c.pollOk = false then some (0x04, 2)
       else none)
  else none

/-! ## Commits (R764 to R770) -/

/-- The candidate of a commit of some blocks: their staging copies in force, segments at their committed cycle. -/
def State.candidate (s : State) (bs : List Nat) : State :=
  bs.foldl (fun s b => if 0x08 ≤ b ∧ b < 0x10 then s.asCommitted (b - 0x08) else s) (s.takeBlocks bs)

/-- What a NET commit does beside its registers: the segment may start (18 R733), what DEGRADE did is over, and axes
that a fence moved are at home again (16 R647). -/
def State.netDone (old s : State) (k : Nat) : State :=
  let s := s.modSeg k fun g => { g with commitOk := true, halvedOnce := false }
  let s := s.modPool fun p => { p with home := p.home.filter fun e => !((s.segAxes k).contains e.1) }
  if (old.seg k).halved then (s.unfence (srcSeg k)).liveOff (srcSeg k) 0x0B else s

/-- What an FBP commit does beside its registers: the divider starts afresh (11 R480), the index may be taken again, a
new mode starts the position anew, and SUP_EN switches the supply (11 R484). -/
def State.fbpDone (old s : State) (p : Nat) : State :=
  let s := s.modPort p fun g => { g with acc := 0, firstTaken := false,
                                         capture := if old.portMode p = s.portMode p then g.capture else none }
  if s.portSup p && !old.portSup p then s.supplyOn p
  else if old.portSup p && !s.portSup p then s.supplyOff p
  else s

/-- What a PUL commit does beside its registers: from OFF, E starts at the commanded position (12 R504). -/
def State.pulDone (old s : State) (c : Nat) : State :=
  if bits (old.force (pulOff c 0)) 31 30 = 0 ∧ bits (s.force (pulOff c 0)) 31 30 ≠ 0 then
    (let e := roundConv (s.axis (512 + c)).mo.p 48
     s.modStep c fun v => { v with e := e, e0 := e, e1 := e })
  else s

/-- What an ADC commit does beside its registers: a new ring length waits for index 0 (13 R533), and the reference buffer
follows EN (13 R525). -/
def State.adcDone (old s : State) (c : Nat) : State :=
  let s := s.modConv c fun v => { v with lenPend := decide (s.ringLen c ≠ v.len), lenAt := s.core + 1 }
  if c ≠ 0 then s
  else if s.refEn = true ∧ old.refEn = false then s.refStart
  else if s.refEn = false then { s with an := { s.an with ready := false } }
  else s

/-- What a TIM commit does beside its registers: domains are turned on or off (10 Table 10.1), and PD_PLANT may go off. -/
def State.timDone (s : State) : State :=
  let s := (s.domEnable 0).domEnable 1
  s.dropDomain 13 s.plantNeeded

/-- What follows a commit that succeeded. -/
def State.blockDone (old s : State) (b : Nat) : State :=
  let s := s.setReason b 0
  if b = 0x03 then s.timDone
  else if b = 0x04 then { s with host := { s.host with commitFailed := false } }
  else if 0x08 ≤ b ∧ b < 0x10 then old.netDone s (b - 0x08)
  else if 0x10 ≤ b ∧ b < 0x20 then old.pulDone s (b - 0x10)
  else if 0x20 ≤ b ∧ b < 0x28 then old.fbpDone s (b - 0x20)
  else if b = 0x28 ∨ b = 0x29 then old.adcDone s (b - 0x28)
  else s

/-- What a failed commit leaves: the old set in force, REASON, and a segment that will not start or rings that will not
enable (18 R733, Table 14.13). -/
def State.blockFailed (s : State) (b c : Nat) : State :=
  let s := s.setReason b c
  if b = 0x04 then { s with host := { s.host with commitFailed := true } }
  else if 0x08 ≤ b ∧ b < 0x10 then s.modSeg (b - 0x08) fun g => { g with commitOk := false }
  else s

/-- The first failing check among the blocks of a commit, with the block: its own code, or 0xF and the other block with
its code. -/
def firstFailure (s c : State) : List Nat → Option (Nat × Nat × Option (Nat × Nat))
  | [] => none
  | b :: r =>
    if c.ownReason b ≠ 0 then some (b, c.ownReason b, none)
    else
      match dependent s c b with
      | some d => some (b, 0xF, some d)
      | none => firstFailure s c r

/-- Commit some stopped blocks as one set; `glb` is what GLB_STATUS shows of an own check that fails, and `shown` the
block it shows after success. -/
def State.commitSet (s : State) (bs : List Nat) (glb : Nat → Nat → Nat × Nat) (shown : Nat) : State :=
  let s := if s.tw.role = .follower then { s with tw := { s.tw with pairBlocked := false } } else s
  let c := s.candidate bs
  match firstFailure s c bs with
  | none => (bs.foldl (fun x b => s.blockDone x b) c).setGlb 0 0 shown
  | some (b, r, none) => (s.blockFailed b r).setGlb (glb b r).1 (glb b r).2 b
  | some (b, r, some d) => (s.blockFailed b r).setGlb 0xF d.2 d.1

/-- GO of a block's own COMMIT register (R764, R770), a locked write while the block runs (R771). -/
def State.commitGo (s : State) (b off : Nat) : State :=
  if s.blockRuns b then s.lockedWrite off 1 b else s.commitSet [b] (fun _ r => (1, r)) b

/-- GLB_COMMIT.GO: SCH, LAW and TIM together (R768). -/
def State.glbGo (s : State) : State :=
  if s.blockRuns 0x01 then s.lockedWrite 0x24 1 0x01 else s.commitSet [0x01, 0x02, 0x03] (fun _ r => (r, 0)) 0x01

/-- GLB_COMMIT.ALL: every pending block as one set (R769). -/
def State.glbAll (s : State) : State :=
  let bs := (List.range 0x30).filter fun b => s.regs.pend.contains b
  match bs.find? fun b => s.blockRuns b with
  | some b => s.setGlb 2 0 b
  | none => s.commitSet bs (fun _ r => (1, r)) 0

/-! ## TWN_CTL (15 R582, R590, R592) -/

/-- The first segment whose set in force leaves no window to a follower. -/
def State.noWindow (s : State) : Option Nat :=
  let c := s.setForce 0x0F0000 1
  (List.range 8).find? fun k => !c.orderOk k true || !c.admitsSeg k

/-- EN written: from 0 to 1 it is judged, and TWIN_RANK sampled; to 0 the device runs alone with rank 0. -/
def State.twnWrite (s : State) (v : Nat) : State :=
  let en := bit (s.force 0x0F0000) 0
  if bit v 0 = en then s
  else if !s.setup then s.lockedWrite 0x0F0000 v 0x31
  else if bit v 0 then
    (match s.noWindow with
     | some k =>
       ({ s with tw := { s.tw with enRej := true } }).raise srcLocked 0x18 0x0F0000
         (leBytes 4 v ++ [0x31, BitVec.ofNat 8 k])
     | none => ({ s with tw := { s.tw with rank := b2n s.tw.ball, enAt := s.now } }).setForce 0x0F0000 1)
  else
    let s := (s.setForce 0x0F0000 0).leavePair
    ({ s with tw := { s.tw with rank := 0, linkLost := false, hbAt := none } }).dropDomain 12 false

/-- REPAIR: pairing ends and may start again (R590, R595). -/
def State.twnRepair (s : State) : State :=
  let t := s.tw
  let segs : SMap TwinSeg := t.segs.map fun e =>
    (e.1, { e.2 with st := .notPaired, misrun := 0, units := [], batch := [], got := [], arrived := [], own := none,
                     peer := none })
  { s with tw := { t with pair := .unpaired, pairBlocked := false, tags := [], lastTag := [], sent := [], cams := [], mtStepped := false,
                          handover := none, segs := segs.filter fun e => decide (e.2 ≠ ({} : TwinSeg)) } }

/-! ## Ring control (14 R551, R552, R577) -/

/-- CTL of a ring is written: DISABLE acts over ENABLE. -/
def State.ringCtl (s : State) (r v : Nat) : State :=
  if bit v 1 then s.ringDisable r else if bit v 0 then s.ringEnable r else s

/-! ## STICKY fields -/

/-- The STICKY bits of a register written 1 are cleared (R759). -/
def State.stickyWrite (s : State) (off v : Nat) : State :=
  if off = 0x2C then
    (if bit v 31 then { s with regs := { s.regs with lockedSeen := false } } else s)
  else if off = 0x01000C then
    (if bit v 19 then { s with host := { s.host with hbSticky := false } } else s)
  else if 0x080000 ≤ off ∧ off < 0x090000 then
    (let k := (off - 0x080000) / 0x2000
     let d := (off - 0x080000) % 0x2000
     if 0x504 ≤ d ∧ d ≤ 0x5A0 ∧ bit v 29 = true then s.modNode k ((d - 0x500) / 4) fun n => { n with drift := false } else s)
  else if 0x0D0000 ≤ off ∧ off < 0x0D0200 then
    (if (off - 0x0D0000) % 0x40 = 0x18 then s.clearPort ((off - 0x0D0000) / 0x40) (v &&& 0x103F00) else s)
  else if 0x0D8000 ≤ off ∧ off < 0x0D8200 then
    (if (off - 0x0D8000) % 0x20 = 8 then s.clearStep ((off - 0x0D8000) / 0x20) (v &&& 7) else s)
  else if off = 0x0E0008 ∨ off = 0x0E0408 then
    s.modConv ((off - 0x0E0000) / 0x400) fun c => { c with full := c.full && !bit v 0, resetRp := c.resetRp && !bit v 1 }
  else if off = 0x0E0804 then
    { s with an := { s.an with ovr := s.an.ovr.filter fun ch => !bit v ch } }
  else if off = 0x0F0004 then
    { s with tw := { s.tw with dual := s.tw.dual && !bit v 22, cfgMis := s.tw.cfgMis && !bit v 21,
                               cmdMis := s.tw.cmdMis && !bit v 20, enRej := s.tw.enRej && !bit v 19 } }
  else if 0x102000 ≤ off ∧ off < 0x10E000 then
    (let l := (off - 0x102000) / 0x2000 + 1
     if bit v 30 then s.modSrc (srcCode l ((off - 0x102000) % 0x2000 / 4)) fun e => { e with sticky := false } else s)
  else s

/-! ## Register writes -/

/-- The PULSE bits of a register. -/
def State.pulseWrite (s : State) (off v : Nat) : State :=
  if off = 0x24 then
    (if bit v 2 then s.discard else if bit v 1 then s.glbAll else if bit v 0 then s.glbGo else s)
  else if off = 0x0F0000 then (if bit v 1 then s.twnRepair else s)
  else
    match Reg.commitOf off with
    | some b => if bit v 0 then s.commitGo b off else s
    | none =>
      match Reg.ring off with
      | some r => if (off - 0x010100) % 0x20 = 0x0C then s.ringCtl r v else s
      | none => s

/-- A 32-bit write to an aligned BAR0 offset below the debug window: every field follows its own kind (R759). -/
def State.regWrite (s : State) (off v : Nat) : State :=
  let s := if off = 0x0F0000 then s.twnWrite v else s.setWrite off v
  (s.stickyWrite off v).pulseWrite off v

/-! ## The bench SRAM debug window (R777 to R779) -/

/-- The offset lies in the debug window. -/
def inWindow (off : Nat) : Bool := decide (0x800000 ≤ off ∧ off < 0x1000000)

/-- The bench whose SRAM a window offset reaches. -/
def windowBench (off : Nat) : Nat := (off - 0x800000) / 0x80000

/-- A write through the window: the word with fresh check bits, spoilt by an armed checker of the bench SRAM. -/
def State.windowWrite (s : State) (off v : Nat) : State :=
  if s.pw.mode = .commission ∧ inWindow off = true ∧ off % 4 = 0 then
    (let src := srcBench (windowBench off)
     let flips := if s.armedFlip src = 1 then 1 else if s.armedFlip src = 3 then 2 else 0
     ({ s with sram := SMap.insert (SMap.erase s.sram off) off ⟨v, flips⟩ }).disarm src)
  else s

/-- The word at a window offset; one that the window has not shown yet is a free value (log 34), which it keeps. -/
def State.windowWord (s : State) (off : Nat) : SramWord × State :=
  match s.sram.lookup off with
  | some w => (w, s)
  | none =>
    let d := s.draw
    let w : SramWord := ⟨toU 32 d.1, 0⟩
    (w, { d.2 with sram := SMap.insert d.2.sram off w })

/-- A mark of an error in bench SRAM, with INJ where an injection caused it. -/
def State.windowMark (s : State) (off kind syn bit axis flips : Nat) : State :=
  let src := srcBench (windowBench off)
  let s := if flips = 0 then s else { s with asy := { s.asy with armed := (src, decide (flips = 2)) :: s.asy.armed } }
  s.raise src kind ((off - 0x800000) % 0x80000)
    (leBytes 2 syn ++ leBytes 1 (if kind = 0x01 then bit else 0xFF) ++ [0] ++ leBytes 2 axis)

/-- A single-bit error is corrected where it stands (01 R22). -/
def State.windowFix (s : State) (off v : Nat) : State :=
  { s with sram := SMap.insert (SMap.erase s.sram off) off ⟨v, 0⟩ }

/-- A read through the window; `ecc` is what the check of the word finds, where no injection decides it. A double-bit
error stops no axis in COMMISSION. -/
def State.windowRead (s : State) (off ecc syn bit axis : Nat) : State :=
  if s.pw.mode = .commission ∧ inWindow off = true ∧ off % 4 = 0 then
    (let w := s.windowWord off
     let s := w.2
     let e := max ecc w.1.flips
     if e = 0 then s.emit (.read off w.1.v)
     else if e = 1 then
       ((s.windowMark off 0x01 syn bit axis w.1.flips).emit (.read off w.1.v)).windowFix off w.1.v
     else (s.windowMark off 0x02 syn bit axis w.1.flips).emit (.read off 0))
  else s.emit (.read off 0)

/-! ## The commands -/

/-- NET_SEG_COMMIT. -/
def execNetSegCommit (t seg : Nat) (s : State) : Host.Outcome State Fault Refusal :=
  s.does t fun s => s.regWrite (netOff seg 0x0C) 1

/-- FBP_COMMIT. -/
def execFbpCommit (t port : Nat) (s : State) : Host.Outcome State Fault Refusal :=
  s.does t fun s => s.regWrite (fbOff port 0x14) 1

/-- PUL_COMMIT. -/
def execPulCommit (t ch : Nat) (s : State) : Host.Outcome State Fault Refusal :=
  s.does t fun s => s.regWrite (pulOff ch 4) 1

/-- ADC_COMMIT. -/
def execAdcCommit (t conv : Nat) (s : State) : Host.Outcome State Fault Refusal :=
  s.does t fun s => s.regWrite (adcOff conv 4) 1

/-- HST_COMMIT. -/
def execHstCommit (t : Nat) (s : State) : Host.Outcome State Fault Refusal := s.does t fun s => s.regWrite 0x010008 1

/-- ASY_COMMIT. -/
def execAsyCommit (t : Nat) (s : State) : Host.Outcome State Fault Refusal := s.does t fun s => s.regWrite 0x100004 1

/-- GLB_COMMIT_GO. -/
def execGlbCommitGo (t : Nat) (s : State) : Host.Outcome State Fault Refusal := s.does t fun s => s.regWrite 0x24 1

/-- GLB_COMMIT_ALL. -/
def execGlbCommitAll (t : Nat) (s : State) : Host.Outcome State Fault Refusal := s.does t fun s => s.regWrite 0x24 2

/-- GLB_COMMIT_DISCARD. -/
def execGlbCommitDiscard (t : Nat) (s : State) : Host.Outcome State Fault Refusal := s.does t fun s => s.regWrite 0x24 4

/-- TWN_ENABLE: a write of EN = 1, with the level of the TWIN_RANK ball. -/
def execTwnEnable (t : Nat) (rankBall : Bool) (s : State) : Host.Outcome State Fault Refusal :=
  s.does t fun s => ({ s with tw := { s.tw with ball := rankBall } }).regWrite 0x0F0000 1

/-- TWN_REPAIR: a write of REPAIR = 1 with EN as it stands. -/
def execTwnRepair (t : Nat) (s : State) : Host.Outcome State Fault Refusal :=
  s.does t fun s => s.regWrite 0x0F0000 (2 + b2n (bit (s.force 0x0F0000) 0))

/-- DEBUG_WINDOW_READ. -/
def execDebugWindowRead (t off ecc syndrome bit axis : Nat) (s : State) : Host.Outcome State Fault Refusal :=
  s.does t fun s => s.windowRead off ecc syndrome bit axis

/-- DEBUG_WINDOW_WRITE. -/
def execDebugWindowWrite (t off : Nat) (v : Word) (s : State) : Host.Outcome State Fault Refusal :=
  s.does t fun s => s.windowWrite off v.toNat

/-- REGISTER_WRITE: an aligned 32-bit write anywhere in BAR0. A write to an undefined offset is ignored (R543). -/
def execRegisterWrite (t off : Nat) (v : Word) (s : State) : Host.Outcome State Fault Refusal :=
  s.does t fun s => if inWindow off then s.windowWrite off v.toNat else if off % 4 = 0 then s.regWrite off v.toNat else s

/-- UNSUPPORTED_REQUEST: an access that BAR0 does not accept is answered so and changes nothing (R543); a read is
answered without data. -/
def execUnsupportedRequest (t : Nat) (isRead : Bool) (off : Nat) (s : State) : Host.Outcome State Fault Refusal :=
  s.does t fun s => s.emit (.unsupported isRead off)

end Sys2Proof.Machine
end

