-- ==== Sys2Proof/Machine/Apply.lean ====
section
/-! DEFINITION. Apply points (02 R64 to R67, R90, R91, R99; 14 R561, R562): which descriptors take effect at a point, in
which order, and their effects. -/

namespace Sys2Proof.Machine

/-- The effect of an operation at its apply point. -/
def applyOp (c : Ctx) (e : Entry) (s : State) : State :=
  match e.op with
  | .nop => fxNop c e s
  | .fence _ _ => fxFence c e s
  | .mode code => fxMode code c e s
  | .moveAbs x => fxMoveAbs x c e s
  | .moveRel d => fxMoveRel d c e s
  | .jog v => fxJog v c e s
  | .stop => fxStop c e s
  | .limits vmax amax dmax destop jmax => fxLimits vmax amax dmax destop jmax c e s
  | .follow ai pos src g lagmax => fxFollow ai pos src g lagmax c e s
  | .gear wait master n m ofs => fxGear wait master n m ofs c e s
  | .camEngage table cont cubic mode master oc b xsw => fxCamEngage table cont cubic mode master oc b xsw c e s
  | .camDisengage hold => fxCamDisengage hold c e s
  | .groupMove f => fxGroupMove f c e s
  | .phaseIn w => fxPhaseIn w c e s
  | .setc index terrace v => fxSetc index terrace v c e s
  | .loadset first terrace vals => fxLoadset first terrace vals c e s
  | .swapset mask => fxSwapset mask c e s
  | .terrace sel n b t1 t2 t3 h => fxTerrace sel n b t1 t2 t3 h c e s
  | .filter changed enable => fxFilter changed enable c e s
  | .learn f => fxLearn f c e s
  | .resample log2n tag => fxResample log2n tag c e s
  | .couple f => fxCouple f c e s
  | .ident f => fxIdent f c e s
  | .camLoad table k sp rise y => fxCamLoad table k sp rise y c e s
  | .axisCfg x => fxAxisCfg x c e s
  | .unmute seg node => fxUnmute seg node c e s
  | .nodeReq seg node fn buf data => fxNodeReq seg node fn buf data c e s
  | .timeStep toDomain x => fxTimeStep toDomain x c e s
  | .timeSelect domain auto => fxTimeSelect domain auto c e s
  | .nvWrite addr buf len data => fxNvWrite addr buf len data c e s
  | .nvRead addr buf len => fxNvRead addr buf len c e s
  | .safetyLoad data => fxSafetyLoad data c e s
  | .safetyConfirm check => fxSafetyConfirm check c e s
  | .inject double src => fxInject double src c e s
  | .unfence src => fxUnfence src c e s
  | .clearLedger => fxClearLedger c e s
  | .clearFlags mask => fxClearFlags mask c e s
  | .trace evt seg compress soft lo hi => fxTrace evt seg compress soft lo hi c e s

/-! ## Points -/

/-- An apply point: that of a segment, that of the device target, the start of a master interval, or a major-cycle
boundary, which serves the time descriptors and what does not run. -/
inductive Point where
  | seg (k : Nat)
  | device
  | masters
  | boundary
  deriving DecidableEq, Repr

/-- TIME_STEP and TIME_SELECT take the boundary (10 R445). -/
def DOp.timed : DOp → Bool
  | .timeStep .. => true
  | .timeSelect .. => true
  | _ => false

/-- A master axis: virtual master or feedback axis. -/
def isMaster (a : Nat) : Bool := decide (528 ≤ a ∧ a < 568)

/-- The apply point that a descriptor takes. -/
def State.pointOf (s : State) (e : Entry) : Point :=
  if DOp.timed e.op then .boundary
  else if isMaster e.tgt then .masters
  else
    match e.seg with
    | some k => if s.segRuns k then .seg k else .boundary
    | none => if s.running.isEmpty then .boundary else .device

/-- The running segment whose apply point of minor cycle 0 comes first, the lower index on a tie: the device target's
descriptors act there. -/
def State.deviceSeg (s : State) : Option Nat :=
  match s.firstRC with
  | some g => s.running.find? fun k => decide (s.applyGran k = g)
  | none => none

/-! ## Due descriptors -/

/-- The phase of an axis passes a value at this point (14 R562). -/
def State.passes (s : State) (a v : Nat) : Bool :=
  let g := (s.axis a).ln
  match g.master, g.phiPrev with
  | some m, some prev =>
    (match s.masterPos m with
    | some p =>
      let d := phaseStep (phaseOf p g.origin g.period) prev
      if 0 < d then (let x := toU 32 ((v : Int) - prev); decide (0 < x ∧ (x : Int) ≤ d))
      else if d < 0 then (let x := toU 32 (prev - v); decide (0 < x ∧ (x : Int) ≤ -d))
      else false
    | none => false)
  | _, _ => false

/-- Cycle (a, i) does not come after (n, m). -/
def notAfter (a i n m : Nat) : Bool :=
  let d := (n + 2 ^ 40 - a) % 2 ^ 40
  decide (d < 2 ^ 39) && (decide (d ≠ 0) || decide (i ≤ m))

/-- The same for a cycle given by its tag. -/
def tagNotAfter (tag i n m : Nat) : Bool :=
  let d := (tagOf n + 2 ^ 24 - tag) % 2 ^ 24
  decide (d < 2 ^ 23) && (decide (d ≠ 0) || decide (i ≤ m))

/-- A waiting descriptor is due at this point of (n, m): it was accepted in an earlier core clock (R99), and its apply
mode, or at a follower its TAG, names this point or an earlier one. -/
def State.isDue (s : State) (n m : Nat) (e : Entry) : Bool :=
  decide (e.accT / 5 < s.core) &&
    (if (decide (s.tw.role = .follower) || e.tagged.isSome) && !opcLocal (opcOf e.op) then
      (match e.tagged with
       | some (tag, i, 0) => tagNotAfter tag i n m
       | _ => false)
     else
      (match e.op with
       | .fence rings waitCpl => !s.fenceHeld e rings waitCpl
       | _ => true) &&
      (match e.due with
       | .next => true
       | .cycle a => decide (m = 0) && notAfter a 0 n 0
       | .phase v => s.passes e.tgt v))

/-- The descriptors that take effect at a point as things stand, in the order of acceptance: one that waits holds back
those behind it in its ring (R90). -/
def State.selectDue (s : State) (ps : List Point) (n m : Nat) : List Nat → List Entry → List Entry
  | _, [] => []
  | held, e :: r =>
    if e.prog ≠ .waiting then s.selectDue ps n m held r
    else if held.contains e.ring then s.selectDue ps n m held r
    else if ps.contains (s.pointOf e) && s.isDue n m e then e :: s.selectDue ps n m held r
    else s.selectDue ps n m (e.ring :: held) r

/-! ## The order of effects at one point -/

/-- An entry put into a list by a key, behind its equals. -/
def insertBy (key : Entry → Nat) (e : Entry) : List Entry → List Entry
  | [] => [e]
  | x :: r => if key e < key x then e :: x :: r else x :: insertBy key e r

/-- A list in the order of a key, equals as they stood. -/
def sortBy (key : Entry → Nat) (l : List Entry) : List Entry := l.foldl (fun acc e => insertBy key e acc) []

/-- The descriptors of one point: those that may take effect as things stand, in ring order and ascending ring number, and
after them those that a FENCE among them frees (R91). -/
def State.gather (s : State) (ps : List Point) (n m : Nat) : Nat → List Entry
  | 0 => []
  | fuel + 1 =>
    match s.selectDue ps n m [] s.host.acc with
    | [] => []
    | e :: r =>
      let l := e :: r
      sortBy (fun e => e.ring) l ++
        (l.foldl (fun s e => s.modEntry e.id fun e => { e with prog := .running n m }) s).gather ps n m fuel

/-- From the first entry that `from_` accepts on, the entries that `pick` accepts go before the rest, in the order of a
key. -/
def hoist (from_ pick : Entry → Bool) (key : Entry → Nat) (l : List Entry) : List Entry :=
  let a := l.takeWhile fun e => !from_ e
  let b := l.dropWhile fun e => !from_ e
  a ++ sortBy key (b.filter pick) ++ b.filter fun e => !pick e


/-- A motion descriptor other than STOP and LIMITS (07 Table 07.1). -/
def DOp.moves (op : DOp) : Bool :=
  match op with
  | .stop => false
  | .limits .. => false
  | _ => motionOpc (opcOf op)

/-- The rank of SWAPSET, LOADSET and SETC among each other (04 R210). -/
def DOp.setRank : DOp → Option Nat
  | .swapset _ => some 0
  | .loadset .. => some 1
  | .setc .. => some 2
  | _ => none

/-- The rank of the LEARN functions among each other (05 R254). -/
def DOp.learnRank : DOp → Option Nat
  | .learn (.master ..) => some 0
  | .learn (.gains ..) => some 1
  | .learn (.shape ..) => some 2
  | .learn .clear => some 3
  | .learn (.mode _) => some 4
  | _ => none

/-- The rank of the COUPLE functions that coincide (05 R256). -/
def DOp.coupleRank : DOp → Option Nat
  | .couple .swap => some 0
  | .couple (.load ..) => some 1
  | .couple .dissolve => some 2
  | _ => none

/-- MODE code 2: the loops of the axis close. -/
def DOp.closes : DOp → Bool
  | .mode 2 => true
  | _ => false

/-- TERRACE. -/
def DOp.isTerrace : DOp → Bool
  | .terrace .. => true
  | _ => false

/-- LIMITS. -/
def DOp.isLimits : DOp → Bool
  | .limits .. => true
  | _ => false

/-- STOP. -/
def DOp.isStop : DOp → Bool
  | .stop => true
  | _ => false

/-- What a target number counts: axes, coupling groups (COUPLE) or interpolation groups (GROUP_MOVE). -/
def DOp.kind : DOp → Nat
  | .couple _ => 1
  | .groupMove _ => 2
  | _ => 0

/-- The unit that a descriptor acts on: the kind of its target and its number. -/
def Entry.unit (e : Entry) : Nat × Nat := (DOp.kind e.op, e.tgt)

/-- DISSOLVE of a coupling group. -/
def DOp.dissolves : DOp → Bool
  | .couple .dissolve => true
  | _ => false

/-- What an order does not cross: AXIS_CFG, which makes the axis anew, and a DEFINE that makes the group anew; of a group
that stands (`stands`) a DEFINE is turned away and parts nothing. -/
def DOp.makesAnew (stands : Bool) : DOp → Bool
  | .axisCfg _ => true
  | .couple (.define ..) => !stands
  | _ => false

/-- The order of the descriptors of one target at one point, where coincidence rules name one (04 R210, R213; 05 R254, R256;
07 R333, R335). -/
def targetOrder (l : List Entry) : List Entry :=
  let rank (r : DOp → Option Nat) (e : Entry) := (r e.op).getD 0
  let has (r : DOp → Option Nat) (e : Entry) := (r e.op).isSome
  let l := hoist (fun e => has DOp.setRank e || DOp.closes e.op) (has DOp.setRank) (rank DOp.setRank) l
  let l := hoist (fun e => DOp.closes e.op) (fun e => DOp.isTerrace e.op) (fun _ => 0) l
  let l := hoist (has DOp.learnRank) (has DOp.learnRank) (rank DOp.learnRank) l
  let l := hoist (has DOp.coupleRank) (has DOp.coupleRank) (rank DOp.coupleRank) l
  let l := hoist (fun e => DOp.moves e.op) (fun e => DOp.isStop e.op) (fun _ => 0) l
  hoist (fun e => DOp.moves e.op || DOp.isStop e.op) (fun e => DOp.isLimits e.op) (fun _ => 0) l

/-- An order of the stretches of a list between the entries that make their unit anew; `stands` says that the unit's
coupling group stands at the list's head. -/
def between (f : List Entry → List Entry) (stands : Bool) : List Entry → List Entry → List Entry
  | acc, [] => f acc.reverse
  | acc, e :: r =>
    if DOp.makesAnew stands e.op then f acc.reverse ++ e :: between f stands [] r
    else between f (stands && !DOp.dissolves e.op) (e :: acc) r

/-- The descriptors of one unit put into the places that its descriptors hold. -/
def putBack (u : Nat × Nat) : List Entry → List Entry → List Entry
  | [], l => l
  | _, [] => []
  | x :: xs, e :: r => if e.unit = u then x :: putBack u xs r else e :: putBack u (x :: xs) r

/-- The units of a list, each once. -/
def targetUnits (l : List Entry) : List (Nat × Nat) := (l.map Entry.unit).eraseDups

/-- Entries in the order of their effects: that of the gathering, but for what the rules name within one unit. -/
def State.effectOrder (s : State) (l : List Entry) : List Entry :=
  (targetUnits l).foldl (fun l u =>
    putBack u (between targetOrder (s.cgroups.lookup u.2).isSome [] (l.filter fun e => decide (e.unit = u))) l) l

/-- Entries take effect one by one in their order, which is found anew after each from the state it leaves. -/
def State.inOrder (f : State → Entry → State) : Nat → List Entry → State → State
  | 0, _, s => s
  | n + 1, l, s =>
    match s.effectOrder l with
    | [] => s
    | e :: r => State.inOrder f n r (f s e)

/-- One descriptor takes effect in (n, m): `jobs` are the axes whose jobs of the cycle are still to come, `stopped` those
on which a stop starts here. A mode that excludes the opcode turns it away (14 R559). A leader tells the follower the
point, and a refusal that the follower cannot see (15 R594). -/
def State.applyEntry (s : State) (n m : Nat) (jobs : List Nat) (st : List Nat) (e : Entry) : State :=
  if s.modeExcludes (opcOf e.op) then ((s.sendTag e stRejMode n m).startEntry e.id n m).reject e stRejMode
  else
    let s := if e.tagged.isNone then s.sendTag e 0 n m else s
    let s := s.startEntry e.id n m
    let s := applyOp { n := n, m := m, job := jobs.contains e.tgt, stopped := st } e s
    match s.entry e.id with
    | some x =>
      (match x.prog with
       | .done c _ _ _ => if c = stRejCap then s.sendTag e c n m else s
       | _ => s)
    | none => s

/-- The axes on which stops start at a point: those of STOP descriptors beside those already begun. -/
def stopTargets (l : List Entry) : List Nat :=
  (l.filter fun e => match e.op with | .stop => true | _ => false).map fun e => e.tgt

/-- Descriptors take effect at a point. -/
def State.applyAll (s : State) (n m : Nat) (jobs stopped : List Nat) (l : List Entry) : State :=
  let st := stopped ++ stopTargets l
  State.inOrder (fun s e => s.applyEntry n m jobs st e) l.length l s

/-- What a point applies. -/
def State.applyPoint (s : State) (ps : List Point) (n m : Nat) (jobs stopped : List Nat) : State :=
  s.applyAll n m jobs stopped (s.gather ps n m (s.host.acc.length + 1))

end Sys2Proof.Machine
end

