-- ==== Sys2Proof/Machine/Cycle.lean ====
section
/-! DEFINITION. The control cycle (02, 08 R368 to R372, 15 R591 to R608): the report-close point with its reports, apply
point and jobs; the pour point. -/

namespace Sys2Proof.Machine

/-! ## The end of the previous cycle's jobs (R17, R78, R101) -/

/-- The next job of a segment's axes becomes ready: what runs of a job still stops, and the job is aborted. A job without
a run names the dispatcher top. -/
def State.overtake (s : State) (j : Job) : State :=
  let hs := s.runsOf j.key
  let since : Option Nat := match hs.head? with
    | some h => (match (s.hammer h).run with | some (.hard r) => some r.since | _ => none)
    | none => none
  let src := match hs.head? with | some h => srcHammer h | none => srcCode 4 0x000
  let s := hs.foldl (fun s h => s.endRun h false) s
  s.abortJob src j (match since with | some t => s.core - t | none => 0)

/-- Every job of a segment that has not completed is aborted, axis jobs first, and the group jobs they let out after them;
an axis that has no record yet gets that of R79. -/
def State.endCycle (s : State) (k : Nat) : State :=
  let mine (s : State) (grp : Bool) : List Job := s.pool.jobs.filter fun j => decide (j.seg = k) &&
    (match j.key with | .axis _ => !grp | .group _ => grp)
  let s := (mine s false).foldl State.overtake s
  let s := (mine s true).foldl State.overtake s
  let b := (s.seg k).cur
  let s := if b.opened then
      ((s.segAxes k).filter fun a => (b.entries.lookup a).isNone).foldl (fun s a => s.recordAbort k b.n b.m a .kept false) s
    else s
  s.resyncSend k

/-! ## Reports that count (R62, R368 to R372; 15 R593) -/

/-- The RP entry of a node. -/
def State.rpEntry (s : State) (k j : Nat) : Option Nat :=
  findEntry (s.sched k) fun w => decide (schType w = 2 ∧ schSender w = j)

/-- The node's report slot is used in minor cycle m (R363). -/
def State.slotUsed (s : State) (k j m : Nat) : Bool :=
  match s.rpEntry k j with
  | some e => decide (m = 0) || !schMaj (s.sched k e)
  | none => false

/-- The follower's channel is channel B (15 Table 15.1): that of the device itself, or of a leader's follower. -/
def State.followB (s : State) : Bool := decide (s.tw.rank = if s.tw.role = .leader then 1 else 0)

/-- A copy of node j was valid on a channel in this cycle. -/
def Node.on (d : Node) (chB : Bool) : Bool := if chB then d.onB else d.onA

/-- The records of node j that count in this cycle, none when its slot is missed. A follower takes what its leader's USE
names (15 R593). -/
def State.counted (s : State) (k j : Nat) : Option (List Byte) :=
  let d := s.node k j
  if d.muted then none
  else
    match s.tw.role, (s.seg k).use with
    | .follower, some (map, recs) =>
      if !bit map (j - 1) then none
      else if d.on s.followB && d.used.isSome then d.used
      else recs.lookup j
    | _, _ => d.used

/-- The nodes whose reports count in this cycle, with their records. -/
def State.allCounted (s : State) (k : Nat) : List (Nat × List Byte) :=
  nodeAddrs.filterMap fun j => (s.counted k j).map fun p => (j, p)

/-- A node at the close of a cycle: its counts (R369, R408) and the marks of the cycle. -/
def Node.close (d : Node) (slot got : Bool) : Node :=
  let missed := d.live && slot && !got
  { d with
    missRun := if got then 0 else if missed then min 255 (d.missRun + 1) else d.missRun
    miss := if missed then (d.miss + 1) % 2 ^ 8 else d.miss
    offence := if got && !d.offended then 0 else d.offence
    bothSeen := d.onA && d.onB, used := none, onA := false, onB := false, badA := false, badB := false, offended := false }

/-- The place of an axis's record among those of a node. -/
def placeOf (l : List Nat) (a : Nat) : Nat := (l.takeWhile fun x => decide (x ≠ a)).length

/-- The report of axis number i of a node (Table 08.4). -/
def reportAt (p : List Byte) (i : Nat) : ReportIn :=
  .valid (fldS p (12 * i) 4) (fldS p (12 * i + 4) 2) (fld p (12 * i + 6) 2) (fld p (12 * i + 8) 2)

/-- p_m of a valid report position before its job has run (04 R159, R160): the position sample of a latch. -/
def Axis.measured (ax : Axis) (pos : Int) : Int :=
  let sh : Int := 2 ^ (16 - ax.set.fbFrac)
  if ax.fb.seen then (sat 64 (ax.fb.pM + toS 32 (toU 32 (pos - ax.fb.repLast)) * sh)).v else toS 32 (toU 32 pos) * sh

/-- What a valid report brings an axis at its close: its sample and FAULT (R352). -/
def State.takeReport (s : State) (k j start a : Nat) (p : List Byte) (i : Nat) : State :=
  let pos := fldS p (12 * i) 4
  let astat := fld p (12 * i + 6) 2
  let ax := s.axis a
  let s := s.pushSample a start (some (ax.measured pos))
  let s := s.modAxis a fun ax => { ax with fb := { ax.fb with repFault := bit astat 12 } }
  if !bit astat 12 then s.liveOff (srcAxis a) 0x42
  else if ax.fb.repFault then s
  else (s.liveOn (srcAxis a) 0x42).raiseNow (srcAxis a) 0x42 (nodeAddr k j) (leBytes 1 (bits astat 5 0))

/-- The close of one node's slot, in the cycle that began at MT `start`. -/
def State.closeNode (s : State) (k m start : Nat) (got : List (Nat × List Byte)) (j : Nat) : State :=
  let slot := s.slotUsed k j m
  let axes := s.nodeAxes k j
  match got.lookup j with
  | some p =>
    let s := if (s.node k j).live then s else s.nodeUp k j
    let s := s.modNode k j fun d => d.close slot true
    let s := (s.liveOff (srcNode k j) 0x41).liveOff (srcNode k j) 0x40
    axes.foldl (fun s a => s.takeReport k j start a p (placeOf axes a)) s
  | none =>
    let live := (s.node k j).live
    let s := s.modNode k j fun d => d.close slot false
    if live && slot then axes.foldl (fun s a => s.pushSample a start none) s else s

/-- What the job of axis a reads of its reports in this cycle (R363, R369, R800). -/
def State.reportOf (s : State) (k a : Nat) (got : List (Nat × List Byte)) : ReportIn :=
  if 512 ≤ a then .valid ((s.stepCh (a - 512)).e0 * 65536) 0 (s.stepStatus (a - 512)) 0
  else
    match s.nodeOf a with
    | none => .kept
    | some j =>
      match got.lookup j with
      | some p => if (s.nodeAxes k j).contains a then reportAt p (placeOf (s.nodeAxes k j) a) else .kept
      | none =>
        let d := s.node k j
        if d.live && (s.axis a).fb.seen && decide (d.missRun ≤ s.staleK k) then .stale else .kept

/-! ## The USE message of a leader (15 Table 15.3) -/

/-- The axis whose value a FOLLOW reads, or the master of a gear or cam; without either, that of a retained one. -/
def Axis.srcMaster (ax : Axis) : Option Nat :=
  match ax.mo.src with
  | .follow f => if f.ai then none else some f.src
  | .eng e => some e.master
  | _ => (match ax.mo.retained with | some e => some e.master | none => none)

/-- The analogue channel that an axis follows. -/
def Axis.analogSrc (ax : Axis) : Option Nat :=
  match ax.mo.src with
  | .follow f => if f.ai then some f.src else none
  | _ => none

/-- USE of a report-close point: the map of counted nodes, the records that the follower may lack, each after its
address, then x of each analogue FOLLOW and E of each step axis after its axis (log 35). -/
def State.sendUse (s : State) (k n m : Nat) (got : List (Nat × List Byte)) : State :=
  if s.leads then
    (let map := got.foldl (fun acc e => acc + 2 ^ (e.1 - 1)) 0
     let recs := got.filter fun e => !(s.node k e.1).on s.followB
     let xs := (s.segAxes k).filterMap fun a => ((s.axis a).analogSrc).map fun c => (a, s.analog c)
     s.sendTwin 0x4 k (tagOf n) m
       (leBytes 5 map ++ recs.flatMap (fun e => leBytes 1 e.1 ++ e.2) ++ xs.flatMap (fun e => leBytes 2 e.1 ++ leInt 2 e.2) ++
         (s.stepAxes k).flatMap fun a => leBytes 2 a ++ leInt 8 (s.stepCh (a - 512)).e0))
  else s

/-! ## RESAMPLE at its swap point (05 R230 to R233) -/

/-- A soft job that the state does not await any more is withdrawn, wherever it stands. -/
def State.withdrawSoft (s : State) (c : SoftClass) : State :=
  let s := s.modPool fun p =>
    { p with soft := (p.soft.map fun e => (e.1, e.2.filter fun j => decide (j.cls ≠ c))).filter fun e => decide (e.2 ≠ []) }
  s.pool.hammers.foldl (fun s e =>
    let s := match e.2.ctx with
      | some (j, _) => if j.cls = c then s.modHammer e.1 fun h => { h with ctx := none } else s
      | none => s
    match e.2.run with
    | some (.soft j _ _) => if j.cls = c then s.freeHammer e.1 else s
    | _ => s) s

/-- A RESAMPLE is over: its scratch table is taken or not, and its descriptor ends with the swap cycle's tag. -/
def State.endResample (s : State) (a : Nat) (r : Resample) (table : Option (SMap Int)) (status : Nat) : State :=
  let s := s.modAxis a fun ax =>
    { ax with ln := { ax.ln with
      resample := none, bins := table.getD ax.ln.bins, log2n := if table.isSome then r.log2n else ax.ln.log2n } }
  (s.startEntry r.id r.swapN 0).finish r.id status (zeros 8)

/-- The swap point of an axis's RESAMPLE. A follower does what its leader has told it. -/
def State.swapPoint (s : State) (n a : Nat) : State :=
  match (s.axis a).ln.resample with
  | none => s
  | some r =>
    if !notAfter r.swapN 0 n 0 then s
    else if s.tw.role = .follower then
      (match r.told with
       | none => s
       | some swap => (s.withdrawSoft (.resample a)).endResample a r (if swap then r.scratch else none)
           (if swap then stDone else stAborted))
    else if r.failed then (s.endResample a r none stFailedHw).tellTwin (.resampleAbort a)
    else
      match r.scratch with
      | some t => (s.endResample a r (some t) stDone).tellTwin (.resampleSwap a)
      | none => ((s.withdrawSoft (.resample a)).endResample a r none stAborted).tellTwin (.resampleAbort a)

/-- The axes of a segment, within its mask or not, whose RESAMPLE runs. -/
def State.resampledOn (s : State) (k : Nat) : List Nat :=
  (s.axes.filter fun x => x.2.ln.resample.isSome && decide (s.segOf x.1 = some k)).map fun x => x.1

/-! ## Jobs of the cycle (R110; 04 R166) -/

/-- No job of a segment runs: its valley is fenced, or DEGRADE stopped it (16 R639). -/
def State.noJobs (s : State) (k : Nat) : Bool := s.fenced (srcValley (valleyOfSeg k)) || (s.seg k).degStop

/-- The analogue value that an axis reads: its own converters', or at a follower its leader's (15 Table 15.5). -/
def State.analogOf (s : State) (k a : Nat) : Int :=
  match (s.axis a).analogSrc with
  | some c => if s.tw.role = .follower then SMap.get 0 (s.twSeg k).x a else s.analog c
  | none => 0

/-- The inputs of axis a's job of a cycle, as they stand after its apply point. -/
def State.jobInput (s : State) (k n m a : Nat) (rep : ReportIn) : JobIn :=
  let ax := s.axis a
  { rep := rep
    phaseM := match ax.ln.master with | some m => s.masterPos m | none => none
    srcM := match ax.srcMaster with | some m => s.masterPos m | none => none
    swM := match ax.mo.switch with | some (e, _) => s.masterPos e.master | none => none
    ai := s.analogOf k a
    closed := s.loopsClosed a
    enable := decide (ax.mode ≠ .disabled) && s.nodeLive a
    estop := s.stopActs k || ax.estops && decide (ax.openAt ≠ some (n, m))
    two := (s.seg k).halved }

/-- p_M of every axis that may be a master on segment k and is valid (05 R217, R218). -/
def State.masterValues (s : State) (k : Nat) : List (Nat × Int) :=
  (s.netAxes k ++ (List.range 40).map (528 + ·)).filterMap fun a => (s.masterPos a).map fun p => (a, p)

/-- The deadline of the jobs of a cycle: its pour point. -/
def State.deadline (s : State) (k : Nat) : Nat := s.core + 50 * (s.segPP k - s.applyGran k)

/-- The axis jobs of (n, m) of segment k join their lists. -/
def State.makeJobs (s : State) (k n m : Nat) (ins : List (Nat × JobIn)) : State :=
  let dl := s.deadline k
  let js := ins.map fun e =>
    { key := JobKey.axis e.1, seg := k, n := n, m := m, deadline := dl, len := s.jobLen (.axis e.1), input := e.2,
      ready := true, listedCopy := 0, hasCopy := false, timeouts := 0 : Job }
  s.modPool fun p => { p with jobs := p.jobs ++ js }

/-- S1 of a cycle in which an axis runs no job: its loops are open, and what ends with open loops ends (04 R166, 07 R797). -/
def State.openAxis (s : State) (n m a : Nat) (i : JobIn) : State :=
  let ax := s.axis a
  let o := s1Open { j := i, p := ax.fb.p, closed := false, two := false, trq := decide (ax.set.kind = .trq), tqSet := 0,
                    noReverse := false, catchK := ax.set.catchK, catchV := 0, cams := [], halt := none } ax.mo
  let s := s.modAxis a fun ax => { ax with mo := o.mo, wasOpen := true }
  (s.axisEvs a n m (resultPos ax ax.fb.p) i.srcM o.ev).endIdent a stAborted 2

/-- A member whose loops are open stops the path of its group at the report-close point, before any member's job of the cycle
(07 R797, 06 R276). -/
def State.openPaths (s : State) (ins : List (Nat × JobIn)) : State :=
  ins.foldl (fun s e => match (s.axis e.1).onPath with
    | some g => if e.2.closed then s else s.stopPath g (s.axis e.1).set.faultPol []
    | none => s) s

/-- A cycle in which an axis has no job: the mould builds its record (16 R639). -/
def State.idleAxis (s : State) (k n m a : Nat) (i : JobIn) : State :=
  let s := s.openAxis n m a i
  let cmd := if 512 ≤ a then [] else estopRecord (s.axisMuted a) false
  s.record k n m a cmd (abortTel (s.axis a) a n m i.rep false)

/-- A stop that a reaction asked for starts at this apply point. -/
def State.startReq (s : State) (a : Nat) : State :=
  match (s.axis a).req with
  | some pol => (s.modAxis a fun ax => { ax with req := none }).beginStop a pol true []
  | none => s

/-! ## A follower's resynchronisation (15 R602 to R605) -/

/-- A learning table of so many bins from its bytes. -/
def tableOf (count : Nat) (b : List Byte) : SMap Int :=
  (List.range count).filterMap fun i => let v := fldS b (4 * i) 4; if v = 0 then none else some (i, v)

/-- An axis from the bytes of a unit, and the bytes after it. The layout of an ASB is a free function (log 32). -/
def State.axisFrom (s : State) (a : Nat) (b : List Byte) : Axis × List Byte :=
  let ax := (Config.asbOf (b.take 4096)).getD (s.axis a)
  let r := b.drop 4096
  if 512 ≤ a then (ax, r)
  else
    let n := 2 ^ ax.ln.log2n
    let ax := { ax with ln := { ax.ln with bins := tableOf n r } }
    let r := r.drop (4 * n)
    match ax.ln.resample with
    | some x =>
      let n := 2 ^ x.log2n
      ({ ax with ln := { ax.ln with resample := some { x with scratch := some (tableOf n r) } } }, r.drop (4 * n))
    | none => (ax, r)

/-- The state with the axes and groups of a unit as its snapshot holds them. -/
def State.putUnit (s : State) (u : TwinUnit) : State :=
  let r := u.axes.foldl (fun (acc : State × List Byte) a =>
    let x := acc.1.axisFrom a acc.2
    (acc.1.setAxis a x.1, x.2)) (s, u.bytes)
  (u.groups.foldl (fun (acc : State × List Byte) g =>
    (match Config.groupOf (acc.2.take 4096) with
     | some c => { acc.1 with cgroups := SMap.insert (SMap.erase acc.1.cgroups g) g c }
     | none => acc.1, acc.2.drop 4096)) r).1

/-- A kept descriptor acts on a unit of these axes and coupling groups. -/
def replayed (axes groups : List Nat) (e : Entry) : Bool :=
  match e.op with
  | .couple _ => groups.contains e.tgt
  | .groupMove _ => true
  | _ => axes.contains e.tgt

/-- One kept cycle is run again on the axes of a unit (R604). -/
def State.replayCycle (s : State) (k : Nat) (axes groups : List Nat) (c : KeptCycle) : State :=
  let l := c.ents.filter (replayed axes groups)
  let s := State.inOrder (fun s e => applyOp { n := c.n, m := c.m, job := true } e s) l.length l s
  let job (key : JobKey) (i : JobIn) : Job :=
    { key := key, seg := k, n := c.n, m := c.m, deadline := 0, len := 0, input := i, ready := false, listedCopy := 0,
      hasCopy := false, timeouts := 0 }
  let s := axes.foldl (fun s a => match c.ins.lookup a with
    | some i => if 512 ≤ a then s.completeStep a (job (.axis a) i) else s.completeAxis a (job (.axis a) i)
    | none => s) s
  groups.foldl (fun s g => match s.job (.group g) with
    | some j => (s.completeGroup g j).dropJob j.key
    | none => s) s

/-- Cycle (n, m) comes after that of a snapshot. -/
def afterSnap (u : TwinUnit) (c : KeptCycle) : Bool := tagNotAfter u.tag u.m c.n c.m && decide (tagOf c.n ≠ u.tag ∨ c.m ≠ u.m)

/-- A unit is installed: its snapshot, run on through the kept cycles after it. Only its own axes and groups are taken
from that run, whose records are discarded. -/
def State.install (s : State) (k : Nat) (u : TwinUnit) : State :=
  let x := s.putUnit u
  let cs := ((s.twSeg k).kept.filter (afterSnap u)).reverse
  let y := cs.foldl (fun s c => s.replayCycle k u.axes u.groups c) { x with pool := { x.pool with jobs := [] } }
  let s := u.axes.foldl (fun s a => s.setAxis a (y.axis a)) s
  let s := u.groups.foldl (fun s g => match y.cgroups.lookup g with
    | some c => { s with cgroups := SMap.insert (SMap.erase s.cgroups g) g c }
    | none => s) s
  s.modTwSeg k fun g => { g with units := g.units.filter fun a => !u.axes.contains a }

/-- A follower that pairs goes on: the next segment is resynchronised, and after the last it follows (R590). -/
def State.pairNext (s : State) : State :=
  if s.tw.role ≠ .follower ∨ s.tw.pair ≠ .pairing then s
  else
    match s.running.find? fun k => decide ((s.twSeg k).st = .resync) || decide ((s.twSeg k).st = .notPaired) with
    | some k => if (s.twSeg k).st = .notPaired then s.startResync k else s
    | none => (({ s with tw := { s.tw with pair := .paired } }).setMode .follow).raise srcTwin 0x63 0 []

/-- A follower at its report-close point: what has arrived is installed; with the last axis a segment in RESYNC is READY
(R603, R605). -/
def State.resyncClose (s : State) (k : Nat) : State :=
  let l := (s.twSeg k).arrived
  let s := if (s.twSeg k).st = .resync then s.modTwSeg k fun g => { g with syncFor := g.syncFor + 1 } else s
  let s := l.foldl (fun s u => s.install k u) (s.modTwSeg k fun g => { g with arrived := [] })
  let g := s.twSeg k
  if g.st = .resync ∧ g.units.isEmpty then
    ((s.modTwSeg k fun g => { g with st := .ready, misrun := 0, own := none, peer := none }).raise srcTwin 0x66 0
      (leBytes 4 g.syncFor)).pairNext
  else s

/-- A TAG names this point or an earlier one and its descriptor has not been accepted (15 R595). -/
def State.tagOverdue (s : State) (k n m : Nat) : Bool :=
  s.tw.tags.any fun x =>
    (decide (x.seg = k) || (decide (x.seg = 0xFF ∧ m = 0) && decide (s.deviceSeg = some k))) && tagNotAfter x.tag x.minor n m

/-- What a follower does at its report-close point before the apply point. -/
def State.followerClose (s : State) (k n m : Nat) : State :=
  if s.tw.role ≠ .follower then s
  else (if s.postsLeaders && s.tagOverdue k n m then s.cmdMismatch else s).resyncClose k

/-- A device of a pair keeps the inputs of a cycle and the descriptors applied in it, for 32 cycles (R604, 01 R23). -/
def State.keepCycle (s : State) (k n m : Nat) (ins : List (Nat × JobIn)) (ents : List Entry) : State :=
  if s.tw.role = .alone ∨ s.tw.pair = .unpaired then s
  else s.modTwSeg k fun g => { g with kept := ({ n := n, m := m, ins := ins, ents := ents } :: g.kept).take 32 }

/-! ## Axes that the twin restores (01 R23) -/

/-- At a report-close point, the lost axes whose units have arrived are installed; without a pair any more the others take
their fault reaction. -/
def State.restoreAxes (s : State) (k : Nat) : State :=
  let g := s.twSeg k
  if g.lost.isEmpty then s
  else if s.tw.pair = .paired then
    let l := g.arrived.filter fun u => u.groups.isEmpty && !u.axes.isEmpty && u.axes.all g.lost.contains
    let s := s.modTwSeg k fun g => { g with arrived := g.arrived.filter fun u => !l.contains u }
    l.foldl (fun s u => (s.install k u).modTwSeg k fun g => { g with lost := g.lost.filter fun a => !u.axes.contains a }) s
  else
    (g.lost.foldl (fun s a => s.axisStop a (srcBench (s.home a)) 0x02) s).modTwSeg k fun g => { g with lost := [] }

/-- The cycle of an axis whose ASB is lost: no job of it runs, and its cycle goes as that of an aborted job (R79, 05 R239). -/
def State.lostAxis (s : State) (k n m a : Nat) (i : JobIn) : State :=
  s.abortAxis a { key := .axis a, seg := k, n := n, m := m, deadline := 0, len := 0, input := i, ready := false, listedCopy := 0,
                  hasCopy := false, timeouts := 0 }

/-! ## REPORT_CLOSE -/

/-- The report-close point of (n, m) of segment k. -/
def State.closeAt (s : State) (k n m : Nat) : State :=
  let start := s.mtBack (s.applyGran k)
  let start := start - start % 125000 + m * s.segL k * 125 / 2
  let s := (s.endCycle k).stopDue k n m
  let s := s.modSeg k fun g => { g with prevBank := g.cur, cur := { n := n, m := m, opened := true, estop := s.stopActs k } }
  let got := s.allCounted k
  let s := s.sendUse k n m got
  let s := nodeAddrs.foldl (fun s j => s.closeNode k m start got j) s
  let s := if m = 0 then (s.resampledOn k).foldl (fun s a => s.swapPoint n a) s else s
  let s := (s.restoreAxes k).followerClose k n m
  let axes := s.segAxes k
  let jobs := if s.noJobs k then [] else axes
  let stopped := axes.filter fun a => (s.axis a).req.isSome
  let ps := .seg k :: (if m = 0 ∧ s.deviceSeg = some k then [.device] else [])
  let ents := s.gather ps n m (s.host.acc.length + 1)
  let s := s.applyAll n m jobs stopped ents
  let s := stopped.foldl State.startReq s
  let ins := (s.segAxes k).map fun a => (a, s.jobInput k n m a (s.reportOf k a got))
  let pms := s.masterValues k
  let s := (s.openPaths ins).modSeg k fun g => { g with cur := { g.cur with ins := ins }, pmLast := pms }
  let s :=
    if s.noJobs k then ins.foldl (fun s e => s.idleAxis k n m e.1 e.2) s
    else
      let lost := (s.twSeg k).lost
      (ins.filter fun e => lost.contains e.1).foldl (fun s e => s.lostAxis k n m e.1 e.2)
        (s.makeJobs k n m (ins.filter fun e => !lost.contains e.1))
  (s.keepCycle k n m ins ents).postReady

/-- REPORT_CLOSE: the report-close point of the segment cycle that it closes (R59, R64; 15 R591). -/
def execReportClose (t seg : Nat) (s : State) : Host.Outcome State Fault Refusal :=
  s.does t fun s =>
    let b := s.mtBack (s.applyGran seg)
    let n := cycOf b
    let m := granOf b / s.segL seg
    let c := (s.seg seg).cur
    if !s.segRuns seg || (c.opened && decide (c.n = n ∧ c.m = m)) then s else s.closeAt seg n m

/-! ## POUR_POINT (R71 to R80) -/

/-- The bits of every record of axis a in a bank's cycle, beside MUTE: ESTOP_LOCAL, ENABLE and BRAKE_REL (04 R207). -/
def Bank.bitsOf (b : Bank) (a : Nat) : Bool × Bool × Bool :=
  match b.ins.lookup a with
  | some i => (i.estop, i.enable, i.closed)
  | none => (false, false, false)

/-- A command record with MUTE as it stands at the pour (04 R207). -/
def withMute (rec_ : List Byte) (mute : Bool) : List Byte :=
  match rec_ with
  | [] => []
  | b :: r => (b &&& 0xEF ||| (if mute then 0x10 else 0)) :: r

/-- The record of an axis in the train of a bank: its command, or a hold record (R72). -/
def State.pourRecord (s : State) (a : Nat) (b : Bank) : List Byte :=
  let x := b.bitsOf a
  let mute := s.axisMuted a
  if b.estop ∨ s.holding then estopRecord mute x.2.2
  else if b.holds a then
    (match b.entries.lookup a with | some e => withMute e.cmd mute | none => [])
  else holdRecord mute (x.1 || x.2.1) x.2.2

/-- The miss record of a hold record (R80): of the axis's job while it has not completed, else of the group job that it waits
for, else of its job that is over. It names the hammer whose run is still in progress. -/
def State.traceMiss (s : State) (k n m a held : Nat) : State :=
  let here (key : JobKey) : Bool := (s.job key).any fun j => decide (j.n = n ∧ j.m = m)
  let key : JobKey :=
    if here (.axis a) then .axis a
    else match s.cgroupOf a with
      | some (g, _) => if here (.group g) then .group g else .axis a
      | none => .axis a
  let h := if here key then (s.runsOf key).head? else none
  let run : Option HardRun := h.bind fun h => match (s.hammer h).run with | some (.hard r) => some r | _ => none
  s.traceAbout 0x7 (h.getD 0xFF) key k n m held (run.any fun r => r.copy) ((run.map fun r => r.dom).getD 0) false

/-- POUR_MISS of a segment carries the number of hold records of the whole major cycle (R80): it is raised at the last pour
point of the major cycle, or at the boundary after it where none comes (log 88). -/
def State.pourMiss (s : State) (k : Nat) : State :=
  let n := (s.seg k).holdsNow
  if n = 0 then s
  else (s.raise (srcMould k) 0x0C 0 (leBytes 4 n)).modSeg k fun g => { g with holdsNow := 0 }

/-- The hold records of a pour: counts and trace records (R80). -/
def State.pourHolds (s : State) (k n m : Nat) (l : List Nat) : State :=
  let s := (l.zip (List.range l.length)).foldl (fun s e => s.traceMiss k n m e.1 (e.2 + 1)) s
  let s := s.modSeg k fun g => { g with holds := (g.holds + l.length) % 2 ^ 32, holdsNow := g.holdsNow + l.length }
  if l.isEmpty then s else s.modPool fun p => { p with statHolds := bump p.statHolds k l.length }

/-- The train builder is fenced: the cycle watchdog sends the train with hold records (R33, R34). -/
def State.cycleWatchdog (s : State) (k held : Nat) : State :=
  let code := if 1 ≤ s.asy.cycWatch then 8 else 0
  let s := { s with asy := { s.asy with cycWatch := s.asy.cycWatch + 1 } }
  let detail := zeros 4 ++ leBytes 1 held
  (s.raiseDone srcWatchdog 0x07 k (if s.withholds 0x07 code then 0 else code) detail).takeReaction srcWatchdog 0x07 k code detail

/-- The targets of the step channels and the torque commands sent follow the records of a pour (04 R79, 12 R502). -/
def State.pourAxis (s : State) (a : Nat) (b : Bank) (sent : Bool) : State :=
  match b.entries.lookup a with
  | some e =>
    if !sent || e.held || e.cmd.isEmpty then (if 512 ≤ a then s.modStep (a - 512) fun c => { c with target := none } else s)
    else if 512 ≤ a then s.modStep (a - 512) fun c => { c with target := some (fldS e.cmd 0 8) }
    else s.modAxis a fun ax => { ax with lastTq := fldS e.tel 24 2 }
  | none => if 512 ≤ a then s.modStep (a - 512) fun c => { c with target := none } else s

/-- The follower covers a segment in whose cycle neither a CT nor a USE of its leader came (15 R606). -/
def State.coverPoint (s : State) (k : Nat) : State :=
  if !s.following then s
  else
    let g := s.seg k
    let cover := !g.ctSeen && g.use.isNone
    let s := if cover && !(s.twSeg k).covered then s.raise srcTwin 0x67 0 [] else s
    (s.modTwSeg k fun g => { g with covered := cover }).modSeg k fun g => { g with use := none, ctSeen := false }

/-- With the train builder fenced, every record that was not released before stands as a hold record (01 R33). -/
def Bank.unreleased (b : Bank) (axes : List Nat) : Bank :=
  let l := b.releasedOf axes
  { b with entries := b.entries.map fun e => if l.contains e.1 then e else (e.1, { e.2 with held := true }) }

/-- The pour point of (n, m) of segment k. What makes a train not released at its pour point the spec leaves open; the model
takes the one cause it names a source for, a fenced mould and train builder (DESIGN CHOICE, log 88). -/
def State.pourAt (s : State) (k n m : Nat) : State :=
  let axes := s.segAxes k
  let wd := s.fenced (srcMould k)
  let s := if wd then s.modBank k n m fun b => b.unreleased axes else s
  let b := s.bank k n m
  let late := wd && !axes.all b.holds
  let recs := (s.netAxes k).map fun a => (a, s.pourRecord a b)
  let absent := if b.estop ∨ s.holding then [] else axes.filter fun a => !b.holds a
  let s := s.pourHolds k n m absent
  let s := axes.foldl (fun s a => s.pourAxis a b (!b.estop || decide (512 ≤ a))) s
  let s := if b.lastRel = 0 then s else
    s.modPool fun p =>
      let x := s.core - b.lastRel + 1
      { p with statSlack := SMap.put 0 p.statSlack k (if SMap.get 0 p.statSlack k = 0 then x else min x (SMap.get 0 p.statSlack k)) }
  let want := (axes.filter (s.telSelected k n m)).length
  let room := s.room (16 + k) want
  let s := if (s.ringOf (16 + k)).on && !room && decide (want ≠ 0) then s.ringDrops (16 + k) want else s
  let s := s.modBank k n m fun c => { c with poured := true, room := room }
  let s := s.modSeg k fun g => { g with train := if late && s.fenced srcWatchdog then [] else recs }
  let s := if late && !s.fenced srcWatchdog then s.cycleWatchdog k absent.length else s
  let s := if m + 1 = 2000 / s.segL k then s.pourMiss k else s
  let s := s.telFlow k n m
  (s.coverPoint k).takeBatch k n m

/-- POUR_POINT: the pour point of the segment cycle that it names in time (R60, R72). -/
def execPourPoint (t seg : Nat) (s : State) : Host.Outcome State Fault Refusal :=
  s.does t fun s =>
    let b := s.mtBack (s.segPP seg)
    let n := cycOf b
    let m := granOf b / s.segL seg
    let c := s.bank seg n m
    if s.segRuns seg && c.opened && !c.poured then s.pourAt seg n m else s

end Sys2Proof.Machine
end

