-- ==== Sys2Proof/Machine/Boundary.lean ====
section
/-! DEFINITION. The master intervals (01 R11, 07 R324, 11 R464) and the major-cycle boundary with everything that waits for
it (02 R64, R67, R89; 10 R443 to R445; 14 R571, R573; 15 Table 15.3; 16 R632, R642, R647; 18 R735). -/

namespace Sys2Proof.Machine

/-! ## MASTER_INTERVAL -/

/-- The value the interval has evaluated for a master so far. -/
def State.evalPos (s : State) (a : Nat) : Option Int :=
  let v := SMap.get ⟨0, false⟩ s.evaluated a
  if v.valid then some v.pos else none

/-- A master axis is evaluated. -/
def State.evalMaster (s : State) (a : Nat) (v : MasterVal) : State :=
  { s with evaluated := SMap.put ⟨0, false⟩ s.evaluated a v }

/-- The inputs of virtual master a: its source is a feedback axis or a virtual master of lower index (07 R324). -/
def State.masterInput (s : State) (a : Nat) : JobIn :=
  { rep := .kept, phaseM := none, srcM := match (s.axis a).srcMaster with | some m => s.evalPos m | none => none,
    swM := none, ai := 0, closed := true, estop := false, enable := true, two := false }

/-- Virtual master a runs its motion for interval i of major cycle n. -/
def State.runMaster (s : State) (n i a : Nat) : State :=
  let ax := s.axis a
  let j := s.masterInput a
  let o := s1 { j := j, p := ax.mo.pStar, closed := true, two := false, trq := false, tqSet := 0,
                noReverse := ax.set.noReverse, catchK := ax.set.catchK, catchV := ax.set.catchV, cams := s.cams, halt := none }
    ax.mo
  let s := s.modAxis a fun ax => { ax with mo := o.mo }
  (s.axisEvs a n i o.ps j.srcM o.ev).evalMaster a ⟨o.ps, true⟩

/-- The virtual masters. -/
def virtualMasters : List Nat := (List.range 32).map fun i => 528 + i

/-- The encoder ports. -/
def fbPorts : List Nat := List.range 8

/-- The captures of an interval: each feedback axis's position and its sample. -/
def State.captureAll (s : State) (start : Nat) : State :=
  fbPorts.foldl (fun s p =>
    let s := s.portCapture p
    let g := s.port p
    s.pushSample (560 + p) start (if g.axisValid then some g.pos else none)) s

/-- The values of the master axes 528 to 567 as the interval has evaluated them. -/
def State.masterVals (s : State) : List MasterVal := (List.range 40).map fun i => SMap.get ⟨0, false⟩ s.evaluated (528 + i)

/-- The payload of MST: each position in 8 bytes, then one validity bit each (15 Table 15.3; log 35). -/
def mstBytes (l : List MasterVal) : List Byte :=
  l.flatMap (fun v => leInt 8 v.pos) ++
    leBytes 5 ((l.zip (List.range l.length)).foldl (fun acc e => acc + b2n e.1.valid * 2 ^ e.2) 0)

/-- The master unit as a source of marks (16 Table 16.3). -/
def srcMaster : Nat := srcCode 4 0x00A

/-- A master interval begins in this core clock, at granule 250 × i (R11, 11 R464), and has not been taken. -/
def State.intervalDue (s : State) : Bool := decide (s.mtQuarter % 62500 / 5 = 0 ∧ s.time.lastInterval ≠ s.core + 1)

/-- MASTER_INTERVAL: interval i of a major cycle begins. The values evaluated in the last interval are posted for this one
(R11). A fenced master unit posts no value: every master 528 to 567 is without one (01 R44). A follower's virtual masters run when its leader's values arrive (15 Table 15.5). -/
def execMasterInterval (t : Nat) (s : State) : Host.Outcome State Fault Refusal :=
  s.does t fun s =>
    if !s.up || !s.intervalDue then s
    else
    let s := { s with time := { s.time with lastInterval := s.core + 1 } }
    if s.fenced srcMaster then { s with posted := [], evaluated := [] }
    else
      let n := s.cyc
      let i := s.gran / 250
      let start := s.mt
      let s := { s with posted := s.evaluated }
      let s := virtualMasters.foldl (fun s a =>
        let v := SMap.get ⟨0, false⟩ s.posted a
        s.pushSample a start (if v.valid then some v.pos else none)) s
      let s := s.captureAll start
      let stopped := virtualMasters.filter fun a => (s.axis a).req.isSome
      let s := s.applyPoint [.masters] n i virtualMasters stopped
      let s := stopped.foldl State.startReq s
      if s.tw.role = .follower then s.postReady
      else
        let s := fbPorts.foldl (fun s p => s.evalMaster (560 + p) ⟨(s.port p).pos, (s.port p).axisValid⟩) s
        let s := virtualMasters.foldl (fun s a => s.runMaster n i a) s
        let s := if s.leads then s.sendTwin 0x5 0xFF (tagOf n) i (mstBytes s.masterVals) else s
        s.postReady

/-! ## What a major cycle counts afresh -/

/-- MARKS_DROPPED for the major cycle that ended; the limits of one mark per major cycle begin afresh (R632, R548). -/
def State.freshCounts (s : State) : State :=
  let n := s.asy.dropped
  let s := { s with asy := { s.asy with written := 0, dropped := 0, once := [], cycWatch := 0 }, pw := { s.pw with retrans := [] } }
  let s := if n = 0 then s else s.raise (srcCode 4 0x00B) 0x1A 0 (leBytes 4 n)
  let s := (List.range 16).foldl (fun s c => s.modConv c fun v => { v with dropNow := 0 }) s
  (List.range 8).foldl (fun s k =>
    let s := if s.segRuns k then s else s.pourMiss k
    s.modSeg k fun g => { g with latest := 0 }) s

/-- Messages withheld in the last major cycle go out, each counting for the new one (14 R573). -/
def State.freshRings (s : State) : State :=
  (List.range 33).foldl (fun s r =>
    let w := (s.ringOf r).withheld
    let s := s.modRing r fun g => { g with sent := w, withheld := false, dropNow := 0 }
    if w then s.sendMsi (bits (s.force (ringOff r 8)) 26 22) else s) s

/-! ## DEGRADE, UNFENCE and rejoins (R642, R646, R647, R660) -/

/-- What waits for the boundary on segment k: a DEGRADE step, an UNFENCE, or both, when the step acts (R660). -/
def State.segBoundary (s : State) (k : Nat) : State :=
  let g := s.seg k
  let s := match g.due, g.restore with
    | some _, some id => (s.modSeg k fun g => { g with restore := none }).finish id stRejCap (zeros 8)
    | none, some id => s.restoreSeg k id
    | _, none => s
  match g.due with
  | some true => s.modSeg k fun g => { g with due := none, halved := true }
  | some false =>
    (s.modSeg k fun g => { g with due := none, degStop := true, stopBy := true, stopAt := none, stopFor := [] }).faultSegment k
      (srcSeg k) 0x0B
  | none => s

/-! ## A leader steps down (15 R609, R613) -/

/-- A leader that hands over, or that a dual leadership puts second, stops sending at this boundary and listens again as a
follower. -/
def State.stepDown (s : State) : State :=
  let s := s.running.foldl (fun s k => s.modSeg k fun g => { g with ring := .integrating, heard := none, train := [] }) s
  let s := s.quietPool
  let s := (List.range 8).foldl (fun s k => s.modTwSeg k fun g => { g with st := .notPaired, covered := false, units := [], batch := [] }) s
  ({ s with tw := { s.tw with role := .follower, pair := .unpaired, handover := none, mtStepped := false, tags := [], cpls := [],
                              lastTag := [], silent := 0, heardNow := true } }).setMode .follow

/-- A handover or a step down that names this boundary. -/
def State.stepDownDue (s : State) : State :=
  if s.tw.role = .leader ∧ s.tw.handover = some s.cyc then s.stepDown else s

/-! ## Statistics (14 Table 14.12) -/

/-- The 32 bytes of a segment's statistics. The least slack of a segment with no cycle is a free value (log 7). -/
def State.statArea (s : State) (n k : Nat) : List Byte × State :=
  let p := s.pool
  let slack := SMap.get 0 p.statSlack k
  let d := s.draw
  let least := if slack = 0 then toU 32 d.1 else slack - 1
  (leBytes 3 (tagOf n) ++ [0] ++ leBytes 4 (SMap.get 0 p.statHolds k) ++ leBytes 4 least ++ leBytes 4 (SMap.get 0 p.statLong k) ++
    leBytes 4 (SMap.get 0 p.statSteal k) ++ leBytes 4 (SMap.get 0 p.statXsteal k) ++ leBytes 4 (SMap.get 0 p.statCopies k) ++
    zeros 4, if slack = 0 then d.2 else s)

/-- Every 64 major cycles the statistics of the window that ends go out as soft jobs, with LAW_CTL.STAT_EN. -/
def State.statBoundary (s : State) (n : Nat) : State :=
  if n % 64 ≠ 0 then s
  else
    let s := if bit (s.force 0x030000) 8 then
        (List.range 8).foldl (fun s k => let x := s.statArea n k; x.2.issueSoft (.stat k x.1)) s
      else s
    s.modPool fun p => { p with statLong := [], statSteal := [], statXsteal := [], statCopies := [], statHolds := [], statSlack := [] }

/-! ## The heartbeat of the pair (15 Table 15.3) -/

/-- TWN_STATUS.ROLE. -/
def Role.code : Role → Nat | .alone => 0 | .leader => 1 | .follower => 2

/-- TWN_STATUS.PAIR. -/
def Pair.code : Pair → Nat | .unpaired => 0 | .pairing => 1 | .paired => 2 | .unsynced => 3

/-- TWN_SEGn.STATE. -/
def TwinSegSt.code : TwinSegSt → Nat | .notPaired => 0 | .ready => 1 | .resync => 2 | .notReady => 3

/-- Δ of the device on a segment it listens on: the arrival on channel B less that on channel A of one SY, in ns, and
-0x8000 while it has not both (15 R584, 09 R411). -/
def State.ownDelta (s : State) (k : Nat) : Int :=
  match (s.seg k).syA, (s.seg k).syB with
  | some a, some b =>
    let d : Int := (b.2 : Int) - a.2
    if a.1 = b.1 ∧ -0x8000 < d ∧ d < 0x8000 then d else -0x8000
  | _, _ => -0x8000

/-- HB at granule 0 of each major cycle. -/
def State.heartbeat (s : State) : State :=
  if s.twinUp then
    s.sendTwin 0x1 0xFF (tagOf s.cyc) 0
      (([s.pw.mode.code, s.tw.role.code, s.tw.rank, s.tw.pair.code].map fun x => BitVec.ofNat 8 x) ++
        (List.range 8).flatMap fun k => leBytes 1 (s.twSeg k).st.code ++ leInt 4 (s.ownDelta k))
  else s

/-- A follower counts the major cycles without its leader (15 R609, R618). -/
def State.silence (s : State) : State :=
  if s.tw.role = .follower then
    { s with tw := { s.tw with silent := if s.tw.heardNow then 0 else min 255 (s.tw.silent + 1), heardNow := false } }
  else s

/-! ## MAJOR_CYCLE_BOUNDARY -/

/-- What the boundary applies on axes whose segment does not run: descriptors, stops asked for, and their ends. -/
def State.restPoint (s : State) (n : Nat) : State :=
  let axes := (List.range 528).filter fun a => match s.segOf a with | some k => !s.segRuns k | none => false
  let stopped := axes.filter fun a => (s.axis a).req.isSome
  let s := s.applyPoint [.boundary] n 0 [] stopped
  let s := stopped.foldl State.startReq s
  let s := (axes.filter fun a => (s.axis a).mo.stop.isSome || !(s.axis a).mo.ending.isEmpty).foldl
    (fun s a => s.openAxis n 0 a (s.jobInput ((s.segOf a).getD 0) n 0 a .kept)) s
  (s.axes.filter fun e => e.2.ln.resample.isSome && axes.contains e.1).foldl (fun s e => s.swapPoint n e.1) s

/-- The time unit at a boundary: a follower's MT is held to its leader's, and only the choice of domain acts (15 R585). -/
def State.timeStepped (s : State) : State :=
  if s.tw.role = .follower then
    let s := s.autoSwitch
    { s with time := { s.time with stepTaken := false, selTaken := false } }
  else if s.fenced srcTimeUnit then s
  else s.timeBoundary

/-- A major cycle begins in this core clock (10 R434), and its boundary has not been taken. -/
def State.boundaryNow (s : State) : Bool := decide (s.majorOffset = 0 ∧ s.time.lastBoundary ≠ s.core + 1)

/-- MAJOR_CYCLE_BOUNDARY: a major cycle begins. -/
def execMajorCycleBoundary (t : Nat) (s : State) : Host.Outcome State Fault Refusal :=
  s.does t fun s =>
    if !s.up || !s.boundaryNow then s
    else
      let s := { s with time := { s.time with lastBoundary := s.core + 1 } }
      let n := s.cyc
      let asked := s.pw.pendMode.length
      let s := s.freshCounts.freshRings
      let s := s.pool.rejoin.foldl State.rejoin s
      let s := s.modPool fun p => { p with rejoin := [] }
      let s := (List.range 8).foldl State.segBoundary s
      let s := s.stepDownDue.restPoint n
      let s := s.timeStepped.modeBoundary asked
      (s.statBoundary n).heartbeat.silence.postReady

end Sys2Proof.Machine
end

