-- ==== Sys2Proof/Machine/Twin.lean ====
section
/-! DEFINITION. The twin link (15): its lanes and heartbeat, pairing, what a follower takes from its leader, and
changeover. Where the spec names the content of a message and not its bytes, the layouts of log 35 serve. -/

namespace Sys2Proof.Machine

/-- A lane of the twin link as a source of marks (16 Table 16.3). -/
def srcLane (l : Nat) : Nat := srcCode 6 (0x001 + l)

/-- The device follows a leader that pairs or is paired with it, over a link that works. -/
def State.hearsLeader (s : State) : Bool := s.twinUp && s.postsLeaders

/-! ## Lanes (R588) -/

/-- A lane is up or down. -/
def Twin.setLane (w : Twin) (lane : Nat) (up : Bool) : Twin := if lane = 0 then { w with lane0 := up } else { w with lane1 := up }

/-- A lane is up. -/
def Twin.laneUp (w : Twin) (lane : Nat) : Bool := if lane = 0 then w.lane0 else w.lane1

/-- TWIN_LANE_DOWN: a lane lost block lock, or 16 messages failed their CRC on it within a major cycle. -/
def execTwinLaneDown (t lane : Nat) (s : State) : Host.Outcome State Fault Refusal :=
  s.does t fun s =>
    if bit (s.force 0x0F0000) 0 && s.tw.laneUp lane then
      ({ s with tw := s.tw.setLane lane false }.liveOn (srcLane lane) 0x60).raise (srcLane lane) 0x60 0 []
    else s

/-- TWIN_LANE_UP: 1 ms of unbroken block lock. -/
def execTwinLaneUp (t lane : Nat) (s : State) : Host.Outcome State Fault Refusal :=
  s.does t fun s =>
    if bit (s.force 0x0F0000) 0 then { s with tw := s.tw.setLane lane true }.liveOff (srcLane lane) 0x60 else s

/-! ## Pairing (R590) -/

/-- The words from one offset to another, each 4 bytes. -/
def wordsFrom (a b : Nat) : List Nat := (List.range ((b - a) / 4)).map fun i => a + 4 * i

/-- The bytes that the pairing check covers: the SET bits in force of every register of SCH, LAW, NET, TIM, FBP, PUL and ADC
that has any, in ascending offset, TIM_CTL.ACTIVE left out, and before them LOG2SIZE, DEC and the masks of every ring; each
word little-endian (R590 names the fields; their order is log 31). -/
def State.pairBytes (s : State) : List Byte :=
  let ring := (List.range 33).flatMap fun r =>
    leBytes 4 (s.force (ringOff r 8) &&& (if 16 ≤ r ∧ r < 24 then 0xFF1F else 0x1F)) ++
      (if 16 ≤ r ∧ r < 24 then leBytes 4 (s.force (ringOff r 0x10)) ++ leBytes 4 (s.force (ringOff r 0x14)) else [])
  let offs := wordsFrom 0x020000 0x020100 ++ [0x030000] ++ wordsFrom 0x080000 0x090000 ++ wordsFrom 0x0C0000 0x0C0200 ++
    wordsFrom 0x0D0000 0x0D0200 ++ wordsFrom 0x0D8000 0x0D8200 ++ wordsFrom 0x0E0000 0x0E0804
  ring ++ offs.flatMap fun off =>
    let mask := (Reg.info off).2
    let mask := if off = 0x0C0000 then mask - (mask &&& 4) else mask
    if mask = 0 then [] else leBytes 4 (s.force off &&& mask)

/-- The pairing check value. -/
def State.pairCrc (s : State) : Nat := crc32c s.pairBytes

/-- The bytes of a cam table in BLK: S, RISE and the points, 8 bytes each, as CAM_LOAD reads them. -/
def Cam.bytes (c : Cam) : List Byte := leInt 8 c.s ++ leInt 8 c.rise ++ c.y.flatMap (leInt 8)

/-- A cam table from its bytes. -/
def camOf (b : List Byte) : Cam :=
  { s := fldS b 0 8, rise := fldS b 8 8, y := (List.range ((b.length - 16) / 8)).map fun i => fldS b (16 + 8 * i) 8 }

/-- The position from which a follower fetches a command ring again: that of the oldest descriptor not completed, else the
controller's own index. -/
def State.oldestPos (s : State) (r : Nat) : Nat :=
  match s.host.acc.find? fun e => decide (e.ring = r) && !e.prog.isDone with
  | some e => e.pos
  | none => (s.ringOf r).own

/-- The indices that a leader sends of one ring, producer and consumer: for a command ring the host's index and the oldest
position not completed, for the others the controller's and the host's (log 35). -/
def State.indicesOf (s : State) (r : Nat) : TwinOut :=
  if r < 8 then .ringIndices r (s.ringOf r).host (s.oldestPos r) else .ringIndices r (s.ringOf r).own (s.ringOf r).host

/-- What a leader sends as pairing begins: the check value, its cam tables, its ring indices, and a TAG of every aligned
descriptor that is not over. -/
def State.pairLead (s : State) : State :=
  let s := { s with tw := { s.tw with pair := .pairing, pairAt := s.now, sent := [] } }
  let s := s.tellTwin (.configCrc s.pairCrc)
  let s := s.cams.foldl (fun s c => s.sendBytes 0xFF (c.1 + 2 ^ 16 * ((c.2.bytes.length + 1023) / 1024)) s.cyc 0 c.2.bytes) s
  let s := (List.range 25).foldl (fun s r => s.tellTwin (s.indicesOf r)) s
  let s := s.host.acc.foldl (fun s e => if e.prog.isDone then s else match e.prog with
    | .running n m => s.sendTag e 0 n m
    | _ => s.tagNew e) s
  match s.running with
  | k :: _ => s.startResync k
  | [] => s

/-- What a follower does as pairing begins. -/
def State.pairFollow (s : State) : State :=
  let segs : SMap TwinSeg := s.tw.segs.map fun e => (e.1, { e.2 with st := .notPaired, covered := false })
  ({ s with tw := { s.tw with pair := .pairing, pairAt := s.now, tags := [], cpls := [], lastTag := [], cams := [],
                              mtStepped := false, segs := segs.filter fun e => decide (e.2 ≠ ({} : TwinSeg)) } }).pairNext

/-- Every started segment is past the state it must have for pairing. -/
def State.ringsIn (s : State) (st : RingSt) : Bool :=
  !s.running.isEmpty && (List.range 8).all fun k => decide ((s.seg k).ring = .stopped ∨ (s.seg k).ring = .halted ∨ (s.seg k).ring = st)

/-- Both devices send HB and neither is paired or barred. -/
def State.mayPair (s : State) : Bool :=
  s.twinUp && s.tw.hbAt.isSome && !s.tw.linkLost && decide (s.tw.pair = .unpaired) && !s.tw.pairBlocked

/-- PAIRING_START: the pairing conditions hold. -/
def execPairingStart (t : Nat) (s : State) : Host.Outcome State Fault Refusal :=
  s.does t fun s =>
    if !s.mayPair then s
    else if s.tw.role = .leader ∧ s.tw.peerRole = 2 ∧ s.ringsIn .running = true then s.pairLead
    else if s.tw.role = .follower ∧ s.tw.peerRole = 1 ∧ s.ringsIn .integrated = true then s.pairFollow
    else s

/-- Pairing ends: what it has gathered goes (R589, R590). -/
def State.unpair (s : State) : State :=
  { s with tw := { s.tw with pair := if s.tw.pair = .unsynced then .unsynced else .unpaired, sent := [], cams := [] } }

/-! ## Heartbeats (R589, Table 15.3) -/

/-- The pairing state that a leader learns from its follower's HB. A follower whose pairing has not begun within two major
cycles has ended it. -/
def State.leaderPair (s : State) (pair : Nat) : Pair :=
  if pair = 2 ∨ pair = 3 then .paired
  else if pair = 1 then .pairing
  else if s.tw.pair = .pairing ∧ s.now < s.tw.pairAt + 1000000 then .pairing
  else .unpaired

/-- A leader's view of one segment follows its follower's. -/
def State.mirrorSeg (s : State) (k st : Nat) : State :=
  let g := s.twSeg k
  if st = 2 then (if g.st = .resync then s else s.startResync k)
  else if st = 1 then
    (if g.st = .resync ∧ ¬ (g.units.isEmpty ∧ g.batch.isEmpty) then s else s.modTwSeg k fun g => { g with st := .ready })
  else if st = 3 then s.modTwSeg k fun g => { g with st := .notReady, units := [], batch := [] }
  else if g.st = .resync then s
  else s.modTwSeg k fun g => { g with st := .notPaired }

/-- What a leader takes from its follower's HB: the state of the pair, and the delays of the follower's place (R584). -/
def State.hbOfFollower (s : State) (pair : Nat) (states : List Nat) (deltas : List Int) : State :=
  let before := s.tw.pair
  let now := if before = .unpaired then .unpaired else s.leaderPair pair
  let s := { s with tw := { s.tw with pair := now } }
  let s := if now = .unpaired then s
    else (List.range 8).foldl (fun s k => if s.segRuns k then s.mirrorSeg k (states.getD k 0) else s) s
  s.running.foldl (fun s k => s.takeDelta k 62 (deltas.getD k (-0x8000))) s

/-- What a follower takes from its leader's HB (R609, R610). -/
def State.hbOfLeader (s : State) (mode : Nat) : State :=
  let s := { s with tw := { s.tw with heardNow := true, silent := 0 } }
  if mode = 4 ∨ mode = 5 then { s with pw := { s.pw with degradedFrom := DevMode.ofCode mode } } else s

/-- TWIN_HB_RECEIVED: a valid HB. -/
def execTwinHbReceived (t mode role rank pair : Nat) (segStates : List Nat) (deltas : List Int) (s : State) :
    Host.Outcome State Fault Refusal :=
  s.does t fun s =>
    if !s.twinUp then s
    else
      let s := { s with tw := { s.tw with hbAt := some s.now, linkLost := false, peerMode := mode, peerRole := role, peerRank := rank,
                                          peerPair := pair, peerSegs := segStates, peerDeltas := deltas } }
      let s := s.liveOff srcTwin 0x61
      if s.tw.role = .leader ∧ role = 2 then s.hbOfFollower pair segStates deltas
      else if s.tw.role = .follower ∧ role = 1 then s.hbOfLeader mode
      else s

/-- The major cycles without the leader at this boundary, the one that ends with it among them. -/
def State.silentAt (s : State) : Nat :=
  if s.boundaryNow then (if s.tw.heardNow then 0 else min 255 (s.tw.silent + 1)) else s.tw.silent

/-- A changeover is due: the clock of now is a boundary, and three major cycles were silent or a HANDOVER names it (R609). -/
def State.changeDue (s : State) : Bool :=
  decide (s.tw.role = .follower) && decide (s.majorOffset = 0) &&
    (decide (3 ≤ s.silentAt) || decide (s.tw.handover = some s.cyc))

/-- TWIN_LINK_LOST: no valid HB for 3 major cycles. A follower's segments become NOT_READY, unless it changes over at this
boundary (R589, R616). -/
def execTwinLinkLost (t : Nat) (s : State) : Host.Outcome State Fault Refusal :=
  s.does t fun s =>
    let late := decide (s.tw.hbAt.getD s.tw.enAt + 1500000 ≤ s.now)
    if !bit (s.force 0x0F0000) 0 || s.tw.linkLost || !late then s
    else
      let s := ({ s with tw := { s.tw with linkLost := true } }.liveOn srcTwin 0x61).raise srcTwin 0x61 0 []
      let s := if s.tw.role = .follower ∧ ¬ s.changeDue then s.notReady s.running else s
      s.unpair.postReady

/-! ## What a follower takes from its leader (R593 to R599) -/

/-- A second TAG of one descriptor, sent when its apply point turned it away. -/
def State.retag (s : State) (e : Entry) (x : Tag) : State :=
  let s := s.modEntry e.id fun e => { e with tagged := some (x.tag, x.minor, x.status) }
  if x.status = 0 then s else s.finish e.id x.status (zeros 8)

/-- TAG_RECEIVED. -/
def execTagReceived (t seg ring pos seq opc crc status tag minor : Nat) (s : State) : Host.Outcome State Fault Refusal :=
  s.does t fun s =>
    if !s.hearsLeader then s
    else
      let x : Tag := { seg := seg, ring := ring, pos := pos, seq := seq, opc := opc, crc := crc, status := status, tag := tag,
                       minor := minor }
      match s.host.acc.find? fun e => decide (e.ring = ring ∧ e.pos = pos) && e.tagged.isSome && decide (e.seq = seq) with
      | some e => (s.retag e x).postReady
      | none =>
        let s := { s with tw := { s.tw with tags := s.tw.tags ++ [x],
                                            lastTag := SMap.insert (SMap.erase s.tw.lastTag ring) ring ((pos + 1) % 2 ^ 32) } }
        s.matchTags.postReady

/-- CPL_RECEIVED: the record is posted as the follower's own when the ring's order lets it out. -/
def execCplReceived (t ring pos : Nat) (record : List Byte) (s : State) : Host.Outcome State Fault Refusal :=
  s.does t fun s =>
    if s.hearsLeader then ({ s with tw := { s.tw with cpls := s.tw.cpls ++ [(ring, pos, record)] } }).postReady else s

/-- E of a step axis at a follower (R599, 12 R505). -/
def StepCh.follow (c : StepCh) (e : Int) : StepCh := { c with e1 := c.e0, e0 := e, e := e }

/-- USE_RECEIVED: it counts in its own segment cycle. -/
def execUseReceived (t seg tag minor map : Nat) (records : List (Nat × List Byte)) (x e : List (Nat × Int)) (s : State) :
    Host.Outcome State Fault Refusal :=
  s.does t fun s =>
    if s.hearsLeader && decide (tagOf s.cyc = tag ∧ s.minor seg = minor) then
      let s := s.modSeg seg fun g => { g with use := some (map, records) }
      let s := s.modTwSeg seg fun g =>
        { g with x := x.foldl (fun m v => SMap.put 0 m v.1 v.2) g.x, e := e.foldl (fun m v => SMap.put 0 m v.1 v.2) g.e }
      e.foldl (fun s v => s.modStep (v.1 - 512) fun c => c.follow v.2) s
    else s

/-- The master values of a list, put into the evaluation of the interval. -/
def State.takeVals (s : State) (vals : List MasterVal) : State :=
  (vals.zip (List.range vals.length)).foldl (fun s v => s.evalMaster (528 + v.2) v.1) s

/-- MST_RECEIVED: the leader's master values serve; the follower's own masters run on the same sources, and its feedback axes
stand where its leader's do, over their own last captures (Table 15.5). -/
def execMstReceived (t : Nat) (vals : List MasterVal) (s : State) : Host.Outcome State Fault Refusal :=
  s.does t fun s =>
    if !s.hearsLeader then s
    else
      let vals := vals.take 40
      let s := s.takeVals vals
      let s := virtualMasters.foldl (fun s a => s.runMaster s.cyc (s.gran / 250) a) s
      let s := s.takeVals vals
      let s := fbPorts.foldl (fun s p => match vals[32 + p]? with
        | some v => s.modPort p fun g => { g with pos := v.pos }
        | none => s) s
      s.postReady

/-- DIG_RECEIVED. -/
def execDigReceived (t seg tag minor digest : Nat) (s : State) : Host.Outcome State Fault Refusal :=
  s.does t fun s =>
    if s.twinUp && decide (s.tw.pair = .paired) then
      (s.modTwSeg seg fun g => { g with peer := some (tag, minor, digest) }).digestCompare seg
    else s

/-- Status of an identification's end (05 Table 05.11). -/
def identStatus (reason : Nat) : Nat := if reason = 0 then stDone else if reason = 4 then stFailedHw else stAborted

/-- An identification ends as the leader's did (R596). -/
def State.identAs (s : State) (a reason : Nat) : State := s.identOver a (identStatus reason) reason

/-- The indices of a ring become the leader's; a command ring is fetched again (R590). -/
def State.takeIndices (s : State) (r p c : Nat) : State :=
  if r < 8 then
    let s := { s with host := { s.host with acc := s.host.acc.filter fun e => decide (e.ring ≠ r) } }
    let s := s.modRing r fun g => { g with own := c, host := p, fetched := 0 }
    s.statusWrite (ringStatusOff r) (leBytes 4 c)
  else (s.modRing r fun g => { g with own := p, host := c }).statusWrite (ringStatusOff r) (leBytes 4 p)

/-- The pairing check values differ (R590). -/
def State.cfgMismatch (s : State) : State :=
  let s := { s with tw := { s.tw with cfgMis := true, pairBlocked := true, pair := .unpaired } }
  ((List.range 8).foldl (fun s k => s.modTwSeg k fun g => { g with st := .notPaired, units := [], got := [], arrived := [] }) s).raise
    srcTwin 0x62 0 []

/-- One outcome of the leader is adopted (Table 15.4). -/
def State.adopt (s : State) (o : TwinOut) : State :=
  match o with
  | .configCrc c => if s.tw.pair = .pairing ∧ c ≠ s.pairCrc then s.cfgMismatch else s
  | .degradeHalve k => s.degradeAs k true
  | .degradeStop k => s.degradeAs k false
  | .resampleSwap a => s.modAxis a fun ax => { ax with ln := { ax.ln with
      resample := match ax.ln.resample with | some r => some { r with told := some true } | none => none } }
  | .resampleAbort a => s.modAxis a fun ax => { ax with ln := { ax.ln with
      resample := match ax.ln.resample with | some r => some { r with told := some false } | none => none } }
  | .identEnd a reason => s.identAs a reason
  | .axisFault a cause => s.axisStop a srcTwin cause
  | .safeHold => { (s.holdAxes srcTwin 0) with tw := { s.tw with peerMode := 7 } }
  | .handover n => { s with tw := { s.tw with handover := some n } }
  | .ringIndices r p c => s.takeIndices r p c

/-- OUT_RECEIVED. -/
def execOutReceived (t : Nat) (o : TwinOut) (s : State) : Host.Outcome State Fault Refusal :=
  s.does t fun s => if s.hearsLeader then (s.adopt o).postReady else s

/-- EVT_RECEIVED: the leader's mark goes to the event ring (R598). -/
def execEvtReceived (t : Nat) (mark : List Byte) (s : State) : Host.Outcome State Fault Refusal :=
  s.does t fun s => if s.hearsLeader && s.following then s.post 24 (padTo 32 mark) else s

/-! ## BLK and REQ (R587, R590, R603) -/

/-- A piece joins a unit; one of another snapshot begins it afresh. -/
def TwinPart.add (p : TwinPart) (ident tag m off : Nat) (data : List Byte) : TwinPart :=
  let p := if p.ident = ident ∧ p.tag = tag ∧ p.m = m then p else { ident := ident, tag := tag, m := m }
  { p with got := SMap.insert (SMap.erase p.got (off / 1024)) (off / 1024) data }

/-- Every piece has arrived. -/
def TwinPart.whole (p : TwinPart) : Bool := decide (p.got.length = bits p.ident 31 16)

/-- The bytes of a unit. -/
def TwinPart.bytes (p : TwinPart) : List Byte := p.got.flatMap fun e => e.2

/-- A piece of a cam table; a table that is whole enters the cam store. -/
def State.blkCam (s : State) (ident tag m off : Nat) (data : List Byte) : State :=
  let c := ident % 2 ^ 16
  let p := (SMap.get {} s.tw.cams c).add ident tag m off data
  if p.whole then
    { s with cams := SMap.insert (SMap.erase s.cams c) c (camOf p.bytes), tw := { s.tw with cams := SMap.erase s.tw.cams c } }
  else { s with tw := { s.tw with cams := SMap.put {} s.tw.cams c p } }

/-- A piece of a unit of segment k; a whole unit waits for the report-close point. -/
def State.blkUnit (s : State) (k ident tag m off : Nat) (data : List Byte) : State :=
  let h := ident % 2 ^ 16
  s.modTwSeg k fun g =>
    let p := (SMap.get {} g.got h).add ident tag m off data
    if p.whole then
      { g with got := SMap.erase g.got h,
               arrived := g.arrived ++ [{ axes := identAxes k ident, groups := identGroups ident, tag := tag, m := m, bytes := p.bytes }] }
    else { g with got := SMap.put {} g.got h p }

/-- BLK messages come from the leader, and from the follower where they restore an ASB (01 R23). -/
def State.takesBlk (s : State) (seg : Nat) : Bool := s.hearsLeader || (s.twinUp && !(s.twSeg seg).lost.isEmpty)

/-- BLK_RECEIVED: a piece of a unit or a cam table; a bad CRC asks for it again. -/
def execBlkReceived (t seg unit tag minor off : Nat) (crcOk : Bool) (data : List Byte) (s : State) :
    Host.Outcome State Fault Refusal :=
  s.does t fun s =>
    if !s.takesBlk seg then s
    else if !crcOk then
      ({ s with tw := { s.tw with crcErr := (s.tw.crcErr + 1) % 2 ^ 16 } }).sendTwin 0xA seg tag minor (leBytes 4 off)
    else if seg = 0xFF then s.blkCam unit tag minor off data
    else s.blkUnit seg unit tag minor off data

/-- The one-axis unit of an axis that the other device has lost, as it stands (15 Table 15.6). -/
def State.sendAxisUnit (s : State) (a : Nat) : State :=
  match s.segOf a with
  | some k =>
    let b := (s.seg k).cur
    ({ s with tw := { s.tw with sent := [] } }).sendBytes k (unitIdent k (s.axisLen a) [a] []) b.n b.m (s.axisBytes a)
  | none => s

/-- REQ_RECEIVED: every BLK of the newest batch at that offset is sent again (log 35); an offset of 0x8000_0000 plus an axis
asks for that axis's unit (log 89). -/
def execReqReceived (t off : Nat) (s : State) : Host.Outcome State Fault Refusal :=
  s.does t fun s =>
    if !s.twinUp then s
    else if 0x80000000 ≤ off then
      (if decide (s.tw.pair = .paired) && decide (off - 0x80000000 < 528) then s.sendAxisUnit (off - 0x80000000) else s)
    else if s.leads || !s.tw.sent.isEmpty then
      (s.tw.sent.filter fun b => decide (b.off = off)).foldl (fun s b =>
        { (s.sendTwin 0x9 b.seg (tagOf b.n) b.m b.payload) with tw := { s.tw with resent := (s.tw.resent + 1) % 2 ^ 16 } }) s
    else s

/-! ## Changeover (R609 to R611) -/

/-- The mode a follower takes from its leader's last HB. -/
def State.leaderMode (s : State) : DevMode :=
  if s.tw.peerMode = 5 then .run else if s.tw.peerMode = 6 then .degraded else if s.tw.peerMode = 7 then .safeHold else .armed

/-- A waiting descriptor without a TAG counts as accepted at the boundary; one whose cycle has passed is late. -/
def State.reaccept (s : State) (e : Entry) : State :=
  if e.prog ≠ .waiting ∨ e.tagged.isSome then s
  else
    let s := s.modEntry e.id fun e => { e with accN := s.cyc, accT := s.now }
    match e.due with
    | .cycle n => if decide (n ≠ s.cyc) && notAfter n 0 s.cyc 0 then s.reject e stRejLate else s
    | _ => s

/-- A segment's full schedule runs from this boundary, with the ring open; one that is not READY stops. -/
def State.leadSeg (s : State) (k : Nat) : State :=
  let ready := decide ((s.twSeg k).st = .ready)
  let s := s.modSeg k fun g => { g with ring := .running, synced := true, firstSyN := s.cyc, viaFollower := true, use := none, ctSeen := false }
  let s := s.openRing k
  let s := if ready then s else s.segmentStop k srcTwin 0x68
  s.modTwSeg k fun g => { g with st := .notPaired, covered := false, units := [], got := [], arrived := [], kept := [] }

/-- A leader's completion that has arrived stays a descriptor's own, though its place in the ring has not come (R610). -/
def State.keepCpl (s : State) (e : Entry) : State :=
  if s.tw.cpls.any fun c => decide (c.1 = e.ring ∧ c.2.1 = e.pos) then
    match s.recordOf e with
    | some r => s.modEntry e.id fun e => { e with prog := .done (byteAt r 2) (fld r 4 3) (byteAt r 7) (r.drop 8) }
    | none => s
  else s

/-- The follower becomes leader. -/
def State.changeOver (s : State) : State :=
  let s := s.host.acc.foldl State.keepCpl s
  let hold := decide (s.tw.pair = .unsynced) || decide (s.leaderMode = .safeHold)
  let segs := (List.range 8).filter fun k => decide ((s.seg k).ring = .integrated)
  let s := { s with tw := { s.tw with role := .leader, pair := .unpaired, handover := none, silent := 0, tags := [], cpls := [],
                                      lastTag := [], sent := [] } }
  let s :=
    if hold then
      let s := (s.holdAxes srcTwin 0x68).setMode .safeHold
      { s with asy := { s.asy with persistDue := s.asy.persistDue || bit (s.force 0x100000) 0 } }
    else s.setMode s.leaderMode
  let s := segs.foldl State.leadSeg s
  let s := s.raise srcTwin 0x68 0 []
  let s := s.host.acc.foldl State.reaccept s
  s.postReady

/-- CHANGEOVER: three silent major cycles, or the boundary that a HANDOVER names. -/
def execChangeover (t : Nat) (s : State) : Host.Outcome State Fault Refusal :=
  s.does t fun s => if s.changeDue then s.changeOver else s

/-! ## Split brain (R613) -/

/-- TWIN_DUAL_LEADER: both devices run schedules while HB passes; the device of rank 1 steps down at the next boundary. -/
def execTwinDualLeader (t : Nat) (s : State) : Host.Outcome State Fault Refusal :=
  s.does t fun s =>
    if s.tw.role = .leader ∧ s.tw.peerRole = 1 ∧ s.tw.hbAt.isSome = true ∧ ¬ s.tw.linkLost ∧ ¬ s.running.isEmpty then
      let s := s.raise srcTwin 0x69 0 []
      if s.tw.rank = 1 then
        { s with tw := { s.tw with dual := true, handover := some ((s.cyc + 1) % 2 ^ 40) } }
      else s
    else s

end Sys2Proof.Machine
end

