-- ==== Sys2Proof/Machine/Power.lean ====
section
/-! DEFINITION. The package supervisor (18 R720 to R731; 01 R37, R40): rails, thresholds, temperatures, clocks, power
domains and RESET; BOOT (R739 to R746); and the TAP (20 R793). -/

namespace Sys2Proof.Machine

/-! ## Rails (Table 18.1) -/

/-- A rail by the position of its GOOD bit above bit 16 of PWR_STATUS. -/
def Rail.ofCode (c : Nat) : Rail :=
  match c with
  | 0 => .vaon | 1 => .vio | 2 => .vafe | 3 => .v1p0 | 4 => .vcore | 5 => .venc5 | 6 => .venc3 | 7 => .vsa | _ => .vsb

/-- The index of a rail among the sources of level 5 (16 Table 16.3); 0 for the rails that are no source. -/
def Rail.index : Rail → Nat
  | .vcore => 0x010 | .v1p0 => 0x011 | .vafe => 0x012 | .vio => 0x013 | .venc5 => 0x014 | .venc3 => 0x015
  | _ => 0

/-- A rail as a source of marks. -/
def srcRail (r : Rail) : Nat := srcCode 5 r.index

/-- The rails of the sequence, in its order (R721). -/
def railOrder : List Rail := [.vio, .vafe, .v1p0, .vcore]

/-- The rail after one in the sequence. -/
def Rail.next : Rail → Option Rail
  | .vio => some .vafe | .vafe => some .v1p0 | .v1p0 => some .vcore | _ => none

/-- Change the supervisor. -/
def State.modPw (s : State) (f : Power → Power) : State := { s with pw := f s.pw }

/-- A rail is good, or is not. -/
def Power.setRail (p : Power) (r : Rail) (good : Bool) : Power :=
  let l := p.railsGood.filter fun x => decide (x ≠ r)
  { p with railsGood := if good then l ++ [r] else l }

/-- Every rail of the sequence is good. -/
def Power.sequenced (p : Power) : Bool := railOrder.all p.railsGood.contains

/-! ## Power domains (Table 18.4) -/

/-- The domains that follow the rails of the sequence; no valley is off through VAL_PWROFF, which is 0 after RESET. -/
def railDomains : List Nat := [3, 4, 5, 6, 7, 8, 9, 10, 11]

/-- A domain comes up. -/
def Power.domainUp (p : Power) (d : Nat) : Power :=
  { p with domains := if p.domains.contains d then p.domains else p.domains ++ [d] }

/-- The rails of the sequence are good: the domains they feed come up, and with PD_IO the reference buffer (13 R525). -/
def State.powerUp (s : State) : State :=
  let s := s.modPw fun p => railDomains.foldl Power.domainUp p
  if s.refEn then s.refStart else s

/-- From RESET to BOOT, once VIN and the rails of the sequence are good and VHOLD does not hold (Table 18.7). -/
def State.mayBoot (s : State) : State :=
  if s.pw.mode = .reset ∧ s.pw.sequenced ∧ ¬ s.pw.hold ∧ ¬ s.pw.vrst then s.powerUp.setMode .boot
  else if s.pw.mode = .boot ∧ s.pw.sequenced then s.powerUp
  else s

/-- POWER_DOMAIN_UP: a domain that is to be on comes up (R730). -/
def execPowerDomainUp (t domain : Nat) (s : State) : Host.Outcome State Fault Refusal :=
  s.does t fun s =>
    let due : Bool :=
      if s.pw.mode = .reset ∨ s.pw.domains.contains domain = true then false
      else if domain = 0 then !s.pw.vaonMin
      else if domain = 1 ∨ domain = 2 then !s.pw.vsuv
      else if domain = 12 then bit (s.force 0x0F0000) 0
      else if domain = 13 then s.plantNeeded
      else if 4 ≤ domain ∧ domain < 8 then !s.fenced (srcValley (domain - 4))
      else decide (domain < 14)
    if !due then s
    else
      let s := s.modPw fun p => p.domainUp domain
      if domain = 11 ∧ s.refEn = true then s.refStart else s

/-! ## RESET -/

/-- The store after RESET: a page write that had begun completes (R726), and nothing else goes on. -/
def Nv.afterReset (v : Nv) : Nv :=
  let w : Nv := match v.job with
    | some (.write _ p rest _) => v.putPage p (rest.take 1024)
    | some (.confirm _ p rest _) => v.putPage p (rest.take 1024)
    | some (.ledger p pages) => v.putPage (0x814000 / 1024 + p) (pages.headD [])
    | _ => v
  { pages := w.pages }

/-- The supervisor in RESET: what PD_AON holds stays. -/
def Power.inReset (p : Power) (cause : ResetCause) (rail : Nat) : Power :=
  { mode := .reset, prev := if p.mode = .reset then p.prev else p.mode
    changes := if p.mode = .reset then p.changes else (p.changes + 1) % 2 ^ 16
    railsGood := p.railsGood.filter fun r => decide (r = .vaon ∨ r = .vsa ∨ r = .vsb)
    attempts := p.attempts, failedAt := p.failedAt, nvw := p.nvw, hold := p.hold, vrst := p.vrst, vaonMin := p.vaonMin
    vsuv := p.vsuv, hot := p.hot, shut := p.shut, shutAt := p.shutAt, cause := cause, causeRail := rail
    resets := (p.resets + 1) % 2 ^ 16, domains := p.domains.filter fun d => decide (d < 3), refclk := p.refclk, perst := p.perst }

/-- The supervisor enters RESET: every rail but VAON and the safety channels' goes off, and with them every state but
that of PD_AON, of the safety channels, of the TAP and of the store (R726, R729). The reset lifts every fence (01 R45). -/
def State.enterReset (s : State) (cause : ResetCause) (rail : Nat) : State :=
  let s := (List.range 8).foldl (fun s p => if (s.port p).supOn then s.emit (.supply p false) else s) s
  { pending := s.pending, now := s.now, free := s.free, out := s.out, time := { lockAt := s.time.lockAt }
    pw := s.pw.inReset cause rail, nv := s.nv.afterReset, tw := { ball := s.tw.ball }
    asy := { ff := s.asy.ff, ffe := s.asy.ffe }, saf := s.saf, tap := s.tap, tapReset := s.tapReset }

/-- RESET from any other mode. -/
def State.resetFor (s : State) (cause : ResetCause) (rail : Nat) : State :=
  if s.pw.mode = .reset then s else s.enterReset cause rail

/-! ## Sequencing (R721, R37) -/

/-- The first rail of the sequence is enabled. -/
def State.sequence (s : State) : State := s.modPw fun p => { p with enabling := some (.vio, s.now) }

/-- Nothing stands in the way of sequencing. -/
def State.maySequence (s : State) : Bool :=
  decide (s.pw.mode = .reset ∨ s.pw.mode = .boot) && !s.pw.sequenced && s.pw.enabling.isNone && !s.pw.vrst && s.pw.shut.isEmpty

/-- RESET_RELEASE: sequencing starts. -/
def execResetRelease (t : Nat) (s : State) : Host.Outcome State Fault Refusal :=
  s.does t fun s => if s.maySequence && decide (s.pw.attempts = 0) then s.sequence else s

/-- RAIL_GOOD: the next rail of the sequence is enabled, and after the last the package boots. Rails outside the sequence
are good at their own time. -/
def execRailGood (t rail : Nat) (s : State) : Host.Outcome State Fault Refusal :=
  s.does t fun s =>
    let r := Rail.ofCode rail
    if railOrder.contains r then
      (match s.pw.enabling with
       | some (x, _) =>
         if x ≠ r then s
         else
           let s := s.modPw fun p => { p.setRail r true with enabling := match r.next with | some y => some (y, s.now) | none => none }
           if r = .vcore then (s.modPw fun p => { p with attempts := 0 }).mayBoot else s
       | none => s)
    else s.modPw fun p => p.setRail r true

/-- After three failed attempts the package stays in RESET (01 R37), also where it stood in BOOT without its rails (log 61). -/
def State.stayReset (s : State) : State :=
  if 3 ≤ s.pw.attempts then (s.setMode .reset).modPw fun p => { p with domains := p.domains.filter fun d => decide (d < 3) } else s

/-- RAIL_TIMEOUT: a rail is not good 2 ms after it was enabled; the rails already up go off. -/
def execRailTimeout (t rail : Nat) (s : State) : Host.Outcome State Fault Refusal :=
  s.does t fun s =>
    match s.pw.enabling with
    | some (x, since) =>
      if x = Rail.ofCode rail ∧ since + 8000000 ≤ s.now then
        (s.modPw fun p => { p with railsGood := p.railsGood.filter fun r => !railOrder.contains r, enabling := none
                                   attempts := p.attempts + 1, failedAt := s.now }).stayReset
      else s
    | none => s

/-- RAIL_RETRY: sequencing again 100 ms after a failed attempt, at most three attempts in all. -/
def execRailRetry (t : Nat) (s : State) : Host.Outcome State Fault Refusal :=
  s.does t fun s =>
    if s.maySequence && decide (1 ≤ s.pw.attempts ∧ s.pw.attempts < 3) && decide (s.pw.failedAt + 400000000 ≤ s.now) then s.sequence
    else s

/-! ## Rails that fail (R722) -/

/-- The supply of a safety channel is gone: the channel stops and the other locks out. -/
def State.safRailLost (s : State) (chB : Bool) : State :=
  let s := (s.modCh chB fun c => { linkDown := c.linkDown }).outsOff
  let s := s.modPw fun p => { p with domains := p.domains.filter fun d => decide (d ≠ 1 + b2n chB) }
  s.lockoutRun (!chB) 2

/-- An encoder rail is gone: the ports that it supplies switch off. -/
def State.encRailLost (s : State) (five : Bool) : State :=
  (List.range 8).foldl (fun s p => if (s.port p).supOn && decide (bit (s.force (fbOff p 0)) 27 = five) then s.supplyOvl p else s) s

/-- RAIL_FAIL: a good rail stops being good. R722 speaks of a rail that fails after sequencing; before its end, a rail that
fails is only not good any more. -/
def execRailFail (t rail : Nat) (s : State) : Host.Outcome State Fault Refusal :=
  s.does t fun s =>
    let r := Rail.ofCode rail
    if !s.pw.railsGood.contains r then s
    else
      let seq := s.pw.sequenced
      let s := s.modPw fun p => p.setRail r false
      if railOrder.contains r && !seq then s
      else
      match r with
      | .vcore => s.resetFor .rail r.index
      | .v1p0 => s.resetFor .rail r.index
      | .vio => (s.raiseNow (srcRail r) 0x12 0 []).modPw fun p => { p with railLost := some s.now, causeRail := r.index }
      | .vafe => (s.raiseNow (srcRail r) 0x12 0 []).modPw fun p => { p with railLost := some s.now, causeRail := r.index }
      | .venc5 => s.encRailLost true
      | .venc3 => s.encRailLost false
      | .vsa => s.safRailLost false
      | .vsb => s.safRailLost true
      | .vaon => s

/-- RAIL_FAIL_SHUTDOWN: 1 ms after VIO or VAFE failed the rails go off; sequencing is retried under R37. -/
def execRailFailShutdown (t rail : Nat) (s : State) : Host.Outcome State Fault Refusal :=
  s.does t fun s =>
    match s.pw.railLost with
    | some since =>
      if since + 4000000 ≤ s.now then
        (s.resetFor .rail (Rail.ofCode rail).index).modPw fun p => { p with attempts := 1, failedAt := s.now, railLost := none }
      else s
    | none => s

/-! ## Thresholds (R723 to R727) -/

/-- The supervisors of VIN and VSAFE as sources of marks. -/
def srcVin : Nat := srcCode 5 0x020

/-- The supervisor of VSAFE. -/
def srcVsafe : Nat := srcCode 5 0x021

/-- SUPPLY_NVW: no new page write begins, but those of persistence (R724). -/
def execSupplyNvw (t : Nat) (s : State) : Host.Outcome State Fault Refusal :=
  s.does t fun s =>
    if s.pw.nvw then s
    else ((s.modPw fun p => { p with nvw := true, nvwAt := s.core + 1 }).liveOn srcVin 0x16).raise srcVin 0x16 0 []

/-- SUPPLY_HOLD: SAFE_HOLD (R725). -/
def execSupplyHold (t : Nat) (s : State) : Host.Outcome State Fault Refusal :=
  s.does t fun s =>
    if s.pw.hold then s
    else ((s.modPw fun p => { p with hold := true }).liveOn srcVin 0x17).raiseNow srcVin 0x17 0 []

/-- VRST_CROSSED: RESET (R726). -/
def execVrstCrossed (t : Nat) (s : State) : Host.Outcome State Fault Refusal :=
  s.does t fun s => (s.resetFor .vrst 0).modPw fun p => { p with vrst := true, enabling := none, railsGood := p.railsGood.filter fun r => !railOrder.contains r }

/-- VAON_MIN_CROSSED: PD_AON loses its content; the next start is a power-on start (R726). -/
def execVaonMinCrossed (t : Nat) (s : State) : Host.Outcome State Fault Refusal :=
  s.does t fun s =>
    let s := s.resetFor .powerOn 0
    { s with pw := { mode := .reset, hold := s.pw.hold, nvw := s.pw.nvw, vrst := true, vaonMin := true, vsuv := s.pw.vsuv
                     railsGood := s.pw.railsGood.filter fun r => decide (r = .vsa ∨ r = .vsb)
                     domains := s.pw.domains.filter fun d => decide (d = 1 ∨ d = 2), refclk := s.pw.refclk, perst := s.pw.perst },
             asy := {} }

/-- VSUV_CROSSED: the channels are held in reset, and SAFE_HOLD follows (R727). -/
def execVsuvCrossed (t : Nat) (s : State) : Host.Outcome State Fault Refusal :=
  s.does t fun s =>
    if s.pw.vsuv then s
    else
      let s := s.safReset.modPw fun p => { p with vsuv := true, domains := p.domains.filter fun d => decide (d ≠ 1 ∧ d ≠ 2) }
      (s.liveOn srcVsafe 0x17).raiseNow srcVsafe 0x17 0 []

/-- SUPPLY_CONDITION_END: a condition ends: 0 VNVW, 1 VHOLD, 2 VRST, 3 VAON_MIN, 4 VSUV. -/
def execSupplyConditionEnd (t threshold : Nat) (s : State) : Host.Outcome State Fault Refusal :=
  s.does t fun s =>
    match threshold with
    | 0 => (s.modPw fun p => { p with nvw := false }).liveOff srcVin 0x16
    | 1 => ((s.modPw fun p => { p with hold := false }).liveOff srcVin 0x17).mayBoot
    | 2 => s.modPw fun p => { p with vrst := false, attempts := 0 }
    | 3 => s.modPw fun p => { p with vaonMin := false }
    | 4 => (s.modPw fun p => { p with vsuv := false }).liveOff srcVsafe 0x17
    | _ => s

/-! ## Temperatures (01 R40) -/

/-- The temperature of a die: 0 LD, 1 AD, 2 ND, 3 TD. -/
def srcTemp (die : Nat) : Nat := srcCode 5 (0x030 + die)

/-- TEMP_HIGH: a junction reaches 125 °C. -/
def execTempHigh (t die : Nat) (s : State) : Host.Outcome State Fault Refusal :=
  s.does t fun s =>
    if s.pw.hot.contains die then s
    else ((s.modPw fun p => { p with hot := p.hot ++ [die] }).liveOn (srcTemp die) 0x14).raise (srcTemp die) 0x14 0 []

/-- TEMP_SHUTDOWN: a junction reaches 140 °C. -/
def execTempShutdown (t die : Nat) (s : State) : Host.Outcome State Fault Refusal :=
  s.does t fun s =>
    if s.pw.shut.contains die then s
    else
      let s := s.modPw fun p =>
        { p with shut := p.shut ++ [die], shutAt := match p.shutAt with | some x => some x | none => some s.now }
      (s.liveOn (srcTemp die) 0x15).raiseNow (srcTemp die) 0x15 0 []

/-- THERMAL_RAIL_OFF: 1 ms later every rail but that of PD_AON goes off. -/
def execThermalRailOff (t : Nat) (s : State) : Host.Outcome State Fault Refusal :=
  s.does t fun s =>
    match s.pw.shutAt with
    | some since =>
      if since + 4000000 ≤ s.now then
        (s.safReset.resetFor .thermal 0).modPw fun p =>
          { p with shutAt := none, enabling := none, railsGood := p.railsGood.filter fun r => decide (r = .vaon)
                   domains := p.domains.filter fun d => decide (d = 0) }
      else s
    | none => s

/-- THERMAL_RESTART: the junction has fallen below 125 °C; the package restarts from RESET once every die has. -/
def execThermalRestart (t die : Nat) (s : State) : Host.Outcome State Fault Refusal :=
  s.does t fun s =>
    let s := s.modPw fun p => { p with shut := p.shut.filter fun d => decide (d ≠ die), hot := p.hot.filter fun d => decide (d ≠ die) }
    let s := (s.liveOff (srcTemp die) 0x15).liveOff (srcTemp die) 0x14
    if s.maySequence && decide (s.pw.mode = .reset) && decide (s.pw.cause = .thermal) && decide (s.pw.attempts < 3) then
      s.sequence
    else s

/-- TEMPERATURE_CONDITION_END: a die falls back below 125 °C without a shutdown (16 R629). -/
def execTemperatureConditionEnd (t die : Nat) (s : State) : Host.Outcome State Fault Refusal :=
  s.does t fun s =>
    (s.modPw fun p => { p with hot := p.hot.filter fun d => decide (d ≠ die) }).liveOff (srcTemp die) 0x14

/-! ## Clocks (R731) -/

/-- PLL_LOCK_LOSS: a PLL loses lock. -/
def execPllLockLoss (t pll : Nat) (s : State) : Host.Outcome State Fault Refusal :=
  s.does t fun s => if s.pw.plls.contains (pll + 2) then s.resetFor .clock 0 else s

/-- The measurement of the TD oscillator is due: every 1 ms (R731). -/
def State.tdDue (s : State) : Bool := match s.pw.tdAt with | some a => decide (a + 4000000 ≤ s.now) | none => true

/-- TD_CHECK: the TD oscillator against CK_AON; a deviation beyond 2 % counts as a loss of lock. -/
def execTdCheck (t : Nat) (ok : Bool) (s : State) : Host.Outcome State Fault Refusal :=
  s.does t fun s =>
    if !s.tdDue then s
    else if ok then s.modPw fun p => { p with tdOk := true, tdAt := some s.now }
    else s.resetFor .clock 0

/-- PERST: PERST_N is released and the PCIe endpoint starts; its reference clock is there (log 36). -/
def execPerst (t : Nat) (s : State) : Host.Outcome State Fault Refusal :=
  s.does t fun s => s.modPw fun p => { p with perst := true, refclk := true }

/-! ## BOOT (R739 to R746, R748; 19 R775) -/

/-- The first page of the body of image A or B. -/
def bodyPage (b : Bool) : Nat := (if b then 0x410000 else 0x10000) / 1024 + 1

/-- The body of an image. -/
def Nv.imageBody (v : Nv) (b : Bool) : List Byte :=
  let len := fld (v.imageHead b) 8 4
  (v.readPages (bodyPage b) ((len + 1023) / 1024)).take len

/-- The generation of an image. -/
def Nv.imageGen (v : Nv) (b : Bool) : Nat := fld (v.imageHead b) 4 4

/-- An image is valid (R739). -/
def Nv.imageValid (v : Nv) (b : Bool) : Bool :=
  let h := v.imageHead b
  let len := fld h 8 4
  decide (fld h 0 4 = 1) && decide (fld h 4 4 ≠ 0xFFFFFFFF) && decide (len % 8 = 0 ∧ len ≤ 4 * 1024 * 1024 - 1024) &&
    decide (crc32c (v.imageBody b) = fld h 12 4)

/-- The image that BOOT applies: the valid one of higher generation, A when they are equal. -/
def Nv.bootImage (v : Nv) : Option Bool :=
  if v.aValid && v.bValid then some (decide (v.imageGen false < v.imageGen true))
  else if v.aValid then some false
  else if v.bValid then some true
  else none

/-- BOOT_START: the rails of the sequence are good and the PLLs are locked; both images are read and judged. -/
def execBootStart (t : Nat) (s : State) : Host.Outcome State Fault Refusal :=
  s.does t fun s =>
    if s.pw.mode ≠ .boot ∨ s.pw.plls ≠ [] ∨ ¬ s.pw.sequenced then s
    else
      let s := { s with time := { s.time with lockAt := s.now }, saf := { s.saf with offGrid := 0, sentCore := 0 }, pw := { s.pw with plls := [2, 3, 4, 5, 6, 7] } }
      if s.nvFenced then s.modNv fun v => { v with noSerial := true }
      else
        s.modNv fun v =>
          let v := { v with aValid := v.imageValid false, bValid := v.imageValid true }
          match v.bootImage with
          | some b => { v with image := b2n b, gen := v.imageGen b }
          | none => v

/-- The COMMIT that a record's write makes has left a REASON. -/
def State.commitBad (s : State) (off v : Nat) : Bool :=
  match Reg.commitOf off with
  | some b => bit v 0 && decide (SMap.get 0 s.regs.reason b ≠ 0)
  | none => decide (off = 0x24) && (bit v 0 || bit v 1) && !bit v 2 && decide (s.regs.glbReason ≠ 0)

/-- The records of an image from record i on: the state after them, or BOOT_ERR and the record at fault. -/
def State.applyRecords (s : State) : Nat → List Byte → Nat → State ⊕ (Nat × Nat)
  | 0, _, _ => .inl s
  | n + 1, b, i =>
    let off := fld b 0 4
    let v := fld b 4 4
    if off % 4 ≠ 0 ∨ 0x130000 ≤ off then .inr (2, i)
    else
      let s' := s.regWrite off v
      if s'.commitBad off v then .inr (3, i) else s'.applyRecords n (b.drop 8) (i + 1)

/-- One directory entry of the cam library is loaded, or counted as bad (R744, R746). -/
def State.loadCam (s : State) (c : Nat) : State :=
  let e := slice (s.nv.readPages (0x900000 / 1024 + c / 32) 1) (32 * (c % 32)) 32
  if byteAt e 0 ≠ 0xA5 then s
  else
    let len := 16 + 8 * fld e 2 2
    let at_ := fld e 4 4
    let data := slice (s.nv.readPages (0x900000 / 1024 + at_ / 1024) (len / 1024 + 2)) (at_ % 1024) len
    if at_ + len ≤ 8 * 1024 * 1024 ∧ crc32c data = fld e 8 4 then
      { s with cams := SMap.insert (SMap.erase s.cams c) c (camOf data) }
    else s.modNv fun v => { v with camBad := min 255 (v.camBad + 1) }

/-- The cam library. -/
def State.loadCams (s : State) : State := (List.range 256).foldl State.loadCam s

/-- The newest MT of a ledger page, plus 1; 0 for a page without marks. -/
def newestMt (page : List Byte) : Nat :=
  (List.range 32).foldl (fun m i => if byteAt page (32 * i + 2) = 0 then m else max m (fld page (32 * i + 12) 8 + 1)) 0

/-- The page that the next persistence writes: the one after that of the newest mark (R748). -/
def Nv.nextLedger (v : Nv) : Nat :=
  let l := (List.range 8).map fun p => (p, newestMt (v.page (0x814000 / 1024 + p)))
  let best := l.foldl (fun (b : Nat × Nat) e => if b.2 < e.2 then e else b) (7, 0)
  (best.1 + 1) % 8

/-- BOOT ends in a mode: encoder supplies switch on (11 R484). -/
def State.leaveBoot (s : State) (m : DevMode) : State :=
  let s := s.enter m
  (List.range 8).foldl (fun s p => if s.portSup p && !(s.port p).supOn then s.supplyOn p else s) s

/-- BOOT fails: COMMISSION with every block at its reset values (R740). -/
def State.bootFail (s : State) (err rec_ : Nat) : State :=
  (s.modNv fun v => { v with bootErr := err, bootRec := rec_, ledgerPage := if err = 4 then 0 else v.nextLedger }).leaveBoot .commission

/-- BOOT_COMPLETE: BOOT has begun, and the records and the cam library are applied. `rankBall` is the level of TWIN_RANK. -/
def execBootComplete (t : Nat) (rankBall : Bool) (s : State) : Host.Outcome State Fault Refusal :=
  s.does t fun s =>
    if s.pw.mode ≠ .boot ∨ s.pw.plls = [] then s
    else
      let s := { s with tw := { s.tw with ball := rankBall } }
      if s.nvFenced then s.bootFail 4 0
      else
        match s.nv.bootImage with
        | none => s.bootFail 1 0
        | some b =>
          let body := s.nv.imageBody b
          match s.applyRecords (body.length / 8) body 0 with
          | .inr e => s.bootFail e.1 (if e.1 = 2 ∨ e.1 = 3 then e.2 else 0)
          | .inl s =>
            let s := (s.discard).loadCams
            let s := s.modNv fun v => { v with ledgerPage := v.nextLedger }
            s.leaveBoot (if byteAt (s.nv.imageHead b) 16 = 0 then .idle else .commission)

/-! ## The TAP (20 R793) -/

/-- An instruction is loaded into the TAP, which TRST_N does not hold any more (log 37). -/
def State.loadTap (s : State) (i : Tap) : State := { s with tap := i, tapReset := false }

/-- The instruction that acts: EXTEST only in COMMISSION. -/
def State.tapActs (s : State) : Tap := if s.tap = .extest ∧ s.pw.mode ≠ .commission then .bypass else s.tap

/-- BYPASS. -/
def execBypass (t : Nat) (s : State) : Host.Outcome State Fault Refusal := s.does t fun s => s.loadTap .bypass

/-- SAMPLE/PRELOAD. -/
def execSamplePreload (t : Nat) (s : State) : Host.Outcome State Fault Refusal := s.does t fun s => s.loadTap .sample

/-- EXTEST: it acts as BYPASS outside COMMISSION (R793). -/
def execExtest (t : Nat) (s : State) : Host.Outcome State Fault Refusal := s.does t fun s => s.loadTap .extest

/-- TAP_RESET: TRST_N low, or left open, holds the TAP in reset. -/
def execTapReset (t : Nat) (s : State) : Host.Outcome State Fault Refusal :=
  s.does t fun s => { s with tap := .bypass, tapReset := true }

end Sys2Proof.Machine
end

