-- ==== Sys2Proof/Machine/Errors.lean ====
section
/-! DEFINITION. Errors that the checkers find (01 R6 to R9, R20 to R25, R30, R31, R35; 16 Tables 16.4 and 16.6): corrected
and double-bit errors of the stores, parity errors, and inter-die links that go down. -/

namespace Sys2Proof.Machine

/-! ## ECC -/

/-- The detail of an ECC mark: syndrome, corrected bit or 0xFF, and for bench SRAM the axis (Table 16.6). -/
def eccDetail (src syndrome bit axis : Nat) : List Byte :=
  leBytes 2 syndrome ++ leBytes 1 bit ++ [0] ++ (if srcLevel src = 2 then leBytes 2 axis else [])

/-- ECC_CORR: a checker corrected a single-bit error (R21, R22). -/
def execEccCorr (t src addr syndrome bit axis : Nat) (s : State) : Host.Outcome State Fault Refusal :=
  s.does t fun s => s.raise src 0x01 addr (eccDetail src syndrome bit axis)

/-- The segment of an axis whose ASB the twin can restore: a paired device with the segment READY. -/
def State.restorer (s : State) (a : Nat) : Option Nat :=
  match s.segOf a with
  | some k =>
    if s.tw.pair = .paired ∧ ((s.twSeg k).st = .ready ∨ s.tw.role = .follower ∧ (s.twSeg k).st ≠ .notPaired) then some k else none
  | none => none

/-- An ASB has a double-bit error. With a twin the axis is unusable until the other device's copy of it has arrived as a
one-axis unit, which a follower asks for and a follower that hears of its leader's loss sends (15 Table 15.6; the messages are
log 89); without one the axis takes its fault reaction (R23). -/
def State.asbLost (s : State) (src addr axis : Nat) (detail : List Byte) : State :=
  if axis = 0xFFFF then s.raiseDone src 0x02 addr 0 detail
  else
    match s.restorer axis with
    | some k =>
      let s := (s.raiseDone src 0x02 addr 0 detail).modTwSeg k fun g =>
        { g with lost := if g.lost.contains axis then g.lost else g.lost ++ [axis] }
      s.sendTwin 0xA k (tagOf s.cyc) 0 (leBytes 4 (0x80000000 + axis))
    | none =>
      let code := s.clocked 6
      (s.raiseDone src 0x02 addr (if s.withholds 0x02 code then 0 else code) detail).takeReaction src 0x02 addr code detail

/-- Valley SRAM has a double-bit error: the learning table or the coupling group's state is reset: both banks of K and every
input z (R31). What the members' own jobs have left of the cycle stays, so that they go on with c = 0. -/
def State.valleyLost (s : State) (obj : Nat) : State :=
  if obj = 0xFFFF then s
  else if obj < 0x10000 then s.modAxis obj fun ax => { ax with ln := { ax.ln with bins := [] } }
  else s.modCGroup (obj - 0x10000) fun g => { g with k := [], left := g.left.map fun e => (e.1, { e.2 with z := 0 }) }

/-- Running identifications end FAILED_HW with the identification buffer (R35). -/
def State.identsLost (s : State) : State :=
  s.axes.foldl (fun s e => if e.2.ident.isSome then
    (s.identOver e.1 stFailedHw 4).modAxis e.1 fun ax => { ax with ident := none, identWas := [] } else s) s

/-- A spine store has a double-bit error: the function that owns it is fenced (R35). -/
def State.spineLost (s : State) (src addr obj : Nat) (detail : List Byte) : State :=
  let i := srcIdx src
  if i = 0x003 then
    let hit := (s.axes.filter fun e => match e.2.mo.src with
      | .eng g => g.isCam && decide (g.table = obj)
      | _ => false).map fun e => e.1
    let s := { s with asy := { s.asy with camBad := if s.asy.camBad.contains obj then s.asy.camBad else s.asy.camBad ++ [obj] } }
    let s := (s.raiseDone src 0x02 addr (if s.withholds 0x02 6 then 0 else 6) detail).fenceAnew src 11
    if s.withholds 0x02 6 then s.notReady ((hit.filterMap s.segOf).eraseDups)
    else (s.axisStops hit src 0x02).tellFaults hit 0x02
  else if 0x018 ≤ i ∧ i < 0x020 then
    let code := s.clocked 7
    let s := (s.raiseDone src 0x02 addr (if s.withholds 0x02 code then 0 else code) detail).fenceAnew src 11
    s.takeReaction src 0x02 addr code detail
  else
    let s := (s.raiseDone src 0x02 addr 0 detail).fenceAnew src 11
    if i = 0x004 then s.identsLost
    else if i = 0x007 then s.modConv obj fun c => { c with ringBad := true }
    else s

/-- ECC_DOUBLE: a double-bit error, with the reaction of its store. -/
def execEccDouble (t src addr syndrome obj : Nat) (s : State) : Host.Outcome State Fault Refusal :=
  s.does t fun s =>
    let detail := eccDetail src syndrome 0xFF obj
    let l := srcLevel src
    let s :=
      if l = 1 then
        if s.yields (srcIdx src) then s.raiseDone src 0x02 addr 0 detail
        else (s.raiseDone src 0x02 addr 2 detail).fenceHammer (srcIdx src) 2 0x02
      else if l = 2 then s.asbLost src addr obj detail
      else if l = 3 then (s.raiseDone src 0x02 addr 0 detail).valleyLost obj
      else if l = 4 then s.spineLost src addr obj detail
      else s.raiseDone src 0x02 addr 0 detail
    s.postReady

/-! ## Parity -/

/-- The class of the job that a parity error affects, as Table 03.6 writes it, and its axis or group, 0xFFFF for none (Table
16.6). -/
def State.parityJob (s : State) (src : Nat) : List Byte :=
  let none_ : List Byte := [3, 0, 0xFF, 0xFF]
  if srcLevel src ≠ 1 then none_
  else
    match (s.hammer (srcIdx src)).run with
    | some (.hard r) => (match r.key with
      | .axis a => [0, 0] ++ leBytes 2 a
      | .group g => [1, 0] ++ leBytes 2 g)
    | some (.soft j _ _) =>
      let a := match j.cls with | .resample a => a | .ident a _ => a | _ => 0xFFFF
      [2, 0] ++ leBytes 2 a
    | none => none_

/-- The run of a hammer hit while a valley fabric had a parity error counts as a timed-out transaction; the hammers of the
valley that run hard jobs, lowest first, hold it (R30). -/
def State.fabricHit (s : State) (v : Nat) : Option Nat :=
  ((List.range 32).map fun i => 32 * v + i).find? fun h => match (s.hammer h).run with | some (.hard _) => true | _ => false

/-- PARITY: a register file fences its hammer, a ready list its bench, a valley fabric counts as a timed-out transaction,
the die fabric fences the function it addressed, named by the address (R20, R25, R30; log 38). -/
def execParity (t src addr : Nat) (s : State) : Host.Outcome State Fault Refusal :=
  s.does t fun s =>
    let detail := s.parityJob src
    let l := srcLevel src
    let s :=
      if l = 1 then
        if s.yields (srcIdx src) then s.raiseDone src 0x03 addr 0 detail
        else (s.raiseDone src 0x03 addr 2 detail).fenceHammer (srcIdx src) 1 0x03
      else if l = 2 then
        if s.fencesNow [srcValley (valleyOf (srcIdx src))] then s.raiseDone src 0x03 addr 0 detail
        else (s.raiseDone src 0x03 addr 3 detail).fenceBench (srcIdx src) 4 0x03
      else if l = 3 then
        (match s.fabricHit (srcIdx src) with
         | none => s.raiseDone src 0x03 addr 1 detail
         | some h => match (s.hammer h).run with
           | some (.hard r) => (match s.job r.key with
             | none => s.raiseDone src 0x03 addr 1 detail
             | some j =>
               if j.timeouts = 0 then
                 let s := s.raiseDone src 0x03 addr 1 detail
                 let s := (s.modJob r.key fun j => { j with timeouts := 1 }).dropRun h r
                 s.reissueAfterFault r.key h r.since
               else (s.raiseDone src 0x03 addr 4 detail).fenceValley (srcIdx src) 10 0x03)
           | _ => s.raiseDone src 0x03 addr 1 detail)
      else if src = srcCode 4 0x00C then (s.raiseDone src 0x03 addr 0 detail).fenceAnew (srcCode 4 addr) 12
      else s.raiseDone src 0x03 addr 0 detail
    s.postReady

/-! ## Links (R7, R9) -/

/-- LINK_DOWN: a link that failed four retransmissions is down: 0 main, 1 SA, 2 SB, 3 NV. -/
def execLinkDown (t link : Nat) (s : State) : Host.Outcome State Fault Refusal :=
  s.does t fun s =>
    let src := srcCode 5 link
    if s.pw.linksDown.contains link then s
    else
      let s := (s.modPw fun p => { p with linksDown := p.linksDown ++ [link] }).liveOn src 0x11
      let code := if link = 0 then 8 else 0
      let s := (s.raiseDone src 0x11 0 (if s.withholds 0x11 code then 0 else code) []).takeReaction src 0x11 0 code []
      let s :=
        if link = 1 then s.safLinkDown false
        else if link = 2 then s.safLinkDown true
        else if link = 3 then (s.fenceAnew srcNv 15).nvFail
        else s
      s.postReady

end Sys2Proof.Machine
end

