-- ==== Sys2Proof/Machine/Dispatch.lean ====
section
/-! DEFINITION. The one dispatch from commands to their meanings. -/

namespace Sys2Proof.Machine

/-- The meaning of a command on everything but the queue. -/
def exec (i : Instr) (s : State) : Host.Outcome State Fault Refusal :=
  match i with
  | .nop t h => Sys2Proof.Machine.execNop t h s
  | .fence t h rings waitCpl => Sys2Proof.Machine.execFence t h rings waitCpl s
  | .mode t h code => Sys2Proof.Machine.execMode t h code s
  | .moveAbs t h x => Sys2Proof.Machine.execMoveAbs t h x s
  | .moveRel t h d => Sys2Proof.Machine.execMoveRel t h d s
  | .jog t h v => Sys2Proof.Machine.execJog t h v s
  | .stop t h => Sys2Proof.Machine.execStop t h s
  | .limits t h vmax amax dmax destop jmax => Sys2Proof.Machine.execLimits t h vmax amax dmax destop jmax s
  | .follow t h ai pos src g lagmax => Sys2Proof.Machine.execFollow t h ai pos src g lagmax s
  | .gear t h wait master n m ofs => Sys2Proof.Machine.execGear t h wait master n m ofs s
  | .camEngage t h table cont cubic mode master oc b xsw => Sys2Proof.Machine.execCamEngage t h table cont cubic mode master oc b xsw s
  | .camDisengage t h holdVel => Sys2Proof.Machine.execCamDisengage t h holdVel s
  | .groupMove t h f => Sys2Proof.Machine.execGroupMove t h f s
  | .phaseIn t h w => Sys2Proof.Machine.execPhaseIn t h w s
  | .setc t h index terrace v => Sys2Proof.Machine.execSetc t h index terrace v s
  | .loadset t h first terrace vals => Sys2Proof.Machine.execLoadset t h first terrace vals s
  | .swapset t h mask => Sys2Proof.Machine.execSwapset t h mask s
  | .terrace t h sel n b t1 t2 t3 hyst => Sys2Proof.Machine.execTerrace t h sel n b t1 t2 t3 hyst s
  | .filter t h changed enable => Sys2Proof.Machine.execFilter t h changed enable s
  | .learn t h f => Sys2Proof.Machine.execLearn t h f s
  | .resample t h log2n tag => Sys2Proof.Machine.execResample t h log2n tag s
  | .couple t h f => Sys2Proof.Machine.execCouple t h f s
  | .ident t h f => Sys2Proof.Machine.execIdent t h f s
  | .camLoad t h table k s0 rise y => Sys2Proof.Machine.execCamLoad t h table k s0 rise y s
  | .axisCfg t h c => Sys2Proof.Machine.execAxisCfg t h c s
  | .nodeMgmtUnmute t h request seg node fn buf data => Sys2Proof.Machine.execNodeMgmtUnmute t h request seg node fn buf data s
  | .timeStep t h toDomain s0 => Sys2Proof.Machine.execTimeStep t h toDomain s0 s
  | .timeSelect t h domain auto => Sys2Proof.Machine.execTimeSelect t h domain auto s
  | .nvWrite t h addr buf len data => Sys2Proof.Machine.execNvWrite t h addr buf len data s
  | .nvRead t h addr buf len => Sys2Proof.Machine.execNvRead t h addr buf len s
  | .safetyLoad t h data => Sys2Proof.Machine.execSafetyLoad t h data s
  | .safetyConfirm t h check => Sys2Proof.Machine.execSafetyConfirm t h check s
  | .inject t h double src => Sys2Proof.Machine.execInject t h double src s
  | .unfence t h src => Sys2Proof.Machine.execUnfence t h src s
  | .clearLedger t h => Sys2Proof.Machine.execClearLedger t h s
  | .clearFlags t h mask => Sys2Proof.Machine.execClearFlags t h mask s
  | .trace t h evtMask segMask compress softPass axisLo axisHi => Sys2Proof.Machine.execTrace t h evtMask segMask compress softPass axisLo axisHi s
  | .descriptorAccepted t ring bytes buf => Sys2Proof.Machine.execDescriptorAccepted t ring bytes buf s
  | .atPhaseTimeout t ring pos => Sys2Proof.Machine.execAtPhaseTimeout t ring pos s
  | .netSegCommit t seg => Sys2Proof.Machine.execNetSegCommit t seg s
  | .fbpCommit t port => Sys2Proof.Machine.execFbpCommit t port s
  | .pulCommit t ch => Sys2Proof.Machine.execPulCommit t ch s
  | .adcCommit t conv => Sys2Proof.Machine.execAdcCommit t conv s
  | .hstCommit t => Sys2Proof.Machine.execHstCommit t s
  | .asyCommit t => Sys2Proof.Machine.execAsyCommit t s
  | .glbCommitGo t => Sys2Proof.Machine.execGlbCommitGo t s
  | .glbCommitAll t => Sys2Proof.Machine.execGlbCommitAll t s
  | .glbCommitDiscard t => Sys2Proof.Machine.execGlbCommitDiscard t s
  | .hstRingEnable t ring => Sys2Proof.Machine.execHstRingEnable t ring s
  | .hstRingDisable t ring => Sys2Proof.Machine.execHstRingDisable t ring s
  | .twnEnable t rankBall => Sys2Proof.Machine.execTwnEnable t rankBall s
  | .twnRepair t => Sys2Proof.Machine.execTwnRepair t s
  | .timMtLoRead t => Sys2Proof.Machine.execTimMtLoRead t s
  | .adcPopLoRead t conv => Sys2Proof.Machine.execAdcPopLoRead t conv s
  | .pulEcntLoRead t ch => Sys2Proof.Machine.execPulEcntLoRead t ch s
  | .debugWindowRead t off ecc syndrome bit axis => Sys2Proof.Machine.execDebugWindowRead t off ecc syndrome bit axis s
  | .debugWindowWrite t off v => Sys2Proof.Machine.execDebugWindowWrite t off v s
  | .registerWrite t off v => Sys2Proof.Machine.execRegisterWrite t off v s
  | .unsupportedRequest t isRead off => Sys2Proof.Machine.execUnsupportedRequest t isRead off s
  | .bypass t => Sys2Proof.Machine.execBypass t s
  | .samplePreload t => Sys2Proof.Machine.execSamplePreload t s
  | .extest t => Sys2Proof.Machine.execExtest t s
  | .tapReset t => Sys2Proof.Machine.execTapReset t s
  | .resetRelease t => Sys2Proof.Machine.execResetRelease t s
  | .railGood t rail => Sys2Proof.Machine.execRailGood t rail s
  | .railTimeout t rail => Sys2Proof.Machine.execRailTimeout t rail s
  | .railRetry t => Sys2Proof.Machine.execRailRetry t s
  | .railFail t rail => Sys2Proof.Machine.execRailFail t rail s
  | .railFailShutdown t rail => Sys2Proof.Machine.execRailFailShutdown t rail s
  | .supplyNvw t => Sys2Proof.Machine.execSupplyNvw t s
  | .supplyHold t => Sys2Proof.Machine.execSupplyHold t s
  | .vrstCrossed t => Sys2Proof.Machine.execVrstCrossed t s
  | .vaonMinCrossed t => Sys2Proof.Machine.execVaonMinCrossed t s
  | .vsuvCrossed t => Sys2Proof.Machine.execVsuvCrossed t s
  | .supplyConditionEnd t threshold => Sys2Proof.Machine.execSupplyConditionEnd t threshold s
  | .tempHigh t die => Sys2Proof.Machine.execTempHigh t die s
  | .tempShutdown t die => Sys2Proof.Machine.execTempShutdown t die s
  | .thermalRailOff t => Sys2Proof.Machine.execThermalRailOff t s
  | .thermalRestart t die => Sys2Proof.Machine.execThermalRestart t die s
  | .pllLockLoss t pll => Sys2Proof.Machine.execPllLockLoss t pll s
  | .tdCheck t ok => Sys2Proof.Machine.execTdCheck t ok s
  | .bootStart t => Sys2Proof.Machine.execBootStart t s
  | .bootComplete t rankBall => Sys2Proof.Machine.execBootComplete t rankBall s
  | .refReady t => Sys2Proof.Machine.execRefReady t s
  | .perst t => Sys2Proof.Machine.execPerst t s
  | .flitCrcError t link => Sys2Proof.Machine.execFlitCrcError t link s
  | .linkDown t link => Sys2Proof.Machine.execLinkDown t link s
  | .nvPageWriteDone t => Sys2Proof.Machine.execNvPageWriteDone t s
  | .nvTimeout t => Sys2Proof.Machine.execNvTimeout t s
  | .ledgerPersistence t => Sys2Proof.Machine.execLedgerPersistence t s
  | .eccCorr t src addr syndrome bit axis => Sys2Proof.Machine.execEccCorr t src addr syndrome bit axis s
  | .eccDouble t src addr syndrome obj => Sys2Proof.Machine.execEccDouble t src addr syndrome obj s
  | .parity t src addr => Sys2Proof.Machine.execParity t src addr s
  | .fabricTimeout t hammer => Sys2Proof.Machine.execFabricTimeout t hammer s
  | .readyStall t bench => Sys2Proof.Machine.execReadyStall t bench s
  | .jobWatchdog t hammer => Sys2Proof.Machine.execJobWatchdog t hammer s
  | .reissuePoint t job => Sys2Proof.Machine.execReissuePoint t job s
  | .hammerSlow t hammer => Sys2Proof.Machine.execHammerSlow t hammer s
  | .softLimit t hammer => Sys2Proof.Machine.execSoftLimit t hammer s
  | .preemptStop t hammer => Sys2Proof.Machine.execPreemptStop t hammer s
  | .softJobComplete t hammer => Sys2Proof.Machine.execSoftJobComplete t hammer s
  | .asbMoveLanded t axis => Sys2Proof.Machine.execAsbMoveLanded t axis s
  | .unfenceCheckDone t src ok => Sys2Proof.Machine.execUnfenceCheckDone t src ok s
  | .reportClose t seg => Sys2Proof.Machine.execReportClose t seg s
  | .reportLost t seg node => Sys2Proof.Machine.execReportLost t seg node s
  | .nodeLost t seg node => Sys2Proof.Machine.execNodeLost t seg node s
  | .jobComplete t hammer => Sys2Proof.Machine.execJobComplete t hammer s
  | .pourPoint t seg => Sys2Proof.Machine.execPourPoint t seg s
  | .slotTransmit t seg entry => Sys2Proof.Machine.execSlotTransmit t seg entry s
  | .rpReceived t seg chB start frame => Sys2Proof.Machine.execRpReceived t seg chB start frame s
  | .receiveOverlap t seg chB start first second => Sys2Proof.Machine.execReceiveOverlap t seg chB start first second s
  | .nodeMuted t seg node => Sys2Proof.Machine.execNodeMuted t seg node s
  | .sfReceived t seg chB start frame => Sys2Proof.Machine.execSfReceived t seg chB start frame s
  | .syReturn t seg da db => Sys2Proof.Machine.execSyReturn t seg da db s
  | .channelLost t seg chB => Sys2Proof.Machine.execChannelLost t seg chB s
  | .ringHealed t seg => Sys2Proof.Machine.execRingHealed t seg s
  | .delayAdoption t seg => Sys2Proof.Machine.execDelayAdoption t seg s
  | .portLinkChange t port up => Sys2Proof.Machine.execPortLinkChange t port up s
  | .listenEnd t seg => Sys2Proof.Machine.execListenEnd t seg s
  | .csReceived t seg chB frame => Sys2Proof.Machine.execCsReceived t seg chB frame s
  | .csPhaseEnd t seg => Sys2Proof.Machine.execCsPhaseEnd t seg s
  | .scheduleStart t seg => Sys2Proof.Machine.execScheduleStart t seg s
  | .syReceived t seg chB frame => Sys2Proof.Machine.execSyReceived t seg chB frame s
  | .inAnswer t seg chB start frame => Sys2Proof.Machine.execInAnswer t seg chB start frame s
  | .lcClaim t seg chB start frame => Sys2Proof.Machine.execLcClaim t seg chB start frame s
  | .mgAnswer t seg chB start frame => Sys2Proof.Machine.execMgAnswer t seg chB start frame s
  | .mgmtRequestTimeout t seg => Sys2Proof.Machine.execMgmtRequestTimeout t seg s
  | .nodeNotFound t seg node => Sys2Proof.Machine.execNodeNotFound t seg node s
  | .latecomerWithdrawn t seg node => Sys2Proof.Machine.execLatecomerWithdrawn t seg node s
  | .majorCycleBoundary t => Sys2Proof.Machine.execMajorCycleBoundary t s
  | .masterInterval t => Sys2Proof.Machine.execMasterInterval t s
  | .poll t page => Sys2Proof.Machine.execPoll t page s
  | .hostHbTimeout t => Sys2Proof.Machine.execHostHbTimeout t s
  | .cyclePoint t k => Sys2Proof.Machine.execCyclePoint t k s
  | .pcieLinkDown t => Sys2Proof.Machine.execPcieLinkDown t s
  | .pcieLinkUp t speed width => Sys2Proof.Machine.execPcieLinkUp t speed width s
  | .plantFrameSend t port ident len tsReq frame => Sys2Proof.Machine.execPlantFrameSend t port ident len tsReq frame s
  | .plantFrameReceived t port stamp fcsOk frame => Sys2Proof.Machine.execPlantFrameReceived t port stamp fcsOk frame s
  | .gptpSyncReceived t port rawI origin correction cumRate logInt => Sys2Proof.Machine.execGptpSyncReceived t port rawI origin correction cumRate logInt s
  | .announceReceived t port gmid => Sys2Proof.Machine.execAnnounceReceived t port gmid s
  | .pdelayReqInterval t port => Sys2Proof.Machine.execPdelayReqInterval t port s
  | .pdelayResponseReceived t port mld nrr capable => Sys2Proof.Machine.execPdelayResponseReceived t port mld nrr capable s
  | .pdelayReqReceived t port frame => Sys2Proof.Machine.execPdelayReqReceived t port frame s
  | .syncReceiptTimeout t domain => Sys2Proof.Machine.execSyncReceiptTimeout t domain s
  | .announceReceiptTimeout t domain => Sys2Proof.Machine.execAnnounceReceiptTimeout t domain s
  | .holdoverExpiry t domain => Sys2Proof.Machine.execHoldoverExpiry t domain s
  | .illegalTransition t port => Sys2Proof.Machine.execIllegalTransition t port s
  | .indexEdge t port => Sys2Proof.Machine.execIndexEdge t port s
  | .fbpWire t port => Sys2Proof.Machine.execFbpWire t port s
  | .fbpAmpl t port => Sys2Proof.Machine.execFbpAmpl t port s
  | .fbpOverspeed t port => Sys2Proof.Machine.execFbpOverspeed t port s
  | .speedWindowEnd t port => Sys2Proof.Machine.execSpeedWindowEnd t port s
  | .encSupplyOvl t port => Sys2Proof.Machine.execEncSupplyOvl t port s
  | .encSupplyTotalOvl t => Sys2Proof.Machine.execEncSupplyTotalOvl t s
  | .encSupplyRestart t port => Sys2Proof.Machine.execEncSupplyRestart t port s
  | .encSupplySettled t port => Sys2Proof.Machine.execEncSupplySettled t port s
  | .latchEdge t input => Sys2Proof.Machine.execLatchEdge t input s
  | .latchEntryPost t input => Sys2Proof.Machine.execLatchEntryPost t input s
  | .stepBoundary t ch => Sys2Proof.Machine.execStepBoundary t ch s
  | .pulHalt t ch => Sys2Proof.Machine.execPulHalt t ch s
  | .pulParity t ch => Sys2Proof.Machine.execPulParity t ch s
  | .adcSequenceStart t conv => Sys2Proof.Machine.execAdcSequenceStart t conv s
  | .adcConversionComplete t conv code => Sys2Proof.Machine.execAdcConversionComplete t conv code s
  | .twinHbReceived t mode role rank pair segStates deltas => Sys2Proof.Machine.execTwinHbReceived t mode role rank pair segStates deltas s
  | .tagReceived t seg ring pos seq opc crc status tag minor => Sys2Proof.Machine.execTagReceived t seg ring pos seq opc crc status tag minor s
  | .cplReceived t ring pos record => Sys2Proof.Machine.execCplReceived t ring pos record s
  | .useReceived t seg tag minor map records x e => Sys2Proof.Machine.execUseReceived t seg tag minor map records x e s
  | .mstReceived t vals => Sys2Proof.Machine.execMstReceived t vals s
  | .digReceived t seg tag minor digest => Sys2Proof.Machine.execDigReceived t seg tag minor digest s
  | .outReceived t o => Sys2Proof.Machine.execOutReceived t o s
  | .evtReceived t mark => Sys2Proof.Machine.execEvtReceived t mark s
  | .blkReceived t seg unit tag minor off crcOk data => Sys2Proof.Machine.execBlkReceived t seg unit tag minor off crcOk data s
  | .reqReceived t off => Sys2Proof.Machine.execReqReceived t off s
  | .twinLaneDown t lane => Sys2Proof.Machine.execTwinLaneDown t lane s
  | .twinLaneUp t lane => Sys2Proof.Machine.execTwinLaneUp t lane s
  | .twinLinkLost t => Sys2Proof.Machine.execTwinLinkLost t s
  | .pairingStart t => Sys2Proof.Machine.execPairingStart t s
  | .changeover t => Sys2Proof.Machine.execChangeover t s
  | .twinDualLeader t => Sys2Proof.Machine.execTwinDualLeader t s
  | .markRelease t => Sys2Proof.Machine.execMarkRelease t s
  | .safetyTick t fbA fbB lowA lowB highA highB => Sys2Proof.Machine.execSafetyTick t fbA fbB lowA lowB highA highB s
  | .tickTimeout t chB => Sys2Proof.Machine.execTickTimeout t chB s
  | .peerSnapshot t chB => Sys2Proof.Machine.execPeerSnapshot t chB s
  | .resultCompare t chB same => Sys2Proof.Machine.execResultCompare t chB same s
  | .peerSilent t chB => Sys2Proof.Machine.execPeerSilent t chB s
  | .selftestFail t chB => Sys2Proof.Machine.execSelftestFail t chB s
  | .testPulseEnd t chB tp => Sys2Proof.Machine.execTestPulseEnd t chB tp s
  | .safDiscrepancy t pair => Sys2Proof.Machine.execSafDiscrepancy t pair s
  | .stop1DelayExpiry t fn => Sys2Proof.Machine.execStop1DelayExpiry t fn s
  | .outputReadbackCheck t out mvA mvB mvSafe => Sys2Proof.Machine.execOutputReadbackCheck t out mvA mvB mvSafe s
  | .safOverload t out => Sys2Proof.Machine.execSafOverload t out s
  | .feedbackTimeout t out => Sys2Proof.Machine.execFeedbackTimeout t out s
  | .safConnLost t conn => Sys2Proof.Machine.execSafConnLost t conn s
  | .singleTimeExpiry t conn => Sys2Proof.Machine.execSingleTimeExpiry t conn s
  | .safetyChannelPowerUp t chB => Sys2Proof.Machine.execSafetyChannelPowerUp t chB s
  | .safetyInputSample t chB levels => Sys2Proof.Machine.execSafetyInputSample t chB levels s
  | .quadratureCount t port up => Sys2Proof.Machine.execQuadratureCount t port up s
  | .sincosSample t port sin cos => Sys2Proof.Machine.execSincosSample t port sin cos s
  | .rateMultiplierCarry t ch => Sys2Proof.Machine.execRateMultiplierCarry t ch s
  | .dividedOutputEdge t port => Sys2Proof.Machine.execDividedOutputEdge t port s
  | .ctReceived t seg chB frame => Sys2Proof.Machine.execCtReceived t seg chB frame s
  | .plantPortLinkChange t port up => Sys2Proof.Machine.execPlantPortLinkChange t port up s
  | .powerDomainUp t domain => Sys2Proof.Machine.execPowerDomainUp t domain s
  | .abandonedRunStop t hammer => Sys2Proof.Machine.execAbandonedRunStop t hammer s
  | .temperatureConditionEnd t die => Sys2Proof.Machine.execTemperatureConditionEnd t die s
  | .msiXVectorUnmask t vec => Sys2Proof.Machine.execMsiXVectorUnmask t vec s
  | .nvPageReadDone t => Sys2Proof.Machine.execNvPageReadDone t s

end Sys2Proof.Machine
end

