-- ==== Sys2Proof/Safety.lean ====
section
/-! DEFINITION. What counts as a safe run, and the terms in which statements speak of commands: what a command finds,
what it leaves, and what it leaves alone. -/

namespace Sys2Proof

/-- A command that is a descriptor: its time, its header and its operation. -/
def Instr.descr : Instr → Option (Nat × DHdr × DOp)
  | .nop t h => some (t, h, .nop)
  | .fence t h r w => some (t, h, .fence r w)
  | .mode t h c => some (t, h, .mode c)
  | .moveAbs t h x => some (t, h, .moveAbs x)
  | .moveRel t h d => some (t, h, .moveRel d)
  | .jog t h v => some (t, h, .jog v)
  | .stop t h => some (t, h, .stop)
  | .limits t h v a d e j => some (t, h, .limits v a d e j)
  | .follow t h ai pos src g lag => some (t, h, .follow ai pos src g lag)
  | .gear t h w m n d o => some (t, h, .gear w m n d o)
  | .camEngage t h tb c q md m o b x => some (t, h, .camEngage tb c q md m o b x)
  | .camDisengage t h v => some (t, h, .camDisengage v)
  | .groupMove t h f => some (t, h, .groupMove f)
  | .phaseIn t h w => some (t, h, .phaseIn w)
  | .setc t h i b v => some (t, h, .setc i b v)
  | .loadset t h i b v => some (t, h, .loadset i b v)
  | .swapset t h m => some (t, h, .swapset m)
  | .terrace t h s n b t1 t2 t3 y => some (t, h, .terrace s n b t1 t2 t3 y)
  | .filter t h c e => some (t, h, .filter c e)
  | .learn t h f => some (t, h, .learn f)
  | .resample t h l g => some (t, h, .resample l g)
  | .couple t h f => some (t, h, .couple f)
  | .ident t h f => some (t, h, .ident f)
  | .camLoad t h tb k s r y => some (t, h, .camLoad tb k s r y)
  | .axisCfg t h c => some (t, h, .axisCfg c)
  | .nodeMgmtUnmute t h true k j fn b d => some (t, h, .nodeReq k j fn b d)
  | .nodeMgmtUnmute t h false k j _ _ _ => some (t, h, .unmute k j)
  | .timeStep t h d x => some (t, h, .timeStep d x)
  | .timeSelect t h d a => some (t, h, .timeSelect d a)
  | .nvWrite t h a b l d => some (t, h, .nvWrite a b l d)
  | .nvRead t h a b l => some (t, h, .nvRead a b l)
  | .safetyLoad t h d => some (t, h, .safetyLoad d)
  | .safetyConfirm t h c => some (t, h, .safetyConfirm c)
  | .inject t h d s => some (t, h, .inject d s)
  | .unfence t h s => some (t, h, .unfence s)
  | .clearLedger t h => some (t, h, .clearLedger)
  | .clearFlags t h m => some (t, h, .clearFlags m)
  | .trace t h e g c s lo hi => some (t, h, .trace e g c s lo hi)
  | _ => none

/-- The command of the safety cycle's start, SAFETY_TICK. -/
def Instr.isSafetyTick : Instr → Bool
  | .safetyTick _ _ _ _ _ _ _ => true
  | _ => false

/-- The commands of the TAP. -/
def Instr.isTap : Instr → Bool
  | .bypass _ => true
  | .samplePreload _ => true
  | .extest _ => true
  | .tapReset _ => true
  | _ => false

/-- The commands by which the package supervisor's rails, supply conditions, temperatures and clocks change (18 Tables
18.1 to 18.5; 01 R37, R40). -/
def Instr.isSupervisor : Instr → Bool
  | .resetRelease _ => true
  | .railGood _ _ => true
  | .railTimeout _ _ => true
  | .railRetry _ => true
  | .railFail _ _ => true
  | .railFailShutdown _ _ => true
  | .supplyNvw _ => true
  | .supplyHold _ => true
  | .vrstCrossed _ => true
  | .vaonMinCrossed _ => true
  | .vsuvCrossed _ => true
  | .supplyConditionEnd _ _ => true
  | .tempHigh _ _ => true
  | .tempShutdown _ _ => true
  | .thermalRailOff _ => true
  | .thermalRestart _ _ => true
  | .temperatureConditionEnd _ _ => true
  | .pllLockLoss _ _ => true
  | .tdCheck _ _ => true
  | .perst _ => true
  | .bootStart _ => true
  | _ => false

end Sys2Proof

namespace Sys2Proof.Machine

/-- What a command at time `t` leaves when its effect makes `w` of what it finds: the queue is the sender's, and machine
time does not run back. -/
def ends (s : State) (t : Nat) (w : State) : State := { w with pending := s.pending, now := max s.now t }

/-- `w` is `b` but for marks, fences and counts of the assay unit, the host interface, the twin link and the outputs. -/
def Desk (b w : State) : Prop := w = { b with out := w.out, host := w.host, tw := w.tw, asy := w.asy }

/-- The same, and axis `a` may differ. -/
def OnAxis (a : Nat) (b w : State) : Prop := (∀ x, x ≠ a → w.axis x = b.axis x) ∧ Desk { b with axes := w.axes } w

/-- `b` passes the checks that rest on a descriptor's target, on the mode and on its payload alone (14 R559). -/
def Taken (b : State) (h : DHdr) (op : DOp) : Prop :=
  tgtOk (opcOf op) h.tgt = true ∧ b.modeExcludes (opcOf op) = false ∧ payloadFault op h.tgt = none

/-- A change of the load of the segment of a descriptor's axis from `v` to `w` is admitted (02 R81, 15 R596): the device follows,
the axis is of no segment, no length of a job changes, or the valley passes its bound all the same. -/
def Admits (b v w : State) (a : Nat) : Prop :=
  b.tw.role = .follower ∨ ∀ k, b.segOf a = some k → admitChange v w k = true

/-- The supervisor without the mode, the domains and what links report: supplies, rails, temperatures and clocks. -/
def Power.steady (p : Power) : Power :=
  { p with mode := .boot, prev := .reset, changes := 0, degradedFrom := .idle, pendMode := [], domains := [], linksDown := [],
           retrans := [], supTotalAt := none }

end Sys2Proof.Machine

namespace Sys2Proof.Safety

open Machine

/-- The step at `s` answers a next state. -/
def StepsOn (s : State) : Prop := ∃ s', step s = .next s'

/-- `n` steps lead from one state to another, each answering a next state. -/
inductive StepsTo : Nat → State → State → Prop where
  | zero (s : State) : StepsTo 0 s s
  | succ {n : Nat} {s w v : State} : Machine.step s = .next w → StepsTo n w v → StepsTo (n + 1) s v

/-- Some number of steps from `s` lead to `s'`. -/
def Reaches (s s' : State) : Prop := ∃ n, StepsTo n s s'

/-- The commands that wait stand in the order of their times, and none is earlier than now. -/
def Timely (s : State) : Prop :=
  s.pending.Pairwise (fun c d => c.time ≤ d.time) ∧ ∀ c ∈ s.pending, s.now ≤ c.time

/-- `w` is in RESET, and every block of the logic die, of the analog die and of the host interface stands at its reset value
(18 R726, R729, R795); the TAP is as it was in `b`. -/
def Cleared (b w : State) : Prop :=
  w.pw.mode = .reset ∧ w.regs = {} ∧ w.host = {} ∧ w.pool = {} ∧ w.axes = [] ∧ w.cgroups = [] ∧ w.igroups = [] ∧ w.cams = [] ∧
    w.posted = [] ∧ w.evaluated = [] ∧ w.samples = [] ∧ w.segs = [] ∧ w.fbp = [] ∧ w.lat = [] ∧ w.pul = [] ∧ w.adc = [] ∧
    w.an = {} ∧ w.sram = [] ∧ w.tap = b.tap ∧ w.tapReset = b.tapReset

end Sys2Proof.Safety
end

