-- ==== Sys2Proof/Certificates/Slice0/Obligations.lean ====
section
/-! DEFINITION. The statements about the block, for the provers. Where a statement reads `let b := s.before t`, `b` is what a
command at time `t` finds: the state at that time, after the jobs that were still to be dispatched at an earlier core clock
(03 R113). -/

open Sys2Proof Sys2Proof.Machine

/-! ## The block as a whole -/

/-- A step takes the command at the front of the queue and runs its meaning on the state with the rest of the queue. One queue
orders all commands (the model's choice, log 85). -/
def Obligations.StepRunsTheFrontCommand : Prop :=
  ∀ (c : Instr) (q : List Instr) (s : State), s.pending = c :: q → step s = exec c { s with pending := q }

/-- With no command waiting the block idles (the model's choice, log 1). -/
def Obligations.AnEmptyQueueIdles : Prop := ∀ s : State, s.pending = [] → step s = .next s

/-- Every command completes, whatever its operands and the state: it leaves the rest of the queue alone, and machine time is
the later of the two (times and their order are the model's choice, logs 40 and 42). -/
def Obligations.EveryCommandCompletes : Prop :=
  ∀ (c : Instr) (s : State), ∃ w, exec c s = .next w ∧ w.pending = s.pending ∧ w.now = max s.now c.time

/-- A queue of n commands is empty after n steps, each of which answers a next state, and machine time is then the latest
of the times of the commands and of the start (the model's choice, log 42). -/
def Obligations.TheQueueDrains : Prop :=
  ∀ s : State, ∃ w, Safety.StepsTo s.pending.length s w ∧ w.pending = [] ∧
    w.now = s.pending.foldl (fun n c => max n c.time) s.now

/-- Every step keeps the order of the queue: where the commands that wait stand in the order of their times, none earlier
than now, they do so afterwards, and the command that ran took place at its own time (the order of the queue is the model's, logs 42 and 85). -/
def Obligations.StepKeepsTheOrderOfCommands : Prop :=
  ∀ s w : State, Safety.Timely s → step s = .next w →
    Safety.Timely w ∧ ∀ c, s.pending.head? = some c → w.now = c.time

/-- Reset (04 R795, 10 R430, 15 R582, 17 R669, 20 R793; 19 Table 19.7): the device is in BOOT, every register holds its reset value, no
element is fenced and no mark waits. Every axis is DISABLED and at rest, its policies HALT on a step axis and RAMP for a host STOP and
ESTOP for faults on the others. Every output is off and both channels are OFF, and the device runs alone. The queue is empty, the
order of the queue holds and the NV store is in its canonical form (the model's invariants, logs 1 and 2).
Zeros where the spec states no reset value are the choice of log 3. -/
def Obligations.ResetIsAsSpecified : Prop :=
  let r := State.reset
  r.pw.mode = .boot ∧ r.pw.prev = .reset ∧ r.pending = [] ∧ Safety.Timely r ∧ r.nv.wf = true ∧
  (∀ off, r.force off = Reg.resetValue off ∧ r.stage off = Reg.resetValue off) ∧ (∀ src, r.fenced src = false) ∧ r.asy.held = [] ∧
  (∀ a, (r.axis a).mode = .disabled ∧ (r.axis a).fault = false ∧ (r.axis a).mo.p = 0 ∧ (r.axis a).mo.v = 0 ∧ (r.axis a).mo.a = 0 ∧
    (r.axis a).mo.vmax = 0 ∧ (r.axis a).mo.src = .none ∧ (r.axis a).set.kind = .pos ∧
    (r.axis a).set.faultPol = (if 512 ≤ a ∧ a < 528 then 0 else 2) ∧ (r.axis a).set.stopPol = (if 512 ≤ a ∧ a < 528 then 0 else 1)) ∧
  (∀ k, (r.safOut k).on = false) ∧ (∀ chB, (r.ch chB).st = .off) ∧ r.tw.role = .alone ∧ r.tw.rank = 0 ∧ r.now = 0

/-- No command but SAFETY_TICK closes a safety output (17, Safety functions): an output that is closed after any other
command was closed before it. -/
def Obligations.OnlyTheSafetyTickClosesAnOutput : Prop :=
  ∀ (c : Instr) (s w : State), exec c s = .next w → c.isSafetyTick = false →
    ∀ k, (w.safOut k).on = true → (s.safOut k).on = true

/-- A page of the NV store that is not the page of the transfer in progress reads after any command as before it (18 R742,
R743, R726): only a page write in progress changes a page, when it is done or when RESET completes it. -/
def Obligations.OnlyThePageInProgressChanges : Prop :=
  ∀ (c : Instr) (s w : State) (p : Nat), exec c s = .next w → (∀ j, s.nv.job = some j → j.pageOf ≠ p) →
    w.nv.page p = s.nv.page p

/-- Every step keeps the NV store in its canonical form: pages in rising order, each of 1024 bytes, none listed that reads
as a blank page (18 R742; what a blank page reads as is the model's choice, log 4). -/
def Obligations.StepKeepsTheNvStoreCanonical : Prop :=
  ∀ s w : State, s.nv.wf = true → step s = .next w → w.nv.wf = true

/-- The rails, the supply conditions, the temperatures and the PLLs change by the supervisor's own commands alone: no
descriptor, no register access, no frame and no expiry elsewhere changes any of them (18 R721 to R731). -/
def Obligations.OnlyTheSupervisorChangesTheSupplies : Prop :=
  ∀ (c : Instr) (s w : State), exec c s = .next w → c.isSupervisor = false → w.pw.steady = s.pw.steady

/-! ## The package supervisor, the TAP and BOOT (18, 01, 20) -/

/-- The four commands of the TAP load their instruction, TAP_RESET holds the TAP in reset with BYPASS, and nothing else of
the machine changes (20 R793).
No instruction of the TAP but its own changes it, RESET included (20 R793). -/
def Obligations.TapInstructionsLoadTheTap : Prop :=
  (∀ (s : State) (t : Nat), let b := s.before t
    exec (.bypass t) s = .next (ends s t { b with tap := .bypass, tapReset := false }) ∧
    exec (.samplePreload t) s = .next (ends s t { b with tap := .sample, tapReset := false }) ∧
    exec (.extest t) s = .next (ends s t { b with tap := .extest, tapReset := false }) ∧
    exec (.tapReset t) s = .next (ends s t { b with tap := .bypass, tapReset := true })) ∧
  (∀ (c : Instr) (s w : State), exec c s = .next w → c.isTap = false → w.tap = s.tap ∧ w.tapReset = s.tapReset)

/-- Sequencing of the rails (18 R721, 01 R37): the release of reset enables VIO. A rail that is good hands on to the next in
the order VIO, VAFE, V1P0, VCORE, and after VCORE the package enters BOOT from RESET while VHOLD and VRST do not hold. A rail
that is not good 2 ms after it was enabled counts an attempt and takes the rails of the sequence down. Sequencing starts
again 100 ms later, three attempts in all, and after the third the package stays in RESET. Only the supervisor changes before
VCORE is good.
That RESET_RELEASE also acts in BOOT is the choice of log 61. A row whose condition does not hold changes nothing but the
time (the choice of log 40). -/
def Obligations.RailsComeUpInOrder : Prop :=
  ∀ (s : State) (t : Nat), let b := s.before t
  (b.maySequence = true → b.pw.attempts = 0 →
    exec (.resetRelease t) s = .next (ends s t { b with pw := { b.pw with enabling := some (.vio, b.now) } })) ∧
  (∀ since, b.pw.enabling = some (.vio, since) → ∃ w, exec (.railGood t 1) s = .next (ends s t w) ∧
    w = { b with pw := { b.pw with railsGood := w.pw.railsGood, enabling := some (.vafe, b.now) } } ∧
    w.pw.railsGood = b.pw.railsGood.filter (fun r => decide (r ≠ .vio)) ++ [.vio]) ∧
  (∀ since, b.pw.enabling = some (.vafe, since) → ∃ w, exec (.railGood t 2) s = .next (ends s t w) ∧
    w = { b with pw := { b.pw with railsGood := w.pw.railsGood, enabling := some (.v1p0, b.now) } } ∧
    w.pw.railsGood = b.pw.railsGood.filter (fun r => decide (r ≠ .vafe)) ++ [.vafe]) ∧
  (∀ since, b.pw.enabling = some (.v1p0, since) → ∃ w, exec (.railGood t 3) s = .next (ends s t w) ∧
    w = { b with pw := { b.pw with railsGood := w.pw.railsGood, enabling := some (.vcore, b.now) } } ∧
    w.pw.railsGood = b.pw.railsGood.filter (fun r => decide (r ≠ .v1p0)) ++ [.v1p0]) ∧
  (∀ since, b.pw.enabling = some (.vcore, since) → ∃ w, exec (.railGood t 4) s = .next (ends s t w) ∧
    Rail.vcore ∈ w.pw.railsGood ∧ w.pw.enabling = none ∧ w.pw.attempts = 0 ∧
    (b.pw.mode = .reset → Rail.vio ∈ b.pw.railsGood → Rail.vafe ∈ b.pw.railsGood → Rail.v1p0 ∈ b.pw.railsGood →
      b.pw.hold = false → b.pw.vrst = false → w.pw.mode = .boot)) ∧
  (∀ r since, b.pw.enabling = some (Rail.ofCode r, since) → since + 8000000 ≤ b.now → b.pw.attempts < 2 →
    exec (.railTimeout t r) s = .next (ends s t { b with
      pw := { b.pw with railsGood := b.pw.railsGood.filter fun r => !railOrder.contains r, enabling := none,
                        attempts := b.pw.attempts + 1, failedAt := b.now } })) ∧
  (∀ r since, b.pw.enabling = some (Rail.ofCode r, since) → since + 8000000 ≤ b.now → 2 ≤ b.pw.attempts →
    ∃ w, exec (.railTimeout t r) s = .next (ends s t w) ∧ w = { b with pw := w.pw } ∧ w.pw.mode = .reset ∧ w.pw.enabling = none ∧
      w.pw.attempts = b.pw.attempts + 1 ∧ w.pw.railsGood = b.pw.railsGood.filter fun r => !railOrder.contains r) ∧
  (b.maySequence = true → 1 ≤ b.pw.attempts → b.pw.attempts < 3 → b.pw.failedAt + 400000000 ≤ b.now →
    exec (.railRetry t) s = .next (ends s t { b with pw := { b.pw with enabling := some (.vio, b.now) } })) ∧
  (3 ≤ b.pw.attempts → exec (.railRetry t) s = .next (ends s t b))

/-- The causes of RESET (18 R722, R726, R731; 01 R40): a fall of VIN through VRST, of VAON through its minimum, the loss of a
PLL's lock, a TD oscillator out of range, the failure of VCORE or V1P0, the shutdown 1 ms after VIO or VAFE failed, and the
rails' going off 1 ms after a junction reached 140 degrees. From any other mode the mode is RESET afterwards with that cause,
every set-up register, ring, axis, segment and port stands at its reset value, and the TAP and the safety outputs' open
state stay.
What RESET keeps beyond the words of the spec is log 36. -/
def Obligations.ResetClearsTheSpine : Prop :=
  ∀ (s : State) (t : Nat), let b := s.before t
  b.pw.mode ≠ .reset →
  (∃ w, exec (.vrstCrossed t) s = .next (ends s t w) ∧ Safety.Cleared b w ∧ w.pw.cause = .vrst ∧ w.pw.vrst = true ∧ w.saf = b.saf) ∧
  (∃ w, exec (.vaonMinCrossed t) s = .next (ends s t w) ∧ Safety.Cleared b w ∧ w.pw.cause = .powerOn ∧ w.pw.vaonMin = true ∧
    w.asy = {} ∧ w.saf = b.saf) ∧
  (∀ pll, pll + 2 ∈ b.pw.plls →
    ∃ w, exec (.pllLockLoss t pll) s = .next (ends s t w) ∧ Safety.Cleared b w ∧ w.pw.cause = .clock ∧ w.saf = b.saf) ∧
  (b.tdDue = true → ∃ w, exec (.tdCheck t false) s = .next (ends s t w) ∧ Safety.Cleared b w ∧ w.pw.cause = .clock ∧ w.saf = b.saf) ∧
  (b.pw.sequenced = true → ∃ w, exec (.railFail t 4) s = .next (ends s t w) ∧ Safety.Cleared b w ∧ w.pw.cause = .rail ∧
    w.pw.causeRail = 0x010 ∧ w.saf = b.saf) ∧
  (b.pw.sequenced = true → ∃ w, exec (.railFail t 3) s = .next (ends s t w) ∧ Safety.Cleared b w ∧ w.pw.cause = .rail ∧
    w.pw.causeRail = 0x011 ∧ w.saf = b.saf) ∧
  (∀ r since, b.pw.railLost = some since → since + 4000000 ≤ b.now →
    ∃ w, exec (.railFailShutdown t r) s = .next (ends s t w) ∧ Safety.Cleared b w ∧ w.pw.cause = .rail ∧ w.pw.attempts = 1 ∧
      w.pw.railLost = none ∧ w.saf = b.saf) ∧
  (∀ since, b.pw.shutAt = some since → since + 4000000 ≤ b.now →
    ∃ w, exec (.thermalRailOff t) s = .next (ends s t w) ∧ Safety.Cleared b w ∧ w.pw.cause = .thermal ∧ w.pw.shutAt = none ∧
      ∀ k, (w.safOut k).on = false)

/-- The supply conditions (18 R722, R724, R725, R727): VNVW sets NVW and raises its mark, VHOLD sets HOLD and takes the device
from COMMISSION, IDLE, RUN or DEGRADED to SAFE_HOLD, a failure of VIO or VAFE does the same and starts the shutdown's time,
the failure of VSAFE opens every safety output and takes both channels to OFF, and each condition clears at its end.
Junction temperatures (01 R40): 125 degrees raises TEMP_HIGH with its die live, 140 degrees sets the shutdown going and
takes the device to SAFE_HOLD, the end of either clears it, and the package restarts from RESET after a thermal shutdown
once no die is hot.
The codes of SUPPLY_CONDITION_END are the choice of log 62, the moment of the reactions that of log 60. -/
def Obligations.SuppliesAndTemperaturesAct : Prop :=
  (∀ (s : State) (t : Nat), let b := s.before t
  let stoppable := b.pw.mode = .commission ∨ b.pw.mode = .idle ∨ b.pw.mode = .run ∨ b.pw.mode = .degraded
  (b.pw.nvw = false → exec (.supplyNvw t) s =
    .next (ends s t (({ b with pw := { b.pw with nvw := true, nvwAt := b.core + 1 } }.liveOn srcVin 0x16).raise srcVin 0x16 0 []))) ∧
  (b.pw.hold = false → ∃ w, exec (.supplyHold t) s = .next (ends s t w) ∧ w.pw.hold = true ∧
    (stoppable → w.pw.mode = .safeHold)) ∧
  (b.pw.sequenced = true → ∃ w, exec (.railFail t 1) s = .next (ends s t w) ∧ w.pw.railLost = some b.now ∧
    w.pw.causeRail = 0x013 ∧ Rail.vio ∉ w.pw.railsGood ∧ (stoppable → w.pw.mode = .safeHold)) ∧
  (b.pw.sequenced = true → ∃ w, exec (.railFail t 2) s = .next (ends s t w) ∧ w.pw.railLost = some b.now ∧
    w.pw.causeRail = 0x012 ∧ Rail.vafe ∉ w.pw.railsGood ∧ (stoppable → w.pw.mode = .safeHold)) ∧
  (b.pw.vsuv = false → ∃ w, exec (.vsuvCrossed t) s = .next (ends s t w) ∧ w.pw.vsuv = true ∧ 1 ∉ w.pw.domains ∧
    2 ∉ w.pw.domains ∧ (∀ k, (w.safOut k).on = false) ∧ w.saf.a.st = .off ∧ w.saf.b.st = .off ∧
    (stoppable → w.pw.mode = .safeHold)) ∧
  (∃ w, exec (.supplyConditionEnd t 0) s = .next (ends s t w) ∧ w.pw = { b.pw with nvw := false }) ∧
  (∃ w, exec (.supplyConditionEnd t 1) s = .next (ends s t w) ∧ w.pw.hold = false) ∧
  exec (.supplyConditionEnd t 2) s = .next (ends s t { b with pw := { b.pw with vrst := false, attempts := 0 } }) ∧
  exec (.supplyConditionEnd t 3) s = .next (ends s t { b with pw := { b.pw with vaonMin := false } }) ∧
  (∃ w, exec (.supplyConditionEnd t 4) s = .next (ends s t w) ∧ w.pw = { b.pw with vsuv := false })) ∧
  (∀ (s : State) (t die : Nat), let b := s.before t
  (die ∉ b.pw.hot → exec (.tempHigh t die) s =
    .next (ends s t (({ b with pw := { b.pw with hot := b.pw.hot ++ [die] } }.liveOn (srcTemp die) 0x14).raise (srcTemp die)
      0x14 0 []))) ∧
  (die ∉ b.pw.shut → ∃ w, exec (.tempShutdown t die) s = .next (ends s t w) ∧ w.pw.shut = b.pw.shut ++ [die] ∧
    w.pw.shutAt = some (b.pw.shutAt.getD b.now) ∧
    (b.pw.mode = .commission ∨ b.pw.mode = .idle ∨ b.pw.mode = .run ∨ b.pw.mode = .degraded → w.pw.mode = .safeHold)) ∧
  (∃ w, exec (.thermalRestart t die) s = .next (ends s t w) ∧ die ∉ w.pw.shut ∧ die ∉ w.pw.hot ∧
    (b.pw.mode = .reset → b.pw.cause = .thermal → b.pw.shut = [die] → b.pw.railsGood = [.vaon] → b.pw.enabling = none →
      b.pw.vrst = false → b.pw.attempts < 3 → w.pw.enabling = some (.vio, b.now)) ∧
    (b.pw.mode ≠ .reset → w.pw.enabling = b.pw.enabling)) ∧
  (∃ w, exec (.temperatureConditionEnd t die) s = .next (ends s t w) ∧
    w.pw = { b.pw with hot := b.pw.hot.filter fun d => decide (d ≠ die) } ∧ (∀ k ∈ (w.src (srcTemp die)).live, k ≠ 0x14)))

/-- Start of the package (18 R730, R731, R739, R740, R744; 13 R525; 17 R699): a due domain comes up, the reference is ready 2 ms
after its buffer came on, PERST_N starts the endpoint, a TD oscillator in range is recorded every 1 ms, BOOT locks the PLLs and judges
both images, and BOOT without an image whose check value agrees ends in COMMISSION with BOOT_ERR 1.
A row whose condition does not hold changes nothing but the time (the choice of log 40). -/
def Obligations.ThePackageBoots : Prop :=
  ∀ (s : State) (t : Nat), let b := s.before t
  (∀ d, d ∉ b.pw.domains → b.pw.mode ≠ .reset → 3 ≤ d → d < 4 ∨ (8 ≤ d ∧ d < 11) →
    exec (.powerDomainUp t d) s = .next (ends s t { b with pw := { b.pw with domains := b.pw.domains ++ [d] } })) ∧
  (b.refEn = true → 11 ∈ b.pw.domains → b.an.refOnAt + 8000000 ≤ b.now →
    exec (.refReady t) s = .next (ends s t { b with an := { b.an with ready := true } })) ∧
  exec (.perst t) s = .next (ends s t { b with pw := { b.pw with perst := true, refclk := true } }) ∧
  (b.tdDue = true → exec (.tdCheck t true) s = .next (ends s t { b with pw := { b.pw with tdOk := true, tdAt := some b.now } })) ∧
  (∀ ok a, b.pw.tdAt = some a → b.now < a + 4000000 → exec (.tdCheck t ok) s = .next (ends s t b)) ∧
  (b.pw.mode = .boot → b.pw.plls = [] → b.pw.sequenced = true → b.nvFenced = false → ∃ w, exec (.bootStart t) s = .next (ends s t w) ∧
    w.pw = { b.pw with plls := [2, 3, 4, 5, 6, 7] } ∧ w.time = { b.time with lockAt := b.now } ∧
    w.nv.aValid = b.nv.imageValid false ∧ w.nv.bValid = b.nv.imageValid true ∧ w.nv.pages = b.nv.pages) ∧
  (∀ ball, b.pw.mode = .boot → b.pw.plls ≠ [] → b.nvFenced = false → b.nv.bootImage = none →
    ∃ w, exec (.bootComplete t ball) s = .next (ends s t w) ∧ w.pw.mode = .commission ∧ w.nv.bootErr = 1 ∧ w.tw.ball = ball ∧
      w.nv.pages = b.nv.pages) ∧
  (∀ ball img, b.pw.mode = .boot → b.pw.plls ≠ [] → b.nvFenced = false → b.nv.bootImage = some img → b.nv.imageBody img = [] →
    byteAt (b.nv.imageHead img) 16 = 0 →
    ∃ w, exec (.bootComplete t ball) s = .next (ends s t w) ∧ w.pw.mode = .idle ∧ w.nv.bootErr = b.nv.bootErr ∧
      w.nv.pages = b.nv.pages)

/-! ## The NV store (18 R742 to R748, 17 R698, R699) -/

/-- NV_WRITE and NV_READ (18 R724, R742, R743, R745): a transfer whose range, area and mode the store accepts is queued as pages from
the address on. It starts at once where none is in progress, and waits its turn otherwise. A snapshot form transfers the learning table of
its axis. A write under VNVW, a transfer of no bytes, one whose range is at fault and one of a fenced store transfer nothing.
The pages of a transfer (18 R724, R742, R745; 01 R38): a page write that is done makes its page read as written and no other, and goes
on with the next unless VNVW forbids it. A page read writes the page to the host buffer, the last page of a snapshot loads the learning
table of its axis. A page write that is not confirmed within 1 ms raises NV_TIMEOUT with the page's address kept, and persistence writes the
marks of the ledger not yet written.
Corners of the transfers are those of log 72. The form of a descriptor as a command is the choice of log 43. A row whose
condition does not hold changes nothing but the time (the choice of log 40). -/
def Obligations.NvTransfersRunPageByPage : Prop :=
  (∀ (s : State) (t : Nat) (h : DHdr) (addr buf len : Nat) (data : List Byte), let b := s.before t
  let queued (j : NvJob) : State := if b.nv.job.isSome then { b with nv := { b.nv with waiting := b.nv.waiting ++ [j] } }
    else { b with nv := { b.nv with job := some j, startedAt := b.now } }
  b.nv.waiting = [] ∨ b.nv.job.isSome = true →
  (∀ area, Taken b h (.nvWrite addr buf len data) → b.nvFenced = false → nvRange addr buf len = none → areaOf addr = some area →
    area.writable = true → area.inMode b.pw.mode = true → b.nvBarred = false → 0 < len →
    (snapAxis addr buf = none → ∃ w, exec (.nvWrite t h addr buf len data) s = .next (ends s t w) ∧
      Desk (queued (.write b.host.nextId (addr / 1024) (padTo len data) 0)) w) ∧
    (∀ a, snapAxis addr buf = some a → (b.axis a).ln.master.isSome = true →
      ∃ w, exec (.nvWrite t h addr buf len data) s = .next (ends s t w) ∧
        Desk (queued (.write b.host.nextId (addr / 1024) (snapBytes a (b.cmdCtx h (.nvWrite addr buf len data)).n (b.axis a).ln) 0)) w)) ∧
  (Taken b h (.nvWrite addr buf len data) → b.nvFenced = true ∨ nvRange addr buf len ≠ none ∨ b.nvBarred = true ∨ len = 0 →
    ∃ w, exec (.nvWrite t h addr buf len data) s = .next (ends s t w) ∧ Desk b w) ∧
  (Taken b h (.nvRead addr buf len) → b.nvFenced = false → nvRange addr buf len = none → 0 < len →
    (snapAxis addr buf = none → ∃ w, exec (.nvRead t h addr buf len) s = .next (ends s t w) ∧
      Desk (queued (.read b.host.nextId (addr / 1024) (len / 1024) buf 0)) w) ∧
    (∀ a, snapAxis addr buf = some a → b.pw.mode = .commission ∨ b.pw.mode = .idle ∨ b.pw.mode = .armed →
      snapOk a (b.axis a).ln (b.nv.readPages (addr / 1024) 9) = true → ∃ w, exec (.nvRead t h addr buf len) s = .next (ends s t w) ∧
        Desk (queued (.snapshot b.host.nextId a (addr / 1024) 9 [])) w)) ∧
  (Taken b h (.nvRead addr buf len) → b.nvFenced = true ∨ nvRange addr buf len ≠ none ∨ (len = 0 ∧ snapAxis addr buf = none) →
    ∃ w, exec (.nvRead t h addr buf len) s = .next (ends s t w) ∧ Desk b w)) ∧
  (∀ (s : State) (t : Nat), let b := s.before t
  (∀ id p rest done, b.nv.job = some (.write id p rest done) → ∃ w, exec (.nvPageWriteDone t) s = .next (ends s t w) ∧
    w.nv.page p = padTo 1024 (rest.take 1024) ∧ (∀ q, q ≠ p → w.nv.page q = b.nv.page q) ∧
    (rest.drop 1024 ≠ [] → b.nvBarred = false → b.nv.waiting = [] →
      w.nv.job = some (.write id (p + 1) (rest.drop 1024) (done + 1024)) ∧ w.nv.startedAt = b.now) ∧
    (rest.drop 1024 = [] ∨ b.nvBarred = true → b.nv.waiting = [] → w.nv.job = none)) ∧
  (∀ p pg rest, b.nv.job = some (.ledger p (pg :: rest)) → ∃ w, exec (.nvPageWriteDone t) s = .next (ends s t w) ∧
    w.nv.page (0x814000 / 1024 + p) = padTo 1024 pg ∧ (∀ q, q ≠ 0x814000 / 1024 + p → w.nv.page q = b.nv.page q) ∧
    w.nv.ledgerPage = (p + 1) % 8) ∧
  (∀ id p left buf done, b.nv.job = some (.read id p left buf done) → b.fenced srcHostEngine = false →
    ∃ w, exec (.nvPageReadDone t) s = .next (ends s t w) ∧
    .hostWrite (buf + done) (b.nv.page p) ∈ w.out ∧ (∀ q, w.nv.page q = b.nv.page q) ∧
    (1 < left → b.nv.waiting = [] → w.nv.job = some (.read id (p + 1) (left - 1) buf (done + 1024))) ∧
    (left ≤ 1 → b.nv.waiting = [] → w.nv.job = none)) ∧
  (∀ id a p got, b.nv.job = some (.snapshot id a p 1 got) → ∃ w, exec (.nvPageReadDone t) s = .next (ends s t w) ∧
    (w.axis a).ln = { (b.axis a).ln with bins := snapBins (b.axis a).ln.log2n (got ++ b.nv.page p) } ∧
    (∀ x, x ≠ a → w.axis x = b.axis x) ∧ ∀ q, w.nv.page q = b.nv.page q) ∧
  (∀ j, b.nv.job = some j → j.writes = true → b.nv.startedAt + 4000000 ≤ b.now → ∃ w, exec (.nvTimeout t) s = .next (ends s t w) ∧
    w.nv.suspect = min 255 (b.nv.suspect + 1) ∧ w.nv.suspectAddr = 1024 * j.pageOf ∧ (∀ q, w.nv.page q = b.nv.page q) ∧
    ∃ m l, w.asy.held = b.asy.held ++ m :: l ∧ m.src = srcNv ∧ m.kind = 0x13) ∧
  (∀ j, b.nv.job = some j → b.now < b.nv.startedAt + 4000000 → exec (.nvTimeout t) s = .next (ends s t b)) ∧
  (b.asy.persistDue = true → b.nvFenced = false → b.fenced (srcCode 4 0x006) = false → 0 < min b.asy.unpersisted b.asy.cnt →
    let pages := ledgerPages 3 (b.asy.newest (min b.asy.unpersisted b.asy.cnt))
    ∃ w, exec (.ledgerPersistence t) s = .next (ends s t w) ∧
      w = { b with nv := w.nv, asy := { b.asy with persistDue := false, unpersisted := 0 } } ∧ w.nv.pages = b.nv.pages ∧
      (b.nv.job = none → b.nv.waiting = [] → w.nv.job = some (.ledger b.nv.ledgerPage pages) ∧ w.nv.startedAt = b.now) ∧
      (b.nv.job.isSome = true → w.nv.job = b.nv.job ∧ w.nv.waiting = b.nv.waiting ++ [.ledger b.nv.ledgerPage pages])) ∧
  (b.asy.persistDue = false → exec (.ledgerPersistence t) s = .next (ends s t b)))

/-- The safety parameter set (17 R698, R699; 18 R747): in COMMISSION a set without fault is loaded, is not in force, takes
both channels to OFF and waits for its check value. SAFETY_CONFIRM with another value, or outside COMMISSION, changes
nothing. With the value it is written to the older copy, and is in force once its pages are written. With no set waiting and the value of
the set in force it is the acknowledgement where no input gives it (17 R671).
The pages of the two copies are those of log 27. The form of a descriptor as a command is the choice of log 43. -/
def Obligations.SafetyParametersAreLoadedAndConfirmed : Prop :=
  ∀ (s : State) (t : Nat) (h : DHdr), let b := s.before t
  (∀ data, Taken b h (.safetyLoad data) → b.pw.mode = .commission → leastOf (spsRange data) = none → leastOf (spsIncons data) = none →
    ∃ w, exec (.safetyLoad t h data) s = .next (ends s t w) ∧ Desk { b with saf := w.saf } w ∧ w.saf.loaded = some data ∧
      w.saf.checkLoaded = crc32c data ∧ w.saf.sps = none ∧ w.saf.a.st = .off ∧ w.saf.b.st = .off ∧
      ∀ k < 8, (w.safOut k).want = false) ∧
  (∀ data, Taken b h (.safetyLoad data) → b.pw.mode ≠ .commission →
    ∃ w, exec (.safetyLoad t h data) s = .next (ends s t w) ∧ Desk b w) ∧
  (∀ check sps, Taken b h (.safetyConfirm check) → b.pw.mode = .commission → b.saf.loaded = some sps → check = b.saf.checkLoaded →
    b.nvBarred = false → b.nvFenced = false → b.nv.job = none → b.nv.waiting = [] →
    ∃ w, exec (.safetyConfirm t h check) s = .next (ends s t w) ∧ w.saf = b.saf ∧
      w.nv.job = some (.confirm b.host.nextId (spsPage (match b.nv.spsNewer with | some c => 1 - c | none => 0))
        (b.nv.spsBytes sps check) check)) ∧
  (∀ check sps, Taken b h (.safetyConfirm check) → b.saf.loaded = some sps → b.pw.mode ≠ .commission ∨ check ≠ b.saf.checkLoaded →
    ∃ w, exec (.safetyConfirm t h check) s = .next (ends s t w) ∧ Desk b w) ∧
  (∀ check, Taken b h (.safetyConfirm check) → b.pw.mode = .commission → b.saf.loaded = none → b.saf.sps.isSome = true → b.ackInput = none →
    check = b.saf.checkForce → ∃ w, exec (.safetyConfirm t h check) s = .next (ends s t w) ∧
      Desk { b with saf := { b.saf with ackOwed := true } } w) ∧
  (∀ id p rest check sps, b.nv.job = some (.confirm id p rest check) → rest.drop 1024 = [] → b.nv.waiting = [] →
    b.saf.loaded = some sps → b.saf.checkLoaded = check →
    ∃ w, exec (.nvPageWriteDone t) s = .next (ends s t w) ∧ w.saf.sps = some sps ∧ w.saf.loaded = none ∧ w.saf.checkForce = check)

/-! ## The assay unit (16) and the elements it fences (01) -/

/-- Raising a mark (16 R621, R622, R624, R629): the mark carries the next sequence, the machine time and cycle of detection,
the class of its kind and the reaction in force, waits for its release, and sets STICKY, the last kind and the count of its
source. Nothing but the assay unit changes.
The release of marks (16 R627, R631): with one mark due and nothing else held, MARK_RELEASE takes it out of the list that
waits, and writes its 32 bytes to the next place of a ledger that is in service and not full for the cycle; with no mark older
than 4 microseconds nothing changes.
That most reactions are taken at the release is log 75. A row whose condition does not hold changes nothing but the time (the
choice of log 40). -/
def Obligations.MarksAreRecordedAndReleased : Prop :=
  (∀ (s : State) (src kind addr : Nat) (detail : List Byte), ∃ m,
    s.raise src kind addr detail = { s with asy := (s.raise src kind addr detail).asy } ∧
    (s.raise src kind addr detail).asy.held = s.asy.held ++ [m] ∧ m.src = src ∧ m.kind = kind ∧ m.cls = kindClass kind ∧
    m.react = s.reactOf kind ∧ m.addr = addr ∧ m.mt = s.mt ∧ m.cyc = s.cyc ∧ m.seq = (s.asy.seq + 1) % 256 ∧
    (s.raise src kind addr detail).asy.seq = (s.asy.seq + 1) % 256 ∧ m.detail = detail ∧
    ((s.raise src kind addr detail).src src).sticky = true ∧ ((s.raise src kind addr detail).src src).lastKind = kind ∧
    ((s.raise src kind addr detail).src src).count = ((s.src src).count + 1) % 2 ^ 16 ∧
    ((s.raise src kind addr detail).src src).live = (s.src src).live ∧
    ∀ x, x ≠ src → (s.raise src kind addr detail).src x = s.src x) ∧
  (∀ (s : State) (t : Nat), let b := s.before t
  (∀ m, b.asy.held = [m] → m.mt + 4000 ≤ b.mt → m.applied = true → b.fenced srcAssay = false → b.asy.written < 64 → b.fenced (srcCode 4 0x006) = false →
    b.withholds m.kind m.react = false → ((b.ringOf 24).on = true → b.room 24 1 = true) →
    ∃ w, exec (.markRelease t) s = .next (ends s t w) ∧ w.asy.held = [] ∧
      SMap.get [] w.asy.ledger b.asy.next = markBytes { m with withheld := false } ∧ w.asy.next = (b.asy.next + 1) % 64 ∧
      w.asy.cnt = min 64 (b.asy.cnt + 1)) ∧
  ((∀ m ∈ b.asy.held, b.mt < m.mt + 4000) → exec (.markRelease t) s = .next (ends s t b)))

/-- Correctable and uncorrectable errors (16 R625, R648; 01 R6, R8, R9, R20, R21, R44): ECC_CORR raises its mark with the
syndrome, bit and axis and changes nothing else. ECC_DOUBLE and PARITY at a hammer, whose bench and valley are not fenced in the same core
clock (R51), raise their marks and fence the hammer.
A flit error counts a retransmission of its link, and the 17th in a major cycle raises LINK_RETRY. A link that goes down is
recorded with its mark, that of a safety channel locks the channel out, and that of the NV die fences the store.
The reactions taken at detection are those of log 75, events of one core clock are found in the queue (log 88). -/
def Obligations.ErrorsAreReported : Prop :=
  ∀ (s : State) (t : Nat), let b := s.before t
  (∀ src addr syn bt ax, exec (.eccCorr t src addr syn bt ax) s =
    .next (ends s t (b.raise src 0x01 addr (eccDetail src syn bt ax)))) ∧
  (∀ hm addr syn obj, hm < 128 → b.fenced (srcHammer hm) = false → b.yields hm = false → ∃ w, exec (.eccDouble t (srcHammer hm) addr syn obj) s = .next (ends s t w) ∧
    w.fenced (srcHammer hm) = true ∧ ∃ m l, w.asy.held = b.asy.held ++ m :: l ∧ m.src = srcHammer hm ∧ m.kind = 0x02 ∧ m.addr = addr ∧
      m.detail = eccDetail (srcHammer hm) syn 0xFF obj) ∧
  (∀ hm addr, hm < 128 → b.fenced (srcHammer hm) = false → b.yields hm = false → ∃ w, exec (.parity t (srcHammer hm) addr) s = .next (ends s t w) ∧
    w.fenced (srcHammer hm) = true ∧ ∃ m l, w.asy.held = b.asy.held ++ m :: l ∧ m.src = srcHammer hm ∧ m.kind = 0x03 ∧ m.addr = addr) ∧
  (∀ link, link < 4 → ∃ w, exec (.flitCrcError t link) s = .next (ends s t w) ∧ w = { b with pw := w.pw, asy := w.asy } ∧
    SMap.get 0 w.pw.retrans link = SMap.get 0 b.pw.retrans link + 1 ∧
    (SMap.get 0 b.pw.retrans link < 16 → w.asy.held = b.asy.held) ∧
    (SMap.get 0 b.pw.retrans link = 16 → (srcCode 5 link, 0x10) ∉ b.asy.once →
      ∃ m, w.asy.held = b.asy.held ++ [m] ∧ m.src = srcCode 5 link ∧ m.kind = 0x10)) ∧
  (∀ link, link < 4 → link ∉ b.pw.linksDown → ∃ w, exec (.linkDown t link) s = .next (ends s t w) ∧
    link ∈ w.pw.linksDown ∧ (∃ m l, w.asy.held = b.asy.held ++ m :: l ∧ m.src = srcCode 5 link ∧ m.kind = 0x11) ∧
    (link = 1 → b.saf.a.powered = true → w.saf.a.st = .lockout) ∧ (link = 2 → b.saf.b.powered = true → w.saf.b.st = .lockout) ∧
    (link = 3 → w.nvFenced = true))

/-- The descriptors of the assay unit (16 R634, R645 to R650, R803): CLEAR_LEDGER empties the ledger and the first-fault
captures, INJECT arms a checker in COMMISSION and IDLE, UNFENCE of an element that is fenced waits for its checks, and the
checks' end lets the element rejoin at the next boundary if all passed.
Which checkers can be armed is log 22. The form of a descriptor as a command is the choice of log 43. -/
def Obligations.AssayDescriptorsAct : Prop :=
  ∀ (s : State) (t : Nat) (h : DHdr), let b := s.before t
  (Taken b h .clearLedger → ∃ w, exec (.clearLedger t h) s = .next (ends s t w) ∧ Desk b w ∧ w.asy.ledger = [] ∧ w.asy.cnt = 0 ∧
    w.asy.next = 0 ∧ w.asy.ff = none ∧ w.asy.ffe = none) ∧
  (∀ double src, Taken b h (.inject double src) → b.pw.mode = .commission ∨ b.pw.mode = .idle → safetySrc src = false → armable src = true →
    (∀ x ∈ b.asy.armed, x.1 ≠ src) →
    ∃ w, exec (.inject t h double src) s = .next (ends s t w) ∧ Desk b w ∧
      (b.leads = false → w.asy.armed = b.asy.armed ++ [(src, double)])) ∧
  (∀ src, Taken b h (.unfence src) → b.pw.mode ≠ .reset → b.pw.mode ≠ .boot → b.pw.mode ≠ .safeHold → fenceable src = true →
    srcLevel src ≠ 6 → b.fenced src = true → (∀ c ∈ b.pool.checks, c.1 ≠ src) →
    ∃ w, exec (.unfence t h src) s = .next (ends s t w) ∧
      Desk { b with pool := { b.pool with checks := b.pool.checks ++ [(src, b.host.nextId)] } } w) ∧
  (∀ src id ok, b.pool.checks.find? (fun c => decide (c.1 = src)) = some (src, id) →
    ∃ w, exec (.unfenceCheckDone t src ok) s = .next (ends s t w) ∧
      Desk { b with pool := { b.pool with checks := b.pool.checks.filter (fun c => decide (c.1 ≠ src)),
                                          rejoin := if ok then b.pool.rejoin ++ [src] else b.pool.rejoin } } w)

/-! ## Descriptors: the checks of 14 R559, and motion (07) -/

/-- A descriptor that fails a check has no effect, and its completion says why (14 R559, R563): a target the opcode does not have
gives REJ_RANGE with the offset of TGT, a mode that excludes the opcode REJ_MODE, a payload out of range or inconsistent the
status and offset of its first fault, in this order. Where no other descriptor is open and the completion ring is on, the
record is written to that ring at its own index.
NOP ends DONE with the machine time (14 Table 14.7); where no other descriptor is open and its completion ring is on, the
record stands in that ring at its own index, the index moves on, and the ring's interrupt is asked for.
The offsets of a fault are those of log 44. The form of a descriptor as a command is the choice of log 43. -/
def Obligations.ChecksComeFirstAndNopTellsTheTime : Prop :=
  (∀ (c : Instr) (s : State) (t : Nat) (h : DHdr) (op : DOp), c.descr = some (t, h, op) → let b := s.before t
  let nm := b.applyCycle op h.tgt
  let claims (w : State) (st : Nat) (res : List Byte) : Prop :=
    b.host.acc = [] → b.postsLeaders = false → (b.ringOf (8 + h.ring)).on = true →
      .ring (8 + h.ring) (b.ringOf (8 + h.ring)).own (cplRecord (b.cmdEntry h op) st nm.1 nm.2 res) ∈ w.out
  (tgtOk (opcOf op) h.tgt = false →
    ∃ w, exec c s = .next (ends s t w) ∧ Desk b w ∧ claims w 0x03 (leBytes 2 4 ++ zeros 6)) ∧
  (tgtOk (opcOf op) h.tgt = true → b.modeExcludes (opcOf op) = true →
    ∃ w, exec c s = .next (ends s t w) ∧ Desk b w ∧ claims w 0x02 (zeros 8)) ∧
  (∀ st off, tgtOk (opcOf op) h.tgt = true → b.modeExcludes (opcOf op) = false → payloadFault op h.tgt = some (st, off) →
    ∃ w, exec c s = .next (ends s t w) ∧ Desk b w ∧ claims w st (leBytes 2 off ++ zeros 6))) ∧
  (∀ (s : State) (t : Nat) (h : DHdr), let b := s.before t
  Taken b h .nop → b.segOf h.tgt = none → let nm := b.applyCycle .nop h.tgt
  ∃ w, exec (.nop t h) s = .next (ends s t w) ∧ Desk b w ∧
    (b.host.acc = [] → b.postsLeaders = false → (b.ringOf (8 + h.ring)).on = true →
      .ring (8 + h.ring) (b.ringOf (8 + h.ring)).own (cplRecord (b.cmdEntry h .nop) 0x00 nm.1 nm.2 (leBytes 8 b.mt)) ∈ w.out ∧
      (h.ring < 8 → (w.ringOf (8 + h.ring)).own = ((b.ringOf (8 + h.ring)).own + 1) % 2 ^ 32) ∧ w.host.acc = []))

/-- MOVE_ABS, MOVE_REL and JOG take effect (07 R291, R293, R294, R299, R315): a descriptor that passes its checks and meets no bar
of its axis puts its target, or its velocity, on the axis, and p*, v* and a* go on from where they are. MOVE_REL adds its
difference to the target of the move that runs, else to p*, and is superimposed while a gear or cam is locked, and a sum
that 64 bits do not hold leaves the axis alone. Nothing but the axis, the host interface, marks and outputs changes.
The form of a descriptor as a command is the choice of log 43. -/
def Obligations.MovesSetTheTarget : Prop :=
  ∀ (s : State) (t : Nat) (h : DHdr), let b := s.before t; let m := (b.axis h.tgt).mo
  (∀ x, Taken b h (.moveAbs x) → b.motionBar (b.cmdCtx h (.moveAbs x)) h.tgt .other = none →
    ∃ w, exec (.moveAbs t h x) s = .next (ends s t w) ∧ OnAxis h.tgt b w ∧ w.axis h.tgt = { b.axis h.tgt with mo := (w.axis h.tgt).mo } ∧
      (w.axis h.tgt).mo.src = .move x (some b.host.nextId) none false ∧
      (w.axis h.tgt).mo.p = m.p ∧ (w.axis h.tgt).mo.v = m.v ∧ (w.axis h.tgt).mo.a = m.a) ∧
  (∀ d, Taken b h (.moveRel d) → b.motionBar (b.cmdCtx h (.moveRel d)) h.tgt .other = none →
    ∃ w, exec (.moveRel t h d) s = .next (ends s t w) ∧ OnAxis h.tgt b w ∧ w.axis h.tgt = { b.axis h.tgt with mo := (w.axis h.tgt).mo } ∧
      (w.axis h.tgt).mo.p = m.p ∧ (w.axis h.tgt).mo.v = m.v ∧ (w.axis h.tgt).mo.a = m.a ∧
      (m.locked = none → fits64 (m.target + d) = true →
        (w.axis h.tgt).mo.src = .move (m.target + d) (some b.host.nextId) none false) ∧
      (m.locked = none → fits64 (m.target + d) = false → w.axis h.tgt = b.axis h.tgt) ∧
      (m.locked.isSome = true → (w.axis h.tgt).mo.src = m.src ∧
        (w.axis h.tgt).mo.sup.map Superimposed.x = some ((m.sup.map Superimposed.x).getD 0 + d))) ∧
  (∀ v, Taken b h (.jog v) → b.motionBar (b.cmdCtx h (.jog v)) h.tgt .other = none →
    ∃ w, exec (.jog t h v) s = .next (ends s t w) ∧ OnAxis h.tgt b w ∧ w.axis h.tgt = { b.axis h.tgt with mo := (w.axis h.tgt).mo } ∧
      (w.axis h.tgt).mo.src = .jog (up48 v) (some b.host.nextId) ∧
      (w.axis h.tgt).mo.p = m.p ∧ (w.axis h.tgt).mo.v = m.v ∧ (w.axis h.tgt).mo.a = m.a)

/-- STOP, LIMITS and CAM_DISENGAGE take effect (07 R288, R298, R322, R326, R329, R336): STOP of an axis off a group's path starts a
stop under the axis's stop policy with the limits in force, or joins the stop in progress, whose policy becomes the steeper.
LIMITS replaces the five limits. CAM_DISENGAGE leaves the cam, keeping the velocity or stopping under RAMP, and without a cam, or
where the segment does not admit the change, leaves the axis alone.
The form of a descriptor as a command is the choice of log 43. -/
def Obligations.StopsAndLimitsAct : Prop :=
  ∀ (s : State) (t : Nat) (h : DHdr), let b := s.before t; let m := (b.axis h.tgt).mo
  (Taken b h .stop → b.motionBar (b.cmdCtx h .stop) h.tgt .stop = none → (b.axis h.tgt).onPath = none → b.chFenced h.tgt = false →
    ∃ w, exec (.stop t h) s = .next (ends s t w) ∧ OnAxis h.tgt b w ∧
      (m.stop = none → ∃ r, (w.axis h.tgt).mo.stop = some r ∧ r.pol = (b.axis h.tgt).set.stopPol ∧ r.ids = [b.host.nextId] ∧
        r.dmax = m.dmax ∧ r.jmax = m.jmax ∧ r.destop = m.destop ∧ r.fault = false ∧ (w.axis h.tgt).mo.src = .none) ∧
      (∀ r, m.stop = some r → ∃ q, (w.axis h.tgt).mo.stop = some q ∧ q.ids = r.ids ++ [b.host.nextId] ∧
        q.pol = steeper r.pol (b.axis h.tgt).set.stopPol ∧ q.fault = r.fault)) ∧
  (∀ vmax amax dmax destop jmax, Taken b h (.limits vmax amax dmax destop jmax) →
    b.motionBar (b.cmdCtx h (.limits vmax amax dmax destop jmax)) h.tgt .limits = none →
    ∃ w, exec (.limits t h vmax amax dmax destop jmax) s = .next (ends s t w) ∧ OnAxis h.tgt b w ∧
      w.axis h.tgt = { b.axis h.tgt with mo := (w.axis h.tgt).mo } ∧ (w.axis h.tgt).mo.hasLim = true ∧
      (w.axis h.tgt).mo.vmax = vmax * 2 ^ 32 ∧ (w.axis h.tgt).mo.amax = amax * 2 ^ 24 ∧ (w.axis h.tgt).mo.dmax = dmax * 2 ^ 24 ∧
      (w.axis h.tgt).mo.destop = destop * 2 ^ 24 ∧ (w.axis h.tgt).mo.jmax = jmax * 2 ^ 16 ∧
      (w.axis h.tgt).mo.p = m.p ∧ (w.axis h.tgt).mo.v = m.v ∧ (w.axis h.tgt).mo.a = m.a ∧ (w.axis h.tgt).mo.stop = m.stop) ∧
  (∀ holdVel, Taken b h (.camDisengage holdVel) → b.motionBar (b.cmdCtx h (.camDisengage holdVel)) h.tgt .other = none →
    let l := m.leave stSuperseded false
    let m1 := if holdVel then { l.1 with src := .jog m.v none }
      else l.1.startStop false (b.twoSteps h.tgt) (b.loopsClosed h.tgt) 1 false []
    let v := ((b.cmdTaken h (.camDisengage holdVel)).modAxis h.tgt fun ax => { ax with mo := m1 }).endMotion
      (b.cmdCtx h (.camDisengage holdVel)) h.tgt (endingOf l.2 ++ [(b.host.nextId, 0x00)])
    ∃ w, exec (.camDisengage t h holdVel) s = .next (ends s t w) ∧ OnAxis h.tgt b w ∧
      (m.onCam = false → w.axis h.tgt = b.axis h.tgt) ∧
      (m.onCam = true → ¬ Admits b (b.cmdTaken h (.camDisengage holdVel)) v h.tgt → w.axis h.tgt = b.axis h.tgt) ∧
      (m.onCam = true → Admits b (b.cmdTaken h (.camDisengage holdVel)) v h.tgt → w.axis h.tgt = { b.axis h.tgt with mo := (w.axis h.tgt).mo } ∧
        (holdVel = true → (w.axis h.tgt).mo.src = .jog m.v none ∧ (w.axis h.tgt).mo.v = m.v) ∧
        (holdVel = false → m.stop = none → ∃ r, (w.axis h.tgt).mo.stop = some r ∧ r.pol = 1)))

/-- FOLLOW, GEAR, CAM_ENGAGE and PHASE_IN take effect (07 R303, R312, R314, R320, R321, R323, R336; 02 R81): a source that may serve the
axis, and whose load its segment admits, becomes the source of the axis. GEAR takes its ratio as gearRatio reduces it, a gear
of a virtual master that waits for PHASE_IN is retained, CAM_ENGAGE in its catching mode takes its table, and PHASE_IN engages what is
retained. A load that
is not admitted leaves the axis alone, and so does a master that may not serve it.
The form of a descriptor as a command is the choice of log 43. -/
def Obligations.SourcesEngage : Prop :=
  ∀ (s : State) (t : Nat) (h : DHdr), let b := s.before t; let m := (b.axis h.tgt).mo
  (∀ ai pos src g lag, let op : DOp := .follow ai pos src g lag
    Taken b h op → b.motionBar (b.cmdCtx h op) h.tgt .follow = none →
    let f : Motion → Motion := fun m =>
      { m with src := .follow { ai := ai, pos := pos, src := src, g := g, lagmax := lag }, zeroTq := false }
    let v := (b.cmdTaken h op).engage (b.cmdCtx h op) h.tgt f [(b.host.nextId, 0x00)]
    ∃ w, exec (.follow t h ai pos src g lag) s = .next (ends s t w) ∧ OnAxis h.tgt b w ∧
      (b.followFault h.tgt ai pos src = true → w.axis h.tgt = b.axis h.tgt) ∧
      (b.followFault h.tgt ai pos src = false → Admits b (b.cmdTaken h op) v h.tgt →
        (w.axis h.tgt).mo.src = .follow { ai := ai, pos := pos, src := src, g := g, lagmax := lag } ∧
        (w.axis h.tgt).mo.p = m.p ∧ (w.axis h.tgt).mo.v = m.v) ∧
      (b.followFault h.tgt ai pos src = false → ¬ Admits b (b.cmdTaken h op) v h.tgt → w.axis h.tgt = b.axis h.tgt)) ∧
  (∀ master n d ofs, let op : DOp := .gear false master n d ofs
    Taken b h op → b.motionBar (b.cmdCtx h op) h.tgt .other = none → m.locked = none →
    let e : Eng := { isCam := false, master := master, n := (gearRatio n d).1, m := (gearRatio n d).2, ofs := ofs, st := .catching,
                     id := some b.host.nextId }
    let v := (b.cmdTaken h op).engage (b.cmdCtx h op) h.tgt (fun m => { m with src := .eng e }) []
    ∃ w, exec (.gear t h false master n d ofs) s = .next (ends s t w) ∧ OnAxis h.tgt b w ∧
      (b.masterOk h.tgt master = false → w.axis h.tgt = b.axis h.tgt) ∧
      (b.masterOk h.tgt master = true → Admits b (b.cmdTaken h op) v h.tgt → (w.axis h.tgt).mo.src = .eng e) ∧
      (b.masterOk h.tgt master = true → ¬ Admits b (b.cmdTaken h op) v h.tgt → w.axis h.tgt = b.axis h.tgt)) ∧
  (∀ master n d ofs, let op : DOp := .gear true master n d ofs
    Taken b h op → b.motionBar (b.cmdCtx h op) h.tgt .other = none → b.masterOk h.tgt master = true → 528 ≤ h.tgt →
    ∃ w r, exec (.gear t h true master n d ofs) s = .next (ends s t w) ∧ OnAxis h.tgt b w ∧
      (w.axis h.tgt).mo.retained = some r ∧ r.isCam = false ∧ r.master = master ∧ r.n = (gearRatio n d).1 ∧
      r.m = (gearRatio n d).2 ∧ r.based = true ∧ r.b = m.pStar - ofs) ∧
  (∀ table cont cubic master oc ofs xsw, let op : DOp := .camEngage table cont cubic 0 master oc ofs xsw
    Taken b h op → b.motionBar (b.cmdCtx h op) h.tgt .other = none →
    let e : Eng := { isCam := true, master := master, table := table, cubic := cubic, oc := oc, cont := cont, b := ofs, st := .catching,
                     id := some b.host.nextId }
    let v := (b.cmdTaken h op).engage (b.cmdCtx h op) h.tgt (fun m => { m with src := .eng e }) []
    ∃ w, exec (.camEngage t h table cont cubic 0 master oc ofs xsw) s = .next (ends s t w) ∧ OnAxis h.tgt b w ∧
      (b.cams.lookup table = none ∨ b.masterOk h.tgt master = false → w.axis h.tgt = b.axis h.tgt) ∧
      ((b.cams.lookup table).isSome = true → b.masterOk h.tgt master = true → Admits b (b.cmdTaken h op) v h.tgt →
        (w.axis h.tgt).mo.src = .eng e) ∧
      ((b.cams.lookup table).isSome = true → b.masterOk h.tgt master = true → ¬ Admits b (b.cmdTaken h op) v h.tgt →
        w.axis h.tgt = b.axis h.tgt)) ∧
  (∀ x, Taken b h (.phaseIn x) → b.motionBar (b.cmdCtx h (.phaseIn x)) h.tgt .other = none →
    ∃ w, exec (.phaseIn t h x) s = .next (ends s t w) ∧ OnAxis h.tgt b w ∧
      (m.retained = none → w.axis h.tgt = b.axis h.tgt) ∧
      (∀ r, m.retained = some r → let e : Eng := { r with st := .phasing x 0 0 0 false, id := some b.host.nextId }
        let v := (b.cmdTaken h (.phaseIn x)).engage (b.cmdCtx h (.phaseIn x)) h.tgt (fun m => { m with src := .eng e, retained := none }) []
        (Admits b (b.cmdTaken h (.phaseIn x)) v h.tgt → (w.axis h.tgt).mo.retained = none ∧ (w.axis h.tgt).mo.src = .eng e) ∧
        (¬ Admits b (b.cmdTaken h (.phaseIn x)) v h.tgt → w.axis h.tgt = b.axis h.tgt)))

/-- GROUP_MOVE and COUPLE take effect (07 R308 to R311, 05 R234, R235): a group that may be formed of its axes and whose segment
admits it is formed, DISSOLVE takes a group that does not move away, MOVE of a group of one puts a path from p* to its
target on the member. COUPLE DEFINE makes the group of its mask, and SWAP changes banks.
The form of a descriptor as a command is the choice of log 43. -/
def Obligations.GroupsFormMoveAndDissolve : Prop :=
  ∀ (s : State) (t : Nat) (h : DHdr), let b := s.before t
  b.pw.mode ≠ .commission → b.pw.mode ≠ .idle → (∀ k, b.stopActs k = false) →
  (∀ k mask, let op : DOp := .groupMove (.define k mask)
    Taken b h op → b.igroups.lookup h.tgt = none → b.mayForm h.tgt (maskAxes k mask) = true →
    let v : State := { b.cmdTaken h op with igroups := SMap.insert (SMap.erase b.igroups h.tgt) h.tgt { seg := k, members := maskAxes k mask } }
    admitChange (b.cmdTaken h op) v k = true →
    ∃ w, exec (.groupMove t h (.define k mask)) s = .next (ends s t w) ∧ Desk { b with igroups := v.igroups } w) ∧
  (∀ g, Taken b h (.groupMove .dissolve) → b.igroups.lookup h.tgt = some g → g.moving = none →
    admitChange (b.cmdTaken h (.groupMove .dissolve)) { b.cmdTaken h (.groupMove .dissolve) with igroups := SMap.erase b.igroups h.tgt } g.seg = true →
    ∃ w, exec (.groupMove t h .dissolve) s = .next (ends s t w) ∧ Desk { b with igroups := SMap.erase b.igroups h.tgt } w) ∧
  (∀ g a x, Taken b h (.groupMove (.move [x])) → b.igroups.lookup h.tgt = some g → g.members = [a] →
    b.groupBar (b.cmdCtx h (.groupMove (.move [x]))) g 1 = none →
    ∃ w q, exec (.groupMove t h (.move [x])) s = .next (ends s t w) ∧ (w.axis a).mo.src = .path q ∧ q.g = h.tgt ∧
      q.p0 = (b.axis a).mo.pStar ∧ q.d = x - (b.axis a).mo.pStar ∧ (∀ y, y ≠ a → w.axis y = b.axis y) ∧
      (w.igroups.lookup h.tgt).map IGroup.moving = some (some b.host.nextId)) ∧
  (∀ vel k mask clim, let op : DOp := .couple (.define vel k mask clim)
    Taken b h op → b.coupleBar h.tgt (.define vel k mask clim) = none →
    let v := ((b.cmdTaken h op).couple h.tgt (.define vel k mask clim)).finish b.host.nextId 0x00 (zeros 8)
    let g : CGroup := { seg := k, velocity := vel, members := maskAxes k mask, clim := clim }
    (b.tw.role = .follower ∨ admitChange (b.cmdTaken h op) v k = true) →
    ∃ w, exec (.couple t h (.define vel k mask clim)) s = .next (ends s t w) ∧
      Desk { b with cgroups := SMap.insert (SMap.erase b.cgroups h.tgt) h.tgt g } w) ∧
  (∀ g, Taken b h (.couple .swap) → b.cgroups.lookup h.tgt = some g → b.tw.role = .follower →
    ∃ w, exec (.couple t h .swap) s = .next (ends s t w) ∧ Desk { b with cgroups := w.cgroups } w ∧
      w.cgroups.lookup h.tgt = some { g with active := 1 - g.active })

/-! ## Configuration (04, 05, 07, 14), time (10) and trace (03) by descriptors -/

/-- SETC, LOADSET and SWAPSET of an axis whose segment is not stopped (04 R198, R200, R201, R331): SETC writes the entry of its index in
the copies it names, LOADSET writes the inactive bank, SWAPSET toggles the banks its mask names, and nothing else of the axis
changes but what R331 says of TQ_SET and the list of descriptors that end with the cycle.
The form of a descriptor as a command is the choice of log 43. -/
def Obligations.CoefficientsAreWritten : Prop :=
  ∀ (s : State) (t : Nat) (h : DHdr), let b := s.before t; let x := b.axis h.tgt
  (∀ k, b.segOf h.tgt = some k → b.stopActs k = false) →
  (∀ i ter v, Taken b h (.setc i ter v) → ∃ w, exec (.setc t h i ter v) s = .next (ends s t w) ∧ OnAxis h.tgt b w ∧
    (w.axis h.tgt).co = x.co.setc i ter v ∧
    w.axis h.tgt = { x with co := (w.axis h.tgt).co, mo := { x.mo with zeroTq := (w.axis h.tgt).mo.zeroTq }, ends := (w.axis h.tgt).ends } ∧
    (i ≠ 0x37 → (w.axis h.tgt).mo.zeroTq = x.mo.zeroTq) ∧ (i = 0x37 → x.fault = false → (w.axis h.tgt).mo.zeroTq = false)) ∧
  (∀ first ter vals, Taken b h (.loadset first ter vals) → ∃ w, exec (.loadset t h first ter vals) s = .next (ends s t w) ∧
    OnAxis h.tgt b w ∧ w.axis h.tgt = { x with co := x.co.loadset first ter vals, ends := (w.axis h.tgt).ends }) ∧
  (∀ mask, Taken b h (.swapset mask) → ∃ w, exec (.swapset t h mask) s = .next (ends s t w) ∧ OnAxis h.tgt b w ∧
    w.axis h.tgt = { x with co := { x.co with bank := x.co.bank ^^^ (mask % 32) }, ends := (w.axis h.tgt).ends })

/-- TERRACE, FILTER, axis MODE and AXIS_CFG (04 R166, R176, R191, R196; 14 R566; R796): TERRACE replaces the selector, the count, the base
and the thresholds, a selector of the learning position without a learning master leaves the axis alone, FILTER switches the sections it names,
MODE sets the axis's mode and ends its FAULT, and AXIS_CFG of an axis that is DISABLED takes the new setting with every
coefficient, terrace, learning and motion state at its reset value. Of an axis that is not DISABLED it changes nothing.
The clauses are of an axis whose load asks for no admission. The form of a descriptor as a command is the choice of log 43. -/
def Obligations.AxesAreConfigured : Prop :=
  ∀ (s : State) (t : Nat) (h : DHdr), let b := s.before t; let x := b.axis h.tgt
  (∀ k, b.segOf h.tgt = some k → b.stopActs k = false) → b.tw.role = .follower ∨ b.segOf h.tgt = none →
  (∀ sel n base t1 t2 t3 hy, Taken b h (.terrace sel n base t1 t2 t3 hy) → ∃ w, exec (.terrace t h sel n base t1 t2 t3 hy) s = .next (ends s t w) ∧
    OnAxis h.tgt b w ∧ (sel = 2 → x.ln.master = none → w.axis h.tgt = x) ∧
    (¬ (sel = 2 ∧ x.ln.master = none) → w.axis h.tgt =
      { x with ter := { x.ter with sel := sel, n := n, b := base, t1 := t1, t2 := t2, t3 := t3, h := hy }, ends := (w.axis h.tgt).ends })) ∧
  (∀ changed enable, Taken b h (.filter changed enable) → ∃ w, exec (.filter t h changed enable) s = .next (ends s t w) ∧
    OnAxis h.tgt b w ∧ (x.set.kind ≠ .drv → w.axis h.tgt = { x.filter changed enable with ends := (w.axis h.tgt).ends })) ∧
  (∀ code, Taken b h (.mode code) → h.tgt ≠ 0xFFFF → ∃ w, exec (.mode t h code) s = .next (ends s t w) ∧ OnAxis h.tgt b w ∧
    (b.axisModeBar h.tgt code = none → w.axis h.tgt =
      { x with mode := AxisMode.ofCode code, fault := false, faultBy := [], heldOpen := false, req := none, ends := (w.axis h.tgt).ends }) ∧
    (b.axisModeBar h.tgt code ≠ none → w.axis h.tgt = x)) ∧
  (∀ cfg, Taken b h (.axisCfg cfg) → x.onPath = none → ∃ w, exec (.axisCfg t h cfg) s = .next (ends s t w) ∧ OnAxis h.tgt b w ∧
    (x.mode ≠ .disabled → w.axis h.tgt = x) ∧
    (x.mode = .disabled → (w.axis h.tgt).set = x.set.config h.tgt cfg ∧ (w.axis h.tgt).co = {} ∧ (w.axis h.tgt).ter = {} ∧
      (w.axis h.tgt).ln = { src := learnSrcOf (w.axis h.tgt).set.kind } ∧ (w.axis h.tgt).mo.v = 0 ∧ (w.axis h.tgt).mo.a = 0 ∧
      (w.axis h.tgt).mo.hasLim = false ∧ (w.axis h.tgt).mo.p = up48 x.fb.p))

/-- LEARN, RESAMPLE, IDENT and CAM_LOAD (05 R216, R227, R229, R244, R253; 07 R318): a LEARN function that the axis's state allows changes
its learning state alone, RESAMPLE waits for its swap cycle, IDENT starts where nothing bars it, CANCEL without an identification does nothing, and
CAM_LOAD replaces a table that no axis uses and that the store has room for.
The corners of learning are those of logs 26 and 82. The form of a descriptor as a command is the choice of log 43. -/
def Obligations.LearningAndTablesAreLoaded : Prop :=
  ∀ (s : State) (t : Nat) (h : DHdr), let b := s.before t; let x := b.axis h.tgt
  (∀ k, b.segOf h.tgt = some k → b.stopActs k = false) →
  (∀ f, Taken b h (.learn f) → ∃ w, exec (.learn t h f) s = .next (ends s t w) ∧ OnAxis h.tgt b w ∧
    (b.learnBar h.tgt f = none → w.axis h.tgt = { x with ln := x.ln.apply f, ends := (w.axis h.tgt).ends }) ∧
    (b.learnBar h.tgt f ≠ none → w.axis h.tgt = x)) ∧
  (∀ l tag n, Taken b h (.resample l tag) → x.ln.log2n ≠ l → x.ln.resample = none → tag ≠ tagOf (b.cmdCtx h (.resample l tag)).n →
    swapCycle (b.cmdCtx h (.resample l tag)).n tag = some n → (b.resampling (h.tgt / 128)).length < 4 →
    ∃ w, exec (.resample t h l tag) s = .next (ends s t w) ∧
      (w.axis h.tgt).ln.resample = some { id := b.host.nextId, log2n := l, swapN := n } ∧ ∀ y, y ≠ h.tgt → w.axis y = b.axis y) ∧
  (∀ exc rsp m settle a w20 w24 emax, let f : IdentFn := .start exc rsp m settle a w20 w24 emax
    Taken b h (.ident f) → b.identBar h.tgt = none → ∃ w i, exec (.ident t h f) s = .next (ends s t w) ∧ OnAxis h.tgt b w ∧
      w.axis h.tgt = { x with ident := some i, identWas := x.ident.toList ++ x.identWas } ∧ i.id = b.host.nextId ∧ i.blocks = m ∧ i.amp = a ∧ i.emax = emax) ∧
  (Taken b h (.ident .cancel) → x.ident = none → ∃ w, exec (.ident t h .cancel) s = .next (ends s t w) ∧ Desk b w) ∧
  (∀ table k sp rise y, Taken b h (.camLoad table k sp rise y) → b.fenced (srcCode 4 0x003) = false →
    (∀ e ∈ b.axes, e.2.mo.usesCam table = false) → b.camPoints table + k ≤ 524288 →
    ∃ w, exec (.camLoad t h table k sp rise y) s = .next (ends s t w) ∧ Desk { b with cams := w.cams } w ∧
      w.cams.lookup table = some { s := sp, rise := rise, y := y.take k } ∧ ∀ j, j ≠ table → w.cams.lookup j = b.cams.lookup j)

/-- FENCE, TRACE, CLEAR_FLAGS and the device MODE (02 R91; 03 R144; 04 R186; 18 R733, R735): FENCE with nothing else open ends, TRACE puts its filters into force, CLEAR_FLAGS clears the flags of its mask, and a MODE that Table 18.7
allows waits for the boundary.
Several MODE requests at one boundary are log 45. The form of a descriptor as a command is the choice of log 43. -/
def Obligations.ControlDescriptorsAct : Prop :=
  ∀ (s : State) (t : Nat) (h : DHdr), let b := s.before t
  (∀ rings wait, Taken b h (.fence rings wait) → ∃ w, exec (.fence t h rings wait) s = .next (ends s t w) ∧ Desk b w ∧
    (b.host.acc = [] → b.postsLeaders = false → w.host.acc = [])) ∧
  (∀ em sm cm sp lo hi, Taken b h (.trace em sm cm sp lo hi) → em < 512 → sm < 256 → lo < 1024 → hi < 1024 → b.force 0x020010 < 2 ^ 32 →
    b.force 0x020014 < 2 ^ 32 →
    ∃ w, exec (.trace t h em sm cm sp lo hi) s = .next (ends s t w) ∧ Desk { b with regs := w.regs, pool := { b.pool with compress := cm } } w ∧
      bits (w.force 0x020010) 24 16 = em ∧ bits (w.force 0x020010) 15 8 = sm ∧ bits (w.force 0x020010) 0 0 = b2n sp ∧
      bits (w.force 0x020014) 25 16 = hi ∧ bits (w.force 0x020014) 9 0 = lo) ∧
  (∀ mask, Taken b h (.clearFlags mask) → h.tgt < 512 → ∃ w, exec (.clearFlags t h mask) s = .next (ends s t w) ∧ OnAxis h.tgt b w ∧
    w.axis h.tgt = { b.axis h.tgt with lp := { (b.axis h.tgt).lp with flags := clearFlagMask (b.axis h.tgt).lp.flags mask },
                                       ends := (w.axis h.tgt).ends }) ∧
  (∀ mask, Taken b h (.clearFlags mask) → 512 ≤ h.tgt → h.tgt < 528 → ∃ w, exec (.clearFlags t h mask) s = .next (ends s t w) ∧
    (w.stepCh (h.tgt - 512)).parity = false ∧ (w.stepCh (h.tgt - 512)).halted = false ∧ (w.stepCh (h.tgt - 512)).rateLim = false ∧
    (w.stepCh (h.tgt - 512)).e = (b.stepCh (h.tgt - 512)).e) ∧
  (∀ code, Taken b h (.mode code) → h.tgt = 0xFFFF → modeAllowed b.pw.mode (DevMode.ofCode code) = true → b.pw.mode ≠ .safeHold →
    ∃ w, exec (.mode t h code) s = .next (ends s t w) ∧
      Desk { b with pw := { b.pw with pendMode := b.pw.pendMode ++ [(b.pw.mode, DevMode.ofCode code, b.host.nextId)] } } w) ∧
  (∀ code, Taken b h (.mode code) → h.tgt = 0xFFFF → modeAllowed b.pw.mode (DevMode.ofCode code) = false →
    ∃ w, exec (.mode t h code) s = .next (ends s t w) ∧ Desk b w)

/-- TIME_STEP, TIME_SELECT and the node requests (10 R445 to R448; 09 R408, R409): TIME_STEP by a number of nanoseconds moves machine time by
it, TIME_SELECT makes a locked domain active, UNMUTE ends a node's mute, and a request of a node that is live waits for the
segment's management slot.
Corners of the time domains are log 64. The form of a descriptor as a command is the choice of log 43. -/
def Obligations.TimeAndNodesAreManaged : Prop :=
  ∀ (s : State) (t : Nat) (h : DHdr), let b := s.before t
  (∀ x, Taken b h (.timeStep false x) → b.pw.mode = .idle ∨ b.pw.mode = .commission → (∀ k < 8, (b.seg k).ring = .stopped) → b.host.acc = [] →
    b.time.rate = 0 → b.time.ofs % 2 ^ 32 = 0 → ∃ w, exec (.timeStep t h false x) s = .next (ends s t w) ∧
      w = { b with time := w.time, saf := { b.saf with offGrid := w.saf.offGrid }, out := w.out, host := w.host, tw := w.tw, asy := w.asy } ∧
      w.mt = toU 64 ((b.mt : Int) + x)) ∧
  (∀ x toDomain, Taken b h (.timeStep toDomain x) → b.pw.mode ≠ .idle → b.pw.mode ≠ .commission →
    ∃ w, exec (.timeStep t h toDomain x) s = .next (ends s t w) ∧ Desk b w) ∧
  (∀ d auto, Taken b h (.timeSelect d auto) → b.pw.mode ≠ .reset → b.pw.mode ≠ .boot → d < 2 → b.domLocked d = true →
    b.force 0x0C0000 < 2 ^ 32 → ∃ w, exec (.timeSelect t h d auto) s = .next (ends s t w) ∧
      Desk { b with regs := w.regs, time := { b.time with selTaken := true, switchedAt := w.time.switchedAt } } w ∧
      w.activeDom = d ∧ w.autoDom = auto) ∧
  (∀ seg node fn buf data, Taken b h (.unmute seg node) → ∃ w, exec (.nodeMgmtUnmute t h false seg node fn buf data) s = .next (ends s t w) ∧
    (w.node seg node).muted = false ∧ (w.node seg node).offence = 0 ∧ (∀ k, k ≠ seg → w.seg k = b.seg k) ∧
    (∀ j, j ≠ node → w.node seg j = b.node seg j)) ∧
  (∀ seg node fn buf data x, Taken b h (.nodeReq seg node fn buf data) → b.requestEntry seg = some x →
    fitsLen (22 + data.length) (schLen (b.sched seg x)) = true → (b.node seg node).live = true → (b.seg seg).mg = none →
    ∃ w, exec (.nodeMgmtUnmute t h true seg node fn buf data) s = .next (ends s t w) ∧ (w.seg seg).mg =
      some { id := b.host.nextId, node := node, fn := fn, trans := 0, data := data, buf := buf, repeats := 0, sent := false } ∧
      ∀ k, k ≠ seg → w.seg k = b.seg k)

/-! ## The host interface (14, 08 R373 to R376) -/

/-- Rings are enabled and disabled (14 R551, R552, R572, R577): ENABLE of a ring that is off puts its reason code into REASON, and with
reason 0 its registers into force and the ring on, from index 0; of a ring that is on it changes nothing. DISABLE takes a command
ring off at once and fetches nothing more, lets a completion ring go off once its command ring is off and nothing is open, waits
for a telemetry cycle that is being written, and takes every other ring off.
Polls and the heartbeat (14 R553 to R557, R804): the one poll of a poll granule takes, with the link up, the index of every ring that is
on, leaves alone one that is not valid, opens the fetch of every command ring, and writes the major cycle to the status page.
Without the link, or at another granule, it does nothing. A heartbeat word that changes ends HB_LATE, one that has not changed for
HB_MS, and that no poll of this granule still to come changes, sets it with its mark at a poll granule.
The numbers of the rings are those of log 76. A row whose condition does not hold changes nothing but the time (the choice of
log 40). -/
def Obligations.RingsAndDoorbellsAreServed : Prop :=
  (∀ (s : State) (t r : Nat), let b := s.before t
  let otherRings (w : State) : Prop := w.host = { b.host with rings := w.host.rings } ∧ ∀ q, q ≠ r → w.ringOf q = b.ringOf q
  ((b.ringOf r).on = true → exec (.hstRingEnable t r) s = .next (ends s t b)) ∧
  ((b.ringOf r).on = false → b.ringReason r ≠ 0 → ∃ w, exec (.hstRingEnable t r) s = .next (ends s t w) ∧
    w = { b with host := w.host } ∧ otherRings w ∧ w.ringOf r = { b.ringOf r with reason := b.ringReason r }) ∧
  ((b.ringOf r).on = false → b.ringReason r = 0 → ∃ w, exec (.hstRingEnable t r) s = .next (ends s t w) ∧
    w = { b with regs := w.regs, host := w.host, out := w.out } ∧ otherRings w ∧ (w.ringOf r).on = true ∧ (w.ringOf r).own = 0 ∧
    (w.ringOf r).host = 0 ∧ (w.ringOf r).reason = 0 ∧ (∀ off ∈ ringRegs r, w.force off = b.stage off) ∧
    (b.fenced srcHostEngine = false → .status (ringStatusOff r) (leBytes 4 0) ∈ w.out)) ∧
  ((b.ringOf r).on = false → exec (.hstRingDisable t r) s = .next (ends s t b)) ∧
  ((b.ringOf r).on = true → r < 8 → (b.ringOf (r + 8)).disabling = false → ∃ w, exec (.hstRingDisable t r) s = .next (ends s t w) ∧
    w = { b with host := w.host } ∧ otherRings w ∧ w.ringOf r = { b.ringOf r with on := false, fetched := 0 }) ∧
  (∀ q, r = q + 8 → q < 8 → (b.ringOf r).on = true → ∃ w, exec (.hstRingDisable t r) s = .next (ends s t w) ∧
    w = { b with host := w.host } ∧ otherRings w ∧
    ((b.ringOf q).on = false → (∀ e ∈ b.host.acc, e.ring ≠ q) → w.ringOf r = { b.ringOf r with on := false, disabling := false }) ∧
    ((b.ringOf q).on = true → w.ringOf r = { b.ringOf r with disabling := true })) ∧
  (∀ k, r = k + 16 → k < 8 → (b.ringOf r).on = true → ∃ w, exec (.hstRingDisable t r) s = .next (ends s t w) ∧ otherRings w ∧
    (b.telBusy k = true → w.ringOf r = { b.ringOf r with disabling := true }) ∧
    (b.telBusy k = false → b.pourNow k = false → w.ringOf r = { b.ringOf r with on := false })) ∧
  ((b.ringOf r).on = true → 24 ≤ r → ∃ w, exec (.hstRingDisable t r) s = .next (ends s t w) ∧
    w = { b with host := w.host, pw := { b.pw with domains := w.pw.domains } } ∧ otherRings w ∧
    w.ringOf r = { b.ringOf r with on := false } ∧ ∀ d, d ≠ 13 → (d ∈ w.pw.domains ↔ d ∈ b.pw.domains))) ∧
  (∀ (s : State) (t : Nat), let b := s.before t
  (∀ page, b.host.linkUp = false ∨ b.pollGran = false → exec (.poll t page) s = .next (ends s t b)) ∧
  (∀ page, b.up = true → b.host.linkUp = true → b.fenced srcHostEngine = false → b.pollGran = true → b.host.polledAt ≠ some b.granuleNo →
    ∃ w, exec (.poll t page) s = .next (ends s t w) ∧ Desk { b with time := w.time } w ∧
    .status 0x0C4 (leBytes 4 b.cyc) ∈ w.out ∧ w.host.acc = b.host.acc ∧
    (∀ r < 8, (b.ringOf r).on = true → let x := pageWord page (4 * r)
      let i := if (x + 2 ^ 32 - (b.ringOf r).own) % 2 ^ 32 ≤ b.ringSize r then x else (b.ringOf r).host
      w.ringOf r = { b.ringOf r with fetched := b.fetchMax, host := i }) ∧
    (∀ r, 8 ≤ r → r < 33 → r ≠ 29 → r ≠ 30 → (b.ringOf r).on = true → let x := pageWord page (doorbellOff r)
      let i := if ((b.ringOf r).own + 2 ^ 32 - x) % 2 ^ 32 ≤ b.ringSize r then x else (b.ringOf r).host
      w.ringOf r = { b.ringOf r with host := i }) ∧
    (∀ r < 33, (b.ringOf r).on = false → 8 ≤ r → w.ringOf r = b.ringOf r) ∧
    (b.hbApplies = true → b.host.hbChecking = true → b.host.hbWord ≠ pageWord page 0x0C0 →
      w.host.hbWord = pageWord page 0x0C0 ∧ w.host.hbAt = b.now ∧ w.host.hbLate = false) ∧
    (b.hbApplies = true → b.host.hbChecking = true → b.host.hbWord = pageWord page 0x0C0 →
      w.host.hbAt = b.host.hbAt ∧ w.host.hbLate = b.host.hbLate)) ∧
  (b.hbApplies = true → b.host.hbChecking = true → b.host.hbLate = false → b.hbTimeout ≤ b.now - b.host.hbAt →
    b.pollGran = true → b.hbChangesNow = false →
    ∃ w, exec (.hostHbTimeout t) s = .next (ends s t w) ∧ w.host.hbLate = true ∧ w.host.hbSticky = true ∧
      ∃ m l, w.asy.held = b.asy.held ++ m :: l ∧ m.src = srcHb ∧ m.kind = 0x30) ∧
  (b.now - b.host.hbAt < b.hbTimeout → exec (.hostHbTimeout t) s = .next (ends s t b)))

/-- Acceptance (14 R550, R556 to R562): a descriptor that its ring may fetch and that passes its checks enters the record at the
ring's position with the next number and the apply point that R561 gives it, and the ring's index passes its entries. One that
its ring may not fetch changes nothing. A descriptor that waits for a phase is turned away as late once 65 536 major cycles have
passed since it was accepted, and not before.
Cycle points and messages (08 R373 to R376): a point that fires at its granule counts, writes its word to the status page, and
sends the message of its vector unless another point of that vector has sent one in this granule or is still to come in it. A masked vector keeps
its message, which the end of the mask sends.
The numbers of the rings are those of log 76. A row whose condition does not hold changes nothing but the time (the choice of
log 40). -/
def Obligations.DescriptorsAreAcceptedAndMessagesSent : Prop :=
  (∀ (s : State) (t r : Nat), let b := s.before t
  (∀ bytes buf, let bs := padTo (32 * descrLen bytes) bytes; let e := b.newEntry r bs buf
    r < 8 → b.up = true → b.fenced srcHostEngine = false → b.mayFetch r (descrLen bs) = true → b.acceptBar bs e.op e.tgt e.seg = none → b.host.acc = [] →
    b.tw.role = .alone → (∀ q < 8, (b.ringOf (q + 8)).disabling = false) →
    ∃ w, exec (.descriptorAccepted t r bytes buf) s = .next (ends s t w) ∧ w = { b with host := w.host, out := w.out } ∧
      w.host.acc = [e] ∧ w.host.nextId = b.host.nextId + 1 ∧ (w.ringOf r).own = ((b.ringOf r).own + descrLen bs) % 2 ^ 32 ∧
      e.prog = .waiting ∧ e.id = b.host.nextId ∧ e.pos = (b.ringOf r).own ∧ ∀ q, q ≠ r → w.ringOf q = b.ringOf q) ∧
  (∀ bytes buf, b.mayFetch r (descrLen (padTo (32 * descrLen bytes) bytes)) = false →
    exec (.descriptorAccepted t r bytes buf) s = .next (ends s t b)) ∧
  (∀ e p, b.host.acc = [e] → e.ring = r → e.due = .phase p → e.prog = .waiting → 65536 ≤ (b.cyc + 2 ^ 40 - e.accN) % 2 ^ 40 →
    b.tw.role = .alone → (b.ringOf (8 + r)).on = true → b.fenced srcHostEngine = false →
    ∃ w, exec (.atPhaseTimeout t r e.pos) s = .next (ends s t w) ∧ Desk b w ∧ w.host.acc = [] ∧
      .ring (8 + r) (b.ringOf (8 + r)).own (cplRecord e 0x05 b.cyc 0 (zeros 8)) ∈ w.out) ∧
  (∀ pos, (∀ e ∈ b.host.acc, e.ring = r → e.pos = pos → (b.cyc + 2 ^ 40 - e.accN) % 2 ^ 40 < 65536) →
    exec (.atPhaseTimeout t r pos) s = .next (ends s t b))) ∧
  (∀ (s : State) (t : Nat), let b := s.before t
  (∀ k, b.cpFires k = true → let vec := bits (b.force (cpOff k)) 29 25; let n := (SMap.get 0 b.host.cpCount k + 1) % 2 ^ 16
    ∃ w, exec (.cyclePoint t k) s = .next (ends s t w) ∧ w = { b with host := w.host, out := w.out } ∧
      SMap.get 0 w.host.cpCount k = n ∧
      (b.host.linkUp = true → b.fenced srcHostEngine = false → .status (0x100 + 8 * k) (leBytes 3 (tagOf b.cyc) ++ [0] ++ leBytes 2 b.gran ++ leBytes 2 n) ∈ w.out) ∧
      (SMap.get 0 b.host.cpLast vec ≠ b.granuleNo + 1 → b.cpAwaits k = false → b.fenced srcHostEngine = false → vec ∉ b.host.msiMasked →
        .msi vec ∈ w.out) ∧
      (SMap.get 0 b.host.cpLast vec ≠ b.granuleNo + 1 → b.cpAwaits k = false → vec ∈ b.host.msiMasked → vec ∈ w.host.msiPending)) ∧
  (∀ k, b.cpFires k = false → exec (.cyclePoint t k) s = .next (ends s t b)) ∧
  (∀ vec, ∃ w, exec (.msiXVectorUnmask t vec) s = .next (ends s t w) ∧ w = { b with host := w.host, out := w.out } ∧
    vec ∉ w.host.msiMasked ∧ vec ∉ w.host.msiPending ∧ (vec ∈ b.host.msiPending → b.fenced srcHostEngine = false → w.out = .msi vec :: b.out) ∧
    (vec ∉ b.host.msiPending → w.out = b.out) ∧ ∀ v, v ≠ vec → (v ∈ w.host.msiMasked ↔ v ∈ b.host.msiMasked)))

/-- The PCIe link and the plant ports' frames (14 R545, R570, R571, R575; 10 R451): the loss of the link takes every ring off, leaves
accepted descriptors in the record and raises its mark, and the link trains again. PTX sends its head frame padded to 60 bytes and its
index passes it. A frame without fault that is no gPTP frame goes to PRX.
The numbers of the rings are those of log 76. A row whose condition does not hold changes nothing but the time (the choice of
log 40). -/
def Obligations.TheLinkAndThePlantPortsAct : Prop :=
  ∀ (s : State) (t : Nat), let b := s.before t
  (b.host.linkUp = true → ∃ w, exec (.pcieLinkDown t) s = .next (ends s t w) ∧ w.host.linkUp = false ∧ (∀ r < 33, (w.ringOf r).on = false) ∧
    w.host.acc = b.host.acc ∧ ∃ m, w.asy.held = b.asy.held ++ [m] ∧ m.src = srcPcie ∧ m.kind = 0x32) ∧
  (∀ speed width, ∃ w, exec (.pcieLinkUp t speed width) s = .next (ends s t w) ∧ w.host.linkUp = true ∧ w.host.speed = speed ∧
    w.host.width = width ∧ (∀ r, w.ringOf r = b.ringOf r) ∧ w = { b with host := w.host, asy := w.asy }) ∧
  (∀ port ident len tsReq frame, (b.ringOf (29 + port)).on = true → (b.ringOf (29 + port)).host ≠ (b.ringOf (29 + port)).own →
    b.host.linkUp = true →
    ∃ w, exec (.plantFrameSend t port ident len tsReq frame) s = .next (ends s t w) ∧
      (w.ringOf (29 + port)).own = ((b.ringOf (29 + port)).own + 1) % 2 ^ 32 ∧
      (14 ≤ len → len ≤ 1514 → b.plantUp port = true → .plant port (padTo (max 60 len) (frame.take len)) ∈ w.out) ∧
      (len < 14 ∨ 1514 < len → (w.ringOf (29 + port)).drop = ((b.ringOf (29 + port)).drop + 1) % 2 ^ 32)) ∧
  (∀ port stamp frame, (b.ringOf (31 + port)).on = true → gptpFrame frame = false → frame.length ≤ 1514 → b.room (31 + port) 1 = true →
    b.fenced srcHostEngine = false →
    ∃ w, exec (.plantFrameReceived t port stamp true frame) s = .next (ends s t w) ∧ w = { b with host := w.host, out := w.out } ∧
      .ring (31 + port) (b.ringOf (31 + port)).own (leBytes 2 frame.length ++ leBytes 1 port ++ [0] ++
        leBytes 8 (mtAt b.time.ofs b.time.rate b.time.r0 stamp) ++ zeros 4 ++ padTo 2032 frame) ∈ w.out ∧
      (w.ringOf (31 + port)).own = ((b.ringOf (31 + port)).own + 1) % 2 ^ 32) ∧
  (∀ port stamp frame, exec (.plantFrameReceived t port stamp false frame) s = .next (ends s t b)) ∧
  (∀ port stamp frame, gptpFrame frame = true → exec (.plantFrameReceived t port stamp true frame) s = .next (ends s t b))

/-! ## Registers and commits (19), the debug window (19 R777 to R779), the TWN_CTL register (15) -/

/-- A block's own commit (19 R764, R765, R770; 08 R372; 11 R464; 12 R505; 13 R523; 14 R572; 16 R635): at a device that does not
follow, a commit of a block that runs is a locked write, which is counted and changes no register in force. A commit that a check
refuses leaves the set in force as it stands and puts the check's code into REASON. A commit that passes puts the staging
copies of its block into force, with REASON 0.
The global commits (19 R766, R768, R769): GO commits the pool, the control law and the time unit as one set where the device is
stopped and every check of the set passes, ALL commits every pending block of which none runs, DISCARD gives up the staging copies of the
blocks that are stopped and no others, and with a block that runs ALL changes nothing but the reason it shows.
How a failure of a block that depends is shown is log 73. -/
def Obligations.CommitsActAsOneSetOrFail : Prop :=
  (∀ (s : State) (t : Nat), let b := s.before t
  ∀ (c : Instr) (blk off : Nat),
    (∃ k, k < 8 ∧ c = .netSegCommit t k ∧ blk = 0x08 + k ∧ off = netOff k 0x0C) ∨
    (∃ p, p < 8 ∧ c = .fbpCommit t p ∧ blk = 0x20 + p ∧ off = fbOff p 0x14) ∨
    (∃ k, k < 16 ∧ c = .pulCommit t k ∧ blk = 0x10 + k ∧ off = pulOff k 4) ∨
    (∃ k, k < 2 ∧ c = .adcCommit t k ∧ blk = 0x28 + k ∧ off = adcOff k 4) ∨
    (c = .hstCommit t ∧ blk = 0x04 ∧ off = 0x010008) ∨ (c = .asyCommit t ∧ blk = 0x2A ∧ off = 0x100004) →
  b.tw.role ≠ .follower →
  (b.blockRuns blk = true → ∃ w, exec c s = .next (ends s t w) ∧ Desk { b with regs := w.regs } w ∧
    w.regs = { b.regs with lockedSeen := true, lockedCount := (b.regs.lockedCount + 1) % 2 ^ 16, lockedAddr := off }) ∧
  (∀ r d, b.blockRuns blk = false → firstFailure b (b.candidate [blk]) [blk] = some (blk, r, d) →
    ∃ w, exec c s = .next (ends s t w) ∧ (∀ q, w.force q = b.force q) ∧ SMap.get 0 w.regs.reason blk = r ∧
      w = { b with regs := w.regs, host := w.host, segs := w.segs } ∧ w.regs.stage = b.regs.stage ∧ w.regs.glbBlock =
        match d with | some x => x.1 | none => blk) ∧
  (b.blockRuns blk = false → firstFailure b (b.candidate [blk]) [blk] = none →
    ∃ w, exec c s = .next (ends s t w) ∧ (∀ q ∈ b.stagedOf [blk], w.force q = b.stage q) ∧
      (∀ q, q ∉ b.stagedOf [blk] → w.force q = b.force q) ∧ SMap.get 0 w.regs.reason blk = 0 ∧ blk ∉ w.regs.pend ∧
      w.regs.glbReason = 0 ∧ w.regs.glbBlock = blk)) ∧
  (∀ (s : State) (t : Nat), let b := s.before t
  b.tw.role ≠ .follower →
  (b.setup = true → firstFailure b (b.candidate [0x01, 0x02, 0x03]) [0x01, 0x02, 0x03] = none →
    ∃ w, exec (.glbCommitGo t) s = .next (ends s t w) ∧ (∀ q ∈ b.stagedOf [0x01, 0x02, 0x03], w.force q = b.stage q) ∧
      (∀ k ∈ [0x01, 0x02, 0x03], SMap.get 0 w.regs.reason k = 0 ∧ k ∉ w.regs.pend)) ∧
  (let bs := (List.range 0x30).filter fun k => b.regs.pend.contains k
   (∀ k ∈ bs, b.blockRuns k = false) → firstFailure b (b.candidate bs) bs = none →
    ∃ w, exec (.glbCommitAll t) s = .next (ends s t w) ∧ (∀ q ∈ b.stagedOf bs, w.force q = b.stage q) ∧
      (∀ k ∈ bs, SMap.get 0 w.regs.reason k = 0 ∧ k ∉ w.regs.pend)) ∧
  ((∃ k < 0x30, k ∈ b.regs.pend ∧ b.blockRuns k = true) → ∃ w, exec (.glbCommitAll t) s = .next (ends s t w) ∧
    w = { b with regs := { b.regs with glbReason := 2, glbSub := 0, glbBlock := w.regs.glbBlock } } ∧
    w.regs.glbBlock ∈ b.regs.pend ∧ b.blockRuns w.regs.glbBlock = true) ∧
  (∃ w, exec (.glbCommitDiscard t) s = .next (ends s t w) ∧
    w = { b with regs := { b.regs with stage := w.regs.stage, pend := w.regs.pend } } ∧
    (∀ e, e ∈ w.regs.stage ↔ e ∈ b.regs.stage ∧ b.offRuns e.1 = true) ∧
    (∀ k, k ∈ w.regs.pend ↔ k ∈ b.regs.pend ∧ b.blockRuns k = true)))

/-- Register accesses (19 R758 to R763, R771, R777 to R779; 10 R436; 12 R503; 13 R531; 14 R543): a write to a staged register of a
stopped block goes to its staging copy and marks the block pending, a write to one of a block that runs is counted as locked
and changes neither copy. A read of a register of two halves answers the low one and latches the high one: ECNT with the step of
its own clock, the result ring with the result that reaches it in its own clock. In COMMISSION the debug window
writes a word of bench SRAM, and a read without an error answers it. In another mode it reads as 0 and writes
nothing. An unsupported request changes nothing.
What the debug window shows of a word it has not shown is the free value of log 34, register reads are log 78. A row whose
condition does not hold changes nothing but the time (the choice of log 40). -/
def Obligations.RegisterAccessesAct : Prop :=
  ∀ (s : State) (t : Nat), let b := s.before t
  (∀ off v, off < 0x800000 → off % 4 = 0 → let i := Reg.info off
    i.2 ≠ 0 → b.offRuns off = false → unstaged i.1 = false → Reg.ring off = none → Reg.commitOf off = none → off ≠ 0x24 → off ≠ 0x0F0000 →
    ∃ w, exec (.registerWrite t off v) s = .next (ends s t w) ∧ w.stage off = v.toNat &&& i.2 ∧ i.1 ∈ w.regs.pend ∧
      (∀ q, w.force q = b.force q) ∧ ∀ q, q ≠ off → w.stage q = b.stage q) ∧
  (∀ off v, off < 0x800000 → off % 4 = 0 → let i := Reg.info off
    i.2 ≠ 0 → b.offRuns off = true → unstaged i.1 = false → Reg.ring off = none → Reg.commitOf off = none → off ≠ 0x24 → off ≠ 0x0F0000 →
    v.toNat &&& i.2 ≠ b.stage off →
    ∃ w, exec (.registerWrite t off v) s = .next (ends s t w) ∧ w.regs.lockedCount = (b.regs.lockedCount + 1) % 2 ^ 16 ∧
      w.regs.lockedAddr = off ∧ (∀ q, w.force q = b.force q ∧ w.stage q = b.stage q)) ∧
  exec (.timMtLoRead t) s = .next (ends s t { b with
    time := { b.time with mtHi := b.mt / 2 ^ 32 % 2 ^ 32 }, out := .read 0x0C0020 (b.mt % 2 ^ 32) :: b.out }) ∧
  (∀ ch, let c := b.stepCh ch; let e := toU 64 (if c.carryDue b.now then c.stepped else c.e); ∃ w, exec (.pulEcntLoRead t ch) s = .next (ends s t w) ∧
    w.out = .read (pulOff ch 0x0C) (e % 2 ^ 32) :: b.out ∧ w.stepCh ch = { b.stepCh ch with ecntHi := e / 2 ^ 32 } ∧
    ∀ k, k ≠ ch → w.stepCh k = b.stepCh k) ∧
  (∀ c, let z := match b.lengthNow c with | some code => b.convert c code | none => b; let v := z.conv c;
    ∃ w, exec (.adcPopLoRead t c) s = .next (ends s t w) ∧
    (v.fill = 0 → w.out = .read (adcOff c 0x14) 0x01F00000 :: z.out ∧ w.conv c = { v with popHi := 0 }) ∧
    (v.fill ≠ 0 → v.ringBad = false → let e := SMap.get (0, 0) v.buf v.rp; w.out = .read (adcOff c 0x14) e.1 :: z.out ∧
      w.conv c = { v with popHi := e.2, rp := (v.rp + 1) % v.len, fill := v.fill - 1 })) ∧
  (∀ off v, b.pw.mode = .commission → 0x800000 ≤ off → off < 0x1000000 → off % 4 = 0 → b.armedFlip (srcBench (windowBench off)) = 0 →
    ∃ w, exec (.debugWindowWrite t off v) s = .next (ends s t w) ∧ w.sram.lookup off = some ⟨v.toNat, 0⟩ ∧
      (∀ q, q ≠ off → w.sram.lookup q = b.sram.lookup q) ∧ exec (.registerWrite t off v) s = .next (ends s t w)) ∧
  (∀ off v, b.pw.mode ≠ .commission → exec (.debugWindowWrite t off v) s = .next (ends s t b)) ∧
  (∀ off v, b.pw.mode = .commission → 0x800000 ≤ off → off < 0x1000000 → off % 4 = 0 → b.sram.lookup off = some ⟨v, 0⟩ →
    exec (.debugWindowRead t off 0 0 0 0) s = .next (ends s t { b with out := .read off v :: b.out })) ∧
  (∀ off e y i a, b.pw.mode ≠ .commission →
    exec (.debugWindowRead t off e y i a) s = .next (ends s t { b with out := .read off 0 :: b.out })) ∧
  (∀ isRead off, exec (.unsupportedRequest t isRead off) s = .next (ends s t { b with out := .unsupported isRead off :: b.out }))

/-- TWN_CTL (15 R582, R590, R592): EN = 1 of a device that is set up takes the level of the rank ball as its rank where every segment
leaves a follower its window, and is refused with EN_REJ where one does not. While the device runs EN is locked. REPAIR ends pairing,
and EN stays.
The level of the rank ball is that of log 33. -/
def Obligations.TheTwinIsEnabledAndRepaired : Prop :=
  ∀ (s : State) (t : Nat), let b := s.before t
  (∀ ball, let c : State := { b with tw := { b.tw with ball := ball } }
    bit (b.force 0x0F0000) 0 = false → b.setup = true → c.noWindow = none → ∃ w, exec (.twnEnable t ball) s = .next (ends s t w) ∧
      w.force 0x0F0000 = 1 ∧ w.tw = { b.tw with ball := ball, rank := b2n ball, enAt := b.now } ∧ w = { b with regs := w.regs, tw := w.tw }) ∧
  (∀ ball k, let c : State := { b with tw := { b.tw with ball := ball } }
    bit (b.force 0x0F0000) 0 = false → b.setup = true → c.noWindow = some k → ∃ w, exec (.twnEnable t ball) s = .next (ends s t w) ∧
      w.regs = b.regs ∧ w.tw = { b.tw with ball := ball, enRej := true } ∧ ∃ m, w.asy.held = b.asy.held ++ [m] ∧ m.kind = 0x18) ∧
  (∀ ball, bit (b.force 0x0F0000) 0 = false → b.setup = false → ∃ w, exec (.twnEnable t ball) s = .next (ends s t w) ∧
      w.force 0x0F0000 = b.force 0x0F0000 ∧ w.tw = { b.tw with ball := ball } ∧
      w.regs.lockedCount = (b.regs.lockedCount + 1) % 2 ^ 16) ∧
  (∃ w, exec (.twnRepair t) s = .next (ends s t w) ∧ w.regs = b.regs ∧ w.tw.pair = .unpaired ∧ w.tw.pairBlocked = false ∧
    w.tw.tags = [] ∧ w.tw.role = b.tw.role ∧ w = { b with tw := w.tw })

/-! ## The hammer pool (03), jobs and the law (04, 06) -/

/-- A job of a network axis commits once (03 R132; 04 R157, R184): the run that completes leaves its axis as the law makes it of the
state the axis had, in its own cycle and with its own inputs, and no run of the job is left to complete. No other axis changes. The clauses leave out coupled axes, identified axes and group paths. A run
that completes in the clock of its segment's report close, or with another run of its job on a hammer of a lower number, is another
matter (02 R98, R101).
Runs that end without a commit (01 R17, R30; 03 R132, R135): an abandoned run stops and its overrun counts, a run that reaches four
times its length ends with its mark, and its job with it where it was the job's last run, the first timeout of a job is marked
and the second fences the valley.
The names of jobs are the choice of log 77, the 64th overrun is log 79, events of one core clock are found in the queue (log
88). A row whose condition does not hold changes nothing but the time (the choice of log 40). -/
def Obligations.RunsCommitOrEndWithout : Prop :=
  (∀ (s : State) (t h a : Nat) (r : HardRun) (j : Job), let b := s.before t; let x := b.axis a
  (b.hammer h).run = some (.hard r) → r.abandoned = false → r.key = .axis a → a < 512 → b.job (.axis a) = some j →
  b.cgroupOf a = none → x.ident = none → x.identWas = [] → b.tw.pair ≠ .paired → b.closesNow j.seg = false → b.beaten h (.axis a) = false →
  let q := axisJob (b.lawIn a j) x
  (∀ e ∈ q.2.2, match e with | .pathEnd _ _ => False | _ => True) →
  let y : Axis := { q.1 with ends := [], mo := { q.1.mo with
    ending := [], retained := q.1.mo.retained.map fun e => { e with lost := e.lost && j.input.srcM.isNone } } }
  ∃ w, exec (.jobComplete t h) s = .next (ends s t w) ∧
    w.axis a = (finishJob (b.recIn a j false) false none q.2.1 y).1 ∧ (∀ k, k ≠ a → w.axis k = b.axis k) ∧
    w.job (.axis a) = none ∧ (w.hammer h).run = none) ∧
  (∀ (s : State) (t h : Nat) (r : HardRun), let b := s.before t
  (b.hammer h).run = some (.hard r) →
  (r.abandoned = true → ∃ w, exec (.abandonedRunStop t h) s = .next (ends s t w) ∧ w = { b with pool := w.pool } ∧
    w.pool.jobs = b.pool.jobs ∧ w.hammer h = { b.hammer h with run := none, overrun := overrunAfter r b.core (b.hammer h).overrun false } ∧
    ∀ k, k ≠ h → w.hammer k = b.hammer k) ∧
  (r.abandoned = false → exec (.abandonedRunStop t h) s = .next (ends s t b)) ∧
  (b.core - r.since < 4 * r.len → exec (.jobWatchdog t h) s = .next (ends s t b)) ∧
  (∀ j a, r.abandoned = false → 4 * r.len ≤ b.core - r.since → r.key = .axis a → a < 512 → b.job (.axis a) = some j → j.waits = false →
    b.runsOf (.axis a) = [h] → b.resvOf (.axis a) = [] → b.cgroupOf a = none → (b.axis a).ident = none → b.tw.pair ≠ .paired →
    b.yields h = false → b.timesOutNow h = false →
    ∃ w, exec (.jobWatchdog t h) s = .next (ends s t w) ∧ w.job (.axis a) = none ∧
      ∃ l m, w.asy.held = b.asy.held ++ l ∧ m ∈ l ∧ m.src = srcHammer h ∧ m.kind = 0x04 ∧ m.addr = a) ∧
  (∀ j, b.job r.key = some j → j.timeouts = 0 → ∃ w, exec (.fabricTimeout t h) s = .next (ends s t w) ∧
    (w.job r.key).map Job.timeouts = some 1 ∧ ∃ m l, w.asy.held = b.asy.held ++ m :: l ∧ m.src = srcValley (valleyOfSeg j.seg) ∧
      m.kind = 0x06 ∧ m.react = 1) ∧
  (∀ j, b.job r.key = some j → j.timeouts ≠ 0 → b.fenced (srcValley (valleyOfSeg j.seg)) = false →
    ∃ w, exec (.fabricTimeout t h) s = .next (ends s t w) ∧ w.fenced (srcValley (valleyOfSeg j.seg)) = true ∧
      ∃ m l, w.asy.held = b.asy.held ++ m :: l ∧ m.src = srcValley (valleyOfSeg j.seg) ∧ m.kind = 0x06 ∧ m.react = 4))

/-- Copies, slow hammers and stalled benches (03 R129, R133, R136, R140; 01 R24, R29): the job of a single run that started earlier gets
one copy at t_ri, and its hammer takes no other run of that deadline. A job that waits, has its copy or has no run gets none, nor
one at another clock. The 64th
overrun makes its hammer slow. An ASB that lands on a bench in service is no longer in transit. A bench with ready work that nothing
takes for 256 clocks is fenced, and no other.
Soft jobs (03 R104, R107, R108, R125, R126, R151): a soft run asked to stop saves its context with what it has run, and its
hammer is idle where nothing waits for it, a statistics job writes its area to the status page, the product of a RESAMPLE waits for
its swap cycle, and a soft job past its limit is marked and given up.
The names of jobs are the choice of log 77, the 64th overrun is log 79, events of one core clock are found in the queue (log
88). A row whose condition does not hold changes nothing but the time (the choice of log 40). -/
def Obligations.CopiesAndSoftJobsRunOut : Prop :=
  (∀ (s : State) (t : Nat), let b := s.before t
  (∀ job j h, let k := jobKeyOf job
    b.job k = some j → b.runsOf k = [h] → j.hasCopy = false → j.waits = false → b.runsBefore h = true →
    b.atReissue j = true → b.completesNow h = false → b.fenced srcDispatcher = false →
    ∃ w, exec (.reissuePoint t job) s = .next (ends s t w) ∧ (w.job k).map Job.hasCopy = some true ∧ j.deadline ∈ (w.hammer h).barred ∧
      SMap.get 0 w.pool.reissue (valleyOfSeg j.seg) = (SMap.get 0 b.pool.reissue (valleyOfSeg j.seg) + 1) % 2 ^ 32 ∧
      (∀ a, w.axis a = b.axis a)) ∧
  (∀ job, (∀ j, b.job (jobKeyOf job) = some j → j.hasCopy = true ∨ j.waits = true ∨ b.runsOf (jobKeyOf job) = [] ∨ b.atReissue j = false) →
    exec (.reissuePoint t job) s = .next (ends s t b)) ∧
  (∀ h, 64 ≤ b.overruns h → (b.hammer h).slow = false → b.fenced (srcHammer h) = false → b.fencesNow [srcHammer h] = false → b.yields h = false →
    ∃ w, exec (.hammerSlow t h) s = .next (ends s t w) ∧ (w.hammer h).slow = true ∧
      ∃ m l, w.asy.held = b.asy.held ++ m :: l ∧ m.src = srcHammer h ∧ m.kind = 0x08) ∧
  (∀ a, b.inTransit a = true → b.benchOut (b.home a) = false → ∃ w, exec (.asbMoveLanded t a) s = .next (ends s t w) ∧
    w.inTransit a = false ∧ (∀ c, w.home c = b.home c) ∧ w = { b with pool := w.pool }) ∧
  (∀ k, b.stalled k = true → b.fencesNow [srcValley (valleyOf k)] = false → ∃ w, exec (.readyStall t k) s = .next (ends s t w) ∧
    w.fenced (srcBench k) = true ∧ ∃ m l, w.asy.held = b.asy.held ++ m :: l ∧ m.src = srcBench k ∧ m.kind = 0x05) ∧
  (∀ k, b.stalled k = false → exec (.readyStall t k) s = .next (ends s t b))) ∧
  (∀ (s : State) (t h : Nat) (j : Soft) (since : Nat), let b := s.before t
  ((b.hammer h).run = some (.soft j since true) → (b.hammer h).resv = none → b.takeable (benchOf h) h = [] →
    ∃ w, exec (.preemptStop t h) s = .next (ends s t w) ∧ Desk { b with pool := w.pool, free := w.free } w ∧
      w.hammer h = { b.hammer h with
        run := none, ctx := some ({ j with ran := j.ran + (b.core - since), accs := b.drawAccs.1 }, b.core) }) ∧
  ((b.hammer h).run = some (.soft j since false) → exec (.preemptStop t h) s = .next (ends s t b)) ∧
  (∀ stop k area, (b.hammer h).run = some (.soft j since stop) → (b.hammer h).resv = none → j.cls = .stat k area → b.host.linkUp = true →
    b.fenced srcHostEngine = false →
    ∃ w, exec (.softJobComplete t h) s = .next (ends s t w) ∧ (w.hammer h).run = none ∧ .status (0x400 + 32 * k) area ∈ w.out ∧
      Desk { b with pool := w.pool } w) ∧
  (∀ stop a p, (b.hammer h).run = some (.soft j since stop) → (b.hammer h).resv = none → j.cls = .resample a →
    (b.axis a).ln.resample = some p → ∃ w, exec (.softJobComplete t h) s = .next (ends s t w) ∧ (w.hammer h).run = none ∧
      (w.axis a).ln.resample = some { p with scratch := some (resampleTable (b.axis a).ln.bins (b.axis a).ln.log2n p.log2n) } ∧
      (w.axis a).ln.bins = (b.axis a).ln.bins ∧ ∀ x, x ≠ a → w.axis x = b.axis x) ∧
  (∀ stop k area, (b.hammer h).run = some (.soft j since stop) → (b.hammer h).resv = none → j.cls = .stat k area →
    b.softLimit < j.ran + (b.core - since) → ∃ w, exec (.softLimit t h) s = .next (ends s t w) ∧ (w.hammer h).run = none ∧
      Desk { b with pool := w.pool } w ∧ ∃ m, w.asy.held = b.asy.held ++ [m] ∧ m.src = srcHammer h ∧ m.kind = 0x0E) ∧
  (∀ stop, (b.hammer h).run = some (.soft j since stop) → j.ran + (b.core - since) ≤ b.softLimit →
    exec (.softLimit t h) s = .next (ends s t b)))

/-- Rounding and saturation (06 R269): a narrowing drops k bits with round_conv, half to even, and then saturates to w bits; its flag says
whether the value changed there, and the rounded value is nearest to the exact one, a tie going to the even one. A sum that ends
drops 31 bits and saturates to 32. narrow_q115 is the narrowing by 16 bits to 16 and narrow_q17 that by 24 to 8, as the command
records of the torque stage carry them. -/
def Obligations.NarrowingRoundsToEvenAndSaturates : Prop :=
  (∀ (x : Int) (w k : Nat), 1 ≤ w →
  let lo : Int := -(2 ^ (w - 1)); let hi : Int := 2 ^ (w - 1) - 1; let q := roundConv x k; let r := narrow w k x
  lo ≤ r.v ∧ r.v ≤ hi ∧ (lo ≤ q → q ≤ hi → r.v = q ∧ r.sat = false) ∧ (q < lo → r.v = lo ∧ r.sat = true) ∧
  (hi < q → r.v = hi ∧ r.sat = true) ∧ 2 * (q * 2 ^ k - x) ≤ 2 ^ k ∧ 2 * (x - q * 2 ^ k) ≤ 2 ^ k ∧
  (2 * (q * 2 ^ k - x) = 2 ^ k ∨ 2 * (x - q * 2 ^ k) = 2 ^ k → 1 ≤ k → q % 2 = 0) ∧ (k = 0 → q = x)) ∧
  (∀ ts : List Int, (sum32 ts).v = (narrow 32 31 (ts.foldl Acc.add {}).v).v ∧
    (sum32 ts).sat = (narrow 32 31 (ts.foldl Acc.add {}).v).sat) ∧
  (∀ (r : RecIn) (velocity : Bool) (c : Option Int) (l : Left) (ax : Axis), l.opened = false → r.estop = false →
    let y := finishJob r velocity c l ax
    (ax.set.kind ≠ .drv → (y.2.1.drop 2).take 2 = leInt 2 (narrow 16 16 y.1.lp.tauPrev).v) ∧
    (ax.set.kind = .drv → (y.2.1.drop 1).take 1 = leInt 1 (narrow 8 24 y.1.lp.tauPrev).v))

/-- The torque stage S7 (04 R182, R183, R184). For an axis that is not DRV, with the torque coupling term c of S6: u6 is clamped to the
torque limits, with DTLIM then to within DTLIM of the last value, SAT_OUT is set when either clamp limits and is left alone otherwise,
the record carries the narrowed value and τ_prev is the value itself. In every closed cycle, of a DRV axis too, whatever the loops, the
coupling term and the excitation ask for, τ_prev keeps to the limits, and with DTLIM differs from the last by DTLIM at most. -/
def Obligations.TheTorqueKeepsToItsLimits : Prop :=
  ∀ (r : RecIn) (velocity : Bool) (c : Option Int) (l : Left) (ax : Axis), l.opened = false → ax.co.tlimNeg ≤ ax.co.tlimPos →
  let y := (finishJob r velocity c l ax).1
  (ax.co.dtlim = 0 → ax.co.tlimNeg ≤ y.lp.tauPrev ∧ y.lp.tauPrev ≤ ax.co.tlimPos) ∧
  (0 < ax.co.dtlim → ax.lp.tauPrev - ax.co.dtlim ≤ y.lp.tauPrev ∧ y.lp.tauPrev ≤ ax.lp.tauPrev + ax.co.dtlim ∧
    (ax.co.tlimNeg ≤ ax.lp.tauPrev → ax.lp.tauPrev ≤ ax.co.tlimPos → ax.co.tlimNeg ≤ y.lp.tauPrev ∧ y.lp.tauPrev ≤ ax.co.tlimPos)) ∧
  y.co = ax.co ∧ y.mo = ax.mo ∧ y.fb = ax.fb ∧ y.set = ax.set ∧
  (ax.set.kind ≠ .drv → velocity = false → ax.ident = none →
    let u6 := (sat 32 (l.u5 + c.getD 0)).v; let a := clampI u6 ax.co.tlimNeg ax.co.tlimPos
    let u7 := if ax.co.dtlim = 0 then a else clampI a (ax.lp.tauPrev - ax.co.dtlim) (ax.lp.tauPrev + ax.co.dtlim)
    y.lp.tauPrev = u7 ∧ (a ≠ u6 ∨ u7 ≠ a → y.lp.flags.getLsbD fSatOut = true) ∧
    (a = u6 → u7 = a → y.lp.flags.getLsbD fSatOut = ax.lp.flags.getLsbD fSatOut) ∧
    (r.estop = false → ((finishJob r velocity c l ax).2.1.drop 2).take 2 = leInt 2 (narrow 16 16 u7).v))

/-! ## The Miush network (08, 09) and the control cycle (02) -/

/-- A slot of the controller (08 R344, R348, R349, R360, R364; 09 R391, R397, R401, R402): at the START of a used entry with SENDER 0 a
running segment sends its train, its SY, its safe frame or one frame of the acyclic window on both channels, each copy with its own
header and FCS, from a port whose link is up and whose MAC is in service. In the CS phase a CT entry carries a CS frame. The first SY
synchronises the segment. An entry that is not used, not the controller's or not due sends nothing.
A row whose condition does not hold changes nothing but the time (the choice of log 40). -/
def Obligations.SlotsSendTheirFrames : Prop :=
  ∀ (s : State) (t k e : Nat), let b := s.before t; let g := b.seg k; let w0 := b.sched k e
  let copy (start type sender : Nat) (p : List Byte) (chB : Bool) : List Out :=
    let f := b.header k type sender e chB ++ p; let src := srcMac (2 * k + b2n chB)
    if b.portUp k chB = true ∧ b.fenced src = false then [.frame k chB start (f ++ leBytes 4 (crc32 f ^^^ b.armedFlip src))] else []
  let both (type sender : Nat) (p : List Byte) : List Out := copy b.mt type sender p true ++ copy b.mt type sender p false
  (b.entryUsed k e = false ∨ schSender w0 ≠ 0 ∨ b.slotDue k e = false → exec (.slotTransmit t k e) s = .next (ends s t b)) ∧
  (b.entryUsed k e = true → schSender w0 = 0 → b.slotDue k e = true →
    (schType w0 = 1 → g.ring = .running → ¬ (b.fenced (srcMould k) = true ∧ b.fenced srcWatchdog = true) →
      ∃ w, exec (.slotTransmit t k e) s = .next (ends s t w) ∧ w.out = both 1 0 (b.ctPayload k) ++ b.out ∧
        w.seg k = { g with lastSent := (b.core + 1, e) } ∧ (∀ j, j ≠ k → w.seg j = b.seg j) ∧ w.axes = b.axes) ∧
    (schType w0 = 1 → g.ring = .csPhase → g.csDone = false → (∀ u, g.csUntil = some u → b.now < u) →
      ∃ w, exec (.slotTransmit t k e) s = .next (ends s t w) ∧
        w.out = both 5 (if b.rank = 0 then 0 else 62) (b.csPayload k) ++ b.out ∧
        (w.seg k).csUntil = some (g.csUntil.getD (b.now + 1000000)) ∧ ∀ j, j ≠ k → w.seg j = b.seg j) ∧
    (schType w0 = 1 → g.ring = .integrated → b.following = true → (b.twSeg k).covered = true →
      ∃ w, exec (.slotTransmit t k e) s = .next (ends s t w) ∧
        w.out = copy (b.coverStart k) 1 0 (b.coverPayload k) b.coverB ++ b.out) ∧
    (schType w0 = 3 → g.ring = .running → ∃ w p l, exec (.slotTransmit t k e) s = .next (ends s t w) ∧
      w.out = l ++ both 3 0 p ++ b.out ∧ p.take 13 = leBytes 8 b.mt ++ leBytes 5 b.cyc ∧ byteAt p 14 = (b.delayEntry k).1 % 256 ∧
      (w.seg k).synced = true ∧ (w.seg k).firstSyN = (if g.synced then g.firstSyN else b.cyc) ∧
      (∀ j, j ≠ k → w.seg j = b.seg j) ∧ w.axes = b.axes) ∧
    (∀ c, schType w0 = 4 → b.segRuns k = true → b.connAt k e = some c → b.saf.tickRaw + 4000 ≤ b.raw →
      let x := b.safConn c; let start := if b.following then b.coverStart k else b.mt
      ∃ w, exec (.slotTransmit t k e) s = .next (ends s t w) ∧
        w.out = (if x.unitB = [] then [] else copy start 4 0 x.unitB true) ++ (if x.unitA = [] then [] else copy start 4 0 x.unitA false) ++
          b.out ∧ w.saf = b.saf ∧ w.axes = b.axes) ∧
    (schType w0 = 8 → g.ring = .running → ∃ w, exec (.slotTransmit t k e) s = .next (ends s t w) ∧ (∀ j, j ≠ k → w.seg j = b.seg j) ∧
      (∀ a rest, takeOwed b.mayOwe g.owe = some (a, rest) → (w.seg k).owe = rest) ∧
      (takeOwed b.mayOwe g.owe = none → (w.seg k).owe = g.owe ∧
        (∀ r, b.requestDue k = some r → let tr := if r.sent then r.trans else (g.trans + 1) % 2 ^ 16
          w.out = both 8 0 (mgFrame r.fn r.node tr r.data) ++ b.out ∧ (w.seg k).asked = some r.node ∧
          (w.seg k).mg = some { r with trans := tr, repeats := if r.sent then r.repeats + 1 else 0, sent := true }) ∧
        (b.requestDue k = none → let left := if g.synced = true ∧ b.hasWindow k = true then b.pollable k else []
          let tr := (g.trans + 1) % 2 ^ 16; let all := left.all fun j => (b.node k j).polledOnce
          (left ≠ [] → all = true → b.minor k = 0 → w.out = both 8 0 (mgFrame 0x02 63 tr []) ++ b.out ∧ (w.seg k).invited = true ∧
            (w.seg k).asked = none) ∧
          (∀ h, left = [] ∨ all = false ∨ b.minor k ≠ 0 → nextAfter (left.filter fun j => !(b.node k j).waitsHeal) g.lastPoll = some h →
            w.out = both 8 0 (mgFrame 0x01 h tr []) ++ b.out ∧ (w.seg k).asked = some h ∧ (w.node k h).st = .polled ∧
            (w.seg k).lastPoll = h) ∧
          (left = [] ∨ all = false → nextAfter (left.filter fun j => !(b.node k j).waitsHeal) g.lastPoll = none → b.spareFree k = true → g.mg = none → b.minor k = 0 → g.synced = true →
            w.out = both 8 0 (mgFrame 0x03 63 tr []) ++ b.out ∧ (w.seg k).invited = true ∧ (w.seg k).asked = none)))))

/-- Reports and lost nodes (08 R347, R365, R370, R372, R398, R399; 01 R42, R43): the first valid copy of a report whose cycle has not
reached RC is the node's report of the cycle, unless the node is muted or the copy of channel A is valid in the same core clock. A copy
that fails a check counts against its channel and changes nothing else, a node whose slots are missed is marked, and lost after 8
cycles, a late-comer that sends no report is withdrawn, and an address not found is marked.
Overlaps and muting (09 R406 to R409): receive activity of a slot that runs 16 ns over its expected duration and past the expected
start of the next used slot spoils the copies of both, and charges once in a cycle the node of a slot where only one is a node's, and
else the node whose copy is further from its slot, or both where the two are within 1 ns. Activity that stays within its duration
charges no one. The third consecutive offence mutes the node.
Windows and counters beyond the words of the spec are logs 65 and 66, events of one core clock are found in the queue (log
88). A row whose condition does not hold changes nothing but the time (the choice of log 40). -/
def Obligations.ReportsAreTakenAndOffendersMuted : Prop :=
  (∀ (s : State) (t k : Nat), let b := s.before t
  (∀ chB start frame c e, b.segRuns k = true → b.hears k chB = true →
    (b.entryAt k chB start fun w => decide (schType w = 2)) = some (c, e) →
    let j := schSender (b.sched k e)
    (b.reportOk k c e chB start frame = true →
      ∃ w, exec (.rpReceived t k chB start frame) s = .next (ends s t w) ∧
        (if chB then (w.node k j).onB else (w.node k j).onA) = true ∧ (∀ i, i ≠ k → w.seg i = b.seg i) ∧
        (let first := (b.node k j).used.isNone && !(b.node k j).muted && b.inTime k c && !(chB && b.copyANow k c e)
         (first = true → (w.node k j).used = some (payloadOf frame) ∧ (w.node k j).lastChB = chB ∧
           ((b.node k j).st ≠ .live → (w.node k j).st = .live ∧ (w.node k j).missRun = 0)) ∧
         (first = false → (w.node k j).used = (b.node k j).used))) ∧
    (b.reportOk k c e chB start frame = false → 1 ≤ j → j ≤ 40 → ∃ w, exec (.rpReceived t k chB start frame) s = .next (ends s t w) ∧
      w = { b with segs := w.segs, out := w.out } ∧ (w.node k j).used = (b.node k j).used ∧
      (if chB then (w.node k j).bBad else (w.node k j).aBad) = ((if chB then (b.node k j).bBad else (b.node k j).aBad) + 1) % 256)) ∧
  (∀ j, b.staleK k < (b.node k j).missRun → 0x41 ∉ (b.src (srcNode k j)).live → ∃ w, exec (.reportLost t k j) s = .next (ends s t w) ∧
    ∃ m l, w.asy.held = b.asy.held ++ m :: l ∧ m.src = srcNode k j ∧ m.kind = 0x41 ∧ m.addr = nodeAddr k j) ∧
  (∀ j, 8 ≤ (b.node k j).missRun → 0x40 ∉ (b.src (srcNode k j)).live → ∃ w, exec (.nodeLost t k j) s = .next (ends s t w) ∧
    (w.node k j).live = false ∧ ∃ m l, w.asy.held = b.asy.held ++ m :: l ∧ m.src = srcNode k j ∧ m.kind = 0x40 ∧ m.addr = nodeAddr k j) ∧
  (∀ j, (b.node k j).missRun < 8 → exec (.nodeLost t k j) s = .next (ends s t b)) ∧
  (∀ j a n g, (b.node k j).st = .granted a n g → 16 ≤ (b.cyc + 2 ^ 40 - g) % 2 ^ 40 → (b.cyc + 2 ^ 40 - g) % 2 ^ 40 < 2 ^ 39 →
    ∃ w, exec (.latecomerWithdrawn t k j) s = .next (ends s t w) ∧ (w.node k j).st = .absent ∧
      ∃ m, w.asy.held = b.asy.held ++ [m] ∧ m.src = srcNode k j ∧ m.kind = 0x4B) ∧
  (∀ j, (b.seg k).synced = true → j ∈ b.pollable k → (b.node k j).notFound = false →
    64 ≤ (b.cyc + 2 ^ 40 - (b.seg k).firstSyN) % 2 ^ 40 → ∃ w, exec (.nodeNotFound t k j) s = .next (ends s t w) ∧
      (w.node k j).notFound = true ∧ ∃ m, w.asy.held = b.asy.held ++ [m] ∧ m.src = srcNode k j ∧ m.kind = 0x44)) ∧
  (∀ (s : State) (t k : Nat), let b := s.before t
  (∀ chB start first second, b.segRuns k = true → b.hears k chB = true →
    let c := if (b.arrival k 1 first chB start).natAbs < (b.arrival k 0 first chB start).natAbs then 1 else 0
    let e2 := b.expected k (if schStart (b.sched k first) < schStart (b.sched k second) then c else c - 1) (schStart (b.sched k second)) chB
    let o1 := b.arrival k c first chB start; let o2 := 16 * ((b.mt : Int) - b.entryDur k second) - e2
    b.nextUsed k c first = some second → b.entryDur k first + 16 < b.mt - start → e2 < 16 * (b.mt : Int) →
    ∃ w, exec (.receiveOverlap t k chB start first second) s = .next (ends s t w) ∧ w = { b with segs := w.segs } ∧
      (∀ e j, e = first ∨ e = second → schSender (b.sched k e) = j → 1 ≤ j → j ≤ 40 →
        (if chB then (w.node k j).badB else (w.node k j).badA) = true) ∧
      let charged (i : Nat) : Prop := (w.node k i).offended = true ∧
        (w.node k i).offence = (if (b.node k i).offended then (b.node k i).offence else min 3 ((b.node k i).offence + 1))
      let spared (i : Nat) : Prop := (w.node k i).offended = (b.node k i).offended ∧ (w.node k i).offence = (b.node k i).offence
      (∀ i, b.chargeable k first = some i → b.chargeable k second = none → charged i) ∧
      (∀ j, b.chargeable k first = none → b.chargeable k second = some j → charged j) ∧
      (∀ i j, b.chargeable k first = some i → b.chargeable k second = some j → i ≠ j →
        let d : Int := (o1.natAbs : Int) - o2.natAbs
        (d.natAbs ≤ 16 → charged i ∧ charged j) ∧ (16 < d → charged i ∧ spared j) ∧ (d < -16 → charged j ∧ spared i))) ∧
  (∀ chB start first second, b.mt - start ≤ b.entryDur k first + 16 →
    exec (.receiveOverlap t k chB start first second) s = .next (ends s t b)) ∧
  (∀ j, 3 ≤ (b.node k j).offence → (b.node k j).muted = false → ∃ w, exec (.nodeMuted t k j) s = .next (ends s t w) ∧
    (w.node k j).muted = true ∧ ∃ m l, w.asy.held = b.asy.held ++ m :: l ∧ m.src = srcNode k j ∧ m.kind = 0x43 ∧ m.addr = nodeAddr k j) ∧
  (∀ j, (b.node k j).offence < 3 → exec (.nodeMuted t k j) s = .next (ends s t b)))

/-- Integration, late-comers and requests (08 R364, R379 to R381; 09 R387, R397, R400, R401, R418; 14 R567): the first valid answer of the
address that was polled, or to the invitation, ends the poll: an address that is still polled is assigned, address 63 takes the lowest
address still polled where the setting allows it, and every other answer, or one without a delay on an open ring, is refused. An
invited claim takes the spare entry that fits it or is refused, two claims of one open entry are neither. The answer to a request
reaches its host buffer and the next request follows, and a request sent four times without an answer is over.
The order of requests beyond the words of the spec is log 66, claims beside each other are judged by the queue (log 88), and
an invalid copy counts where log 90 says. A row whose condition does not hold changes nothing but the time (the choice of log
40). -/
def Obligations.NodesAreIntegratedAndAsked : Prop :=
  ∀ (s : State) (t k : Nat), let b := s.before t; let g := b.seg k
  (∀ chB start frame x, b.segRuns k = true → b.openEntry k chB start frame = some x → byteAt frame 0 / 16 = 6 → frame.length = 26 →
    b.askedIn k x.1 = true → b.mayAnswer k frame = true → b.polledNow k = true → (g.asked = none ∨ b.claimBeside k x none = false) →
    let p := payloadOf frame; let a := byteAt p 0; let id := slice p 8 8; let blind := g.ringOpen = true ∧ fldS p 6 2 = -0x8000
    let free := bit (b.force (netOff k 0x20)) 15 = false
    ∃ w, exec (.inAnswer t k chB start frame) s = .next (ends s t w) ∧ (w.seg k).asked = none ∧ (w.seg k).invited = false ∧
      (∀ i, i ≠ k → w.seg i = b.seg i) ∧
      let assigned (h : Nat) : Prop := (w.node k h).st = .assigned 0 ∧ (w.node k h).ident = id ∧ (w.seg k).owe = g.owe ++ [.assign h id]
      (¬ blind → a ∈ b.pollable k → assigned a) ∧
      (∀ h, ¬ blind → a = 63 → free → (b.pollable k).head? = some h → assigned h) ∧
      (blind ∨ (a ∉ b.pollable k ∧ (a ≠ 63 ∨ ¬ free ∨ b.pollable k = [])) → (w.seg k).owe = g.owe ++ [.refuse id])) ∧
  (∀ chB start frame x, b.segRuns k = true → b.openEntry k chB start frame = some x → claimFrame frame = true →
    let p := payloadOf frame; let id := slice p 8 8; let n := (b.cyc + 1) % 2 ^ 40
    ∃ w, exec (.lcClaim t k chB start frame) s = .next (ends s t w) ∧ (∀ i, i ≠ k → w.seg i = b.seg i) ∧
      (b.claimBeside k x (some id) = true → ∀ y ∈ (w.seg k).owe, y ∈ g.owe) ∧
      (g.invited = false → (w.seg k).nodes = g.nodes ∨ b.claimBeside k x (some id) = true) ∧
      (b.claimBeside k x (some id) = false → (∀ c, g.claim = some c → c.1 ≠ b.countBack k x.1) → g.invited = true → b.askedIn k x.1 = true →
        (g.ringOpen = true ∨ b.spareFor k (byteAt p 0) = none → (w.seg k).owe = g.owe ++ [.refuseClaim id n]) ∧
        (∀ j, g.ringOpen = false → b.spareFor k (byteAt p 0) = some j →
          (w.node k j).st = .granted ((n + 1) % 2 ^ 40) (byteAt p 0) n ∧ (w.node k j).ident = id ∧ (w.node k j).count = byteAt p 0 ∧
            (w.seg k).owe = g.owe ++ [.grant j id ((n + 1) % 2 ^ 40) (byteAt p 0)]))) ∧
  (∀ chB start frame r x, g.mg = some r → b.segRuns k = true → b.openEntry k chB start frame = some x → byteAt frame 0 / 16 = 8 →
    b.askedIn k x.1 = true → g.asked = some r.node → byteAt frame 1 = r.node → let p := payloadOf frame
    4 ≤ p.length → p.length ≤ 256 → fld p 2 2 = r.trans → r.sent = true → b.claimBeside k x none = false →
    ∃ w, exec (.mgAnswer t k chB start frame) s = .next (ends s t w) ∧
      (b.fenced srcHostEngine = false → .hostWrite r.buf (p.drop 4) ∈ w.out) ∧
      (w.seg k).mg = g.mgWait.head? ∧ (w.seg k).mgWait = g.mgWait.tail ∧ (w.seg k).asked = none) ∧
  (∀ r, g.mg = some r → r.sent = true → 3 ≤ r.repeats → b.askedNow k = false → ∃ w, exec (.mgmtRequestTimeout t k) s = .next (ends s t w) ∧
    (w.seg k).mg = g.mgWait.head? ∧ (w.seg k).mgWait = g.mgWait.tail) ∧
  (∀ r, g.mg = some r → r.repeats < 3 → exec (.mgmtRequestTimeout t k) s = .next (ends s t b))

/-- The ring opens and heals (09 R410, R416, R417, R421, R422; 08 R342): an own SY that returns on both channels of a closed ring is
measured, a copy that does not return, or reaches a port that is down, counts against its channel, a lost channel of a running segment
opens the ring with its mark, a port that goes down opens it at once, sixteen returns heal it, and at the boundary after
remeasurement every node in service takes its new delays.
The ring of a segment without a schedule is log 90. A row whose condition does not hold changes nothing but the time (the
choice of log 40). -/
def Obligations.TheRingOpensAndHeals : Prop :=
  ∀ (s : State) (t k : Nat), let b := s.before t; let g := b.seg k
  (∀ da db, b.segRuns k = true → g.synced = true →
    let x := if b.hears k false then da else none; let y := if b.hears k true then db else none
    ∃ w, exec (.syReturn t k da db) s = .next (ends s t w) ∧
      (w.seg k).noRetA = (if x.isSome then 0 else min 255 (g.noRetA + 1)) ∧
      (w.seg k).noRetB = (if y.isSome then 0 else min 255 (g.noRetB + 1)) ∧
      (w.seg k).heal = (if x.isSome ∧ y.isSome then min 255 (g.heal + 1) else 0) ∧
      (∀ p q, x = some p → y = some q → g.ringOpen = false →
        (w.seg k).daHist = ((p : Int) :: g.daHist).take 16 ∧ (w.seg k).dbHist = ((q : Int) :: g.dbHist).take 16) ∧
      (x = none ∨ y = none ∨ g.ringOpen = true → (w.seg k).daHist = g.daHist ∧ (w.seg k).dbHist = g.dbHist ∧ (w.seg k).d = g.d)) ∧
  (∀ chB, b.segRuns k = true → b.channelGone k chB = true → g.ringOpen = false → ∃ w, exec (.channelLost t k chB) s = .next (ends s t w) ∧
    (w.seg k).ringOpen = true ∧ (w.seg k).heal = 0 ∧ ∃ m, w.asy.held = b.asy.held ++ [m] ∧ m.src = srcSeg k ∧ m.kind = 0x51) ∧
  (∀ chB, b.channelGone k chB = false → exec (.channelLost t k chB) s = .next (ends s t b)) ∧
  (g.ringOpen = true → g.linkW = true → g.linkE = true → 16 ≤ g.heal → ∃ w, exec (.ringHealed t k) s = .next (ends s t w) ∧
    (w.seg k).ringOpen = false ∧ (w.seg k).remeasure = 16 ∧ (w.seg k).daHist = [] ∧
      ∃ m, w.asy.held = b.asy.held ++ [m] ∧ m.src = srcSeg k ∧ m.kind = 0x53) ∧
  (g.heal < 16 → exec (.ringHealed t k) s = .next (ends s t b)) ∧
  (b.majorOffset = 0 → g.remeasured = true → (∀ j ∈ b.serviceNodes k, 8 ≤ (b.node k j).deltas.length) →
    ∃ w, exec (.delayAdoption t k) s = .next (ends s t w) ∧
      (w.seg k).remeasured = false ∧ ∀ j ∈ b.serviceNodes k, (w.node k j).asym = false ∧
        ∀ x y, delaysOf g.d (b.node k j).deltas = some (x, y) → (w.node k j).daTo = x ∧ (w.node k j).dbTo = y) ∧
  (∀ east up, ∃ w, exec (.portLinkChange t (2 * k + b2n east) up) s = .next (ends s t w) ∧
    (if east then (w.seg k).linkE else (w.seg k).linkW) = up ∧ (if east then (w.seg k).linkW else (w.seg k).linkE) = (if east then g.linkW else g.linkE) ∧
    (up = false → g.ring ≠ .stopped → (w.seg k).ringOpen = true) ∧
    (up = true → g.ring = .listening → (if east then g.linkW else g.linkE) = true → (w.seg k).ringOpen = false) ∧
    (up = true → g.ring = .listening → g.listenFrom = none → (w.seg k).listenFrom = some b.now) ∧ ∀ j, j ≠ k → w.seg j = b.seg j)

/-- The cold start (09 R390 to R396, R425; 15 R583): a silent listen ends in the CS phase, a CS, CT or SY heard while
listening leads to integration, the contest of the CS phase goes by rank, nonce and cycle length, the phase ends after its time, and the
schedule then begins at the next major-cycle boundary. A second SY that agrees with the first integrates the segment. A frame at a
port that is down is not heard.
The nonce is the free value of log 6, the ring of a segment without a schedule is log 90, events of one core clock are found
in the queue (log 88). A row whose condition does not hold changes nothing but the time (the choice of log 40). -/
def Obligations.TheColdStartIsWonOrJoined : Prop :=
  ∀ (s : State) (t k : Nat), let b := s.before t; let g := b.seg k
  (∀ f, g.ring = .listening → g.listenFrom = some f → b.listenLen ≤ b.now - f → b.coldNow k = false →
    ∃ w, exec (.listenEnd t k) s = .next (ends s t w) ∧
    (w.seg k).ring = .csPhase ∧ (w.seg k).csUntil = none ∧ (w.seg k).csDone = false ∧ ∀ j, j ≠ k → w.seg j = b.seg j) ∧
  (∀ f, g.listenFrom = some f → b.now - f < b.listenLen ∨ b.coldNow k = true → exec (.listenEnd t k) s = .next (ends s t b)) ∧
  (∀ chB frame, b.hears k chB = true → coldOk frame 5 csLen [0, 62] = true → let p := payloadOf frame
    let quiet (w : State) : Prop := w = { b with segs := w.segs, out := w.out }
    let marked (w : State) (kind : Nat) : Prop := ∃ m ∈ w.asy.held.drop b.asy.held.length, m.src = srcSeg k ∧ m.kind = kind
    let equal := byteAt p 0 = b.rank; let code := byteAt p 4 = b.ownCode k
    let lower := byteAt p 0 < b.rank ∨ (equal ∧ fld p 2 2 < g.nonce.toNat)
    ∃ w, exec (.csReceived t k chB frame) s = .next (ends s t w) ∧
      (g.ring = .listening → quiet w ∧ (w.seg k).ring = .integrating) ∧
      (g.ring = .csPhase → g.csDone = false → equal → marked w 0x4C) ∧
      (g.ring = .csPhase → g.csDone = false → equal → fld p 2 2 = g.nonce.toNat → (w.seg k).ring = .listening) ∧
      (g.ring = .csPhase → g.csDone = false → lower → code → (w.seg k).ring = .integrating ∧ (w.seg k).loser = true) ∧
      (g.ring = .csPhase → g.csDone = false → lower → ¬ code → (w.seg k).ring = .halted ∧ marked w 0x4D) ∧
      (g.ring = .csPhase → g.csDone = false → ¬ lower → ¬ (equal ∧ fld p 2 2 = g.nonce.toNat) → w.seg k = g) ∧
      (g.ring ≠ .listening → g.ring ≠ .csPhase ∨ g.csDone = true → quiet w ∧ w.seg k = g)) ∧
  (∀ u, g.ring = .csPhase → g.csUntil = some u → u ≤ b.now → ∃ w, exec (.csPhaseEnd t k) s = .next (ends s t w) ∧
    w = { b with segs := w.segs } ∧ w.seg k = { g with csDone := true }) ∧
  (∀ u, g.csUntil = some u → b.now < u → exec (.csPhaseEnd t k) s = .next (ends s t b)) ∧
  (g.ring = .csPhase → g.csDone = true → b.majorOffset = 0 → ∃ w, exec (.scheduleStart t k) s = .next (ends s t w) ∧
    (w.seg k).ring = .running ∧ (w.seg k).synced = false ∧ (w.seg k).train = [] ∧
    (g.linkW = true → g.linkE = true → w.asy = b.asy ∧ (w.seg k).ringOpen = g.ringOpen) ∧
    (g.linkW = false ∨ g.linkE = false → (w.seg k).ringOpen = true) ∧
    w.tw.role = (if bit (b.force 0x0F0000) 0 then .leader else b.tw.role)) ∧
  (g.csDone = false ∨ b.majorOffset ≠ 0 → exec (.scheduleStart t k) s = .next (ends s t b)) ∧
  (∀ chB frame, b.hears k chB = true → coldOk frame 3 syLen [0] = true → let h := syHead frame; let other := h.2.2.2 ≠ b.ownCode k
    ∃ w, exec (.syReceived t k chB frame) s = .next (ends s t w) ∧ (∀ j, j ≠ k → w.seg j = b.seg j) ∧
      (g.ring = .listening → (w.seg k).ring = .integrating) ∧
      (g.ring = .csPhase → g.csDone = false → ¬ other → (w.seg k).ring = .integrating ∧ (w.seg k).loser = true) ∧
      (g.ring = .csPhase → g.csDone = false → other → (w.seg k).ring = .halted) ∧
      (g.ring = .integrating → g.loser = true → other → (w.seg k).ring = .halted) ∧
      (g.ring = .integrating → ¬ (g.loser = true ∧ other) →
        (g.heard = none → w.seg k = { g with heard := some h }) ∧
        (∀ h0, g.heard = some h0 → syConsistent h0 h = true → (w.seg k).ring = .integrated) ∧
        (∀ h0, g.heard = some h0 → syConsistent h0 h = false → w.seg k = { g with heard := some h })) ∧
      (g.ring = .integrated → (w.seg k).ring = .integrated ∧
        (if chB then (w.seg k).syB else (w.seg k).syA) = some (h.1, b.mt - 400))) ∧
  (∀ chB frame, b.hears k chB = true → coldOk frame 1 ctLen [0] = true →
    ∃ w, exec (.ctReceived t k chB frame) s = .next (ends s t w) ∧
      (g.ring = .listening ∨ (g.ring = .csPhase ∧ g.csDone = false) → w = { b with segs := w.segs, out := w.out } ∧ (w.seg k).ring = .integrating) ∧
      (g.ring = .integrated → fld frame 2 2 = b.countNow k % 2 ^ 16 → bit (byteAt frame 5) 7 = chB →
        (w.seg k).ctSeen = true ∧ w.tw.heardNow = true ∧ w.tw.silent = 0)) ∧
  (∀ chB frame, b.tw.role ≠ .follower → b.hears k chB = false →
    exec (.csReceived t k chB frame) s = .next (ends s t b) ∧ exec (.syReceived t k chB frame) s = .next (ends s t b) ∧
    exec (.ctReceived t k chB frame) s = .next (ends s t b))

/-- Master intervals and major cycles (01 R11, R44, R47; 10 R445; 14 R573; 16 R632; 04 R216): once in an interval's first core clock what
the last interval evaluated is posted, and every port and virtual master is evaluated anew; a fenced master unit posts nothing. The
major-cycle boundary takes back into service what waits for it, begins the counts of a cycle afresh and sends the messages that
rings withheld. Neither does anything before the device is up, at another core clock, or a second time.
The control cycle (02 R59, R64, R71, R72; 01 R33; 03 R110): at the first report-close point of a cycle of a segment in service its
bank opens, and unless its valley is fenced every axis of it that keeps its ASB has a job of the cycle that is ready, with the pour
point as its deadline. At the pour point the train takes the record of every axis that released one in time, and a hold record
of every other, each of which counts. A point that is not due, or is there a second time, changes nothing.
The corners of pours, stops and master values are logs 52 to 54, the order at a boundary is log 47, the cause of a train that
is not released and the events of one clock are log 88. A row whose condition does not hold changes nothing but the time (the
choice of log 40). -/
def Obligations.CyclesOpenAndPourWithinMajorCycles : Prop :=
  (∀ (s : State) (t : Nat), let b := s.before t
  (b.up = false ∨ b.intervalDue = false → exec (.masterInterval t) s = .next (ends s t b)) ∧
  (b.up = false ∨ b.boundaryNow = false → exec (.majorCycleBoundary t) s = .next (ends s t b)) ∧
  (b.up = true → b.intervalDue = true → ∃ w, exec (.masterInterval t) s = .next (ends s t w) ∧ w.intervalDue = false ∧
    (b.fenced srcMaster = true → w.posted = [] ∧ w.evaluated = []) ∧
    (b.fenced srcMaster = false → w.posted = b.evaluated ∧ (b.tw.role ≠ .follower →
      (∀ p < 8, SMap.get ⟨0, false⟩ w.evaluated (560 + p) = ⟨(w.port p).pos, (w.port p).axisValid⟩) ∧
      ∀ a ∈ virtualMasters, (SMap.get ⟨0, false⟩ w.evaluated a).valid = true))) ∧
  (b.up = true → b.boundaryNow = true → ∃ w, exec (.majorCycleBoundary t) s = .next (ends s t w) ∧ w.boundaryNow = false ∧
    w.pool.rejoin = [] ∧ (∀ src ∈ b.pool.rejoin, w.fenced src = false) ∧ w.pw.retrans = [] ∧ w.asy.cycWatch = 0 ∧
    (b.fenced srcTimeUnit = false → w.time.stepTaken = false ∧ w.time.selTaken = false) ∧
    (b.fenced srcHostEngine = false → ∀ r < 33, (b.ringOf r).withheld = true → let vec := bits (b.force (ringOff r 8)) 26 22
      vec ∉ b.host.msiMasked → .msi vec ∈ w.out))) ∧
  (∀ (s : State) (t k : Nat), let b := s.before t; let g := b.seg k
  (let at_ := b.mtBack (b.applyGran k); let n := cycOf at_; let m := granOf at_ / b.segL k
   let again := g.cur.opened = true ∧ g.cur.n = n ∧ g.cur.m = m
   (b.segRuns k = true → ¬ again → ∃ w, exec (.reportClose t k) s = .next (ends s t w) ∧
     (w.seg k).cur.n = n ∧ (w.seg k).cur.m = m ∧ (w.seg k).cur.opened = true ∧
     (w.noJobs k = false → ∀ a ∈ w.segAxes k, a ∉ (w.twSeg k).lost → ∃ j ∈ w.pool.jobs, j.key = .axis a ∧ j.n = n ∧ j.m = m ∧ j.seg = k ∧
       j.ready = true ∧ j.deadline = w.deadline k)) ∧
   (b.segRuns k = true → again → exec (.reportClose t k) s = .next (ends s t b))) ∧
  (b.segRuns k = false → exec (.reportClose t k) s = .next (ends s t b) ∧ exec (.pourPoint t k) s = .next (ends s t b)) ∧
  (let at_ := b.mtBack (b.segPP k); let n := cycOf at_; let m := granOf at_ / b.segL k
   let broken := b.fenced (srcMould k); let bank := if broken then (b.bank k n m).unreleased (b.segAxes k) else b.bank k n m
   let absent := if bank.estop = true ∨ b.holding = true then [] else (b.segAxes k).filter fun a => !bank.holds a
   (b.segRuns k = true → bank.opened = true → bank.poured = false → ∃ w, exec (.pourPoint t k) s = .next (ends s t w) ∧
     (w.bank k n m).poured = true ∧ (w.seg k).holds = (g.holds + absent.length) % 2 ^ 32 ∧
     ((broken = true ∧ b.fenced srcWatchdog = true ∧ ∃ a ∈ b.segAxes k, bank.holds a = false) ∨
       (w.seg k).train = (b.netAxes k).map (fun a => (a, b.pourRecord a bank))) ∧
     (broken = false → b.following = false → ∀ j, j ≠ k → w.seg j = b.seg j) ∧
     ∀ a e, a ∈ b.segAxes k → a < 512 → bank.entries.lookup a = some e → e.held = false → e.cmd.isEmpty = false → bank.estop = false →
       (w.axis a).lastTq = fldS e.tel 24 2) ∧
   (bank.opened = false ∨ bank.poured = true → exec (.pourPoint t k) s = .next (ends s t b))))

/-! ## Machine time (10) -/

/-- The servo of a domain takes Syncs (10 R437 to R440): a Sync of a domain that is off, has no asCapable or has an interval out
of range changes nothing, nor does one before an Announce, or with the time unit fenced. Any other gives LAST_E. It begins acquisition
out of LISTEN, HOLDOVER and LOST. In ACQUIRE and LOCKED a sample within STEP_NS steers the domain, its rate and frequency term within
RATE_LIM, and the eighth good sample in a row locks it. One beyond STEP_NS steps it, with a mark where it is LOCKED.
Domains are lost and found, and peer delay is measured (10 R440, R449): an Announce names the grandmaster, and another one restarts
acquisition. A receipt timeout takes ACQUIRE and LOCKED to HOLDOVER with its mark, and HOLD_S later the domain is LOST. A port with
its link up asks once in its interval and answers requests of its domain, takes its delay and rate ratio, and without asCapable or its
link the domain is lost.
Corners of the servo are log 64. A row whose condition does not hold changes nothing but the time (the choice of log 40). -/
def Obligations.DomainsAreSteeredHeldAndLost : Prop :=
  (∀ (s : State) (t k rawI origin : Nat) (corr cum log : Int), let b := s.before t; let d := b.dom k
  let e := toS 64 (toU 64 (b.syncTime k origin corr - (d.at rawI : Int)))
  let idle := b.fenced srcTimeUnit = true ∨ d.st = .off ∨ d.capable = false ∨ log < -7 ∨ 0 < log ∨ (d.st = .listen ∧ d.announced = false)
  let within (w : State) : Prop := -b.rateLim ≤ (w.dom k).rate ∧ (w.dom k).rate ≤ b.rateLim ∧
    -b.rateLim ≤ (w.dom k).freq ∧ (w.dom k).freq ≤ b.rateLim
  (idle → exec (.gptpSyncReceived t k rawI origin corr cum log) s = .next (ends s t b)) ∧
  (¬ idle → ∃ w, exec (.gptpSyncReceived t k rawI origin corr cum log) s = .next (ends s t w) ∧
    (w.dom k).lastE = satW 16 e ∧ (w.dom k).lastRaw = rawI ∧ (w.dom k).syncLog = log ∧ (w.dom k).first = false ∧
    (d.st = .listen ∨ d.st = .holdover ∨ d.st = .lost → (w.dom k).st = .acquire ∧ (w.dom k).good = 0 ∧ within w) ∧
    (d.st = .acquire ∨ d.st = .locked → d.first = true → (w.dom k).st = d.st ∧ (w.dom k).good = 0 ∧ within w) ∧
    (d.st = .acquire ∨ d.st = .locked → d.first = false → (e.natAbs : Int) ≤ b.stepNs →
      let good := if (e.natAbs : Int) ≤ b.lockNs then d.good + 1 else 0
      within w ∧ w.time.ofs = b.time.ofs ∧ ((w.dom k).st = .locked ↔ d.st = .locked ∨ 8 ≤ good) ∧
      (d.st = .locked → (w.dom k).good = good)) ∧
    (d.st = .acquire ∨ d.st = .locked → d.first = false → b.stepNs < (e.natAbs : Int) →
      (w.dom k).st = d.st ∧ (w.dom k).ofs = ofs96 (d.ofs + e * 2 ^ 32) ∧ (w.dom k).rate = d.rate ∧ (w.dom k).good = 0 ∧
      (d.st = .locked → ∃ m l, w.asy.held = b.asy.held ++ m :: l ∧ m.src = srcDom k ∧ m.kind = 0x59)))) ∧
  (∀ (s : State) (t k : Nat), let b := s.before t; let d := b.dom k
  let lost (w : State) : Prop :=
    (d.st = .acquire ∨ d.st = .locked → (w.dom k).st = .holdover ∧ (w.dom k).enteredAt = b.raw ∧
      ∃ m, w.asy.held = b.asy.held ++ [m] ∧ m.src = srcDom k ∧ m.kind = 0x58) ∧
    (d.st ≠ .acquire → d.st ≠ .locked → (w.dom k).st = d.st)
  (∀ gm, b.fenced srcTimeUnit = false → d.st ≠ .off → ∃ w, exec (.announceReceived t k gm) s = .next (ends s t w) ∧
    (w.dom k).gmid = gm ∧ (w.dom k).announced = true ∧
    (d.st = .acquire ∨ d.st = .locked → d.announced = true → d.gmid ≠ gm →
      (w.dom k).st = .acquire ∧ (w.dom k).first = true ∧ (w.dom k).good = 0) ∧
    (d.gmid = gm ∨ d.announced = false ∨ (d.st ≠ .acquire ∧ d.st ≠ .locked) → (w.dom k).st = d.st ∧ (w.dom k).first = d.first)) ∧
  (∀ gm, b.fenced srcTimeUnit = true ∨ d.st = .off → exec (.announceReceived t k gm) s = .next (ends s t b)) ∧
  (b.syncOver k = true → ∃ w, exec (.syncReceiptTimeout t k) s = .next (ends s t w) ∧ lost w) ∧
  (b.syncOver k = false → exec (.syncReceiptTimeout t k) s = .next (ends s t b)) ∧
  (∃ w, exec (.announceReceiptTimeout t k) s = .next (ends s t w) ∧ lost w) ∧
  (d.st = .holdover → b.holdS * 1000000000 ≤ b.raw - d.enteredAt → ∃ w, exec (.holdoverExpiry t k) s = .next (ends s t w) ∧
    (w.dom k).st = .lost) ∧
  (d.st ≠ .holdover → exec (.holdoverExpiry t k) s = .next (ends s t b)) ∧
  (b.domOn k = true → b.plantUp k = true → b.fenced srcTimeUnit = false → b.pdelayDue k = true →
    ∃ w, exec (.pdelayReqInterval t k) s = .next (ends s t w) ∧ .gptp k 0 (b.ptpDomain k) (b.plant k).pdSeq ∈ w.out ∧
      ((b.plant k).sentAt ≠ some b.core → w.out = .gptp k 0 (b.ptpDomain k) (b.plant k).pdSeq :: b.out) ∧
      (w.plant k).pdSeq = ((b.plant k).pdSeq + 1) % 2 ^ 16 ∧ (w.plant k).pdAt = some b.raw ∧
      w = { b with time := w.time, out := w.out }) ∧
  (∀ frame, b.domOn k = true → b.plantUp k = true → b.fenced srcTimeUnit = false → byteAt frame 18 = b.ptpDomain k →
    let seq := 256 * byteAt frame 44 + byteAt frame 45
    ∃ w, exec (.pdelayReqReceived t k frame) s = .next (ends s t w) ∧ w = { b with out := w.out } ∧
      .gptp k 1 (b.ptpDomain k) seq ∈ w.out ∧ .gptp k 2 (b.ptpDomain k) seq ∈ w.out ∧
      ((b.plant k).sentAt ≠ some b.core → w.out = .gptp k 2 (b.ptpDomain k) seq :: .gptp k 1 (b.ptpDomain k) seq :: b.out)) ∧
  (∀ frame, byteAt frame 18 ≠ b.ptpDomain k → exec (.pdelayReqReceived t k frame) s = .next (ends s t b)) ∧
  (∀ mld nrr ok, b.domOn k = true → b.fenced srcTimeUnit = false → ∃ w, exec (.pdelayResponseReceived t k mld nrr ok) s = .next (ends s t w) ∧
    (w.plant k).nrr = nrr ∧ (w.dom k).mld = mld ∧
    (w.dom k).capable = (ok && decide (mld ≤ 16 * bits (b.force (0x0C0100 + 0x20 * k)) 11 0)) ∧
    ((w.dom k).capable = true → (w.dom k).st = d.st) ∧ ((w.dom k).capable = false → lost w)) ∧
  (∀ up, ∃ w, exec (.plantPortLinkChange t k up) s = .next (ends s t w) ∧ (w.plant k).up = up ∧ (up = true → w.dom k = d) ∧
    (up = false → (w.dom k).capable = false ∧ lost w)))

/-! ## Feedback ports (11), step-pulse channels (12), converters (13) -/

/-- Quadrature counting (11 R461, R467 to R471, R496, R497): one line that changes moves the count of a valid port by one, with INV
the other way. Both lines at once count as illegal, and the first is marked. An index takes the count with what its own sample still
counts, unless that sample makes the count invalid, and its entry goes to the capture ring. A line fault makes the count invalid.
The meaning of a direction and the end of WIRE are log 67, events of one sample of 5 ns are found in the queue (log 88). A
row whose condition does not hold changes nothing but the time (the choice of log 40). -/
def Obligations.QuadratureIsCounted : Prop :=
  ∀ (s : State) (t p : Nat), let b := s.before t; let g := b.port p
  (∀ up, b.portMode p = 1 → b.portValid p = true → ∃ w, exec (.quadratureCount t p up) s = .next (ends s t w) ∧
    (w.port p).cnt = (if up = b.portInv p then g.cnt - 1 else g.cnt + 1) ∧ (∀ q, q ≠ p → w.port q = b.port q) ∧
    w = { b with fbp := w.fbp, asy := w.asy }) ∧
  (∀ up, b.portValid p = false → exec (.quadratureCount t p up) s = .next (ends s t b)) ∧
  (b.portMode p = 1 → ∃ w, exec (.illegalTransition t p) s = .next (ends s t w) ∧
    w.port p = { g with illegal := true, illcnt := min 0xFFFF (g.illcnt + 1) } ∧
    (g.illegal = false → ∃ m, w.asy.held = b.asy.held ++ [m] ∧ m.src = srcPort p ∧ m.kind = 0x20)) ∧
  (let z := bits (b.force (fbOff p 0)) 19 18; let cnt := g.cnt + BitVec.ofInt 32 (b.countsNow p)
   (b.portValid p = true → b.spoilsNow p = false → z ≠ 0 → (z = 2 → g.firstTaken = false) → ∃ w, exec (.indexEdge t p) s = .next (ends s t w) ∧
    w.port p = { g with idx := cnt, idxSeen := true, firstTaken := true, seq := (g.seq + 1) % 256 } ∧
    ((b.ringOf 28).on = true → b.room 28 1 = true → b.fenced srcHostEngine = false →
      ∃ mt, .ring 28 (b.ringOf 28).own (indexEntry p (decide (z = 2)) mt cnt g.seq) ∈ w.out)) ∧
   (b.portValid p = false ∨ b.spoilsNow p = true ∨ z = 0 ∨ (z = 2 ∧ g.firstTaken = true) → exec (.indexEdge t p) s = .next (ends s t b))) ∧
  (b.portMode p = 1 → g.wire = false → ∃ w, exec (.fbpWire t p) s = .next (ends s t w) ∧ (w.port p).wire = true ∧ w.portValid p = false ∧
    ∃ m, w.asy.held = b.asy.held ++ [m] ∧ m.src = srcPort p ∧ m.kind = 0x21)

/-- Sine/cosine ports, speed and the divided output (11 R472 to R482): a pair moves the count of a valid port that has a reference by
the step difference of its angle, which becomes the reference, and takes none of an invalid one. The second pair in a row outside the
amplitude window, or an event that says so, makes the count invalid. The end of a window gives its net counts and direction changes,
and the divided output moves one edge toward an empty backlog. The angle of a pair of zeros is a free value (log 7).
The angle between two steps is the free function of log 8, that of (0, 0) the free value of log 7. A row whose condition does
not hold changes nothing but the time (the choice of log 40). -/
def Obligations.SineCosineAndSpeedAreMeasured : Prop :=
  ∀ (s : State) (t p : Nat), let b := s.before t; let g := b.port p
  (∀ sin cos, b.portMode p = 2 → let pass := ampOk (b.force (fbOff p 8)) sin cos
    let fails := if pass then 0 else min 2 (g.ampFails + 1); let valid := b.portValid p
    ∃ w, exec (.sincosSample t p sin cos) s = .next (ends s t w) ∧ (w.port p).ampFails = fails ∧ (∀ q, q ≠ p → w.port q = b.port q) ∧
      (∀ k, valid = true → g.angle = some k → (sin ≠ 0 ∨ cos ≠ 0) → let d := stepDiff (angleOf sin cos) k
        (w.port p).cnt = g.cnt + BitVec.ofInt 32 (if b.portInv p then -d else d) ∧ (384 < d.natAbs → (w.port p).overspeed = true)) ∧
      (valid = false ∨ g.angle = none → (w.port p).cnt = g.cnt) ∧
      (fails = 2 → g.ampl = false → (w.port p).ampl = true ∧ (w.port p).angle = none ∧ w.portValid p = false ∧
        ∃ m ∈ w.asy.held.drop b.asy.held.length, m.src = srcPort p ∧ m.kind = 0x23) ∧
      (fails ≠ 2 → g.ampl = false → (sin ≠ 0 ∨ cos ≠ 0) → g.angle ≠ none ∨ pass = true → (w.port p).angle = some (angleOf sin cos)) ∧
      (fails ≠ 2 → g.ampl = false → g.angle ≠ none ∨ pass = true → (w.port p).angle ≠ none)) ∧
  (b.portMode p = 2 → g.ampl = false → ∃ w, exec (.fbpAmpl t p) s = .next (ends s t w) ∧ (w.port p).ampl = true ∧ (w.port p).angle = none ∧
    w.portValid p = false ∧ ∃ m, w.asy.held = b.asy.held ++ [m] ∧ m.src = srcPort p ∧ m.kind = 0x23) ∧
  (b.portMode p = 2 → g.overspeed = false → ∃ w, exec (.fbpOverspeed t p) s = .next (ends s t w) ∧
    w.port p = { g with overspeed := true } ∧ ∃ m, w.asy.held = b.asy.held ++ [m] ∧ m.src = srcPort p ∧ m.kind = 0x22) ∧
  (b.portMode p ≠ 2 → exec (.fbpOverspeed t p) s = .next (ends s t b) ∧ exec (.fbpAmpl t p) s = .next (ends s t b) ∧
    ∀ sin cos, exec (.sincosSample t p sin cos) s = .next (ends s t b)) ∧
  (b.portMode p ≠ 0 → b.windowDue p = true → let x := b.countedBefore p; let good := b.portValid p && !g.invalidIn
    let net := if good then (x.1 - g.winStart).toInt else 0
    ∃ w, exec (.speedWindowEnd t p) s = .next (ends s t w) ∧ (w.port p).winStart = x.1 ∧ (w.port p).net = net ∧
      (w.port p).spd = satW 32 (roundDiv (net * 2 ^ 20) (b.speedWin p)) ∧ (w.port p).dirchg = (good && x.2.1 && x.2.2) ∧
      (w.port p).invalidIn = !b.portValid p ∧ (w.port p).cnt = g.cnt ∧ w = { b with fbp := w.fbp }) ∧
  (b.portMode p = 0 ∨ b.windowDue p = false → exec (.speedWindowEnd t p) s = .next (ends s t b)) ∧
  (bit (b.force (fbOff p 0x10)) 31 = true → b.portValid p = true → g.backlog ≠ 0 →
    g.edgeAt + 20 * max 2 (bits (b.force (fbOff p 0x10)) 3 0) ≤ b.now → ∃ w, exec (.dividedOutputEdge t p) s = .next (ends s t w) ∧
      (w.port p).backlog.natAbs + 1 = g.backlog.natAbs ∧ (w.port p).edgeAt = b.now ∧ w.out = .divided p (w.port p).outState :: b.out) ∧
  (g.backlog = 0 → exec (.dividedOutputEdge t p) s = .next (ends s t b))

/-- Latch inputs (11 R488 to R494, R501): a selected edge outside the dead time is an event with the time of its sample, one within it
is skipped and counted, one that is not selected only changes the level, and the oldest event is posted with its position once that is
settled, after those of lower inputs with the same time.
Encoder supplies (11 R484 to R487): an overload switches its supply off with its flag, the total overload the supply of the
highest number, 1 ms after the last at the earliest, a supply restarts 100 ms later once its flag is cleared, and settles SUP_SETTLE
after it came on.
Which samples are kept is log 68. A row whose condition does not hold changes nothing but the time (the choice of log 40). -/
def Obligations.LatchesRecordAndSuppliesSwitch : Prop :=
  (∀ (s : State) (t n : Nat), let b := s.before t; let l := b.latch n; let cfg := b.force (latOff n 0)
  (b.up = true → bit cfg 31 = true → ∃ w, exec (.latchEdge t n) s = .next (ends s t w) ∧ w = { b with lat := w.lat } ∧
    (w.latch n).high = !l.high ∧ (∀ i, i ≠ n → w.latch i = b.latch i) ∧
    (edgeSelected (bits cfg 29 28) (!l.high) = false → w.latch n = { l with high := !l.high }) ∧
    (edgeSelected (bits cfg 29 28) (!l.high) = true → l.deadUntil ≤ b.now →
      (w.latch n).events = (l.events + 1) % 2 ^ 16 ∧ (w.latch n).queue = l.queue ++ [⟨b.mt, l.high, l.skipSeen⟩] ∧
      (w.latch n).deadUntil = b.now + 400 * max 2 (bits cfg 17 10)) ∧
    (edgeSelected (bits cfg 29 28) (!l.high) = true → b.now < l.deadUntil →
      (w.latch n).queue = l.queue ∧ (w.latch n).skipped = (l.skipped + 1) % 2 ^ 16 ∧ (w.latch n).skipSeen = true)) ∧
  (b.up = false ∨ bit cfg 31 = false → exec (.latchEdge t n) s = .next (ends s t b)) ∧
  (b.latchReady n = none → exec (.latchEntryPost t n) s = .next (ends s t b)) ∧
  (l.queue = [] → b.latchReady n = none) ∧
  (∀ e rest, l.queue = e :: rest → 568 ≤ bits cfg 9 0 → b.latchReady n = some (e, 0, 3)) ∧
  (∀ e rest, l.queue = e :: rest → bits cfg 9 0 < 512 → b.configured (bits cfg 9 0) = true →
    b.latchReady n = (latchPos (SMap.get [] b.samples (bits cfg 9 0)) (toS 32 (b.force (latOff n 4))) e.mt).map fun x => (e, x)) ∧
  (∀ e pos st, b.latchReady n = some (e, pos, st) → ∃ w, exec (.latchEntryPost t n) s = .next (ends s t w) ∧
    (w.latch n).queue = l.queue.tail ∧ (w.latch n).seq = (l.seq + 1) % 256 ∧
    (∀ i < n, (w.latch i).queue = if (b.latchReady i).any (fun x => decide (x.1.mt = e.mt)) then (b.latch i).queue.tail else (b.latch i).queue) ∧
    (∀ i, n < i → w.latch i = b.latch i) ∧
    ((∀ i < n, (b.latchReady i).any (fun x => decide (x.1.mt = e.mt)) = false) → (b.ringOf 28).on = true → b.room 28 1 = true →
      b.fenced srcHostEngine = false →
      .ring 28 (b.ringOf 28).own (latchEntry n e (if 568 ≤ bits cfg 9 0 then 0xFFFF else bits cfg 9 0) pos st l.seq) ∈ w.out))) ∧
  (∀ (s : State) (t p : Nat), let b := s.before t; let g := b.port p
  let off (w : State) (p : Nat) : Prop := (w.port p).supOn = false ∧ (w.port p).supOvl = true ∧ (w.port p).offAt = b.now ∧
    w.out = .supply p false :: b.out ∧ ∃ m, w.asy.held = b.asy.held ++ [m] ∧ m.src = srcPort p ∧ m.kind = 0x25
  (g.supOn = true → ∃ w, exec (.encSupplyOvl t p) s = .next (ends s t w) ∧ off w p) ∧
  (g.supOn = false → exec (.encSupplyOvl t p) s = .next (ends s t b)) ∧
  (p < 8 → g.supOn = true → (∀ q, p < q → q < 8 → (b.port q).supOn = false) → (∀ x, b.pw.supTotalAt = some x → x + 4000000 ≤ b.now) →
    ∃ w, exec (.encSupplyTotalOvl t) s = .next (ends s t w) ∧ off w p ∧ (∀ q, q ≠ p → w.port q = b.port q) ∧ w.pw.supTotalAt = some b.now) ∧
  ((∀ q, q < 8 → (b.port q).supOn = false) ∨ (∃ x, b.pw.supTotalAt = some x ∧ b.now < x + 4000000) →
    exec (.encSupplyTotalOvl t) s = .next (ends s t b)) ∧
  (b.portSup p = true → g.supOn = false → g.supOvl = false → g.offAt + 400000000 ≤ b.now → ∃ w, exec (.encSupplyRestart t p) s =
    .next (ends s t w) ∧ (w.port p).supOn = true ∧ (w.port p).onAt = b.now ∧ w.out = .supply p true :: b.out) ∧
  (b.now < g.offAt + 400000000 → exec (.encSupplyRestart t p) s = .next (ends s t b)) ∧
  (g.supOn = true → g.onAt + bits (b.force (fbOff p 0)) 11 8 * 40000000 ≤ b.now → ∃ w, exec (.encSupplySettled t p) s = .next (ends s t w) ∧
    w.port p = { g with settled := true } ∧ w = { b with fbp := w.fbp }))

/-- Step pulses (12 R502 to R516): a carry emits one step the way the channel moves, or one edge of a quadrature pair, once in its
clock. The start of a segment cycle takes the carry of its clock, keeps the last two counts and computes the landing of a closed channel
on its target, unless a HALT of the same clock discards it. With open loops no step follows, HALT stops the pulses and takes the
emitted count as the position, and a parity error fences the channel, which a running axis then drives by its velocity.
Carries and the drivers of a fenced channel are log 69, events of one sample of 5 ns are found in the queue (log 88). A row
whose condition does not hold changes nothing but the time (the choice of log 40). -/
def Obligations.StepPulsesFollowTheirTarget : Prop :=
  ∀ (s : State) (t c : Nat), let b := s.before t; let v := b.stepCh c; let cfg := b.force (pulOff c 0)
  let e := if v.carryDue b.now then v.stepped else v.e; let up := decide (v.down = bit cfg 29)
  let atStart (w : State) : Prop := (w.stepCh c).e = e ∧ (w.stepCh c).e0 = e ∧ (w.stepCh c).e1 = v.e0 ∧ ∀ k, k ≠ c → w.stepCh k = b.stepCh k
  (v.carryDue b.now = true → ∃ w, exec (.rateMultiplierCarry t c) s = .next (ends s t w) ∧
    w.stepCh c = { v with e := v.stepped, carriedAt := fbClock b.now + 1, ab := (v.ab + (if up then 1 else 3)) % 4 } ∧
    w.out = (if bits cfg 31 30 = 2 then .quad c ((v.ab + (if up then 1 else 3)) % 4)
      else .step c up (fbClock b.now + 1) (bits cfg 15 8) (bit cfg 28)) :: b.out ∧
    ((w.stepCh c).carryDue b.now = false) ∧ ∀ k, k ≠ c → w.stepCh k = b.stepCh k) ∧
  (v.carryDue b.now = false → exec (.rateMultiplierCarry t c) s = .next (ends s t b)) ∧
  (-(2 ^ 63) < v.e → v.e < 2 ^ 63 - 1 → v.stepped = if v.down then v.e - 1 else v.e + 1) ∧
  (bits cfg 31 30 ≠ 0 → b.boundaryDue c = true → ∃ w, exec (.stepBoundary t c) s = .next (ends s t w) ∧ atStart w ∧
    (w.stepCh c).boundAt = fbClock b.now + 1 ∧
    (b.following = true → (w.stepCh c).w = 0 ∧ (w.stepCh c).acc = 0 ∧ (w.stepCh c).driversOff = true) ∧
    (b.following = false → b.haltsNow c = true → b.fenced (srcStep c) = false → (w.stepCh c).w = v.w ∧ (w.stepCh c).acc = v.acc) ∧
    (b.following = false → b.haltsNow c = false ∨ b.fenced (srcStep c) = true → b.stepOpen (512 + c) = true → (w.stepCh c).w = 0) ∧
    (b.following = false → b.stepOpen (512 + c) = false → b.fenced (srcStep c) = true → let vs := b.vStar (512 + c)
      (w.stepCh c).w = min (roundDiv (vs.natAbs * 2 ^ 32) (clocksOf (b.segL (bits cfg 2 0)))).toNat (wMax cfg) ∧
      (vs < 0 → (w.stepCh c).down = true) ∧ (0 < vs → (w.stepCh c).down = false) ∧ (w.stepCh c).driversOff = decide (vs = 0)) ∧
    (∀ x, b.following = false → b.haltsNow c = false → b.stepOpen (512 + c) = false → b.fenced (srcStep c) = false → v.target = some x →
      let z := StepCh.land { v with e := e } cfg (clocksOf (b.segL (bits cfg 2 0))) x b.now
      (w.stepCh c).w = z.w ∧ (w.stepCh c).acc = z.acc ∧ (w.stepCh c).accAt = z.accAt ∧ (w.stepCh c).rateLim = z.rateLim ∧
      (w.stepCh c).w ≤ wMax cfg ∧ (e < x → (w.stepCh c).down = false) ∧ (x < e → (w.stepCh c).down = true) ∧
      (x = e → (w.stepCh c).down = v.down))) ∧
  (bits cfg 31 30 = 0 ∨ b.boundaryDue c = false → exec (.stepBoundary t c) s = .next (ends s t b)) ∧
  (bits cfg 31 30 = 0 ∨ b.fenced (srcStep c) = true → exec (.pulHalt t c) s = .next (ends s t b)) ∧
  (bits cfg 31 30 ≠ 0 → b.fenced (srcStep c) = false → ∃ w, exec (.pulHalt t c) s = .next (ends s t w) ∧ (w.stepCh c).w = 0 ∧
    (w.stepCh c).e = e ∧ (w.stepCh c).target = some e ∧ (w.axis (512 + c)).mo.p = e * 2 ^ 48 ∧ (w.axis (512 + c)).mo.v = 0 ∧
    (v.w ≠ 0 → (w.stepCh c).halted = true)) ∧
  (b.fenced (srcStep c) = false → ∃ w, exec (.pulParity t c) s = .next (ends s t w) ∧ (w.stepCh c).parity = true ∧
    (b.haltsNow c = false → (w.stepCh c).e = v.e) ∧
    w.fenced (srcStep c) = true ∧ ∃ m ∈ w.asy.held.drop b.asy.held.length, m.src = srcStep c ∧ m.kind = 0x28)

/-- Conversions (13 R522 to R532): a trigger at its granule starts a sequence that is not busy on the set in force, and a trigger during
a sequence is ignored. A conversion whose slots are over writes the result word of its entry, with the channel, the sequence and the
code, a code out of range sets its flag and is limited, a reference that is not ready gives code 0, the result goes to the newest
value of its channel and to the ring of the converter's setting, and the next entry follows, or the sequence ends.
The first sequence number is log 9, the order of a full ring log 70. A row whose condition does not hold changes nothing but
the time (the choice of log 40). -/
def Obligations.ConversionsGiveTheirResults : Prop :=
  ∀ (s : State) (t c : Nat), let b := s.before t; let v := b.conv c; let ctl := b.force (adcOff c 0)
  (b.up = true → b.trigDue ctl = true → v.busy = false → ∃ w, exec (.adcSequenceStart t c) s = .next (ends s t w) ∧
    (w.conv c).busy = true ∧ (w.conv c).entry = 0 ∧ (w.conv c).ctl = ctl ∧ (w.conv c).slotReady = b.an.ready ∧ (w.conv c).slotAt = b.now ∧
    (w.conv c).seq = (if v.started then (v.seq + 1) % 16 else v.seq) ∧ w = { b with adc := w.adc }) ∧
  (v.busy = true ∨ b.trigDue ctl = false → exec (.adcSequenceStart t c) s = .next (ends s t b)) ∧
  (v.busy = false ∨ b.slotOver c = false → ∀ code, exec (.adcConversionComplete t c code) s = .next (ends s t b)) ∧
  (∀ code, b.up = true → v.busy = true → b.slotOver c = true → let chan := bits (SMap.get seqReset v.seqs v.entry) 12 8
    let past := v.slotReady && decide (code < -32768 ∨ 32767 < code)
    let word := resultWord past (!v.slotReady) v.entry chan v.seq (if v.slotReady then clampI code (-32768) 32767 else 0)
    let stamp := toU 32 ((b.mt : Int) - 250)
    ∃ w, exec (.adcConversionComplete t c code) s = .next (ends s t w) ∧ SMap.get 0 (w.conv c).res v.entry = word ∧
      (v.entry + 1 < bits v.ctl 21 16 → (w.conv c).busy = true ∧ (w.conv c).entry = v.entry + 1) ∧
      (bits v.ctl 21 16 ≤ v.entry + 1 → (w.conv c).busy = false ∧ (w.conv c).entry = 0) ∧
      (c = 0 ∨ SMap.get (0, 0) b.an.lastBy chan ≠ (b.now / 50 + 1, 0) → SMap.get 0 w.an.last chan = word) ∧
      (past = true → chan ∈ w.an.ovr) ∧
      (bit v.ctl 26 = true → bit v.ctl 25 = false → v.ringBad = false → v.lenPend = false → v.fill < v.len →
        SMap.get (0, 0) (w.conv c).buf v.wp = (word, stamp) ∧ (w.conv c).fill = v.fill + 1 ∧ (w.conv c).wp = (v.wp + 1) % v.len) ∧
      ((b.ringOf (26 + c)).on = true → b.room (26 + c) 1 = true → bit v.ctl 26 = true → bit v.ctl 25 = true → b.fenced srcHostEngine = false →
        .ring (26 + c) (b.ringOf (26 + c)).own (leBytes 4 word ++ leBytes 4 stamp) ∈ w.out))

/-! ## The safety island (17) -/

/-- Inputs and their test pulses (17 R674 to R677, R699, R715): a powered channel takes a new level of an input after as many samples of
it as the filter counts, and notes the core clock of the change; while the pulse of the input's source runs and for 100 µs after it the
samples count for nothing but the test. A tested input of a used pair that never read low under a pulse puts its pair to FAULT. A channel
whose supply is good powers up OFF with the outputs as they are, and with the stored parameter set unless one is loaded.
That pairs, outputs and connections are held once, and that the channels have no clocks of their own, is log 71. A row whose
condition does not hold changes nothing but the time (the choice of log 40). -/
def Obligations.SafetyInputsAreFilteredAndTested : Prop :=
  ∀ (s : State) (t : Nat) (chB : Bool), let b := s.before t; let c := b.ch chB;
  (∀ levels, c.powered = false → exec (.safetyInputSample t chB levels) s = .next (ends s t b)) ∧
  (∀ levels, c.powered = true → ∃ w, exec (.safetyInputSample t chB levels) s = .next (ends s t w) ∧
    w = b.modCh chB (fun _ => { c with inputs := (w.ch chB).inputs }) ∧ ∀ i, i < 16 →
      let f := SMap.get {} c.inputs i; let f' := SMap.get {} (w.ch chB).inputs i
      let since := (b.testSource i).bind fun tp => c.sincePulse tp b.raw
      let covered := since.any fun d => decide (d ≤ b.testW + 100000);
      (covered = true → f' = { f with lowSeen := f.lowSeen ||
        ((since.any fun d => decide (150000 ≤ d ∧ d ≤ b.testW)) && !bit levels i) }) ∧
      (covered = false → bit levels i = f.level → f' = { f with count := 0 }) ∧
      (covered = false → bit levels i ≠ f.level → b.filtLen i ≤ f.count + 1 →
        f' = { f with level := bit levels i, count := 0, movedAt := some b.core }) ∧
      (covered = false → bit levels i ≠ f.level → f.count + 1 < b.filtLen i → f' = { f with count := f.count + 1 })) ∧
  (∀ tp, let x := SMap.get (0, false) c.pulses tp
    let elapsed := (c.sincePulse tp b.raw).any fun d => decide (b.testW ≤ d);
    (x.2 = false ∨ elapsed = false → exec (.testPulseEnd t chB tp) s = .next (ends s t b)) ∧
    (x.2 = true → elapsed = true → ∃ w, exec (.testPulseEnd t chB tp) s = .next (ends s t w) ∧
      SMap.get (0, false) (w.ch chB).pulses tp = (x.1, false) ∧ w.saf.outs = b.saf.outs ∧ w.ch (!chB) = b.ch (!chB) ∧
      ∀ i, i < 16 →
        let f := SMap.get {} c.inputs i; let f' := SMap.get {} (w.ch chB).inputs i;
        (b.testSource i = some tp → b.pairUsed (i / 2) = true → f' = { f with testBad := !f.lowSeen, lowSeen := false } ∧
          (f.lowSeen = false → (w.safPair (i / 2)).st = .fault ∧
            ∃ m ∈ w.asy.held.drop b.asy.held.length, m.src = srcSaf chB ∧ m.kind = 0xC2)) ∧
        (b.testSource i ≠ some tp ∨ b.pairUsed (i / 2) = false → f' = f))) ∧
  (let railOk := b.pw.railsGood.contains (if chB then .vsb else .vsa);
    (c.powered = true ∨ b.pw.vsuv = true ∨ railOk = false → exec (.safetyChannelPowerUp t chB) s = .next (ends s t b)) ∧
    (c.powered = false → b.pw.vsuv = false → railOk = true → ∃ w, exec (.safetyChannelPowerUp t chB) s = .next (ends s t w) ∧
      w.ch chB = { linkDown := c.linkDown, powered := true } ∧ w.ch (!chB) = b.ch (!chB) ∧ w.saf.outs = b.saf.outs ∧
      w.pw.domains.contains (1 + b2n chB) = true ∧
      (b.saf.loaded.isSome = true → w.saf.sps = b.saf.sps) ∧
      (∀ x, b.saf.loaded = none → b.nvFenced = false → b.nv.spsStored = some x → w.saf.sps = some x.1 ∧ w.saf.checkForce = x.2) ∧
      (b.nvFenced = true ∨ b.nv.spsStored = none → w.saf.sps = b.saf.sps ∧
        ∃ m, w.asy.held = b.asy.held ++ [m] ∧ m.src = srcSaf chB ∧ m.kind = 0xCE)))

/-- The comparison of results (17 R667): a channel in RUN whose results are compared with those of the other, in RUN too, and differ
enters LOCKOUT with cause MISMATCH (1), one whose peer's snapshot or results have not arrived by their time with cause
PEER_SILENT (2). -/
def Obligations.AMismatchOrASilentPeerLocksOut : Prop :=
  ∀ (s : State) (t : Nat) (chB : Bool), let b := s.before t; let c := b.ch chB
  c.st = .run →
  ((b.ch (!chB)).st = .run → c.gotRes = false →
    ∃ w, exec (.resultCompare t chB false) s = .next (ends s t w) ∧ (w.ch chB).st = .lockout ∧ w.saf.cause = 1) ∧
  ((c.gotSnap = false ∧ b.saf.tickRaw + 100000 ≤ b.raw) ∨ (c.gotRes = false ∧ b.saf.tickRaw + 350000 ≤ b.raw) →
    ∃ w, exec (.peerSilent t chB) s = .next (ends s t w) ∧ (w.ch chB).st = .lockout ∧ w.saf.cause = 2)

/-- LOCKOUT (17 R663, R667, R669, R670): a channel in RUN whose results differ, whose peer is silent past its time or that hears no tick
enters LOCKOUT with its cause and its mark, and every output goes off and is wanted no longer; equal results are noted, and a channel not
in RUN compares nothing. A failed self-test locks a powered channel out of any other state.
That pairs, outputs and connections are held once is log 71. A row whose condition does not hold changes nothing but the time
(the choice of log 40). -/
def Obligations.ChannelsLockOut : Prop :=
  ∀ (s : State) (t : Nat) (chB : Bool), let b := s.before t; let c := b.ch chB
  let out (w : State) (cause : Nat) : Prop := (w.ch chB).st = .lockout ∧ w.saf.cause = cause ∧
    (∀ k, k < 8 → (w.safOut k).on = false ∧ (w.safOut k).want = false) ∧ (∀ k, (w.safOut k).locked = (b.safOut k).locked) ∧
    (w.ch (!chB)).st = (b.ch (!chB)).st ∧ ∃ m n, w.asy.held = b.asy.held ++ [m, n] ∧ m.src = srcSaf chB ∧ m.kind = 0xC0 ∧
      n.src = srcSaf chB ∧ n.kind = 0xC1
  let compares := c.st = .run ∧ (b.ch (!chB)).st = .run ∧ c.gotRes = false
  let late := (c.gotSnap = false ∧ b.saf.tickRaw + 100000 ≤ b.raw) ∨ (c.gotRes = false ∧ b.saf.tickRaw + 350000 ≤ b.raw)
  let noTick := c.lastTick = none ∨ (∃ r, c.lastTick = some r ∧ r + 600000 ≤ b.raw) ∨ 2 ≤ c.discards;
  (compares → exec (.resultCompare t chB true) s = .next (ends s t (b.modCh chB fun c => { c with gotRes := true }))) ∧
  (compares → ∃ w, exec (.resultCompare t chB false) s = .next (ends s t w) ∧ out w 1) ∧
  (∀ same, ¬ compares → exec (.resultCompare t chB same) s = .next (ends s t b)) ∧
  (c.st = .run → late → ∃ w, exec (.peerSilent t chB) s = .next (ends s t w) ∧ out w 2) ∧
  (c.st ≠ .run ∨ ¬ late → exec (.peerSilent t chB) s = .next (ends s t b)) ∧
  (c.st = .run → noTick → ∃ w, exec (.tickTimeout t chB) s = .next (ends s t w) ∧ out w 3 ∧ (w.ch chB).tickOk = false) ∧
  (c.st ≠ .run → noTick → exec (.tickTimeout t chB) s = .next (ends s t (b.modCh chB fun c => { c with tickOk := false }))) ∧
  (¬ noTick → exec (.tickTimeout t chB) s = .next (ends s t b)) ∧
  (c.powered = true → c.st ≠ .lockout → ∃ w, exec (.selftestFail t chB) s = .next (ends s t w) ∧ out w 4 ∧ (w.ch chB).selftest = true) ∧
  (c.powered = true → c.st = .lockout →
    exec (.selftestFail t chB) s = .next (ends s t (b.modCh chB fun c => { c with selftest := true }))) ∧
  (c.powered = false → exec (.selftestFail t chB) s = .next (ends s t b))

/-- The safety cycle (17 R663, R665, R666, R685, R687, R691, R715): the spine sends a tick at its time, and each channel that hears it
measures it. A tick that a channel accepts opens a cycle whose number of results is one more, and that channel takes its snapshot; the
results of the cycle that ends are applied to the outputs: an output is on after it as it was wanted, not LOCKED and with both channels in
RUN where both accept the tick, and one that a channel discards switches no output on. In RESET and BOOT, and away from its time, no tick is
sent. The evaluation of the snapshot happens once, and wants an output only if it is not LOCKED and no used function that names it is in
DEMAND. A delay of STOP1 that expires takes its function to DEMAND, and its outputs are wanted no longer.
That pairs, outputs and connections are held once is log 71, the first tick log 24. A row whose condition does not hold
changes nothing but the time (the choice of log 40). -/
def Obligations.TheSafetyCycleSwitchesOutputs : Prop :=
  ∀ (s : State) (t : Nat), let b := s.before t;
  (∀ fa fb la lb ha hb, b.up = false ∨ b.tickDue = false → exec (.safetyTick t fa fb la lb ha hb) s = .next (ends s t b)) ∧
  (∀ fa fb la lb ha hb, b.up = true → b.tickDue = true →
    let ok (x : Bool) : Bool := (b.ch x).hears && (b.ch x).tickFits b.raw
    ∃ w, exec (.safetyTick t fa fb la lb ha hb) s = .next (ends s t w) ∧ .tick b.mt ∈ w.out ∧ w.saf.sentRaw = b.raw ∧
      (∀ x, ((b.ch x).hears = true → (w.ch x).lastTick = some b.raw ∧ (w.ch x).tickOk = ok x) ∧
        ((b.ch x).hears = false → (w.ch x).lastTick = (b.ch x).lastTick) ∧
        ((b.ch x).hears = true → ok x = false → 1 ≤ (b.ch x).discards → (b.ch x).st = .run → (w.ch x).st = .lockout) ∧
        (ok x = true → (w.ch x).snap = (b.ch x).levels b.core ∧ (w.ch x).prevSnap = (b.ch x).snap ∧
          (w.ch x).snapFb = (if x then fb else fa) ∧ (w.ch x).gotSnap = false ∧ (w.ch x).gotRes = false ∧
          ((b.ch x).st = .off → b.saf.sps.isSome = true → 1 ≤ (b.ch x).ticks → (b.ch x).selftest = false → (w.ch x).st = .run))) ∧
      (ok false = true ∨ ok true = true → w.saf.tickRaw = b.raw ∧ w.saf.tickMt = b.mt ∧ w.saf.prevMt = b.saf.tickMt ∧
        w.saf.cycles = (b.saf.cycles + 1) % 2 ^ 16 ∧ w.saf.evaluated = false) ∧
      (ok false = true → ok true = true → ∀ k, k < 8 →
        (w.safOut k).on = ((b.safOut k).want && !(b.safOut k).locked && b.safRun)) ∧
      (ok false = false ∨ ok true = false → ∀ k, (w.safOut k).on = true → (b.safOut k).on = true) ∧
      (ok false = false → ok true = false → w.saf.tickRaw = b.saf.tickRaw ∧ w.saf.cycles = b.saf.cycles)) ∧
  (∀ chB, (b.ch chB).st ≠ .run ∨ (b.ch (!chB)).st = .off ∨ (b.ch chB).gotSnap = true →
    exec (.peerSnapshot t chB) s = .next (ends s t b)) ∧
  (∀ chB, (b.ch chB).st = .run → (b.ch (!chB)).st ≠ .off → (b.ch chB).gotSnap = false →
    ∃ w, exec (.peerSnapshot t chB) s = .next (ends s t w) ∧ w.saf.evaluated = true ∧ (w.ch chB).gotSnap = true ∧
      w.ch (!chB) = b.ch (!chB) ∧
      (b.saf.evaluated = true → w = { b.modCh chB fun c => { c with gotSnap := true } with asy := w.asy }) ∧
      (b.saf.evaluated = false → ∀ k, k < 8 → w.outUsed k = true → (w.safOut k).want = true → (w.safOut k).locked = false ∧
        ∀ f, f < 16 → w.fnUsed f = true → bit (w.fnByte f 2) k = true → (w.safFn f).st ≠ .demand)) ∧
  (∀ fn, let x := b.safFn fn;
    (x.st = .delay → x.left ≤ 1 → b.saf.evaluated = false → ∃ w, exec (.stop1DelayExpiry t fn) s = .next (ends s t w) ∧
      w.safFn fn = { x with st := .demand, left := 0, expired := true } ∧
      (∀ k, k < 8 → bit (b.fnByte fn 2) k = true → (w.safOut k).want = false) ∧ ∀ k, (w.safOut k).on = (b.safOut k).on) ∧
    (x.st ≠ .delay ∨ 1 < x.left ∨ b.saf.evaluated = true → exec (.stop1DelayExpiry t fn) s = .next (ends s t b)))

/-- Outputs and pairs are watched (17 R679, R688, R689, R690, R693): a readback that is wrong when its time has come, under its own test
pulse too, a current or a contact that is wrong makes an output LOCKED, which switches it off at once, and a pair that disagrees for longer
than T_DISC goes to FAULT; each leaves every other output alone, and each channel in RUN raises the mark.
That pairs, outputs and connections are held once is log 71. A row whose condition does not hold changes nothing but the time
(the choice of log 40). -/
def Obligations.OutputsAndPairsAreWatched : Prop :=
  ∀ (s : State) (t k : Nat), let b := s.before t; let o := b.safOut k
  let lock (w : State) (kind : Nat) : Prop := (w.safOut k).locked = true ∧ (w.safOut k).on = false ∧ (w.safOut k).want = false ∧
    (∀ j, j ≠ k → w.safOut j = b.safOut j) ∧ w = { b with out := w.out, saf := w.saf, asy := w.asy } ∧
    ∀ x, (b.ch x).st = .run → ∃ m ∈ w.asy.held.drop b.asy.held.length, m.src = srcSaf x ∧ m.kind = kind
  let pulsing := o.testing && decide (b.raw < b.saf.tickRaw + 300000)
  let due := o.changedAt + 1000000 * (if o.on then bits (b.outWord k) 29 20 else bits (b.outWord k) 19 10) ≤ b.raw;
  (∀ mvA mvB mvS, let bad :=
      (o.on = false ∧ 20000000 < b.raw - o.changedAt ∧ (5000 ≤ mvA ∨ 5000 ≤ mvB)) ∨
      (o.on = true ∧ pulsing = false ∧ 2000000 < b.raw - o.changedAt ∧ (mvA ≤ mvS - 3000 ∨ mvB ≤ mvS - 3000)) ∨
      (o.on = true ∧ pulsing = true ∧ 250000 ≤ b.raw - b.saf.tickRaw ∧ (5000 ≤ mvA ∨ 5000 ≤ mvB));
    (bad → b.outUsed k = true → o.locked = false →
      ∃ w, exec (.outputReadbackCheck t k mvA mvB mvS) s = .next (ends s t w) ∧ lock w 0xC5) ∧
    (¬ bad ∨ b.outUsed k = false ∨ o.locked = true → exec (.outputReadbackCheck t k mvA mvB mvS) s = .next (ends s t b))) ∧
  (o.on = true → ∃ w, exec (.safOverload t k) s = .next (ends s t w) ∧ lock w 0xC6 ∧ (w.safOut k).ovl = true) ∧
  (o.on = false → exec (.safOverload t k) s = .next (ends s t b)) ∧
  (bit (b.outWord k) 30 = true → o.locked = false → due → ∃ w, exec (.feedbackTimeout t k) s = .next (ends s t w) ∧ lock w 0xC7) ∧
  (bit (b.outWord k) 30 = false ∨ o.locked = true ∨ ¬ due → exec (.feedbackTimeout t k) s = .next (ends s t b)) ∧
  (∀ p f, (b.safPair p).discSince = some f → (b.safPair p).st ≠ .fault → b.tDisc p < b.saf.tickRaw - f →
    ∃ w, exec (.safDiscrepancy t p) s = .next (ends s t w) ∧ (w.safPair p).st = .fault ∧ w.saf.outs = b.saf.outs ∧
      ∀ x, (b.ch x).st = .run → ∃ m ∈ w.asy.held.drop b.asy.held.length, m.src = srcSaf x ∧ m.kind = 0xC3) ∧
  (∀ p, ((b.safPair p).st = .fault ∨ ∀ f, (b.safPair p).discSince = some f → b.saf.tickRaw - f ≤ b.tDisc p) →
    exec (.safDiscrepancy t p) s = .next (ends s t b))

/-- Safe units (17 R702, R703, R705 to R707, R709): a valid copy of a node's unit goes to its channel; a unit whose second copy passes and
agrees is accepted with its SEQ and MT, a copy that fails its checks or is too far ahead is counted, one that repeats the SEQ accepted
changes nothing; a follower takes the SEQ of its leader's unit. A connection whose last unit was older than WD at the last snapshot is LOST
with its safe bits 0, and single copies end with their time.
That pairs, outputs and connections are held once is log 71. A row whose condition does not hold changes nothing but the time
(the choice of log 40). -/
def Obligations.SafeUnitsAreAcceptedInPairs : Prop :=
  ∀ (s : State) (t c : Nat), let b := s.before t; let x := b.safConn c;
  (∀ seg chB start frame cyc e,
    let j := schSender (b.sched seg e); let d := b.node seg j; let p := payloadOf frame; let u := unitBody chB (p.take 28)
    let good := b.copyOk seg cyc e chB start frame = true ∧ byteAt frame 1 = j ∧ frame.length = 42 ∧ (if chB then d.badB else d.badA) = false
    let takes := (b.ch chB).st ≠ .off ∧ (b.ch chB).linkDown = false
    let ahead := match x.rxSeq with | some r => (fld p 2 2 + 2 ^ 16 - r) % 2 ^ 16 | none => 1
    b.segRuns seg = true → b.hears seg chB = true → (b.entryAt seg chB start fun w => decide (schType w = 4)) = some (cyc, e) →
    ∃ w, exec (.sfReceived t seg chB start frame) s = .next (ends s t w) ∧ w.saf.outs = b.saf.outs ∧
      (¬ good → w.saf = b.saf ∧ (1 ≤ j → j ≤ 40 →
        w.node seg j = if chB then { d with bBad := (d.bBad + 1) % 256 } else { d with aBad := (d.aBad + 1) % 256 })) ∧
      (good → w.node seg j = if chB then { d with onB := true } else { d with onA := true }) ∧
      (good → ¬ takes → w.saf = b.saf) ∧
      (good → takes → j = 0 → b.following = true → b.connAt seg e = some c → fld p 28 4 = unitCheck chB (b.connFld c 4 4) (p.take 28) →
        w.safConn c = { x with txSeq := fld p 2 2 }) ∧
      (good → takes → j ≠ 0 → b.connOf seg j = none → w.saf = b.saf) ∧
      (good → takes → j ≠ 0 → b.connOf seg j = some c →
        (b.unitOk c chB p = false → w.safConn c = { x with bad := (x.bad + 1) % 256 }) ∧
        (b.unitOk c chB p = true → ahead = 0 → w.safConn c = x) ∧
        (b.unitOk c chB p = true → 255 < ahead → w.safConn c = { x with bad := (x.bad + 1) % 256 }) ∧
        (b.unitOk c chB p = true → 0 < ahead → ahead ≤ 255 → (if chB then x.gotA else x.gotB) = u →
          (w.safConn c).accepted = some (u, false) ∧ (w.safConn c).rxSeq = some (fld u 2 2) ∧ (w.safConn c).rxMt = fld u 4 8) ∧
        (b.unitOk c chB p = true → 0 < ahead → ahead ≤ 255 → (if chB then x.gotA else x.gotB) ≠ u →
          w.safConn c = if chB then { x with gotB := u } else { x with gotA := u }))) ∧
  (∀ seg chB start frame, b.segRuns seg = false ∨ b.hears seg chB = false ∨
      (b.entryAt seg chB start fun w => decide (schType w = 4)) = none →
    ∃ w, exec (.sfReceived t seg chB start frame) s = .next (ends s t w) ∧ w = { b with out := w.out } ∧
      (b.tw.role ≠ .follower → w = b)) ∧
  (b.connUsed c = true → x.st ≠ .lost → x.rxMt + b.connWd c < b.saf.tickMt → ∃ w, exec (.safConnLost t c) s = .next (ends s t w) ∧
    w.safConn c = { x with st := .lost, bits := 0 } ∧ w.saf.outs = b.saf.outs) ∧
  (b.connUsed c = false ∨ x.st = .lost ∨ b.saf.tickMt ≤ x.rxMt + b.connWd c → exec (.safConnLost t c) s = .next (ends s t b)) ∧
  (x.st = .single → b.singleRefused c = true → ∃ w, exec (.singleTimeExpiry t c) s = .next (ends s t w) ∧
    w.safConn c = { x with singleOver := true } ∧ w = { b with saf := w.saf }) ∧
  (x.st ≠ .single ∨ b.singleRefused c = false → exec (.singleTimeExpiry t c) s = .next (ends s t b))

/-! ## The twin link (15) -/

/-- Lanes, heartbeats, pairing, changeover and split brain (15 R584, R588 to R590, R609, R610, R613): a lane that goes down raises its
mark, a heartbeat is recorded and ends a loss; from its follower's a leader takes the state of the pair, of each running segment and the
delays, a follower hears its leader. Without one for three major cycles the link is lost with its mark and the pair is at an end.
Pairing begins at the device that leads, or follows, its peer with its rings in. A follower that has heard nothing for three major
cycles, or at the boundary a handover names, becomes leader in its leader's mode, in SAFE_HOLD if it was UNSYNCED. Of two leaders both
raise a mark and the one of rank 1 steps down at the next boundary.
The protocol beyond the words of the spec is logs 35, 47 and 57. A row whose condition does not hold changes nothing but the
time (the choice of log 40). -/
def Obligations.TheTwinPairsAndChangesOver : Prop :=
  ∀ (s : State) (t : Nat), let b := s.before t; let x := b.tw; let on := bit (b.force 0x0F0000) 0
  let late := x.hbAt.getD x.enAt + 1500000 ≤ b.now
  let leads := x.role = .leader ∧ x.peerRole = 2 ∧ b.ringsIn .running = true
  let follows := x.role = .follower ∧ x.peerRole = 1 ∧ b.ringsIn .integrated = true
  let two := x.role = .leader ∧ x.peerRole = 1 ∧ x.hbAt.isSome = true ∧ x.linkLost = false ∧ b.running ≠ [];
  (∀ lane, on = true → x.laneUp lane = true → ∃ w m, exec (.twinLaneDown t lane) s = .next (ends s t w) ∧ w.tw = x.setLane lane false ∧
    w.asy.held = b.asy.held ++ [m] ∧ m.src = srcLane lane ∧ m.kind = 0x60) ∧
  (∀ lane, on = false ∨ x.laneUp lane = false → exec (.twinLaneDown t lane) s = .next (ends s t b)) ∧
  (∀ lane, on = true → ∃ w, exec (.twinLaneUp t lane) s = .next (ends s t w) ∧ w.tw = x.setLane lane true ∧ w.asy.held = b.asy.held) ∧
  (∀ lane, on = false → exec (.twinLaneUp t lane) s = .next (ends s t b)) ∧
  (∀ mode role rank pair segs deltas, b.twinUp = true → ∃ w, exec (.twinHbReceived t mode role rank pair segs deltas) s = .next (ends s t w) ∧
    w.tw.hbAt = some b.now ∧ w.tw.linkLost = false ∧ w.tw.peerMode = mode ∧ w.tw.peerRole = role ∧ w.tw.peerRank = rank ∧
    w.tw.peerPair = pair ∧ w.tw.peerSegs = segs ∧ w.tw.peerDeltas = deltas ∧ w.tw.role = x.role ∧
    (x.role = .follower → role = 1 → w.tw.heardNow = true ∧ w.tw.silent = 0 ∧ w.tw.pair = x.pair ∧
      (mode = 4 ∨ mode = 5 → w.pw.degradedFrom = DevMode.ofCode mode)) ∧
    (x.role = .leader → role = 2 →
      (x.pair = .unpaired → w.tw.pair = .unpaired ∧ w.tw.segs = x.segs) ∧
      (x.pair ≠ .unpaired → pair = 2 ∨ pair = 3 → w.tw.pair = .paired) ∧
      (x.pair ≠ .unpaired → pair = 1 → w.tw.pair = .pairing) ∧
      (x.pair ≠ .unpaired → pair = 0 →
        w.tw.pair = if x.pair = .pairing ∧ b.now < x.pairAt + 1000000 then .pairing else .unpaired) ∧
      (x.pair ≠ .unpaired → 1 ≤ pair → pair ≤ 3 → ∀ k, k ∈ b.running →
        (segs.getD k 0 = 3 → (w.twSeg k).st = .notReady) ∧
        (segs.getD k 0 = 2 → (w.twSeg k).st = .resync ∧
          ((b.twSeg k).st ≠ .resync → (w.twSeg k).resyncs = ((b.twSeg k).resyncs + 1) % 2 ^ 16)) ∧
        (segs.getD k 0 = 1 → (b.twSeg k).st ≠ .resync → (w.twSeg k).st = .ready) ∧
        (segs.getD k 0 = 0 → (b.twSeg k).st ≠ .resync → (w.twSeg k).st = .notPaired)) ∧
      (∀ k, k ∈ b.running → deltas.getD k (-0x8000) ≠ -0x8000 → (b.seg k).ringOpen = false →
        (w.node k 62).deltas = (deltas.getD k (-0x8000) :: (b.node k 62).deltas).take 8))) ∧
  (∀ mode role rank pair segs deltas, b.twinUp = false → exec (.twinHbReceived t mode role rank pair segs deltas) s = .next (ends s t b)) ∧
  (on = true → x.linkLost = false → late → ∃ w m, exec (.twinLinkLost t) s = .next (ends s t w) ∧
    w.tw.linkLost = true ∧ w.tw.pair = (if x.pair = .unsynced then .unsynced else .unpaired) ∧ w.tw.role = x.role ∧
    m ∈ w.asy.held.drop b.asy.held.length ∧ m.src = srcTwin ∧ m.kind = 0x61 ∧
    (x.role = .follower → b.changeDue = false → ∀ k, k ∈ b.running → (w.twSeg k).st = .notReady)) ∧
  (on = false ∨ x.linkLost = true ∨ ¬ late → exec (.twinLinkLost t) s = .next (ends s t b)) ∧
  (b.mayPair = false ∨ (¬ leads ∧ ¬ follows) → exec (.pairingStart t) s = .next (ends s t b)) ∧
  (b.mayPair = true → leads ∨ follows →
    ∃ w, exec (.pairingStart t) s = .next (ends s t w) ∧ w.tw.pair = .pairing ∧ w.tw.pairAt = b.now ∧ w.tw.role = x.role ∧
      (x.role = .follower → w.tw.tags = [] ∧ w.tw.cpls = [])) ∧
  (b.changeDue = false → exec (.changeover t) s = .next (ends s t b)) ∧
  (b.changeDue = true → ∃ w m, exec (.changeover t) s = .next (ends s t w) ∧ w.tw.role = .leader ∧ w.tw.pair = .unpaired ∧
    m ∈ w.asy.held.drop b.asy.held.length ∧ m.src = srcTwin ∧ m.kind = 0x68 ∧
    w.pw.mode = (if x.pair = .unsynced then .safeHold else b.leaderMode) ∧ w.tw.tags = [] ∧ w.tw.cpls = [] ∧ w.tw.handover = none ∧
    ∀ k, k < 8 → (b.seg k).ring = .integrated → (w.seg k).ring = .running ∧ (w.seg k).ringOpen = true ∧ (w.seg k).viaFollower = true) ∧
  (two → ∃ w m, exec (.twinDualLeader t) s = .next (ends s t w) ∧ w.asy.held = b.asy.held ++ [m] ∧ m.src = srcTwin ∧ m.kind = 0x69 ∧
      (x.rank = 1 → w.tw = { x with dual := true, handover := some ((b.cyc + 1) % 2 ^ 40) }) ∧ (x.rank ≠ 1 → w.tw = x)) ∧
  (¬ two → exec (.twinDualLeader t) s = .next (ends s t b))

/-- What a follower takes from its leader, and what a pair compares (15 R587, R590, R594, R596 to R599, R601, 01 R23): a TAG and a
completion wait for their descriptor, a TAG that does not fit it leaves the pair UNSYNCED, USE counts in its own segment cycle, master
values move the feedback axes, each outcome is adopted, a mark goes to the event ring, a piece with a bad CRC is counted and asked for
again, a whole unit waits for the report-close point, and BLK is sent again on request. A device that hears no leader takes nothing.
The layouts and the protocol beyond the words of the spec are logs 21, 35, 57 and 84, the copy of a lost ASB is log 89. A row
whose condition does not hold changes nothing but the time (the choice of log 40). -/
def Obligations.AFollowerTakesFromItsLeader : Prop :=
  ∀ (s : State) (t : Nat), let b := s.before t; let x := b.tw; let hear := b.hearsLeader
  let at' (r p : Nat) := b.host.acc.find? fun e => decide (e.ring = r ∧ e.pos = p);
  (∀ seg ring pos seq opc crc st tag minor, hear = false →
    exec (.tagReceived t seg ring pos seq opc crc st tag minor) s = .next (ends s t b)) ∧
  (∀ seg ring pos seq opc crc st tag minor, hear = true →
    let again := b.host.acc.find? fun e => decide (e.ring = ring ∧ e.pos = pos) && e.tagged.isSome && decide (e.seq = seq)
    let tg : Tag := ⟨seg, ring, pos, seq, opc, crc, st, tag, minor⟩
    let marked (w : State) (e : Entry) : Prop := ∀ e' ∈ w.host.acc, e'.id = e.id → e'.tagged = some (tag, minor, st)
    ∃ w, exec (.tagReceived t seg ring pos seq opc crc st tag minor) s = .next (ends s t w) ∧
      w = { b with out := w.out, host := w.host, tw := w.tw, asy := w.asy } ∧ w.tw.role = x.role ∧
      (∀ e, again = some e → w.tw.tags = x.tags ∧ w.tw.lastTag = x.lastTag ∧ marked w e) ∧
      (again = none → w.tw.lastTag.lookup ring = some ((pos + 1) % 2 ^ 32) ∧ (at' ring pos = none → tg ∈ w.tw.tags) ∧
        ∀ e, at' ring pos = some e → tg ∉ w.tw.tags ∧
          (opcOf e.op = opc ∧ e.seq = seq ∧ e.crc = crc → marked w e) ∧
          (¬ (opcOf e.op = opc ∧ e.seq = seq ∧ e.crc = crc) → w.tw.pair = .unsynced))) ∧
  (∀ ring pos rec_, hear = false → exec (.cplReceived t ring pos rec_) s = .next (ends s t b)) ∧
  (∀ ring pos rec_, hear = true → ∃ w, exec (.cplReceived t ring pos rec_) s = .next (ends s t w) ∧
    w = { b with out := w.out, host := w.host, tw := { x with cpls := w.tw.cpls }, asy := w.asy } ∧
    (at' ring pos = none → (ring, pos, rec_) ∈ w.tw.cpls) ∧
    (∀ e r, b.host.acc = e :: r → e.ring = ring → e.pos = pos → opcLocal (opcOf e.op) = false → e.prog ≠ .waiting →
      (x.cpls.all fun c => decide (¬ (c.1 = ring ∧ c.2.1 = pos))) = true → (b.ringOf (8 + ring)).on = true → b.fenced srcHostEngine = false →
      .ring (8 + ring) (b.ringOf (8 + ring)).own rec_ ∈ w.out)) ∧
  (∀ seg tag minor map recs xs es, hear = true → tagOf b.cyc = tag → b.minor seg = minor →
    ∃ w, exec (.useReceived t seg tag minor map recs xs es) s = .next (ends s t w) ∧ (w.seg seg).use = some (map, recs) ∧ w.tw.pair = x.pair ∧
      (∀ a v, xs.getLast? = some (a, v) → SMap.get 0 (w.twSeg seg).x a = v) ∧
      (∀ a v, es.getLast? = some (a, v) → SMap.get 0 (w.twSeg seg).e a = v ∧ (w.stepCh (a - 512)).e0 = v)) ∧
  (∀ seg tag minor map recs xs es, hear = false ∨ tagOf b.cyc ≠ tag ∨ b.minor seg ≠ minor →
    exec (.useReceived t seg tag minor map recs xs es) s = .next (ends s t b)) ∧
  (∀ vals, hear = false → exec (.mstReceived t vals) s = .next (ends s t b)) ∧
  (∀ vals, hear = true → ∃ w, exec (.mstReceived t vals) s = .next (ends s t w) ∧
    (∀ i v, i < 40 → vals[i]? = some v → SMap.get ⟨0, false⟩ w.evaluated (528 + i) = v) ∧
    ∀ p v, p < 8 → vals[32 + p]? = some v → (w.port p).pos = v.pos) ∧
  (∀ seg tag minor dig,
    let g := b.twSeg seg
    let compares := x.role = .follower ∧ g.st ≠ .resync ∧ ∃ n d, g.own = some (n, minor, d) ∧ tagOf n = tag
    (b.twinUp = false ∨ x.pair ≠ .paired → exec (.digReceived t seg tag minor dig) s = .next (ends s t b)) ∧
    (b.twinUp = true → x.pair = .paired → ¬ compares →
      exec (.digReceived t seg tag minor dig) s = .next (ends s t (b.modTwSeg seg fun g => { g with peer := some (tag, minor, dig) }))) ∧
    (b.twinUp = true → x.pair = .paired → compares → ∃ w, exec (.digReceived t seg tag minor dig) s = .next (ends s t w) ∧
      (w.twSeg seg).own = none ∧ (w.twSeg seg).peer = none ∧
      ∀ n m d, g.own = some (n, m, d) → (d = dig → (w.twSeg seg).misrun = 0 ∧ w.asy = b.asy) ∧
        (d ≠ dig → (w.twSeg seg).misrun = min 3 (g.misrun + 1) ∧
          (g.misrun = 0 → ∃ y, w.asy.held = b.asy.held ++ [y] ∧ y.src = srcTwin ∧ y.kind = 0x65) ∧
          (2 ≤ g.misrun → (w.twSeg seg).st = .resync)))) ∧
  (∀ o, hear = false → exec (.outReceived t o) s = .next (ends s t b)) ∧
  (∀ o, hear = true → ∃ w, exec (.outReceived t o) s = .next (ends s t w) ∧ w.tw.role = x.role ∧
    (∀ n, o = .handover n → w.tw.handover = some n) ∧
    (∀ c, o = .configCrc c → x.pair = .pairing → c ≠ b.pairCrc → w.tw.cfgMis = true ∧ w.tw.pairBlocked = true ∧ w.tw.pair = .unpaired ∧
      ∃ m ∈ w.asy.held.drop b.asy.held.length, m.src = srcTwin ∧ m.kind = 0x62) ∧
    (∀ c, o = .configCrc c → x.pair ≠ .pairing ∨ c = b.pairCrc → w.tw.pair = x.pair ∧ w.tw.cfgMis = x.cfgMis) ∧
    (∀ k, o = .degradeHalve k → (w.seg k).due = some true) ∧ (∀ k, o = .degradeStop k → (w.seg k).due = some false) ∧
    (∀ a r, o = .resampleSwap a → (b.axis a).ln.resample = some r → (w.axis a).ln.resample = some { r with told := some true }) ∧
    (∀ a r, o = .resampleAbort a → (b.axis a).ln.resample = some r → (w.axis a).ln.resample = some { r with told := some false }) ∧
    (∀ a reason y, o = .identEnd a reason → (b.axis a).ident = some y → y.ended = false →
      (w.axis a).ident = if y.full.isEmpty then none
                         else some { y with ended := true, cap := none, k := (y.settle + y.blocks) * 4096 }) ∧
    (∀ a cause, o = .axisFault a cause → a < 560 → (w.axis a).fault = true) ∧
    (o = .safeHold → w.tw.peerMode = 7 ∧ ∀ k, k < 8 → ∀ a ∈ b.netAxes k, (w.axis a).fault = true) ∧
    (∀ r p c, o = .ringIndices r p c → r < 8 → (w.ringOf r).own = c ∧ (w.ringOf r).host = p ∧ ∀ e ∈ w.host.acc, e.ring ≠ r) ∧
    (∀ r p c, o = .ringIndices r p c → 8 ≤ r → (∀ e ∈ b.host.acc, 8 + e.ring ≠ r) → (w.ringOf r).own = p ∧ (w.ringOf r).host = c)) ∧
  (∀ mark, hear = false ∨ b.following = false ∨ (b.ringOf 24).on = false → exec (.evtReceived t mark) s = .next (ends s t b)) ∧
  (∀ mark, hear = true → b.following = true → (b.ringOf 24).on = true → b.room 24 1 = true →
    ∃ w, exec (.evtReceived t mark) s = .next (ends s t w) ∧ (w.ringOf 24).own = ((b.ringOf 24).own + 1) % 2 ^ 32 ∧
      (b.fenced srcHostEngine = false → .ring 24 (b.ringOf 24).own (padTo 32 mark) ∈ w.out)) ∧
  (∀ mark, hear = true → b.following = true → (b.ringOf 24).on = true → b.room 24 1 = false →
    ∃ w, exec (.evtReceived t mark) s = .next (ends s t w) ∧ (w.ringOf 24).own = (b.ringOf 24).own ∧
      (w.ringOf 24).drop = ((b.ringOf 24).drop + 1) % 2 ^ 32) ∧
  (∀ seg unit tag minor off ok data, hear = false → (b.twinUp = false ∨ (b.twSeg seg).lost = []) →
    exec (.blkReceived t seg unit tag minor off ok data) s = .next (ends s t b)) ∧
  (∀ seg unit tag minor off data, hear = true ∨ (b.twinUp = true ∧ (b.twSeg seg).lost ≠ []) →
    (∃ w, exec (.blkReceived t seg unit tag minor off false data) s = .next (ends s t w) ∧
      w.tw = { x with crcErr := (x.crcErr + 1) % 2 ^ 16 } ∧ w.out = .twin 0xA seg tag minor (leBytes 4 off) (b.armedFlip 0xC000) :: b.out) ∧
    ∃ w, exec (.blkReceived t seg unit tag minor off true data) s = .next (ends s t w) ∧
      w = { b with tw := w.tw, cams := w.cams } ∧
      (seg = 0xFF → let c := unit % 2 ^ 16; let p := (SMap.get {} x.cams c).add unit tag minor off data;
        (p.whole = false → SMap.get {} w.tw.cams c = p ∧ w.cams = b.cams) ∧ (p.whole = true → w.cams.lookup c = some (camOf p.bytes))) ∧
      (seg ≠ 0xFF → let h := unit % 2 ^ 16; let p := (SMap.get {} (b.twSeg seg).got h).add unit tag minor off data;
        w.cams = b.cams ∧ (p.whole = false → SMap.get {} (w.twSeg seg).got h = p ∧ (w.twSeg seg).arrived = (b.twSeg seg).arrived) ∧
        (p.whole = true → (w.twSeg seg).arrived = (b.twSeg seg).arrived ++
          [{ axes := identAxes seg unit, groups := identGroups unit, tag := tag, m := minor, bytes := p.bytes }]))) ∧
  (∀ off,
    let axis := off - 0x80000000
    let resends := off < 0x80000000 ∧ (b.leads = true ∨ x.sent ≠ [])
    let restores := 0x80000000 ≤ off ∧ x.pair = .paired ∧ axis < 528 ∧ (b.segOf axis).isSome = true
    (b.twinUp = true → resends → ∃ w, exec (.reqReceived t off) s = .next (ends s t w) ∧ w.tw.sent = x.sent ∧
      w.tw.resent % 2 ^ 16 = (x.resent + (x.sent.filter fun y => decide (y.off = off)).length) % 2 ^ 16) ∧
    (b.twinUp = true → restores → ∃ w, exec (.reqReceived t off) s = .next (ends s t w) ∧
      (∀ y ∈ w.tw.sent, b.segOf axis = some y.seg) ∧ w.tw.sent.length = ((b.axisBytes axis).length + 1023) / 1024 ∧
      w = { b with out := w.out, tw := { x with sent := w.tw.sent }, asy := w.asy }) ∧
    (b.twinUp = false ∨ (¬ resends ∧ ¬ restores) → exec (.reqReceived t off) s = .next (ends s t b)))
end

