-- ==== Sys2Proof/Laws/Body.lean ====
section
/-! SUPPORT. What raising marks, fencing, writing to the host and dispatching jobs leave alone: everything but the assay
unit, the host interface, the pool, the twin link and the list of outputs. -/

set_option linter.unusedSimpArgs false
set_option linter.unusedVariables false

namespace Sys2Proof.Machine

/-- The state without the queue, the time, the outputs, the host interface, the pool, the twin link and the assay unit. -/
def State.body (s : State) : State :=
  { s with pending := [], now := 0, free := 0, out := [], host := {}, pool := {}, tw := {}, asy := {} }

theorem body_mk (v_pending v_now v_free v_out v_time v_pw v_nv v_regs v_host v_pool v_axes v_cgroups v_igroups v_cams v_posted v_evaluated v_samples v_segs v_fbp v_lat v_pul v_adc v_an v_tw v_asy v_saf v_sram v_tap v_tapReset) :
    (State.mk v_pending v_now v_free v_out v_time v_pw v_nv v_regs v_host v_pool v_axes v_cgroups v_igroups v_cams v_posted v_evaluated v_samples v_segs v_fbp v_lat v_pul v_adc v_an v_tw v_asy v_saf v_sram v_tap v_tapReset).body =
      State.mk [] 0 0 [] v_time v_pw v_nv v_regs {} {} v_axes v_cgroups v_igroups v_cams v_posted v_evaluated v_samples v_segs v_fbp v_lat v_pul v_adc v_an {} {} v_saf v_sram v_tap v_tapReset := rfl

theorem body_eta (s : State) :
    State.mk [] 0 0 [] s.time s.pw s.nv s.regs {} {} s.axes s.cgroups s.igroups s.cams s.posted s.evaluated s.samples s.segs s.fbp s.lat s.pul s.adc s.an {} {} s.saf s.sram s.tap s.tapReset = s.body := rfl

/-- A fold leaves alone what each of its steps leaves alone. -/
theorem body_fold {α : Type} (g : State → α → State) (h : ∀ s x, (g s x).body = s.body) (l : List α) (s : State) :
    (l.foldl g s).body = s.body := by
  induction l generalizing s with
  | nil => rfl
  | cons a r ih => rw [List.foldl_cons, ih, h]

theorem body_if {c : Prop} [Decidable c] {a b : State} : (ite c a b).body = ite c a.body b.body := by
  split <;> rfl

/-! ## The operations, in the order of their files -/

theorem State.modPool_body (s : State) (f : Pool → Pool) :
    (State.modPool s f).body = s.body := by
  delta State.modPool
  simp only [body_mk, body_eta, body_fold, body_if, ite_self, implies_true]

theorem State.at_body (s : State) (t : Nat) :
    (State.at s t).body = s.body := by
  delta State.at
  simp only [body_mk, body_eta, body_fold, body_if, ite_self, implies_true]

theorem State.modRing_body (s : State) (r : Nat) (f : Ring → Ring) :
    (State.modRing s r f).body = s.body := by
  delta State.modRing
  simp only [body_mk, body_eta, body_fold, body_if, ite_self, implies_true]

theorem State.modHammer_body (s : State) (h : Nat) (f : Hammer → Hammer) :
    (State.modHammer s h f).body = s.body := by
  delta State.modHammer
  simp only [body_mk, body_eta, body_fold, body_if, ite_self, implies_true]

theorem State.modTwSeg_body (s : State) (k : Nat) (f : TwinSeg → TwinSeg) :
    (State.modTwSeg s k f).body = s.body := by
  delta State.modTwSeg
  simp only [body_mk, body_eta, body_fold, body_if, ite_self, implies_true]

theorem State.modSrc_body (s : State) (c : Nat) (f : SrcSt → SrcSt) :
    (State.modSrc s c f).body = s.body := by
  delta State.modSrc
  simp only [body_mk, body_eta, body_fold, body_if, ite_self, implies_true]

theorem State.emit_body (s : State) (o : Out) :
    (State.emit s o).body = s.body := by
  delta State.emit
  simp only [body_mk, body_eta, body_fold, body_if, ite_self, implies_true]

theorem State.disarm_body (s : State) (src : Nat) :
    (State.disarm s src).body = s.body := by
  delta State.disarm
  simp only [body_mk, body_eta, body_fold, body_if, ite_self, implies_true]

theorem State.draw_body (s : State) : s.draw.2.body = s.body := rfl

theorem State.emitHost_body (s : State) (o : Out) :
    (State.emitHost s o).body = s.body := by
  delta State.emitHost
  simp only [body_mk, body_eta, body_fold, body_if, ite_self, implies_true, State.emit_body]

theorem State.sendTwin_body (s : State) (type seg tag minor : Nat) (payload : List Byte) :
    (State.sendTwin s type seg tag minor payload).body = s.body := by
  delta State.sendTwin
  simp only [body_mk, body_eta, body_fold, body_if, ite_self, implies_true, State.disarm_body, State.emit_body]

theorem State.addMark_body (s : State) (src kind addr react : Nat) (detail : List Byte) (applied : Bool) :
    (State.addMark s src kind addr react detail applied).body = s.body := by
  delta State.addMark
  simp only [body_mk, body_eta, body_fold, body_if, ite_self, implies_true, State.modSrc_body]

theorem State.raise_body (s : State) (src kind addr : Nat) (detail : List Byte) :
    (State.raise s src kind addr detail).body = s.body := by
  delta State.raise
  simp only [body_mk, body_eta, body_fold, body_if, ite_self, implies_true, State.addMark_body]

theorem State.raiseDone_body (s : State) (src kind addr react : Nat) (detail : List Byte) :
    (State.raiseDone s src kind addr react detail).body = s.body := by
  delta State.raiseDone
  simp only [body_mk, body_eta, body_fold, body_if, ite_self, implies_true, State.addMark_body]

theorem State.raiseOnce_body (s : State) (src kind addr : Nat) (detail : List Byte) :
    (State.raiseOnce s src kind addr detail).body = s.body := by
  delta State.raiseOnce
  simp only [body_mk, body_eta, body_fold, body_if, ite_self, implies_true, State.raise_body]

theorem State.liveOn_body (s : State) (src kind : Nat) :
    (State.liveOn s src kind).body = s.body := by
  delta State.liveOn
  simp only [body_mk, body_eta, body_fold, body_if, ite_self, implies_true, State.modSrc_body]

theorem State.liveOff_body (s : State) (src kind : Nat) :
    (State.liveOff s src kind).body = s.body := by
  delta State.liveOff
  simp only [body_mk, body_eta, body_fold, body_if, ite_self, implies_true, State.modSrc_body]

theorem State.fence_body (s : State) (src reason : Nat) :
    (State.fence s src reason).body = s.body := by
  delta State.fence
  simp only [body_mk, body_eta, body_fold, body_if, ite_self, implies_true, State.modSrc_body, State.raiseDone_body]

theorem State.unfence_body (s : State) (src : Nat) :
    (State.unfence s src).body = s.body := by
  delta State.unfence
  simp only [body_mk, body_eta, body_fold, body_if, ite_self, implies_true, State.modSrc_body, State.raiseDone_body]

theorem State.sendMsi_body (s : State) (vec : Nat) :
    (State.sendMsi s vec).body = s.body := by
  delta State.sendMsi
  simp only [body_mk, body_eta, body_fold, body_if, ite_self, implies_true, State.emitHost_body]

theorem State.ringMsi_body (s : State) (r : Nat) :
    (State.ringMsi s r).body = s.body := by
  delta State.ringMsi
  simp only [body_mk, body_eta, body_fold, body_if, ite_self, implies_true, State.modRing_body, State.sendMsi_body]

theorem State.ringDrops_body (s : State) (r n : Nat) :
    (State.ringDrops s r n).body = s.body := by
  delta State.ringDrops
  simp only [body_mk, body_eta, body_fold, body_if, ite_self, implies_true, State.modRing_body, State.raiseOnce_body]

theorem State.ringDrop_body (s : State) (r : Nat) :
    (State.ringDrop s r).body = s.body := by
  delta State.ringDrop
  simp only [body_mk, body_eta, body_fold, body_if, ite_self, implies_true, State.ringDrops_body]

theorem State.putEntry_body (s : State) (r : Nat) (e : List Byte) :
    (State.putEntry s r e).body = s.body := by
  delta State.putEntry
  simp only [body_mk, body_eta, body_fold, body_if, ite_self, implies_true, State.emitHost_body, State.modRing_body]

theorem State.putIndex_body (s : State) (r : Nat) (msg : Bool) :
    (State.putIndex s r msg).body = s.body := by
  delta State.putIndex
  simp only [body_mk, body_eta, body_fold, body_if, ite_self, implies_true, State.emitHost_body, State.ringMsi_body]

theorem State.post_body (s : State) (r : Nat) (e : List Byte) :
    (State.post s r e).body = s.body := by
  delta State.post
  simp only [body_mk, body_eta, body_fold, body_if, ite_self, implies_true, State.putEntry_body, State.putIndex_body, State.ringDrop_body]

theorem State.statusWrite_body (s : State) (off : Nat) (bs : List Byte) :
    (State.statusWrite s off bs).body = s.body := by
  delta State.statusWrite
  simp only [body_mk, body_eta, body_fold, body_if, ite_self, implies_true, State.emitHost_body]

theorem State.keepDefine_body (s : State) (e : Entry) :
    (State.keepDefine s e).body = s.body := by
  delta State.keepDefine
  (try extract_lets) <;> (repeat' split) <;> (try with_reducible rfl) <;>
    (simp +zetaDelta only [body_mk, body_eta, body_fold, body_if, ite_self, implies_true]) <;> (repeat' split) <;> (try with_reducible rfl) <;>
    simp +zetaDelta only [body_mk, body_eta, body_fold, body_if, ite_self, implies_true]

theorem State.postCpl_body (s : State) (e : Entry) (rec_ : List Byte) :
    (State.postCpl s e rec_).body = s.body := by
  delta State.postCpl
  simp only [body_mk, body_eta, body_fold, body_if, ite_self, implies_true, State.putEntry_body, State.putIndex_body, State.sendTwin_body]

theorem postLoop_body (s : State) (b k l) : (postLoop s b k l).body = s.body := by
  induction l generalizing s b k with
  | nil => rfl
  | cons e r ih => unfold postLoop; split <;> (try split) <;> simp only [ih, State.postCpl_body, State.keepDefine_body]

theorem State.cplDisable_body (s : State) (r : Nat) :
    (State.cplDisable s r).body = s.body := by
  delta State.cplDisable
  simp only [body_mk, body_eta, body_fold, body_if, ite_self, implies_true, State.modRing_body]

theorem State.cplDisables_body (s : State) :
    (State.cplDisables s).body = s.body := by
  delta State.cplDisables
  simp only [body_mk, body_eta, body_fold, body_if, ite_self, implies_true, State.cplDisable_body]

theorem State.postReady_body (s : State) :
    (State.postReady s).body = s.body := by
  delta State.postReady
  simp only [body_mk, body_eta, body_fold, body_if, ite_self, implies_true, State.cplDisables_body, postLoop_body]

theorem State.modEntry_body (s : State) (id : Nat) (f : Entry → Entry) :
    (State.modEntry s id f).body = s.body := by
  delta State.modEntry
  simp only [body_mk, body_eta, body_fold, body_if, ite_self, implies_true]

theorem State.finish_body (s : State) (id status : Nat) (res : List Byte) :
    (State.finish s id status res).body = s.body := by
  delta State.finish
  simp only [body_mk, body_eta, body_fold, body_if, ite_self, implies_true, State.modEntry_body]

theorem State.finishOpt_body (s : State) (id : Option Nat) (status : Nat) (res : List Byte) :
    (State.finishOpt s id status res).body = s.body := by
  delta State.finishOpt
  (try extract_lets) <;> (repeat' split) <;> (try with_reducible rfl) <;>
    (simp +zetaDelta only [body_mk, body_eta, body_fold, body_if, ite_self, implies_true, State.finish_body]) <;> (repeat' split) <;> (try with_reducible rfl) <;>
    simp +zetaDelta only [body_mk, body_eta, body_fold, body_if, ite_self, implies_true, State.finish_body]

theorem State.startEntry_body (s : State) (id n m : Nat) :
    (State.startEntry s id n m).body = s.body := by
  delta State.startEntry
  simp only [body_mk, body_eta, body_fold, body_if, ite_self, implies_true, State.modEntry_body]

theorem State.tellTwin_body (s : State) (o : TwinOut) :
    (State.tellTwin s o).body = s.body := by
  delta State.tellTwin
  simp only [body_mk, body_eta, body_fold, body_if, ite_self, implies_true, State.sendTwin_body]

theorem State.notReady_body (s : State) (l : List Nat) :
    (State.notReady s l).body = s.body := by
  delta State.notReady
  simp only [body_mk, body_eta, body_fold, body_if, ite_self, implies_true, State.modTwSeg_body]

theorem State.modJob_body (s : State) (k : JobKey) (f : Job → Job) :
    (State.modJob s k f).body = s.body := by
  delta State.modJob
  simp only [body_mk, body_eta, body_fold, body_if, ite_self, implies_true, State.modPool_body]

theorem State.dropJob_body (s : State) (k : JobKey) :
    (State.dropJob s k).body = s.body := by
  delta State.dropJob
  simp only [body_mk, body_eta, body_fold, body_if, ite_self, implies_true, State.modPool_body]

theorem State.traceEntry_body (s : State) (e : List Byte) :
    (State.traceEntry s e).body = s.body := by
  delta State.traceEntry
  simp only [body_mk, body_eta, body_fold, body_if, ite_self, implies_true, State.modPool_body, State.post_body, State.raiseOnce_body]

theorem State.traceWrite_body (s : State) (body : List Byte) :
    (State.traceWrite s body).body = s.body := by
  delta State.traceWrite
  simp only [body_mk, body_eta, body_fold, body_if, ite_self, implies_true, State.modPool_body, State.traceEntry_body]

theorem State.tracePut_body (s : State) (body : List Byte) :
    (State.tracePut s body).body = s.body := by
  delta State.tracePut
  simp only [body_mk, body_eta, body_fold, body_if, ite_self, implies_true, State.modPool_body]

theorem State.traceAbout_body (s : State) (code h : Nat) (k : JobKey) (seg n m detail : Nat) (copy : Bool) (dom : Nat) (won : Bool) :
    (State.traceAbout s code h k seg n m detail copy dom won).body = s.body := by
  delta State.traceAbout
  simp only [body_mk, body_eta, body_fold, body_if, ite_self, implies_true, State.tracePut_body]

theorem State.traceJob_body (s : State) (code h : Nat) (k : JobKey) (detail : Nat) (copy : Bool) (dom : Nat) (won : Bool) :
    (State.traceJob s code h k detail copy dom won).body = s.body := by
  delta State.traceJob
  (try extract_lets) <;> (repeat' split) <;> (try with_reducible rfl) <;>
    (simp +zetaDelta only [body_mk, body_eta, body_fold, body_if, ite_self, implies_true, State.traceAbout_body]) <;> (repeat' split) <;> (try with_reducible rfl) <;>
    simp +zetaDelta only [body_mk, body_eta, body_fold, body_if, ite_self, implies_true, State.traceAbout_body]

theorem State.traceSoft_body (s : State) (code h : Nat) (j : Soft) (detail : Nat) :
    (State.traceSoft s code h j detail).body = s.body := by
  delta State.traceSoft
  simp only [body_mk, body_eta, body_fold, body_if, ite_self, implies_true, State.tracePut_body]

theorem State.traceHammer_body (s : State) (code h detail : Nat) :
    (State.traceHammer s code h detail).body = s.body := by
  delta State.traceHammer
  simp only [body_mk, body_eta, body_fold, body_if, ite_self, implies_true, State.tracePut_body]

theorem State.startRun_body (s : State) (h : Nat) (k : JobKey) (copy : Bool) (dom : Nat) :
    (State.startRun s h k copy dom).body = s.body := by
  delta State.startRun
  (try extract_lets) <;> (repeat' split) <;> (try with_reducible rfl) <;>
    (simp +zetaDelta only [body_mk, body_eta, body_fold, body_if, ite_self, implies_true, State.modHammer_body, State.modJob_body]) <;> (repeat' split) <;> (try with_reducible rfl) <;>
    simp +zetaDelta only [body_mk, body_eta, body_fold, body_if, ite_self, implies_true, State.modHammer_body, State.modJob_body]

theorem State.takeJob_body (s : State) (h : Nat) (j : Job) (dom b : Nat) :
    (State.takeJob s h j dom b).body = s.body := by
  delta State.takeJob
  simp only [body_mk, body_eta, body_fold, body_if, ite_self, implies_true, State.modPool_body, State.startRun_body, State.traceJob_body]

theorem State.takeOwn_body (s : State) (h : Nat) :
    (State.takeOwn s h).body = s.body := by
  delta State.takeOwn
  (try extract_lets) <;> (repeat' split) <;> (try with_reducible rfl) <;>
    (simp +zetaDelta only [body_mk, body_eta, body_fold, body_if, ite_self, implies_true, State.takeJob_body]) <;> (repeat' split) <;> (try with_reducible rfl) <;>
    simp +zetaDelta only [body_mk, body_eta, body_fold, body_if, ite_self, implies_true, State.takeJob_body]

theorem State.takeValley_body (s : State) (h : Nat) :
    (State.takeValley s h).body = s.body := by
  delta State.takeValley
  (try extract_lets) <;> (repeat' split) <;> (try with_reducible rfl) <;>
    (simp +zetaDelta only [body_mk, body_eta, body_fold, body_if, ite_self, implies_true, State.takeJob_body]) <;> (repeat' split) <;> (try with_reducible rfl) <;>
    simp +zetaDelta only [body_mk, body_eta, body_fold, body_if, ite_self, implies_true, State.takeJob_body]

theorem State.takeAcross_body (s : State) (h : Nat) :
    (State.takeAcross s h).body = s.body := by
  delta State.takeAcross
  (try extract_lets) <;> (repeat' split) <;> (try with_reducible rfl) <;>
    (simp +zetaDelta only [body_mk, body_eta, body_fold, body_if, ite_self, implies_true, State.takeJob_body]) <;> (repeat' split) <;> (try with_reducible rfl) <;>
    simp +zetaDelta only [body_mk, body_eta, body_fold, body_if, ite_self, implies_true, State.takeJob_body]

theorem State.queueSoft_body (s : State) (v : Nat) (j : Soft) :
    (State.queueSoft s v j).body = s.body := by
  delta State.queueSoft
  simp only [body_mk, body_eta, body_fold, body_if, ite_self, implies_true, State.modPool_body]

theorem State.issueSoft_body (s : State) (c : SoftClass) :
    (State.issueSoft s c).body = s.body := by
  delta State.issueSoft
  (try extract_lets) <;> (repeat' split) <;> (try with_reducible rfl) <;>
    (simp +zetaDelta only [body_mk, body_eta, body_fold, body_if, ite_self, implies_true, State.modPool_body, State.queueSoft_body]) <;> (repeat' split) <;> (try with_reducible rfl) <;>
    simp +zetaDelta only [body_mk, body_eta, body_fold, body_if, ite_self, implies_true, State.modPool_body, State.queueSoft_body]

theorem State.takeSoftFrom_body (s : State) (h v : Nat) :
    (State.takeSoftFrom s h v).body = s.body := by
  delta State.takeSoftFrom
  (try extract_lets) <;> (repeat' split) <;> (try with_reducible rfl) <;>
    (simp +zetaDelta only [body_mk, body_eta, body_fold, body_if, ite_self, implies_true, State.modHammer_body, State.modPool_body, State.traceSoft_body]) <;> (repeat' split) <;> (try with_reducible rfl) <;>
    simp +zetaDelta only [body_mk, body_eta, body_fold, body_if, ite_self, implies_true, State.modHammer_body, State.modPool_body, State.traceSoft_body]

theorem State.takeSoft_body (s : State) (h : Nat) :
    (State.takeSoft s h).body = s.body := by
  delta State.takeSoft
  (try extract_lets) <;> (repeat' split) <;> (try with_reducible rfl) <;>
    (simp +zetaDelta only [body_mk, body_eta, body_fold, body_if, ite_self, implies_true, State.modHammer_body, State.takeSoftFrom_body, State.traceSoft_body]) <;> (repeat' split) <;> (try with_reducible rfl) <;>
    simp +zetaDelta only [body_mk, body_eta, body_fold, body_if, ite_self, implies_true, State.modHammer_body, State.takeSoftFrom_body, State.traceSoft_body]

theorem State.askStop_body (s : State) (h : Nat) :
    (State.askStop s h).body = s.body := by
  delta State.askStop
  simp only [body_mk, body_eta, body_fold, body_if, ite_self, implies_true, State.modHammer_body, State.modPool_body]

theorem State.preemptFor_body (s : State) (b : Nat) (l : List Job) : (State.preemptFor s b l).body = s.body := by
  induction l generalizing s with
  | nil => rfl
  | cons j r ih => unfold State.preemptFor; split <;> simp only [ih, State.askStop_body]

theorem State.preemptBench_body (s : State) (b : Nat) :
    (State.preemptBench s b).body = s.body := by
  delta State.preemptBench
  simp only [body_mk, body_eta, body_fold, body_if, ite_self, implies_true, State.preemptFor_body]

theorem State.dispatch_body (s : State) :
    (State.dispatch s).body = s.body := by
  delta State.dispatch
  simp only [body_mk, body_eta, body_fold, body_if, ite_self, implies_true, State.preemptBench_body, State.takeAcross_body, State.takeOwn_body, State.takeSoft_body, State.takeValley_body]

theorem State.flushTrace_body (s : State) :
    (State.flushTrace s).body = s.body := by
  delta State.flushTrace
  simp only [body_mk, body_eta, body_fold, body_if, ite_self, implies_true, State.issueSoft_body, State.modPool_body, State.traceWrite_body]

theorem State.stallCounts_body (s : State) :
    (State.stallCounts s).body = s.body := by
  delta State.stallCounts
  simp only [body_mk, body_eta, body_fold, body_if, ite_self, implies_true, State.modPool_body]

theorem State.endClock_body (s : State) :
    (State.endClock s).body = s.body := by
  delta State.endClock
  simp only [body_mk, body_eta, body_fold, body_if, ite_self, implies_true, State.dispatch_body, State.flushTrace_body, State.modPool_body, State.stallCounts_body]

theorem State.joinGroups_body (s : State) :
    (State.joinGroups s).body = s.body := by
  delta State.joinGroups
  simp only [body_mk, body_eta, body_fold, body_if, ite_self, implies_true, State.modPool_body]

theorem State.settle_body (s : State) (t : Nat) :
    (State.settle s t).body = s.body := by
  delta State.settle
  simp only [body_mk, body_eta, body_fold, body_if, ite_self, implies_true, State.at_body, State.endClock_body, State.joinGroups_body]

theorem State.before_body (s : State) (t : Nat) :
    (State.before s t).body = s.body := by
  delta State.before
  simp only [body_mk, body_eta, body_fold, body_if, ite_self, implies_true, State.at_body, State.settle_body]

theorem State.place_body (s : State) (k : JobKey) (copy : Bool) (orig : Nat) :
    (State.place s k copy orig).body = s.body := by
  delta State.place
  (try extract_lets) <;> (repeat' split) <;> (try with_reducible rfl) <;>
    (simp +zetaDelta only [body_mk, body_eta, body_fold, body_if, ite_self, implies_true, State.askStop_body, State.modHammer_body, State.modJob_body, State.modPool_body, State.startRun_body, State.traceJob_body]) <;> (repeat' split) <;> (try with_reducible rfl) <;>
    simp +zetaDelta only [body_mk, body_eta, body_fold, body_if, ite_self, implies_true, State.askStop_body, State.modHammer_body, State.modJob_body, State.modPool_body, State.startRun_body, State.traceJob_body]

theorem State.issueCopy_body (s : State) (k : JobKey) (j : Job) (h : Nat) :
    (State.issueCopy s k j h).body = s.body := by
  delta State.issueCopy
  simp only [body_mk, body_eta, body_fold, body_if, ite_self, implies_true, State.modHammer_body, State.modJob_body, State.modPool_body, State.place_body]

theorem State.reissueAfterFault_body (s : State) (k : JobKey) (orig since : Nat) :
    (State.reissueAfterFault s k orig since).body = s.body := by
  delta State.reissueAfterFault
  (try extract_lets) <;> (repeat' split) <;> (try with_reducible rfl) <;>
    (simp +zetaDelta only [body_mk, body_eta, body_fold, body_if, ite_self, implies_true, State.issueCopy_body, State.place_body]) <;> (repeat' split) <;> (try with_reducible rfl) <;>
    simp +zetaDelta only [body_mk, body_eta, body_fold, body_if, ite_self, implies_true, State.issueCopy_body, State.place_body]

theorem State.endRun_body (s : State) (h : Nat) (completes : Bool) :
    (State.endRun s h completes).body = s.body := by
  delta State.endRun
  (try extract_lets) <;> (repeat' split) <;> (try with_reducible rfl) <;>
    (simp +zetaDelta only [body_mk, body_eta, body_fold, body_if, ite_self, implies_true, State.modHammer_body]) <;> (repeat' split) <;> (try with_reducible rfl) <;>
    simp +zetaDelta only [body_mk, body_eta, body_fold, body_if, ite_self, implies_true, State.modHammer_body]

theorem State.traceFences_body (s : State) (l : List Nat) (reason : Nat) :
    (State.traceFences s l reason).body = s.body := by
  delta State.traceFences
  simp only [body_mk, body_eta, body_fold, body_if, ite_self, implies_true, State.traceHammer_body]

theorem State.abandonRivals_body (s : State) (k : JobKey) :
    (State.abandonRivals s k).body = s.body := by
  delta State.abandonRivals
  simp only [body_mk, body_eta, body_fold, body_if, ite_self, implies_true, State.modHammer_body]

theorem State.postMany_body (s : State) (r : Nat) (l : List (List Byte)) :
    (State.postMany s r l).body = s.body := by
  delta State.postMany
  simp only [body_mk, body_eta, body_fold, body_if, ite_self, implies_true, State.putEntry_body, State.putIndex_body]

theorem State.reject_body (s : State) (e : Entry) (status : Nat) :
    (State.reject s e status).body = s.body := by
  delta State.reject
  simp only [body_mk, body_eta, body_fold, body_if, ite_self, implies_true, State.finish_body]

theorem State.rejectAt_body (s : State) (e : Entry) (status off : Nat) :
    (State.rejectAt s e status off).body = s.body := by
  delta State.rejectAt
  simp only [body_mk, body_eta, body_fold, body_if, ite_self, implies_true, State.finish_body]

theorem State.ledgerWrite_body (s : State) (m : Mark) :
    (State.ledgerWrite s m).body = s.body := by
  delta State.ledgerWrite
  simp only [body_mk, body_eta, body_fold, body_if, ite_self, implies_true]

theorem State.mirror_body (s : State) (m : Mark) :
    (State.mirror s m).body = s.body := by
  delta State.mirror
  simp only [body_mk, body_eta, body_fold, body_if, ite_self, implies_true, State.post_body, State.sendTwin_body]

theorem State.disarmAll_body (s : State) :
    (State.disarmAll s).body = s.body := by
  delta State.disarmAll
  simp only [body_mk, body_eta, body_fold, body_if, ite_self, implies_true, State.raise_body]

theorem State.traceUnfences_body (old s : State) (l : List Nat) (h_s : s.body = old.body) :
    (State.traceUnfences old s l).body = old.body := by
  delta State.traceUnfences
  simp only [body_mk, body_eta, body_fold, body_if, ite_self, implies_true, h_s, State.traceHammer_body]

theorem State.turnAway_body (s : State) (e : Entry) (b : Nat × Nat) :
    (State.turnAway s e b).body = s.body := by
  delta State.turnAway
  simp only [body_mk, body_eta, body_fold, body_if, ite_self, implies_true, State.rejectAt_body, State.reject_body]

theorem State.readIndex_body (s : State) (page : List (Nat × Word)) (r : Nat) :
    (State.readIndex s page r).body = s.body := by
  delta State.readIndex
  simp only [body_mk, body_eta, body_fold, body_if, ite_self, implies_true, State.modRing_body, State.raiseOnce_body]

theorem State.safMark_body (s : State) (chB : Bool) (kind b20 b21 : Nat) :
    (State.safMark s chB kind b20 b21).body = s.body := by
  delta State.safMark
  simp only [body_mk, body_eta, body_fold, body_if, ite_self, implies_true, State.raise_body]

theorem State.safBoth_body (s : State) (kind b20 : Nat) :
    (State.safBoth s kind b20).body = s.body := by
  delta State.safBoth
  simp only [body_mk, body_eta, body_fold, body_if, ite_self, implies_true, State.safMark_body]

/-! ## What a command finds -/

@[simp] theorem State.before_pw (s : State) (t : Nat) : (s.before t).pw = s.pw := by
  have h := congrArg State.pw (State.before_body s t)
  exact h

@[simp] theorem State.before_nv (s : State) (t : Nat) : (s.before t).nv = s.nv := by
  have h := congrArg State.nv (State.before_body s t)
  exact h

@[simp] theorem State.before_time (s : State) (t : Nat) : (s.before t).time = s.time := by
  have h := congrArg State.time (State.before_body s t)
  exact h

@[simp] theorem State.before_regs (s : State) (t : Nat) : (s.before t).regs = s.regs := by
  have h := congrArg State.regs (State.before_body s t)
  exact h

@[simp] theorem State.before_axes (s : State) (t : Nat) : (s.before t).axes = s.axes := by
  have h := congrArg State.axes (State.before_body s t)
  exact h

@[simp] theorem State.before_cgroups (s : State) (t : Nat) : (s.before t).cgroups = s.cgroups := by
  have h := congrArg State.cgroups (State.before_body s t)
  exact h

@[simp] theorem State.before_igroups (s : State) (t : Nat) : (s.before t).igroups = s.igroups := by
  have h := congrArg State.igroups (State.before_body s t)
  exact h

@[simp] theorem State.before_cams (s : State) (t : Nat) : (s.before t).cams = s.cams := by
  have h := congrArg State.cams (State.before_body s t)
  exact h

@[simp] theorem State.before_posted (s : State) (t : Nat) : (s.before t).posted = s.posted := by
  have h := congrArg State.posted (State.before_body s t)
  exact h

@[simp] theorem State.before_evaluated (s : State) (t : Nat) : (s.before t).evaluated = s.evaluated := by
  have h := congrArg State.evaluated (State.before_body s t)
  exact h

@[simp] theorem State.before_samples (s : State) (t : Nat) : (s.before t).samples = s.samples := by
  have h := congrArg State.samples (State.before_body s t)
  exact h

@[simp] theorem State.before_segs (s : State) (t : Nat) : (s.before t).segs = s.segs := by
  have h := congrArg State.segs (State.before_body s t)
  exact h

@[simp] theorem State.before_fbp (s : State) (t : Nat) : (s.before t).fbp = s.fbp := by
  have h := congrArg State.fbp (State.before_body s t)
  exact h

@[simp] theorem State.before_lat (s : State) (t : Nat) : (s.before t).lat = s.lat := by
  have h := congrArg State.lat (State.before_body s t)
  exact h

@[simp] theorem State.before_pul (s : State) (t : Nat) : (s.before t).pul = s.pul := by
  have h := congrArg State.pul (State.before_body s t)
  exact h

@[simp] theorem State.before_adc (s : State) (t : Nat) : (s.before t).adc = s.adc := by
  have h := congrArg State.adc (State.before_body s t)
  exact h

@[simp] theorem State.before_an (s : State) (t : Nat) : (s.before t).an = s.an := by
  have h := congrArg State.an (State.before_body s t)
  exact h

@[simp] theorem State.before_saf (s : State) (t : Nat) : (s.before t).saf = s.saf := by
  have h := congrArg State.saf (State.before_body s t)
  exact h

@[simp] theorem State.before_sram (s : State) (t : Nat) : (s.before t).sram = s.sram := by
  have h := congrArg State.sram (State.before_body s t)
  exact h

@[simp] theorem State.before_tap (s : State) (t : Nat) : (s.before t).tap = s.tap := by
  have h := congrArg State.tap (State.before_body s t)
  exact h

@[simp] theorem State.before_tapReset (s : State) (t : Nat) : (s.before t).tapReset = s.tapReset := by
  have h := congrArg State.tapReset (State.before_body s t)
  exact h

end Sys2Proof.Machine
end

