-- ==== Sys2Proof/Laws/Desk.lean ====
section
/-! SUPPORT. What raising marks, fencing, completing a descriptor and writing to the host leave alone: everything but the
assay unit, the host interface, the twin link and the list of outputs. -/

set_option linter.unusedSimpArgs false
set_option linter.unusedVariables false

namespace Sys2Proof.Machine

/-- The state without the outputs, the host interface, the twin link and the assay unit. -/
def State.desk (s : State) : State :=
  { s with out := [], host := {}, tw := {}, asy := {} }

theorem desk_mk (v_pending v_now v_free v_out v_time v_pw v_nv v_regs v_host v_pool v_axes v_cgroups v_igroups v_cams v_posted v_evaluated v_samples v_segs v_fbp v_lat v_pul v_adc v_an v_tw v_asy v_saf v_sram v_tap v_tapReset) :
    (State.mk v_pending v_now v_free v_out v_time v_pw v_nv v_regs v_host v_pool v_axes v_cgroups v_igroups v_cams v_posted v_evaluated v_samples v_segs v_fbp v_lat v_pul v_adc v_an v_tw v_asy v_saf v_sram v_tap v_tapReset).desk =
      State.mk v_pending v_now v_free [] v_time v_pw v_nv v_regs {} v_pool v_axes v_cgroups v_igroups v_cams v_posted v_evaluated v_samples v_segs v_fbp v_lat v_pul v_adc v_an {} {} v_saf v_sram v_tap v_tapReset := rfl

theorem desk_eta (s : State) :
    State.mk s.pending s.now s.free [] s.time s.pw s.nv s.regs {} s.pool s.axes s.cgroups s.igroups s.cams s.posted s.evaluated s.samples s.segs s.fbp s.lat s.pul s.adc s.an {} {} s.saf s.sram s.tap s.tapReset = s.desk := rfl

/-- A fold leaves alone what each of its steps leaves alone. -/
theorem desk_fold {α : Type} (g : State → α → State) (h : ∀ s x, (g s x).desk = s.desk) (l : List α) (s : State) :
    (l.foldl g s).desk = s.desk := by
  induction l generalizing s with
  | nil => rfl
  | cons a r ih => rw [List.foldl_cons, ih, h]

theorem desk_if {c : Prop} [Decidable c] {a b : State} : (ite c a b).desk = ite c a.desk b.desk := by
  split <;> rfl

/-! ## The operations, in the order of their files -/

theorem State.modRing_desk (s : State) (r : Nat) (f : Ring → Ring) :
    (State.modRing s r f).desk = s.desk := by
  delta State.modRing
  simp only [desk_mk, desk_eta, desk_fold, desk_if, ite_self, implies_true]

theorem State.modTwSeg_desk (s : State) (k : Nat) (f : TwinSeg → TwinSeg) :
    (State.modTwSeg s k f).desk = s.desk := by
  delta State.modTwSeg
  simp only [desk_mk, desk_eta, desk_fold, desk_if, ite_self, implies_true]

theorem State.modSrc_desk (s : State) (c : Nat) (f : SrcSt → SrcSt) :
    (State.modSrc s c f).desk = s.desk := by
  delta State.modSrc
  simp only [desk_mk, desk_eta, desk_fold, desk_if, ite_self, implies_true]

theorem State.emit_desk (s : State) (o : Out) :
    (State.emit s o).desk = s.desk := by
  delta State.emit
  simp only [desk_mk, desk_eta, desk_fold, desk_if, ite_self, implies_true]

theorem State.disarm_desk (s : State) (src : Nat) :
    (State.disarm s src).desk = s.desk := by
  delta State.disarm
  simp only [desk_mk, desk_eta, desk_fold, desk_if, ite_self, implies_true]

theorem State.emitHost_desk (s : State) (o : Out) :
    (State.emitHost s o).desk = s.desk := by
  delta State.emitHost
  simp only [desk_mk, desk_eta, desk_fold, desk_if, ite_self, implies_true, State.emit_desk]

theorem State.sendTwin_desk (s : State) (type seg tag minor : Nat) (payload : List Byte) :
    (State.sendTwin s type seg tag minor payload).desk = s.desk := by
  delta State.sendTwin
  simp only [desk_mk, desk_eta, desk_fold, desk_if, ite_self, implies_true, State.disarm_desk, State.emit_desk]

theorem State.addMark_desk (s : State) (src kind addr react : Nat) (detail : List Byte) (applied : Bool) :
    (State.addMark s src kind addr react detail applied).desk = s.desk := by
  delta State.addMark
  simp only [desk_mk, desk_eta, desk_fold, desk_if, ite_self, implies_true, State.modSrc_desk]

theorem State.raise_desk (s : State) (src kind addr : Nat) (detail : List Byte) :
    (State.raise s src kind addr detail).desk = s.desk := by
  delta State.raise
  simp only [desk_mk, desk_eta, desk_fold, desk_if, ite_self, implies_true, State.addMark_desk]

theorem State.raiseDone_desk (s : State) (src kind addr react : Nat) (detail : List Byte) :
    (State.raiseDone s src kind addr react detail).desk = s.desk := by
  delta State.raiseDone
  simp only [desk_mk, desk_eta, desk_fold, desk_if, ite_self, implies_true, State.addMark_desk]

theorem State.raiseOnce_desk (s : State) (src kind addr : Nat) (detail : List Byte) :
    (State.raiseOnce s src kind addr detail).desk = s.desk := by
  delta State.raiseOnce
  simp only [desk_mk, desk_eta, desk_fold, desk_if, ite_self, implies_true, State.raise_desk]

theorem State.liveOn_desk (s : State) (src kind : Nat) :
    (State.liveOn s src kind).desk = s.desk := by
  delta State.liveOn
  simp only [desk_mk, desk_eta, desk_fold, desk_if, ite_self, implies_true, State.modSrc_desk]

theorem State.liveOff_desk (s : State) (src kind : Nat) :
    (State.liveOff s src kind).desk = s.desk := by
  delta State.liveOff
  simp only [desk_mk, desk_eta, desk_fold, desk_if, ite_self, implies_true, State.modSrc_desk]

theorem State.fence_desk (s : State) (src reason : Nat) :
    (State.fence s src reason).desk = s.desk := by
  delta State.fence
  simp only [desk_mk, desk_eta, desk_fold, desk_if, ite_self, implies_true, State.modSrc_desk, State.raiseDone_desk]

theorem State.unfence_desk (s : State) (src : Nat) :
    (State.unfence s src).desk = s.desk := by
  delta State.unfence
  simp only [desk_mk, desk_eta, desk_fold, desk_if, ite_self, implies_true, State.modSrc_desk, State.raiseDone_desk]

theorem State.sendMsi_desk (s : State) (vec : Nat) :
    (State.sendMsi s vec).desk = s.desk := by
  delta State.sendMsi
  simp only [desk_mk, desk_eta, desk_fold, desk_if, ite_self, implies_true, State.emitHost_desk]

theorem State.ringMsi_desk (s : State) (r : Nat) :
    (State.ringMsi s r).desk = s.desk := by
  delta State.ringMsi
  simp only [desk_mk, desk_eta, desk_fold, desk_if, ite_self, implies_true, State.modRing_desk, State.sendMsi_desk]

theorem State.ringDrops_desk (s : State) (r n : Nat) :
    (State.ringDrops s r n).desk = s.desk := by
  delta State.ringDrops
  simp only [desk_mk, desk_eta, desk_fold, desk_if, ite_self, implies_true, State.modRing_desk, State.raiseOnce_desk]

theorem State.ringDrop_desk (s : State) (r : Nat) :
    (State.ringDrop s r).desk = s.desk := by
  delta State.ringDrop
  simp only [desk_mk, desk_eta, desk_fold, desk_if, ite_self, implies_true, State.ringDrops_desk]

theorem State.putEntry_desk (s : State) (r : Nat) (e : List Byte) :
    (State.putEntry s r e).desk = s.desk := by
  delta State.putEntry
  simp only [desk_mk, desk_eta, desk_fold, desk_if, ite_self, implies_true, State.emitHost_desk, State.modRing_desk]

theorem State.putIndex_desk (s : State) (r : Nat) (msg : Bool) :
    (State.putIndex s r msg).desk = s.desk := by
  delta State.putIndex
  simp only [desk_mk, desk_eta, desk_fold, desk_if, ite_self, implies_true, State.emitHost_desk, State.ringMsi_desk]

theorem State.post_desk (s : State) (r : Nat) (e : List Byte) :
    (State.post s r e).desk = s.desk := by
  delta State.post
  simp only [desk_mk, desk_eta, desk_fold, desk_if, ite_self, implies_true, State.putEntry_desk, State.putIndex_desk, State.ringDrop_desk]

theorem State.statusWrite_desk (s : State) (off : Nat) (bs : List Byte) :
    (State.statusWrite s off bs).desk = s.desk := by
  delta State.statusWrite
  simp only [desk_mk, desk_eta, desk_fold, desk_if, ite_self, implies_true, State.emitHost_desk]

theorem State.keepDefine_desk (s : State) (e : Entry) :
    (State.keepDefine s e).desk = s.desk := by
  delta State.keepDefine
  (try extract_lets) <;> (repeat' split) <;> (try with_reducible rfl) <;>
    (simp +zetaDelta only [desk_mk, desk_eta, desk_fold, desk_if, ite_self, implies_true]) <;> (repeat' split) <;> (try with_reducible rfl) <;>
    simp +zetaDelta only [desk_mk, desk_eta, desk_fold, desk_if, ite_self, implies_true]

theorem State.postCpl_desk (s : State) (e : Entry) (rec_ : List Byte) :
    (State.postCpl s e rec_).desk = s.desk := by
  delta State.postCpl
  simp only [desk_mk, desk_eta, desk_fold, desk_if, ite_self, implies_true, State.putEntry_desk, State.putIndex_desk, State.sendTwin_desk]

theorem postLoop_desk (s : State) (b k l) : (postLoop s b k l).desk = s.desk := by
  induction l generalizing s b k with
  | nil => rfl
  | cons e r ih => unfold postLoop; split <;> (try split) <;> simp only [ih, State.postCpl_desk, State.keepDefine_desk]

theorem State.cplDisable_desk (s : State) (r : Nat) :
    (State.cplDisable s r).desk = s.desk := by
  delta State.cplDisable
  simp only [desk_mk, desk_eta, desk_fold, desk_if, ite_self, implies_true, State.modRing_desk]

theorem State.cplDisables_desk (s : State) :
    (State.cplDisables s).desk = s.desk := by
  delta State.cplDisables
  simp only [desk_mk, desk_eta, desk_fold, desk_if, ite_self, implies_true, State.cplDisable_desk]

theorem State.postReady_desk (s : State) :
    (State.postReady s).desk = s.desk := by
  delta State.postReady
  simp only [desk_mk, desk_eta, desk_fold, desk_if, ite_self, implies_true, State.cplDisables_desk, postLoop_desk]

theorem State.modEntry_desk (s : State) (id : Nat) (f : Entry → Entry) :
    (State.modEntry s id f).desk = s.desk := by
  delta State.modEntry
  simp only [desk_mk, desk_eta, desk_fold, desk_if, ite_self, implies_true]

theorem State.finish_desk (s : State) (id status : Nat) (res : List Byte) :
    (State.finish s id status res).desk = s.desk := by
  delta State.finish
  simp only [desk_mk, desk_eta, desk_fold, desk_if, ite_self, implies_true, State.modEntry_desk]

theorem State.finishOpt_desk (s : State) (id : Option Nat) (status : Nat) (res : List Byte) :
    (State.finishOpt s id status res).desk = s.desk := by
  delta State.finishOpt
  (try extract_lets) <;> (repeat' split) <;> (try with_reducible rfl) <;>
    (simp +zetaDelta only [desk_mk, desk_eta, desk_fold, desk_if, ite_self, implies_true, State.finish_desk]) <;> (repeat' split) <;> (try with_reducible rfl) <;>
    simp +zetaDelta only [desk_mk, desk_eta, desk_fold, desk_if, ite_self, implies_true, State.finish_desk]

theorem State.startEntry_desk (s : State) (id n m : Nat) :
    (State.startEntry s id n m).desk = s.desk := by
  delta State.startEntry
  simp only [desk_mk, desk_eta, desk_fold, desk_if, ite_self, implies_true, State.modEntry_desk]

theorem State.tellTwin_desk (s : State) (o : TwinOut) :
    (State.tellTwin s o).desk = s.desk := by
  delta State.tellTwin
  simp only [desk_mk, desk_eta, desk_fold, desk_if, ite_self, implies_true, State.sendTwin_desk]

theorem State.finishMotion_desk (s : State) (n m : Nat) (pos : Int) (x : Nat × Nat) :
    (State.finishMotion s n m pos x).desk = s.desk := by
  delta State.finishMotion
  simp only [desk_mk, desk_eta, desk_fold, desk_if, ite_self, implies_true, State.finish_desk]

theorem State.finishAll_desk (s : State) (n m : Nat) (pos : Int) (l : List (Nat × Nat)) :
    (State.finishAll s n m pos l).desk = s.desk := by
  delta State.finishAll
  simp only [desk_mk, desk_eta, desk_fold, desk_if, ite_self, implies_true, State.finishMotion_desk]

theorem State.postMany_desk (s : State) (r : Nat) (l : List (List Byte)) :
    (State.postMany s r l).desk = s.desk := by
  delta State.postMany
  simp only [desk_mk, desk_eta, desk_fold, desk_if, ite_self, implies_true, State.putEntry_desk, State.putIndex_desk]

theorem State.reject_desk (s : State) (e : Entry) (status : Nat) :
    (State.reject s e status).desk = s.desk := by
  delta State.reject
  simp only [desk_mk, desk_eta, desk_fold, desk_if, ite_self, implies_true, State.finish_desk]

theorem State.rejectAt_desk (s : State) (e : Entry) (status off : Nat) :
    (State.rejectAt s e status off).desk = s.desk := by
  delta State.rejectAt
  simp only [desk_mk, desk_eta, desk_fold, desk_if, ite_self, implies_true, State.finish_desk]

theorem State.cmdTaken_desk (s : State) (h : DHdr) (op : DOp) :
    (State.cmdTaken s h op).desk = s.desk := by
  delta State.cmdTaken
  simp only [desk_mk, desk_eta, desk_fold, desk_if, ite_self, implies_true]

theorem State.turnAway_desk (s : State) (e : Entry) (b : Nat × Nat) :
    (State.turnAway s e b).desk = s.desk := by
  delta State.turnAway
  simp only [desk_mk, desk_eta, desk_fold, desk_if, ite_self, implies_true, State.rejectAt_desk, State.reject_desk]

theorem State.readIndex_desk (s : State) (page : List (Nat × Word)) (r : Nat) :
    (State.readIndex s page r).desk = s.desk := by
  delta State.readIndex
  simp only [desk_mk, desk_eta, desk_fold, desk_if, ite_self, implies_true, State.modRing_desk, State.raiseOnce_desk]

theorem State.safMark_desk (s : State) (chB : Bool) (kind b20 b21 : Nat) :
    (State.safMark s chB kind b20 b21).desk = s.desk := by
  delta State.safMark
  simp only [desk_mk, desk_eta, desk_fold, desk_if, ite_self, implies_true, State.raise_desk]

theorem State.safBoth_desk (s : State) (kind b20 : Nat) :
    (State.safBoth s kind b20).desk = s.desk := by
  delta State.safBoth
  simp only [desk_mk, desk_eta, desk_fold, desk_if, ite_self, implies_true, State.safMark_desk]

end Sys2Proof.Machine
end

