-- ==== Sys2Proof/Laws/SMap.lean ====
section
/-! SUPPORT. The laws of the sparse maps: what is read after a put, and that every operation keeps the canonical form. -/

namespace Sys2Proof.Machine

/-- Looking up in a map without key `k`. -/
theorem SMap.lookup_erase {α : Type} (m : SMap α) (k j : Nat) :
    (SMap.erase m k).lookup j = if j = k then none else m.lookup j := by
  induction m with
  | nil => simp [SMap.erase]
  | cons e r ih =>
    obtain ⟨x, v⟩ := e
    unfold SMap.erase at ih ⊢
    rw [List.filter_cons]
    by_cases hx : x = k
    · subst hx
      simp only [bne_self_eq_false, Bool.false_eq_true, if_false, ih]
      by_cases hj : j = x
      · simp only [hj, if_true]
      · simp only [hj, if_false, List.lookup_cons, beq_eq_false_iff_ne.mpr hj]
    · simp only [bne_iff_ne.mpr hx, if_true, List.lookup_cons, ih]
      by_cases hj : j = k
      · subst hj
        simp only [beq_eq_false_iff_ne.mpr (Ne.symm hx), if_true]
      · simp only [hj, if_false]

/-- Looking up after an insertion of a key that was not there. -/
theorem SMap.lookup_insert {α : Type} (m : SMap α) (k j : Nat) (v : α) (h : m.lookup k = none) :
    (SMap.insert m k v).lookup j = if j = k then some v else m.lookup j := by
  induction m with
  | nil =>
    by_cases hj : j = k
    · simp only [SMap.insert, List.lookup_cons, hj, beq_self_eq_true, if_true]
    · simp only [SMap.insert, List.lookup_cons, beq_eq_false_iff_ne.mpr hj, hj, if_false]
  | cons e r ih =>
    obtain ⟨x, w⟩ := e
    have hk : k ≠ x := by
      intro hc
      subst hc
      simp only [List.lookup_cons, beq_self_eq_true] at h
      cases h
    simp only [List.lookup_cons, beq_eq_false_iff_ne.mpr hk] at h
    unfold SMap.insert
    split
    · by_cases hj : j = k
      · simp only [List.lookup_cons, hj, beq_self_eq_true, if_true]
      · simp only [List.lookup_cons, beq_eq_false_iff_ne.mpr hj, hj, if_false]
    · simp only [List.lookup_cons, ih h]
      by_cases hj : j = k
      · simp only [hj, beq_eq_false_iff_ne.mpr hk, if_true]
      · simp only [hj, if_false]

/-- Reading after a put: the new value at the key, the old one elsewhere. -/
theorem SMap.get_put {α : Type} [DecidableEq α] (d : α) (m : SMap α) (k j : Nat) (v : α) :
    SMap.get d (SMap.put d m k v) j = if j = k then v else SMap.get d m j := by
  have hk : (SMap.erase m k).lookup k = none := by rw [SMap.lookup_erase, if_pos rfl]
  unfold SMap.put SMap.get
  by_cases hv : v = d
  · rw [if_pos hv, SMap.lookup_erase]
    by_cases hj : j = k
    · simp only [hj, if_true, hv]
    · simp only [hj, if_false]
  · rw [if_neg hv, SMap.lookup_insert _ _ _ _ hk, SMap.lookup_erase]
    by_cases hj : j = k
    · simp only [hj, if_true]
    · simp only [hj, if_false]

/-- Reading the key just put. -/
@[simp] theorem SMap.get_put_same {α : Type} [DecidableEq α] (d : α) (m : SMap α) (k : Nat) (v : α) :
    SMap.get d (SMap.put d m k v) k = v := by rw [SMap.get_put, if_pos rfl]

/-- Reading another key. -/
theorem SMap.get_put_ne {α : Type} [DecidableEq α] (d : α) (m : SMap α) {k j : Nat} (v : α) (h : j ≠ k) :
    SMap.get d (SMap.put d m k v) j = SMap.get d m j := by rw [SMap.get_put, if_neg h]

/-- Looking up another key after a put. -/
theorem SMap.lookup_put_ne {α : Type} [DecidableEq α] (d : α) (m : SMap α) {k j : Nat} (v : α) (h : j ≠ k) :
    (SMap.put d m k v).lookup j = m.lookup j := by
  have hk : (SMap.erase m k).lookup k = none := by rw [SMap.lookup_erase, if_pos rfl]
  unfold SMap.put
  split
  · rw [SMap.lookup_erase, if_neg h]
  · rw [SMap.lookup_insert _ _ _ _ hk, if_neg h, SMap.lookup_erase, if_neg h]

/-! ## The canonical form -/

/-- Keys strictly rising, as a relation between neighbours. -/
theorem SMap.rising_iff {α : Type} (m : SMap α) : SMap.rising m = true ↔ m.Pairwise fun a b => a.1 < b.1 := by
  induction m with
  | nil => simp [SMap.rising]
  | cons a r ih =>
    cases r with
    | nil => simp [SMap.rising]
    | cons b r =>
      rw [List.pairwise_cons, ← ih]
      simp only [SMap.rising, Bool.and_eq_true, decide_eq_true_eq]
      constructor
      · intro h
        refine ⟨fun x hx => ?_, h.2⟩
        rcases List.mem_cons.mp hx with rfl | hx
        · exact h.1
        · exact Nat.lt_trans h.1 ((List.pairwise_cons.mp (ih.mp h.2)).1 x hx)
      · intro h
        exact ⟨h.1 b (List.mem_cons_self ..), h.2⟩

/-- Taking keys away keeps them rising. -/
theorem SMap.rising_erase {α : Type} (m : SMap α) (k : Nat) (h : SMap.rising m = true) :
    SMap.rising (SMap.erase m k) = true := by
  rw [SMap.rising_iff] at h ⊢
  exact h.filter _

/-- Every key of an insertion is the new key or an old one. -/
theorem SMap.mem_insert {α : Type} (m : SMap α) (k : Nat) (v : α) (e : Nat × α) (h : e ∈ SMap.insert m k v) :
    e = (k, v) ∨ e ∈ m := by
  induction m with
  | nil => simpa [SMap.insert] using h
  | cons a r ih =>
    unfold SMap.insert at h
    split at h
    · rcases List.mem_cons.mp h with h | h
      · exact .inl h
      · exact .inr h
    · rcases List.mem_cons.mp h with h | h
      · exact .inr (by rw [h]; exact List.mem_cons_self ..)
      · rcases ih h with h | h
        · exact .inl h
        · exact .inr (List.mem_cons_of_mem _ h)

/-- Inserting a key that is not there keeps the keys rising. -/
theorem SMap.rising_insert {α : Type} (m : SMap α) (k : Nat) (v : α) (h : SMap.rising m = true) (hk : ∀ e ∈ m, e.1 ≠ k) :
    SMap.rising (SMap.insert m k v) = true := by
  rw [SMap.rising_iff] at h ⊢
  induction m with
  | nil => simp [SMap.insert]
  | cons a r ih =>
    have ha := List.pairwise_cons.mp h
    have hka : a.1 ≠ k := hk a (List.mem_cons_self ..)
    unfold SMap.insert
    split
    · next hlt =>
      refine List.pairwise_cons.mpr ⟨fun x hx => ?_, h⟩
      rcases List.mem_cons.mp hx with rfl | hx
      · exact hlt
      · exact Nat.lt_trans hlt (ha.1 x hx)
    · next hge =>
      refine List.pairwise_cons.mpr ⟨fun x hx => ?_, ih ha.2 fun e he => hk e (List.mem_cons_of_mem _ he)⟩
      rcases SMap.mem_insert _ _ _ _ hx with rfl | hx
      · show a.1 < k
        omega
      · exact ha.1 x hx

/-- A key taken away is not there. -/
theorem SMap.erase_ne {α : Type} (m : SMap α) (k : Nat) (e : Nat × α) (h : e ∈ SMap.erase m k) : e.1 ≠ k := by
  simpa using (List.mem_filter.mp h).2

/-- Putting keeps the keys rising. -/
theorem SMap.rising_put {α : Type} [DecidableEq α] (d : α) (m : SMap α) (k : Nat) (v : α) (h : SMap.rising m = true) :
    SMap.rising (SMap.put d m k v) = true := by
  unfold SMap.put
  split
  · exact SMap.rising_erase m k h
  · exact SMap.rising_insert _ k v (SMap.rising_erase m k h) (SMap.erase_ne m k)

/-- Putting keeps the canonical form. -/
theorem SMap.wf_put {α : Type} [DecidableEq α] (d : α) (m : SMap α) (k : Nat) (v : α) (h : SMap.wf d m = true) :
    SMap.wf d (SMap.put d m k v) = true := by
  unfold SMap.wf at h ⊢
  simp only [Bool.and_eq_true, List.all_eq_true, decide_eq_true_eq] at h ⊢
  refine ⟨SMap.rising_put d m k v h.1, fun e he => ?_⟩
  unfold SMap.put at he
  split at he
  · exact h.2 e (List.mem_filter.mp he).1
  · next hv =>
    rcases SMap.mem_insert _ _ _ _ he with rfl | he
    · exact hv
    · exact h.2 e (List.mem_filter.mp he).1

end Sys2Proof.Machine
end

