-- ==== Sys2Proof/Laws/State.lean ====
section
/-! SUPPORT. One lemma for each field under each update of the state, and for each accessor: an update changes its own field and
leaves the others. -/

namespace Sys2Proof.Machine

/-! ## modPool -/

@[simp] theorem State.modPool_pending (s : State) (f : Pool → Pool) : (s.modPool f).pending = s.pending := rfl
@[simp] theorem State.modPool_now (s : State) (f : Pool → Pool) : (s.modPool f).now = s.now := rfl
@[simp] theorem State.modPool_free (s : State) (f : Pool → Pool) : (s.modPool f).free = s.free := rfl
@[simp] theorem State.modPool_out (s : State) (f : Pool → Pool) : (s.modPool f).out = s.out := rfl
@[simp] theorem State.modPool_time (s : State) (f : Pool → Pool) : (s.modPool f).time = s.time := rfl
@[simp] theorem State.modPool_pw (s : State) (f : Pool → Pool) : (s.modPool f).pw = s.pw := rfl
@[simp] theorem State.modPool_nv (s : State) (f : Pool → Pool) : (s.modPool f).nv = s.nv := rfl
@[simp] theorem State.modPool_regs (s : State) (f : Pool → Pool) : (s.modPool f).regs = s.regs := rfl
@[simp] theorem State.modPool_host (s : State) (f : Pool → Pool) : (s.modPool f).host = s.host := rfl
@[simp] theorem State.modPool_pool (s : State) (f : Pool → Pool) : (s.modPool f).pool = f s.pool := rfl
@[simp] theorem State.modPool_axes (s : State) (f : Pool → Pool) : (s.modPool f).axes = s.axes := rfl
@[simp] theorem State.modPool_cgroups (s : State) (f : Pool → Pool) : (s.modPool f).cgroups = s.cgroups := rfl
@[simp] theorem State.modPool_igroups (s : State) (f : Pool → Pool) : (s.modPool f).igroups = s.igroups := rfl
@[simp] theorem State.modPool_cams (s : State) (f : Pool → Pool) : (s.modPool f).cams = s.cams := rfl
@[simp] theorem State.modPool_posted (s : State) (f : Pool → Pool) : (s.modPool f).posted = s.posted := rfl
@[simp] theorem State.modPool_evaluated (s : State) (f : Pool → Pool) : (s.modPool f).evaluated = s.evaluated := rfl
@[simp] theorem State.modPool_samples (s : State) (f : Pool → Pool) : (s.modPool f).samples = s.samples := rfl
@[simp] theorem State.modPool_segs (s : State) (f : Pool → Pool) : (s.modPool f).segs = s.segs := rfl
@[simp] theorem State.modPool_fbp (s : State) (f : Pool → Pool) : (s.modPool f).fbp = s.fbp := rfl
@[simp] theorem State.modPool_lat (s : State) (f : Pool → Pool) : (s.modPool f).lat = s.lat := rfl
@[simp] theorem State.modPool_pul (s : State) (f : Pool → Pool) : (s.modPool f).pul = s.pul := rfl
@[simp] theorem State.modPool_adc (s : State) (f : Pool → Pool) : (s.modPool f).adc = s.adc := rfl
@[simp] theorem State.modPool_an (s : State) (f : Pool → Pool) : (s.modPool f).an = s.an := rfl
@[simp] theorem State.modPool_tw (s : State) (f : Pool → Pool) : (s.modPool f).tw = s.tw := rfl
@[simp] theorem State.modPool_asy (s : State) (f : Pool → Pool) : (s.modPool f).asy = s.asy := rfl
@[simp] theorem State.modPool_saf (s : State) (f : Pool → Pool) : (s.modPool f).saf = s.saf := rfl
@[simp] theorem State.modPool_sram (s : State) (f : Pool → Pool) : (s.modPool f).sram = s.sram := rfl
@[simp] theorem State.modPool_tap (s : State) (f : Pool → Pool) : (s.modPool f).tap = s.tap := rfl
@[simp] theorem State.modPool_tapReset (s : State) (f : Pool → Pool) : (s.modPool f).tapReset = s.tapReset := rfl
@[simp] theorem State.modPool_axis (s : State) (f : Pool → Pool) (q : Nat) : (s.modPool f).axis q = s.axis q := rfl
@[simp] theorem State.modPool_seg (s : State) (f : Pool → Pool) (q : Nat) : (s.modPool f).seg q = s.seg q := rfl
@[simp] theorem State.modPool_ringOf (s : State) (f : Pool → Pool) (q : Nat) : (s.modPool f).ringOf q = s.ringOf q := rfl
@[simp] theorem State.modPool_src (s : State) (f : Pool → Pool) (q : Nat) : (s.modPool f).src q = s.src q := rfl
@[simp] theorem State.modPool_force (s : State) (f : Pool → Pool) (q : Nat) : (s.modPool f).force q = s.force q := rfl
@[simp] theorem State.modPool_stage (s : State) (f : Pool → Pool) (q : Nat) : (s.modPool f).stage q = s.stage q := rfl

/-! ## modPw -/

@[simp] theorem State.modPw_pending (s : State) (f : Power → Power) : (s.modPw f).pending = s.pending := rfl
@[simp] theorem State.modPw_now (s : State) (f : Power → Power) : (s.modPw f).now = s.now := rfl
@[simp] theorem State.modPw_free (s : State) (f : Power → Power) : (s.modPw f).free = s.free := rfl
@[simp] theorem State.modPw_out (s : State) (f : Power → Power) : (s.modPw f).out = s.out := rfl
@[simp] theorem State.modPw_time (s : State) (f : Power → Power) : (s.modPw f).time = s.time := rfl
@[simp] theorem State.modPw_pw (s : State) (f : Power → Power) : (s.modPw f).pw = f s.pw := rfl
@[simp] theorem State.modPw_nv (s : State) (f : Power → Power) : (s.modPw f).nv = s.nv := rfl
@[simp] theorem State.modPw_regs (s : State) (f : Power → Power) : (s.modPw f).regs = s.regs := rfl
@[simp] theorem State.modPw_host (s : State) (f : Power → Power) : (s.modPw f).host = s.host := rfl
@[simp] theorem State.modPw_pool (s : State) (f : Power → Power) : (s.modPw f).pool = s.pool := rfl
@[simp] theorem State.modPw_axes (s : State) (f : Power → Power) : (s.modPw f).axes = s.axes := rfl
@[simp] theorem State.modPw_cgroups (s : State) (f : Power → Power) : (s.modPw f).cgroups = s.cgroups := rfl
@[simp] theorem State.modPw_igroups (s : State) (f : Power → Power) : (s.modPw f).igroups = s.igroups := rfl
@[simp] theorem State.modPw_cams (s : State) (f : Power → Power) : (s.modPw f).cams = s.cams := rfl
@[simp] theorem State.modPw_posted (s : State) (f : Power → Power) : (s.modPw f).posted = s.posted := rfl
@[simp] theorem State.modPw_evaluated (s : State) (f : Power → Power) : (s.modPw f).evaluated = s.evaluated := rfl
@[simp] theorem State.modPw_samples (s : State) (f : Power → Power) : (s.modPw f).samples = s.samples := rfl
@[simp] theorem State.modPw_segs (s : State) (f : Power → Power) : (s.modPw f).segs = s.segs := rfl
@[simp] theorem State.modPw_fbp (s : State) (f : Power → Power) : (s.modPw f).fbp = s.fbp := rfl
@[simp] theorem State.modPw_lat (s : State) (f : Power → Power) : (s.modPw f).lat = s.lat := rfl
@[simp] theorem State.modPw_pul (s : State) (f : Power → Power) : (s.modPw f).pul = s.pul := rfl
@[simp] theorem State.modPw_adc (s : State) (f : Power → Power) : (s.modPw f).adc = s.adc := rfl
@[simp] theorem State.modPw_an (s : State) (f : Power → Power) : (s.modPw f).an = s.an := rfl
@[simp] theorem State.modPw_tw (s : State) (f : Power → Power) : (s.modPw f).tw = s.tw := rfl
@[simp] theorem State.modPw_asy (s : State) (f : Power → Power) : (s.modPw f).asy = s.asy := rfl
@[simp] theorem State.modPw_saf (s : State) (f : Power → Power) : (s.modPw f).saf = s.saf := rfl
@[simp] theorem State.modPw_sram (s : State) (f : Power → Power) : (s.modPw f).sram = s.sram := rfl
@[simp] theorem State.modPw_tap (s : State) (f : Power → Power) : (s.modPw f).tap = s.tap := rfl
@[simp] theorem State.modPw_tapReset (s : State) (f : Power → Power) : (s.modPw f).tapReset = s.tapReset := rfl
@[simp] theorem State.modPw_axis (s : State) (f : Power → Power) (q : Nat) : (s.modPw f).axis q = s.axis q := rfl
@[simp] theorem State.modPw_seg (s : State) (f : Power → Power) (q : Nat) : (s.modPw f).seg q = s.seg q := rfl
@[simp] theorem State.modPw_ringOf (s : State) (f : Power → Power) (q : Nat) : (s.modPw f).ringOf q = s.ringOf q := rfl
@[simp] theorem State.modPw_hammer (s : State) (f : Power → Power) (q : Nat) : (s.modPw f).hammer q = s.hammer q := rfl
@[simp] theorem State.modPw_src (s : State) (f : Power → Power) (q : Nat) : (s.modPw f).src q = s.src q := rfl
@[simp] theorem State.modPw_force (s : State) (f : Power → Power) (q : Nat) : (s.modPw f).force q = s.force q := rfl
@[simp] theorem State.modPw_stage (s : State) (f : Power → Power) (q : Nat) : (s.modPw f).stage q = s.stage q := rfl

/-! ## modNv -/

@[simp] theorem State.modNv_pending (s : State) (f : Nv → Nv) : (s.modNv f).pending = s.pending := rfl
@[simp] theorem State.modNv_now (s : State) (f : Nv → Nv) : (s.modNv f).now = s.now := rfl
@[simp] theorem State.modNv_free (s : State) (f : Nv → Nv) : (s.modNv f).free = s.free := rfl
@[simp] theorem State.modNv_out (s : State) (f : Nv → Nv) : (s.modNv f).out = s.out := rfl
@[simp] theorem State.modNv_time (s : State) (f : Nv → Nv) : (s.modNv f).time = s.time := rfl
@[simp] theorem State.modNv_pw (s : State) (f : Nv → Nv) : (s.modNv f).pw = s.pw := rfl
@[simp] theorem State.modNv_nv (s : State) (f : Nv → Nv) : (s.modNv f).nv = f s.nv := rfl
@[simp] theorem State.modNv_regs (s : State) (f : Nv → Nv) : (s.modNv f).regs = s.regs := rfl
@[simp] theorem State.modNv_host (s : State) (f : Nv → Nv) : (s.modNv f).host = s.host := rfl
@[simp] theorem State.modNv_pool (s : State) (f : Nv → Nv) : (s.modNv f).pool = s.pool := rfl
@[simp] theorem State.modNv_axes (s : State) (f : Nv → Nv) : (s.modNv f).axes = s.axes := rfl
@[simp] theorem State.modNv_cgroups (s : State) (f : Nv → Nv) : (s.modNv f).cgroups = s.cgroups := rfl
@[simp] theorem State.modNv_igroups (s : State) (f : Nv → Nv) : (s.modNv f).igroups = s.igroups := rfl
@[simp] theorem State.modNv_cams (s : State) (f : Nv → Nv) : (s.modNv f).cams = s.cams := rfl
@[simp] theorem State.modNv_posted (s : State) (f : Nv → Nv) : (s.modNv f).posted = s.posted := rfl
@[simp] theorem State.modNv_evaluated (s : State) (f : Nv → Nv) : (s.modNv f).evaluated = s.evaluated := rfl
@[simp] theorem State.modNv_samples (s : State) (f : Nv → Nv) : (s.modNv f).samples = s.samples := rfl
@[simp] theorem State.modNv_segs (s : State) (f : Nv → Nv) : (s.modNv f).segs = s.segs := rfl
@[simp] theorem State.modNv_fbp (s : State) (f : Nv → Nv) : (s.modNv f).fbp = s.fbp := rfl
@[simp] theorem State.modNv_lat (s : State) (f : Nv → Nv) : (s.modNv f).lat = s.lat := rfl
@[simp] theorem State.modNv_pul (s : State) (f : Nv → Nv) : (s.modNv f).pul = s.pul := rfl
@[simp] theorem State.modNv_adc (s : State) (f : Nv → Nv) : (s.modNv f).adc = s.adc := rfl
@[simp] theorem State.modNv_an (s : State) (f : Nv → Nv) : (s.modNv f).an = s.an := rfl
@[simp] theorem State.modNv_tw (s : State) (f : Nv → Nv) : (s.modNv f).tw = s.tw := rfl
@[simp] theorem State.modNv_asy (s : State) (f : Nv → Nv) : (s.modNv f).asy = s.asy := rfl
@[simp] theorem State.modNv_saf (s : State) (f : Nv → Nv) : (s.modNv f).saf = s.saf := rfl
@[simp] theorem State.modNv_sram (s : State) (f : Nv → Nv) : (s.modNv f).sram = s.sram := rfl
@[simp] theorem State.modNv_tap (s : State) (f : Nv → Nv) : (s.modNv f).tap = s.tap := rfl
@[simp] theorem State.modNv_tapReset (s : State) (f : Nv → Nv) : (s.modNv f).tapReset = s.tapReset := rfl
@[simp] theorem State.modNv_axis (s : State) (f : Nv → Nv) (q : Nat) : (s.modNv f).axis q = s.axis q := rfl
@[simp] theorem State.modNv_seg (s : State) (f : Nv → Nv) (q : Nat) : (s.modNv f).seg q = s.seg q := rfl
@[simp] theorem State.modNv_ringOf (s : State) (f : Nv → Nv) (q : Nat) : (s.modNv f).ringOf q = s.ringOf q := rfl
@[simp] theorem State.modNv_hammer (s : State) (f : Nv → Nv) (q : Nat) : (s.modNv f).hammer q = s.hammer q := rfl
@[simp] theorem State.modNv_src (s : State) (f : Nv → Nv) (q : Nat) : (s.modNv f).src q = s.src q := rfl
@[simp] theorem State.modNv_force (s : State) (f : Nv → Nv) (q : Nat) : (s.modNv f).force q = s.force q := rfl
@[simp] theorem State.modNv_stage (s : State) (f : Nv → Nv) (q : Nat) : (s.modNv f).stage q = s.stage q := rfl

/-! ## modSaf -/

@[simp] theorem State.modSaf_pending (s : State) (f : Safety → Safety) : (s.modSaf f).pending = s.pending := rfl
@[simp] theorem State.modSaf_now (s : State) (f : Safety → Safety) : (s.modSaf f).now = s.now := rfl
@[simp] theorem State.modSaf_free (s : State) (f : Safety → Safety) : (s.modSaf f).free = s.free := rfl
@[simp] theorem State.modSaf_out (s : State) (f : Safety → Safety) : (s.modSaf f).out = s.out := rfl
@[simp] theorem State.modSaf_time (s : State) (f : Safety → Safety) : (s.modSaf f).time = s.time := rfl
@[simp] theorem State.modSaf_pw (s : State) (f : Safety → Safety) : (s.modSaf f).pw = s.pw := rfl
@[simp] theorem State.modSaf_nv (s : State) (f : Safety → Safety) : (s.modSaf f).nv = s.nv := rfl
@[simp] theorem State.modSaf_regs (s : State) (f : Safety → Safety) : (s.modSaf f).regs = s.regs := rfl
@[simp] theorem State.modSaf_host (s : State) (f : Safety → Safety) : (s.modSaf f).host = s.host := rfl
@[simp] theorem State.modSaf_pool (s : State) (f : Safety → Safety) : (s.modSaf f).pool = s.pool := rfl
@[simp] theorem State.modSaf_axes (s : State) (f : Safety → Safety) : (s.modSaf f).axes = s.axes := rfl
@[simp] theorem State.modSaf_cgroups (s : State) (f : Safety → Safety) : (s.modSaf f).cgroups = s.cgroups := rfl
@[simp] theorem State.modSaf_igroups (s : State) (f : Safety → Safety) : (s.modSaf f).igroups = s.igroups := rfl
@[simp] theorem State.modSaf_cams (s : State) (f : Safety → Safety) : (s.modSaf f).cams = s.cams := rfl
@[simp] theorem State.modSaf_posted (s : State) (f : Safety → Safety) : (s.modSaf f).posted = s.posted := rfl
@[simp] theorem State.modSaf_evaluated (s : State) (f : Safety → Safety) : (s.modSaf f).evaluated = s.evaluated := rfl
@[simp] theorem State.modSaf_samples (s : State) (f : Safety → Safety) : (s.modSaf f).samples = s.samples := rfl
@[simp] theorem State.modSaf_segs (s : State) (f : Safety → Safety) : (s.modSaf f).segs = s.segs := rfl
@[simp] theorem State.modSaf_fbp (s : State) (f : Safety → Safety) : (s.modSaf f).fbp = s.fbp := rfl
@[simp] theorem State.modSaf_lat (s : State) (f : Safety → Safety) : (s.modSaf f).lat = s.lat := rfl
@[simp] theorem State.modSaf_pul (s : State) (f : Safety → Safety) : (s.modSaf f).pul = s.pul := rfl
@[simp] theorem State.modSaf_adc (s : State) (f : Safety → Safety) : (s.modSaf f).adc = s.adc := rfl
@[simp] theorem State.modSaf_an (s : State) (f : Safety → Safety) : (s.modSaf f).an = s.an := rfl
@[simp] theorem State.modSaf_tw (s : State) (f : Safety → Safety) : (s.modSaf f).tw = s.tw := rfl
@[simp] theorem State.modSaf_asy (s : State) (f : Safety → Safety) : (s.modSaf f).asy = s.asy := rfl
@[simp] theorem State.modSaf_saf (s : State) (f : Safety → Safety) : (s.modSaf f).saf = f s.saf := rfl
@[simp] theorem State.modSaf_sram (s : State) (f : Safety → Safety) : (s.modSaf f).sram = s.sram := rfl
@[simp] theorem State.modSaf_tap (s : State) (f : Safety → Safety) : (s.modSaf f).tap = s.tap := rfl
@[simp] theorem State.modSaf_tapReset (s : State) (f : Safety → Safety) : (s.modSaf f).tapReset = s.tapReset := rfl
@[simp] theorem State.modSaf_axis (s : State) (f : Safety → Safety) (q : Nat) : (s.modSaf f).axis q = s.axis q := rfl
@[simp] theorem State.modSaf_seg (s : State) (f : Safety → Safety) (q : Nat) : (s.modSaf f).seg q = s.seg q := rfl
@[simp] theorem State.modSaf_ringOf (s : State) (f : Safety → Safety) (q : Nat) : (s.modSaf f).ringOf q = s.ringOf q := rfl
@[simp] theorem State.modSaf_hammer (s : State) (f : Safety → Safety) (q : Nat) : (s.modSaf f).hammer q = s.hammer q := rfl
@[simp] theorem State.modSaf_src (s : State) (f : Safety → Safety) (q : Nat) : (s.modSaf f).src q = s.src q := rfl
@[simp] theorem State.modSaf_force (s : State) (f : Safety → Safety) (q : Nat) : (s.modSaf f).force q = s.force q := rfl
@[simp] theorem State.modSaf_stage (s : State) (f : Safety → Safety) (q : Nat) : (s.modSaf f).stage q = s.stage q := rfl

/-! ## at -/

@[simp] theorem State.at_pending (s : State) (t : Nat) : (s.at t).pending = s.pending := rfl
@[simp] theorem State.at_now (s : State) (t : Nat) : (s.at t).now = max s.now t := rfl
@[simp] theorem State.at_free (s : State) (t : Nat) : (s.at t).free = s.free := rfl
@[simp] theorem State.at_out (s : State) (t : Nat) : (s.at t).out = s.out := rfl
@[simp] theorem State.at_time (s : State) (t : Nat) : (s.at t).time = s.time := rfl
@[simp] theorem State.at_pw (s : State) (t : Nat) : (s.at t).pw = s.pw := rfl
@[simp] theorem State.at_nv (s : State) (t : Nat) : (s.at t).nv = s.nv := rfl
@[simp] theorem State.at_regs (s : State) (t : Nat) : (s.at t).regs = s.regs := rfl
@[simp] theorem State.at_host (s : State) (t : Nat) : (s.at t).host = s.host := rfl
@[simp] theorem State.at_pool (s : State) (t : Nat) : (s.at t).pool = s.pool := rfl
@[simp] theorem State.at_axes (s : State) (t : Nat) : (s.at t).axes = s.axes := rfl
@[simp] theorem State.at_cgroups (s : State) (t : Nat) : (s.at t).cgroups = s.cgroups := rfl
@[simp] theorem State.at_igroups (s : State) (t : Nat) : (s.at t).igroups = s.igroups := rfl
@[simp] theorem State.at_cams (s : State) (t : Nat) : (s.at t).cams = s.cams := rfl
@[simp] theorem State.at_posted (s : State) (t : Nat) : (s.at t).posted = s.posted := rfl
@[simp] theorem State.at_evaluated (s : State) (t : Nat) : (s.at t).evaluated = s.evaluated := rfl
@[simp] theorem State.at_samples (s : State) (t : Nat) : (s.at t).samples = s.samples := rfl
@[simp] theorem State.at_segs (s : State) (t : Nat) : (s.at t).segs = s.segs := rfl
@[simp] theorem State.at_fbp (s : State) (t : Nat) : (s.at t).fbp = s.fbp := rfl
@[simp] theorem State.at_lat (s : State) (t : Nat) : (s.at t).lat = s.lat := rfl
@[simp] theorem State.at_pul (s : State) (t : Nat) : (s.at t).pul = s.pul := rfl
@[simp] theorem State.at_adc (s : State) (t : Nat) : (s.at t).adc = s.adc := rfl
@[simp] theorem State.at_an (s : State) (t : Nat) : (s.at t).an = s.an := rfl
@[simp] theorem State.at_tw (s : State) (t : Nat) : (s.at t).tw = s.tw := rfl
@[simp] theorem State.at_asy (s : State) (t : Nat) : (s.at t).asy = s.asy := rfl
@[simp] theorem State.at_saf (s : State) (t : Nat) : (s.at t).saf = s.saf := rfl
@[simp] theorem State.at_sram (s : State) (t : Nat) : (s.at t).sram = s.sram := rfl
@[simp] theorem State.at_tap (s : State) (t : Nat) : (s.at t).tap = s.tap := rfl
@[simp] theorem State.at_tapReset (s : State) (t : Nat) : (s.at t).tapReset = s.tapReset := rfl
@[simp] theorem State.at_axis (s : State) (t : Nat) (q : Nat) : (s.at t).axis q = s.axis q := rfl
@[simp] theorem State.at_seg (s : State) (t : Nat) (q : Nat) : (s.at t).seg q = s.seg q := rfl
@[simp] theorem State.at_ringOf (s : State) (t : Nat) (q : Nat) : (s.at t).ringOf q = s.ringOf q := rfl
@[simp] theorem State.at_hammer (s : State) (t : Nat) (q : Nat) : (s.at t).hammer q = s.hammer q := rfl
@[simp] theorem State.at_src (s : State) (t : Nat) (q : Nat) : (s.at t).src q = s.src q := rfl
@[simp] theorem State.at_force (s : State) (t : Nat) (q : Nat) : (s.at t).force q = s.force q := rfl
@[simp] theorem State.at_stage (s : State) (t : Nat) (q : Nat) : (s.at t).stage q = s.stage q := rfl

/-! ## emit -/

@[simp] theorem State.emit_pending (s : State) (o : Out) : (s.emit o).pending = s.pending := rfl
@[simp] theorem State.emit_now (s : State) (o : Out) : (s.emit o).now = s.now := rfl
@[simp] theorem State.emit_free (s : State) (o : Out) : (s.emit o).free = s.free := rfl
@[simp] theorem State.emit_out (s : State) (o : Out) : (s.emit o).out = o :: s.out := rfl
@[simp] theorem State.emit_time (s : State) (o : Out) : (s.emit o).time = s.time := rfl
@[simp] theorem State.emit_pw (s : State) (o : Out) : (s.emit o).pw = s.pw := rfl
@[simp] theorem State.emit_nv (s : State) (o : Out) : (s.emit o).nv = s.nv := rfl
@[simp] theorem State.emit_regs (s : State) (o : Out) : (s.emit o).regs = s.regs := rfl
@[simp] theorem State.emit_host (s : State) (o : Out) : (s.emit o).host = s.host := rfl
@[simp] theorem State.emit_pool (s : State) (o : Out) : (s.emit o).pool = s.pool := rfl
@[simp] theorem State.emit_axes (s : State) (o : Out) : (s.emit o).axes = s.axes := rfl
@[simp] theorem State.emit_cgroups (s : State) (o : Out) : (s.emit o).cgroups = s.cgroups := rfl
@[simp] theorem State.emit_igroups (s : State) (o : Out) : (s.emit o).igroups = s.igroups := rfl
@[simp] theorem State.emit_cams (s : State) (o : Out) : (s.emit o).cams = s.cams := rfl
@[simp] theorem State.emit_posted (s : State) (o : Out) : (s.emit o).posted = s.posted := rfl
@[simp] theorem State.emit_evaluated (s : State) (o : Out) : (s.emit o).evaluated = s.evaluated := rfl
@[simp] theorem State.emit_samples (s : State) (o : Out) : (s.emit o).samples = s.samples := rfl
@[simp] theorem State.emit_segs (s : State) (o : Out) : (s.emit o).segs = s.segs := rfl
@[simp] theorem State.emit_fbp (s : State) (o : Out) : (s.emit o).fbp = s.fbp := rfl
@[simp] theorem State.emit_lat (s : State) (o : Out) : (s.emit o).lat = s.lat := rfl
@[simp] theorem State.emit_pul (s : State) (o : Out) : (s.emit o).pul = s.pul := rfl
@[simp] theorem State.emit_adc (s : State) (o : Out) : (s.emit o).adc = s.adc := rfl
@[simp] theorem State.emit_an (s : State) (o : Out) : (s.emit o).an = s.an := rfl
@[simp] theorem State.emit_tw (s : State) (o : Out) : (s.emit o).tw = s.tw := rfl
@[simp] theorem State.emit_asy (s : State) (o : Out) : (s.emit o).asy = s.asy := rfl
@[simp] theorem State.emit_saf (s : State) (o : Out) : (s.emit o).saf = s.saf := rfl
@[simp] theorem State.emit_sram (s : State) (o : Out) : (s.emit o).sram = s.sram := rfl
@[simp] theorem State.emit_tap (s : State) (o : Out) : (s.emit o).tap = s.tap := rfl
@[simp] theorem State.emit_tapReset (s : State) (o : Out) : (s.emit o).tapReset = s.tapReset := rfl
@[simp] theorem State.emit_axis (s : State) (o : Out) (q : Nat) : (s.emit o).axis q = s.axis q := rfl
@[simp] theorem State.emit_seg (s : State) (o : Out) (q : Nat) : (s.emit o).seg q = s.seg q := rfl
@[simp] theorem State.emit_ringOf (s : State) (o : Out) (q : Nat) : (s.emit o).ringOf q = s.ringOf q := rfl
@[simp] theorem State.emit_hammer (s : State) (o : Out) (q : Nat) : (s.emit o).hammer q = s.hammer q := rfl
@[simp] theorem State.emit_src (s : State) (o : Out) (q : Nat) : (s.emit o).src q = s.src q := rfl
@[simp] theorem State.emit_force (s : State) (o : Out) (q : Nat) : (s.emit o).force q = s.force q := rfl
@[simp] theorem State.emit_stage (s : State) (o : Out) (q : Nat) : (s.emit o).stage q = s.stage q := rfl

/-! ## setAxis -/

@[simp] theorem State.setAxis_pending (s : State) (a : Nat) (x : Axis) : (s.setAxis a x).pending = s.pending := rfl
@[simp] theorem State.setAxis_now (s : State) (a : Nat) (x : Axis) : (s.setAxis a x).now = s.now := rfl
@[simp] theorem State.setAxis_free (s : State) (a : Nat) (x : Axis) : (s.setAxis a x).free = s.free := rfl
@[simp] theorem State.setAxis_out (s : State) (a : Nat) (x : Axis) : (s.setAxis a x).out = s.out := rfl
@[simp] theorem State.setAxis_time (s : State) (a : Nat) (x : Axis) : (s.setAxis a x).time = s.time := rfl
@[simp] theorem State.setAxis_pw (s : State) (a : Nat) (x : Axis) : (s.setAxis a x).pw = s.pw := rfl
@[simp] theorem State.setAxis_nv (s : State) (a : Nat) (x : Axis) : (s.setAxis a x).nv = s.nv := rfl
@[simp] theorem State.setAxis_regs (s : State) (a : Nat) (x : Axis) : (s.setAxis a x).regs = s.regs := rfl
@[simp] theorem State.setAxis_host (s : State) (a : Nat) (x : Axis) : (s.setAxis a x).host = s.host := rfl
@[simp] theorem State.setAxis_pool (s : State) (a : Nat) (x : Axis) : (s.setAxis a x).pool = s.pool := rfl
@[simp] theorem State.setAxis_axes (s : State) (a : Nat) (x : Axis) : (s.setAxis a x).axes = SMap.put (Axis.default a) s.axes a x := rfl
@[simp] theorem State.setAxis_cgroups (s : State) (a : Nat) (x : Axis) : (s.setAxis a x).cgroups = s.cgroups := rfl
@[simp] theorem State.setAxis_igroups (s : State) (a : Nat) (x : Axis) : (s.setAxis a x).igroups = s.igroups := rfl
@[simp] theorem State.setAxis_cams (s : State) (a : Nat) (x : Axis) : (s.setAxis a x).cams = s.cams := rfl
@[simp] theorem State.setAxis_posted (s : State) (a : Nat) (x : Axis) : (s.setAxis a x).posted = s.posted := rfl
@[simp] theorem State.setAxis_evaluated (s : State) (a : Nat) (x : Axis) : (s.setAxis a x).evaluated = s.evaluated := rfl
@[simp] theorem State.setAxis_samples (s : State) (a : Nat) (x : Axis) : (s.setAxis a x).samples = s.samples := rfl
@[simp] theorem State.setAxis_segs (s : State) (a : Nat) (x : Axis) : (s.setAxis a x).segs = s.segs := rfl
@[simp] theorem State.setAxis_fbp (s : State) (a : Nat) (x : Axis) : (s.setAxis a x).fbp = s.fbp := rfl
@[simp] theorem State.setAxis_lat (s : State) (a : Nat) (x : Axis) : (s.setAxis a x).lat = s.lat := rfl
@[simp] theorem State.setAxis_pul (s : State) (a : Nat) (x : Axis) : (s.setAxis a x).pul = s.pul := rfl
@[simp] theorem State.setAxis_adc (s : State) (a : Nat) (x : Axis) : (s.setAxis a x).adc = s.adc := rfl
@[simp] theorem State.setAxis_an (s : State) (a : Nat) (x : Axis) : (s.setAxis a x).an = s.an := rfl
@[simp] theorem State.setAxis_tw (s : State) (a : Nat) (x : Axis) : (s.setAxis a x).tw = s.tw := rfl
@[simp] theorem State.setAxis_asy (s : State) (a : Nat) (x : Axis) : (s.setAxis a x).asy = s.asy := rfl
@[simp] theorem State.setAxis_saf (s : State) (a : Nat) (x : Axis) : (s.setAxis a x).saf = s.saf := rfl
@[simp] theorem State.setAxis_sram (s : State) (a : Nat) (x : Axis) : (s.setAxis a x).sram = s.sram := rfl
@[simp] theorem State.setAxis_tap (s : State) (a : Nat) (x : Axis) : (s.setAxis a x).tap = s.tap := rfl
@[simp] theorem State.setAxis_tapReset (s : State) (a : Nat) (x : Axis) : (s.setAxis a x).tapReset = s.tapReset := rfl
@[simp] theorem State.setAxis_seg (s : State) (a : Nat) (x : Axis) (q : Nat) : (s.setAxis a x).seg q = s.seg q := rfl
@[simp] theorem State.setAxis_ringOf (s : State) (a : Nat) (x : Axis) (q : Nat) : (s.setAxis a x).ringOf q = s.ringOf q := rfl
@[simp] theorem State.setAxis_hammer (s : State) (a : Nat) (x : Axis) (q : Nat) : (s.setAxis a x).hammer q = s.hammer q := rfl
@[simp] theorem State.setAxis_src (s : State) (a : Nat) (x : Axis) (q : Nat) : (s.setAxis a x).src q = s.src q := rfl
@[simp] theorem State.setAxis_force (s : State) (a : Nat) (x : Axis) (q : Nat) : (s.setAxis a x).force q = s.force q := rfl
@[simp] theorem State.setAxis_stage (s : State) (a : Nat) (x : Axis) (q : Nat) : (s.setAxis a x).stage q = s.stage q := rfl

/-! ## modAxis -/

@[simp] theorem State.modAxis_pending (s : State) (a : Nat) (f : Axis → Axis) : (s.modAxis a f).pending = s.pending := rfl
@[simp] theorem State.modAxis_now (s : State) (a : Nat) (f : Axis → Axis) : (s.modAxis a f).now = s.now := rfl
@[simp] theorem State.modAxis_free (s : State) (a : Nat) (f : Axis → Axis) : (s.modAxis a f).free = s.free := rfl
@[simp] theorem State.modAxis_out (s : State) (a : Nat) (f : Axis → Axis) : (s.modAxis a f).out = s.out := rfl
@[simp] theorem State.modAxis_time (s : State) (a : Nat) (f : Axis → Axis) : (s.modAxis a f).time = s.time := rfl
@[simp] theorem State.modAxis_pw (s : State) (a : Nat) (f : Axis → Axis) : (s.modAxis a f).pw = s.pw := rfl
@[simp] theorem State.modAxis_nv (s : State) (a : Nat) (f : Axis → Axis) : (s.modAxis a f).nv = s.nv := rfl
@[simp] theorem State.modAxis_regs (s : State) (a : Nat) (f : Axis → Axis) : (s.modAxis a f).regs = s.regs := rfl
@[simp] theorem State.modAxis_host (s : State) (a : Nat) (f : Axis → Axis) : (s.modAxis a f).host = s.host := rfl
@[simp] theorem State.modAxis_pool (s : State) (a : Nat) (f : Axis → Axis) : (s.modAxis a f).pool = s.pool := rfl
@[simp] theorem State.modAxis_axes (s : State) (a : Nat) (f : Axis → Axis) : (s.modAxis a f).axes = SMap.put (Axis.default a) s.axes a (f (s.axis a)) := rfl
@[simp] theorem State.modAxis_cgroups (s : State) (a : Nat) (f : Axis → Axis) : (s.modAxis a f).cgroups = s.cgroups := rfl
@[simp] theorem State.modAxis_igroups (s : State) (a : Nat) (f : Axis → Axis) : (s.modAxis a f).igroups = s.igroups := rfl
@[simp] theorem State.modAxis_cams (s : State) (a : Nat) (f : Axis → Axis) : (s.modAxis a f).cams = s.cams := rfl
@[simp] theorem State.modAxis_posted (s : State) (a : Nat) (f : Axis → Axis) : (s.modAxis a f).posted = s.posted := rfl
@[simp] theorem State.modAxis_evaluated (s : State) (a : Nat) (f : Axis → Axis) : (s.modAxis a f).evaluated = s.evaluated := rfl
@[simp] theorem State.modAxis_samples (s : State) (a : Nat) (f : Axis → Axis) : (s.modAxis a f).samples = s.samples := rfl
@[simp] theorem State.modAxis_segs (s : State) (a : Nat) (f : Axis → Axis) : (s.modAxis a f).segs = s.segs := rfl
@[simp] theorem State.modAxis_fbp (s : State) (a : Nat) (f : Axis → Axis) : (s.modAxis a f).fbp = s.fbp := rfl
@[simp] theorem State.modAxis_lat (s : State) (a : Nat) (f : Axis → Axis) : (s.modAxis a f).lat = s.lat := rfl
@[simp] theorem State.modAxis_pul (s : State) (a : Nat) (f : Axis → Axis) : (s.modAxis a f).pul = s.pul := rfl
@[simp] theorem State.modAxis_adc (s : State) (a : Nat) (f : Axis → Axis) : (s.modAxis a f).adc = s.adc := rfl
@[simp] theorem State.modAxis_an (s : State) (a : Nat) (f : Axis → Axis) : (s.modAxis a f).an = s.an := rfl
@[simp] theorem State.modAxis_tw (s : State) (a : Nat) (f : Axis → Axis) : (s.modAxis a f).tw = s.tw := rfl
@[simp] theorem State.modAxis_asy (s : State) (a : Nat) (f : Axis → Axis) : (s.modAxis a f).asy = s.asy := rfl
@[simp] theorem State.modAxis_saf (s : State) (a : Nat) (f : Axis → Axis) : (s.modAxis a f).saf = s.saf := rfl
@[simp] theorem State.modAxis_sram (s : State) (a : Nat) (f : Axis → Axis) : (s.modAxis a f).sram = s.sram := rfl
@[simp] theorem State.modAxis_tap (s : State) (a : Nat) (f : Axis → Axis) : (s.modAxis a f).tap = s.tap := rfl
@[simp] theorem State.modAxis_tapReset (s : State) (a : Nat) (f : Axis → Axis) : (s.modAxis a f).tapReset = s.tapReset := rfl
@[simp] theorem State.modAxis_seg (s : State) (a : Nat) (f : Axis → Axis) (q : Nat) : (s.modAxis a f).seg q = s.seg q := rfl
@[simp] theorem State.modAxis_ringOf (s : State) (a : Nat) (f : Axis → Axis) (q : Nat) : (s.modAxis a f).ringOf q = s.ringOf q := rfl
@[simp] theorem State.modAxis_hammer (s : State) (a : Nat) (f : Axis → Axis) (q : Nat) : (s.modAxis a f).hammer q = s.hammer q := rfl
@[simp] theorem State.modAxis_src (s : State) (a : Nat) (f : Axis → Axis) (q : Nat) : (s.modAxis a f).src q = s.src q := rfl
@[simp] theorem State.modAxis_force (s : State) (a : Nat) (f : Axis → Axis) (q : Nat) : (s.modAxis a f).force q = s.force q := rfl
@[simp] theorem State.modAxis_stage (s : State) (a : Nat) (f : Axis → Axis) (q : Nat) : (s.modAxis a f).stage q = s.stage q := rfl

/-! ## setSeg -/

@[simp] theorem State.setSeg_pending (s : State) (k : Nat) (x : Segment) : (s.setSeg k x).pending = s.pending := rfl
@[simp] theorem State.setSeg_now (s : State) (k : Nat) (x : Segment) : (s.setSeg k x).now = s.now := rfl
@[simp] theorem State.setSeg_free (s : State) (k : Nat) (x : Segment) : (s.setSeg k x).free = s.free := rfl
@[simp] theorem State.setSeg_out (s : State) (k : Nat) (x : Segment) : (s.setSeg k x).out = s.out := rfl
@[simp] theorem State.setSeg_time (s : State) (k : Nat) (x : Segment) : (s.setSeg k x).time = s.time := rfl
@[simp] theorem State.setSeg_pw (s : State) (k : Nat) (x : Segment) : (s.setSeg k x).pw = s.pw := rfl
@[simp] theorem State.setSeg_nv (s : State) (k : Nat) (x : Segment) : (s.setSeg k x).nv = s.nv := rfl
@[simp] theorem State.setSeg_regs (s : State) (k : Nat) (x : Segment) : (s.setSeg k x).regs = s.regs := rfl
@[simp] theorem State.setSeg_host (s : State) (k : Nat) (x : Segment) : (s.setSeg k x).host = s.host := rfl
@[simp] theorem State.setSeg_pool (s : State) (k : Nat) (x : Segment) : (s.setSeg k x).pool = s.pool := rfl
@[simp] theorem State.setSeg_axes (s : State) (k : Nat) (x : Segment) : (s.setSeg k x).axes = s.axes := rfl
@[simp] theorem State.setSeg_cgroups (s : State) (k : Nat) (x : Segment) : (s.setSeg k x).cgroups = s.cgroups := rfl
@[simp] theorem State.setSeg_igroups (s : State) (k : Nat) (x : Segment) : (s.setSeg k x).igroups = s.igroups := rfl
@[simp] theorem State.setSeg_cams (s : State) (k : Nat) (x : Segment) : (s.setSeg k x).cams = s.cams := rfl
@[simp] theorem State.setSeg_posted (s : State) (k : Nat) (x : Segment) : (s.setSeg k x).posted = s.posted := rfl
@[simp] theorem State.setSeg_evaluated (s : State) (k : Nat) (x : Segment) : (s.setSeg k x).evaluated = s.evaluated := rfl
@[simp] theorem State.setSeg_samples (s : State) (k : Nat) (x : Segment) : (s.setSeg k x).samples = s.samples := rfl
@[simp] theorem State.setSeg_segs (s : State) (k : Nat) (x : Segment) : (s.setSeg k x).segs = SMap.put {} s.segs k x := rfl
@[simp] theorem State.setSeg_fbp (s : State) (k : Nat) (x : Segment) : (s.setSeg k x).fbp = s.fbp := rfl
@[simp] theorem State.setSeg_lat (s : State) (k : Nat) (x : Segment) : (s.setSeg k x).lat = s.lat := rfl
@[simp] theorem State.setSeg_pul (s : State) (k : Nat) (x : Segment) : (s.setSeg k x).pul = s.pul := rfl
@[simp] theorem State.setSeg_adc (s : State) (k : Nat) (x : Segment) : (s.setSeg k x).adc = s.adc := rfl
@[simp] theorem State.setSeg_an (s : State) (k : Nat) (x : Segment) : (s.setSeg k x).an = s.an := rfl
@[simp] theorem State.setSeg_tw (s : State) (k : Nat) (x : Segment) : (s.setSeg k x).tw = s.tw := rfl
@[simp] theorem State.setSeg_asy (s : State) (k : Nat) (x : Segment) : (s.setSeg k x).asy = s.asy := rfl
@[simp] theorem State.setSeg_saf (s : State) (k : Nat) (x : Segment) : (s.setSeg k x).saf = s.saf := rfl
@[simp] theorem State.setSeg_sram (s : State) (k : Nat) (x : Segment) : (s.setSeg k x).sram = s.sram := rfl
@[simp] theorem State.setSeg_tap (s : State) (k : Nat) (x : Segment) : (s.setSeg k x).tap = s.tap := rfl
@[simp] theorem State.setSeg_tapReset (s : State) (k : Nat) (x : Segment) : (s.setSeg k x).tapReset = s.tapReset := rfl
@[simp] theorem State.setSeg_axis (s : State) (k : Nat) (x : Segment) (q : Nat) : (s.setSeg k x).axis q = s.axis q := rfl
@[simp] theorem State.setSeg_ringOf (s : State) (k : Nat) (x : Segment) (q : Nat) : (s.setSeg k x).ringOf q = s.ringOf q := rfl
@[simp] theorem State.setSeg_hammer (s : State) (k : Nat) (x : Segment) (q : Nat) : (s.setSeg k x).hammer q = s.hammer q := rfl
@[simp] theorem State.setSeg_src (s : State) (k : Nat) (x : Segment) (q : Nat) : (s.setSeg k x).src q = s.src q := rfl
@[simp] theorem State.setSeg_force (s : State) (k : Nat) (x : Segment) (q : Nat) : (s.setSeg k x).force q = s.force q := rfl
@[simp] theorem State.setSeg_stage (s : State) (k : Nat) (x : Segment) (q : Nat) : (s.setSeg k x).stage q = s.stage q := rfl

/-! ## modSeg -/

@[simp] theorem State.modSeg_pending (s : State) (k : Nat) (f : Segment → Segment) : (s.modSeg k f).pending = s.pending := rfl
@[simp] theorem State.modSeg_now (s : State) (k : Nat) (f : Segment → Segment) : (s.modSeg k f).now = s.now := rfl
@[simp] theorem State.modSeg_free (s : State) (k : Nat) (f : Segment → Segment) : (s.modSeg k f).free = s.free := rfl
@[simp] theorem State.modSeg_out (s : State) (k : Nat) (f : Segment → Segment) : (s.modSeg k f).out = s.out := rfl
@[simp] theorem State.modSeg_time (s : State) (k : Nat) (f : Segment → Segment) : (s.modSeg k f).time = s.time := rfl
@[simp] theorem State.modSeg_pw (s : State) (k : Nat) (f : Segment → Segment) : (s.modSeg k f).pw = s.pw := rfl
@[simp] theorem State.modSeg_nv (s : State) (k : Nat) (f : Segment → Segment) : (s.modSeg k f).nv = s.nv := rfl
@[simp] theorem State.modSeg_regs (s : State) (k : Nat) (f : Segment → Segment) : (s.modSeg k f).regs = s.regs := rfl
@[simp] theorem State.modSeg_host (s : State) (k : Nat) (f : Segment → Segment) : (s.modSeg k f).host = s.host := rfl
@[simp] theorem State.modSeg_pool (s : State) (k : Nat) (f : Segment → Segment) : (s.modSeg k f).pool = s.pool := rfl
@[simp] theorem State.modSeg_axes (s : State) (k : Nat) (f : Segment → Segment) : (s.modSeg k f).axes = s.axes := rfl
@[simp] theorem State.modSeg_cgroups (s : State) (k : Nat) (f : Segment → Segment) : (s.modSeg k f).cgroups = s.cgroups := rfl
@[simp] theorem State.modSeg_igroups (s : State) (k : Nat) (f : Segment → Segment) : (s.modSeg k f).igroups = s.igroups := rfl
@[simp] theorem State.modSeg_cams (s : State) (k : Nat) (f : Segment → Segment) : (s.modSeg k f).cams = s.cams := rfl
@[simp] theorem State.modSeg_posted (s : State) (k : Nat) (f : Segment → Segment) : (s.modSeg k f).posted = s.posted := rfl
@[simp] theorem State.modSeg_evaluated (s : State) (k : Nat) (f : Segment → Segment) : (s.modSeg k f).evaluated = s.evaluated := rfl
@[simp] theorem State.modSeg_samples (s : State) (k : Nat) (f : Segment → Segment) : (s.modSeg k f).samples = s.samples := rfl
@[simp] theorem State.modSeg_segs (s : State) (k : Nat) (f : Segment → Segment) : (s.modSeg k f).segs = SMap.put {} s.segs k (f (s.seg k)) := rfl
@[simp] theorem State.modSeg_fbp (s : State) (k : Nat) (f : Segment → Segment) : (s.modSeg k f).fbp = s.fbp := rfl
@[simp] theorem State.modSeg_lat (s : State) (k : Nat) (f : Segment → Segment) : (s.modSeg k f).lat = s.lat := rfl
@[simp] theorem State.modSeg_pul (s : State) (k : Nat) (f : Segment → Segment) : (s.modSeg k f).pul = s.pul := rfl
@[simp] theorem State.modSeg_adc (s : State) (k : Nat) (f : Segment → Segment) : (s.modSeg k f).adc = s.adc := rfl
@[simp] theorem State.modSeg_an (s : State) (k : Nat) (f : Segment → Segment) : (s.modSeg k f).an = s.an := rfl
@[simp] theorem State.modSeg_tw (s : State) (k : Nat) (f : Segment → Segment) : (s.modSeg k f).tw = s.tw := rfl
@[simp] theorem State.modSeg_asy (s : State) (k : Nat) (f : Segment → Segment) : (s.modSeg k f).asy = s.asy := rfl
@[simp] theorem State.modSeg_saf (s : State) (k : Nat) (f : Segment → Segment) : (s.modSeg k f).saf = s.saf := rfl
@[simp] theorem State.modSeg_sram (s : State) (k : Nat) (f : Segment → Segment) : (s.modSeg k f).sram = s.sram := rfl
@[simp] theorem State.modSeg_tap (s : State) (k : Nat) (f : Segment → Segment) : (s.modSeg k f).tap = s.tap := rfl
@[simp] theorem State.modSeg_tapReset (s : State) (k : Nat) (f : Segment → Segment) : (s.modSeg k f).tapReset = s.tapReset := rfl
@[simp] theorem State.modSeg_axis (s : State) (k : Nat) (f : Segment → Segment) (q : Nat) : (s.modSeg k f).axis q = s.axis q := rfl
@[simp] theorem State.modSeg_ringOf (s : State) (k : Nat) (f : Segment → Segment) (q : Nat) : (s.modSeg k f).ringOf q = s.ringOf q := rfl
@[simp] theorem State.modSeg_hammer (s : State) (k : Nat) (f : Segment → Segment) (q : Nat) : (s.modSeg k f).hammer q = s.hammer q := rfl
@[simp] theorem State.modSeg_src (s : State) (k : Nat) (f : Segment → Segment) (q : Nat) : (s.modSeg k f).src q = s.src q := rfl
@[simp] theorem State.modSeg_force (s : State) (k : Nat) (f : Segment → Segment) (q : Nat) : (s.modSeg k f).force q = s.force q := rfl
@[simp] theorem State.modSeg_stage (s : State) (k : Nat) (f : Segment → Segment) (q : Nat) : (s.modSeg k f).stage q = s.stage q := rfl

/-! ## modNode -/

@[simp] theorem State.modNode_pending (s : State) (k j : Nat) (f : Node → Node) : (s.modNode k j f).pending = s.pending := rfl
@[simp] theorem State.modNode_now (s : State) (k j : Nat) (f : Node → Node) : (s.modNode k j f).now = s.now := rfl
@[simp] theorem State.modNode_free (s : State) (k j : Nat) (f : Node → Node) : (s.modNode k j f).free = s.free := rfl
@[simp] theorem State.modNode_out (s : State) (k j : Nat) (f : Node → Node) : (s.modNode k j f).out = s.out := rfl
@[simp] theorem State.modNode_time (s : State) (k j : Nat) (f : Node → Node) : (s.modNode k j f).time = s.time := rfl
@[simp] theorem State.modNode_pw (s : State) (k j : Nat) (f : Node → Node) : (s.modNode k j f).pw = s.pw := rfl
@[simp] theorem State.modNode_nv (s : State) (k j : Nat) (f : Node → Node) : (s.modNode k j f).nv = s.nv := rfl
@[simp] theorem State.modNode_regs (s : State) (k j : Nat) (f : Node → Node) : (s.modNode k j f).regs = s.regs := rfl
@[simp] theorem State.modNode_host (s : State) (k j : Nat) (f : Node → Node) : (s.modNode k j f).host = s.host := rfl
@[simp] theorem State.modNode_pool (s : State) (k j : Nat) (f : Node → Node) : (s.modNode k j f).pool = s.pool := rfl
@[simp] theorem State.modNode_axes (s : State) (k j : Nat) (f : Node → Node) : (s.modNode k j f).axes = s.axes := rfl
@[simp] theorem State.modNode_cgroups (s : State) (k j : Nat) (f : Node → Node) : (s.modNode k j f).cgroups = s.cgroups := rfl
@[simp] theorem State.modNode_igroups (s : State) (k j : Nat) (f : Node → Node) : (s.modNode k j f).igroups = s.igroups := rfl
@[simp] theorem State.modNode_cams (s : State) (k j : Nat) (f : Node → Node) : (s.modNode k j f).cams = s.cams := rfl
@[simp] theorem State.modNode_posted (s : State) (k j : Nat) (f : Node → Node) : (s.modNode k j f).posted = s.posted := rfl
@[simp] theorem State.modNode_evaluated (s : State) (k j : Nat) (f : Node → Node) : (s.modNode k j f).evaluated = s.evaluated := rfl
@[simp] theorem State.modNode_samples (s : State) (k j : Nat) (f : Node → Node) : (s.modNode k j f).samples = s.samples := rfl
@[simp] theorem State.modNode_fbp (s : State) (k j : Nat) (f : Node → Node) : (s.modNode k j f).fbp = s.fbp := rfl
@[simp] theorem State.modNode_lat (s : State) (k j : Nat) (f : Node → Node) : (s.modNode k j f).lat = s.lat := rfl
@[simp] theorem State.modNode_pul (s : State) (k j : Nat) (f : Node → Node) : (s.modNode k j f).pul = s.pul := rfl
@[simp] theorem State.modNode_adc (s : State) (k j : Nat) (f : Node → Node) : (s.modNode k j f).adc = s.adc := rfl
@[simp] theorem State.modNode_an (s : State) (k j : Nat) (f : Node → Node) : (s.modNode k j f).an = s.an := rfl
@[simp] theorem State.modNode_tw (s : State) (k j : Nat) (f : Node → Node) : (s.modNode k j f).tw = s.tw := rfl
@[simp] theorem State.modNode_asy (s : State) (k j : Nat) (f : Node → Node) : (s.modNode k j f).asy = s.asy := rfl
@[simp] theorem State.modNode_saf (s : State) (k j : Nat) (f : Node → Node) : (s.modNode k j f).saf = s.saf := rfl
@[simp] theorem State.modNode_sram (s : State) (k j : Nat) (f : Node → Node) : (s.modNode k j f).sram = s.sram := rfl
@[simp] theorem State.modNode_tap (s : State) (k j : Nat) (f : Node → Node) : (s.modNode k j f).tap = s.tap := rfl
@[simp] theorem State.modNode_tapReset (s : State) (k j : Nat) (f : Node → Node) : (s.modNode k j f).tapReset = s.tapReset := rfl
@[simp] theorem State.modNode_axis (s : State) (k j : Nat) (f : Node → Node) (q : Nat) : (s.modNode k j f).axis q = s.axis q := rfl
@[simp] theorem State.modNode_ringOf (s : State) (k j : Nat) (f : Node → Node) (q : Nat) : (s.modNode k j f).ringOf q = s.ringOf q := rfl
@[simp] theorem State.modNode_hammer (s : State) (k j : Nat) (f : Node → Node) (q : Nat) : (s.modNode k j f).hammer q = s.hammer q := rfl
@[simp] theorem State.modNode_src (s : State) (k j : Nat) (f : Node → Node) (q : Nat) : (s.modNode k j f).src q = s.src q := rfl
@[simp] theorem State.modNode_force (s : State) (k j : Nat) (f : Node → Node) (q : Nat) : (s.modNode k j f).force q = s.force q := rfl
@[simp] theorem State.modNode_stage (s : State) (k j : Nat) (f : Node → Node) (q : Nat) : (s.modNode k j f).stage q = s.stage q := rfl

/-! ## modRing -/

@[simp] theorem State.modRing_pending (s : State) (r : Nat) (f : Ring → Ring) : (s.modRing r f).pending = s.pending := rfl
@[simp] theorem State.modRing_now (s : State) (r : Nat) (f : Ring → Ring) : (s.modRing r f).now = s.now := rfl
@[simp] theorem State.modRing_free (s : State) (r : Nat) (f : Ring → Ring) : (s.modRing r f).free = s.free := rfl
@[simp] theorem State.modRing_out (s : State) (r : Nat) (f : Ring → Ring) : (s.modRing r f).out = s.out := rfl
@[simp] theorem State.modRing_time (s : State) (r : Nat) (f : Ring → Ring) : (s.modRing r f).time = s.time := rfl
@[simp] theorem State.modRing_pw (s : State) (r : Nat) (f : Ring → Ring) : (s.modRing r f).pw = s.pw := rfl
@[simp] theorem State.modRing_nv (s : State) (r : Nat) (f : Ring → Ring) : (s.modRing r f).nv = s.nv := rfl
@[simp] theorem State.modRing_regs (s : State) (r : Nat) (f : Ring → Ring) : (s.modRing r f).regs = s.regs := rfl
@[simp] theorem State.modRing_host (s : State) (r : Nat) (f : Ring → Ring) : (s.modRing r f).host = { s.host with rings := SMap.put {} s.host.rings r (f (s.ringOf r)) } := rfl
@[simp] theorem State.modRing_pool (s : State) (r : Nat) (f : Ring → Ring) : (s.modRing r f).pool = s.pool := rfl
@[simp] theorem State.modRing_axes (s : State) (r : Nat) (f : Ring → Ring) : (s.modRing r f).axes = s.axes := rfl
@[simp] theorem State.modRing_cgroups (s : State) (r : Nat) (f : Ring → Ring) : (s.modRing r f).cgroups = s.cgroups := rfl
@[simp] theorem State.modRing_igroups (s : State) (r : Nat) (f : Ring → Ring) : (s.modRing r f).igroups = s.igroups := rfl
@[simp] theorem State.modRing_cams (s : State) (r : Nat) (f : Ring → Ring) : (s.modRing r f).cams = s.cams := rfl
@[simp] theorem State.modRing_posted (s : State) (r : Nat) (f : Ring → Ring) : (s.modRing r f).posted = s.posted := rfl
@[simp] theorem State.modRing_evaluated (s : State) (r : Nat) (f : Ring → Ring) : (s.modRing r f).evaluated = s.evaluated := rfl
@[simp] theorem State.modRing_samples (s : State) (r : Nat) (f : Ring → Ring) : (s.modRing r f).samples = s.samples := rfl
@[simp] theorem State.modRing_segs (s : State) (r : Nat) (f : Ring → Ring) : (s.modRing r f).segs = s.segs := rfl
@[simp] theorem State.modRing_fbp (s : State) (r : Nat) (f : Ring → Ring) : (s.modRing r f).fbp = s.fbp := rfl
@[simp] theorem State.modRing_lat (s : State) (r : Nat) (f : Ring → Ring) : (s.modRing r f).lat = s.lat := rfl
@[simp] theorem State.modRing_pul (s : State) (r : Nat) (f : Ring → Ring) : (s.modRing r f).pul = s.pul := rfl
@[simp] theorem State.modRing_adc (s : State) (r : Nat) (f : Ring → Ring) : (s.modRing r f).adc = s.adc := rfl
@[simp] theorem State.modRing_an (s : State) (r : Nat) (f : Ring → Ring) : (s.modRing r f).an = s.an := rfl
@[simp] theorem State.modRing_tw (s : State) (r : Nat) (f : Ring → Ring) : (s.modRing r f).tw = s.tw := rfl
@[simp] theorem State.modRing_asy (s : State) (r : Nat) (f : Ring → Ring) : (s.modRing r f).asy = s.asy := rfl
@[simp] theorem State.modRing_saf (s : State) (r : Nat) (f : Ring → Ring) : (s.modRing r f).saf = s.saf := rfl
@[simp] theorem State.modRing_sram (s : State) (r : Nat) (f : Ring → Ring) : (s.modRing r f).sram = s.sram := rfl
@[simp] theorem State.modRing_tap (s : State) (r : Nat) (f : Ring → Ring) : (s.modRing r f).tap = s.tap := rfl
@[simp] theorem State.modRing_tapReset (s : State) (r : Nat) (f : Ring → Ring) : (s.modRing r f).tapReset = s.tapReset := rfl
@[simp] theorem State.modRing_axis (s : State) (r : Nat) (f : Ring → Ring) (q : Nat) : (s.modRing r f).axis q = s.axis q := rfl
@[simp] theorem State.modRing_seg (s : State) (r : Nat) (f : Ring → Ring) (q : Nat) : (s.modRing r f).seg q = s.seg q := rfl
@[simp] theorem State.modRing_hammer (s : State) (r : Nat) (f : Ring → Ring) (q : Nat) : (s.modRing r f).hammer q = s.hammer q := rfl
@[simp] theorem State.modRing_src (s : State) (r : Nat) (f : Ring → Ring) (q : Nat) : (s.modRing r f).src q = s.src q := rfl
@[simp] theorem State.modRing_force (s : State) (r : Nat) (f : Ring → Ring) (q : Nat) : (s.modRing r f).force q = s.force q := rfl
@[simp] theorem State.modRing_stage (s : State) (r : Nat) (f : Ring → Ring) (q : Nat) : (s.modRing r f).stage q = s.stage q := rfl

/-! ## modHammer -/

@[simp] theorem State.modHammer_pending (s : State) (h : Nat) (f : Hammer → Hammer) : (s.modHammer h f).pending = s.pending := rfl
@[simp] theorem State.modHammer_now (s : State) (h : Nat) (f : Hammer → Hammer) : (s.modHammer h f).now = s.now := rfl
@[simp] theorem State.modHammer_free (s : State) (h : Nat) (f : Hammer → Hammer) : (s.modHammer h f).free = s.free := rfl
@[simp] theorem State.modHammer_out (s : State) (h : Nat) (f : Hammer → Hammer) : (s.modHammer h f).out = s.out := rfl
@[simp] theorem State.modHammer_time (s : State) (h : Nat) (f : Hammer → Hammer) : (s.modHammer h f).time = s.time := rfl
@[simp] theorem State.modHammer_pw (s : State) (h : Nat) (f : Hammer → Hammer) : (s.modHammer h f).pw = s.pw := rfl
@[simp] theorem State.modHammer_nv (s : State) (h : Nat) (f : Hammer → Hammer) : (s.modHammer h f).nv = s.nv := rfl
@[simp] theorem State.modHammer_regs (s : State) (h : Nat) (f : Hammer → Hammer) : (s.modHammer h f).regs = s.regs := rfl
@[simp] theorem State.modHammer_host (s : State) (h : Nat) (f : Hammer → Hammer) : (s.modHammer h f).host = s.host := rfl
@[simp] theorem State.modHammer_pool (s : State) (h : Nat) (f : Hammer → Hammer) : (s.modHammer h f).pool = { s.pool with hammers := SMap.put {} s.pool.hammers h (f (s.hammer h)) } := rfl
@[simp] theorem State.modHammer_axes (s : State) (h : Nat) (f : Hammer → Hammer) : (s.modHammer h f).axes = s.axes := rfl
@[simp] theorem State.modHammer_cgroups (s : State) (h : Nat) (f : Hammer → Hammer) : (s.modHammer h f).cgroups = s.cgroups := rfl
@[simp] theorem State.modHammer_igroups (s : State) (h : Nat) (f : Hammer → Hammer) : (s.modHammer h f).igroups = s.igroups := rfl
@[simp] theorem State.modHammer_cams (s : State) (h : Nat) (f : Hammer → Hammer) : (s.modHammer h f).cams = s.cams := rfl
@[simp] theorem State.modHammer_posted (s : State) (h : Nat) (f : Hammer → Hammer) : (s.modHammer h f).posted = s.posted := rfl
@[simp] theorem State.modHammer_evaluated (s : State) (h : Nat) (f : Hammer → Hammer) : (s.modHammer h f).evaluated = s.evaluated := rfl
@[simp] theorem State.modHammer_samples (s : State) (h : Nat) (f : Hammer → Hammer) : (s.modHammer h f).samples = s.samples := rfl
@[simp] theorem State.modHammer_segs (s : State) (h : Nat) (f : Hammer → Hammer) : (s.modHammer h f).segs = s.segs := rfl
@[simp] theorem State.modHammer_fbp (s : State) (h : Nat) (f : Hammer → Hammer) : (s.modHammer h f).fbp = s.fbp := rfl
@[simp] theorem State.modHammer_lat (s : State) (h : Nat) (f : Hammer → Hammer) : (s.modHammer h f).lat = s.lat := rfl
@[simp] theorem State.modHammer_pul (s : State) (h : Nat) (f : Hammer → Hammer) : (s.modHammer h f).pul = s.pul := rfl
@[simp] theorem State.modHammer_adc (s : State) (h : Nat) (f : Hammer → Hammer) : (s.modHammer h f).adc = s.adc := rfl
@[simp] theorem State.modHammer_an (s : State) (h : Nat) (f : Hammer → Hammer) : (s.modHammer h f).an = s.an := rfl
@[simp] theorem State.modHammer_tw (s : State) (h : Nat) (f : Hammer → Hammer) : (s.modHammer h f).tw = s.tw := rfl
@[simp] theorem State.modHammer_asy (s : State) (h : Nat) (f : Hammer → Hammer) : (s.modHammer h f).asy = s.asy := rfl
@[simp] theorem State.modHammer_saf (s : State) (h : Nat) (f : Hammer → Hammer) : (s.modHammer h f).saf = s.saf := rfl
@[simp] theorem State.modHammer_sram (s : State) (h : Nat) (f : Hammer → Hammer) : (s.modHammer h f).sram = s.sram := rfl
@[simp] theorem State.modHammer_tap (s : State) (h : Nat) (f : Hammer → Hammer) : (s.modHammer h f).tap = s.tap := rfl
@[simp] theorem State.modHammer_tapReset (s : State) (h : Nat) (f : Hammer → Hammer) : (s.modHammer h f).tapReset = s.tapReset := rfl
@[simp] theorem State.modHammer_axis (s : State) (h : Nat) (f : Hammer → Hammer) (q : Nat) : (s.modHammer h f).axis q = s.axis q := rfl
@[simp] theorem State.modHammer_seg (s : State) (h : Nat) (f : Hammer → Hammer) (q : Nat) : (s.modHammer h f).seg q = s.seg q := rfl
@[simp] theorem State.modHammer_ringOf (s : State) (h : Nat) (f : Hammer → Hammer) (q : Nat) : (s.modHammer h f).ringOf q = s.ringOf q := rfl
@[simp] theorem State.modHammer_src (s : State) (h : Nat) (f : Hammer → Hammer) (q : Nat) : (s.modHammer h f).src q = s.src q := rfl
@[simp] theorem State.modHammer_force (s : State) (h : Nat) (f : Hammer → Hammer) (q : Nat) : (s.modHammer h f).force q = s.force q := rfl
@[simp] theorem State.modHammer_stage (s : State) (h : Nat) (f : Hammer → Hammer) (q : Nat) : (s.modHammer h f).stage q = s.stage q := rfl

/-! ## modPort -/

@[simp] theorem State.modPort_pending (s : State) (p : Nat) (f : FbPort → FbPort) : (s.modPort p f).pending = s.pending := rfl
@[simp] theorem State.modPort_now (s : State) (p : Nat) (f : FbPort → FbPort) : (s.modPort p f).now = s.now := rfl
@[simp] theorem State.modPort_free (s : State) (p : Nat) (f : FbPort → FbPort) : (s.modPort p f).free = s.free := rfl
@[simp] theorem State.modPort_out (s : State) (p : Nat) (f : FbPort → FbPort) : (s.modPort p f).out = s.out := rfl
@[simp] theorem State.modPort_time (s : State) (p : Nat) (f : FbPort → FbPort) : (s.modPort p f).time = s.time := rfl
@[simp] theorem State.modPort_pw (s : State) (p : Nat) (f : FbPort → FbPort) : (s.modPort p f).pw = s.pw := rfl
@[simp] theorem State.modPort_nv (s : State) (p : Nat) (f : FbPort → FbPort) : (s.modPort p f).nv = s.nv := rfl
@[simp] theorem State.modPort_regs (s : State) (p : Nat) (f : FbPort → FbPort) : (s.modPort p f).regs = s.regs := rfl
@[simp] theorem State.modPort_host (s : State) (p : Nat) (f : FbPort → FbPort) : (s.modPort p f).host = s.host := rfl
@[simp] theorem State.modPort_pool (s : State) (p : Nat) (f : FbPort → FbPort) : (s.modPort p f).pool = s.pool := rfl
@[simp] theorem State.modPort_axes (s : State) (p : Nat) (f : FbPort → FbPort) : (s.modPort p f).axes = s.axes := rfl
@[simp] theorem State.modPort_cgroups (s : State) (p : Nat) (f : FbPort → FbPort) : (s.modPort p f).cgroups = s.cgroups := rfl
@[simp] theorem State.modPort_igroups (s : State) (p : Nat) (f : FbPort → FbPort) : (s.modPort p f).igroups = s.igroups := rfl
@[simp] theorem State.modPort_cams (s : State) (p : Nat) (f : FbPort → FbPort) : (s.modPort p f).cams = s.cams := rfl
@[simp] theorem State.modPort_posted (s : State) (p : Nat) (f : FbPort → FbPort) : (s.modPort p f).posted = s.posted := rfl
@[simp] theorem State.modPort_evaluated (s : State) (p : Nat) (f : FbPort → FbPort) : (s.modPort p f).evaluated = s.evaluated := rfl
@[simp] theorem State.modPort_samples (s : State) (p : Nat) (f : FbPort → FbPort) : (s.modPort p f).samples = s.samples := rfl
@[simp] theorem State.modPort_segs (s : State) (p : Nat) (f : FbPort → FbPort) : (s.modPort p f).segs = s.segs := rfl
@[simp] theorem State.modPort_fbp (s : State) (p : Nat) (f : FbPort → FbPort) : (s.modPort p f).fbp = SMap.put {} s.fbp p (f (s.port p)) := rfl
@[simp] theorem State.modPort_lat (s : State) (p : Nat) (f : FbPort → FbPort) : (s.modPort p f).lat = s.lat := rfl
@[simp] theorem State.modPort_pul (s : State) (p : Nat) (f : FbPort → FbPort) : (s.modPort p f).pul = s.pul := rfl
@[simp] theorem State.modPort_adc (s : State) (p : Nat) (f : FbPort → FbPort) : (s.modPort p f).adc = s.adc := rfl
@[simp] theorem State.modPort_an (s : State) (p : Nat) (f : FbPort → FbPort) : (s.modPort p f).an = s.an := rfl
@[simp] theorem State.modPort_tw (s : State) (p : Nat) (f : FbPort → FbPort) : (s.modPort p f).tw = s.tw := rfl
@[simp] theorem State.modPort_asy (s : State) (p : Nat) (f : FbPort → FbPort) : (s.modPort p f).asy = s.asy := rfl
@[simp] theorem State.modPort_saf (s : State) (p : Nat) (f : FbPort → FbPort) : (s.modPort p f).saf = s.saf := rfl
@[simp] theorem State.modPort_sram (s : State) (p : Nat) (f : FbPort → FbPort) : (s.modPort p f).sram = s.sram := rfl
@[simp] theorem State.modPort_tap (s : State) (p : Nat) (f : FbPort → FbPort) : (s.modPort p f).tap = s.tap := rfl
@[simp] theorem State.modPort_tapReset (s : State) (p : Nat) (f : FbPort → FbPort) : (s.modPort p f).tapReset = s.tapReset := rfl
@[simp] theorem State.modPort_axis (s : State) (p : Nat) (f : FbPort → FbPort) (q : Nat) : (s.modPort p f).axis q = s.axis q := rfl
@[simp] theorem State.modPort_seg (s : State) (p : Nat) (f : FbPort → FbPort) (q : Nat) : (s.modPort p f).seg q = s.seg q := rfl
@[simp] theorem State.modPort_ringOf (s : State) (p : Nat) (f : FbPort → FbPort) (q : Nat) : (s.modPort p f).ringOf q = s.ringOf q := rfl
@[simp] theorem State.modPort_hammer (s : State) (p : Nat) (f : FbPort → FbPort) (q : Nat) : (s.modPort p f).hammer q = s.hammer q := rfl
@[simp] theorem State.modPort_src (s : State) (p : Nat) (f : FbPort → FbPort) (q : Nat) : (s.modPort p f).src q = s.src q := rfl
@[simp] theorem State.modPort_force (s : State) (p : Nat) (f : FbPort → FbPort) (q : Nat) : (s.modPort p f).force q = s.force q := rfl
@[simp] theorem State.modPort_stage (s : State) (p : Nat) (f : FbPort → FbPort) (q : Nat) : (s.modPort p f).stage q = s.stage q := rfl

/-! ## modLatch -/

@[simp] theorem State.modLatch_pending (s : State) (n : Nat) (f : Latch → Latch) : (s.modLatch n f).pending = s.pending := rfl
@[simp] theorem State.modLatch_now (s : State) (n : Nat) (f : Latch → Latch) : (s.modLatch n f).now = s.now := rfl
@[simp] theorem State.modLatch_free (s : State) (n : Nat) (f : Latch → Latch) : (s.modLatch n f).free = s.free := rfl
@[simp] theorem State.modLatch_out (s : State) (n : Nat) (f : Latch → Latch) : (s.modLatch n f).out = s.out := rfl
@[simp] theorem State.modLatch_time (s : State) (n : Nat) (f : Latch → Latch) : (s.modLatch n f).time = s.time := rfl
@[simp] theorem State.modLatch_pw (s : State) (n : Nat) (f : Latch → Latch) : (s.modLatch n f).pw = s.pw := rfl
@[simp] theorem State.modLatch_nv (s : State) (n : Nat) (f : Latch → Latch) : (s.modLatch n f).nv = s.nv := rfl
@[simp] theorem State.modLatch_regs (s : State) (n : Nat) (f : Latch → Latch) : (s.modLatch n f).regs = s.regs := rfl
@[simp] theorem State.modLatch_host (s : State) (n : Nat) (f : Latch → Latch) : (s.modLatch n f).host = s.host := rfl
@[simp] theorem State.modLatch_pool (s : State) (n : Nat) (f : Latch → Latch) : (s.modLatch n f).pool = s.pool := rfl
@[simp] theorem State.modLatch_axes (s : State) (n : Nat) (f : Latch → Latch) : (s.modLatch n f).axes = s.axes := rfl
@[simp] theorem State.modLatch_cgroups (s : State) (n : Nat) (f : Latch → Latch) : (s.modLatch n f).cgroups = s.cgroups := rfl
@[simp] theorem State.modLatch_igroups (s : State) (n : Nat) (f : Latch → Latch) : (s.modLatch n f).igroups = s.igroups := rfl
@[simp] theorem State.modLatch_cams (s : State) (n : Nat) (f : Latch → Latch) : (s.modLatch n f).cams = s.cams := rfl
@[simp] theorem State.modLatch_posted (s : State) (n : Nat) (f : Latch → Latch) : (s.modLatch n f).posted = s.posted := rfl
@[simp] theorem State.modLatch_evaluated (s : State) (n : Nat) (f : Latch → Latch) : (s.modLatch n f).evaluated = s.evaluated := rfl
@[simp] theorem State.modLatch_samples (s : State) (n : Nat) (f : Latch → Latch) : (s.modLatch n f).samples = s.samples := rfl
@[simp] theorem State.modLatch_segs (s : State) (n : Nat) (f : Latch → Latch) : (s.modLatch n f).segs = s.segs := rfl
@[simp] theorem State.modLatch_fbp (s : State) (n : Nat) (f : Latch → Latch) : (s.modLatch n f).fbp = s.fbp := rfl
@[simp] theorem State.modLatch_lat (s : State) (n : Nat) (f : Latch → Latch) : (s.modLatch n f).lat = SMap.put {} s.lat n (f (s.latch n)) := rfl
@[simp] theorem State.modLatch_pul (s : State) (n : Nat) (f : Latch → Latch) : (s.modLatch n f).pul = s.pul := rfl
@[simp] theorem State.modLatch_adc (s : State) (n : Nat) (f : Latch → Latch) : (s.modLatch n f).adc = s.adc := rfl
@[simp] theorem State.modLatch_an (s : State) (n : Nat) (f : Latch → Latch) : (s.modLatch n f).an = s.an := rfl
@[simp] theorem State.modLatch_tw (s : State) (n : Nat) (f : Latch → Latch) : (s.modLatch n f).tw = s.tw := rfl
@[simp] theorem State.modLatch_asy (s : State) (n : Nat) (f : Latch → Latch) : (s.modLatch n f).asy = s.asy := rfl
@[simp] theorem State.modLatch_saf (s : State) (n : Nat) (f : Latch → Latch) : (s.modLatch n f).saf = s.saf := rfl
@[simp] theorem State.modLatch_sram (s : State) (n : Nat) (f : Latch → Latch) : (s.modLatch n f).sram = s.sram := rfl
@[simp] theorem State.modLatch_tap (s : State) (n : Nat) (f : Latch → Latch) : (s.modLatch n f).tap = s.tap := rfl
@[simp] theorem State.modLatch_tapReset (s : State) (n : Nat) (f : Latch → Latch) : (s.modLatch n f).tapReset = s.tapReset := rfl
@[simp] theorem State.modLatch_axis (s : State) (n : Nat) (f : Latch → Latch) (q : Nat) : (s.modLatch n f).axis q = s.axis q := rfl
@[simp] theorem State.modLatch_seg (s : State) (n : Nat) (f : Latch → Latch) (q : Nat) : (s.modLatch n f).seg q = s.seg q := rfl
@[simp] theorem State.modLatch_ringOf (s : State) (n : Nat) (f : Latch → Latch) (q : Nat) : (s.modLatch n f).ringOf q = s.ringOf q := rfl
@[simp] theorem State.modLatch_hammer (s : State) (n : Nat) (f : Latch → Latch) (q : Nat) : (s.modLatch n f).hammer q = s.hammer q := rfl
@[simp] theorem State.modLatch_src (s : State) (n : Nat) (f : Latch → Latch) (q : Nat) : (s.modLatch n f).src q = s.src q := rfl
@[simp] theorem State.modLatch_force (s : State) (n : Nat) (f : Latch → Latch) (q : Nat) : (s.modLatch n f).force q = s.force q := rfl
@[simp] theorem State.modLatch_stage (s : State) (n : Nat) (f : Latch → Latch) (q : Nat) : (s.modLatch n f).stage q = s.stage q := rfl

/-! ## modStep -/

@[simp] theorem State.modStep_pending (s : State) (c : Nat) (f : StepCh → StepCh) : (s.modStep c f).pending = s.pending := rfl
@[simp] theorem State.modStep_now (s : State) (c : Nat) (f : StepCh → StepCh) : (s.modStep c f).now = s.now := rfl
@[simp] theorem State.modStep_free (s : State) (c : Nat) (f : StepCh → StepCh) : (s.modStep c f).free = s.free := rfl
@[simp] theorem State.modStep_out (s : State) (c : Nat) (f : StepCh → StepCh) : (s.modStep c f).out = s.out := rfl
@[simp] theorem State.modStep_time (s : State) (c : Nat) (f : StepCh → StepCh) : (s.modStep c f).time = s.time := rfl
@[simp] theorem State.modStep_pw (s : State) (c : Nat) (f : StepCh → StepCh) : (s.modStep c f).pw = s.pw := rfl
@[simp] theorem State.modStep_nv (s : State) (c : Nat) (f : StepCh → StepCh) : (s.modStep c f).nv = s.nv := rfl
@[simp] theorem State.modStep_regs (s : State) (c : Nat) (f : StepCh → StepCh) : (s.modStep c f).regs = s.regs := rfl
@[simp] theorem State.modStep_host (s : State) (c : Nat) (f : StepCh → StepCh) : (s.modStep c f).host = s.host := rfl
@[simp] theorem State.modStep_pool (s : State) (c : Nat) (f : StepCh → StepCh) : (s.modStep c f).pool = s.pool := rfl
@[simp] theorem State.modStep_axes (s : State) (c : Nat) (f : StepCh → StepCh) : (s.modStep c f).axes = s.axes := rfl
@[simp] theorem State.modStep_cgroups (s : State) (c : Nat) (f : StepCh → StepCh) : (s.modStep c f).cgroups = s.cgroups := rfl
@[simp] theorem State.modStep_igroups (s : State) (c : Nat) (f : StepCh → StepCh) : (s.modStep c f).igroups = s.igroups := rfl
@[simp] theorem State.modStep_cams (s : State) (c : Nat) (f : StepCh → StepCh) : (s.modStep c f).cams = s.cams := rfl
@[simp] theorem State.modStep_posted (s : State) (c : Nat) (f : StepCh → StepCh) : (s.modStep c f).posted = s.posted := rfl
@[simp] theorem State.modStep_evaluated (s : State) (c : Nat) (f : StepCh → StepCh) : (s.modStep c f).evaluated = s.evaluated := rfl
@[simp] theorem State.modStep_samples (s : State) (c : Nat) (f : StepCh → StepCh) : (s.modStep c f).samples = s.samples := rfl
@[simp] theorem State.modStep_segs (s : State) (c : Nat) (f : StepCh → StepCh) : (s.modStep c f).segs = s.segs := rfl
@[simp] theorem State.modStep_fbp (s : State) (c : Nat) (f : StepCh → StepCh) : (s.modStep c f).fbp = s.fbp := rfl
@[simp] theorem State.modStep_lat (s : State) (c : Nat) (f : StepCh → StepCh) : (s.modStep c f).lat = s.lat := rfl
@[simp] theorem State.modStep_pul (s : State) (c : Nat) (f : StepCh → StepCh) : (s.modStep c f).pul = SMap.put {} s.pul c (f (s.stepCh c)) := rfl
@[simp] theorem State.modStep_adc (s : State) (c : Nat) (f : StepCh → StepCh) : (s.modStep c f).adc = s.adc := rfl
@[simp] theorem State.modStep_an (s : State) (c : Nat) (f : StepCh → StepCh) : (s.modStep c f).an = s.an := rfl
@[simp] theorem State.modStep_tw (s : State) (c : Nat) (f : StepCh → StepCh) : (s.modStep c f).tw = s.tw := rfl
@[simp] theorem State.modStep_asy (s : State) (c : Nat) (f : StepCh → StepCh) : (s.modStep c f).asy = s.asy := rfl
@[simp] theorem State.modStep_saf (s : State) (c : Nat) (f : StepCh → StepCh) : (s.modStep c f).saf = s.saf := rfl
@[simp] theorem State.modStep_sram (s : State) (c : Nat) (f : StepCh → StepCh) : (s.modStep c f).sram = s.sram := rfl
@[simp] theorem State.modStep_tap (s : State) (c : Nat) (f : StepCh → StepCh) : (s.modStep c f).tap = s.tap := rfl
@[simp] theorem State.modStep_tapReset (s : State) (c : Nat) (f : StepCh → StepCh) : (s.modStep c f).tapReset = s.tapReset := rfl
@[simp] theorem State.modStep_axis (s : State) (c : Nat) (f : StepCh → StepCh) (q : Nat) : (s.modStep c f).axis q = s.axis q := rfl
@[simp] theorem State.modStep_seg (s : State) (c : Nat) (f : StepCh → StepCh) (q : Nat) : (s.modStep c f).seg q = s.seg q := rfl
@[simp] theorem State.modStep_ringOf (s : State) (c : Nat) (f : StepCh → StepCh) (q : Nat) : (s.modStep c f).ringOf q = s.ringOf q := rfl
@[simp] theorem State.modStep_hammer (s : State) (c : Nat) (f : StepCh → StepCh) (q : Nat) : (s.modStep c f).hammer q = s.hammer q := rfl
@[simp] theorem State.modStep_src (s : State) (c : Nat) (f : StepCh → StepCh) (q : Nat) : (s.modStep c f).src q = s.src q := rfl
@[simp] theorem State.modStep_force (s : State) (c : Nat) (f : StepCh → StepCh) (q : Nat) : (s.modStep c f).force q = s.force q := rfl
@[simp] theorem State.modStep_stage (s : State) (c : Nat) (f : StepCh → StepCh) (q : Nat) : (s.modStep c f).stage q = s.stage q := rfl

/-! ## modConv -/

@[simp] theorem State.modConv_pending (s : State) (c : Nat) (f : Conv → Conv) : (s.modConv c f).pending = s.pending := rfl
@[simp] theorem State.modConv_now (s : State) (c : Nat) (f : Conv → Conv) : (s.modConv c f).now = s.now := rfl
@[simp] theorem State.modConv_free (s : State) (c : Nat) (f : Conv → Conv) : (s.modConv c f).free = s.free := rfl
@[simp] theorem State.modConv_out (s : State) (c : Nat) (f : Conv → Conv) : (s.modConv c f).out = s.out := rfl
@[simp] theorem State.modConv_time (s : State) (c : Nat) (f : Conv → Conv) : (s.modConv c f).time = s.time := rfl
@[simp] theorem State.modConv_pw (s : State) (c : Nat) (f : Conv → Conv) : (s.modConv c f).pw = s.pw := rfl
@[simp] theorem State.modConv_nv (s : State) (c : Nat) (f : Conv → Conv) : (s.modConv c f).nv = s.nv := rfl
@[simp] theorem State.modConv_regs (s : State) (c : Nat) (f : Conv → Conv) : (s.modConv c f).regs = s.regs := rfl
@[simp] theorem State.modConv_host (s : State) (c : Nat) (f : Conv → Conv) : (s.modConv c f).host = s.host := rfl
@[simp] theorem State.modConv_pool (s : State) (c : Nat) (f : Conv → Conv) : (s.modConv c f).pool = s.pool := rfl
@[simp] theorem State.modConv_axes (s : State) (c : Nat) (f : Conv → Conv) : (s.modConv c f).axes = s.axes := rfl
@[simp] theorem State.modConv_cgroups (s : State) (c : Nat) (f : Conv → Conv) : (s.modConv c f).cgroups = s.cgroups := rfl
@[simp] theorem State.modConv_igroups (s : State) (c : Nat) (f : Conv → Conv) : (s.modConv c f).igroups = s.igroups := rfl
@[simp] theorem State.modConv_cams (s : State) (c : Nat) (f : Conv → Conv) : (s.modConv c f).cams = s.cams := rfl
@[simp] theorem State.modConv_posted (s : State) (c : Nat) (f : Conv → Conv) : (s.modConv c f).posted = s.posted := rfl
@[simp] theorem State.modConv_evaluated (s : State) (c : Nat) (f : Conv → Conv) : (s.modConv c f).evaluated = s.evaluated := rfl
@[simp] theorem State.modConv_samples (s : State) (c : Nat) (f : Conv → Conv) : (s.modConv c f).samples = s.samples := rfl
@[simp] theorem State.modConv_segs (s : State) (c : Nat) (f : Conv → Conv) : (s.modConv c f).segs = s.segs := rfl
@[simp] theorem State.modConv_fbp (s : State) (c : Nat) (f : Conv → Conv) : (s.modConv c f).fbp = s.fbp := rfl
@[simp] theorem State.modConv_lat (s : State) (c : Nat) (f : Conv → Conv) : (s.modConv c f).lat = s.lat := rfl
@[simp] theorem State.modConv_pul (s : State) (c : Nat) (f : Conv → Conv) : (s.modConv c f).pul = s.pul := rfl
@[simp] theorem State.modConv_adc (s : State) (c : Nat) (f : Conv → Conv) : (s.modConv c f).adc = SMap.put {} s.adc c (f (s.conv c)) := rfl
@[simp] theorem State.modConv_an (s : State) (c : Nat) (f : Conv → Conv) : (s.modConv c f).an = s.an := rfl
@[simp] theorem State.modConv_tw (s : State) (c : Nat) (f : Conv → Conv) : (s.modConv c f).tw = s.tw := rfl
@[simp] theorem State.modConv_asy (s : State) (c : Nat) (f : Conv → Conv) : (s.modConv c f).asy = s.asy := rfl
@[simp] theorem State.modConv_saf (s : State) (c : Nat) (f : Conv → Conv) : (s.modConv c f).saf = s.saf := rfl
@[simp] theorem State.modConv_sram (s : State) (c : Nat) (f : Conv → Conv) : (s.modConv c f).sram = s.sram := rfl
@[simp] theorem State.modConv_tap (s : State) (c : Nat) (f : Conv → Conv) : (s.modConv c f).tap = s.tap := rfl
@[simp] theorem State.modConv_tapReset (s : State) (c : Nat) (f : Conv → Conv) : (s.modConv c f).tapReset = s.tapReset := rfl
@[simp] theorem State.modConv_axis (s : State) (c : Nat) (f : Conv → Conv) (q : Nat) : (s.modConv c f).axis q = s.axis q := rfl
@[simp] theorem State.modConv_seg (s : State) (c : Nat) (f : Conv → Conv) (q : Nat) : (s.modConv c f).seg q = s.seg q := rfl
@[simp] theorem State.modConv_ringOf (s : State) (c : Nat) (f : Conv → Conv) (q : Nat) : (s.modConv c f).ringOf q = s.ringOf q := rfl
@[simp] theorem State.modConv_hammer (s : State) (c : Nat) (f : Conv → Conv) (q : Nat) : (s.modConv c f).hammer q = s.hammer q := rfl
@[simp] theorem State.modConv_src (s : State) (c : Nat) (f : Conv → Conv) (q : Nat) : (s.modConv c f).src q = s.src q := rfl
@[simp] theorem State.modConv_force (s : State) (c : Nat) (f : Conv → Conv) (q : Nat) : (s.modConv c f).force q = s.force q := rfl
@[simp] theorem State.modConv_stage (s : State) (c : Nat) (f : Conv → Conv) (q : Nat) : (s.modConv c f).stage q = s.stage q := rfl

/-! ## modTwSeg -/

@[simp] theorem State.modTwSeg_pending (s : State) (k : Nat) (f : TwinSeg → TwinSeg) : (s.modTwSeg k f).pending = s.pending := rfl
@[simp] theorem State.modTwSeg_now (s : State) (k : Nat) (f : TwinSeg → TwinSeg) : (s.modTwSeg k f).now = s.now := rfl
@[simp] theorem State.modTwSeg_free (s : State) (k : Nat) (f : TwinSeg → TwinSeg) : (s.modTwSeg k f).free = s.free := rfl
@[simp] theorem State.modTwSeg_out (s : State) (k : Nat) (f : TwinSeg → TwinSeg) : (s.modTwSeg k f).out = s.out := rfl
@[simp] theorem State.modTwSeg_time (s : State) (k : Nat) (f : TwinSeg → TwinSeg) : (s.modTwSeg k f).time = s.time := rfl
@[simp] theorem State.modTwSeg_pw (s : State) (k : Nat) (f : TwinSeg → TwinSeg) : (s.modTwSeg k f).pw = s.pw := rfl
@[simp] theorem State.modTwSeg_nv (s : State) (k : Nat) (f : TwinSeg → TwinSeg) : (s.modTwSeg k f).nv = s.nv := rfl
@[simp] theorem State.modTwSeg_regs (s : State) (k : Nat) (f : TwinSeg → TwinSeg) : (s.modTwSeg k f).regs = s.regs := rfl
@[simp] theorem State.modTwSeg_host (s : State) (k : Nat) (f : TwinSeg → TwinSeg) : (s.modTwSeg k f).host = s.host := rfl
@[simp] theorem State.modTwSeg_pool (s : State) (k : Nat) (f : TwinSeg → TwinSeg) : (s.modTwSeg k f).pool = s.pool := rfl
@[simp] theorem State.modTwSeg_axes (s : State) (k : Nat) (f : TwinSeg → TwinSeg) : (s.modTwSeg k f).axes = s.axes := rfl
@[simp] theorem State.modTwSeg_cgroups (s : State) (k : Nat) (f : TwinSeg → TwinSeg) : (s.modTwSeg k f).cgroups = s.cgroups := rfl
@[simp] theorem State.modTwSeg_igroups (s : State) (k : Nat) (f : TwinSeg → TwinSeg) : (s.modTwSeg k f).igroups = s.igroups := rfl
@[simp] theorem State.modTwSeg_cams (s : State) (k : Nat) (f : TwinSeg → TwinSeg) : (s.modTwSeg k f).cams = s.cams := rfl
@[simp] theorem State.modTwSeg_posted (s : State) (k : Nat) (f : TwinSeg → TwinSeg) : (s.modTwSeg k f).posted = s.posted := rfl
@[simp] theorem State.modTwSeg_evaluated (s : State) (k : Nat) (f : TwinSeg → TwinSeg) : (s.modTwSeg k f).evaluated = s.evaluated := rfl
@[simp] theorem State.modTwSeg_samples (s : State) (k : Nat) (f : TwinSeg → TwinSeg) : (s.modTwSeg k f).samples = s.samples := rfl
@[simp] theorem State.modTwSeg_segs (s : State) (k : Nat) (f : TwinSeg → TwinSeg) : (s.modTwSeg k f).segs = s.segs := rfl
@[simp] theorem State.modTwSeg_fbp (s : State) (k : Nat) (f : TwinSeg → TwinSeg) : (s.modTwSeg k f).fbp = s.fbp := rfl
@[simp] theorem State.modTwSeg_lat (s : State) (k : Nat) (f : TwinSeg → TwinSeg) : (s.modTwSeg k f).lat = s.lat := rfl
@[simp] theorem State.modTwSeg_pul (s : State) (k : Nat) (f : TwinSeg → TwinSeg) : (s.modTwSeg k f).pul = s.pul := rfl
@[simp] theorem State.modTwSeg_adc (s : State) (k : Nat) (f : TwinSeg → TwinSeg) : (s.modTwSeg k f).adc = s.adc := rfl
@[simp] theorem State.modTwSeg_an (s : State) (k : Nat) (f : TwinSeg → TwinSeg) : (s.modTwSeg k f).an = s.an := rfl
@[simp] theorem State.modTwSeg_tw (s : State) (k : Nat) (f : TwinSeg → TwinSeg) : (s.modTwSeg k f).tw = { s.tw with segs := SMap.put {} s.tw.segs k (f (s.twSeg k)) } := rfl
@[simp] theorem State.modTwSeg_asy (s : State) (k : Nat) (f : TwinSeg → TwinSeg) : (s.modTwSeg k f).asy = s.asy := rfl
@[simp] theorem State.modTwSeg_saf (s : State) (k : Nat) (f : TwinSeg → TwinSeg) : (s.modTwSeg k f).saf = s.saf := rfl
@[simp] theorem State.modTwSeg_sram (s : State) (k : Nat) (f : TwinSeg → TwinSeg) : (s.modTwSeg k f).sram = s.sram := rfl
@[simp] theorem State.modTwSeg_tap (s : State) (k : Nat) (f : TwinSeg → TwinSeg) : (s.modTwSeg k f).tap = s.tap := rfl
@[simp] theorem State.modTwSeg_tapReset (s : State) (k : Nat) (f : TwinSeg → TwinSeg) : (s.modTwSeg k f).tapReset = s.tapReset := rfl
@[simp] theorem State.modTwSeg_axis (s : State) (k : Nat) (f : TwinSeg → TwinSeg) (q : Nat) : (s.modTwSeg k f).axis q = s.axis q := rfl
@[simp] theorem State.modTwSeg_seg (s : State) (k : Nat) (f : TwinSeg → TwinSeg) (q : Nat) : (s.modTwSeg k f).seg q = s.seg q := rfl
@[simp] theorem State.modTwSeg_ringOf (s : State) (k : Nat) (f : TwinSeg → TwinSeg) (q : Nat) : (s.modTwSeg k f).ringOf q = s.ringOf q := rfl
@[simp] theorem State.modTwSeg_hammer (s : State) (k : Nat) (f : TwinSeg → TwinSeg) (q : Nat) : (s.modTwSeg k f).hammer q = s.hammer q := rfl
@[simp] theorem State.modTwSeg_src (s : State) (k : Nat) (f : TwinSeg → TwinSeg) (q : Nat) : (s.modTwSeg k f).src q = s.src q := rfl
@[simp] theorem State.modTwSeg_force (s : State) (k : Nat) (f : TwinSeg → TwinSeg) (q : Nat) : (s.modTwSeg k f).force q = s.force q := rfl
@[simp] theorem State.modTwSeg_stage (s : State) (k : Nat) (f : TwinSeg → TwinSeg) (q : Nat) : (s.modTwSeg k f).stage q = s.stage q := rfl

/-! ## modSrc -/

@[simp] theorem State.modSrc_pending (s : State) (c : Nat) (f : SrcSt → SrcSt) : (s.modSrc c f).pending = s.pending := rfl
@[simp] theorem State.modSrc_now (s : State) (c : Nat) (f : SrcSt → SrcSt) : (s.modSrc c f).now = s.now := rfl
@[simp] theorem State.modSrc_free (s : State) (c : Nat) (f : SrcSt → SrcSt) : (s.modSrc c f).free = s.free := rfl
@[simp] theorem State.modSrc_out (s : State) (c : Nat) (f : SrcSt → SrcSt) : (s.modSrc c f).out = s.out := rfl
@[simp] theorem State.modSrc_time (s : State) (c : Nat) (f : SrcSt → SrcSt) : (s.modSrc c f).time = s.time := rfl
@[simp] theorem State.modSrc_pw (s : State) (c : Nat) (f : SrcSt → SrcSt) : (s.modSrc c f).pw = s.pw := rfl
@[simp] theorem State.modSrc_nv (s : State) (c : Nat) (f : SrcSt → SrcSt) : (s.modSrc c f).nv = s.nv := rfl
@[simp] theorem State.modSrc_regs (s : State) (c : Nat) (f : SrcSt → SrcSt) : (s.modSrc c f).regs = s.regs := rfl
@[simp] theorem State.modSrc_host (s : State) (c : Nat) (f : SrcSt → SrcSt) : (s.modSrc c f).host = s.host := rfl
@[simp] theorem State.modSrc_pool (s : State) (c : Nat) (f : SrcSt → SrcSt) : (s.modSrc c f).pool = s.pool := rfl
@[simp] theorem State.modSrc_axes (s : State) (c : Nat) (f : SrcSt → SrcSt) : (s.modSrc c f).axes = s.axes := rfl
@[simp] theorem State.modSrc_cgroups (s : State) (c : Nat) (f : SrcSt → SrcSt) : (s.modSrc c f).cgroups = s.cgroups := rfl
@[simp] theorem State.modSrc_igroups (s : State) (c : Nat) (f : SrcSt → SrcSt) : (s.modSrc c f).igroups = s.igroups := rfl
@[simp] theorem State.modSrc_cams (s : State) (c : Nat) (f : SrcSt → SrcSt) : (s.modSrc c f).cams = s.cams := rfl
@[simp] theorem State.modSrc_posted (s : State) (c : Nat) (f : SrcSt → SrcSt) : (s.modSrc c f).posted = s.posted := rfl
@[simp] theorem State.modSrc_evaluated (s : State) (c : Nat) (f : SrcSt → SrcSt) : (s.modSrc c f).evaluated = s.evaluated := rfl
@[simp] theorem State.modSrc_samples (s : State) (c : Nat) (f : SrcSt → SrcSt) : (s.modSrc c f).samples = s.samples := rfl
@[simp] theorem State.modSrc_segs (s : State) (c : Nat) (f : SrcSt → SrcSt) : (s.modSrc c f).segs = s.segs := rfl
@[simp] theorem State.modSrc_fbp (s : State) (c : Nat) (f : SrcSt → SrcSt) : (s.modSrc c f).fbp = s.fbp := rfl
@[simp] theorem State.modSrc_lat (s : State) (c : Nat) (f : SrcSt → SrcSt) : (s.modSrc c f).lat = s.lat := rfl
@[simp] theorem State.modSrc_pul (s : State) (c : Nat) (f : SrcSt → SrcSt) : (s.modSrc c f).pul = s.pul := rfl
@[simp] theorem State.modSrc_adc (s : State) (c : Nat) (f : SrcSt → SrcSt) : (s.modSrc c f).adc = s.adc := rfl
@[simp] theorem State.modSrc_an (s : State) (c : Nat) (f : SrcSt → SrcSt) : (s.modSrc c f).an = s.an := rfl
@[simp] theorem State.modSrc_tw (s : State) (c : Nat) (f : SrcSt → SrcSt) : (s.modSrc c f).tw = s.tw := rfl
@[simp] theorem State.modSrc_asy (s : State) (c : Nat) (f : SrcSt → SrcSt) : (s.modSrc c f).asy = { s.asy with src := SMap.put {} s.asy.src c (f (s.src c)) } := rfl
@[simp] theorem State.modSrc_saf (s : State) (c : Nat) (f : SrcSt → SrcSt) : (s.modSrc c f).saf = s.saf := rfl
@[simp] theorem State.modSrc_sram (s : State) (c : Nat) (f : SrcSt → SrcSt) : (s.modSrc c f).sram = s.sram := rfl
@[simp] theorem State.modSrc_tap (s : State) (c : Nat) (f : SrcSt → SrcSt) : (s.modSrc c f).tap = s.tap := rfl
@[simp] theorem State.modSrc_tapReset (s : State) (c : Nat) (f : SrcSt → SrcSt) : (s.modSrc c f).tapReset = s.tapReset := rfl
@[simp] theorem State.modSrc_axis (s : State) (c : Nat) (f : SrcSt → SrcSt) (q : Nat) : (s.modSrc c f).axis q = s.axis q := rfl
@[simp] theorem State.modSrc_seg (s : State) (c : Nat) (f : SrcSt → SrcSt) (q : Nat) : (s.modSrc c f).seg q = s.seg q := rfl
@[simp] theorem State.modSrc_ringOf (s : State) (c : Nat) (f : SrcSt → SrcSt) (q : Nat) : (s.modSrc c f).ringOf q = s.ringOf q := rfl
@[simp] theorem State.modSrc_hammer (s : State) (c : Nat) (f : SrcSt → SrcSt) (q : Nat) : (s.modSrc c f).hammer q = s.hammer q := rfl
@[simp] theorem State.modSrc_force (s : State) (c : Nat) (f : SrcSt → SrcSt) (q : Nat) : (s.modSrc c f).force q = s.force q := rfl
@[simp] theorem State.modSrc_stage (s : State) (c : Nat) (f : SrcSt → SrcSt) (q : Nat) : (s.modSrc c f).stage q = s.stage q := rfl

/-! ## modEntry -/

@[simp] theorem State.modEntry_pending (s : State) (id : Nat) (f : Entry → Entry) : (s.modEntry id f).pending = s.pending := rfl
@[simp] theorem State.modEntry_now (s : State) (id : Nat) (f : Entry → Entry) : (s.modEntry id f).now = s.now := rfl
@[simp] theorem State.modEntry_free (s : State) (id : Nat) (f : Entry → Entry) : (s.modEntry id f).free = s.free := rfl
@[simp] theorem State.modEntry_out (s : State) (id : Nat) (f : Entry → Entry) : (s.modEntry id f).out = s.out := rfl
@[simp] theorem State.modEntry_time (s : State) (id : Nat) (f : Entry → Entry) : (s.modEntry id f).time = s.time := rfl
@[simp] theorem State.modEntry_pw (s : State) (id : Nat) (f : Entry → Entry) : (s.modEntry id f).pw = s.pw := rfl
@[simp] theorem State.modEntry_nv (s : State) (id : Nat) (f : Entry → Entry) : (s.modEntry id f).nv = s.nv := rfl
@[simp] theorem State.modEntry_regs (s : State) (id : Nat) (f : Entry → Entry) : (s.modEntry id f).regs = s.regs := rfl
@[simp] theorem State.modEntry_host (s : State) (id : Nat) (f : Entry → Entry) : (s.modEntry id f).host = { s.host with acc := s.host.acc.map fun e => if e.id = id then f e else e } := rfl
@[simp] theorem State.modEntry_pool (s : State) (id : Nat) (f : Entry → Entry) : (s.modEntry id f).pool = s.pool := rfl
@[simp] theorem State.modEntry_axes (s : State) (id : Nat) (f : Entry → Entry) : (s.modEntry id f).axes = s.axes := rfl
@[simp] theorem State.modEntry_cgroups (s : State) (id : Nat) (f : Entry → Entry) : (s.modEntry id f).cgroups = s.cgroups := rfl
@[simp] theorem State.modEntry_igroups (s : State) (id : Nat) (f : Entry → Entry) : (s.modEntry id f).igroups = s.igroups := rfl
@[simp] theorem State.modEntry_cams (s : State) (id : Nat) (f : Entry → Entry) : (s.modEntry id f).cams = s.cams := rfl
@[simp] theorem State.modEntry_posted (s : State) (id : Nat) (f : Entry → Entry) : (s.modEntry id f).posted = s.posted := rfl
@[simp] theorem State.modEntry_evaluated (s : State) (id : Nat) (f : Entry → Entry) : (s.modEntry id f).evaluated = s.evaluated := rfl
@[simp] theorem State.modEntry_samples (s : State) (id : Nat) (f : Entry → Entry) : (s.modEntry id f).samples = s.samples := rfl
@[simp] theorem State.modEntry_segs (s : State) (id : Nat) (f : Entry → Entry) : (s.modEntry id f).segs = s.segs := rfl
@[simp] theorem State.modEntry_fbp (s : State) (id : Nat) (f : Entry → Entry) : (s.modEntry id f).fbp = s.fbp := rfl
@[simp] theorem State.modEntry_lat (s : State) (id : Nat) (f : Entry → Entry) : (s.modEntry id f).lat = s.lat := rfl
@[simp] theorem State.modEntry_pul (s : State) (id : Nat) (f : Entry → Entry) : (s.modEntry id f).pul = s.pul := rfl
@[simp] theorem State.modEntry_adc (s : State) (id : Nat) (f : Entry → Entry) : (s.modEntry id f).adc = s.adc := rfl
@[simp] theorem State.modEntry_an (s : State) (id : Nat) (f : Entry → Entry) : (s.modEntry id f).an = s.an := rfl
@[simp] theorem State.modEntry_tw (s : State) (id : Nat) (f : Entry → Entry) : (s.modEntry id f).tw = s.tw := rfl
@[simp] theorem State.modEntry_asy (s : State) (id : Nat) (f : Entry → Entry) : (s.modEntry id f).asy = s.asy := rfl
@[simp] theorem State.modEntry_saf (s : State) (id : Nat) (f : Entry → Entry) : (s.modEntry id f).saf = s.saf := rfl
@[simp] theorem State.modEntry_sram (s : State) (id : Nat) (f : Entry → Entry) : (s.modEntry id f).sram = s.sram := rfl
@[simp] theorem State.modEntry_tap (s : State) (id : Nat) (f : Entry → Entry) : (s.modEntry id f).tap = s.tap := rfl
@[simp] theorem State.modEntry_tapReset (s : State) (id : Nat) (f : Entry → Entry) : (s.modEntry id f).tapReset = s.tapReset := rfl
@[simp] theorem State.modEntry_axis (s : State) (id : Nat) (f : Entry → Entry) (q : Nat) : (s.modEntry id f).axis q = s.axis q := rfl
@[simp] theorem State.modEntry_seg (s : State) (id : Nat) (f : Entry → Entry) (q : Nat) : (s.modEntry id f).seg q = s.seg q := rfl
@[simp] theorem State.modEntry_hammer (s : State) (id : Nat) (f : Entry → Entry) (q : Nat) : (s.modEntry id f).hammer q = s.hammer q := rfl
@[simp] theorem State.modEntry_src (s : State) (id : Nat) (f : Entry → Entry) (q : Nat) : (s.modEntry id f).src q = s.src q := rfl
@[simp] theorem State.modEntry_force (s : State) (id : Nat) (f : Entry → Entry) (q : Nat) : (s.modEntry id f).force q = s.force q := rfl
@[simp] theorem State.modEntry_stage (s : State) (id : Nat) (f : Entry → Entry) (q : Nat) : (s.modEntry id f).stage q = s.stage q := rfl

/-! ## modOut -/

@[simp] theorem State.modOut_pending (s : State) (k : Nat) (f : SafOut → SafOut) : (s.modOut k f).pending = s.pending := rfl
@[simp] theorem State.modOut_now (s : State) (k : Nat) (f : SafOut → SafOut) : (s.modOut k f).now = s.now := rfl
@[simp] theorem State.modOut_free (s : State) (k : Nat) (f : SafOut → SafOut) : (s.modOut k f).free = s.free := rfl
@[simp] theorem State.modOut_out (s : State) (k : Nat) (f : SafOut → SafOut) : (s.modOut k f).out = s.out := rfl
@[simp] theorem State.modOut_time (s : State) (k : Nat) (f : SafOut → SafOut) : (s.modOut k f).time = s.time := rfl
@[simp] theorem State.modOut_pw (s : State) (k : Nat) (f : SafOut → SafOut) : (s.modOut k f).pw = s.pw := rfl
@[simp] theorem State.modOut_nv (s : State) (k : Nat) (f : SafOut → SafOut) : (s.modOut k f).nv = s.nv := rfl
@[simp] theorem State.modOut_regs (s : State) (k : Nat) (f : SafOut → SafOut) : (s.modOut k f).regs = s.regs := rfl
@[simp] theorem State.modOut_host (s : State) (k : Nat) (f : SafOut → SafOut) : (s.modOut k f).host = s.host := rfl
@[simp] theorem State.modOut_pool (s : State) (k : Nat) (f : SafOut → SafOut) : (s.modOut k f).pool = s.pool := rfl
@[simp] theorem State.modOut_axes (s : State) (k : Nat) (f : SafOut → SafOut) : (s.modOut k f).axes = s.axes := rfl
@[simp] theorem State.modOut_cgroups (s : State) (k : Nat) (f : SafOut → SafOut) : (s.modOut k f).cgroups = s.cgroups := rfl
@[simp] theorem State.modOut_igroups (s : State) (k : Nat) (f : SafOut → SafOut) : (s.modOut k f).igroups = s.igroups := rfl
@[simp] theorem State.modOut_cams (s : State) (k : Nat) (f : SafOut → SafOut) : (s.modOut k f).cams = s.cams := rfl
@[simp] theorem State.modOut_posted (s : State) (k : Nat) (f : SafOut → SafOut) : (s.modOut k f).posted = s.posted := rfl
@[simp] theorem State.modOut_evaluated (s : State) (k : Nat) (f : SafOut → SafOut) : (s.modOut k f).evaluated = s.evaluated := rfl
@[simp] theorem State.modOut_samples (s : State) (k : Nat) (f : SafOut → SafOut) : (s.modOut k f).samples = s.samples := rfl
@[simp] theorem State.modOut_segs (s : State) (k : Nat) (f : SafOut → SafOut) : (s.modOut k f).segs = s.segs := rfl
@[simp] theorem State.modOut_fbp (s : State) (k : Nat) (f : SafOut → SafOut) : (s.modOut k f).fbp = s.fbp := rfl
@[simp] theorem State.modOut_lat (s : State) (k : Nat) (f : SafOut → SafOut) : (s.modOut k f).lat = s.lat := rfl
@[simp] theorem State.modOut_pul (s : State) (k : Nat) (f : SafOut → SafOut) : (s.modOut k f).pul = s.pul := rfl
@[simp] theorem State.modOut_adc (s : State) (k : Nat) (f : SafOut → SafOut) : (s.modOut k f).adc = s.adc := rfl
@[simp] theorem State.modOut_an (s : State) (k : Nat) (f : SafOut → SafOut) : (s.modOut k f).an = s.an := rfl
@[simp] theorem State.modOut_tw (s : State) (k : Nat) (f : SafOut → SafOut) : (s.modOut k f).tw = s.tw := rfl
@[simp] theorem State.modOut_asy (s : State) (k : Nat) (f : SafOut → SafOut) : (s.modOut k f).asy = s.asy := rfl
@[simp] theorem State.modOut_sram (s : State) (k : Nat) (f : SafOut → SafOut) : (s.modOut k f).sram = s.sram := rfl
@[simp] theorem State.modOut_tap (s : State) (k : Nat) (f : SafOut → SafOut) : (s.modOut k f).tap = s.tap := rfl
@[simp] theorem State.modOut_tapReset (s : State) (k : Nat) (f : SafOut → SafOut) : (s.modOut k f).tapReset = s.tapReset := rfl
@[simp] theorem State.modOut_axis (s : State) (k : Nat) (f : SafOut → SafOut) (q : Nat) : (s.modOut k f).axis q = s.axis q := rfl
@[simp] theorem State.modOut_seg (s : State) (k : Nat) (f : SafOut → SafOut) (q : Nat) : (s.modOut k f).seg q = s.seg q := rfl
@[simp] theorem State.modOut_ringOf (s : State) (k : Nat) (f : SafOut → SafOut) (q : Nat) : (s.modOut k f).ringOf q = s.ringOf q := rfl
@[simp] theorem State.modOut_hammer (s : State) (k : Nat) (f : SafOut → SafOut) (q : Nat) : (s.modOut k f).hammer q = s.hammer q := rfl
@[simp] theorem State.modOut_src (s : State) (k : Nat) (f : SafOut → SafOut) (q : Nat) : (s.modOut k f).src q = s.src q := rfl
@[simp] theorem State.modOut_force (s : State) (k : Nat) (f : SafOut → SafOut) (q : Nat) : (s.modOut k f).force q = s.force q := rfl
@[simp] theorem State.modOut_stage (s : State) (k : Nat) (f : SafOut → SafOut) (q : Nat) : (s.modOut k f).stage q = s.stage q := rfl

/-! ## modCh -/

@[simp] theorem State.modCh_pending (s : State) (chB : Bool) (f : SafCh → SafCh) : (s.modCh chB f).pending = s.pending := rfl
@[simp] theorem State.modCh_now (s : State) (chB : Bool) (f : SafCh → SafCh) : (s.modCh chB f).now = s.now := rfl
@[simp] theorem State.modCh_free (s : State) (chB : Bool) (f : SafCh → SafCh) : (s.modCh chB f).free = s.free := rfl
@[simp] theorem State.modCh_out (s : State) (chB : Bool) (f : SafCh → SafCh) : (s.modCh chB f).out = s.out := rfl
@[simp] theorem State.modCh_time (s : State) (chB : Bool) (f : SafCh → SafCh) : (s.modCh chB f).time = s.time := rfl
@[simp] theorem State.modCh_pw (s : State) (chB : Bool) (f : SafCh → SafCh) : (s.modCh chB f).pw = s.pw := rfl
@[simp] theorem State.modCh_nv (s : State) (chB : Bool) (f : SafCh → SafCh) : (s.modCh chB f).nv = s.nv := rfl
@[simp] theorem State.modCh_regs (s : State) (chB : Bool) (f : SafCh → SafCh) : (s.modCh chB f).regs = s.regs := rfl
@[simp] theorem State.modCh_host (s : State) (chB : Bool) (f : SafCh → SafCh) : (s.modCh chB f).host = s.host := rfl
@[simp] theorem State.modCh_pool (s : State) (chB : Bool) (f : SafCh → SafCh) : (s.modCh chB f).pool = s.pool := rfl
@[simp] theorem State.modCh_axes (s : State) (chB : Bool) (f : SafCh → SafCh) : (s.modCh chB f).axes = s.axes := rfl
@[simp] theorem State.modCh_cgroups (s : State) (chB : Bool) (f : SafCh → SafCh) : (s.modCh chB f).cgroups = s.cgroups := rfl
@[simp] theorem State.modCh_igroups (s : State) (chB : Bool) (f : SafCh → SafCh) : (s.modCh chB f).igroups = s.igroups := rfl
@[simp] theorem State.modCh_cams (s : State) (chB : Bool) (f : SafCh → SafCh) : (s.modCh chB f).cams = s.cams := rfl
@[simp] theorem State.modCh_posted (s : State) (chB : Bool) (f : SafCh → SafCh) : (s.modCh chB f).posted = s.posted := rfl
@[simp] theorem State.modCh_evaluated (s : State) (chB : Bool) (f : SafCh → SafCh) : (s.modCh chB f).evaluated = s.evaluated := rfl
@[simp] theorem State.modCh_samples (s : State) (chB : Bool) (f : SafCh → SafCh) : (s.modCh chB f).samples = s.samples := rfl
@[simp] theorem State.modCh_segs (s : State) (chB : Bool) (f : SafCh → SafCh) : (s.modCh chB f).segs = s.segs := rfl
@[simp] theorem State.modCh_fbp (s : State) (chB : Bool) (f : SafCh → SafCh) : (s.modCh chB f).fbp = s.fbp := rfl
@[simp] theorem State.modCh_lat (s : State) (chB : Bool) (f : SafCh → SafCh) : (s.modCh chB f).lat = s.lat := rfl
@[simp] theorem State.modCh_pul (s : State) (chB : Bool) (f : SafCh → SafCh) : (s.modCh chB f).pul = s.pul := rfl
@[simp] theorem State.modCh_adc (s : State) (chB : Bool) (f : SafCh → SafCh) : (s.modCh chB f).adc = s.adc := rfl
@[simp] theorem State.modCh_an (s : State) (chB : Bool) (f : SafCh → SafCh) : (s.modCh chB f).an = s.an := rfl
@[simp] theorem State.modCh_tw (s : State) (chB : Bool) (f : SafCh → SafCh) : (s.modCh chB f).tw = s.tw := rfl
@[simp] theorem State.modCh_asy (s : State) (chB : Bool) (f : SafCh → SafCh) : (s.modCh chB f).asy = s.asy := rfl
@[simp] theorem State.modCh_sram (s : State) (chB : Bool) (f : SafCh → SafCh) : (s.modCh chB f).sram = s.sram := rfl
@[simp] theorem State.modCh_tap (s : State) (chB : Bool) (f : SafCh → SafCh) : (s.modCh chB f).tap = s.tap := rfl
@[simp] theorem State.modCh_tapReset (s : State) (chB : Bool) (f : SafCh → SafCh) : (s.modCh chB f).tapReset = s.tapReset := rfl
@[simp] theorem State.modCh_axis (s : State) (chB : Bool) (f : SafCh → SafCh) (q : Nat) : (s.modCh chB f).axis q = s.axis q := rfl
@[simp] theorem State.modCh_seg (s : State) (chB : Bool) (f : SafCh → SafCh) (q : Nat) : (s.modCh chB f).seg q = s.seg q := rfl
@[simp] theorem State.modCh_ringOf (s : State) (chB : Bool) (f : SafCh → SafCh) (q : Nat) : (s.modCh chB f).ringOf q = s.ringOf q := rfl
@[simp] theorem State.modCh_hammer (s : State) (chB : Bool) (f : SafCh → SafCh) (q : Nat) : (s.modCh chB f).hammer q = s.hammer q := rfl
@[simp] theorem State.modCh_src (s : State) (chB : Bool) (f : SafCh → SafCh) (q : Nat) : (s.modCh chB f).src q = s.src q := rfl
@[simp] theorem State.modCh_force (s : State) (chB : Bool) (f : SafCh → SafCh) (q : Nat) : (s.modCh chB f).force q = s.force q := rfl
@[simp] theorem State.modCh_stage (s : State) (chB : Bool) (f : SafCh → SafCh) (q : Nat) : (s.modCh chB f).stage q = s.stage q := rfl

/-! ## setForce -/

@[simp] theorem State.setForce_pending (s : State) (off v : Nat) : (s.setForce off v).pending = s.pending := rfl
@[simp] theorem State.setForce_now (s : State) (off v : Nat) : (s.setForce off v).now = s.now := rfl
@[simp] theorem State.setForce_free (s : State) (off v : Nat) : (s.setForce off v).free = s.free := rfl
@[simp] theorem State.setForce_out (s : State) (off v : Nat) : (s.setForce off v).out = s.out := rfl
@[simp] theorem State.setForce_time (s : State) (off v : Nat) : (s.setForce off v).time = s.time := rfl
@[simp] theorem State.setForce_pw (s : State) (off v : Nat) : (s.setForce off v).pw = s.pw := rfl
@[simp] theorem State.setForce_nv (s : State) (off v : Nat) : (s.setForce off v).nv = s.nv := rfl
@[simp] theorem State.setForce_host (s : State) (off v : Nat) : (s.setForce off v).host = s.host := rfl
@[simp] theorem State.setForce_pool (s : State) (off v : Nat) : (s.setForce off v).pool = s.pool := rfl
@[simp] theorem State.setForce_axes (s : State) (off v : Nat) : (s.setForce off v).axes = s.axes := rfl
@[simp] theorem State.setForce_cgroups (s : State) (off v : Nat) : (s.setForce off v).cgroups = s.cgroups := rfl
@[simp] theorem State.setForce_igroups (s : State) (off v : Nat) : (s.setForce off v).igroups = s.igroups := rfl
@[simp] theorem State.setForce_cams (s : State) (off v : Nat) : (s.setForce off v).cams = s.cams := rfl
@[simp] theorem State.setForce_posted (s : State) (off v : Nat) : (s.setForce off v).posted = s.posted := rfl
@[simp] theorem State.setForce_evaluated (s : State) (off v : Nat) : (s.setForce off v).evaluated = s.evaluated := rfl
@[simp] theorem State.setForce_samples (s : State) (off v : Nat) : (s.setForce off v).samples = s.samples := rfl
@[simp] theorem State.setForce_segs (s : State) (off v : Nat) : (s.setForce off v).segs = s.segs := rfl
@[simp] theorem State.setForce_fbp (s : State) (off v : Nat) : (s.setForce off v).fbp = s.fbp := rfl
@[simp] theorem State.setForce_lat (s : State) (off v : Nat) : (s.setForce off v).lat = s.lat := rfl
@[simp] theorem State.setForce_pul (s : State) (off v : Nat) : (s.setForce off v).pul = s.pul := rfl
@[simp] theorem State.setForce_adc (s : State) (off v : Nat) : (s.setForce off v).adc = s.adc := rfl
@[simp] theorem State.setForce_an (s : State) (off v : Nat) : (s.setForce off v).an = s.an := rfl
@[simp] theorem State.setForce_tw (s : State) (off v : Nat) : (s.setForce off v).tw = s.tw := rfl
@[simp] theorem State.setForce_asy (s : State) (off v : Nat) : (s.setForce off v).asy = s.asy := rfl
@[simp] theorem State.setForce_saf (s : State) (off v : Nat) : (s.setForce off v).saf = s.saf := rfl
@[simp] theorem State.setForce_sram (s : State) (off v : Nat) : (s.setForce off v).sram = s.sram := rfl
@[simp] theorem State.setForce_tap (s : State) (off v : Nat) : (s.setForce off v).tap = s.tap := rfl
@[simp] theorem State.setForce_tapReset (s : State) (off v : Nat) : (s.setForce off v).tapReset = s.tapReset := rfl
@[simp] theorem State.setForce_axis (s : State) (off v : Nat) (q : Nat) : (s.setForce off v).axis q = s.axis q := rfl
@[simp] theorem State.setForce_seg (s : State) (off v : Nat) (q : Nat) : (s.setForce off v).seg q = s.seg q := rfl
@[simp] theorem State.setForce_ringOf (s : State) (off v : Nat) (q : Nat) : (s.setForce off v).ringOf q = s.ringOf q := rfl
@[simp] theorem State.setForce_hammer (s : State) (off v : Nat) (q : Nat) : (s.setForce off v).hammer q = s.hammer q := rfl
@[simp] theorem State.setForce_src (s : State) (off v : Nat) (q : Nat) : (s.setForce off v).src q = s.src q := rfl

/-! ## addMark -/

@[simp] theorem State.addMark_pending (s : State) (src kind addr react : Nat) (detail : List Byte) (applied : Bool) : (s.addMark src kind addr react detail applied).pending = s.pending := rfl
@[simp] theorem State.addMark_now (s : State) (src kind addr react : Nat) (detail : List Byte) (applied : Bool) : (s.addMark src kind addr react detail applied).now = s.now := rfl
@[simp] theorem State.addMark_free (s : State) (src kind addr react : Nat) (detail : List Byte) (applied : Bool) : (s.addMark src kind addr react detail applied).free = s.free := rfl
@[simp] theorem State.addMark_out (s : State) (src kind addr react : Nat) (detail : List Byte) (applied : Bool) : (s.addMark src kind addr react detail applied).out = s.out := rfl
@[simp] theorem State.addMark_time (s : State) (src kind addr react : Nat) (detail : List Byte) (applied : Bool) : (s.addMark src kind addr react detail applied).time = s.time := rfl
@[simp] theorem State.addMark_pw (s : State) (src kind addr react : Nat) (detail : List Byte) (applied : Bool) : (s.addMark src kind addr react detail applied).pw = s.pw := rfl
@[simp] theorem State.addMark_nv (s : State) (src kind addr react : Nat) (detail : List Byte) (applied : Bool) : (s.addMark src kind addr react detail applied).nv = s.nv := rfl
@[simp] theorem State.addMark_regs (s : State) (src kind addr react : Nat) (detail : List Byte) (applied : Bool) : (s.addMark src kind addr react detail applied).regs = s.regs := rfl
@[simp] theorem State.addMark_host (s : State) (src kind addr react : Nat) (detail : List Byte) (applied : Bool) : (s.addMark src kind addr react detail applied).host = s.host := rfl
@[simp] theorem State.addMark_pool (s : State) (src kind addr react : Nat) (detail : List Byte) (applied : Bool) : (s.addMark src kind addr react detail applied).pool = s.pool := rfl
@[simp] theorem State.addMark_axes (s : State) (src kind addr react : Nat) (detail : List Byte) (applied : Bool) : (s.addMark src kind addr react detail applied).axes = s.axes := rfl
@[simp] theorem State.addMark_cgroups (s : State) (src kind addr react : Nat) (detail : List Byte) (applied : Bool) : (s.addMark src kind addr react detail applied).cgroups = s.cgroups := rfl
@[simp] theorem State.addMark_igroups (s : State) (src kind addr react : Nat) (detail : List Byte) (applied : Bool) : (s.addMark src kind addr react detail applied).igroups = s.igroups := rfl
@[simp] theorem State.addMark_cams (s : State) (src kind addr react : Nat) (detail : List Byte) (applied : Bool) : (s.addMark src kind addr react detail applied).cams = s.cams := rfl
@[simp] theorem State.addMark_posted (s : State) (src kind addr react : Nat) (detail : List Byte) (applied : Bool) : (s.addMark src kind addr react detail applied).posted = s.posted := rfl
@[simp] theorem State.addMark_evaluated (s : State) (src kind addr react : Nat) (detail : List Byte) (applied : Bool) : (s.addMark src kind addr react detail applied).evaluated = s.evaluated := rfl
@[simp] theorem State.addMark_samples (s : State) (src kind addr react : Nat) (detail : List Byte) (applied : Bool) : (s.addMark src kind addr react detail applied).samples = s.samples := rfl
@[simp] theorem State.addMark_segs (s : State) (src kind addr react : Nat) (detail : List Byte) (applied : Bool) : (s.addMark src kind addr react detail applied).segs = s.segs := rfl
@[simp] theorem State.addMark_fbp (s : State) (src kind addr react : Nat) (detail : List Byte) (applied : Bool) : (s.addMark src kind addr react detail applied).fbp = s.fbp := rfl
@[simp] theorem State.addMark_lat (s : State) (src kind addr react : Nat) (detail : List Byte) (applied : Bool) : (s.addMark src kind addr react detail applied).lat = s.lat := rfl
@[simp] theorem State.addMark_pul (s : State) (src kind addr react : Nat) (detail : List Byte) (applied : Bool) : (s.addMark src kind addr react detail applied).pul = s.pul := rfl
@[simp] theorem State.addMark_adc (s : State) (src kind addr react : Nat) (detail : List Byte) (applied : Bool) : (s.addMark src kind addr react detail applied).adc = s.adc := rfl
@[simp] theorem State.addMark_an (s : State) (src kind addr react : Nat) (detail : List Byte) (applied : Bool) : (s.addMark src kind addr react detail applied).an = s.an := rfl
@[simp] theorem State.addMark_tw (s : State) (src kind addr react : Nat) (detail : List Byte) (applied : Bool) : (s.addMark src kind addr react detail applied).tw = s.tw := rfl
@[simp] theorem State.addMark_saf (s : State) (src kind addr react : Nat) (detail : List Byte) (applied : Bool) : (s.addMark src kind addr react detail applied).saf = s.saf := rfl
@[simp] theorem State.addMark_sram (s : State) (src kind addr react : Nat) (detail : List Byte) (applied : Bool) : (s.addMark src kind addr react detail applied).sram = s.sram := rfl
@[simp] theorem State.addMark_tap (s : State) (src kind addr react : Nat) (detail : List Byte) (applied : Bool) : (s.addMark src kind addr react detail applied).tap = s.tap := rfl
@[simp] theorem State.addMark_tapReset (s : State) (src kind addr react : Nat) (detail : List Byte) (applied : Bool) : (s.addMark src kind addr react detail applied).tapReset = s.tapReset := rfl
@[simp] theorem State.addMark_axis (s : State) (src kind addr react : Nat) (detail : List Byte) (applied : Bool) (q : Nat) : (s.addMark src kind addr react detail applied).axis q = s.axis q := rfl
@[simp] theorem State.addMark_seg (s : State) (src kind addr react : Nat) (detail : List Byte) (applied : Bool) (q : Nat) : (s.addMark src kind addr react detail applied).seg q = s.seg q := rfl
@[simp] theorem State.addMark_ringOf (s : State) (src kind addr react : Nat) (detail : List Byte) (applied : Bool) (q : Nat) : (s.addMark src kind addr react detail applied).ringOf q = s.ringOf q := rfl
@[simp] theorem State.addMark_hammer (s : State) (src kind addr react : Nat) (detail : List Byte) (applied : Bool) (q : Nat) : (s.addMark src kind addr react detail applied).hammer q = s.hammer q := rfl
@[simp] theorem State.addMark_force (s : State) (src kind addr react : Nat) (detail : List Byte) (applied : Bool) (q : Nat) : (s.addMark src kind addr react detail applied).force q = s.force q := rfl
@[simp] theorem State.addMark_stage (s : State) (src kind addr react : Nat) (detail : List Byte) (applied : Bool) (q : Nat) : (s.addMark src kind addr react detail applied).stage q = s.stage q := rfl

/-! ## An element that is changed, and the others -/

@[simp] theorem State.modAxis_axis_same (s : State) (a : Nat) (f : Axis → Axis) : (s.modAxis a f).axis a = f (s.axis a) :=
  SMap.get_put_same _ _ _ _

theorem State.modAxis_axis_ne (s : State) (a : Nat) (f : Axis → Axis) {q : Nat} (hq : q ≠ a) : (s.modAxis a f).axis q = s.axis q := by
  show SMap.get _ (SMap.put _ _ _ _) _ = SMap.get _ _ _
  unfold SMap.get
  rw [SMap.lookup_put_ne _ _ _ hq]

@[simp] theorem State.setAxis_axis_same (s : State) (a : Nat) (x : Axis) : (s.setAxis a x).axis a = x :=
  SMap.get_put_same _ _ _ _

theorem State.setAxis_axis_ne (s : State) (a : Nat) (x : Axis) {q : Nat} (hq : q ≠ a) : (s.setAxis a x).axis q = s.axis q := by
  show SMap.get _ (SMap.put _ _ _ _) _ = SMap.get _ _ _
  unfold SMap.get
  rw [SMap.lookup_put_ne _ _ _ hq]

@[simp] theorem State.modSeg_seg_same (s : State) (k : Nat) (f : Segment → Segment) : (s.modSeg k f).seg k = f (s.seg k) :=
  SMap.get_put_same _ _ _ _

theorem State.modSeg_seg_ne (s : State) (k : Nat) (f : Segment → Segment) {q : Nat} (hq : q ≠ k) : (s.modSeg k f).seg q = s.seg q :=
  SMap.get_put_ne _ _ _ hq

@[simp] theorem State.setSeg_seg_same (s : State) (k : Nat) (x : Segment) : (s.setSeg k x).seg k = x :=
  SMap.get_put_same _ _ _ _

theorem State.setSeg_seg_ne (s : State) (k : Nat) (x : Segment) {q : Nat} (hq : q ≠ k) : (s.setSeg k x).seg q = s.seg q :=
  SMap.get_put_ne _ _ _ hq

@[simp] theorem State.modRing_ringOf_same (s : State) (r : Nat) (f : Ring → Ring) : (s.modRing r f).ringOf r = f (s.ringOf r) :=
  SMap.get_put_same _ _ _ _

theorem State.modRing_ringOf_ne (s : State) (r : Nat) (f : Ring → Ring) {q : Nat} (hq : q ≠ r) : (s.modRing r f).ringOf q = s.ringOf q :=
  SMap.get_put_ne _ _ _ hq

@[simp] theorem State.modHammer_hammer_same (s : State) (h : Nat) (f : Hammer → Hammer) : (s.modHammer h f).hammer h = f (s.hammer h) :=
  SMap.get_put_same _ _ _ _

theorem State.modHammer_hammer_ne (s : State) (h : Nat) (f : Hammer → Hammer) {q : Nat} (hq : q ≠ h) : (s.modHammer h f).hammer q = s.hammer q :=
  SMap.get_put_ne _ _ _ hq

@[simp] theorem State.modPort_port_same (s : State) (p : Nat) (f : FbPort → FbPort) : (s.modPort p f).port p = f (s.port p) :=
  SMap.get_put_same _ _ _ _

theorem State.modPort_port_ne (s : State) (p : Nat) (f : FbPort → FbPort) {q : Nat} (hq : q ≠ p) : (s.modPort p f).port q = s.port q :=
  SMap.get_put_ne _ _ _ hq

@[simp] theorem State.modLatch_latch_same (s : State) (n : Nat) (f : Latch → Latch) : (s.modLatch n f).latch n = f (s.latch n) :=
  SMap.get_put_same _ _ _ _

theorem State.modLatch_latch_ne (s : State) (n : Nat) (f : Latch → Latch) {q : Nat} (hq : q ≠ n) : (s.modLatch n f).latch q = s.latch q :=
  SMap.get_put_ne _ _ _ hq

@[simp] theorem State.modStep_stepCh_same (s : State) (c : Nat) (f : StepCh → StepCh) : (s.modStep c f).stepCh c = f (s.stepCh c) :=
  SMap.get_put_same _ _ _ _

theorem State.modStep_stepCh_ne (s : State) (c : Nat) (f : StepCh → StepCh) {q : Nat} (hq : q ≠ c) : (s.modStep c f).stepCh q = s.stepCh q :=
  SMap.get_put_ne _ _ _ hq

@[simp] theorem State.modConv_conv_same (s : State) (c : Nat) (f : Conv → Conv) : (s.modConv c f).conv c = f (s.conv c) :=
  SMap.get_put_same _ _ _ _

theorem State.modConv_conv_ne (s : State) (c : Nat) (f : Conv → Conv) {q : Nat} (hq : q ≠ c) : (s.modConv c f).conv q = s.conv q :=
  SMap.get_put_ne _ _ _ hq

@[simp] theorem State.modTwSeg_twSeg_same (s : State) (k : Nat) (f : TwinSeg → TwinSeg) : (s.modTwSeg k f).twSeg k = f (s.twSeg k) :=
  SMap.get_put_same _ _ _ _

theorem State.modTwSeg_twSeg_ne (s : State) (k : Nat) (f : TwinSeg → TwinSeg) {q : Nat} (hq : q ≠ k) : (s.modTwSeg k f).twSeg q = s.twSeg q :=
  SMap.get_put_ne _ _ _ hq

@[simp] theorem State.modSrc_src_same (s : State) (c : Nat) (f : SrcSt → SrcSt) : (s.modSrc c f).src c = f (s.src c) :=
  SMap.get_put_same _ _ _ _

theorem State.modSrc_src_ne (s : State) (c : Nat) (f : SrcSt → SrcSt) {q : Nat} (hq : q ≠ c) : (s.modSrc c f).src q = s.src q :=
  SMap.get_put_ne _ _ _ hq

@[simp] theorem State.modOut_safOut_same (s : State) (k : Nat) (f : SafOut → SafOut) : (s.modOut k f).safOut k = f (s.safOut k) :=
  SMap.get_put_same _ _ _ _

theorem State.modOut_safOut_ne (s : State) (k : Nat) (f : SafOut → SafOut) {q : Nat} (hq : q ≠ k) : (s.modOut k f).safOut q = s.safOut q :=
  SMap.get_put_ne _ _ _ hq

theorem State.setForce_force_same (s : State) (off v : Nat) : (s.setForce off v).force off = v := SMap.get_put_same _ _ _ _

theorem State.setForce_force_ne (s : State) (off v : Nat) {q : Nat} (hq : q ≠ off) : (s.setForce off v).force q = s.force q := by
  show SMap.get _ (SMap.put _ _ _ _) _ = SMap.get _ _ _
  unfold SMap.get
  rw [SMap.lookup_put_ne _ _ _ hq]

/-! ## A mark that is raised -/

/-- The mark that a raise adds: the sequence, MT and cycle of its moment, and INJ where an injection caused it. -/
theorem State.addMark_held (s : State) (src kind addr react : Nat) (detail : List Byte) (applied : Bool) :
    ∃ m, (s.addMark src kind addr react detail applied).asy.held = s.asy.held ++ [m] ∧ m.src = src ∧ m.kind = kind ∧ m.addr = addr ∧
      m.react = react ∧ m.detail = detail ∧ m.applied = applied ∧ m.mt = s.mt ∧ m.cyc = s.cyc :=
  ⟨_, rfl, rfl, rfl, rfl, rfl, rfl, rfl, rfl, rfl⟩

end Sys2Proof.Machine
end

