-- ==== Sys2Proof/Laws/Descr.lean ====
section
/-! SUPPORT. What a meaning leaves, and what a descriptor that passes its checks does, stated once for every opcode. -/

set_option linter.unusedSimpArgs false
set_option linter.unusedVariables false

namespace Sys2Proof.Machine

/-! ## Commands -/

/-- A meaning answers the state its effect makes of what it finds. -/
theorem does_eq (s : State) (t : Nat) (f : State → State) : s.does t f = .next (ends s t (f (s.before t))) := rfl

/-! ## What the desk leaves alone -/

theorem Desk.refl (b : State) : Desk b b := rfl

theorem Desk.of_desk {b w : State} (h : w.desk = b.desk) : Desk b w := by
  cases b
  cases w
  simp only [State.desk, State.mk.injEq] at h
  simp only [Desk, State.mk.injEq, true_and, and_true]
  exact ⟨h.1, h.2.1, h.2.2.1, h.2.2.2.2.1, h.2.2.2.2.2.1, h.2.2.2.2.2.2.1, h.2.2.2.2.2.2.2.1, by simp_all⟩

theorem Desk.desk {b w : State} (h : Desk b w) : w.desk = b.desk := by
  rw [show w = _ from h]
  rfl

theorem Desk.trans {a b c : State} (h : Desk a b) (g : Desk b c) : Desk a c := .of_desk (g.desk.trans h.desk)

theorem Desk.axes {b w : State} (h : Desk b w) : w.axes = b.axes := by rw [show w = _ from h]

theorem Desk.pending {b w : State} (h : Desk b w) : w.pending = b.pending := by rw [show w = _ from h]

theorem Desk.now {b w : State} (h : Desk b w) : w.now = b.now := by rw [show w = _ from h]

theorem Desk.free {b w : State} (h : Desk b w) : w.free = b.free := by rw [show w = _ from h]

theorem Desk.time {b w : State} (h : Desk b w) : w.time = b.time := by rw [show w = _ from h]

theorem Desk.pw {b w : State} (h : Desk b w) : w.pw = b.pw := by rw [show w = _ from h]

theorem Desk.nv {b w : State} (h : Desk b w) : w.nv = b.nv := by rw [show w = _ from h]

theorem Desk.regs {b w : State} (h : Desk b w) : w.regs = b.regs := by rw [show w = _ from h]

theorem Desk.pool {b w : State} (h : Desk b w) : w.pool = b.pool := by rw [show w = _ from h]

theorem Desk.cgroups {b w : State} (h : Desk b w) : w.cgroups = b.cgroups := by rw [show w = _ from h]

theorem Desk.igroups {b w : State} (h : Desk b w) : w.igroups = b.igroups := by rw [show w = _ from h]

theorem Desk.cams {b w : State} (h : Desk b w) : w.cams = b.cams := by rw [show w = _ from h]

theorem Desk.posted {b w : State} (h : Desk b w) : w.posted = b.posted := by rw [show w = _ from h]

theorem Desk.evaluated {b w : State} (h : Desk b w) : w.evaluated = b.evaluated := by rw [show w = _ from h]

theorem Desk.samples {b w : State} (h : Desk b w) : w.samples = b.samples := by rw [show w = _ from h]

theorem Desk.segs {b w : State} (h : Desk b w) : w.segs = b.segs := by rw [show w = _ from h]

theorem Desk.fbp {b w : State} (h : Desk b w) : w.fbp = b.fbp := by rw [show w = _ from h]

theorem Desk.lat {b w : State} (h : Desk b w) : w.lat = b.lat := by rw [show w = _ from h]

theorem Desk.pul {b w : State} (h : Desk b w) : w.pul = b.pul := by rw [show w = _ from h]

theorem Desk.adc {b w : State} (h : Desk b w) : w.adc = b.adc := by rw [show w = _ from h]

theorem Desk.an {b w : State} (h : Desk b w) : w.an = b.an := by rw [show w = _ from h]

theorem Desk.saf {b w : State} (h : Desk b w) : w.saf = b.saf := by rw [show w = _ from h]

theorem Desk.sram {b w : State} (h : Desk b w) : w.sram = b.sram := by rw [show w = _ from h]

theorem Desk.tap {b w : State} (h : Desk b w) : w.tap = b.tap := by rw [show w = _ from h]

theorem Desk.tapReset {b w : State} (h : Desk b w) : w.tapReset = b.tapReset := by rw [show w = _ from h]

theorem Desk.axis {b w : State} (h : Desk b w) (a : Nat) : w.axis a = b.axis a := by
  unfold State.axis
  rw [h.axes]

theorem OnAxis.refl (a : Nat) (b : State) : OnAxis a b b := ⟨fun _ _ => rfl, rfl⟩

theorem OnAxis.of_desk {a : Nat} {b w : State} (h : Desk b w) : OnAxis a b w := by
  refine ⟨fun x _ => h.axis x, ?_⟩
  have e : ({ b with axes := w.axes } : State) = b := by rw [h.axes]
  rw [e]
  exact h

theorem OnAxis.trans {a : Nat} {b c d : State} (h : OnAxis a b c) (g : OnAxis a c d) : OnAxis a b d := by
  refine ⟨fun x hx => (g.1 x hx).trans (h.1 x hx), ?_⟩
  refine .of_desk (g.2.desk.trans ?_)
  have h2 := h.2.desk
  cases b
  cases c
  cases d
  simp only [State.desk, State.mk.injEq] at h2 ⊢
  simp_all

theorem OnAxis.of_modAxis (b : State) (a : Nat) (f : Axis → Axis) : OnAxis a b (b.modAxis a f) := by
  refine ⟨fun x hx => ?_, rfl⟩
  show SMap.get (Axis.default x) (SMap.put (Axis.default a) b.axes a _) x = SMap.get (Axis.default x) b.axes x
  unfold SMap.get
  rw [SMap.lookup_put_ne _ _ _ hx]

/-! ## Descriptors -/

theorem State.cmdTaken_Desk (s : State) (h : DHdr) (op : DOp) : Desk s (s.cmdTaken h op) := rfl

/-- A descriptor that passes the first checks has the effect of its opcode on the state with its record. -/
theorem State.runDescr_taken (s : State) (h : DHdr) (op : DOp) (f : Ctx → Entry → State → State) (ht : Taken s h op) :
    s.runDescr h op f = (f (s.cmdCtx h op) (s.cmdEntry h op) (s.cmdTaken h op)).postReady := by
  obtain ⟨h1, h2, h3⟩ := ht
  have h2' : (s.cmdTaken h op).modeExcludes (opcOf op) = false := h2
  unfold State.runDescr
  simp only [h1, h2', h3, Bool.not_true, Bool.false_eq_true, if_false]

theorem State.postReady_Desk (s : State) : Desk s s.postReady := .of_desk (State.postReady_desk s)

theorem State.finish_Desk (s : State) (id status : Nat) (r : List Byte) : Desk s (s.finish id status r) :=
  .of_desk (State.finish_desk _ _ _ _)

theorem State.endMotion_axis (s : State) (c : Ctx) (a : Nat) (l : List (Nat × Nat)) :
    (s.endMotion c a l).axis a =
      { s.axis a with mo := { (s.axis a).mo with ending := (s.axis a).mo.ending ++ if c.job then l else [] } } := by
  unfold State.endMotion
  split
  · next h => rw [State.modAxis_axis_same]
  · next h =>
    rw [Desk.axis (.of_desk (State.finishAll_desk _ _ _ _ _)), List.append_nil]

theorem State.endMotion_OnAxis (s : State) (c : Ctx) (a : Nat) (l : List (Nat × Nat)) : OnAxis a s (s.endMotion c a l) := by
  unfold State.endMotion
  split
  · exact .of_modAxis _ _ _
  · exact .of_desk (.of_desk (State.finishAll_desk _ _ _ _ _))

theorem State.doneOn_OnAxis (s : State) (c : Ctx) (e : Entry) (a : Nat) : OnAxis a s (s.doneOn c e a) := by
  unfold State.doneOn
  split
  · exact .of_modAxis _ _ _
  · exact .of_desk (.of_desk (State.finish_desk _ _ _ _))

theorem State.doneOn_axis (s : State) (c : Ctx) (e : Entry) (a : Nat) :
    (s.doneOn c e a).axis a = { s.axis a with ends := (s.axis a).ends ++ if c.job then [e.id] else [] } := by
  unfold State.doneOn
  split
  · rw [State.modAxis_axis_same]
  · rw [Desk.axis (.of_desk (State.finish_desk _ _ _ _)), List.append_nil]

theorem State.engage_OnAxis (s : State) (c : Ctx) (a : Nat) (f : Motion → Motion) (l : List (Nat × Nat)) :
    OnAxis a s (s.engage c a f l) :=
  (OnAxis.of_modAxis _ _ _).trans (State.endMotion_OnAxis _ _ _ _)

theorem State.engage_axis (s : State) (c : Ctx) (a : Nat) (f : Motion → Motion) (l : List (Nat × Nat)) :
    (s.engage c a f l).axis a =
      { s.axis a with
        mo := { f (s.axis a).mo.takeOver.1 with
          ending := (f (s.axis a).mo.takeOver.1).ending ++ if c.job then (s.axis a).mo.takeOver.2 ++ l else [] } } := by
  unfold State.engage
  rw [State.endMotion_axis, State.modAxis_axis_same]

/-- What a descriptor leaves when its effect on axis `a` is followed by posting. -/
theorem OnAxis.posted {a : Nat} {s : State} {h : DHdr} {op : DOp} {w : State} (g : OnAxis a (s.cmdTaken h op) w) :
    OnAxis a s w.postReady :=
  ((OnAxis.of_desk (State.cmdTaken_Desk s h op)).trans g).trans (.of_desk (State.postReady_Desk w))

theorem State.postReady_axis (s : State) (a : Nat) : s.postReady.axis a = s.axis a := Desk.axis (State.postReady_Desk s) a

theorem State.cmdTaken_axis (s : State) (h : DHdr) (op : DOp) (a : Nat) : (s.cmdTaken h op).axis a = s.axis a := rfl

theorem Motion.takeOver_keeps (m : Motion) : m.takeOver.1.p = m.p ∧ m.takeOver.1.v = m.v ∧ m.takeOver.1.a = m.a := by
  unfold Motion.takeOver Motion.leave
  extract_lets l
  split <;> exact ⟨rfl, rfl, rfl⟩

/-- The effect of a motion descriptor that no bar stops. -/
theorem State.runDescr_motion (s : State) (h : DHdr) (op : DOp) (k : MotionOp) (g : Ctx → Entry → State → State)
    (ht : Taken s h op) (hb : s.motionBar (s.cmdCtx h op) h.tgt k = none) :
    s.runDescr h op (fun c e s => s.motionEffect c e k (g c e)) =
      (g (s.cmdCtx h op) (s.cmdEntry h op) (s.cmdTaken h op)).postReady := by
  rw [State.runDescr_taken _ _ _ _ ht]
  have hb' : (s.cmdTaken h op).motionBar (s.cmdCtx h op) (s.cmdEntry h op).tgt k = none := hb
  simp only [State.motionEffect, hb']

/-- A new source on the axis of a descriptor: what the command leaves, the axis's motion in full. -/
theorem State.engage_posted (s : State) (h : DHdr) (op : DOp) (f : Motion → Motion) (l : List (Nat × Nat)) :
    OnAxis h.tgt s ((s.cmdTaken h op).engage (s.cmdCtx h op) h.tgt f l).postReady ∧
      ((s.cmdTaken h op).engage (s.cmdCtx h op) h.tgt f l).postReady.axis h.tgt =
        { s.axis h.tgt with
          mo := { f (s.axis h.tgt).mo.takeOver.1 with
            ending := (f (s.axis h.tgt).mo.takeOver.1).ending ++
              if (s.cmdCtx h op).job then (s.axis h.tgt).mo.takeOver.2 ++ l else [] } } :=
  ⟨(State.engage_OnAxis _ _ _ _ _).posted, (State.postReady_axis _ _).trans (State.engage_axis _ _ _ _ _)⟩

end Sys2Proof.Machine
end

