-- ==== Sys2Proof/Laws/Guarded.lean ====
section
/-! SUPPORT. What no operation but a few touches: the supplies and their conditions, the pages of the NV store, the TAP,
and which safety outputs are closed. One lemma for each operation on the state says that it leaves all of these alone; the
operations that do not are the ones whose lemmas stand in Laws/Island.lean and Laws/Stores.lean. -/

set_option linter.unusedSimpArgs false
set_option linter.unusedVariables false

namespace Sys2Proof.Machine

theorem steady_mk (mo pr ch df pm rg en att fa rl sa nw na ho vr vm vs hot sh ca cr re dom pl td ta rf pe ld rt st) :
    (Power.mk mo pr ch df pm rg en att fa rl sa nw na ho vr vm vs hot sh ca cr re dom pl td ta rf pe ld rt st).steady =
      Power.mk .boot .reset 0 .idle [] rg en att fa rl sa nw na ho vr vm vs hot sh ca cr re [] pl td ta rf pe [] [] none := rfl

theorem steady_eta (p : Power) :
    Power.mk .boot .reset 0 .idle [] p.railsGood p.enabling p.attempts p.failedAt p.railLost p.shutAt p.nvw p.nvwAt p.hold p.vrst
      p.vaonMin p.vsuv p.hot p.shut p.cause p.causeRail p.resets [] p.plls p.tdOk p.tdAt p.refclk p.perst [] [] none = p.steady := rfl

theorem steady_dom (p : Power) (d : List Nat) : ({ p with domains := d }).steady = p.steady := rfl

/-- Which outputs of a map are closed. -/
def closedOf (m : SMap SafOut) : Nat → Bool := fun k => (SMap.get {} m k).on

/-- Which safety outputs are closed. -/
def Safety.closed (g : Safety) : Nat → Bool := closedOf g.outs

theorem closed_mk (a b ca pa fn ou co cy tm pm tr sr sc og op on ev ma di ak ac ao lo sp cl cf sw) :
    (Safety.mk a b ca pa fn ou co cy tm pm tr sr sc og op on ev ma di ak ac ao lo sp cl cf sw).closed = closedOf ou := rfl

theorem closed_eta (g : Safety) : closedOf g.outs = g.closed := rfl

/-- The supplies, the NV pages, the TAP and the closed safety outputs. -/
def State.guarded (s : State) : Power × SMap (List Byte) × Tap × Bool × (Nat → Bool) :=
  (s.pw.steady, s.nv.pages, s.tap, s.tapReset, s.saf.closed)

theorem guarded_mk (pe n fr o ti pw nv re ho po ax cg ig ca po2 ev sa se fb la pu ad an tw asy saf sram tap tr) :
    (State.mk pe n fr o ti pw nv re ho po ax cg ig ca po2 ev sa se fb la pu ad an tw asy saf sram tap tr).guarded =
      (pw.steady, nv.pages, tap, tr, saf.closed) := rfl

theorem guarded_eta (s : State) : (s.pw.steady, s.nv.pages, s.tap, s.tapReset, s.saf.closed) = s.guarded := rfl

theorem guarded_tw (s : State) (x : Twin) : ({ s with tw := x }).guarded = s.guarded := rfl

/-- A fold leaves alone what each of its steps leaves alone. -/
theorem guarded_fold {α : Type} (g : State → α → State) (h : ∀ s x, (g s x).guarded = s.guarded) (l : List α) (s : State) :
    (l.foldl g s).guarded = s.guarded := by
  induction l generalizing s with
  | nil => rfl
  | cons a r ih => rw [List.foldl_cons, ih, h]

theorem guarded_if {c : Prop} [Decidable c] {a b : State} : (ite c a b).guarded = ite c a.guarded b.guarded := by
  split <;> rfl

/-! ## The operations, in the order of their files -/

theorem State.modPool_guarded (s : State) (f : Pool → Pool) :
    (State.modPool s f).guarded = s.guarded := by
  delta State.modPool
  simp only [guarded_mk, steady_mk, steady_eta, closed_mk, closed_eta, guarded_eta, guarded_fold, guarded_if, ite_self, implies_true]

theorem State.at_guarded (s : State) (t : Nat) :
    (State.at s t).guarded = s.guarded := by
  delta State.at
  simp only [guarded_mk, steady_mk, steady_eta, closed_mk, closed_eta, guarded_eta, guarded_fold, guarded_if, ite_self, implies_true]

theorem State.setAxis_guarded (s : State) (a : Nat) (x : Axis) :
    (State.setAxis s a x).guarded = s.guarded := by
  delta State.setAxis
  simp only [guarded_mk, steady_mk, steady_eta, closed_mk, closed_eta, guarded_eta, guarded_fold, guarded_if, ite_self, implies_true]

theorem State.modAxis_guarded (s : State) (a : Nat) (f : Axis → Axis) :
    (State.modAxis s a f).guarded = s.guarded := by
  delta State.modAxis
  simp only [guarded_mk, steady_mk, steady_eta, closed_mk, closed_eta, guarded_eta, guarded_fold, guarded_if, ite_self, implies_true, State.setAxis_guarded]

theorem State.setSeg_guarded (s : State) (k : Nat) (x : Segment) :
    (State.setSeg s k x).guarded = s.guarded := by
  delta State.setSeg
  simp only [guarded_mk, steady_mk, steady_eta, closed_mk, closed_eta, guarded_eta, guarded_fold, guarded_if, ite_self, implies_true]

theorem State.modSeg_guarded (s : State) (k : Nat) (f : Segment → Segment) :
    (State.modSeg s k f).guarded = s.guarded := by
  delta State.modSeg
  simp only [guarded_mk, steady_mk, steady_eta, closed_mk, closed_eta, guarded_eta, guarded_fold, guarded_if, ite_self, implies_true, State.setSeg_guarded]

theorem State.modNode_guarded (s : State) (k j : Nat) (f : Node → Node) :
    (State.modNode s k j f).guarded = s.guarded := by
  delta State.modNode
  simp only [guarded_mk, steady_mk, steady_eta, closed_mk, closed_eta, guarded_eta, guarded_fold, guarded_if, ite_self, implies_true, State.modSeg_guarded]

theorem State.modRing_guarded (s : State) (r : Nat) (f : Ring → Ring) :
    (State.modRing s r f).guarded = s.guarded := by
  delta State.modRing
  simp only [guarded_mk, steady_mk, steady_eta, closed_mk, closed_eta, guarded_eta, guarded_fold, guarded_if, ite_self, implies_true]

theorem State.modHammer_guarded (s : State) (h : Nat) (f : Hammer → Hammer) :
    (State.modHammer s h f).guarded = s.guarded := by
  delta State.modHammer
  simp only [guarded_mk, steady_mk, steady_eta, closed_mk, closed_eta, guarded_eta, guarded_fold, guarded_if, ite_self, implies_true]

theorem State.modPort_guarded (s : State) (p : Nat) (f : FbPort → FbPort) :
    (State.modPort s p f).guarded = s.guarded := by
  delta State.modPort
  simp only [guarded_mk, steady_mk, steady_eta, closed_mk, closed_eta, guarded_eta, guarded_fold, guarded_if, ite_self, implies_true]

theorem State.modLatch_guarded (s : State) (n : Nat) (f : Latch → Latch) :
    (State.modLatch s n f).guarded = s.guarded := by
  delta State.modLatch
  simp only [guarded_mk, steady_mk, steady_eta, closed_mk, closed_eta, guarded_eta, guarded_fold, guarded_if, ite_self, implies_true]

theorem State.modStep_guarded (s : State) (c : Nat) (f : StepCh → StepCh) :
    (State.modStep s c f).guarded = s.guarded := by
  delta State.modStep
  simp only [guarded_mk, steady_mk, steady_eta, closed_mk, closed_eta, guarded_eta, guarded_fold, guarded_if, ite_self, implies_true]

theorem State.modConv_guarded (s : State) (c : Nat) (f : Conv → Conv) :
    (State.modConv s c f).guarded = s.guarded := by
  delta State.modConv
  simp only [guarded_mk, steady_mk, steady_eta, closed_mk, closed_eta, guarded_eta, guarded_fold, guarded_if, ite_self, implies_true]

theorem State.modTwSeg_guarded (s : State) (k : Nat) (f : TwinSeg → TwinSeg) :
    (State.modTwSeg s k f).guarded = s.guarded := by
  delta State.modTwSeg
  simp only [guarded_mk, steady_mk, steady_eta, closed_mk, closed_eta, guarded_eta, guarded_fold, guarded_if, ite_self, implies_true]

theorem State.modSrc_guarded (s : State) (c : Nat) (f : SrcSt → SrcSt) :
    (State.modSrc s c f).guarded = s.guarded := by
  delta State.modSrc
  simp only [guarded_mk, steady_mk, steady_eta, closed_mk, closed_eta, guarded_eta, guarded_fold, guarded_if, ite_self, implies_true]

theorem State.modDom_guarded (s : State) (k : Nat) (f : Domain → Domain) :
    (State.modDom s k f).guarded = s.guarded := by
  delta State.modDom
  simp only [guarded_mk, steady_mk, steady_eta, closed_mk, closed_eta, guarded_eta, guarded_fold, guarded_if, ite_self, implies_true]

theorem State.modPlant_guarded (s : State) (p : Nat) (f : PlantPort → PlantPort) :
    (State.modPlant s p f).guarded = s.guarded := by
  delta State.modPlant
  simp only [guarded_mk, steady_mk, steady_eta, closed_mk, closed_eta, guarded_eta, guarded_fold, guarded_if, ite_self, implies_true]

theorem State.emit_guarded (s : State) (o : Out) :
    (State.emit s o).guarded = s.guarded := by
  delta State.emit
  simp only [guarded_mk, steady_mk, steady_eta, closed_mk, closed_eta, guarded_eta, guarded_fold, guarded_if, ite_self, implies_true]

theorem State.disarm_guarded (s : State) (src : Nat) :
    (State.disarm s src).guarded = s.guarded := by
  delta State.disarm
  simp only [guarded_mk, steady_mk, steady_eta, closed_mk, closed_eta, guarded_eta, guarded_fold, guarded_if, ite_self, implies_true]

theorem State.draw_guarded (s : State) : s.draw.2.guarded = s.guarded := rfl

theorem State.emitHost_guarded (s : State) (o : Out) :
    (State.emitHost s o).guarded = s.guarded := by
  delta State.emitHost
  simp only [guarded_mk, steady_mk, steady_eta, closed_mk, closed_eta, guarded_eta, guarded_fold, guarded_if, ite_self, implies_true, State.emit_guarded]

theorem State.sendTwin_guarded (s : State) (type seg tag minor : Nat) (payload : List Byte) :
    (State.sendTwin s type seg tag minor payload).guarded = s.guarded := by
  delta State.sendTwin
  simp only [guarded_mk, steady_mk, steady_eta, closed_mk, closed_eta, guarded_eta, guarded_fold, guarded_if, ite_self, implies_true, State.disarm_guarded, State.emit_guarded]

theorem State.setForce_guarded (s : State) (off v : Nat) :
    (State.setForce s off v).guarded = s.guarded := by
  delta State.setForce
  simp only [guarded_mk, steady_mk, steady_eta, closed_mk, closed_eta, guarded_eta, guarded_fold, guarded_if, ite_self, implies_true]

theorem State.setMode_guarded (s : State) (m : DevMode) :
    (State.setMode s m).guarded = s.guarded := by
  delta State.setMode
  simp only [guarded_mk, steady_mk, steady_eta, closed_mk, closed_eta, guarded_eta, guarded_fold, guarded_if, ite_self, implies_true]

theorem State.addMark_guarded (s : State) (src kind addr react : Nat) (detail : List Byte) (applied : Bool) :
    (State.addMark s src kind addr react detail applied).guarded = s.guarded := by
  delta State.addMark
  simp only [guarded_mk, steady_mk, steady_eta, closed_mk, closed_eta, guarded_eta, guarded_fold, guarded_if, ite_self, implies_true, State.modSrc_guarded]

theorem State.raise_guarded (s : State) (src kind addr : Nat) (detail : List Byte) :
    (State.raise s src kind addr detail).guarded = s.guarded := by
  delta State.raise
  simp only [guarded_mk, steady_mk, steady_eta, closed_mk, closed_eta, guarded_eta, guarded_fold, guarded_if, ite_self, implies_true, State.addMark_guarded]

theorem State.raiseDone_guarded (s : State) (src kind addr react : Nat) (detail : List Byte) :
    (State.raiseDone s src kind addr react detail).guarded = s.guarded := by
  delta State.raiseDone
  simp only [guarded_mk, steady_mk, steady_eta, closed_mk, closed_eta, guarded_eta, guarded_fold, guarded_if, ite_self, implies_true, State.addMark_guarded]

theorem State.raiseOnce_guarded (s : State) (src kind addr : Nat) (detail : List Byte) :
    (State.raiseOnce s src kind addr detail).guarded = s.guarded := by
  delta State.raiseOnce
  simp only [guarded_mk, steady_mk, steady_eta, closed_mk, closed_eta, guarded_eta, guarded_fold, guarded_if, ite_self, implies_true, State.raise_guarded]

theorem State.liveOn_guarded (s : State) (src kind : Nat) :
    (State.liveOn s src kind).guarded = s.guarded := by
  delta State.liveOn
  simp only [guarded_mk, steady_mk, steady_eta, closed_mk, closed_eta, guarded_eta, guarded_fold, guarded_if, ite_self, implies_true, State.modSrc_guarded]

theorem State.liveOff_guarded (s : State) (src kind : Nat) :
    (State.liveOff s src kind).guarded = s.guarded := by
  delta State.liveOff
  simp only [guarded_mk, steady_mk, steady_eta, closed_mk, closed_eta, guarded_eta, guarded_fold, guarded_if, ite_self, implies_true, State.modSrc_guarded]

theorem State.fence_guarded (s : State) (src reason : Nat) :
    (State.fence s src reason).guarded = s.guarded := by
  delta State.fence
  simp only [guarded_mk, steady_mk, steady_eta, closed_mk, closed_eta, guarded_eta, guarded_fold, guarded_if, ite_self, implies_true, State.modSrc_guarded, State.raiseDone_guarded]

theorem State.unfence_guarded (s : State) (src : Nat) :
    (State.unfence s src).guarded = s.guarded := by
  delta State.unfence
  simp only [guarded_mk, steady_mk, steady_eta, closed_mk, closed_eta, guarded_eta, guarded_fold, guarded_if, ite_self, implies_true, State.modSrc_guarded, State.raiseDone_guarded]

theorem State.sendMsi_guarded (s : State) (vec : Nat) :
    (State.sendMsi s vec).guarded = s.guarded := by
  delta State.sendMsi
  simp only [guarded_mk, steady_mk, steady_eta, closed_mk, closed_eta, guarded_eta, guarded_fold, guarded_if, ite_self, implies_true, State.emitHost_guarded]

theorem State.ringMsi_guarded (s : State) (r : Nat) :
    (State.ringMsi s r).guarded = s.guarded := by
  delta State.ringMsi
  simp only [guarded_mk, steady_mk, steady_eta, closed_mk, closed_eta, guarded_eta, guarded_fold, guarded_if, ite_self, implies_true, State.modRing_guarded, State.sendMsi_guarded]

theorem State.ringDrops_guarded (s : State) (r n : Nat) :
    (State.ringDrops s r n).guarded = s.guarded := by
  delta State.ringDrops
  simp only [guarded_mk, steady_mk, steady_eta, closed_mk, closed_eta, guarded_eta, guarded_fold, guarded_if, ite_self, implies_true, State.modRing_guarded, State.raiseOnce_guarded]

theorem State.ringDrop_guarded (s : State) (r : Nat) :
    (State.ringDrop s r).guarded = s.guarded := by
  delta State.ringDrop
  simp only [guarded_mk, steady_mk, steady_eta, closed_mk, closed_eta, guarded_eta, guarded_fold, guarded_if, ite_self, implies_true, State.ringDrops_guarded]

theorem State.putEntry_guarded (s : State) (r : Nat) (e : List Byte) :
    (State.putEntry s r e).guarded = s.guarded := by
  delta State.putEntry
  simp only [guarded_mk, steady_mk, steady_eta, closed_mk, closed_eta, guarded_eta, guarded_fold, guarded_if, ite_self, implies_true, State.emitHost_guarded, State.modRing_guarded]

theorem State.putIndex_guarded (s : State) (r : Nat) (msg : Bool) :
    (State.putIndex s r msg).guarded = s.guarded := by
  delta State.putIndex
  simp only [guarded_mk, steady_mk, steady_eta, closed_mk, closed_eta, guarded_eta, guarded_fold, guarded_if, ite_self, implies_true, State.emitHost_guarded, State.ringMsi_guarded]

theorem State.post_guarded (s : State) (r : Nat) (e : List Byte) :
    (State.post s r e).guarded = s.guarded := by
  delta State.post
  simp only [guarded_mk, steady_mk, steady_eta, closed_mk, closed_eta, guarded_eta, guarded_fold, guarded_if, ite_self, implies_true, State.putEntry_guarded, State.putIndex_guarded, State.ringDrop_guarded]

theorem State.statusWrite_guarded (s : State) (off : Nat) (bs : List Byte) :
    (State.statusWrite s off bs).guarded = s.guarded := by
  delta State.statusWrite
  simp only [guarded_mk, steady_mk, steady_eta, closed_mk, closed_eta, guarded_eta, guarded_fold, guarded_if, ite_self, implies_true, State.emitHost_guarded]

theorem State.keepDefine_guarded (s : State) (e : Entry) :
    (State.keepDefine s e).guarded = s.guarded := by
  delta State.keepDefine
  (try extract_lets) <;> (repeat' split) <;> (try with_reducible rfl) <;>
    (simp +zetaDelta only [guarded_mk, steady_mk, steady_eta, closed_mk, closed_eta, guarded_eta, guarded_fold, guarded_if, ite_self, implies_true]) <;> (repeat' split) <;> (try with_reducible rfl) <;>
    simp +zetaDelta only [guarded_mk, steady_mk, steady_eta, closed_mk, closed_eta, guarded_eta, guarded_fold, guarded_if, ite_self, implies_true]

theorem State.postCpl_guarded (s : State) (e : Entry) (rec_ : List Byte) :
    (State.postCpl s e rec_).guarded = s.guarded := by
  delta State.postCpl
  simp only [guarded_mk, steady_mk, steady_eta, closed_mk, closed_eta, guarded_eta, guarded_fold, guarded_if, ite_self, implies_true, State.putEntry_guarded, State.putIndex_guarded, State.sendTwin_guarded]

theorem postLoop_guarded (s : State) (b k l) : (postLoop s b k l).guarded = s.guarded := by
  induction l generalizing s b k with
  | nil => rfl
  | cons e r ih => unfold postLoop; split <;> (try split) <;> simp only [ih, State.postCpl_guarded, State.keepDefine_guarded]

theorem State.cplDisable_guarded (s : State) (r : Nat) :
    (State.cplDisable s r).guarded = s.guarded := by
  delta State.cplDisable
  simp only [guarded_mk, steady_mk, steady_eta, closed_mk, closed_eta, guarded_eta, guarded_fold, guarded_if, ite_self, implies_true, State.modRing_guarded]

theorem State.cplDisables_guarded (s : State) :
    (State.cplDisables s).guarded = s.guarded := by
  delta State.cplDisables
  simp only [guarded_mk, steady_mk, steady_eta, closed_mk, closed_eta, guarded_eta, guarded_fold, guarded_if, ite_self, implies_true, State.cplDisable_guarded]

theorem State.postReady_guarded (s : State) :
    (State.postReady s).guarded = s.guarded := by
  delta State.postReady
  simp only [guarded_mk, steady_mk, steady_eta, closed_mk, closed_eta, guarded_eta, guarded_fold, guarded_if, ite_self, implies_true, State.cplDisables_guarded, postLoop_guarded]

theorem State.modEntry_guarded (s : State) (id : Nat) (f : Entry → Entry) :
    (State.modEntry s id f).guarded = s.guarded := by
  delta State.modEntry
  simp only [guarded_mk, steady_mk, steady_eta, closed_mk, closed_eta, guarded_eta, guarded_fold, guarded_if, ite_self, implies_true]

theorem State.finish_guarded (s : State) (id status : Nat) (res : List Byte) :
    (State.finish s id status res).guarded = s.guarded := by
  delta State.finish
  simp only [guarded_mk, steady_mk, steady_eta, closed_mk, closed_eta, guarded_eta, guarded_fold, guarded_if, ite_self, implies_true, State.modEntry_guarded]

theorem State.finishOpt_guarded (s : State) (id : Option Nat) (status : Nat) (res : List Byte) :
    (State.finishOpt s id status res).guarded = s.guarded := by
  delta State.finishOpt
  (try extract_lets) <;> (repeat' split) <;> (try with_reducible rfl) <;>
    (simp +zetaDelta only [guarded_mk, steady_mk, steady_eta, closed_mk, closed_eta, guarded_eta, guarded_fold, guarded_if, ite_self, implies_true, State.finish_guarded]) <;> (repeat' split) <;> (try with_reducible rfl) <;>
    simp +zetaDelta only [guarded_mk, steady_mk, steady_eta, closed_mk, closed_eta, guarded_eta, guarded_fold, guarded_if, ite_self, implies_true, State.finish_guarded]

theorem State.startEntry_guarded (s : State) (id n m : Nat) :
    (State.startEntry s id n m).guarded = s.guarded := by
  delta State.startEntry
  simp only [guarded_mk, steady_mk, steady_eta, closed_mk, closed_eta, guarded_eta, guarded_fold, guarded_if, ite_self, implies_true, State.modEntry_guarded]

theorem State.devSet_guarded (s : State) (off mask v : Nat) :
    (State.devSet s off mask v).guarded = s.guarded := by
  delta State.devSet
  (try extract_lets) <;> (repeat' split) <;> (try with_reducible rfl) <;>
    (simp +zetaDelta only [guarded_mk, steady_mk, steady_eta, closed_mk, closed_eta, guarded_eta, guarded_fold, guarded_if, ite_self, implies_true, State.setForce_guarded]) <;> (repeat' split) <;> (try with_reducible rfl) <;>
    simp +zetaDelta only [guarded_mk, steady_mk, steady_eta, closed_mk, closed_eta, guarded_eta, guarded_fold, guarded_if, ite_self, implies_true, State.setForce_guarded]

theorem State.stopPath_guarded (s : State) (g : Nat) (pol : Nat) (ids : List (Nat × Nat)) :
    (State.stopPath s g pol ids).guarded = s.guarded := by
  delta State.stopPath
  (try extract_lets) <;> (repeat' split) <;> (try with_reducible rfl) <;>
    (simp +zetaDelta only [guarded_mk, steady_mk, steady_eta, closed_mk, closed_eta, guarded_eta, guarded_fold, guarded_if, ite_self, implies_true, State.modAxis_guarded]) <;> (repeat' split) <;> (try with_reducible rfl) <;>
    simp +zetaDelta only [guarded_mk, steady_mk, steady_eta, closed_mk, closed_eta, guarded_eta, guarded_fold, guarded_if, ite_self, implies_true, State.modAxis_guarded]

theorem State.stopAxis_guarded (s : State) (a : Nat) (two closed : Bool) (pol : Nat) (fault : Bool) (ids : List Nat) :
    (State.stopAxis s a two closed pol fault ids).guarded = s.guarded := by
  delta State.stopAxis
  (try extract_lets) <;> (repeat' split) <;> (try with_reducible rfl) <;>
    (simp +zetaDelta only [guarded_mk, steady_mk, steady_eta, closed_mk, closed_eta, guarded_eta, guarded_fold, guarded_if, ite_self, implies_true, State.modAxis_guarded, State.stopPath_guarded]) <;> (repeat' split) <;> (try with_reducible rfl) <;>
    simp +zetaDelta only [guarded_mk, steady_mk, steady_eta, closed_mk, closed_eta, guarded_eta, guarded_fold, guarded_if, ite_self, implies_true, State.modAxis_guarded, State.stopPath_guarded]

theorem State.axisStop_guarded (s : State) (a src kind : Nat) :
    (State.axisStop s a src kind).guarded = s.guarded := by
  delta State.axisStop
  simp only [guarded_mk, steady_mk, steady_eta, closed_mk, closed_eta, guarded_eta, guarded_fold, guarded_if, ite_self, implies_true, State.modAxis_guarded]

theorem State.axisStops_guarded (s : State) (l : List Nat) (src kind : Nat) :
    (State.axisStops s l src kind).guarded = s.guarded := by
  delta State.axisStops
  simp only [guarded_mk, steady_mk, steady_eta, closed_mk, closed_eta, guarded_eta, guarded_fold, guarded_if, ite_self, implies_true, State.axisStop_guarded]

theorem State.faultSegment_guarded (s : State) (k src kind : Nat) :
    (State.faultSegment s k src kind).guarded = s.guarded := by
  delta State.faultSegment
  simp only [guarded_mk, steady_mk, steady_eta, closed_mk, closed_eta, guarded_eta, guarded_fold, guarded_if, ite_self, implies_true, State.modAxis_guarded]

theorem State.segmentStop_guarded (s : State) (k src kind : Nat) :
    (State.segmentStop s k src kind).guarded = s.guarded := by
  delta State.segmentStop
  simp only [guarded_mk, steady_mk, steady_eta, closed_mk, closed_eta, guarded_eta, guarded_fold, guarded_if, ite_self, implies_true, State.faultSegment_guarded, State.fence_guarded, State.liveOn_guarded, State.modSeg_guarded]

theorem State.stopNow_guarded (s : State) (k : Nat) :
    (State.stopNow s k).guarded = s.guarded := by
  delta State.stopNow
  simp only [guarded_mk, steady_mk, steady_eta, closed_mk, closed_eta, guarded_eta, guarded_fold, guarded_if, ite_self, implies_true, State.faultSegment_guarded, State.modSeg_guarded]

theorem State.stopDue_guarded (s : State) (k n m : Nat) :
    (State.stopDue s k n m).guarded = s.guarded := by
  delta State.stopDue
  (try extract_lets) <;> (repeat' split) <;> (try with_reducible rfl) <;>
    (simp +zetaDelta only [guarded_mk, steady_mk, steady_eta, closed_mk, closed_eta, guarded_eta, guarded_fold, guarded_if, ite_self, implies_true, State.stopNow_guarded]) <;> (repeat' split) <;> (try with_reducible rfl) <;>
    simp +zetaDelta only [guarded_mk, steady_mk, steady_eta, closed_mk, closed_eta, guarded_eta, guarded_fold, guarded_if, ite_self, implies_true, State.stopNow_guarded]

theorem State.tellTwin_guarded (s : State) (o : TwinOut) :
    (State.tellTwin s o).guarded = s.guarded := by
  delta State.tellTwin
  simp only [guarded_mk, steady_mk, steady_eta, closed_mk, closed_eta, guarded_eta, guarded_fold, guarded_if, ite_self, implies_true, State.sendTwin_guarded]

theorem State.notReady_guarded (s : State) (l : List Nat) :
    (State.notReady s l).guarded = s.guarded := by
  delta State.notReady
  simp only [guarded_mk, steady_mk, steady_eta, closed_mk, closed_eta, guarded_eta, guarded_fold, guarded_if, ite_self, implies_true, State.modTwSeg_guarded]

theorem State.holdAxes_guarded (s : State) (src kind : Nat) :
    (State.holdAxes s src kind).guarded = s.guarded := by
  delta State.holdAxes
  simp only [guarded_mk, steady_mk, steady_eta, closed_mk, closed_eta, guarded_eta, guarded_fold, guarded_if, ite_self, implies_true, State.axisStops_guarded, State.modAxis_guarded]

theorem State.safeHold_guarded (s : State) (src kind : Nat) :
    (State.safeHold s src kind).guarded = s.guarded := by
  delta State.safeHold
  (try extract_lets) <;> (repeat' split) <;> (try with_reducible rfl) <;>
    (simp +zetaDelta only [guarded_mk, steady_mk, steady_eta, closed_mk, closed_eta, guarded_eta, guarded_fold, guarded_if, ite_self, implies_true, State.holdAxes_guarded, State.notReady_guarded, State.setMode_guarded, State.tellTwin_guarded]) <;> (repeat' split) <;> (try with_reducible rfl) <;>
    simp +zetaDelta only [guarded_mk, steady_mk, steady_eta, closed_mk, closed_eta, guarded_eta, guarded_fold, guarded_if, ite_self, implies_true, State.holdAxes_guarded, State.notReady_guarded, State.setMode_guarded, State.tellTwin_guarded]

theorem State.handOver_guarded (s : State) :
    (State.handOver s).guarded = s.guarded := by
  delta State.handOver
  simp only [guarded_mk, steady_mk, steady_eta, closed_mk, closed_eta, guarded_eta, guarded_fold, guarded_if, ite_self, implies_true, State.tellTwin_guarded]

theorem State.tellFaults_guarded (s : State) (l : List Nat) (kind : Nat) :
    (State.tellFaults s l kind).guarded = s.guarded := by
  delta State.tellFaults
  simp only [guarded_mk, steady_mk, steady_eta, closed_mk, closed_eta, guarded_eta, guarded_fold, guarded_if, ite_self, implies_true, State.tellTwin_guarded]

theorem State.takeReaction_guarded (s : State) (src kind addr code : Nat) (detail : List Byte) :
    (State.takeReaction s src kind addr code detail).guarded = s.guarded := by
  delta State.takeReaction
  simp only [guarded_mk, steady_mk, steady_eta, closed_mk, closed_eta, guarded_eta, guarded_fold, guarded_if, ite_self, implies_true, State.axisStops_guarded, State.handOver_guarded, State.notReady_guarded, State.safeHold_guarded, State.segmentStop_guarded, State.tellFaults_guarded]

theorem State.raiseNow_guarded (s : State) (src kind addr : Nat) (detail : List Byte) :
    (State.raiseNow s src kind addr detail).guarded = s.guarded := by
  delta State.raiseNow
  simp only [guarded_mk, steady_mk, steady_eta, closed_mk, closed_eta, guarded_eta, guarded_fold, guarded_if, ite_self, implies_true, State.raiseDone_guarded, State.takeReaction_guarded]

theorem State.degradeAs_guarded (s : State) (k : Nat) (half : Bool) :
    (State.degradeAs s k half).guarded = s.guarded := by
  delta State.degradeAs
  simp only [guarded_mk, steady_mk, steady_eta, closed_mk, closed_eta, guarded_eta, guarded_fold, guarded_if, ite_self, implies_true, State.fence_guarded, State.liveOn_guarded, State.modSeg_guarded, State.raiseDone_guarded, State.tellTwin_guarded]

theorem State.degradeStep_guarded (s : State) (k : Nat) :
    (State.degradeStep s k).guarded = s.guarded := by
  delta State.degradeStep
  simp only [guarded_mk, steady_mk, steady_eta, closed_mk, closed_eta, guarded_eta, guarded_fold, guarded_if, ite_self, implies_true, State.degradeAs_guarded]

theorem State.degradeLoop_guarded (n : Nat) (s : State) (v : Nat) : (State.degradeLoop n s v).guarded = s.guarded := by
  induction n generalizing s with
  | zero => rfl
  | succ n ih => unfold State.degradeLoop; (repeat' split) <;> simp only [ih, State.degradeStep_guarded]

theorem State.recheck_guarded (s : State) (v : Nat) :
    (State.recheck s v).guarded = s.guarded := by
  delta State.recheck
  simp only [guarded_mk, steady_mk, steady_eta, closed_mk, closed_eta, guarded_eta, guarded_fold, guarded_if, ite_self, implies_true, State.degradeLoop_guarded]

theorem State.sendBlk_guarded (s : State) (b : TwinBlk) :
    (State.sendBlk s b).guarded = s.guarded := by
  delta State.sendBlk
  simp only [guarded_mk, steady_mk, steady_eta, closed_mk, closed_eta, guarded_eta, guarded_fold, guarded_if, ite_self, implies_true, State.sendTwin_guarded]

theorem State.sendBytes_guarded (s : State) (seg unit n m : Nat) (bs : List Byte) :
    (State.sendBytes s seg unit n m bs).guarded = s.guarded := by
  delta State.sendBytes
  simp only [guarded_mk, steady_mk, steady_eta, closed_mk, closed_eta, guarded_eta, guarded_fold, guarded_if, ite_self, implies_true, State.sendBlk_guarded]

theorem State.resyncSend_guarded (s : State) (k : Nat) :
    (State.resyncSend s k).guarded = s.guarded := by
  delta State.resyncSend
  simp only [guarded_mk, steady_mk, steady_eta, closed_mk, closed_eta, guarded_eta, guarded_fold, guarded_if, ite_self, implies_true, State.modTwSeg_guarded, State.sendBytes_guarded]

theorem State.takeBatch_guarded (s : State) (k n m : Nat) :
    (State.takeBatch s k n m).guarded = s.guarded := by
  delta State.takeBatch
  simp only [guarded_mk, steady_mk, steady_eta, closed_mk, closed_eta, guarded_eta, guarded_fold, guarded_if, ite_self, implies_true, State.modTwSeg_guarded, State.resyncSend_guarded]

theorem State.startResync_guarded (s : State) (k : Nat) :
    (State.startResync s k).guarded = s.guarded := by
  delta State.startResync
  simp only [guarded_mk, steady_mk, steady_eta, closed_mk, closed_eta, guarded_eta, guarded_fold, guarded_if, ite_self, implies_true, State.modTwSeg_guarded]

theorem State.digestCompare_guarded (s : State) (k : Nat) :
    (State.digestCompare s k).guarded = s.guarded := by
  delta State.digestCompare
  (try extract_lets) <;> (repeat' split) <;> (try with_reducible rfl) <;>
    (simp +zetaDelta only [guarded_mk, steady_mk, steady_eta, closed_mk, closed_eta, guarded_eta, guarded_fold, guarded_if, ite_self, implies_true, State.modTwSeg_guarded, State.raise_guarded, State.startResync_guarded]) <;> (repeat' split) <;> (try with_reducible rfl) <;>
    simp +zetaDelta only [guarded_mk, steady_mk, steady_eta, closed_mk, closed_eta, guarded_eta, guarded_fold, guarded_if, ite_self, implies_true, State.modTwSeg_guarded, State.raise_guarded, State.startResync_guarded]

theorem State.modBank_guarded (s : State) (k n m : Nat) (f : Bank → Bank) :
    (State.modBank s k n m f).guarded = s.guarded := by
  delta State.modBank
  (try extract_lets) <;> (repeat' split) <;> (try with_reducible rfl) <;>
    (simp +zetaDelta only [guarded_mk, steady_mk, steady_eta, closed_mk, closed_eta, guarded_eta, guarded_fold, guarded_if, ite_self, implies_true, State.modSeg_guarded]) <;> (repeat' split) <;> (try with_reducible rfl) <;>
    simp +zetaDelta only [guarded_mk, steady_mk, steady_eta, closed_mk, closed_eta, guarded_eta, guarded_fold, guarded_if, ite_self, implies_true, State.modSeg_guarded]

theorem State.mould_guarded (s : State) (k n m a : Nat) (cmd tel : List Byte) :
    (State.mould s k n m a cmd tel).guarded = s.guarded := by
  delta State.mould
  simp only [guarded_mk, steady_mk, steady_eta, closed_mk, closed_eta, guarded_eta, guarded_fold, guarded_if, ite_self, implies_true, State.modBank_guarded]

theorem State.mouldAbort_guarded (s : State) (k n m a : Nat) (rep : ReportIn) (learnt : Bool) :
    (State.mouldAbort s k n m a rep learnt).guarded = s.guarded := by
  delta State.mouldAbort
  simp only [guarded_mk, steady_mk, steady_eta, closed_mk, closed_eta, guarded_eta, guarded_fold, guarded_if, ite_self, implies_true, State.mould_guarded]

theorem State.telOut_guarded (s : State) (k n m a : Nat) (e : MouldEntry) (room : Bool) :
    (State.telOut s k n m a e room).guarded = s.guarded := by
  delta State.telOut
  simp only [guarded_mk, steady_mk, steady_eta, closed_mk, closed_eta, guarded_eta, guarded_fold, guarded_if, ite_self, implies_true, State.putEntry_guarded]

theorem State.telFlow_guarded (s : State) (k n m : Nat) : (s.telFlow k n m).guarded = s.guarded := by
  have fold : ∀ (g : State × Bool → Nat → State × Bool), (∀ x a, (g x a).1.guarded = x.1.guarded) →
      ∀ (l : List Nat) x, (l.foldl g x).1.guarded = x.1.guarded := by
    intro g h l
    induction l with
    | nil => intro x; rfl
    | cons a r ih => intro x; rw [List.foldl_cons, ih, h]
  delta State.telFlow
  extract_lets b axes r s1 s2
  have hr : s1.guarded = s.guarded := by
    refine fold _ (fun x a => ?_) _ _
    split
    · rfl
    · split
      · simp only [State.modBank_guarded, State.telOut_guarded]
      · rfl
  split
  · rfl
  · split
    · rw [State.modRing_guarded]
      simp only [s2]
      split
      · rw [State.putIndex_guarded, hr]
      · exact hr
    · exact hr

theorem State.digest_guarded (s : State) (k n m : Nat) :
    (State.digest s k n m).guarded = s.guarded := by
  delta State.digest
  simp only [guarded_mk, steady_mk, steady_eta, closed_mk, closed_eta, guarded_eta, guarded_fold, guarded_if, ite_self, implies_true, State.digestCompare_guarded, State.modBank_guarded, State.modTwSeg_guarded, State.sendTwin_guarded]

theorem State.noteRelease_guarded (s : State) (k n m before : Nat) :
    (State.noteRelease s k n m before).guarded = s.guarded := by
  delta State.noteRelease
  simp only [guarded_mk, steady_mk, steady_eta, closed_mk, closed_eta, guarded_eta, guarded_fold, guarded_if, ite_self, implies_true, State.modBank_guarded]

theorem State.record_guarded (s : State) (k n m a : Nat) (cmd tel : List Byte) :
    (State.record s k n m a cmd tel).guarded = s.guarded := by
  delta State.record
  simp only [guarded_mk, steady_mk, steady_eta, closed_mk, closed_eta, guarded_eta, guarded_fold, guarded_if, ite_self, implies_true, State.digest_guarded, State.mould_guarded, State.noteRelease_guarded, State.telFlow_guarded]

theorem State.recordAbort_guarded (s : State) (k n m a : Nat) (rep : ReportIn) (learnt : Bool) :
    (State.recordAbort s k n m a rep learnt).guarded = s.guarded := by
  delta State.recordAbort
  simp only [guarded_mk, steady_mk, steady_eta, closed_mk, closed_eta, guarded_eta, guarded_fold, guarded_if, ite_self, implies_true, State.digest_guarded, State.mouldAbort_guarded, State.noteRelease_guarded, State.telFlow_guarded]

theorem State.modJob_guarded (s : State) (k : JobKey) (f : Job → Job) :
    (State.modJob s k f).guarded = s.guarded := by
  delta State.modJob
  simp only [guarded_mk, steady_mk, steady_eta, closed_mk, closed_eta, guarded_eta, guarded_fold, guarded_if, ite_self, implies_true, State.modPool_guarded]

theorem State.dropJob_guarded (s : State) (k : JobKey) :
    (State.dropJob s k).guarded = s.guarded := by
  delta State.dropJob
  simp only [guarded_mk, steady_mk, steady_eta, closed_mk, closed_eta, guarded_eta, guarded_fold, guarded_if, ite_self, implies_true, State.modPool_guarded]

theorem State.traceEntry_guarded (s : State) (e : List Byte) :
    (State.traceEntry s e).guarded = s.guarded := by
  delta State.traceEntry
  simp only [guarded_mk, steady_mk, steady_eta, closed_mk, closed_eta, guarded_eta, guarded_fold, guarded_if, ite_self, implies_true, State.modPool_guarded, State.post_guarded, State.raiseOnce_guarded]

theorem State.traceWrite_guarded (s : State) (body : List Byte) :
    (State.traceWrite s body).guarded = s.guarded := by
  delta State.traceWrite
  simp only [guarded_mk, steady_mk, steady_eta, closed_mk, closed_eta, guarded_eta, guarded_fold, guarded_if, ite_self, implies_true, State.modPool_guarded, State.traceEntry_guarded]

theorem State.tracePut_guarded (s : State) (body : List Byte) :
    (State.tracePut s body).guarded = s.guarded := by
  delta State.tracePut
  simp only [guarded_mk, steady_mk, steady_eta, closed_mk, closed_eta, guarded_eta, guarded_fold, guarded_if, ite_self, implies_true, State.modPool_guarded]

theorem State.traceAbout_guarded (s : State) (code h : Nat) (k : JobKey) (seg n m detail : Nat) (copy : Bool) (dom : Nat) (won : Bool) :
    (State.traceAbout s code h k seg n m detail copy dom won).guarded = s.guarded := by
  delta State.traceAbout
  simp only [guarded_mk, steady_mk, steady_eta, closed_mk, closed_eta, guarded_eta, guarded_fold, guarded_if, ite_self, implies_true, State.tracePut_guarded]

theorem State.traceJob_guarded (s : State) (code h : Nat) (k : JobKey) (detail : Nat) (copy : Bool) (dom : Nat) (won : Bool) :
    (State.traceJob s code h k detail copy dom won).guarded = s.guarded := by
  delta State.traceJob
  (try extract_lets) <;> (repeat' split) <;> (try with_reducible rfl) <;>
    (simp +zetaDelta only [guarded_mk, steady_mk, steady_eta, closed_mk, closed_eta, guarded_eta, guarded_fold, guarded_if, ite_self, implies_true, State.traceAbout_guarded]) <;> (repeat' split) <;> (try with_reducible rfl) <;>
    simp +zetaDelta only [guarded_mk, steady_mk, steady_eta, closed_mk, closed_eta, guarded_eta, guarded_fold, guarded_if, ite_self, implies_true, State.traceAbout_guarded]

theorem State.traceSoft_guarded (s : State) (code h : Nat) (j : Soft) (detail : Nat) :
    (State.traceSoft s code h j detail).guarded = s.guarded := by
  delta State.traceSoft
  simp only [guarded_mk, steady_mk, steady_eta, closed_mk, closed_eta, guarded_eta, guarded_fold, guarded_if, ite_self, implies_true, State.tracePut_guarded]

theorem State.traceHammer_guarded (s : State) (code h detail : Nat) :
    (State.traceHammer s code h detail).guarded = s.guarded := by
  delta State.traceHammer
  simp only [guarded_mk, steady_mk, steady_eta, closed_mk, closed_eta, guarded_eta, guarded_fold, guarded_if, ite_self, implies_true, State.tracePut_guarded]

theorem State.startRun_guarded (s : State) (h : Nat) (k : JobKey) (copy : Bool) (dom : Nat) :
    (State.startRun s h k copy dom).guarded = s.guarded := by
  delta State.startRun
  (try extract_lets) <;> (repeat' split) <;> (try with_reducible rfl) <;>
    (simp +zetaDelta only [guarded_mk, steady_mk, steady_eta, closed_mk, closed_eta, guarded_eta, guarded_fold, guarded_if, ite_self, implies_true, State.modHammer_guarded, State.modJob_guarded]) <;> (repeat' split) <;> (try with_reducible rfl) <;>
    simp +zetaDelta only [guarded_mk, steady_mk, steady_eta, closed_mk, closed_eta, guarded_eta, guarded_fold, guarded_if, ite_self, implies_true, State.modHammer_guarded, State.modJob_guarded]

theorem State.takeJob_guarded (s : State) (h : Nat) (j : Job) (dom b : Nat) :
    (State.takeJob s h j dom b).guarded = s.guarded := by
  delta State.takeJob
  simp only [guarded_mk, steady_mk, steady_eta, closed_mk, closed_eta, guarded_eta, guarded_fold, guarded_if, ite_self, implies_true, State.modPool_guarded, State.startRun_guarded, State.traceJob_guarded]

theorem State.takeOwn_guarded (s : State) (h : Nat) :
    (State.takeOwn s h).guarded = s.guarded := by
  delta State.takeOwn
  (try extract_lets) <;> (repeat' split) <;> (try with_reducible rfl) <;>
    (simp +zetaDelta only [guarded_mk, steady_mk, steady_eta, closed_mk, closed_eta, guarded_eta, guarded_fold, guarded_if, ite_self, implies_true, State.takeJob_guarded]) <;> (repeat' split) <;> (try with_reducible rfl) <;>
    simp +zetaDelta only [guarded_mk, steady_mk, steady_eta, closed_mk, closed_eta, guarded_eta, guarded_fold, guarded_if, ite_self, implies_true, State.takeJob_guarded]

theorem State.takeValley_guarded (s : State) (h : Nat) :
    (State.takeValley s h).guarded = s.guarded := by
  delta State.takeValley
  (try extract_lets) <;> (repeat' split) <;> (try with_reducible rfl) <;>
    (simp +zetaDelta only [guarded_mk, steady_mk, steady_eta, closed_mk, closed_eta, guarded_eta, guarded_fold, guarded_if, ite_self, implies_true, State.takeJob_guarded]) <;> (repeat' split) <;> (try with_reducible rfl) <;>
    simp +zetaDelta only [guarded_mk, steady_mk, steady_eta, closed_mk, closed_eta, guarded_eta, guarded_fold, guarded_if, ite_self, implies_true, State.takeJob_guarded]

theorem State.takeAcross_guarded (s : State) (h : Nat) :
    (State.takeAcross s h).guarded = s.guarded := by
  delta State.takeAcross
  (try extract_lets) <;> (repeat' split) <;> (try with_reducible rfl) <;>
    (simp +zetaDelta only [guarded_mk, steady_mk, steady_eta, closed_mk, closed_eta, guarded_eta, guarded_fold, guarded_if, ite_self, implies_true, State.takeJob_guarded]) <;> (repeat' split) <;> (try with_reducible rfl) <;>
    simp +zetaDelta only [guarded_mk, steady_mk, steady_eta, closed_mk, closed_eta, guarded_eta, guarded_fold, guarded_if, ite_self, implies_true, State.takeJob_guarded]

theorem State.queueSoft_guarded (s : State) (v : Nat) (j : Soft) :
    (State.queueSoft s v j).guarded = s.guarded := by
  delta State.queueSoft
  simp only [guarded_mk, steady_mk, steady_eta, closed_mk, closed_eta, guarded_eta, guarded_fold, guarded_if, ite_self, implies_true, State.modPool_guarded]

theorem State.issueSoft_guarded (s : State) (c : SoftClass) :
    (State.issueSoft s c).guarded = s.guarded := by
  delta State.issueSoft
  (try extract_lets) <;> (repeat' split) <;> (try with_reducible rfl) <;>
    (simp +zetaDelta only [guarded_mk, steady_mk, steady_eta, closed_mk, closed_eta, guarded_eta, guarded_fold, guarded_if, ite_self, implies_true, State.modPool_guarded, State.queueSoft_guarded]) <;> (repeat' split) <;> (try with_reducible rfl) <;>
    simp +zetaDelta only [guarded_mk, steady_mk, steady_eta, closed_mk, closed_eta, guarded_eta, guarded_fold, guarded_if, ite_self, implies_true, State.modPool_guarded, State.queueSoft_guarded]

theorem State.takeSoftFrom_guarded (s : State) (h v : Nat) :
    (State.takeSoftFrom s h v).guarded = s.guarded := by
  delta State.takeSoftFrom
  (try extract_lets) <;> (repeat' split) <;> (try with_reducible rfl) <;>
    (simp +zetaDelta only [guarded_mk, steady_mk, steady_eta, closed_mk, closed_eta, guarded_eta, guarded_fold, guarded_if, ite_self, implies_true, State.modHammer_guarded, State.modPool_guarded, State.traceSoft_guarded]) <;> (repeat' split) <;> (try with_reducible rfl) <;>
    simp +zetaDelta only [guarded_mk, steady_mk, steady_eta, closed_mk, closed_eta, guarded_eta, guarded_fold, guarded_if, ite_self, implies_true, State.modHammer_guarded, State.modPool_guarded, State.traceSoft_guarded]

theorem State.takeSoft_guarded (s : State) (h : Nat) :
    (State.takeSoft s h).guarded = s.guarded := by
  delta State.takeSoft
  (try extract_lets) <;> (repeat' split) <;> (try with_reducible rfl) <;>
    (simp +zetaDelta only [guarded_mk, steady_mk, steady_eta, closed_mk, closed_eta, guarded_eta, guarded_fold, guarded_if, ite_self, implies_true, State.modHammer_guarded, State.takeSoftFrom_guarded, State.traceSoft_guarded]) <;> (repeat' split) <;> (try with_reducible rfl) <;>
    simp +zetaDelta only [guarded_mk, steady_mk, steady_eta, closed_mk, closed_eta, guarded_eta, guarded_fold, guarded_if, ite_self, implies_true, State.modHammer_guarded, State.takeSoftFrom_guarded, State.traceSoft_guarded]

theorem State.askStop_guarded (s : State) (h : Nat) :
    (State.askStop s h).guarded = s.guarded := by
  delta State.askStop
  simp only [guarded_mk, steady_mk, steady_eta, closed_mk, closed_eta, guarded_eta, guarded_fold, guarded_if, ite_self, implies_true, State.modHammer_guarded, State.modPool_guarded]

theorem State.preemptFor_guarded (s : State) (b : Nat) (l : List Job) : (State.preemptFor s b l).guarded = s.guarded := by
  induction l generalizing s with
  | nil => rfl
  | cons j r ih => unfold State.preemptFor; split <;> simp only [ih, State.askStop_guarded]

theorem State.preemptBench_guarded (s : State) (b : Nat) :
    (State.preemptBench s b).guarded = s.guarded := by
  delta State.preemptBench
  simp only [guarded_mk, steady_mk, steady_eta, closed_mk, closed_eta, guarded_eta, guarded_fold, guarded_if, ite_self, implies_true, State.preemptFor_guarded]

theorem State.dispatch_guarded (s : State) :
    (State.dispatch s).guarded = s.guarded := by
  delta State.dispatch
  simp only [guarded_mk, steady_mk, steady_eta, closed_mk, closed_eta, guarded_eta, guarded_fold, guarded_if, ite_self, implies_true, State.preemptBench_guarded, State.takeAcross_guarded, State.takeOwn_guarded, State.takeSoft_guarded, State.takeValley_guarded]

theorem State.flushTrace_guarded (s : State) :
    (State.flushTrace s).guarded = s.guarded := by
  delta State.flushTrace
  simp only [guarded_mk, steady_mk, steady_eta, closed_mk, closed_eta, guarded_eta, guarded_fold, guarded_if, ite_self, implies_true, State.issueSoft_guarded, State.modPool_guarded, State.traceWrite_guarded]

theorem State.stallCounts_guarded (s : State) :
    (State.stallCounts s).guarded = s.guarded := by
  delta State.stallCounts
  simp only [guarded_mk, steady_mk, steady_eta, closed_mk, closed_eta, guarded_eta, guarded_fold, guarded_if, ite_self, implies_true, State.modPool_guarded]

theorem State.endClock_guarded (s : State) :
    (State.endClock s).guarded = s.guarded := by
  delta State.endClock
  simp only [guarded_mk, steady_mk, steady_eta, closed_mk, closed_eta, guarded_eta, guarded_fold, guarded_if, ite_self, implies_true, State.dispatch_guarded, State.flushTrace_guarded, State.modPool_guarded, State.stallCounts_guarded]

theorem State.joinGroups_guarded (s : State) :
    (State.joinGroups s).guarded = s.guarded := by
  delta State.joinGroups
  simp only [guarded_mk, steady_mk, steady_eta, closed_mk, closed_eta, guarded_eta, guarded_fold, guarded_if, ite_self, implies_true, State.modPool_guarded]

theorem State.settle_guarded (s : State) (t : Nat) :
    (State.settle s t).guarded = s.guarded := by
  delta State.settle
  simp only [guarded_mk, steady_mk, steady_eta, closed_mk, closed_eta, guarded_eta, guarded_fold, guarded_if, ite_self, implies_true, State.at_guarded, State.endClock_guarded, State.joinGroups_guarded]

theorem State.before_guarded (s : State) (t : Nat) :
    (State.before s t).guarded = s.guarded := by
  delta State.before
  simp only [guarded_mk, steady_mk, steady_eta, closed_mk, closed_eta, guarded_eta, guarded_fold, guarded_if, ite_self, implies_true, State.at_guarded, State.settle_guarded]

/-- A meaning leaves alone what its effect leaves alone. -/
theorem does_guarded (s : State) (t : Nat) (f : State → State) (h : ∀ z, (f z).guarded = z.guarded) (s' : State)
    (hs : s.does t f = .next s') : s'.guarded = s.guarded := by
  simp only [State.does, Host.Outcome.next.injEq] at hs
  rw [← hs]
  exact (h _).trans (State.before_guarded s t)

theorem State.place_guarded (s : State) (k : JobKey) (copy : Bool) (orig : Nat) :
    (State.place s k copy orig).guarded = s.guarded := by
  delta State.place
  (try extract_lets) <;> (repeat' split) <;> (try with_reducible rfl) <;>
    (simp +zetaDelta only [guarded_mk, steady_mk, steady_eta, closed_mk, closed_eta, guarded_eta, guarded_fold, guarded_if, ite_self, implies_true, State.askStop_guarded, State.modHammer_guarded, State.modJob_guarded, State.modPool_guarded, State.startRun_guarded, State.traceJob_guarded]) <;> (repeat' split) <;> (try with_reducible rfl) <;>
    simp +zetaDelta only [guarded_mk, steady_mk, steady_eta, closed_mk, closed_eta, guarded_eta, guarded_fold, guarded_if, ite_self, implies_true, State.askStop_guarded, State.modHammer_guarded, State.modJob_guarded, State.modPool_guarded, State.startRun_guarded, State.traceJob_guarded]

theorem State.issueCopy_guarded (s : State) (k : JobKey) (j : Job) (h : Nat) :
    (State.issueCopy s k j h).guarded = s.guarded := by
  delta State.issueCopy
  simp only [guarded_mk, steady_mk, steady_eta, closed_mk, closed_eta, guarded_eta, guarded_fold, guarded_if, ite_self, implies_true, State.modHammer_guarded, State.modJob_guarded, State.modPool_guarded, State.place_guarded]

theorem State.reissueAfterFault_guarded (s : State) (k : JobKey) (orig since : Nat) :
    (State.reissueAfterFault s k orig since).guarded = s.guarded := by
  delta State.reissueAfterFault
  (try extract_lets) <;> (repeat' split) <;> (try with_reducible rfl) <;>
    (simp +zetaDelta only [guarded_mk, steady_mk, steady_eta, closed_mk, closed_eta, guarded_eta, guarded_fold, guarded_if, ite_self, implies_true, State.issueCopy_guarded, State.place_guarded]) <;> (repeat' split) <;> (try with_reducible rfl) <;>
    simp +zetaDelta only [guarded_mk, steady_mk, steady_eta, closed_mk, closed_eta, guarded_eta, guarded_fold, guarded_if, ite_self, implies_true, State.issueCopy_guarded, State.place_guarded]

theorem State.endRun_guarded (s : State) (h : Nat) (completes : Bool) :
    (State.endRun s h completes).guarded = s.guarded := by
  delta State.endRun
  (try extract_lets) <;> (repeat' split) <;> (try with_reducible rfl) <;>
    (simp +zetaDelta only [guarded_mk, steady_mk, steady_eta, closed_mk, closed_eta, guarded_eta, guarded_fold, guarded_if, ite_self, implies_true, State.modHammer_guarded]) <;> (repeat' split) <;> (try with_reducible rfl) <;>
    simp +zetaDelta only [guarded_mk, steady_mk, steady_eta, closed_mk, closed_eta, guarded_eta, guarded_fold, guarded_if, ite_self, implies_true, State.modHammer_guarded]

theorem State.dropRun_guarded (s : State) (h : Nat) (r : HardRun) :
    (State.dropRun s h r).guarded = s.guarded := by
  delta State.dropRun
  simp only [guarded_mk, steady_mk, steady_eta, closed_mk, closed_eta, guarded_eta, guarded_fold, guarded_if, ite_self, implies_true, State.endRun_guarded, State.modPool_guarded]

theorem State.requeueSoft_guarded (s : State) (j : Soft) :
    (State.requeueSoft s j).guarded = s.guarded := by
  delta State.requeueSoft
  (try extract_lets) <;> (repeat' split) <;> (try with_reducible rfl) <;>
    (simp +zetaDelta only [guarded_mk, steady_mk, steady_eta, closed_mk, closed_eta, guarded_eta, guarded_fold, guarded_if, ite_self, implies_true, State.modPool_guarded, State.queueSoft_guarded]) <;> (repeat' split) <;> (try with_reducible rfl) <;>
    simp +zetaDelta only [guarded_mk, steady_mk, steady_eta, closed_mk, closed_eta, guarded_eta, guarded_fold, guarded_if, ite_self, implies_true, State.modPool_guarded, State.queueSoft_guarded]

theorem State.loseRun_guarded (s : State) (h : Nat) :
    (State.loseRun s h).guarded = s.guarded := by
  delta State.loseRun
  (try extract_lets) <;> (repeat' split) <;> (try with_reducible rfl) <;>
    (simp +zetaDelta only [guarded_mk, steady_mk, steady_eta, closed_mk, closed_eta, guarded_eta, guarded_fold, guarded_if, ite_self, implies_true, State.dropRun_guarded, State.endRun_guarded, State.modHammer_guarded, State.reissueAfterFault_guarded, State.requeueSoft_guarded]) <;> (repeat' split) <;> (try with_reducible rfl) <;>
    simp +zetaDelta only [guarded_mk, steady_mk, steady_eta, closed_mk, closed_eta, guarded_eta, guarded_fold, guarded_if, ite_self, implies_true, State.dropRun_guarded, State.endRun_guarded, State.modHammer_guarded, State.reissueAfterFault_guarded, State.requeueSoft_guarded]

theorem State.traceFences_guarded (s : State) (l : List Nat) (reason : Nat) :
    (State.traceFences s l reason).guarded = s.guarded := by
  delta State.traceFences
  simp only [guarded_mk, steady_mk, steady_eta, closed_mk, closed_eta, guarded_eta, guarded_fold, guarded_if, ite_self, implies_true, State.traceHammer_guarded]

theorem State.startMoves_guarded (s : State) (b : Nat) : (s.startMoves b).guarded = s.guarded := by
  delta State.startMoves
  extract_lets mine free
  split
  · rfl
  · refine guarded_fold _ (fun s a => ?_) _ _
    extract_lets dest
    clear_value dest
    cases dest with
    | none => rfl
    | some c => exact State.modPool_guarded ..

theorem State.recordGroup_guarded (s : State) (g : Nat) (j : Job) :
    (State.recordGroup s g j).guarded = s.guarded := by
  delta State.recordGroup
  (repeat' first | (refine (guarded_fold _ (fun s x => ?_) _ _).trans ?_) | (extract_lets; done) | split) <;>
    (try with_reducible rfl) <;> (simp +zetaDelta only [guarded_mk, steady_mk, steady_eta, closed_mk, closed_eta, guarded_eta, guarded_fold, guarded_if, ite_self, implies_true, State.recordAbort_guarded]) <;> (repeat' split) <;>
    (try with_reducible rfl) <;> simp +zetaDelta only [guarded_mk, steady_mk, steady_eta, closed_mk, closed_eta, guarded_eta, guarded_fold, guarded_if, ite_self, implies_true, State.recordAbort_guarded]

theorem State.dropValleyJobs_guarded (s : State) (v : Nat) :
    (State.dropValleyJobs s v).guarded = s.guarded := by
  delta State.dropValleyJobs
  (repeat' first | (refine (guarded_fold _ (fun s x => ?_) _ _).trans ?_) | (extract_lets; done) | split) <;>
    (try with_reducible rfl) <;> (simp +zetaDelta only [guarded_mk, steady_mk, steady_eta, closed_mk, closed_eta, guarded_eta, guarded_fold, guarded_if, ite_self, implies_true, State.dropJob_guarded, State.modHammer_guarded, State.recordAbort_guarded, State.recordGroup_guarded]) <;> (repeat' split) <;>
    (try with_reducible rfl) <;> simp +zetaDelta only [guarded_mk, steady_mk, steady_eta, closed_mk, closed_eta, guarded_eta, guarded_fold, guarded_if, ite_self, implies_true, State.dropJob_guarded, State.modHammer_guarded, State.recordAbort_guarded, State.recordGroup_guarded]

theorem State.powerOffValley_guarded (s : State) (v : Nat) :
    (State.powerOffValley s v).guarded = s.guarded := by
  delta State.powerOffValley
  simp only [guarded_mk, steady_mk, steady_eta, closed_mk, closed_eta, guarded_eta, guarded_fold, guarded_if, ite_self, implies_true, State.finish_guarded, State.postReady_guarded, State.setAxis_guarded]

theorem State.failUnfence_guarded (s : State) (src : Nat) :
    (State.failUnfence s src).guarded = s.guarded := by
  delta State.failUnfence
  simp only [guarded_mk, steady_mk, steady_eta, closed_mk, closed_eta, guarded_eta, guarded_fold, guarded_if, ite_self, implies_true, State.finish_guarded, State.modPool_guarded]

theorem State.refence_guarded (s : State) (src reason : Nat) :
    (State.refence s src reason).guarded = s.guarded := by
  delta State.refence
  simp only [guarded_mk, steady_mk, steady_eta, closed_mk, closed_eta, guarded_eta, guarded_fold, guarded_if, ite_self, implies_true, State.failUnfence_guarded, State.raiseDone_guarded]

theorem State.fenceAnew_guarded (s : State) (src reason : Nat) :
    (State.fenceAnew s src reason).guarded = s.guarded := by
  delta State.fenceAnew
  simp only [guarded_mk, steady_mk, steady_eta, closed_mk, closed_eta, guarded_eta, guarded_fold, guarded_if, ite_self, implies_true, State.failUnfence_guarded, State.fence_guarded, State.modPool_guarded, State.refence_guarded]

theorem State.fenceValley_guarded (s : State) (v reason kind : Nat) :
    (State.fenceValley s v reason kind).guarded = s.guarded := by
  delta State.fenceValley
  simp only [guarded_mk, steady_mk, steady_eta, closed_mk, closed_eta, guarded_eta, guarded_fold, guarded_if, ite_self, implies_true, State.dropValleyJobs_guarded, State.fenceAnew_guarded, State.handOver_guarded, State.loseRun_guarded, State.notReady_guarded, State.postReady_guarded, State.powerOffValley_guarded, State.refence_guarded, State.safeHold_guarded, State.segmentStop_guarded, State.traceFences_guarded]

theorem State.fenceBench_guarded (s : State) (b reason kind : Nat) :
    (State.fenceBench s b reason kind).guarded = s.guarded := by
  delta State.fenceBench
  simp only [guarded_mk, steady_mk, steady_eta, closed_mk, closed_eta, guarded_eta, guarded_fold, guarded_if, ite_self, implies_true, State.fenceAnew_guarded, State.fenceValley_guarded, State.loseRun_guarded, State.postReady_guarded, State.recheck_guarded, State.refence_guarded, State.startMoves_guarded, State.traceFences_guarded]

theorem State.fenceHammer_guarded (s : State) (h reason kind : Nat) :
    (State.fenceHammer s h reason kind).guarded = s.guarded := by
  delta State.fenceHammer
  simp only [guarded_mk, steady_mk, steady_eta, closed_mk, closed_eta, guarded_eta, guarded_fold, guarded_if, ite_self, implies_true, State.fenceAnew_guarded, State.fenceBench_guarded, State.loseRun_guarded, State.modHammer_guarded, State.postReady_guarded, State.recheck_guarded, State.refence_guarded, State.traceHammer_guarded]

theorem State.abandonRivals_guarded (s : State) (k : JobKey) :
    (State.abandonRivals s k).guarded = s.guarded := by
  delta State.abandonRivals
  simp only [guarded_mk, steady_mk, steady_eta, closed_mk, closed_eta, guarded_eta, guarded_fold, guarded_if, ite_self, implies_true, State.modHammer_guarded]

theorem execReissuePoint_guarded (t : Nat) (job : Nat) (s : State) (s' : State)
    (hs : execReissuePoint t job s = .next s') : s'.guarded = s.guarded := by
  refine does_guarded _ _ _ (fun z => ?_) s' hs
  (try extract_lets) <;> (repeat' split) <;> (try with_reducible rfl) <;>
    (simp +zetaDelta only [guarded_mk, steady_mk, steady_eta, closed_mk, closed_eta, guarded_eta, guarded_fold, guarded_if, ite_self, implies_true, State.issueCopy_guarded]) <;> (repeat' split) <;> (try with_reducible rfl) <;>
    simp +zetaDelta only [guarded_mk, steady_mk, steady_eta, closed_mk, closed_eta, guarded_eta, guarded_fold, guarded_if, ite_self, implies_true, State.issueCopy_guarded]

theorem execHammerSlow_guarded (t : Nat) (hammer : Nat) (s : State) (s' : State)
    (hs : execHammerSlow t hammer s = .next s') : s'.guarded = s.guarded := by
  refine does_guarded _ _ _ (fun z => ?_) s' hs
  simp only [guarded_mk, steady_mk, steady_eta, closed_mk, closed_eta, guarded_eta, guarded_fold, guarded_if, ite_self, implies_true, State.modHammer_guarded, State.raiseDone_guarded, State.recheck_guarded, State.traceHammer_guarded]

theorem State.drawAccs_guarded (s : State) : s.drawAccs.2.guarded = s.guarded := by
  have go : ∀ (l : List Nat) (r : List (Int × Bool) × State), (l.foldl (fun (r : List (Int × Bool) × State) _ =>
      let a := r.2.draw
      let b := a.2.draw
      (r.1 ++ [(a.1, decide (b.1 % 2 = 1))], b.2)) r).2.guarded = r.2.guarded := by
    intro l
    induction l with
    | nil => intro r; rfl
    | cons a r ih => intro r; rw [List.foldl_cons, ih]; rfl
  exact go _ _

theorem State.startPlaced_guarded (s : State) (h : Nat) (x : JobKey × Bool × Nat) :
    (State.startPlaced s h x).guarded = s.guarded := by
  delta State.startPlaced
  simp only [guarded_mk, steady_mk, steady_eta, closed_mk, closed_eta, guarded_eta, guarded_fold, guarded_if, ite_self, implies_true, State.modHammer_guarded, State.startRun_guarded]

theorem execPreemptStop_guarded (t : Nat) (hammer : Nat) (s : State) (s' : State)
    (hs : execPreemptStop t hammer s = .next s') : s'.guarded = s.guarded := by
  refine does_guarded _ _ _ (fun z => ?_) s' hs
  (try extract_lets) <;> (repeat' split) <;> (try with_reducible rfl) <;>
    (simp +zetaDelta only [guarded_mk, steady_mk, steady_eta, closed_mk, closed_eta, guarded_eta, guarded_fold, guarded_if, ite_self, implies_true, State.drawAccs_guarded, State.modHammer_guarded, State.startPlaced_guarded, State.takeJob_guarded, State.traceSoft_guarded]) <;> (repeat' split) <;> (try with_reducible rfl) <;>
    simp +zetaDelta only [guarded_mk, steady_mk, steady_eta, closed_mk, closed_eta, guarded_eta, guarded_fold, guarded_if, ite_self, implies_true, State.drawAccs_guarded, State.modHammer_guarded, State.startPlaced_guarded, State.takeJob_guarded, State.traceSoft_guarded]

theorem execAbandonedRunStop_guarded (t : Nat) (hammer : Nat) (s : State) (s' : State)
    (hs : execAbandonedRunStop t hammer s = .next s') : s'.guarded = s.guarded := by
  refine does_guarded _ _ _ (fun z => ?_) s' hs
  (try extract_lets) <;> (repeat' split) <;> (try with_reducible rfl) <;>
    (simp +zetaDelta only [guarded_mk, steady_mk, steady_eta, closed_mk, closed_eta, guarded_eta, guarded_fold, guarded_if, ite_self, implies_true, State.endRun_guarded]) <;> (repeat' split) <;> (try with_reducible rfl) <;>
    simp +zetaDelta only [guarded_mk, steady_mk, steady_eta, closed_mk, closed_eta, guarded_eta, guarded_fold, guarded_if, ite_self, implies_true, State.endRun_guarded]

theorem execAsbMoveLanded_guarded (t : Nat) (axis : Nat) (s : State) (s' : State)
    (hs : execAsbMoveLanded t axis s = .next s') : s'.guarded = s.guarded := by
  refine does_guarded _ _ _ (fun z => ?_) s' hs
  split
  · rw [State.startMoves_guarded]
    refine (guarded_fold _ (fun s e => ?_) _ _).trans (State.modPool_guarded _ _)
    (repeat' split) <;> simp only [State.startRun_guarded]
  · rfl

theorem execReadyStall_guarded (t : Nat) (bench : Nat) (s : State) (s' : State)
    (hs : execReadyStall t bench s = .next s') : s'.guarded = s.guarded := by
  refine does_guarded _ _ _ (fun z => ?_) s' hs
  simp only [guarded_mk, steady_mk, steady_eta, closed_mk, closed_eta, guarded_eta, guarded_fold, guarded_if, ite_self, implies_true, State.fenceBench_guarded, State.raiseDone_guarded]

theorem execFabricTimeout_guarded (t : Nat) (hammer : Nat) (s : State) (s' : State)
    (hs : execFabricTimeout t hammer s = .next s') : s'.guarded = s.guarded := by
  refine does_guarded _ _ _ (fun z => ?_) s' hs
  (try extract_lets) <;> (repeat' split) <;> (try with_reducible rfl) <;>
    (simp +zetaDelta only [guarded_mk, steady_mk, steady_eta, closed_mk, closed_eta, guarded_eta, guarded_fold, guarded_if, ite_self, implies_true, State.dropRun_guarded, State.fenceValley_guarded, State.modHammer_guarded, State.modJob_guarded, State.raiseDone_guarded, State.reissueAfterFault_guarded, State.requeueSoft_guarded, State.startPlaced_guarded]) <;> (repeat' split) <;> (try with_reducible rfl) <;>
    simp +zetaDelta only [guarded_mk, steady_mk, steady_eta, closed_mk, closed_eta, guarded_eta, guarded_fold, guarded_if, ite_self, implies_true, State.dropRun_guarded, State.fenceValley_guarded, State.modHammer_guarded, State.modJob_guarded, State.raiseDone_guarded, State.reissueAfterFault_guarded, State.requeueSoft_guarded, State.startPlaced_guarded]

theorem State.finishMotion_guarded (s : State) (n m : Nat) (pos : Int) (x : Nat × Nat) :
    (State.finishMotion s n m pos x).guarded = s.guarded := by
  delta State.finishMotion
  simp only [guarded_mk, steady_mk, steady_eta, closed_mk, closed_eta, guarded_eta, guarded_fold, guarded_if, ite_self, implies_true, State.finish_guarded]

theorem State.finishAll_guarded (s : State) (n m : Nat) (pos : Int) (l : List (Nat × Nat)) :
    (State.finishAll s n m pos l).guarded = s.guarded := by
  delta State.finishAll
  simp only [guarded_mk, steady_mk, steady_eta, closed_mk, closed_eta, guarded_eta, guarded_fold, guarded_if, ite_self, implies_true, State.finishMotion_guarded]

theorem State.identOver_guarded (s : State) (a status reason : Nat) :
    (State.identOver s a status reason).guarded = s.guarded := by
  delta State.identOver
  (try extract_lets) <;> (repeat' split) <;> (try with_reducible rfl) <;>
    (simp +zetaDelta only [guarded_mk, steady_mk, steady_eta, closed_mk, closed_eta, guarded_eta, guarded_fold, guarded_if, ite_self, implies_true, State.finish_guarded, State.modAxis_guarded, State.settle_guarded, State.tellTwin_guarded]) <;> (repeat' split) <;> (try with_reducible rfl) <;>
    simp +zetaDelta only [guarded_mk, steady_mk, steady_eta, closed_mk, closed_eta, guarded_eta, guarded_fold, guarded_if, ite_self, implies_true, State.finish_guarded, State.modAxis_guarded, State.settle_guarded, State.tellTwin_guarded]

theorem State.endIdent_guarded (s : State) (a status reason : Nat) :
    (State.endIdent s a status reason).guarded = s.guarded := by
  delta State.endIdent
  simp only [guarded_mk, steady_mk, steady_eta, closed_mk, closed_eta, guarded_eta, guarded_fold, guarded_if, ite_self, implies_true, State.identOver_guarded]

theorem State.identDone_guarded (s : State) (a : Nat) :
    (State.identDone s a).guarded = s.guarded := by
  delta State.identDone
  (try extract_lets) <;> (repeat' split) <;> (try with_reducible rfl) <;>
    (simp +zetaDelta only [guarded_mk, steady_mk, steady_eta, closed_mk, closed_eta, guarded_eta, guarded_fold, guarded_if, ite_self, implies_true, State.endIdent_guarded, State.modAxis_guarded, State.settle_guarded]) <;> (repeat' split) <;> (try with_reducible rfl) <;>
    simp +zetaDelta only [guarded_mk, steady_mk, steady_eta, closed_mk, closed_eta, guarded_eta, guarded_fold, guarded_if, ite_self, implies_true, State.endIdent_guarded, State.modAxis_guarded, State.settle_guarded]

theorem State.identIssue_guarded (s : State) (a : Nat) (before : List IdentBlock) :
    (State.identIssue s a before).guarded = s.guarded := by
  delta State.identIssue
  (try extract_lets) <;> (repeat' split) <;> (try with_reducible rfl) <;>
    (simp +zetaDelta only [guarded_mk, steady_mk, steady_eta, closed_mk, closed_eta, guarded_eta, guarded_fold, guarded_if, ite_self, implies_true, State.issueSoft_guarded]) <;> (repeat' split) <;> (try with_reducible rfl) <;>
    simp +zetaDelta only [guarded_mk, steady_mk, steady_eta, closed_mk, closed_eta, guarded_eta, guarded_fold, guarded_if, ite_self, implies_true, State.issueSoft_guarded]

theorem State.axisCond_guarded (s : State) (a kind : Nat) (now : Bool) (detail : List Byte) :
    (State.axisCond s a kind now detail).guarded = s.guarded := by
  delta State.axisCond
  simp only [guarded_mk, steady_mk, steady_eta, closed_mk, closed_eta, guarded_eta, guarded_fold, guarded_if, ite_self, implies_true, State.liveOff_guarded, State.liveOn_guarded, State.raise_guarded]

theorem State.axisConds_guarded (s : State) (a : Nat) (srcM : Option Int) (evs : List Ev) :
    (State.axisConds s a srcM evs).guarded = s.guarded := by
  delta State.axisConds
  simp only [guarded_mk, steady_mk, steady_eta, closed_mk, closed_eta, guarded_eta, guarded_fold, guarded_if, ite_self, implies_true, State.axisCond_guarded]

theorem State.modIGroup_guarded (s : State) (g : Nat) (f : IGroup → IGroup) :
    (State.modIGroup s g f).guarded = s.guarded := by
  delta State.modIGroup
  (try extract_lets) <;> (repeat' split) <;> (try with_reducible rfl) <;>
    (simp +zetaDelta only [guarded_mk, steady_mk, steady_eta, closed_mk, closed_eta, guarded_eta, guarded_fold, guarded_if, ite_self, implies_true]) <;> (repeat' split) <;> (try with_reducible rfl) <;>
    simp +zetaDelta only [guarded_mk, steady_mk, steady_eta, closed_mk, closed_eta, guarded_eta, guarded_fold, guarded_if, ite_self, implies_true]

theorem State.endPath_guarded (s : State) (g n m status : Nat) (x : IGroup) :
    (State.endPath s g n m status x).guarded = s.guarded := by
  delta State.endPath
  (try extract_lets) <;> (repeat' split) <;> (try with_reducible rfl) <;>
    (simp +zetaDelta only [guarded_mk, steady_mk, steady_eta, closed_mk, closed_eta, guarded_eta, guarded_fold, guarded_if, ite_self, implies_true, State.finishMotion_guarded, State.modIGroup_guarded]) <;> (repeat' split) <;> (try with_reducible rfl) <;>
    simp +zetaDelta only [guarded_mk, steady_mk, steady_eta, closed_mk, closed_eta, guarded_eta, guarded_fold, guarded_if, ite_self, implies_true, State.finishMotion_guarded, State.modIGroup_guarded]

theorem State.pathEnded_guarded (s : State) (g a n m : Nat) (stopped : Bool) :
    (State.pathEnded s g a n m stopped).guarded = s.guarded := by
  delta State.pathEnded
  (try extract_lets) <;> (repeat' split) <;> (try with_reducible rfl) <;>
    (simp +zetaDelta only [guarded_mk, steady_mk, steady_eta, closed_mk, closed_eta, guarded_eta, guarded_fold, guarded_if, ite_self, implies_true, State.endPath_guarded, State.modIGroup_guarded]) <;> (repeat' split) <;> (try with_reducible rfl) <;>
    simp +zetaDelta only [guarded_mk, steady_mk, steady_eta, closed_mk, closed_eta, guarded_eta, guarded_fold, guarded_if, ite_self, implies_true, State.endPath_guarded, State.modIGroup_guarded]

theorem State.axisEv_guarded (s : State) (a n m : Nat) (pos : Int) (e : Ev) :
    (State.axisEv s a n m pos e).guarded = s.guarded := by
  delta State.axisEv
  (try extract_lets) <;> (repeat' split) <;> (try with_reducible rfl) <;>
    (simp +zetaDelta only [guarded_mk, steady_mk, steady_eta, closed_mk, closed_eta, guarded_eta, guarded_fold, guarded_if, ite_self, implies_true, State.finishMotion_guarded, State.finish_guarded, State.pathEnded_guarded]) <;> (repeat' split) <;> (try with_reducible rfl) <;>
    simp +zetaDelta only [guarded_mk, steady_mk, steady_eta, closed_mk, closed_eta, guarded_eta, guarded_fold, guarded_if, ite_self, implies_true, State.finishMotion_guarded, State.finish_guarded, State.pathEnded_guarded]

theorem State.axisEvs_guarded (s : State) (a n m : Nat) (pos : Int) (srcM : Option Int) (evs : List Ev) :
    (State.axisEvs s a n m pos srcM evs).guarded = s.guarded := by
  delta State.axisEvs
  simp only [guarded_mk, steady_mk, steady_eta, closed_mk, closed_eta, guarded_eta, guarded_fold, guarded_if, ite_self, implies_true, State.axisConds_guarded, State.axisEv_guarded, State.finishAll_guarded, State.finish_guarded, State.modAxis_guarded, State.postReady_guarded]

theorem State.identLimits_guarded (s : State) (a : Nat) (opened : Bool) (e : Int) :
    (State.identLimits s a opened e).guarded = s.guarded := by
  delta State.identLimits
  (try extract_lets) <;> (repeat' split) <;> (try with_reducible rfl) <;>
    (simp +zetaDelta only [guarded_mk, steady_mk, steady_eta, closed_mk, closed_eta, guarded_eta, guarded_fold, guarded_if, ite_self, implies_true, State.endIdent_guarded]) <;> (repeat' split) <;> (try with_reducible rfl) <;>
    simp +zetaDelta only [guarded_mk, steady_mk, steady_eta, closed_mk, closed_eta, guarded_eta, guarded_fold, guarded_if, ite_self, implies_true, State.endIdent_guarded]

theorem State.commitAxis_guarded (s : State) (a : Nat) (j : Job) (velocity : Bool) (c : Option Int) (coupled : Bool) (ax : Axis) (l : Left) :
    (State.commitAxis s a j velocity c coupled ax l).guarded = s.guarded := by
  delta State.commitAxis
  simp only [guarded_mk, steady_mk, steady_eta, closed_mk, closed_eta, guarded_eta, guarded_fold, guarded_if, ite_self, implies_true, State.before_guarded, State.identDone_guarded, State.identIssue_guarded, State.identLimits_guarded, State.record_guarded, State.setAxis_guarded]

theorem State.completeStep_guarded (s : State) (a : Nat) (j : Job) :
    (State.completeStep s a j).guarded = s.guarded := by
  delta State.completeStep
  simp only [guarded_mk, steady_mk, steady_eta, closed_mk, closed_eta, guarded_eta, guarded_fold, guarded_if, ite_self, implies_true, State.axisEvs_guarded, State.record_guarded, State.setAxis_guarded]

theorem State.groupReady_guarded (s : State) (g : Nat) (j : Job) :
    (State.groupReady s g j).guarded = s.guarded := by
  delta State.groupReady
  (try extract_lets) <;> (repeat' split) <;> (try with_reducible rfl) <;>
    (simp +zetaDelta only [guarded_mk, steady_mk, steady_eta, closed_mk, closed_eta, guarded_eta, guarded_fold, guarded_if, ite_self, implies_true, State.modPool_guarded]) <;> (repeat' split) <;> (try with_reducible rfl) <;>
    simp +zetaDelta only [guarded_mk, steady_mk, steady_eta, closed_mk, closed_eta, guarded_eta, guarded_fold, guarded_if, ite_self, implies_true, State.modPool_guarded]

theorem State.modCGroup_guarded (s : State) (g : Nat) (f : CGroup → CGroup) :
    (State.modCGroup s g f).guarded = s.guarded := by
  delta State.modCGroup
  (try extract_lets) <;> (repeat' split) <;> (try with_reducible rfl) <;>
    (simp +zetaDelta only [guarded_mk, steady_mk, steady_eta, closed_mk, closed_eta, guarded_eta, guarded_fold, guarded_if, ite_self, implies_true]) <;> (repeat' split) <;> (try with_reducible rfl) <;>
    simp +zetaDelta only [guarded_mk, steady_mk, steady_eta, closed_mk, closed_eta, guarded_eta, guarded_fold, guarded_if, ite_self, implies_true]

theorem State.completeAxis_guarded (s : State) (a : Nat) (j : Job) :
    (State.completeAxis s a j).guarded = s.guarded := by
  delta State.completeAxis
  (try extract_lets) <;> (repeat' split) <;> (try with_reducible rfl) <;>
    (simp +zetaDelta only [guarded_mk, steady_mk, steady_eta, closed_mk, closed_eta, guarded_eta, guarded_fold, guarded_if, ite_self, implies_true, State.axisEvs_guarded, State.commitAxis_guarded, State.groupReady_guarded, State.modCGroup_guarded, State.setAxis_guarded]) <;> (repeat' split) <;> (try with_reducible rfl) <;>
    simp +zetaDelta only [guarded_mk, steady_mk, steady_eta, closed_mk, closed_eta, guarded_eta, guarded_fold, guarded_if, ite_self, implies_true, State.axisEvs_guarded, State.commitAxis_guarded, State.groupReady_guarded, State.modCGroup_guarded, State.setAxis_guarded]

theorem State.completeGroup_guarded (s : State) (g : Nat) (j : Job) :
    (State.completeGroup s g j).guarded = s.guarded := by
  delta State.completeGroup
  (repeat' first | (refine (guarded_fold _ (fun s x => ?_) _ _).trans ?_) | (extract_lets; done) | split) <;>
    (try with_reducible rfl) <;> (simp +zetaDelta only [guarded_mk, steady_mk, steady_eta, closed_mk, closed_eta, guarded_eta, guarded_fold, guarded_if, ite_self, implies_true, State.commitAxis_guarded]) <;> (repeat' split) <;>
    (try with_reducible rfl) <;> simp +zetaDelta only [guarded_mk, steady_mk, steady_eta, closed_mk, closed_eta, guarded_eta, guarded_fold, guarded_if, ite_self, implies_true, State.commitAxis_guarded]

theorem State.statRun_guarded (s : State) (k len : Nat) :
    (State.statRun s k len).guarded = s.guarded := by
  delta State.statRun
  simp only [guarded_mk, steady_mk, steady_eta, closed_mk, closed_eta, guarded_eta, guarded_fold, guarded_if, ite_self, implies_true, State.modPool_guarded]

theorem State.completeRun_guarded (s : State) (h : Nat) (r : HardRun) (j : Job) :
    (State.completeRun s h r j).guarded = s.guarded := by
  delta State.completeRun
  (try extract_lets) <;> (repeat' split) <;> (try with_reducible rfl) <;>
    (simp +zetaDelta only [guarded_mk, steady_mk, steady_eta, closed_mk, closed_eta, guarded_eta, guarded_fold, guarded_if, ite_self, implies_true, State.abandonRivals_guarded, State.completeAxis_guarded, State.completeGroup_guarded, State.completeStep_guarded, State.dropJob_guarded, State.endRun_guarded, State.postReady_guarded, State.resyncSend_guarded, State.statRun_guarded, State.traceJob_guarded]) <;> (repeat' split) <;> (try with_reducible rfl) <;>
    simp +zetaDelta only [guarded_mk, steady_mk, steady_eta, closed_mk, closed_eta, guarded_eta, guarded_fold, guarded_if, ite_self, implies_true, State.abandonRivals_guarded, State.completeAxis_guarded, State.completeGroup_guarded, State.completeStep_guarded, State.dropJob_guarded, State.endRun_guarded, State.postReady_guarded, State.resyncSend_guarded, State.statRun_guarded, State.traceJob_guarded]

theorem execJobComplete_guarded (t : Nat) (hammer : Nat) (s : State) (s' : State)
    (hs : execJobComplete t hammer s = .next s') : s'.guarded = s.guarded := by
  refine does_guarded _ _ _ (fun z => ?_) s' hs
  (try extract_lets) <;> (repeat' split) <;> (try with_reducible rfl) <;>
    (simp +zetaDelta only [guarded_mk, steady_mk, steady_eta, closed_mk, closed_eta, guarded_eta, guarded_fold, guarded_if, ite_self, implies_true, State.completeRun_guarded, State.endRun_guarded]) <;> (repeat' split) <;> (try with_reducible rfl) <;>
    simp +zetaDelta only [guarded_mk, steady_mk, steady_eta, closed_mk, closed_eta, guarded_eta, guarded_fold, guarded_if, ite_self, implies_true, State.completeRun_guarded, State.endRun_guarded]

theorem State.identSkip_guarded (s : State) (a : Nat) (j : Job) (opened : Bool) (e : Int) :
    (State.identSkip s a j opened e).guarded = s.guarded := by
  delta State.identSkip
  (try extract_lets) <;> (repeat' split) <;> (try with_reducible rfl) <;>
    (simp +zetaDelta only [guarded_mk, steady_mk, steady_eta, closed_mk, closed_eta, guarded_eta, guarded_fold, guarded_if, ite_self, implies_true, State.identDone_guarded, State.identIssue_guarded, State.identLimits_guarded, State.modAxis_guarded]) <;> (repeat' split) <;> (try with_reducible rfl) <;>
    simp +zetaDelta only [guarded_mk, steady_mk, steady_eta, closed_mk, closed_eta, guarded_eta, guarded_fold, guarded_if, ite_self, implies_true, State.identDone_guarded, State.identIssue_guarded, State.identLimits_guarded, State.modAxis_guarded]

theorem State.groupIdents_guarded (s : State) (g : Nat) (j : Job) :
    (State.groupIdents s g j).guarded = s.guarded := by
  delta State.groupIdents
  (repeat' first | (refine (guarded_fold _ (fun s x => ?_) _ _).trans ?_) | (extract_lets; done) | split) <;>
    (try with_reducible rfl) <;> (simp +zetaDelta only [guarded_mk, steady_mk, steady_eta, closed_mk, closed_eta, guarded_eta, guarded_fold, guarded_if, ite_self, implies_true, State.identSkip_guarded]) <;> (repeat' split) <;>
    (try with_reducible rfl) <;> simp +zetaDelta only [guarded_mk, steady_mk, steady_eta, closed_mk, closed_eta, guarded_eta, guarded_fold, guarded_if, ite_self, implies_true, State.identSkip_guarded]

theorem State.deferEffects_guarded (s : State) (a : Nat) (j : Job) :
    (State.deferEffects s a j).guarded = s.guarded := by
  delta State.deferEffects
  simp only [guarded_mk, steady_mk, steady_eta, closed_mk, closed_eta, guarded_eta, guarded_fold, guarded_if, ite_self, implies_true]

theorem State.abortAxis_guarded (s : State) (a : Nat) (j : Job) :
    (State.abortAxis s a j).guarded = s.guarded := by
  delta State.abortAxis
  (try extract_lets) <;> (repeat' split) <;> (try with_reducible rfl) <;>
    (simp +zetaDelta only [guarded_mk, steady_mk, steady_eta, closed_mk, closed_eta, guarded_eta, guarded_fold, guarded_if, ite_self, implies_true, State.deferEffects_guarded, State.groupReady_guarded, State.identSkip_guarded, State.modCGroup_guarded, State.recordAbort_guarded]) <;> (repeat' split) <;> (try with_reducible rfl) <;>
    simp +zetaDelta only [guarded_mk, steady_mk, steady_eta, closed_mk, closed_eta, guarded_eta, guarded_fold, guarded_if, ite_self, implies_true, State.deferEffects_guarded, State.groupReady_guarded, State.identSkip_guarded, State.modCGroup_guarded, State.recordAbort_guarded]

theorem State.abortJob_guarded (s : State) (src : Nat) (j : Job) (elapsed : Nat) :
    (State.abortJob s src j elapsed).guarded = s.guarded := by
  delta State.abortJob
  (try extract_lets) <;> (repeat' split) <;> (try with_reducible rfl) <;>
    (simp +zetaDelta only [guarded_mk, steady_mk, steady_eta, closed_mk, closed_eta, guarded_eta, guarded_fold, guarded_if, ite_self, implies_true, State.abandonRivals_guarded, State.abortAxis_guarded, State.dropJob_guarded, State.groupIdents_guarded, State.raiseNow_guarded, State.recordGroup_guarded]) <;> (repeat' split) <;> (try with_reducible rfl) <;>
    simp +zetaDelta only [guarded_mk, steady_mk, steady_eta, closed_mk, closed_eta, guarded_eta, guarded_fold, guarded_if, ite_self, implies_true, State.abandonRivals_guarded, State.abortAxis_guarded, State.dropJob_guarded, State.groupIdents_guarded, State.raiseNow_guarded, State.recordGroup_guarded]

theorem State.watchdogNote_guarded (s : State) (h : Nat) (r : HardRun) :
    (State.watchdogNote s h r).guarded = s.guarded := by
  delta State.watchdogNote
  simp only [guarded_mk, steady_mk, steady_eta, closed_mk, closed_eta, guarded_eta, guarded_fold, guarded_if, ite_self, implies_true, State.raiseDone_guarded]

theorem execJobWatchdog_guarded (t : Nat) (hammer : Nat) (s : State) (s' : State)
    (hs : execJobWatchdog t hammer s = .next s') : s'.guarded = s.guarded := by
  refine does_guarded _ _ _ (fun z => ?_) s' hs
  (try extract_lets) <;> (repeat' split) <;> (try with_reducible rfl) <;>
    (simp +zetaDelta only [guarded_mk, steady_mk, steady_eta, closed_mk, closed_eta, guarded_eta, guarded_fold, guarded_if, ite_self, implies_true, State.abortJob_guarded, State.endRun_guarded, State.postReady_guarded, State.resyncSend_guarded, State.watchdogNote_guarded]) <;> (repeat' split) <;> (try with_reducible rfl) <;>
    simp +zetaDelta only [guarded_mk, steady_mk, steady_eta, closed_mk, closed_eta, guarded_eta, guarded_fold, guarded_if, ite_self, implies_true, State.abortJob_guarded, State.endRun_guarded, State.postReady_guarded, State.resyncSend_guarded, State.watchdogNote_guarded]

theorem State.postMany_guarded (s : State) (r : Nat) (l : List (List Byte)) :
    (State.postMany s r l).guarded = s.guarded := by
  delta State.postMany
  simp only [guarded_mk, steady_mk, steady_eta, closed_mk, closed_eta, guarded_eta, guarded_fold, guarded_if, ite_self, implies_true, State.putEntry_guarded, State.putIndex_guarded]

theorem State.identBlock_guarded (s : State) (a key : Nat) :
    (State.identBlock s a key).guarded = s.guarded := by
  delta State.identBlock
  (try extract_lets) <;> (repeat' split) <;> (try with_reducible rfl) <;>
    (simp +zetaDelta only [guarded_mk, steady_mk, steady_eta, closed_mk, closed_eta, guarded_eta, guarded_fold, guarded_if, ite_self, implies_true, State.identDone_guarded, State.modAxis_guarded, State.postMany_guarded, State.raise_guarded, State.ringDrops_guarded]) <;> (repeat' split) <;> (try with_reducible rfl) <;>
    simp +zetaDelta only [guarded_mk, steady_mk, steady_eta, closed_mk, closed_eta, guarded_eta, guarded_fold, guarded_if, ite_self, implies_true, State.identDone_guarded, State.modAxis_guarded, State.postMany_guarded, State.raise_guarded, State.ringDrops_guarded]

theorem State.freeEntry_guarded (s : State) : s.freeEntry.2.guarded = s.guarded := rfl

theorem State.softProduct_guarded (s : State) (c : SoftClass) :
    (State.softProduct s c).guarded = s.guarded := by
  delta State.softProduct
  (try extract_lets) <;> (repeat' split) <;> (try with_reducible rfl) <;>
    (simp +zetaDelta only [guarded_mk, steady_mk, steady_eta, closed_mk, closed_eta, guarded_eta, guarded_fold, guarded_if, ite_self, implies_true, State.draw_guarded, State.freeEntry_guarded, State.identBlock_guarded, State.modAxis_guarded, State.modPool_guarded, State.statusWrite_guarded, State.traceEntry_guarded]) <;> (repeat' split) <;> (try with_reducible rfl) <;>
    simp +zetaDelta only [guarded_mk, steady_mk, steady_eta, closed_mk, closed_eta, guarded_eta, guarded_fold, guarded_if, ite_self, implies_true, State.draw_guarded, State.freeEntry_guarded, State.identBlock_guarded, State.modAxis_guarded, State.modPool_guarded, State.statusWrite_guarded, State.traceEntry_guarded]

theorem State.softAbandon_guarded (s : State) (c : SoftClass) :
    (State.softAbandon s c).guarded = s.guarded := by
  delta State.softAbandon
  (try extract_lets) <;> (repeat' split) <;> (try with_reducible rfl) <;>
    (simp +zetaDelta only [guarded_mk, steady_mk, steady_eta, closed_mk, closed_eta, guarded_eta, guarded_fold, guarded_if, ite_self, implies_true, State.endIdent_guarded, State.identDone_guarded, State.modAxis_guarded, State.modPool_guarded]) <;> (repeat' split) <;> (try with_reducible rfl) <;>
    simp +zetaDelta only [guarded_mk, steady_mk, steady_eta, closed_mk, closed_eta, guarded_eta, guarded_fold, guarded_if, ite_self, implies_true, State.endIdent_guarded, State.identDone_guarded, State.modAxis_guarded, State.modPool_guarded]

theorem State.freeHammer_guarded (s : State) (h : Nat) :
    (State.freeHammer s h).guarded = s.guarded := by
  delta State.freeHammer
  (try extract_lets) <;> (repeat' split) <;> (try with_reducible rfl) <;>
    (simp +zetaDelta only [guarded_mk, steady_mk, steady_eta, closed_mk, closed_eta, guarded_eta, guarded_fold, guarded_if, ite_self, implies_true, State.askStop_guarded, State.modHammer_guarded, State.postReady_guarded, State.startPlaced_guarded]) <;> (repeat' split) <;> (try with_reducible rfl) <;>
    simp +zetaDelta only [guarded_mk, steady_mk, steady_eta, closed_mk, closed_eta, guarded_eta, guarded_fold, guarded_if, ite_self, implies_true, State.askStop_guarded, State.modHammer_guarded, State.postReady_guarded, State.startPlaced_guarded]

theorem execSoftJobComplete_guarded (t : Nat) (hammer : Nat) (s : State) (s' : State)
    (hs : execSoftJobComplete t hammer s = .next s') : s'.guarded = s.guarded := by
  refine does_guarded _ _ _ (fun z => ?_) s' hs
  (try extract_lets) <;> (repeat' split) <;> (try with_reducible rfl) <;>
    (simp +zetaDelta only [guarded_mk, steady_mk, steady_eta, closed_mk, closed_eta, guarded_eta, guarded_fold, guarded_if, ite_self, implies_true, State.freeHammer_guarded, State.softProduct_guarded, State.traceSoft_guarded]) <;> (repeat' split) <;> (try with_reducible rfl) <;>
    simp +zetaDelta only [guarded_mk, steady_mk, steady_eta, closed_mk, closed_eta, guarded_eta, guarded_fold, guarded_if, ite_self, implies_true, State.freeHammer_guarded, State.softProduct_guarded, State.traceSoft_guarded]

theorem execSoftLimit_guarded (t : Nat) (hammer : Nat) (s : State) (s' : State)
    (hs : execSoftLimit t hammer s = .next s') : s'.guarded = s.guarded := by
  refine does_guarded _ _ _ (fun z => ?_) s' hs
  (try extract_lets) <;> (repeat' split) <;> (try with_reducible rfl) <;>
    (simp +zetaDelta only [guarded_mk, steady_mk, steady_eta, closed_mk, closed_eta, guarded_eta, guarded_fold, guarded_if, ite_self, implies_true, State.freeHammer_guarded, State.raise_guarded, State.softAbandon_guarded]) <;> (repeat' split) <;> (try with_reducible rfl) <;>
    simp +zetaDelta only [guarded_mk, steady_mk, steady_eta, closed_mk, closed_eta, guarded_eta, guarded_fold, guarded_if, ite_self, implies_true, State.freeHammer_guarded, State.raise_guarded, State.softAbandon_guarded]

theorem State.reject_guarded (s : State) (e : Entry) (status : Nat) :
    (State.reject s e status).guarded = s.guarded := by
  delta State.reject
  simp only [guarded_mk, steady_mk, steady_eta, closed_mk, closed_eta, guarded_eta, guarded_fold, guarded_if, ite_self, implies_true, State.finish_guarded]

theorem State.rejectAt_guarded (s : State) (e : Entry) (status off : Nat) :
    (State.rejectAt s e status off).guarded = s.guarded := by
  delta State.rejectAt
  simp only [guarded_mk, steady_mk, steady_eta, closed_mk, closed_eta, guarded_eta, guarded_fold, guarded_if, ite_self, implies_true, State.finish_guarded]

theorem State.doneOn_guarded (s : State) (c : Ctx) (e : Entry) (a : Nat) :
    (State.doneOn s c e a).guarded = s.guarded := by
  delta State.doneOn
  simp only [guarded_mk, steady_mk, steady_eta, closed_mk, closed_eta, guarded_eta, guarded_fold, guarded_if, ite_self, implies_true, State.finish_guarded, State.modAxis_guarded]

theorem State.endMotion_guarded (s : State) (c : Ctx) (a : Nat) (l : List (Nat × Nat)) :
    (State.endMotion s c a l).guarded = s.guarded := by
  delta State.endMotion
  simp only [guarded_mk, steady_mk, steady_eta, closed_mk, closed_eta, guarded_eta, guarded_fold, guarded_if, ite_self, implies_true, State.finishAll_guarded, State.modAxis_guarded]

theorem State.admitted_guarded (s : State) (e : Entry) (seg : Option Nat) (s' : State) (h_s' : s'.guarded = s.guarded) :
    (State.admitted s e seg s').guarded = s.guarded := by
  delta State.admitted
  (try extract_lets) <;> (repeat' split) <;> (try with_reducible rfl) <;>
    (simp +zetaDelta only [guarded_mk, steady_mk, steady_eta, closed_mk, closed_eta, guarded_eta, guarded_fold, guarded_if, ite_self, implies_true, h_s', State.reject_guarded]) <;> (repeat' split) <;> (try with_reducible rfl) <;>
    simp +zetaDelta only [guarded_mk, steady_mk, steady_eta, closed_mk, closed_eta, guarded_eta, guarded_fold, guarded_if, ite_self, implies_true, h_s', State.reject_guarded]

theorem State.cmdTaken_guarded (s : State) (h : DHdr) (op : DOp) :
    (State.cmdTaken s h op).guarded = s.guarded := by
  delta State.cmdTaken
  simp only [guarded_mk, steady_mk, steady_eta, closed_mk, closed_eta, guarded_eta, guarded_fold, guarded_if, ite_self, implies_true]

theorem State.runDescr_guarded (s : State) (h : DHdr) (op : DOp) (f : Ctx → Entry → State → State) (h_f : ∀ c e z, (f c e z).guarded = z.guarded) :
    (State.runDescr s h op f).guarded = s.guarded := by
  delta State.runDescr
  (try extract_lets) <;> (repeat' split) <;> (try with_reducible rfl) <;>
    (simp +zetaDelta only [guarded_mk, steady_mk, steady_eta, closed_mk, closed_eta, guarded_eta, guarded_fold, guarded_if, ite_self, implies_true, h_f, State.cmdTaken_guarded, State.postReady_guarded, State.rejectAt_guarded, State.reject_guarded]) <;> (repeat' split) <;> (try with_reducible rfl) <;>
    simp +zetaDelta only [guarded_mk, steady_mk, steady_eta, closed_mk, closed_eta, guarded_eta, guarded_fold, guarded_if, ite_self, implies_true, h_f, State.cmdTaken_guarded, State.postReady_guarded, State.rejectAt_guarded, State.reject_guarded]

theorem State.bar_guarded (s : State) (c : Ctx) (e : Entry) (st : Nat) :
    (State.bar s c e st).guarded = s.guarded := by
  delta State.bar
  simp only [guarded_mk, steady_mk, steady_eta, closed_mk, closed_eta, guarded_eta, guarded_fold, guarded_if, ite_self, implies_true, State.endMotion_guarded, State.reject_guarded]

theorem State.motionEffect_guarded (s : State) (c : Ctx) (e : Entry) (k : MotionOp) (f : State → State) (h_f : ∀ z, (f z).guarded = z.guarded) :
    (State.motionEffect s c e k f).guarded = s.guarded := by
  delta State.motionEffect
  (try extract_lets) <;> (repeat' split) <;> (try with_reducible rfl) <;>
    (simp +zetaDelta only [guarded_mk, steady_mk, steady_eta, closed_mk, closed_eta, guarded_eta, guarded_fold, guarded_if, ite_self, implies_true, h_f, State.bar_guarded]) <;> (repeat' split) <;> (try with_reducible rfl) <;>
    simp +zetaDelta only [guarded_mk, steady_mk, steady_eta, closed_mk, closed_eta, guarded_eta, guarded_fold, guarded_if, ite_self, implies_true, h_f, State.bar_guarded]

theorem State.engage_guarded (s : State) (c : Ctx) (a : Nat) (f : Motion → Motion) (ends : List (Nat × Nat)) :
    (State.engage s c a f ends).guarded = s.guarded := by
  delta State.engage
  simp only [guarded_mk, steady_mk, steady_eta, closed_mk, closed_eta, guarded_eta, guarded_fold, guarded_if, ite_self, implies_true, State.endMotion_guarded, State.modAxis_guarded]

theorem State.engageAdmit_guarded (s : State) (c : Ctx) (e : Entry) (f : Motion → Motion) (ends : List (Nat × Nat)) :
    (State.engageAdmit s c e f ends).guarded = s.guarded := by
  delta State.engageAdmit
  simp only [guarded_mk, steady_mk, steady_eta, closed_mk, closed_eta, guarded_eta, guarded_fold, guarded_if, ite_self, implies_true, State.admitted_guarded, State.engage_guarded]

theorem fxMoveAbs_guarded (x : Int) (c : Ctx) (e : Entry) (s : State) :
    (fxMoveAbs x c e s).guarded = s.guarded := by
  delta fxMoveAbs
  simp only [guarded_mk, steady_mk, steady_eta, closed_mk, closed_eta, guarded_eta, guarded_fold, guarded_if, ite_self, implies_true, State.engage_guarded, State.motionEffect_guarded]

theorem State.superimpose_guarded (s : State) (c : Ctx) (a : Nat) (d : Int) (id : Nat) :
    (State.superimpose s c a d id).guarded = s.guarded := by
  delta State.superimpose
  simp only [guarded_mk, steady_mk, steady_eta, closed_mk, closed_eta, guarded_eta, guarded_fold, guarded_if, ite_self, implies_true, State.endMotion_guarded, State.modAxis_guarded]

theorem fxMoveRel_guarded (d : Int) (c : Ctx) (e : Entry) (s : State) :
    (fxMoveRel d c e s).guarded = s.guarded := by
  delta fxMoveRel
  simp only [guarded_mk, steady_mk, steady_eta, closed_mk, closed_eta, guarded_eta, guarded_fold, guarded_if, ite_self, implies_true, State.engage_guarded, State.motionEffect_guarded, State.rejectAt_guarded, State.superimpose_guarded]

theorem fxJog_guarded (v : Int) (c : Ctx) (e : Entry) (s : State) :
    (fxJog v c e s).guarded = s.guarded := by
  delta fxJog
  simp only [guarded_mk, steady_mk, steady_eta, closed_mk, closed_eta, guarded_eta, guarded_fold, guarded_if, ite_self, implies_true, State.engage_guarded, State.motionEffect_guarded]

theorem State.beginStop_guarded (s : State) (a pol : Nat) (fault : Bool) (ids : List Nat) :
    (State.beginStop s a pol fault ids).guarded = s.guarded := by
  delta State.beginStop
  simp only [guarded_mk, steady_mk, steady_eta, closed_mk, closed_eta, guarded_eta, guarded_fold, guarded_if, ite_self, implies_true, State.raise_guarded, State.stopAxis_guarded]

theorem fxStop_guarded (c : Ctx) (e : Entry) (s : State) :
    (fxStop c e s).guarded = s.guarded := by
  delta fxStop
  simp only [guarded_mk, steady_mk, steady_eta, closed_mk, closed_eta, guarded_eta, guarded_fold, guarded_if, ite_self, implies_true, State.beginStop_guarded, State.motionEffect_guarded]

theorem fxLimits_guarded (vmax amax dmax destop jmax : Int) (c : Ctx) (e : Entry) (s : State) :
    (fxLimits vmax amax dmax destop jmax c e s).guarded = s.guarded := by
  delta fxLimits
  simp only [guarded_mk, steady_mk, steady_eta, closed_mk, closed_eta, guarded_eta, guarded_fold, guarded_if, ite_self, implies_true, State.endMotion_guarded, State.modAxis_guarded, State.motionEffect_guarded]

theorem fxFollow_guarded (ai pos : Bool) (src : Nat) (g : Coef) (lagmax : Int) (c : Ctx) (e : Entry) (s : State) :
    (fxFollow ai pos src g lagmax c e s).guarded = s.guarded := by
  delta fxFollow
  simp only [guarded_mk, steady_mk, steady_eta, closed_mk, closed_eta, guarded_eta, guarded_fold, guarded_if, ite_self, implies_true, State.engageAdmit_guarded, State.motionEffect_guarded, State.reject_guarded]

theorem State.regear_guarded (s : State) (c : Ctx) (e : Entry) (old : Eng) (n m ofs : Int) :
    (State.regear s c e old n m ofs).guarded = s.guarded := by
  delta State.regear
  simp only [guarded_mk, steady_mk, steady_eta, closed_mk, closed_eta, guarded_eta, guarded_fold, guarded_if, ite_self, implies_true, State.endMotion_guarded, State.modAxis_guarded, State.superimpose_guarded]

theorem fxGear_guarded (wait : Bool) (master : Nat) (n m ofs : Int) (c : Ctx) (e : Entry) (s : State) :
    (fxGear wait master n m ofs c e s).guarded = s.guarded := by
  unfold fxGear
  refine State.motionEffect_guarded _ _ _ _ _ fun z => ?_
  split
  · exact State.reject_guarded ..
  · extract_lets r new
    (repeat' split) <;> simp only [State.engageAdmit_guarded, State.regear_guarded]

theorem fxCamEngage_guarded (table : Nat) (cont cubic : Bool) (mode master : Nat) (oc b xsw : Int) (c : Ctx) (e : Entry) (s : State) :
    (fxCamEngage table cont cubic mode master oc b xsw c e s).guarded = s.guarded := by
  delta fxCamEngage
  simp only [guarded_mk, steady_mk, steady_eta, closed_mk, closed_eta, guarded_eta, guarded_fold, guarded_if, ite_self, implies_true, State.admitted_guarded, State.endMotion_guarded, State.engageAdmit_guarded, State.modAxis_guarded, State.motionEffect_guarded, State.reject_guarded]

theorem fxCamDisengage_guarded (holdVel : Bool) (c : Ctx) (e : Entry) (s : State) :
    (fxCamDisengage holdVel c e s).guarded = s.guarded := by
  delta fxCamDisengage
  simp only [guarded_mk, steady_mk, steady_eta, closed_mk, closed_eta, guarded_eta, guarded_fold, guarded_if, ite_self, implies_true, State.admitted_guarded, State.endMotion_guarded, State.modAxis_guarded, State.motionEffect_guarded, State.reject_guarded]

theorem fxPhaseIn_guarded (w : Int) (c : Ctx) (e : Entry) (s : State) : (fxPhaseIn w c e s).guarded = s.guarded := by
  unfold fxPhaseIn
  refine State.motionEffect_guarded _ _ _ _ _ fun z => ?_
  split <;> simp only [State.reject_guarded, State.engageAdmit_guarded]

theorem State.groupDefine_guarded (s : State) (c : Ctx) (e : Entry) (k mask : Nat) :
    (State.groupDefine s c e k mask).guarded = s.guarded := by
  delta State.groupDefine
  simp only [guarded_mk, steady_mk, steady_eta, closed_mk, closed_eta, guarded_eta, guarded_fold, guarded_if, ite_self, implies_true, State.finish_guarded, State.reject_guarded]

theorem State.groupDissolve_guarded (s : State) (c : Ctx) (e : Entry) :
    (State.groupDissolve s c e).guarded = s.guarded := by
  delta State.groupDissolve
  (try extract_lets) <;> (repeat' split) <;> (try with_reducible rfl) <;>
    (simp +zetaDelta only [guarded_mk, steady_mk, steady_eta, closed_mk, closed_eta, guarded_eta, guarded_fold, guarded_if, ite_self, implies_true, State.finish_guarded, State.reject_guarded]) <;> (repeat' split) <;> (try with_reducible rfl) <;>
    simp +zetaDelta only [guarded_mk, steady_mk, steady_eta, closed_mk, closed_eta, guarded_eta, guarded_fold, guarded_if, ite_self, implies_true, State.finish_guarded, State.reject_guarded]

theorem State.groupGo_guarded (s : State) (c : Ctx) (e : Entry) (g : IGroup) (xs : List Int) :
    (State.groupGo s c e g xs).guarded = s.guarded := by
  delta State.groupGo
  simp only [guarded_mk, steady_mk, steady_eta, closed_mk, closed_eta, guarded_eta, guarded_fold, guarded_if, ite_self, implies_true, State.engage_guarded, State.modIGroup_guarded]

theorem fxGroupMove_guarded (f : GroupFn) (c : Ctx) (e : Entry) (s : State) :
    (fxGroupMove f c e s).guarded = s.guarded := by
  delta fxGroupMove
  (try extract_lets) <;> (repeat' split) <;> (try with_reducible rfl) <;>
    (simp +zetaDelta only [guarded_mk, steady_mk, steady_eta, closed_mk, closed_eta, guarded_eta, guarded_fold, guarded_if, ite_self, implies_true, State.finish_guarded, State.groupDefine_guarded, State.groupDissolve_guarded, State.groupGo_guarded, State.reject_guarded]) <;> (repeat' split) <;> (try with_reducible rfl) <;>
    simp +zetaDelta only [guarded_mk, steady_mk, steady_eta, closed_mk, closed_eta, guarded_eta, guarded_fold, guarded_if, ite_self, implies_true, State.finish_guarded, State.groupDefine_guarded, State.groupDissolve_guarded, State.groupGo_guarded, State.reject_guarded]

theorem execMoveAbs_guarded (t : Nat) (h : DHdr) (x : Int) (s : State) (s' : State)
    (hs : execMoveAbs t h x s = .next s') : s'.guarded = s.guarded := by
  refine does_guarded _ _ _ (fun z => ?_) s' hs
  simp only [guarded_mk, steady_mk, steady_eta, closed_mk, closed_eta, guarded_eta, guarded_fold, guarded_if, ite_self, implies_true, State.runDescr_guarded, fxMoveAbs_guarded]

theorem execMoveRel_guarded (t : Nat) (h : DHdr) (d : Int) (s : State) (s' : State)
    (hs : execMoveRel t h d s = .next s') : s'.guarded = s.guarded := by
  refine does_guarded _ _ _ (fun z => ?_) s' hs
  simp only [guarded_mk, steady_mk, steady_eta, closed_mk, closed_eta, guarded_eta, guarded_fold, guarded_if, ite_self, implies_true, State.runDescr_guarded, fxMoveRel_guarded]

theorem execJog_guarded (t : Nat) (h : DHdr) (v : Int) (s : State) (s' : State)
    (hs : execJog t h v s = .next s') : s'.guarded = s.guarded := by
  refine does_guarded _ _ _ (fun z => ?_) s' hs
  simp only [guarded_mk, steady_mk, steady_eta, closed_mk, closed_eta, guarded_eta, guarded_fold, guarded_if, ite_self, implies_true, State.runDescr_guarded, fxJog_guarded]

theorem execStop_guarded (t : Nat) (h : DHdr) (s : State) (s' : State)
    (hs : execStop t h s = .next s') : s'.guarded = s.guarded := by
  refine does_guarded _ _ _ (fun z => ?_) s' hs
  simp only [guarded_mk, steady_mk, steady_eta, closed_mk, closed_eta, guarded_eta, guarded_fold, guarded_if, ite_self, implies_true, State.runDescr_guarded, fxStop_guarded]

theorem execLimits_guarded (t : Nat) (h : DHdr) (vmax amax dmax destop jmax : Int) (s : State) (s' : State)
    (hs : execLimits t h vmax amax dmax destop jmax s = .next s') : s'.guarded = s.guarded := by
  refine does_guarded _ _ _ (fun z => ?_) s' hs
  simp only [guarded_mk, steady_mk, steady_eta, closed_mk, closed_eta, guarded_eta, guarded_fold, guarded_if, ite_self, implies_true, State.runDescr_guarded, fxLimits_guarded]

theorem execFollow_guarded (t : Nat) (h : DHdr) (ai pos : Bool) (src : Nat) (g : Coef) (lagmax : Int) (s : State) (s' : State)
    (hs : execFollow t h ai pos src g lagmax s = .next s') : s'.guarded = s.guarded := by
  refine does_guarded _ _ _ (fun z => ?_) s' hs
  simp only [guarded_mk, steady_mk, steady_eta, closed_mk, closed_eta, guarded_eta, guarded_fold, guarded_if, ite_self, implies_true, State.runDescr_guarded, fxFollow_guarded]

theorem execGear_guarded (t : Nat) (h : DHdr) (wait : Bool) (master : Nat) (n m ofs : Int) (s : State) (s' : State)
    (hs : execGear t h wait master n m ofs s = .next s') : s'.guarded = s.guarded := by
  refine does_guarded _ _ _ (fun z => ?_) s' hs
  simp only [guarded_mk, steady_mk, steady_eta, closed_mk, closed_eta, guarded_eta, guarded_fold, guarded_if, ite_self, implies_true, State.runDescr_guarded, fxGear_guarded]

theorem execCamEngage_guarded (t : Nat) (h : DHdr) (table : Nat) (cont cubic : Bool) (mode master : Nat) (oc b xsw : Int) (s : State) (s' : State)
    (hs : execCamEngage t h table cont cubic mode master oc b xsw s = .next s') : s'.guarded = s.guarded := by
  refine does_guarded _ _ _ (fun z => ?_) s' hs
  simp only [guarded_mk, steady_mk, steady_eta, closed_mk, closed_eta, guarded_eta, guarded_fold, guarded_if, ite_self, implies_true, State.runDescr_guarded, fxCamEngage_guarded]

theorem execCamDisengage_guarded (t : Nat) (h : DHdr) (holdVel : Bool) (s : State) (s' : State)
    (hs : execCamDisengage t h holdVel s = .next s') : s'.guarded = s.guarded := by
  refine does_guarded _ _ _ (fun z => ?_) s' hs
  simp only [guarded_mk, steady_mk, steady_eta, closed_mk, closed_eta, guarded_eta, guarded_fold, guarded_if, ite_self, implies_true, State.runDescr_guarded, fxCamDisengage_guarded]

theorem execGroupMove_guarded (t : Nat) (h : DHdr) (f : GroupFn) (s : State) (s' : State)
    (hs : execGroupMove t h f s = .next s') : s'.guarded = s.guarded := by
  refine does_guarded _ _ _ (fun z => ?_) s' hs
  simp only [guarded_mk, steady_mk, steady_eta, closed_mk, closed_eta, guarded_eta, guarded_fold, guarded_if, ite_self, implies_true, State.runDescr_guarded, fxGroupMove_guarded]

theorem execPhaseIn_guarded (t : Nat) (h : DHdr) (w : Int) (s : State) (s' : State)
    (hs : execPhaseIn t h w s = .next s') : s'.guarded = s.guarded := by
  refine does_guarded _ _ _ (fun z => ?_) s' hs
  simp only [guarded_mk, steady_mk, steady_eta, closed_mk, closed_eta, guarded_eta, guarded_fold, guarded_if, ite_self, implies_true, State.runDescr_guarded, fxPhaseIn_guarded]

theorem State.confEffect_guarded (s : State) (e : Entry) (seg : Option Nat) (f : State → State) (h_f : ∀ z, (f z).guarded = z.guarded) :
    (State.confEffect s e seg f).guarded = s.guarded := by
  delta State.confEffect
  simp only [guarded_mk, steady_mk, steady_eta, closed_mk, closed_eta, guarded_eta, guarded_fold, guarded_if, ite_self, implies_true, h_f, State.reject_guarded]

theorem State.axisEffect_guarded (s : State) (e : Entry) (f : State → State) (h_f : ∀ z, (f z).guarded = z.guarded) :
    (State.axisEffect s e f).guarded = s.guarded := by
  delta State.axisEffect
  simp only [guarded_mk, steady_mk, steady_eta, closed_mk, closed_eta, guarded_eta, guarded_fold, guarded_if, ite_self, implies_true, h_f, State.confEffect_guarded]

theorem fxAxisMode_guarded (code : Nat) (c : Ctx) (e : Entry) (s : State) :
    (fxAxisMode code c e s).guarded = s.guarded := by
  delta fxAxisMode
  (try extract_lets) <;> (repeat' split) <;> (try with_reducible rfl) <;>
    (simp +zetaDelta only [guarded_mk, steady_mk, steady_eta, closed_mk, closed_eta, guarded_eta, guarded_fold, guarded_if, ite_self, implies_true, State.doneOn_guarded, State.modAxis_guarded, State.reject_guarded, State.setMode_guarded]) <;> (repeat' split) <;> (try with_reducible rfl) <;>
    simp +zetaDelta only [guarded_mk, steady_mk, steady_eta, closed_mk, closed_eta, guarded_eta, guarded_fold, guarded_if, ite_self, implies_true, State.doneOn_guarded, State.modAxis_guarded, State.reject_guarded, State.setMode_guarded]

theorem State.axisConfig_guarded (s : State) (c : Ctx) (e : Entry) (x : AxisCfg) :
    (State.axisConfig s c e x).guarded = s.guarded := by
  delta State.axisConfig
  (try extract_lets) <;> (repeat' split) <;> (try with_reducible rfl) <;>
    (simp +zetaDelta only [guarded_mk, steady_mk, steady_eta, closed_mk, closed_eta, guarded_eta, guarded_fold, guarded_if, ite_self, implies_true, State.doneOn_guarded, State.endMotion_guarded, State.finish_guarded, State.modAxis_guarded, State.pathEnded_guarded, State.stopPath_guarded]) <;> (repeat' split) <;> (try with_reducible rfl) <;>
    simp +zetaDelta only [guarded_mk, steady_mk, steady_eta, closed_mk, closed_eta, guarded_eta, guarded_fold, guarded_if, ite_self, implies_true, State.doneOn_guarded, State.endMotion_guarded, State.finish_guarded, State.modAxis_guarded, State.pathEnded_guarded, State.stopPath_guarded]

theorem fxAxisCfg_guarded (x : AxisCfg) (c : Ctx) (e : Entry) (s : State) :
    (fxAxisCfg x c e s).guarded = s.guarded := by
  delta fxAxisCfg
  simp only [guarded_mk, steady_mk, steady_eta, closed_mk, closed_eta, guarded_eta, guarded_fold, guarded_if, ite_self, implies_true, State.admitted_guarded, State.axisConfig_guarded, State.axisEffect_guarded, State.reject_guarded]

theorem fxSetc_guarded (index terrace : Nat) (v : Coef) (c : Ctx) (e : Entry) (s : State) :
    (fxSetc index terrace v c e s).guarded = s.guarded := by
  delta fxSetc
  simp only [guarded_mk, steady_mk, steady_eta, closed_mk, closed_eta, guarded_eta, guarded_fold, guarded_if, ite_self, implies_true, State.axisEffect_guarded, State.doneOn_guarded, State.modAxis_guarded]

theorem fxLoadset_guarded (first terrace : Nat) (vals : List Coef) (c : Ctx) (e : Entry) (s : State) :
    (fxLoadset first terrace vals c e s).guarded = s.guarded := by
  delta fxLoadset
  simp only [guarded_mk, steady_mk, steady_eta, closed_mk, closed_eta, guarded_eta, guarded_fold, guarded_if, ite_self, implies_true, State.axisEffect_guarded, State.doneOn_guarded, State.modAxis_guarded]

theorem fxSwapset_guarded (mask : Nat) (c : Ctx) (e : Entry) (s : State) :
    (fxSwapset mask c e s).guarded = s.guarded := by
  delta fxSwapset
  simp only [guarded_mk, steady_mk, steady_eta, closed_mk, closed_eta, guarded_eta, guarded_fold, guarded_if, ite_self, implies_true, State.axisEffect_guarded, State.doneOn_guarded, State.modAxis_guarded]

theorem fxTerrace_guarded (sel n b : Nat) (t1 t2 t3 h : Int) (c : Ctx) (e : Entry) (s : State) :
    (fxTerrace sel n b t1 t2 t3 h c e s).guarded = s.guarded := by
  delta fxTerrace
  simp only [guarded_mk, steady_mk, steady_eta, closed_mk, closed_eta, guarded_eta, guarded_fold, guarded_if, ite_self, implies_true, State.admitted_guarded, State.axisEffect_guarded, State.doneOn_guarded, State.modAxis_guarded, State.reject_guarded]

theorem fxFilter_guarded (changed enable : Nat) (c : Ctx) (e : Entry) (s : State) :
    (fxFilter changed enable c e s).guarded = s.guarded := by
  delta fxFilter
  simp only [guarded_mk, steady_mk, steady_eta, closed_mk, closed_eta, guarded_eta, guarded_fold, guarded_if, ite_self, implies_true, State.admitted_guarded, State.axisEffect_guarded, State.doneOn_guarded, State.modAxis_guarded, State.reject_guarded]

theorem fxLearn_guarded (f : LearnFn) (c : Ctx) (e : Entry) (s : State) : (fxLearn f c e s).guarded = s.guarded := by
  unfold fxLearn
  refine State.axisEffect_guarded _ _ _ fun z => ?_
  split <;> simp only [State.rejectAt_guarded, State.modAxis_guarded, State.doneOn_guarded]

theorem fxResample_guarded (log2n tag : Nat) (c : Ctx) (e : Entry) (s : State) :
    (fxResample log2n tag c e s).guarded = s.guarded := by
  delta fxResample
  (try extract_lets) <;> (repeat' split) <;> (try with_reducible rfl) <;>
    (simp +zetaDelta only [guarded_mk, steady_mk, steady_eta, closed_mk, closed_eta, guarded_eta, guarded_fold, guarded_if, ite_self, implies_true, State.axisEffect_guarded, State.issueSoft_guarded, State.modAxis_guarded, State.reject_guarded]) <;> (repeat' split) <;> (try with_reducible rfl) <;>
    simp +zetaDelta only [guarded_mk, steady_mk, steady_eta, closed_mk, closed_eta, guarded_eta, guarded_fold, guarded_if, ite_self, implies_true, State.axisEffect_guarded, State.issueSoft_guarded, State.modAxis_guarded, State.reject_guarded]

theorem State.couple_guarded (s : State) (g : Nat) (f : CoupleFn) :
    (State.couple s g f).guarded = s.guarded := by
  delta State.couple
  (try extract_lets) <;> (repeat' split) <;> (try with_reducible rfl) <;>
    (simp +zetaDelta only [guarded_mk, steady_mk, steady_eta, closed_mk, closed_eta, guarded_eta, guarded_fold, guarded_if, ite_self, implies_true, State.modCGroup_guarded]) <;> (repeat' split) <;> (try with_reducible rfl) <;>
    simp +zetaDelta only [guarded_mk, steady_mk, steady_eta, closed_mk, closed_eta, guarded_eta, guarded_fold, guarded_if, ite_self, implies_true, State.modCGroup_guarded]

theorem fxCouple_guarded (f : CoupleFn) (c : Ctx) (e : Entry) (s : State) : (fxCouple f c e s).guarded = s.guarded := by
  unfold fxCouple
  refine State.confEffect_guarded _ _ _ _ fun z => ?_
  split
  · exact State.rejectAt_guarded ..
  · exact State.admitted_guarded _ _ _ _ (by simp only [State.finish_guarded, State.couple_guarded])

theorem fxIdent_guarded (f : IdentFn) (c : Ctx) (e : Entry) (s : State) : (fxIdent f c e s).guarded = s.guarded := by
  unfold fxIdent
  refine State.axisEffect_guarded _ _ _ fun z => ?_
  cases f with
  | start =>
    dsimp only
    split <;> simp only [State.reject_guarded, State.modAxis_guarded]
  | cancel =>
    dsimp only
    split
    · exact State.reject_guarded ..
    · split
      · exact State.reject_guarded ..
      · rw [State.doneOn_guarded]
        split <;> simp only [State.modAxis_guarded, State.endIdent_guarded]

theorem fxCamLoad_guarded (table k : Nat) (sp rise : Int) (y : List Int) (u1 : Ctx) (e : Entry) (s : State) :
    (fxCamLoad table k sp rise y u1 e s).guarded = s.guarded := by
  delta fxCamLoad
  simp only [guarded_mk, steady_mk, steady_eta, closed_mk, closed_eta, guarded_eta, guarded_fold, guarded_if, ite_self, implies_true, State.finish_guarded, State.rejectAt_guarded, State.reject_guarded]

theorem execSetc_guarded (t : Nat) (h : DHdr) (index terrace : Nat) (v : Coef) (s : State) (s' : State)
    (hs : execSetc t h index terrace v s = .next s') : s'.guarded = s.guarded := by
  refine does_guarded _ _ _ (fun z => ?_) s' hs
  simp only [guarded_mk, steady_mk, steady_eta, closed_mk, closed_eta, guarded_eta, guarded_fold, guarded_if, ite_self, implies_true, State.runDescr_guarded, fxSetc_guarded]

theorem execLoadset_guarded (t : Nat) (h : DHdr) (first terrace : Nat) (vals : List Coef) (s : State) (s' : State)
    (hs : execLoadset t h first terrace vals s = .next s') : s'.guarded = s.guarded := by
  refine does_guarded _ _ _ (fun z => ?_) s' hs
  simp only [guarded_mk, steady_mk, steady_eta, closed_mk, closed_eta, guarded_eta, guarded_fold, guarded_if, ite_self, implies_true, State.runDescr_guarded, fxLoadset_guarded]

theorem execSwapset_guarded (t : Nat) (h : DHdr) (mask : Nat) (s : State) (s' : State)
    (hs : execSwapset t h mask s = .next s') : s'.guarded = s.guarded := by
  refine does_guarded _ _ _ (fun z => ?_) s' hs
  simp only [guarded_mk, steady_mk, steady_eta, closed_mk, closed_eta, guarded_eta, guarded_fold, guarded_if, ite_self, implies_true, State.runDescr_guarded, fxSwapset_guarded]

theorem execTerrace_guarded (t : Nat) (h : DHdr) (sel n b : Nat) (t1 t2 t3 hyst : Int) (s : State) (s' : State)
    (hs : execTerrace t h sel n b t1 t2 t3 hyst s = .next s') : s'.guarded = s.guarded := by
  refine does_guarded _ _ _ (fun z => ?_) s' hs
  simp only [guarded_mk, steady_mk, steady_eta, closed_mk, closed_eta, guarded_eta, guarded_fold, guarded_if, ite_self, implies_true, State.runDescr_guarded, fxTerrace_guarded]

theorem execFilter_guarded (t : Nat) (h : DHdr) (changed enable : Nat) (s : State) (s' : State)
    (hs : execFilter t h changed enable s = .next s') : s'.guarded = s.guarded := by
  refine does_guarded _ _ _ (fun z => ?_) s' hs
  simp only [guarded_mk, steady_mk, steady_eta, closed_mk, closed_eta, guarded_eta, guarded_fold, guarded_if, ite_self, implies_true, State.runDescr_guarded, fxFilter_guarded]

theorem execLearn_guarded (t : Nat) (h : DHdr) (f : LearnFn) (s : State) (s' : State)
    (hs : execLearn t h f s = .next s') : s'.guarded = s.guarded := by
  refine does_guarded _ _ _ (fun z => ?_) s' hs
  simp only [guarded_mk, steady_mk, steady_eta, closed_mk, closed_eta, guarded_eta, guarded_fold, guarded_if, ite_self, implies_true, State.runDescr_guarded, fxLearn_guarded]

theorem execResample_guarded (t : Nat) (h : DHdr) (log2n tag : Nat) (s : State) (s' : State)
    (hs : execResample t h log2n tag s = .next s') : s'.guarded = s.guarded := by
  refine does_guarded _ _ _ (fun z => ?_) s' hs
  simp only [guarded_mk, steady_mk, steady_eta, closed_mk, closed_eta, guarded_eta, guarded_fold, guarded_if, ite_self, implies_true, State.runDescr_guarded, fxResample_guarded]

theorem execCouple_guarded (t : Nat) (h : DHdr) (f : CoupleFn) (s : State) (s' : State)
    (hs : execCouple t h f s = .next s') : s'.guarded = s.guarded := by
  refine does_guarded _ _ _ (fun z => ?_) s' hs
  simp only [guarded_mk, steady_mk, steady_eta, closed_mk, closed_eta, guarded_eta, guarded_fold, guarded_if, ite_self, implies_true, State.couple_guarded, State.runDescr_guarded, fxCouple_guarded]

theorem execIdent_guarded (t : Nat) (h : DHdr) (f : IdentFn) (s : State) (s' : State)
    (hs : execIdent t h f s = .next s') : s'.guarded = s.guarded := by
  refine does_guarded _ _ _ (fun z => ?_) s' hs
  simp only [guarded_mk, steady_mk, steady_eta, closed_mk, closed_eta, guarded_eta, guarded_fold, guarded_if, ite_self, implies_true, State.runDescr_guarded, fxIdent_guarded]

theorem execCamLoad_guarded (t : Nat) (h : DHdr) (table k : Nat) (sp rise : Int) (y : List Int) (s : State) (s' : State)
    (hs : execCamLoad t h table k sp rise y s = .next s') : s'.guarded = s.guarded := by
  refine does_guarded _ _ _ (fun z => ?_) s' hs
  simp only [guarded_mk, steady_mk, steady_eta, closed_mk, closed_eta, guarded_eta, guarded_fold, guarded_if, ite_self, implies_true, State.runDescr_guarded, fxCamLoad_guarded]

theorem execAxisCfg_guarded (t : Nat) (h : DHdr) (c : AxisCfg) (s : State) (s' : State)
    (hs : execAxisCfg t h c s = .next s') : s'.guarded = s.guarded := by
  refine does_guarded _ _ _ (fun z => ?_) s' hs
  simp only [guarded_mk, steady_mk, steady_eta, closed_mk, closed_eta, guarded_eta, guarded_fold, guarded_if, ite_self, implies_true, State.runDescr_guarded, fxAxisCfg_guarded]

theorem State.ledgerWrite_guarded (s : State) (m : Mark) :
    (State.ledgerWrite s m).guarded = s.guarded := by
  delta State.ledgerWrite
  simp only [guarded_mk, steady_mk, steady_eta, closed_mk, closed_eta, guarded_eta, guarded_fold, guarded_if, ite_self, implies_true]

theorem State.mirror_guarded (s : State) (m : Mark) :
    (State.mirror s m).guarded = s.guarded := by
  delta State.mirror
  simp only [guarded_mk, steady_mk, steady_eta, closed_mk, closed_eta, guarded_eta, guarded_fold, guarded_if, ite_self, implies_true, State.post_guarded, State.sendTwin_guarded]

theorem State.releaseMark_guarded (s : State) (m : Mark) (code : Nat) :
    (State.releaseMark s m code).guarded = s.guarded := by
  delta State.releaseMark
  simp only [guarded_mk, steady_mk, steady_eta, closed_mk, closed_eta, guarded_eta, guarded_fold, guarded_if, ite_self, implies_true, State.ledgerWrite_guarded, State.mirror_guarded, State.takeReaction_guarded]

theorem execMarkRelease_guarded (t : Nat) (s : State) (s' : State)
    (hs : execMarkRelease t s = .next s') : s'.guarded = s.guarded := by
  refine does_guarded _ _ _ (fun z => ?_) s' hs
  simp only [guarded_mk, steady_mk, steady_eta, closed_mk, closed_eta, guarded_eta, guarded_fold, guarded_if, ite_self, implies_true, State.releaseMark_guarded]

theorem fxClearLedger_guarded (u1 : Ctx) (e : Entry) (s : State) :
    (fxClearLedger u1 e s).guarded = s.guarded := by
  delta fxClearLedger
  simp only [guarded_mk, steady_mk, steady_eta, closed_mk, closed_eta, guarded_eta, guarded_fold, guarded_if, ite_self, implies_true, State.finish_guarded]

theorem execClearLedger_guarded (t : Nat) (h : DHdr) (s : State) (s' : State)
    (hs : execClearLedger t h s = .next s') : s'.guarded = s.guarded := by
  refine does_guarded _ _ _ (fun z => ?_) s' hs
  simp only [guarded_mk, steady_mk, steady_eta, closed_mk, closed_eta, guarded_eta, guarded_fold, guarded_if, ite_self, implies_true, State.runDescr_guarded, fxClearLedger_guarded]

theorem fxInject_guarded (double : Bool) (src : Nat) (u1 : Ctx) (e : Entry) (s : State) :
    (fxInject double src u1 e s).guarded = s.guarded := by
  delta fxInject
  simp only [guarded_mk, steady_mk, steady_eta, closed_mk, closed_eta, guarded_eta, guarded_fold, guarded_if, ite_self, implies_true, State.finish_guarded, State.rejectAt_guarded, State.reject_guarded]

theorem execInject_guarded (t : Nat) (h : DHdr) (double : Bool) (src : Nat) (s : State) (s' : State)
    (hs : execInject t h double src s = .next s') : s'.guarded = s.guarded := by
  refine does_guarded _ _ _ (fun z => ?_) s' hs
  simp only [guarded_mk, steady_mk, steady_eta, closed_mk, closed_eta, guarded_eta, guarded_fold, guarded_if, ite_self, implies_true, State.runDescr_guarded, fxInject_guarded]

theorem State.disarmAll_guarded (s : State) :
    (State.disarmAll s).guarded = s.guarded := by
  delta State.disarmAll
  simp only [guarded_mk, steady_mk, steady_eta, closed_mk, closed_eta, guarded_eta, guarded_fold, guarded_if, ite_self, implies_true, State.raise_guarded]

theorem State.asCommitted_guarded (s : State) (k : Nat) :
    (State.asCommitted s k).guarded = s.guarded := by
  delta State.asCommitted
  simp only [guarded_mk, steady_mk, steady_eta, closed_mk, closed_eta, guarded_eta, guarded_fold, guarded_if, ite_self, implies_true, State.modSeg_guarded]

theorem fxUnfence_guarded (src : Nat) (u1 : Ctx) (e : Entry) (s : State) :
    (fxUnfence src u1 e s).guarded = s.guarded := by
  delta fxUnfence
  (try extract_lets) <;> (repeat' split) <;> (try with_reducible rfl) <;>
    (simp +zetaDelta only [guarded_mk, steady_mk, steady_eta, closed_mk, closed_eta, guarded_eta, guarded_fold, guarded_if, ite_self, implies_true, State.modPool_guarded, State.modSeg_guarded, State.rejectAt_guarded, State.reject_guarded, State.safeHold_guarded]) <;> (repeat' split) <;> (try with_reducible rfl) <;>
    simp +zetaDelta only [guarded_mk, steady_mk, steady_eta, closed_mk, closed_eta, guarded_eta, guarded_fold, guarded_if, ite_self, implies_true, State.modPool_guarded, State.modSeg_guarded, State.rejectAt_guarded, State.reject_guarded, State.safeHold_guarded]

theorem execUnfence_guarded (t : Nat) (h : DHdr) (src : Nat) (s : State) (s' : State)
    (hs : execUnfence t h src s = .next s') : s'.guarded = s.guarded := by
  refine does_guarded _ _ _ (fun z => ?_) s' hs
  simp only [guarded_mk, steady_mk, steady_eta, closed_mk, closed_eta, guarded_eta, guarded_fold, guarded_if, ite_self, implies_true, State.runDescr_guarded, State.unfence_guarded, fxUnfence_guarded]

theorem execUnfenceCheckDone_guarded (t : Nat) (src : Nat) (ok : Bool) (s : State) (s' : State)
    (hs : execUnfenceCheckDone t src ok s = .next s') : s'.guarded = s.guarded := by
  refine does_guarded _ _ _ (fun z => ?_) s' hs
  (try extract_lets) <;> (repeat' split) <;> (try with_reducible rfl) <;>
    (simp +zetaDelta only [guarded_mk, steady_mk, steady_eta, closed_mk, closed_eta, guarded_eta, guarded_fold, guarded_if, ite_self, implies_true, State.finish_guarded, State.modPool_guarded, State.postReady_guarded]) <;> (repeat' split) <;> (try with_reducible rfl) <;>
    simp +zetaDelta only [guarded_mk, steady_mk, steady_eta, closed_mk, closed_eta, guarded_eta, guarded_fold, guarded_if, ite_self, implies_true, State.finish_guarded, State.modPool_guarded, State.postReady_guarded]

theorem State.spineReturn_guarded (s : State) (i : Nat) :
    (State.spineReturn s i).guarded = s.guarded := by
  delta State.spineReturn
  simp only [guarded_mk, steady_mk, steady_eta, closed_mk, closed_eta, guarded_eta, guarded_fold, guarded_if, ite_self, implies_true, State.modAxis_guarded, State.modConv_guarded, State.modPool_guarded, State.modSeg_guarded]

theorem State.traceUnfences_guarded (old s : State) (l : List Nat) (h_s : s.guarded = old.guarded) :
    (State.traceUnfences old s l).guarded = old.guarded := by
  delta State.traceUnfences
  simp only [guarded_mk, steady_mk, steady_eta, closed_mk, closed_eta, guarded_eta, guarded_fold, guarded_if, ite_self, implies_true, h_s, State.traceHammer_guarded]

theorem State.returnValley_guarded (s : State) (v : Nat) :
    (State.returnValley s v).guarded = s.guarded := by
  delta State.returnValley
  simp only [guarded_mk, steady_mk, steady_eta, closed_mk, closed_eta, guarded_eta, guarded_fold, guarded_if, ite_self, implies_true, State.setAxis_guarded]

theorem State.rejoin_guarded (s : State) (src : Nat) :
    (State.rejoin s src).guarded = s.guarded := by
  delta State.rejoin
  (try extract_lets) <;> (repeat' split) <;> (try with_reducible rfl) <;>
    (simp +zetaDelta only [guarded_mk, steady_mk, steady_eta, closed_mk, closed_eta, guarded_eta, guarded_fold, guarded_if, ite_self, implies_true, State.modHammer_guarded, State.modStep_guarded, State.returnValley_guarded, State.spineReturn_guarded, State.traceUnfences_guarded, State.unfence_guarded]) <;> (repeat' split) <;> (try with_reducible rfl) <;>
    simp +zetaDelta only [guarded_mk, steady_mk, steady_eta, closed_mk, closed_eta, guarded_eta, guarded_fold, guarded_if, ite_self, implies_true, State.modHammer_guarded, State.modStep_guarded, State.returnValley_guarded, State.spineReturn_guarded, State.traceUnfences_guarded, State.unfence_guarded]

theorem State.restoreSeg_guarded (s : State) (k id : Nat) :
    (State.restoreSeg s k id).guarded = s.guarded := by
  delta State.restoreSeg
  simp only [guarded_mk, steady_mk, steady_eta, closed_mk, closed_eta, guarded_eta, guarded_fold, guarded_if, ite_self, implies_true, State.asCommitted_guarded, State.finish_guarded, State.liveOff_guarded, State.modAxis_guarded, State.modSeg_guarded, State.unfence_guarded]

theorem execFlitCrcError_guarded (t : Nat) (link : Nat) (s : State) (s' : State)
    (hs : execFlitCrcError t link s = .next s') : s'.guarded = s.guarded := by
  refine does_guarded _ _ _ (fun z => ?_) s' hs
  simp only [guarded_mk, steady_mk, steady_eta, closed_mk, closed_eta, guarded_eta, guarded_fold, guarded_if, ite_self, implies_true, State.disarm_guarded, State.raiseOnce_guarded]

theorem State.stepMt_guarded (s : State) (o : Int) :
    (State.stepMt s o).guarded = s.guarded := by
  delta State.stepMt
  simp only [guarded_mk, steady_mk, steady_eta, closed_mk, closed_eta, guarded_eta, guarded_fold, guarded_if, ite_self, implies_true]

theorem State.setDom_guarded (s : State) (k : Nat) (st : DomState) :
    (State.setDom s k st).guarded = s.guarded := by
  delta State.setDom
  simp only [guarded_mk, steady_mk, steady_eta, closed_mk, closed_eta, guarded_eta, guarded_fold, guarded_if, ite_self, implies_true, State.liveOff_guarded, State.liveOn_guarded, State.modDom_guarded, State.raise_guarded]

theorem State.loseDom_guarded (s : State) (k : Nat) :
    (State.loseDom s k).guarded = s.guarded := by
  delta State.loseDom
  simp only [guarded_mk, steady_mk, steady_eta, closed_mk, closed_eta, guarded_eta, guarded_fold, guarded_if, ite_self, implies_true, State.setDom_guarded]

theorem State.domEnable_guarded (s : State) (k : Nat) :
    (State.domEnable s k).guarded = s.guarded := by
  delta State.domEnable
  simp only [guarded_mk, steady_mk, steady_eta, closed_mk, closed_eta, guarded_eta, guarded_fold, guarded_if, ite_self, implies_true, State.modDom_guarded, State.setDom_guarded]

theorem State.slewTo_guarded (s : State) (d : Domain) :
    (State.slewTo s d).guarded = s.guarded := by
  delta State.slewTo
  simp only [guarded_mk, steady_mk, steady_eta, closed_mk, closed_eta, guarded_eta, guarded_fold, guarded_if, ite_self, implies_true]

theorem State.slewMt_guarded (s : State) :
    (State.slewMt s).guarded = s.guarded := by
  delta State.slewMt
  simp only [guarded_mk, steady_mk, steady_eta, closed_mk, closed_eta, guarded_eta, guarded_fold, guarded_if, ite_self, implies_true, State.before_guarded, State.slewTo_guarded]

theorem State.servo_guarded (s : State) (k rawI : Nat) (origin : Nat) (correction cumRate : Int) :
    (State.servo s k rawI origin correction cumRate).guarded = s.guarded := by
  delta State.servo
  simp only [guarded_mk, steady_mk, steady_eta, closed_mk, closed_eta, guarded_eta, guarded_fold, guarded_if, ite_self, implies_true, State.at_guarded, State.modDom_guarded, State.raise_guarded, State.setDom_guarded, State.slewMt_guarded]

theorem execGptpSyncReceived_guarded (t port rawI origin : Nat) (correction cumRate logInt : Int) (s : State) (s' : State)
    (hs : execGptpSyncReceived t port rawI origin correction cumRate logInt s = .next s') : s'.guarded = s.guarded := by
  refine does_guarded _ _ _ (fun z => ?_) s' hs
  simp only [guarded_mk, steady_mk, steady_eta, closed_mk, closed_eta, guarded_eta, guarded_fold, guarded_if, ite_self, implies_true, State.modDom_guarded, State.servo_guarded, State.setDom_guarded]

theorem execAnnounceReceived_guarded (t port gmid : Nat) (s : State) (s' : State)
    (hs : execAnnounceReceived t port gmid s = .next s') : s'.guarded = s.guarded := by
  refine does_guarded _ _ _ (fun z => ?_) s' hs
  simp only [guarded_mk, steady_mk, steady_eta, closed_mk, closed_eta, guarded_eta, guarded_fold, guarded_if, ite_self, implies_true, State.modDom_guarded, State.setDom_guarded]

theorem execSyncReceiptTimeout_guarded (t domain : Nat) (s : State) (s' : State)
    (hs : execSyncReceiptTimeout t domain s = .next s') : s'.guarded = s.guarded := by
  refine does_guarded _ _ _ (fun z => ?_) s' hs
  simp only [guarded_mk, steady_mk, steady_eta, closed_mk, closed_eta, guarded_eta, guarded_fold, guarded_if, ite_self, implies_true, State.loseDom_guarded]

theorem execAnnounceReceiptTimeout_guarded (t domain : Nat) (s : State) (s' : State)
    (hs : execAnnounceReceiptTimeout t domain s = .next s') : s'.guarded = s.guarded := by
  refine does_guarded _ _ _ (fun z => ?_) s' hs
  simp only [guarded_mk, steady_mk, steady_eta, closed_mk, closed_eta, guarded_eta, guarded_fold, guarded_if, ite_self, implies_true, State.loseDom_guarded]

theorem execHoldoverExpiry_guarded (t domain : Nat) (s : State) (s' : State)
    (hs : execHoldoverExpiry t domain s = .next s') : s'.guarded = s.guarded := by
  refine does_guarded _ _ _ (fun z => ?_) s' hs
  simp only [guarded_mk, steady_mk, steady_eta, closed_mk, closed_eta, guarded_eta, guarded_fold, guarded_if, ite_self, implies_true, State.setDom_guarded]

theorem State.emitGptp_guarded (s : State) (port : Nat) (o : Out) :
    (State.emitGptp s port o).guarded = s.guarded := by
  delta State.emitGptp
  simp only [guarded_mk, steady_mk, steady_eta, closed_mk, closed_eta, guarded_eta, guarded_fold, guarded_if, ite_self, implies_true, State.emit_guarded]

theorem execPdelayReqInterval_guarded (t port : Nat) (s : State) (s' : State)
    (hs : execPdelayReqInterval t port s = .next s') : s'.guarded = s.guarded := by
  refine does_guarded _ _ _ (fun z => ?_) s' hs
  simp only [guarded_mk, steady_mk, steady_eta, closed_mk, closed_eta, guarded_eta, guarded_fold, guarded_if, ite_self, implies_true, State.emitGptp_guarded, State.modPlant_guarded]

theorem State.setCapable_guarded (s : State) (k : Nat) (c : Bool) :
    (State.setCapable s k c).guarded = s.guarded := by
  delta State.setCapable
  simp only [guarded_mk, steady_mk, steady_eta, closed_mk, closed_eta, guarded_eta, guarded_fold, guarded_if, ite_self, implies_true, State.loseDom_guarded, State.modDom_guarded]

theorem execPdelayResponseReceived_guarded (t port mld : Nat) (nrr : Int) (capable : Bool) (s : State) (s' : State)
    (hs : execPdelayResponseReceived t port mld nrr capable s = .next s') : s'.guarded = s.guarded := by
  refine does_guarded _ _ _ (fun z => ?_) s' hs
  simp only [guarded_mk, steady_mk, steady_eta, closed_mk, closed_eta, guarded_eta, guarded_fold, guarded_if, ite_self, implies_true, State.modDom_guarded, State.modPlant_guarded, State.setCapable_guarded]

theorem execPdelayReqReceived_guarded (t port : Nat) (frame : List Byte) (s : State) (s' : State)
    (hs : execPdelayReqReceived t port frame s = .next s') : s'.guarded = s.guarded := by
  refine does_guarded _ _ _ (fun z => ?_) s' hs
  simp only [guarded_mk, steady_mk, steady_eta, closed_mk, closed_eta, guarded_eta, guarded_fold, guarded_if, ite_self, implies_true, State.emitGptp_guarded]

theorem execPlantPortLinkChange_guarded (t port : Nat) (up : Bool) (s : State) (s' : State)
    (hs : execPlantPortLinkChange t port up s = .next s') : s'.guarded = s.guarded := by
  refine does_guarded _ _ _ (fun z => ?_) s' hs
  simp only [guarded_mk, steady_mk, steady_eta, closed_mk, closed_eta, guarded_eta, guarded_fold, guarded_if, ite_self, implies_true, State.modPlant_guarded, State.setCapable_guarded]

theorem State.switchDom_guarded (s : State) (d : Nat) :
    (State.switchDom s d).guarded = s.guarded := by
  delta State.switchDom
  simp only [guarded_mk, steady_mk, steady_eta, closed_mk, closed_eta, guarded_eta, guarded_fold, guarded_if, ite_self, implies_true, State.devSet_guarded, State.raise_guarded]

theorem State.autoSwitch_guarded (s : State) :
    (State.autoSwitch s).guarded = s.guarded := by
  delta State.autoSwitch
  simp only [guarded_mk, steady_mk, steady_eta, closed_mk, closed_eta, guarded_eta, guarded_fold, guarded_if, ite_self, implies_true, State.switchDom_guarded]

theorem State.firstLock_guarded (s : State) :
    (State.firstLock s).guarded = s.guarded := by
  delta State.firstLock
  simp only [guarded_mk, steady_mk, steady_eta, closed_mk, closed_eta, guarded_eta, guarded_fold, guarded_if, ite_self, implies_true, State.raise_guarded, State.stepMt_guarded]

theorem State.timeBoundary_guarded (s : State) :
    (State.timeBoundary s).guarded = s.guarded := by
  delta State.timeBoundary
  simp only [guarded_mk, steady_mk, steady_eta, closed_mk, closed_eta, guarded_eta, guarded_fold, guarded_if, ite_self, implies_true, State.autoSwitch_guarded, State.firstLock_guarded, State.slewMt_guarded]

theorem State.turnAway_guarded (s : State) (e : Entry) (b : Nat × Nat) :
    (State.turnAway s e b).guarded = s.guarded := by
  delta State.turnAway
  simp only [guarded_mk, steady_mk, steady_eta, closed_mk, closed_eta, guarded_eta, guarded_fold, guarded_if, ite_self, implies_true, State.rejectAt_guarded, State.reject_guarded]

theorem fxTimeStep_guarded (toDomain : Bool) (x : Int) (u1 : Ctx) (e : Entry) (s : State) :
    (fxTimeStep toDomain x u1 e s).guarded = s.guarded := by
  delta fxTimeStep
  (try extract_lets) <;> (repeat' split) <;> (try with_reducible rfl) <;>
    (simp +zetaDelta only [guarded_mk, steady_mk, steady_eta, closed_mk, closed_eta, guarded_eta, guarded_fold, guarded_if, ite_self, implies_true, State.finish_guarded, State.modEntry_guarded, State.raise_guarded, State.stepMt_guarded, State.turnAway_guarded]) <;> (repeat' split) <;> (try with_reducible rfl) <;>
    simp +zetaDelta only [guarded_mk, steady_mk, steady_eta, closed_mk, closed_eta, guarded_eta, guarded_fold, guarded_if, ite_self, implies_true, State.finish_guarded, State.modEntry_guarded, State.raise_guarded, State.stepMt_guarded, State.turnAway_guarded]

theorem fxTimeSelect_guarded (domain : Nat) (auto : Bool) (u1 : Ctx) (e : Entry) (s : State) :
    (fxTimeSelect domain auto u1 e s).guarded = s.guarded := by
  delta fxTimeSelect
  simp only [guarded_mk, steady_mk, steady_eta, closed_mk, closed_eta, guarded_eta, guarded_fold, guarded_if, ite_self, implies_true, State.devSet_guarded, State.finish_guarded, State.reject_guarded, State.switchDom_guarded]

theorem execTimeStep_guarded (t : Nat) (h : DHdr) (toDomain : Bool) (x : Int) (s : State) (s' : State)
    (hs : execTimeStep t h toDomain x s = .next s') : s'.guarded = s.guarded := by
  refine does_guarded _ _ _ (fun z => ?_) s' hs
  simp only [guarded_mk, steady_mk, steady_eta, closed_mk, closed_eta, guarded_eta, guarded_fold, guarded_if, ite_self, implies_true, State.runDescr_guarded, fxTimeStep_guarded]

theorem execTimeSelect_guarded (t : Nat) (h : DHdr) (domain : Nat) (auto : Bool) (s : State) (s' : State)
    (hs : execTimeSelect t h domain auto s = .next s') : s'.guarded = s.guarded := by
  refine does_guarded _ _ _ (fun z => ?_) s' hs
  simp only [guarded_mk, steady_mk, steady_eta, closed_mk, closed_eta, guarded_eta, guarded_fold, guarded_if, ite_self, implies_true, State.runDescr_guarded, fxTimeSelect_guarded]

theorem execTimMtLoRead_guarded (t : Nat) (s : State) (s' : State)
    (hs : execTimMtLoRead t s = .next s') : s'.guarded = s.guarded := by
  refine does_guarded _ _ _ (fun z => ?_) s' hs
  simp only [guarded_mk, steady_mk, steady_eta, closed_mk, closed_eta, guarded_eta, guarded_fold, guarded_if, ite_self, implies_true, State.emit_guarded]

theorem State.applyOffs_guarded (s : State) (l : List Nat) :
    (State.applyOffs s l).guarded = s.guarded := by
  delta State.applyOffs
  simp only [guarded_mk, steady_mk, steady_eta, closed_mk, closed_eta, guarded_eta, guarded_fold, guarded_if, ite_self, implies_true, State.modPool_guarded, State.setForce_guarded]

theorem State.dropDomain_guarded (s : State) (d : Nat) (needed : Bool) :
    (State.dropDomain s d needed).guarded = s.guarded := by
  delta State.dropDomain
  simp only [guarded_mk, steady_mk, steady_eta, closed_mk, closed_eta, guarded_eta, guarded_fold, guarded_if, ite_self, implies_true]

theorem State.ringEnable_guarded (s : State) (ring : Nat) :
    (State.ringEnable s ring).guarded = s.guarded := by
  delta State.ringEnable
  simp only [guarded_mk, steady_mk, steady_eta, closed_mk, closed_eta, guarded_eta, guarded_fold, guarded_if, ite_self, implies_true, State.applyOffs_guarded, State.modRing_guarded, State.statusWrite_guarded]

theorem execHstRingEnable_guarded (t ring : Nat) (s : State) (s' : State)
    (hs : execHstRingEnable t ring s = .next s') : s'.guarded = s.guarded := by
  refine does_guarded _ _ _ (fun z => ?_) s' hs
  simp only [guarded_mk, steady_mk, steady_eta, closed_mk, closed_eta, guarded_eta, guarded_fold, guarded_if, ite_self, implies_true, State.ringEnable_guarded]

theorem State.ringDisable_guarded (s : State) (ring : Nat) :
    (State.ringDisable s ring).guarded = s.guarded := by
  delta State.ringDisable
  simp only [guarded_mk, steady_mk, steady_eta, closed_mk, closed_eta, guarded_eta, guarded_fold, guarded_if, ite_self, implies_true, State.cplDisable_guarded, State.dropDomain_guarded, State.modRing_guarded]

theorem execHstRingDisable_guarded (t ring : Nat) (s : State) (s' : State)
    (hs : execHstRingDisable t ring s = .next s') : s'.guarded = s.guarded := by
  refine does_guarded _ _ _ (fun z => ?_) s' hs
  simp only [guarded_mk, steady_mk, steady_eta, closed_mk, closed_eta, guarded_eta, guarded_fold, guarded_if, ite_self, implies_true, State.ringDisable_guarded]

theorem State.readIndex_guarded (s : State) (page : List (Nat × Word)) (r : Nat) :
    (State.readIndex s page r).guarded = s.guarded := by
  delta State.readIndex
  simp only [guarded_mk, steady_mk, steady_eta, closed_mk, closed_eta, guarded_eta, guarded_fold, guarded_if, ite_self, implies_true, State.modRing_guarded, State.raiseOnce_guarded]

theorem State.readTsIndex_guarded (s : State) (page : List (Nat × Word)) (p : Nat) :
    (State.readTsIndex s page p).guarded = s.guarded := by
  delta State.readTsIndex
  simp only [guarded_mk, steady_mk, steady_eta, closed_mk, closed_eta, guarded_eta, guarded_fold, guarded_if, ite_self, implies_true, State.modPlant_guarded, State.raiseOnce_guarded]

theorem State.hbPoll_guarded (s : State) (w : Nat) :
    (State.hbPoll s w).guarded = s.guarded := by
  delta State.hbPoll
  simp only [guarded_mk, steady_mk, steady_eta, closed_mk, closed_eta, guarded_eta, guarded_fold, guarded_if, ite_self, implies_true, State.liveOff_guarded, State.raise_guarded]

theorem execPoll_guarded (t : Nat) (page : List (Nat × Word)) (s : State) (s' : State)
    (hs : execPoll t page s = .next s') : s'.guarded = s.guarded := by
  refine does_guarded _ _ _ (fun z => ?_) s' hs
  simp only [guarded_mk, steady_mk, steady_eta, closed_mk, closed_eta, guarded_eta, guarded_fold, guarded_if, ite_self, implies_true, State.hbPoll_guarded, State.modRing_guarded, State.readIndex_guarded, State.readTsIndex_guarded, State.statusWrite_guarded]

theorem execHostHbTimeout_guarded (t : Nat) (s : State) (s' : State)
    (hs : execHostHbTimeout t s = .next s') : s'.guarded = s.guarded := by
  refine does_guarded _ _ _ (fun z => ?_) s' hs
  simp only [guarded_mk, steady_mk, steady_eta, closed_mk, closed_eta, guarded_eta, guarded_fold, guarded_if, ite_self, implies_true, State.liveOn_guarded, State.raiseNow_guarded]

theorem State.sendTag_guarded (s : State) (e : Entry) (status n m : Nat) :
    (State.sendTag s e status n m).guarded = s.guarded := by
  delta State.sendTag
  simp only [guarded_mk, steady_mk, steady_eta, closed_mk, closed_eta, guarded_eta, guarded_fold, guarded_if, ite_self, implies_true, State.modEntry_guarded, State.sendTwin_guarded]

theorem State.tagNew_guarded (s : State) (e : Entry) :
    (State.tagNew s e).guarded = s.guarded := by
  delta State.tagNew
  (try extract_lets) <;> (repeat' split) <;> (try with_reducible rfl) <;>
    (simp +zetaDelta only [guarded_mk, steady_mk, steady_eta, closed_mk, closed_eta, guarded_eta, guarded_fold, guarded_if, ite_self, implies_true, State.sendTag_guarded]) <;> (repeat' split) <;> (try with_reducible rfl) <;>
    simp +zetaDelta only [guarded_mk, steady_mk, steady_eta, closed_mk, closed_eta, guarded_eta, guarded_fold, guarded_if, ite_self, implies_true, State.sendTag_guarded]

theorem State.cmdMismatch_guarded (s : State) :
    (State.cmdMismatch s).guarded = s.guarded := by
  delta State.cmdMismatch
  simp only [guarded_mk, steady_mk, steady_eta, closed_mk, closed_eta, guarded_eta, guarded_fold, guarded_if, ite_self, implies_true, State.notReady_guarded, State.raise_guarded]

theorem State.matchTag_guarded (s : State) (x : Tag) :
    (State.matchTag s x).guarded = s.guarded := by
  delta State.matchTag
  (try extract_lets) <;> (repeat' split) <;> (try with_reducible rfl) <;>
    (simp +zetaDelta only [guarded_mk, steady_mk, steady_eta, closed_mk, closed_eta, guarded_eta, guarded_fold, guarded_if, ite_self, implies_true, State.cmdMismatch_guarded, State.finish_guarded, State.modEntry_guarded]) <;> (repeat' split) <;> (try with_reducible rfl) <;>
    simp +zetaDelta only [guarded_mk, steady_mk, steady_eta, closed_mk, closed_eta, guarded_eta, guarded_fold, guarded_if, ite_self, implies_true, State.cmdMismatch_guarded, State.finish_guarded, State.modEntry_guarded]

theorem State.matchTags_guarded (s : State) :
    (State.matchTags s).guarded = s.guarded := by
  delta State.matchTags
  simp only [guarded_mk, steady_mk, steady_eta, closed_mk, closed_eta, guarded_eta, guarded_fold, guarded_if, ite_self, implies_true, State.cmdMismatch_guarded, State.matchTag_guarded]

theorem State.admitEntry_guarded (s : State) (r : Nat) (bs buf : List Byte) :
    (State.admitEntry s r bs buf).guarded = s.guarded := by
  delta State.admitEntry
  (try extract_lets) <;> (repeat' split) <;> (try with_reducible rfl) <;>
    (simp +zetaDelta only [guarded_mk, steady_mk, steady_eta, closed_mk, closed_eta, guarded_eta, guarded_fold, guarded_if, ite_self, implies_true, State.bar_guarded, State.matchTags_guarded, State.modRing_guarded, State.sendTag_guarded, State.statusWrite_guarded, State.tagNew_guarded, State.turnAway_guarded]) <;> (repeat' split) <;> (try with_reducible rfl) <;>
    simp +zetaDelta only [guarded_mk, steady_mk, steady_eta, closed_mk, closed_eta, guarded_eta, guarded_fold, guarded_if, ite_self, implies_true, State.bar_guarded, State.matchTags_guarded, State.modRing_guarded, State.sendTag_guarded, State.statusWrite_guarded, State.tagNew_guarded, State.turnAway_guarded]

theorem execDescriptorAccepted_guarded (t ring : Nat) (bytes buf : List Byte) (s : State) (s' : State)
    (hs : execDescriptorAccepted t ring bytes buf s = .next s') : s'.guarded = s.guarded := by
  refine does_guarded _ _ _ (fun z => ?_) s' hs
  simp only [guarded_mk, steady_mk, steady_eta, closed_mk, closed_eta, guarded_eta, guarded_fold, guarded_if, ite_self, implies_true, State.admitEntry_guarded, State.postReady_guarded]

theorem execAtPhaseTimeout_guarded (t ring pos : Nat) (s : State) (s' : State)
    (hs : execAtPhaseTimeout t ring pos s = .next s') : s'.guarded = s.guarded := by
  refine does_guarded _ _ _ (fun z => ?_) s' hs
  (try extract_lets) <;> (repeat' split) <;> (try with_reducible rfl) <;>
    (simp +zetaDelta only [guarded_mk, steady_mk, steady_eta, closed_mk, closed_eta, guarded_eta, guarded_fold, guarded_if, ite_self, implies_true, State.postReady_guarded, State.reject_guarded, State.sendTag_guarded]) <;> (repeat' split) <;> (try with_reducible rfl) <;>
    simp +zetaDelta only [guarded_mk, steady_mk, steady_eta, closed_mk, closed_eta, guarded_eta, guarded_fold, guarded_if, ite_self, implies_true, State.postReady_guarded, State.reject_guarded, State.sendTag_guarded]

theorem fxNop_guarded (u1 : Ctx) (e : Entry) (s : State) :
    (fxNop u1 e s).guarded = s.guarded := by
  delta fxNop
  simp only [guarded_mk, steady_mk, steady_eta, closed_mk, closed_eta, guarded_eta, guarded_fold, guarded_if, ite_self, implies_true, State.axisEffect_guarded, State.finish_guarded]

theorem fxFence_guarded (u1 : Ctx) (e : Entry) (s : State) :
    (fxFence u1 e s).guarded = s.guarded := by
  delta fxFence
  simp only [guarded_mk, steady_mk, steady_eta, closed_mk, closed_eta, guarded_eta, guarded_fold, guarded_if, ite_self, implies_true, State.finish_guarded]

theorem fxTrace_guarded (evtMask segMask : Nat) (compress softPass : Bool) (lo hi : Nat) (u1 : Ctx) (e : Entry) (s : State) :
    (fxTrace evtMask segMask compress softPass lo hi u1 e s).guarded = s.guarded := by
  delta fxTrace
  simp only [guarded_mk, steady_mk, steady_eta, closed_mk, closed_eta, guarded_eta, guarded_fold, guarded_if, ite_self, implies_true, State.devSet_guarded, State.finish_guarded]

theorem execNop_guarded (t : Nat) (h : DHdr) (s : State) (s' : State)
    (hs : execNop t h s = .next s') : s'.guarded = s.guarded := by
  refine does_guarded _ _ _ (fun z => ?_) s' hs
  simp only [guarded_mk, steady_mk, steady_eta, closed_mk, closed_eta, guarded_eta, guarded_fold, guarded_if, ite_self, implies_true, State.runDescr_guarded, fxNop_guarded]

theorem execFence_guarded (t : Nat) (h : DHdr) (rings : Nat) (waitCpl : Bool) (s : State) (s' : State)
    (hs : execFence t h rings waitCpl s = .next s') : s'.guarded = s.guarded := by
  refine does_guarded _ _ _ (fun z => ?_) s' hs
  simp only [guarded_mk, steady_mk, steady_eta, closed_mk, closed_eta, guarded_eta, guarded_fold, guarded_if, ite_self, implies_true, State.fence_guarded, State.modEntry_guarded, State.runDescr_guarded, fxFence_guarded]

theorem execTrace_guarded (t : Nat) (h : DHdr) (evtMask segMask : Nat) (compress softPass : Bool) (axisLo axisHi : Nat) (s : State) (s' : State)
    (hs : execTrace t h evtMask segMask compress softPass axisLo axisHi s = .next s') : s'.guarded = s.guarded := by
  refine does_guarded _ _ _ (fun z => ?_) s' hs
  simp only [guarded_mk, steady_mk, steady_eta, closed_mk, closed_eta, guarded_eta, guarded_fold, guarded_if, ite_self, implies_true, State.runDescr_guarded, fxTrace_guarded]

theorem execCyclePoint_guarded (t k : Nat) (s : State) (s' : State)
    (hs : execCyclePoint t k s = .next s') : s'.guarded = s.guarded := by
  refine does_guarded _ _ _ (fun z => ?_) s' hs
  simp only [guarded_mk, steady_mk, steady_eta, closed_mk, closed_eta, guarded_eta, guarded_fold, guarded_if, ite_self, implies_true, State.sendMsi_guarded, State.statusWrite_guarded]

theorem execMsiXVectorUnmask_guarded (t vec : Nat) (s : State) (s' : State)
    (hs : execMsiXVectorUnmask t vec s = .next s') : s'.guarded = s.guarded := by
  refine does_guarded _ _ _ (fun z => ?_) s' hs
  simp only [guarded_mk, steady_mk, steady_eta, closed_mk, closed_eta, guarded_eta, guarded_fold, guarded_if, ite_self, implies_true, State.emitHost_guarded]

theorem execPcieLinkDown_guarded (t : Nat) (s : State) (s' : State)
    (hs : execPcieLinkDown t s = .next s') : s'.guarded = s.guarded := by
  refine does_guarded _ _ _ (fun z => ?_) s' hs
  simp only [guarded_mk, steady_mk, steady_eta, closed_mk, closed_eta, guarded_eta, guarded_fold, guarded_if, ite_self, implies_true, State.dropDomain_guarded, State.liveOn_guarded, State.modRing_guarded, State.raise_guarded]

theorem execPcieLinkUp_guarded (t speed width : Nat) (s : State) (s' : State)
    (hs : execPcieLinkUp t speed width s = .next s') : s'.guarded = s.guarded := by
  refine does_guarded _ _ _ (fun z => ?_) s' hs
  simp only [guarded_mk, steady_mk, steady_eta, closed_mk, closed_eta, guarded_eta, guarded_fold, guarded_if, ite_self, implies_true, State.liveOff_guarded]

theorem State.txStamp_guarded (s : State) (p ident : Nat) (notSent : Bool) :
    (State.txStamp s p ident notSent).guarded = s.guarded := by
  delta State.txStamp
  simp only [guarded_mk, steady_mk, steady_eta, closed_mk, closed_eta, guarded_eta, guarded_fold, guarded_if, ite_self, implies_true, State.modPlant_guarded, State.raiseOnce_guarded, State.statusWrite_guarded]

theorem State.ptxPass_guarded (s : State) (p : Nat) :
    (State.ptxPass s p).guarded = s.guarded := by
  delta State.ptxPass
  simp only [guarded_mk, steady_mk, steady_eta, closed_mk, closed_eta, guarded_eta, guarded_fold, guarded_if, ite_self, implies_true, State.modRing_guarded, State.statusWrite_guarded]

theorem execPlantFrameSend_guarded (t port ident len : Nat) (tsReq : Bool) (frame : List Byte) (s : State) (s' : State)
    (hs : execPlantFrameSend t port ident len tsReq frame s = .next s') : s'.guarded = s.guarded := by
  refine does_guarded _ _ _ (fun z => ?_) s' hs
  simp only [guarded_mk, steady_mk, steady_eta, closed_mk, closed_eta, guarded_eta, guarded_fold, guarded_if, ite_self, implies_true, State.emit_guarded, State.modPlant_guarded, State.modRing_guarded, State.ptxPass_guarded, State.txStamp_guarded]

theorem execPlantFrameReceived_guarded (t port stamp : Nat) (fcsOk : Bool) (frame : List Byte) (s : State) (s' : State)
    (hs : execPlantFrameReceived t port stamp fcsOk frame s = .next s') : s'.guarded = s.guarded := by
  refine does_guarded _ _ _ (fun z => ?_) s' hs
  simp only [guarded_mk, steady_mk, steady_eta, closed_mk, closed_eta, guarded_eta, guarded_fold, guarded_if, ite_self, implies_true, State.modRing_guarded, State.post_guarded]

theorem State.passOn_guarded (s : State) (k : Nat) (chB : Bool) (f : List Byte) :
    (State.passOn s k chB f).guarded = s.guarded := by
  delta State.passOn
  simp only [guarded_mk, steady_mk, steady_eta, closed_mk, closed_eta, guarded_eta, guarded_fold, guarded_if, ite_self, implies_true, State.emit_guarded]

theorem State.sendCopyAt_guarded (s : State) (start k type sender slot : Nat) (payload : List Byte) (chB : Bool) :
    (State.sendCopyAt s start k type sender slot payload chB).guarded = s.guarded := by
  delta State.sendCopyAt
  simp only [guarded_mk, steady_mk, steady_eta, closed_mk, closed_eta, guarded_eta, guarded_fold, guarded_if, ite_self, implies_true, State.disarm_guarded, State.emit_guarded]

theorem State.sendCopy_guarded (s : State) (k type sender slot : Nat) (payload : List Byte) (chB : Bool) :
    (State.sendCopy s k type sender slot payload chB).guarded = s.guarded := by
  delta State.sendCopy
  simp only [guarded_mk, steady_mk, steady_eta, closed_mk, closed_eta, guarded_eta, guarded_fold, guarded_if, ite_self, implies_true, State.sendCopyAt_guarded]

theorem State.sendFrame_guarded (s : State) (k type sender slot : Nat) (payload : List Byte) :
    (State.sendFrame s k type sender slot payload).guarded = s.guarded := by
  delta State.sendFrame
  simp only [guarded_mk, steady_mk, steady_eta, closed_mk, closed_eta, guarded_eta, guarded_fold, guarded_if, ite_self, implies_true, State.sendCopy_guarded]

theorem State.badCopy_guarded (s : State) (k j : Nat) (chB : Bool) :
    (State.badCopy s k j chB).guarded = s.guarded := by
  delta State.badCopy
  simp only [guarded_mk, steady_mk, steady_eta, closed_mk, closed_eta, guarded_eta, guarded_fold, guarded_if, ite_self, implies_true, State.modNode_guarded]

theorem State.rampNode_guarded (s : State) (k j : Nat) :
    (State.rampNode s k j).guarded = s.guarded := by
  delta State.rampNode
  simp only [guarded_mk, steady_mk, steady_eta, closed_mk, closed_eta, guarded_eta, guarded_fold, guarded_if, ite_self, implies_true, State.modNode_guarded]

theorem State.publish_guarded (s : State) (k j : Nat) :
    (State.publish s k j).guarded = s.guarded := by
  delta State.publish
  (try extract_lets) <;> (repeat' split) <;> (try with_reducible rfl) <;>
    (simp +zetaDelta only [guarded_mk, steady_mk, steady_eta, closed_mk, closed_eta, guarded_eta, guarded_fold, guarded_if, ite_self, implies_true, State.modNode_guarded, State.raiseOnce_guarded]) <;> (repeat' split) <;> (try with_reducible rfl) <;>
    simp +zetaDelta only [guarded_mk, steady_mk, steady_eta, closed_mk, closed_eta, guarded_eta, guarded_fold, guarded_if, ite_self, implies_true, State.modNode_guarded, State.raiseOnce_guarded]

theorem State.takeDelta_guarded (s : State) (k j : Nat) (delta : Int) :
    (State.takeDelta s k j delta).guarded = s.guarded := by
  delta State.takeDelta
  simp only [guarded_mk, steady_mk, steady_eta, closed_mk, closed_eta, guarded_eta, guarded_fold, guarded_if, ite_self, implies_true, State.modNode_guarded, State.publish_guarded]

theorem State.judgeAsym_guarded (s : State) (k j : Nat) (chB : Bool) :
    (State.judgeAsym s k j chB).guarded = s.guarded := by
  delta State.judgeAsym
  (try extract_lets) <;> (repeat' split) <;> (try with_reducible rfl) <;>
    (simp +zetaDelta only [guarded_mk, steady_mk, steady_eta, closed_mk, closed_eta, guarded_eta, guarded_fold, guarded_if, ite_self, implies_true, State.modNode_guarded, State.raise_guarded]) <;> (repeat' split) <;> (try with_reducible rfl) <;>
    simp +zetaDelta only [guarded_mk, steady_mk, steady_eta, closed_mk, closed_eta, guarded_eta, guarded_fold, guarded_if, ite_self, implies_true, State.modNode_guarded, State.raise_guarded]

theorem State.nodeUp_guarded (s : State) (k j : Nat) :
    (State.nodeUp s k j).guarded = s.guarded := by
  delta State.nodeUp
  simp only [guarded_mk, steady_mk, steady_eta, closed_mk, closed_eta, guarded_eta, guarded_fold, guarded_if, ite_self, implies_true, State.modAxis_guarded, State.modNode_guarded]

theorem State.useReport_guarded (s : State) (k c j : Nat) (chB : Bool) (o : Int) (payload : List Byte) :
    (State.useReport s k c j chB o payload).guarded = s.guarded := by
  delta State.useReport
  simp only [guarded_mk, steady_mk, steady_eta, closed_mk, closed_eta, guarded_eta, guarded_fold, guarded_if, ite_self, implies_true, State.judgeAsym_guarded, State.modNode_guarded, State.modSeg_guarded, State.nodeUp_guarded, State.raiseOnce_guarded, State.takeDelta_guarded]

theorem State.goodReport_guarded (s : State) (k c j e : Nat) (chB : Bool) (start : Nat) (f : List Byte) :
    (State.goodReport s k c j e chB start f).guarded = s.guarded := by
  delta State.goodReport
  simp only [guarded_mk, steady_mk, steady_eta, closed_mk, closed_eta, guarded_eta, guarded_fold, guarded_if, ite_self, implies_true, State.modNode_guarded, State.raise_guarded, State.useReport_guarded]

theorem execRpReceived_guarded (t seg : Nat) (chB : Bool) (start : Nat) (frame : List Byte) (s : State) (s' : State)
    (hs : execRpReceived t seg chB start frame s = .next s') : s'.guarded = s.guarded := by
  refine does_guarded _ _ _ (fun z => ?_) s' hs
  (try extract_lets) <;> (repeat' split) <;> (try with_reducible rfl) <;>
    (simp +zetaDelta only [guarded_mk, steady_mk, steady_eta, closed_mk, closed_eta, guarded_eta, guarded_fold, guarded_if, ite_self, implies_true, State.badCopy_guarded, State.goodReport_guarded, State.passOn_guarded]) <;> (repeat' split) <;> (try with_reducible rfl) <;>
    simp +zetaDelta only [guarded_mk, steady_mk, steady_eta, closed_mk, closed_eta, guarded_eta, guarded_fold, guarded_if, ite_self, implies_true, State.badCopy_guarded, State.goodReport_guarded, State.passOn_guarded]

theorem execReportLost_guarded (t seg node : Nat) (s : State) (s' : State)
    (hs : execReportLost t seg node s = .next s') : s'.guarded = s.guarded := by
  refine does_guarded _ _ _ (fun z => ?_) s' hs
  simp only [guarded_mk, steady_mk, steady_eta, closed_mk, closed_eta, guarded_eta, guarded_fold, guarded_if, ite_self, implies_true, State.liveOn_guarded, State.raiseNow_guarded]

theorem execNodeLost_guarded (t seg node : Nat) (s : State) (s' : State)
    (hs : execNodeLost t seg node s = .next s') : s'.guarded = s.guarded := by
  refine does_guarded _ _ _ (fun z => ?_) s' hs
  simp only [guarded_mk, steady_mk, steady_eta, closed_mk, closed_eta, guarded_eta, guarded_fold, guarded_if, ite_self, implies_true, State.liveOn_guarded, State.modNode_guarded, State.raiseNow_guarded]

theorem State.spoil_guarded (s : State) (k e : Nat) (chB : Bool) :
    (State.spoil s k e chB).guarded = s.guarded := by
  delta State.spoil
  simp only [guarded_mk, steady_mk, steady_eta, closed_mk, closed_eta, guarded_eta, guarded_fold, guarded_if, ite_self, implies_true, State.badCopy_guarded, State.modNode_guarded]

theorem State.charge_guarded (s : State) (k : Nat) (x : Nat × Int) :
    (State.charge s k x).guarded = s.guarded := by
  delta State.charge
  simp only [guarded_mk, steady_mk, steady_eta, closed_mk, closed_eta, guarded_eta, guarded_fold, guarded_if, ite_self, implies_true, State.modNode_guarded]

theorem execReceiveOverlap_guarded (t seg : Nat) (chB : Bool) (start first second : Nat) (s : State) (s' : State)
    (hs : execReceiveOverlap t seg chB start first second s = .next s') : s'.guarded = s.guarded := by
  refine does_guarded _ _ _ (fun z => ?_) s' hs
  simp only [guarded_mk, steady_mk, steady_eta, closed_mk, closed_eta, guarded_eta, guarded_fold, guarded_if, ite_self, implies_true, State.charge_guarded, State.spoil_guarded]

theorem execNodeMuted_guarded (t seg node : Nat) (s : State) (s' : State)
    (hs : execNodeMuted t seg node s = .next s') : s'.guarded = s.guarded := by
  refine does_guarded _ _ _ (fun z => ?_) s' hs
  simp only [guarded_mk, steady_mk, steady_eta, closed_mk, closed_eta, guarded_eta, guarded_fold, guarded_if, ite_self, implies_true, State.liveOn_guarded, State.modNode_guarded, State.raiseNow_guarded]

theorem State.oweFrame_guarded (s : State) (k : Nat) (a : Acyclic) :
    (State.oweFrame s k a).guarded = s.guarded := by
  delta State.oweFrame
  simp only [guarded_mk, steady_mk, steady_eta, closed_mk, closed_eta, guarded_eta, guarded_fold, guarded_if, ite_self, implies_true, State.modSeg_guarded]

theorem State.assignNode_guarded (s : State) (k h : Nat) (f : List Byte) :
    (State.assignNode s k h f).guarded = s.guarded := by
  delta State.assignNode
  simp only [guarded_mk, steady_mk, steady_eta, closed_mk, closed_eta, guarded_eta, guarded_fold, guarded_if, ite_self, implies_true, State.modNode_guarded, State.oweFrame_guarded]

theorem State.inAnswer_guarded (s : State) (k : Nat) (f : List Byte) :
    (State.inAnswer s k f).guarded = s.guarded := by
  delta State.inAnswer
  (try extract_lets) <;> (repeat' split) <;> (try with_reducible rfl) <;>
    (simp +zetaDelta only [guarded_mk, steady_mk, steady_eta, closed_mk, closed_eta, guarded_eta, guarded_fold, guarded_if, ite_self, implies_true, State.assignNode_guarded, State.modNode_guarded, State.modSeg_guarded, State.oweFrame_guarded, State.raise_guarded]) <;> (repeat' split) <;> (try with_reducible rfl) <;>
    simp +zetaDelta only [guarded_mk, steady_mk, steady_eta, closed_mk, closed_eta, guarded_eta, guarded_fold, guarded_if, ite_self, implies_true, State.assignNode_guarded, State.modNode_guarded, State.modSeg_guarded, State.oweFrame_guarded, State.raise_guarded]

theorem State.badOpen_guarded (s : State) (k : Nat) (chB : Bool) (start : Nat) (f : List Byte) :
    (State.badOpen s k chB start f).guarded = s.guarded := by
  delta State.badOpen
  (try extract_lets) <;> (repeat' split) <;> (try with_reducible rfl) <;>
    (simp +zetaDelta only [guarded_mk, steady_mk, steady_eta, closed_mk, closed_eta, guarded_eta, guarded_fold, guarded_if, ite_self, implies_true, State.badCopy_guarded]) <;> (repeat' split) <;> (try with_reducible rfl) <;>
    simp +zetaDelta only [guarded_mk, steady_mk, steady_eta, closed_mk, closed_eta, guarded_eta, guarded_fold, guarded_if, ite_self, implies_true, State.badCopy_guarded]

theorem execInAnswer_guarded (t seg : Nat) (chB : Bool) (start : Nat) (frame : List Byte) (s : State) (s' : State)
    (hs : execInAnswer t seg chB start frame s = .next s') : s'.guarded = s.guarded := by
  refine does_guarded _ _ _ (fun z => ?_) s' hs
  (try extract_lets) <;> (repeat' split) <;> (try with_reducible rfl) <;>
    (simp +zetaDelta only [guarded_mk, steady_mk, steady_eta, closed_mk, closed_eta, guarded_eta, guarded_fold, guarded_if, ite_self, implies_true, State.badOpen_guarded, State.inAnswer_guarded, State.passOn_guarded]) <;> (repeat' split) <;> (try with_reducible rfl) <;>
    simp +zetaDelta only [guarded_mk, steady_mk, steady_eta, closed_mk, closed_eta, guarded_eta, guarded_fold, guarded_if, ite_self, implies_true, State.badOpen_guarded, State.inAnswer_guarded, State.passOn_guarded]

theorem State.refuseClaim_guarded (s : State) (k : Nat) (ident : List Byte) :
    (State.refuseClaim s k ident).guarded = s.guarded := by
  delta State.refuseClaim
  simp only [guarded_mk, steady_mk, steady_eta, closed_mk, closed_eta, guarded_eta, guarded_fold, guarded_if, ite_self, implies_true, State.oweFrame_guarded, State.raise_guarded]

theorem State.takeClaim_guarded (s : State) (k : Nat) (f : List Byte) :
    (State.takeClaim s k f).guarded = s.guarded := by
  delta State.takeClaim
  (try extract_lets) <;> (repeat' split) <;> (try with_reducible rfl) <;>
    (simp +zetaDelta only [guarded_mk, steady_mk, steady_eta, closed_mk, closed_eta, guarded_eta, guarded_fold, guarded_if, ite_self, implies_true, State.modNode_guarded, State.oweFrame_guarded, State.publish_guarded, State.raise_guarded, State.refuseClaim_guarded]) <;> (repeat' split) <;> (try with_reducible rfl) <;>
    simp +zetaDelta only [guarded_mk, steady_mk, steady_eta, closed_mk, closed_eta, guarded_eta, guarded_fold, guarded_if, ite_self, implies_true, State.modNode_guarded, State.oweFrame_guarded, State.publish_guarded, State.raise_guarded, State.refuseClaim_guarded]

theorem State.dropClaim_guarded (s : State) (k j : Nat) (was : Node) (ident : List Byte) :
    (State.dropClaim s k j was ident).guarded = s.guarded := by
  delta State.dropClaim
  simp only [guarded_mk, steady_mk, steady_eta, closed_mk, closed_eta, guarded_eta, guarded_fold, guarded_if, ite_self, implies_true, State.modNode_guarded, State.modSeg_guarded, State.refuseClaim_guarded]

theorem State.keepClaim_guarded (s : State) (k count j : Nat) (was : Node) (ident : List Byte) :
    (State.keepClaim s k count j was ident).guarded = s.guarded := by
  delta State.keepClaim
  simp only [guarded_mk, steady_mk, steady_eta, closed_mk, closed_eta, guarded_eta, guarded_fold, guarded_if, ite_self, implies_true, State.modSeg_guarded]

theorem State.hearClaim_guarded (s : State) (k : Nat) (x : Nat × Nat) (f : List Byte) :
    (State.hearClaim s k x f).guarded = s.guarded := by
  delta State.hearClaim
  (try extract_lets) <;> (repeat' split) <;> (try with_reducible rfl) <;>
    (simp +zetaDelta only [guarded_mk, steady_mk, steady_eta, closed_mk, closed_eta, guarded_eta, guarded_fold, guarded_if, ite_self, implies_true, State.dropClaim_guarded, State.keepClaim_guarded, State.takeClaim_guarded]) <;> (repeat' split) <;> (try with_reducible rfl) <;>
    simp +zetaDelta only [guarded_mk, steady_mk, steady_eta, closed_mk, closed_eta, guarded_eta, guarded_fold, guarded_if, ite_self, implies_true, State.dropClaim_guarded, State.keepClaim_guarded, State.takeClaim_guarded]

theorem execLcClaim_guarded (t seg : Nat) (chB : Bool) (start : Nat) (frame : List Byte) (s : State) (s' : State)
    (hs : execLcClaim t seg chB start frame s = .next s') : s'.guarded = s.guarded := by
  refine does_guarded _ _ _ (fun z => ?_) s' hs
  (try extract_lets) <;> (repeat' split) <;> (try with_reducible rfl) <;>
    (simp +zetaDelta only [guarded_mk, steady_mk, steady_eta, closed_mk, closed_eta, guarded_eta, guarded_fold, guarded_if, ite_self, implies_true, State.badOpen_guarded, State.hearClaim_guarded, State.passOn_guarded]) <;> (repeat' split) <;> (try with_reducible rfl) <;>
    simp +zetaDelta only [guarded_mk, steady_mk, steady_eta, closed_mk, closed_eta, guarded_eta, guarded_fold, guarded_if, ite_self, implies_true, State.badOpen_guarded, State.hearClaim_guarded, State.passOn_guarded]

theorem execNodeNotFound_guarded (t seg node : Nat) (s : State) (s' : State)
    (hs : execNodeNotFound t seg node s = .next s') : s'.guarded = s.guarded := by
  refine does_guarded _ _ _ (fun z => ?_) s' hs
  simp only [guarded_mk, steady_mk, steady_eta, closed_mk, closed_eta, guarded_eta, guarded_fold, guarded_if, ite_self, implies_true, State.modNode_guarded, State.raise_guarded]

theorem execLatecomerWithdrawn_guarded (t seg node : Nat) (s : State) (s' : State)
    (hs : execLatecomerWithdrawn t seg node s = .next s') : s'.guarded = s.guarded := by
  refine does_guarded _ _ _ (fun z => ?_) s' hs
  (try extract_lets) <;> (repeat' split) <;> (try with_reducible rfl) <;>
    (simp +zetaDelta only [guarded_mk, steady_mk, steady_eta, closed_mk, closed_eta, guarded_eta, guarded_fold, guarded_if, ite_self, implies_true, State.modNode_guarded, State.raise_guarded]) <;> (repeat' split) <;> (try with_reducible rfl) <;>
    simp +zetaDelta only [guarded_mk, steady_mk, steady_eta, closed_mk, closed_eta, guarded_eta, guarded_fold, guarded_if, ite_self, implies_true, State.modNode_guarded, State.raise_guarded]

theorem State.nextMg_guarded (s : State) (k : Nat) :
    (State.nextMg s k).guarded = s.guarded := by
  delta State.nextMg
  simp only [guarded_mk, steady_mk, steady_eta, closed_mk, closed_eta, guarded_eta, guarded_fold, guarded_if, ite_self, implies_true, State.modSeg_guarded]

theorem execMgAnswer_guarded (t seg : Nat) (chB : Bool) (start : Nat) (frame : List Byte) (s : State) (s' : State)
    (hs : execMgAnswer t seg chB start frame s = .next s') : s'.guarded = s.guarded := by
  refine does_guarded _ _ _ (fun z => ?_) s' hs
  (try extract_lets) <;> (repeat' split) <;> (try with_reducible rfl) <;>
    (simp +zetaDelta only [guarded_mk, steady_mk, steady_eta, closed_mk, closed_eta, guarded_eta, guarded_fold, guarded_if, ite_self, implies_true, State.badOpen_guarded, State.emitHost_guarded, State.finish_guarded, State.modSeg_guarded, State.nextMg_guarded, State.passOn_guarded, State.postReady_guarded]) <;> (repeat' split) <;> (try with_reducible rfl) <;>
    simp +zetaDelta only [guarded_mk, steady_mk, steady_eta, closed_mk, closed_eta, guarded_eta, guarded_fold, guarded_if, ite_self, implies_true, State.badOpen_guarded, State.emitHost_guarded, State.finish_guarded, State.modSeg_guarded, State.nextMg_guarded, State.passOn_guarded, State.postReady_guarded]

theorem execMgmtRequestTimeout_guarded (t seg : Nat) (s : State) (s' : State)
    (hs : execMgmtRequestTimeout t seg s = .next s') : s'.guarded = s.guarded := by
  refine does_guarded _ _ _ (fun z => ?_) s' hs
  (try extract_lets) <;> (repeat' split) <;> (try with_reducible rfl) <;>
    (simp +zetaDelta only [guarded_mk, steady_mk, steady_eta, closed_mk, closed_eta, guarded_eta, guarded_fold, guarded_if, ite_self, implies_true, State.finish_guarded, State.nextMg_guarded, State.postReady_guarded]) <;> (repeat' split) <;> (try with_reducible rfl) <;>
    simp +zetaDelta only [guarded_mk, steady_mk, steady_eta, closed_mk, closed_eta, guarded_eta, guarded_fold, guarded_if, ite_self, implies_true, State.finish_guarded, State.nextMg_guarded, State.postReady_guarded]

theorem fxUnmute_guarded (seg node : Nat) (u1 : Ctx) (e : Entry) (s : State) :
    (fxUnmute seg node u1 e s).guarded = s.guarded := by
  delta fxUnmute
  simp only [guarded_mk, steady_mk, steady_eta, closed_mk, closed_eta, guarded_eta, guarded_fold, guarded_if, ite_self, implies_true, State.finish_guarded, State.liveOff_guarded, State.modNode_guarded]

theorem fxNodeReq_guarded (seg node fn buf : Nat) (data : List Byte) (u1 : Ctx) (e : Entry) (s : State) :
    (fxNodeReq seg node fn buf data u1 e s).guarded = s.guarded := by
  delta fxNodeReq
  simp only [guarded_mk, steady_mk, steady_eta, closed_mk, closed_eta, guarded_eta, guarded_fold, guarded_if, ite_self, implies_true, State.modSeg_guarded, State.rejectAt_guarded, State.reject_guarded]

theorem execNodeMgmtUnmute_guarded (t : Nat) (h : DHdr) (request : Bool) (seg node fn buf : Nat) (data : List Byte) (s : State) (s' : State)
    (hs : execNodeMgmtUnmute t h request seg node fn buf data s = .next s') : s'.guarded = s.guarded := by
  refine does_guarded _ _ _ (fun z => ?_) s' hs
  simp only [guarded_mk, steady_mk, steady_eta, closed_mk, closed_eta, guarded_eta, guarded_fold, guarded_if, ite_self, implies_true, State.runDescr_guarded, fxNodeReq_guarded, fxUnmute_guarded]

theorem State.publishAll_guarded (s : State) (k : Nat) :
    (State.publishAll s k).guarded = s.guarded := by
  delta State.publishAll
  simp only [guarded_mk, steady_mk, steady_eta, closed_mk, closed_eta, guarded_eta, guarded_fold, guarded_if, ite_self, implies_true, State.publish_guarded]

theorem execSyReturn_guarded (t seg : Nat) (da db : Option Nat) (s : State) (s' : State)
    (hs : execSyReturn t seg da db s = .next s') : s'.guarded = s.guarded := by
  refine does_guarded _ _ _ (fun z => ?_) s' hs
  (try extract_lets) <;> (repeat' split) <;> (try with_reducible rfl) <;>
    (simp +zetaDelta only [guarded_mk, steady_mk, steady_eta, closed_mk, closed_eta, guarded_eta, guarded_fold, guarded_if, ite_self, implies_true, State.modSeg_guarded, State.publishAll_guarded, State.raiseOnce_guarded]) <;> (repeat' split) <;> (try with_reducible rfl) <;>
    simp +zetaDelta only [guarded_mk, steady_mk, steady_eta, closed_mk, closed_eta, guarded_eta, guarded_fold, guarded_if, ite_self, implies_true, State.modSeg_guarded, State.publishAll_guarded, State.raiseOnce_guarded]

theorem State.openRing_guarded (s : State) (k : Nat) :
    (State.openRing s k).guarded = s.guarded := by
  delta State.openRing
  simp only [guarded_mk, steady_mk, steady_eta, closed_mk, closed_eta, guarded_eta, guarded_fold, guarded_if, ite_self, implies_true, State.liveOn_guarded, State.modSeg_guarded, State.raise_guarded]

theorem execChannelLost_guarded (t seg : Nat) (chB : Bool) (s : State) (s' : State)
    (hs : execChannelLost t seg chB s = .next s') : s'.guarded = s.guarded := by
  refine does_guarded _ _ _ (fun z => ?_) s' hs
  simp only [guarded_mk, steady_mk, steady_eta, closed_mk, closed_eta, guarded_eta, guarded_fold, guarded_if, ite_self, implies_true, State.openRing_guarded]

theorem execRingHealed_guarded (t seg : Nat) (s : State) (s' : State)
    (hs : execRingHealed t seg s = .next s') : s'.guarded = s.guarded := by
  refine does_guarded _ _ _ (fun z => ?_) s' hs
  simp only [guarded_mk, steady_mk, steady_eta, closed_mk, closed_eta, guarded_eta, guarded_fold, guarded_if, ite_self, implies_true, State.liveOff_guarded, State.modSeg_guarded, State.raise_guarded]

theorem execDelayAdoption_guarded (t seg : Nat) (s : State) (s' : State)
    (hs : execDelayAdoption t seg s = .next s') : s'.guarded = s.guarded := by
  refine does_guarded _ _ _ (fun z => ?_) s' hs
  dsimp only
  split
  · rw [State.modSeg_guarded]
    refine guarded_fold _ (fun s j => ?_) _ _
    split <;> simp only [State.modNode_guarded, State.raiseOnce_guarded]
  · rfl

theorem State.lookRing_guarded (s : State) (k : Nat) :
    (State.lookRing s k).guarded = s.guarded := by
  delta State.lookRing
  simp only [guarded_mk, steady_mk, steady_eta, closed_mk, closed_eta, guarded_eta, guarded_fold, guarded_if, ite_self, implies_true, State.liveOff_guarded, State.modSeg_guarded, State.openRing_guarded]

theorem State.beginListen_guarded (s : State) (k : Nat) :
    (State.beginListen s k).guarded = s.guarded := by
  delta State.beginListen
  simp only [guarded_mk, steady_mk, steady_eta, closed_mk, closed_eta, guarded_eta, guarded_fold, guarded_if, ite_self, implies_true, State.lookRing_guarded, State.modSeg_guarded]

theorem State.integrate_guarded (s : State) (k : Nat) :
    (State.integrate s k).guarded = s.guarded := by
  delta State.integrate
  simp only [guarded_mk, steady_mk, steady_eta, closed_mk, closed_eta, guarded_eta, guarded_fold, guarded_if, ite_self, implies_true, State.modSeg_guarded]

theorem State.loseContest_guarded (s : State) (k : Nat) :
    (State.loseContest s k).guarded = s.guarded := by
  delta State.loseContest
  simp only [guarded_mk, steady_mk, steady_eta, closed_mk, closed_eta, guarded_eta, guarded_fold, guarded_if, ite_self, implies_true, State.integrate_guarded, State.modSeg_guarded]

theorem State.haltRing_guarded (s : State) (k : Nat) :
    (State.haltRing s k).guarded = s.guarded := by
  delta State.haltRing
  simp only [guarded_mk, steady_mk, steady_eta, closed_mk, closed_eta, guarded_eta, guarded_fold, guarded_if, ite_self, implies_true, State.modSeg_guarded, State.raise_guarded]

theorem execPortLinkChange_guarded (t port : Nat) (up : Bool) (s : State) (s' : State)
    (hs : execPortLinkChange t port up s = .next s') : s'.guarded = s.guarded := by
  refine does_guarded _ _ _ (fun z => ?_) s' hs
  simp only [guarded_mk, steady_mk, steady_eta, closed_mk, closed_eta, guarded_eta, guarded_fold, guarded_if, ite_self, implies_true, State.lookRing_guarded, State.modSeg_guarded]

theorem execListenEnd_guarded (t seg : Nat) (s : State) (s' : State)
    (hs : execListenEnd t seg s = .next s') : s'.guarded = s.guarded := by
  refine does_guarded _ _ _ (fun z => ?_) s' hs
  (try extract_lets) <;> (repeat' split) <;> (try with_reducible rfl) <;>
    (simp +zetaDelta only [guarded_mk, steady_mk, steady_eta, closed_mk, closed_eta, guarded_eta, guarded_fold, guarded_if, ite_self, implies_true, State.draw_guarded, State.modSeg_guarded]) <;> (repeat' split) <;> (try with_reducible rfl) <;>
    simp +zetaDelta only [guarded_mk, steady_mk, steady_eta, closed_mk, closed_eta, guarded_eta, guarded_fold, guarded_if, ite_self, implies_true, State.draw_guarded, State.modSeg_guarded]

theorem State.contest_guarded (s : State) (k rank nonce code : Nat) :
    (State.contest s k rank nonce code).guarded = s.guarded := by
  delta State.contest
  simp only [guarded_mk, steady_mk, steady_eta, closed_mk, closed_eta, guarded_eta, guarded_fold, guarded_if, ite_self, implies_true, State.beginListen_guarded, State.haltRing_guarded, State.loseContest_guarded, State.raise_guarded]

theorem execCsReceived_guarded (t seg : Nat) (chB : Bool) (frame : List Byte) (s : State) (s' : State)
    (hs : execCsReceived t seg chB frame s = .next s') : s'.guarded = s.guarded := by
  refine does_guarded _ _ _ (fun z => ?_) s' hs
  (try extract_lets) <;> (repeat' split) <;> (try with_reducible rfl) <;>
    (simp +zetaDelta only [guarded_mk, steady_mk, steady_eta, closed_mk, closed_eta, guarded_eta, guarded_fold, guarded_if, ite_self, implies_true, State.contest_guarded, State.integrate_guarded, State.passOn_guarded]) <;> (repeat' split) <;> (try with_reducible rfl) <;>
    simp +zetaDelta only [guarded_mk, steady_mk, steady_eta, closed_mk, closed_eta, guarded_eta, guarded_fold, guarded_if, ite_self, implies_true, State.contest_guarded, State.integrate_guarded, State.passOn_guarded]

theorem execCsPhaseEnd_guarded (t seg : Nat) (s : State) (s' : State)
    (hs : execCsPhaseEnd t seg s = .next s') : s'.guarded = s.guarded := by
  refine does_guarded _ _ _ (fun z => ?_) s' hs
  (try extract_lets) <;> (repeat' split) <;> (try with_reducible rfl) <;>
    (simp +zetaDelta only [guarded_mk, steady_mk, steady_eta, closed_mk, closed_eta, guarded_eta, guarded_fold, guarded_if, ite_self, implies_true, State.modSeg_guarded]) <;> (repeat' split) <;> (try with_reducible rfl) <;>
    simp +zetaDelta only [guarded_mk, steady_mk, steady_eta, closed_mk, closed_eta, guarded_eta, guarded_fold, guarded_if, ite_self, implies_true, State.modSeg_guarded]

theorem State.becomeLeader_guarded (s : State) :
    (State.becomeLeader s).guarded = s.guarded := by
  delta State.becomeLeader
  simp only [guarded_mk, steady_mk, steady_eta, closed_mk, closed_eta, guarded_eta, guarded_fold, guarded_if, ite_self, implies_true]

theorem execScheduleStart_guarded (t seg : Nat) (s : State) (s' : State)
    (hs : execScheduleStart t seg s = .next s') : s'.guarded = s.guarded := by
  refine does_guarded _ _ _ (fun z => ?_) s' hs
  simp only [guarded_mk, steady_mk, steady_eta, closed_mk, closed_eta, guarded_eta, guarded_fold, guarded_if, ite_self, implies_true, State.becomeLeader_guarded, State.modSeg_guarded, State.openRing_guarded]

theorem State.keepDelays_guarded (s : State) (k : Nat) (f : List Byte) :
    (State.keepDelays s k f).guarded = s.guarded := by
  delta State.keepDelays
  simp only [guarded_mk, steady_mk, steady_eta, closed_mk, closed_eta, guarded_eta, guarded_fold, guarded_if, ite_self, implies_true, State.modNode_guarded, State.modSeg_guarded]

theorem State.integrated_guarded (s : State) (k : Nat) :
    (State.integrated s k).guarded = s.guarded := by
  delta State.integrated
  simp only [guarded_mk, steady_mk, steady_eta, closed_mk, closed_eta, guarded_eta, guarded_fold, guarded_if, ite_self, implies_true, State.modSeg_guarded]

theorem State.followMt_guarded (s : State) (diff : Int) :
    (State.followMt s diff).guarded = s.guarded := by
  delta State.followMt
  simp only [guarded_mk, steady_mk, steady_eta, closed_mk, closed_eta, guarded_eta, guarded_fold, guarded_if, ite_self, implies_true, State.stepMt_guarded]

theorem execSyReceived_guarded (t seg : Nat) (chB : Bool) (frame : List Byte) (s : State) (s' : State)
    (hs : execSyReceived t seg chB frame s = .next s') : s'.guarded = s.guarded := by
  refine does_guarded _ _ _ (fun z => ?_) s' hs
  (try extract_lets) <;> (repeat' split) <;> (try with_reducible rfl) <;>
    (simp +zetaDelta only [guarded_mk, steady_mk, steady_eta, closed_mk, closed_eta, guarded_eta, guarded_fold, guarded_if, ite_self, implies_true, State.followMt_guarded, State.haltRing_guarded, State.integrate_guarded, State.integrated_guarded, State.keepDelays_guarded, State.loseContest_guarded, State.modSeg_guarded, State.passOn_guarded]) <;> (repeat' split) <;> (try with_reducible rfl) <;>
    simp +zetaDelta only [guarded_mk, steady_mk, steady_eta, closed_mk, closed_eta, guarded_eta, guarded_fold, guarded_if, ite_self, implies_true, State.followMt_guarded, State.haltRing_guarded, State.integrate_guarded, State.integrated_guarded, State.keepDelays_guarded, State.loseContest_guarded, State.modSeg_guarded, State.passOn_guarded]

theorem execCtReceived_guarded (t seg : Nat) (chB : Bool) (frame : List Byte) (s : State) (s' : State)
    (hs : execCtReceived t seg chB frame s = .next s') : s'.guarded = s.guarded := by
  refine does_guarded _ _ _ (fun z => ?_) s' hs
  (try extract_lets) <;> (repeat' split) <;> (try with_reducible rfl) <;>
    (simp +zetaDelta only [guarded_mk, steady_mk, steady_eta, closed_mk, closed_eta, guarded_eta, guarded_fold, guarded_if, ite_self, implies_true, State.integrate_guarded, State.integrated_guarded, State.loseContest_guarded, State.modSeg_guarded, State.passOn_guarded]) <;> (repeat' split) <;> (try with_reducible rfl) <;>
    simp +zetaDelta only [guarded_mk, steady_mk, steady_eta, closed_mk, closed_eta, guarded_eta, guarded_fold, guarded_if, ite_self, implies_true, State.integrate_guarded, State.integrated_guarded, State.loseContest_guarded, State.modSeg_guarded, State.passOn_guarded]

theorem State.spoilPort_guarded (s : State) (p : Nat) :
    (State.spoilPort s p).guarded = s.guarded := by
  delta State.spoilPort
  simp only [guarded_mk, steady_mk, steady_eta, closed_mk, closed_eta, guarded_eta, guarded_fold, guarded_if, ite_self, implies_true, State.modPort_guarded]

theorem State.capture_guarded (s : State) (e : List Byte) :
    (State.capture s e).guarded = s.guarded := by
  delta State.capture
  simp only [guarded_mk, steady_mk, steady_eta, closed_mk, closed_eta, guarded_eta, guarded_fold, guarded_if, ite_self, implies_true, State.putEntry_guarded, State.putIndex_guarded, State.raiseOnce_guarded, State.ringDrops_guarded]

theorem State.count_guarded (s : State) (p : Nat) (n : Int) :
    (State.count s p n).guarded = s.guarded := by
  delta State.count
  simp only [guarded_mk, steady_mk, steady_eta, closed_mk, closed_eta, guarded_eta, guarded_fold, guarded_if, ite_self, implies_true, State.modPort_guarded, State.raise_guarded]

theorem execQuadratureCount_guarded (t port : Nat) (up : Bool) (s : State) (s' : State)
    (hs : execQuadratureCount t port up s = .next s') : s'.guarded = s.guarded := by
  refine does_guarded _ _ _ (fun z => ?_) s' hs
  simp only [guarded_mk, steady_mk, steady_eta, closed_mk, closed_eta, guarded_eta, guarded_fold, guarded_if, ite_self, implies_true, State.count_guarded]

theorem execIllegalTransition_guarded (t port : Nat) (s : State) (s' : State)
    (hs : execIllegalTransition t port s = .next s') : s'.guarded = s.guarded := by
  refine does_guarded _ _ _ (fun z => ?_) s' hs
  simp only [guarded_mk, steady_mk, steady_eta, closed_mk, closed_eta, guarded_eta, guarded_fold, guarded_if, ite_self, implies_true, State.modPort_guarded, State.raiseOnce_guarded, State.raise_guarded]

theorem execIndexEdge_guarded (t port : Nat) (s : State) (s' : State)
    (hs : execIndexEdge t port s = .next s') : s'.guarded = s.guarded := by
  refine does_guarded _ _ _ (fun z => ?_) s' hs
  simp only [guarded_mk, steady_mk, steady_eta, closed_mk, closed_eta, guarded_eta, guarded_fold, guarded_if, ite_self, implies_true, State.capture_guarded, State.emit_guarded, State.modPort_guarded]

theorem execFbpWire_guarded (t port : Nat) (s : State) (s' : State)
    (hs : execFbpWire t port s = .next s') : s'.guarded = s.guarded := by
  refine does_guarded _ _ _ (fun z => ?_) s' hs
  simp only [guarded_mk, steady_mk, steady_eta, closed_mk, closed_eta, guarded_eta, guarded_fold, guarded_if, ite_self, implies_true, State.modPort_guarded, State.raise_guarded, State.spoilPort_guarded]

theorem State.setAmpl_guarded (s : State) (p : Nat) :
    (State.setAmpl s p).guarded = s.guarded := by
  delta State.setAmpl
  simp only [guarded_mk, steady_mk, steady_eta, closed_mk, closed_eta, guarded_eta, guarded_fold, guarded_if, ite_self, implies_true, State.modPort_guarded, State.raise_guarded, State.spoilPort_guarded]

theorem execFbpAmpl_guarded (t port : Nat) (s : State) (s' : State)
    (hs : execFbpAmpl t port s = .next s') : s'.guarded = s.guarded := by
  refine does_guarded _ _ _ (fun z => ?_) s' hs
  simp only [guarded_mk, steady_mk, steady_eta, closed_mk, closed_eta, guarded_eta, guarded_fold, guarded_if, ite_self, implies_true, State.setAmpl_guarded]

theorem State.setOverspeed_guarded (s : State) (p : Nat) :
    (State.setOverspeed s p).guarded = s.guarded := by
  delta State.setOverspeed
  simp only [guarded_mk, steady_mk, steady_eta, closed_mk, closed_eta, guarded_eta, guarded_fold, guarded_if, ite_self, implies_true, State.modPort_guarded, State.raise_guarded]

theorem execFbpOverspeed_guarded (t port : Nat) (s : State) (s' : State)
    (hs : execFbpOverspeed t port s = .next s') : s'.guarded = s.guarded := by
  refine does_guarded _ _ _ (fun z => ?_) s' hs
  simp only [guarded_mk, steady_mk, steady_eta, closed_mk, closed_eta, guarded_eta, guarded_fold, guarded_if, ite_self, implies_true, State.setOverspeed_guarded]

theorem execSincosSample_guarded (t port : Nat) (sin cos : Int) (s : State) (s' : State)
    (hs : execSincosSample t port sin cos s = .next s') : s'.guarded = s.guarded := by
  refine does_guarded _ _ _ (fun z => ?_) s' hs
  (try extract_lets) <;> (repeat' split) <;> (try with_reducible rfl) <;>
    (simp +zetaDelta only [guarded_mk, steady_mk, steady_eta, closed_mk, closed_eta, guarded_eta, guarded_fold, guarded_if, ite_self, implies_true, State.count_guarded, State.draw_guarded, State.modPort_guarded, State.setAmpl_guarded, State.setOverspeed_guarded]) <;> (repeat' split) <;> (try with_reducible rfl) <;>
    simp +zetaDelta only [guarded_mk, steady_mk, steady_eta, closed_mk, closed_eta, guarded_eta, guarded_fold, guarded_if, ite_self, implies_true, State.count_guarded, State.draw_guarded, State.modPort_guarded, State.setAmpl_guarded, State.setOverspeed_guarded]

theorem execSpeedWindowEnd_guarded (t port : Nat) (s : State) (s' : State)
    (hs : execSpeedWindowEnd t port s = .next s') : s'.guarded = s.guarded := by
  refine does_guarded _ _ _ (fun z => ?_) s' hs
  simp only [guarded_mk, steady_mk, steady_eta, closed_mk, closed_eta, guarded_eta, guarded_fold, guarded_if, ite_self, implies_true, State.modPort_guarded]

theorem execDividedOutputEdge_guarded (t port : Nat) (s : State) (s' : State)
    (hs : execDividedOutputEdge t port s = .next s') : s'.guarded = s.guarded := by
  refine does_guarded _ _ _ (fun z => ?_) s' hs
  simp only [guarded_mk, steady_mk, steady_eta, closed_mk, closed_eta, guarded_eta, guarded_fold, guarded_if, ite_self, implies_true, State.emit_guarded, State.modPort_guarded]

theorem State.supplyOn_guarded (s : State) (p : Nat) :
    (State.supplyOn s p).guarded = s.guarded := by
  delta State.supplyOn
  simp only [guarded_mk, steady_mk, steady_eta, closed_mk, closed_eta, guarded_eta, guarded_fold, guarded_if, ite_self, implies_true, State.draw_guarded, State.emit_guarded, State.modPort_guarded, State.settle_guarded]

theorem State.supplyOff_guarded (s : State) (p : Nat) :
    (State.supplyOff s p).guarded = s.guarded := by
  delta State.supplyOff
  simp only [guarded_mk, steady_mk, steady_eta, closed_mk, closed_eta, guarded_eta, guarded_fold, guarded_if, ite_self, implies_true, State.emit_guarded, State.modPort_guarded, State.spoilPort_guarded]

theorem State.supplyOvl_guarded (s : State) (p : Nat) :
    (State.supplyOvl s p).guarded = s.guarded := by
  delta State.supplyOvl
  simp only [guarded_mk, steady_mk, steady_eta, closed_mk, closed_eta, guarded_eta, guarded_fold, guarded_if, ite_self, implies_true, State.modPort_guarded, State.raise_guarded, State.supplyOff_guarded]

theorem execEncSupplyOvl_guarded (t port : Nat) (s : State) (s' : State)
    (hs : execEncSupplyOvl t port s = .next s') : s'.guarded = s.guarded := by
  refine does_guarded _ _ _ (fun z => ?_) s' hs
  simp only [guarded_mk, steady_mk, steady_eta, closed_mk, closed_eta, guarded_eta, guarded_fold, guarded_if, ite_self, implies_true, State.supplyOvl_guarded]

theorem execEncSupplyTotalOvl_guarded (t : Nat) (s : State) (s' : State)
    (hs : execEncSupplyTotalOvl t s = .next s') : s'.guarded = s.guarded := by
  refine does_guarded _ _ _ (fun z => ?_) s' hs
  split
  · extract_lets again
    split
    · rfl
    · have h := State.supplyOvl_guarded z ‹Nat›
      simp only [State.guarded, Prod.mk.injEq] at h ⊢
      exact ⟨rfl, h.2⟩
  · rfl

theorem execEncSupplyRestart_guarded (t port : Nat) (s : State) (s' : State)
    (hs : execEncSupplyRestart t port s = .next s') : s'.guarded = s.guarded := by
  refine does_guarded _ _ _ (fun z => ?_) s' hs
  simp only [guarded_mk, steady_mk, steady_eta, closed_mk, closed_eta, guarded_eta, guarded_fold, guarded_if, ite_self, implies_true, State.supplyOn_guarded]

theorem execEncSupplySettled_guarded (t port : Nat) (s : State) (s' : State)
    (hs : execEncSupplySettled t port s = .next s') : s'.guarded = s.guarded := by
  refine does_guarded _ _ _ (fun z => ?_) s' hs
  simp only [guarded_mk, steady_mk, steady_eta, closed_mk, closed_eta, guarded_eta, guarded_fold, guarded_if, ite_self, implies_true, State.modPort_guarded, State.settle_guarded]

theorem State.clearPort_guarded (s : State) (p : Nat) (mask : Nat) :
    (State.clearPort s p mask).guarded = s.guarded := by
  delta State.clearPort
  simp only [guarded_mk, steady_mk, steady_eta, closed_mk, closed_eta, guarded_eta, guarded_fold, guarded_if, ite_self, implies_true, State.modPort_guarded, State.setAmpl_guarded]

theorem State.portCapture_guarded (s : State) (p : Nat) :
    (State.portCapture s p).guarded = s.guarded := by
  delta State.portCapture
  simp only [guarded_mk, steady_mk, steady_eta, closed_mk, closed_eta, guarded_eta, guarded_fold, guarded_if, ite_self, implies_true, State.capture_guarded, State.modPort_guarded]

theorem State.pushSample_guarded (s : State) (a mt : Nat) (p : Option Int) :
    (State.pushSample s a mt p).guarded = s.guarded := by
  delta State.pushSample
  simp only [guarded_mk, steady_mk, steady_eta, closed_mk, closed_eta, guarded_eta, guarded_fold, guarded_if, ite_self, implies_true]

theorem execLatchEdge_guarded (t input : Nat) (s : State) (s' : State)
    (hs : execLatchEdge t input s = .next s') : s'.guarded = s.guarded := by
  refine does_guarded _ _ _ (fun z => ?_) s' hs
  simp only [guarded_mk, steady_mk, steady_eta, closed_mk, closed_eta, guarded_eta, guarded_fold, guarded_if, ite_self, implies_true, State.modLatch_guarded]

theorem State.latchPost_guarded (s : State) (input : Nat) :
    (State.latchPost s input).guarded = s.guarded := by
  delta State.latchPost
  (try extract_lets) <;> (repeat' split) <;> (try with_reducible rfl) <;>
    (simp +zetaDelta only [guarded_mk, steady_mk, steady_eta, closed_mk, closed_eta, guarded_eta, guarded_fold, guarded_if, ite_self, implies_true, State.capture_guarded, State.modLatch_guarded]) <;> (repeat' split) <;> (try with_reducible rfl) <;>
    simp +zetaDelta only [guarded_mk, steady_mk, steady_eta, closed_mk, closed_eta, guarded_eta, guarded_fold, guarded_if, ite_self, implies_true, State.capture_guarded, State.modLatch_guarded]

theorem execLatchEntryPost_guarded (t input : Nat) (s : State) (s' : State)
    (hs : execLatchEntryPost t input s = .next s') : s'.guarded = s.guarded := by
  refine does_guarded _ _ _ (fun z => ?_) s' hs
  (try extract_lets) <;> (repeat' split) <;> (try with_reducible rfl) <;>
    (simp +zetaDelta only [guarded_mk, steady_mk, steady_eta, closed_mk, closed_eta, guarded_eta, guarded_fold, guarded_if, ite_self, implies_true, State.latchPost_guarded]) <;> (repeat' split) <;> (try with_reducible rfl) <;>
    simp +zetaDelta only [guarded_mk, steady_mk, steady_eta, closed_mk, closed_eta, guarded_eta, guarded_fold, guarded_if, ite_self, implies_true, State.latchPost_guarded]

theorem State.takeCarry_guarded (s : State) (ch : Nat) :
    (State.takeCarry s ch).guarded = s.guarded := by
  delta State.takeCarry
  simp only [guarded_mk, steady_mk, steady_eta, closed_mk, closed_eta, guarded_eta, guarded_fold, guarded_if, ite_self, implies_true, State.emit_guarded, State.modStep_guarded]

theorem execRateMultiplierCarry_guarded (t ch : Nat) (s : State) (s' : State)
    (hs : execRateMultiplierCarry t ch s = .next s') : s'.guarded = s.guarded := by
  refine does_guarded _ _ _ (fun z => ?_) s' hs
  simp only [guarded_mk, steady_mk, steady_eta, closed_mk, closed_eta, guarded_eta, guarded_fold, guarded_if, ite_self, implies_true, State.takeCarry_guarded]

theorem State.turnDir_guarded (s : State) (ch : Nat) (was : Bool) :
    (State.turnDir s ch was).guarded = s.guarded := by
  delta State.turnDir
  simp only [guarded_mk, steady_mk, steady_eta, closed_mk, closed_eta, guarded_eta, guarded_fold, guarded_if, ite_self, implies_true, State.emit_guarded]

theorem execStepBoundary_guarded (t ch : Nat) (s : State) (s' : State)
    (hs : execStepBoundary t ch s = .next s') : s'.guarded = s.guarded := by
  refine does_guarded _ _ _ (fun z => ?_) s' hs
  simp only [guarded_mk, steady_mk, steady_eta, closed_mk, closed_eta, guarded_eta, guarded_fold, guarded_if, ite_self, implies_true, State.modStep_guarded, State.pushSample_guarded, State.raise_guarded, State.takeCarry_guarded, State.turnDir_guarded]

theorem State.haltCut_guarded (s : State) (ch : Nat) :
    (State.haltCut s ch).guarded = s.guarded := by
  delta State.haltCut
  simp only [guarded_mk, steady_mk, steady_eta, closed_mk, closed_eta, guarded_eta, guarded_fold, guarded_if, ite_self, implies_true, State.modAxis_guarded, State.modStep_guarded, State.raise_guarded, State.takeCarry_guarded]

theorem execPulHalt_guarded (t ch : Nat) (s : State) (s' : State)
    (hs : execPulHalt t ch s = .next s') : s'.guarded = s.guarded := by
  refine does_guarded _ _ _ (fun z => ?_) s' hs
  simp only [guarded_mk, steady_mk, steady_eta, closed_mk, closed_eta, guarded_eta, guarded_fold, guarded_if, ite_self, implies_true, State.haltCut_guarded]

theorem execPulParity_guarded (t ch : Nat) (s : State) (s' : State)
    (hs : execPulParity t ch s = .next s') : s'.guarded = s.guarded := by
  refine does_guarded _ _ _ (fun z => ?_) s' hs
  simp only [guarded_mk, steady_mk, steady_eta, closed_mk, closed_eta, guarded_eta, guarded_fold, guarded_if, ite_self, implies_true, State.draw_guarded, State.fenceAnew_guarded, State.haltCut_guarded, State.modStep_guarded, State.postReady_guarded, State.raise_guarded, State.refence_guarded]

theorem State.clearStep_guarded (s : State) (ch mask : Nat) :
    (State.clearStep s ch mask).guarded = s.guarded := by
  delta State.clearStep
  simp only [guarded_mk, steady_mk, steady_eta, closed_mk, closed_eta, guarded_eta, guarded_fold, guarded_if, ite_self, implies_true, State.modStep_guarded]

theorem execPulEcntLoRead_guarded (t ch : Nat) (s : State) (s' : State)
    (hs : execPulEcntLoRead t ch s = .next s') : s'.guarded = s.guarded := by
  refine does_guarded _ _ _ (fun z => ?_) s' hs
  simp only [guarded_mk, steady_mk, steady_eta, closed_mk, closed_eta, guarded_eta, guarded_fold, guarded_if, ite_self, implies_true, State.emit_guarded, State.modStep_guarded]

theorem fxClearFlags_guarded (mask : Nat) (c : Ctx) (e : Entry) (s : State) :
    (fxClearFlags mask c e s).guarded = s.guarded := by
  delta fxClearFlags
  simp only [guarded_mk, steady_mk, steady_eta, closed_mk, closed_eta, guarded_eta, guarded_fold, guarded_if, ite_self, implies_true, State.clearPort_guarded, State.clearStep_guarded, State.doneOn_guarded, State.modAxis_guarded]

theorem execClearFlags_guarded (t : Nat) (h : DHdr) (mask : Nat) (s : State) (s' : State)
    (hs : execClearFlags t h mask s = .next s') : s'.guarded = s.guarded := by
  refine does_guarded _ _ _ (fun z => ?_) s' hs
  simp only [guarded_mk, steady_mk, steady_eta, closed_mk, closed_eta, guarded_eta, guarded_fold, guarded_if, ite_self, implies_true, State.runDescr_guarded, fxClearFlags_guarded]

theorem execAdcSequenceStart_guarded (t conv : Nat) (s : State) (s' : State)
    (hs : execAdcSequenceStart t conv s = .next s') : s'.guarded = s.guarded := by
  refine does_guarded _ _ _ (fun z => ?_) s' hs
  simp only [guarded_mk, steady_mk, steady_eta, closed_mk, closed_eta, guarded_eta, guarded_fold, guarded_if, ite_self, implies_true, State.modConv_guarded]

theorem State.adcDrop_guarded (s : State) (c : Nat) :
    (State.adcDrop s c).guarded = s.guarded := by
  delta State.adcDrop
  simp only [guarded_mk, steady_mk, steady_eta, closed_mk, closed_eta, guarded_eta, guarded_fold, guarded_if, ite_self, implies_true, State.modConv_guarded, State.raiseOnce_guarded]

theorem State.ringWrite_guarded (s : State) (c word mt : Nat) :
    (State.ringWrite s c word mt).guarded = s.guarded := by
  delta State.ringWrite
  simp only [guarded_mk, steady_mk, steady_eta, closed_mk, closed_eta, guarded_eta, guarded_fold, guarded_if, ite_self, implies_true, State.adcDrop_guarded, State.modConv_guarded, State.raise_guarded]

theorem State.newest_guarded (s : State) (c chan word : Nat) (use : Bool) (code : Int) :
    (State.newest s c chan word use code).guarded = s.guarded := by
  delta State.newest
  simp only [guarded_mk, steady_mk, steady_eta, closed_mk, closed_eta, guarded_eta, guarded_fold, guarded_if, ite_self, implies_true]

theorem State.convert_guarded (s : State) (conv : Nat) (code : Int) :
    (State.convert s conv code).guarded = s.guarded := by
  delta State.convert
  simp only [guarded_mk, steady_mk, steady_eta, closed_mk, closed_eta, guarded_eta, guarded_fold, guarded_if, ite_self, implies_true, State.adcDrop_guarded, State.modConv_guarded, State.newest_guarded, State.post_guarded, State.raise_guarded, State.ringWrite_guarded]

theorem execAdcConversionComplete_guarded (t conv : Nat) (code : Int) (s : State) (s' : State)
    (hs : execAdcConversionComplete t conv code s = .next s') : s'.guarded = s.guarded := by
  refine does_guarded _ _ _ (fun z => ?_) s' hs
  simp only [guarded_mk, steady_mk, steady_eta, closed_mk, closed_eta, guarded_eta, guarded_fold, guarded_if, ite_self, implies_true, State.convert_guarded]

theorem execAdcPopLoRead_guarded (t conv : Nat) (s : State) (s' : State)
    (hs : execAdcPopLoRead t conv s = .next s') : s'.guarded = s.guarded := by
  refine does_guarded _ _ _ (fun z => ?_) s' hs
  (try extract_lets) <;> (repeat' split) <;> (try with_reducible rfl) <;>
    (simp +zetaDelta only [guarded_mk, steady_mk, steady_eta, closed_mk, closed_eta, guarded_eta, guarded_fold, guarded_if, ite_self, implies_true, State.convert_guarded, State.emit_guarded, State.modConv_guarded]) <;> (repeat' split) <;> (try with_reducible rfl) <;>
    simp +zetaDelta only [guarded_mk, steady_mk, steady_eta, closed_mk, closed_eta, guarded_eta, guarded_fold, guarded_if, ite_self, implies_true, State.convert_guarded, State.emit_guarded, State.modConv_guarded]

theorem State.refStart_guarded (s : State) :
    (State.refStart s).guarded = s.guarded := by
  delta State.refStart
  simp only [guarded_mk, steady_mk, steady_eta, closed_mk, closed_eta, guarded_eta, guarded_fold, guarded_if, ite_self, implies_true]

theorem execRefReady_guarded (t : Nat) (s : State) (s' : State)
    (hs : execRefReady t s = .next s') : s'.guarded = s.guarded := by
  refine does_guarded _ _ _ (fun z => ?_) s' hs
  simp only [guarded_mk, steady_mk, steady_eta, closed_mk, closed_eta, guarded_eta, guarded_fold, guarded_if, ite_self, implies_true]

theorem State.modSaf_guarded (s : State) (f : Safety → Safety) (h : (f s.saf).closed = s.saf.closed) : (s.modSaf f).guarded = s.guarded := by
  simp only [State.modSaf, State.guarded, h]

theorem State.modCh_guarded (s : State) (chB : Bool) (f : SafCh → SafCh) : (s.modCh chB f).guarded = s.guarded := by
  unfold State.modCh
  exact State.modSaf_guarded _ _ (by split <;> rfl)

theorem State.safMark_guarded (s : State) (chB : Bool) (kind b20 b21 : Nat) :
    (State.safMark s chB kind b20 b21).guarded = s.guarded := by
  delta State.safMark
  simp only [guarded_mk, steady_mk, steady_eta, closed_mk, closed_eta, guarded_eta, guarded_fold, guarded_if, ite_self, implies_true, State.raise_guarded]

theorem State.safBoth_guarded (s : State) (kind b20 : Nat) :
    (State.safBoth s kind b20).guarded = s.guarded := by
  delta State.safBoth
  simp only [guarded_mk, steady_mk, steady_eta, closed_mk, closed_eta, guarded_eta, guarded_fold, guarded_if, ite_self, implies_true, State.safMark_guarded]

theorem State.setCh_guarded (s : State) (chB : Bool) (st : ChSt) :
    (State.setCh s chB st).guarded = s.guarded := by
  delta State.setCh
  simp only [guarded_mk, steady_mk, steady_eta, closed_mk, closed_eta, guarded_eta, guarded_fold, guarded_if, ite_self, implies_true, State.modCh_guarded, State.safMark_guarded]

theorem State.modOut_closed (s : State) (k : Nat) (f : SafOut → SafOut) (j : Nat) :
    (s.modOut k f).saf.closed j = if j = k then (f (s.safOut k)).on else s.saf.closed j := by
  show (SMap.get {} (SMap.put {} s.saf.outs k _) j).on = _
  rw [SMap.get_put]
  split <;> rfl
theorem State.modOut_guarded (s : State) (k : Nat) (f : SafOut → SafOut) (h : (f (s.safOut k)).on = (s.safOut k).on) :
    (s.modOut k f).guarded = s.guarded := by
  have : (s.modOut k f).saf.closed = s.saf.closed := by
    funext j
    rw [State.modOut_closed]
    split
    · next e => rw [h, e]; rfl
    · rfl
  show (s.pw.steady, s.nv.pages, s.tap, s.tapReset, (s.modOut k f).saf.closed) = _
  rw [this]; rfl

theorem State.modPair_guarded (s : State) (k : Nat) (f : SafPair → SafPair) : (s.modPair k f).guarded = s.guarded := rfl

theorem State.modFn_guarded (s : State) (k : Nat) (f : SafFn → SafFn) : (s.modFn k f).guarded = s.guarded := rfl

theorem State.modConn_guarded (s : State) (k : Nat) (f : SafConn → SafConn) : (s.modConn k f).guarded = s.guarded := rfl

theorem execSafetyInputSample_guarded (t : Nat) (chB : Bool) (levels : Nat) (s : State) (s' : State)
    (hs : execSafetyInputSample t chB levels s = .next s') : s'.guarded = s.guarded := by
  refine does_guarded _ _ _ (fun z => ?_) s' hs
  simp only [guarded_mk, steady_mk, steady_eta, closed_mk, closed_eta, guarded_eta, guarded_fold, guarded_if, ite_self, implies_true, State.modCh_guarded]

theorem execTestPulseEnd_guarded (t : Nat) (chB : Bool) (tp : Nat) (s : State) (s' : State)
    (hs : execTestPulseEnd t chB tp s = .next s') : s'.guarded = s.guarded := by
  refine does_guarded _ _ _ (fun z => ?_) s' hs
  simp only [guarded_mk, steady_mk, steady_eta, closed_mk, closed_eta, guarded_eta, guarded_fold, guarded_if, ite_self, implies_true, State.modCh_guarded, State.modPair_guarded, State.safMark_guarded]

theorem State.releaseUnits_guarded (s : State) :
    (State.releaseUnits s).guarded = s.guarded := by
  delta State.releaseUnits
  simp only [guarded_mk, steady_mk, steady_eta, closed_mk, closed_eta, guarded_eta, guarded_fold, guarded_if, ite_self, implies_true, State.modConn_guarded]

theorem State.connBad_guarded (s : State) (c : Nat) (chB : Bool) :
    (State.connBad s c chB).guarded = s.guarded := by
  delta State.connBad
  simp only [guarded_mk, steady_mk, steady_eta, closed_mk, closed_eta, guarded_eta, guarded_fold, guarded_if, ite_self, implies_true, State.modConn_guarded, State.safMark_guarded]

theorem State.acceptUnit_guarded (s : State) (c : Nat) (b : List Byte) (single : Bool) :
    (State.acceptUnit s c b single).guarded = s.guarded := by
  delta State.acceptUnit
  simp only [guarded_mk, steady_mk, steady_eta, closed_mk, closed_eta, guarded_eta, guarded_fold, guarded_if, ite_self, implies_true, State.modConn_guarded]

theorem State.takeUnit_guarded (s : State) (c : Nat) (chB : Bool) (p : List Byte) :
    (State.takeUnit s c chB p).guarded = s.guarded := by
  delta State.takeUnit
  simp only [guarded_mk, steady_mk, steady_eta, closed_mk, closed_eta, guarded_eta, guarded_fold, guarded_if, ite_self, implies_true, State.acceptUnit_guarded, State.connBad_guarded, State.modConn_guarded]

theorem execSfReceived_guarded (t seg : Nat) (chB : Bool) (start : Nat) (frame : List Byte) (s : State) (s' : State)
    (hs : execSfReceived t seg chB start frame s = .next s') : s'.guarded = s.guarded := by
  refine does_guarded _ _ _ (fun z => ?_) s' hs
  (try extract_lets) <;> (repeat' split) <;> (try with_reducible rfl) <;>
    (simp +zetaDelta only [guarded_mk, steady_mk, steady_eta, closed_mk, closed_eta, guarded_eta, guarded_fold, guarded_if, ite_self, implies_true, State.badCopy_guarded, State.modConn_guarded, State.modNode_guarded, State.passOn_guarded, State.takeUnit_guarded]) <;> (repeat' split) <;> (try with_reducible rfl) <;>
    simp +zetaDelta only [guarded_mk, steady_mk, steady_eta, closed_mk, closed_eta, guarded_eta, guarded_fold, guarded_if, ite_self, implies_true, State.badCopy_guarded, State.modConn_guarded, State.modNode_guarded, State.passOn_guarded, State.takeUnit_guarded]

theorem State.acceptSingle_guarded (s : State) (c : Nat) :
    (State.acceptSingle s c).guarded = s.guarded := by
  delta State.acceptSingle
  simp only [guarded_mk, steady_mk, steady_eta, closed_mk, closed_eta, guarded_eta, guarded_fold, guarded_if, ite_self, implies_true, State.acceptUnit_guarded]

theorem State.connSnapshot_guarded (s : State) (c : Nat) :
    (State.connSnapshot s c).guarded = s.guarded := by
  delta State.connSnapshot
  (try extract_lets) <;> (repeat' split) <;> (try with_reducible rfl) <;>
    (simp +zetaDelta only [guarded_mk, steady_mk, steady_eta, closed_mk, closed_eta, guarded_eta, guarded_fold, guarded_if, ite_self, implies_true, State.acceptSingle_guarded, State.modConn_guarded, State.safBoth_guarded]) <;> (repeat' split) <;> (try with_reducible rfl) <;>
    simp +zetaDelta only [guarded_mk, steady_mk, steady_eta, closed_mk, closed_eta, guarded_eta, guarded_fold, guarded_if, ite_self, implies_true, State.acceptSingle_guarded, State.modConn_guarded, State.safBoth_guarded]

theorem State.seeAck_guarded (s : State) : s.seeAck.guarded = s.guarded := by
  unfold State.seeAck
  split
  · exact State.modSaf_guarded _ _ rfl
  · split
    · exact State.modSaf_guarded _ _ rfl
    · exact State.modSaf_guarded _ _ rfl

theorem State.startFns_guarded (s : State) :
    (State.startFns s).guarded = s.guarded := by
  delta State.startFns
  (repeat' first | (refine (guarded_fold _ (fun s x => ?_) _ _).trans ?_) | (extract_lets; done) | split) <;>
    (try with_reducible rfl) <;> (simp +zetaDelta only [guarded_mk, steady_mk, steady_eta, closed_mk, closed_eta, guarded_eta, guarded_fold, guarded_if, ite_self, implies_true, State.modFn_guarded, State.modPair_guarded]) <;> (repeat' split) <;>
    (try with_reducible rfl) <;> simp +zetaDelta only [guarded_mk, steady_mk, steady_eta, closed_mk, closed_eta, guarded_eta, guarded_fold, guarded_if, ite_self, implies_true, State.modFn_guarded, State.modPair_guarded]

theorem State.leaveLockout_guarded (s : State) :
    (State.leaveLockout s).guarded = s.guarded := by
  delta State.leaveLockout
  simp only [guarded_mk, steady_mk, steady_eta, closed_mk, closed_eta, guarded_eta, guarded_fold, guarded_if, ite_self, implies_true, State.setCh_guarded, State.startFns_guarded]

theorem State.tickSent_guarded (s : State) : s.tickSent.guarded = s.guarded := State.modSaf_guarded _ _ rfl

theorem State.startPulse_guarded (s : State) (tp : Nat) :
    (State.startPulse s tp).guarded = s.guarded := by
  delta State.startPulse
  simp only [guarded_mk, steady_mk, steady_eta, closed_mk, closed_eta, guarded_eta, guarded_fold, guarded_if, ite_self, implies_true, State.emit_guarded, State.modCh_guarded]

theorem State.evalMark_guarded (s : State) (src kind b20 : Nat) : (s.evalMark src kind b20).guarded = s.guarded := rfl

theorem State.pairFault_guarded (s : State) (p : Nat) :
    (State.pairFault s p).guarded = s.guarded := by
  delta State.pairFault
  simp only [guarded_mk, steady_mk, steady_eta, closed_mk, closed_eta, guarded_eta, guarded_fold, guarded_if, ite_self, implies_true, State.modPair_guarded]

theorem State.evalPair_guarded (s : State) (p : Nat) :
    (State.evalPair s p).guarded = s.guarded := by
  delta State.evalPair
  simp only [guarded_mk, steady_mk, steady_eta, closed_mk, closed_eta, guarded_eta, guarded_fold, guarded_if, ite_self, implies_true, State.evalMark_guarded, State.modPair_guarded, State.pairFault_guarded]

theorem State.fnDemand_guarded (s : State) (f : Nat) :
    (State.fnDemand s f).guarded = s.guarded := by
  delta State.fnDemand
  simp only [guarded_mk, steady_mk, steady_eta, closed_mk, closed_eta, guarded_eta, guarded_fold, guarded_if, ite_self, implies_true, State.evalMark_guarded, State.modFn_guarded]

theorem State.fnDelay_guarded (s : State) (f : Nat) : (s.fnDelay f).guarded = s.guarded := by
  delta State.fnDelay
  extract_lets s1 s2
  have h2 : s2.guarded = s.guarded :=
    (guarded_fold _ (fun s k => State.evalMark_guarded s (srcSeg k) 0xCC 0) _ _).trans (State.modFn_guarded s f _)
  clear_value s2
  split
  · rw [State.fnDemand_guarded, h2]
  · exact h2

theorem State.evalFn_guarded (s : State) (f : Nat) :
    (State.evalFn s f).guarded = s.guarded := by
  delta State.evalFn
  (try extract_lets) <;> (repeat' split) <;> (try with_reducible rfl) <;>
    (simp +zetaDelta only [guarded_mk, steady_mk, steady_eta, closed_mk, closed_eta, guarded_eta, guarded_fold, guarded_if, ite_self, implies_true, State.fnDelay_guarded, State.fnDemand_guarded, State.modFn_guarded]) <;> (repeat' split) <;> (try with_reducible rfl) <;>
    simp +zetaDelta only [guarded_mk, steady_mk, steady_eta, closed_mk, closed_eta, guarded_eta, guarded_fold, guarded_if, ite_self, implies_true, State.fnDelay_guarded, State.fnDemand_guarded, State.modFn_guarded]

theorem execSafDiscrepancy_guarded (t pair : Nat) (s : State) (s' : State)
    (hs : execSafDiscrepancy t pair s = .next s') : s'.guarded = s.guarded := by
  refine does_guarded _ _ _ (fun z => ?_) s' hs
  (try extract_lets) <;> (repeat' split) <;> (try with_reducible rfl) <;>
    (simp +zetaDelta only [guarded_mk, steady_mk, steady_eta, closed_mk, closed_eta, guarded_eta, guarded_fold, guarded_if, ite_self, implies_true, State.pairFault_guarded, State.safBoth_guarded]) <;> (repeat' split) <;> (try with_reducible rfl) <;>
    simp +zetaDelta only [guarded_mk, steady_mk, steady_eta, closed_mk, closed_eta, guarded_eta, guarded_fold, guarded_if, ite_self, implies_true, State.pairFault_guarded, State.safBoth_guarded]

theorem execStop1DelayExpiry_guarded (t fn : Nat) (s : State) (s' : State)
    (hs : execStop1DelayExpiry t fn s = .next s') : s'.guarded = s.guarded := by
  refine does_guarded _ _ _ (fun z => ?_) s' hs
  simp only [guarded_mk, steady_mk, steady_eta, closed_mk, closed_eta, guarded_eta, guarded_fold, guarded_if, ite_self, implies_true, State.modFn_guarded, State.modOut_guarded, State.safBoth_guarded]

theorem execSafConnLost_guarded (t conn : Nat) (s : State) (s' : State)
    (hs : execSafConnLost t conn s = .next s') : s'.guarded = s.guarded := by
  refine does_guarded _ _ _ (fun z => ?_) s' hs
  simp only [guarded_mk, steady_mk, steady_eta, closed_mk, closed_eta, guarded_eta, guarded_fold, guarded_if, ite_self, implies_true, State.modConn_guarded, State.safBoth_guarded]

theorem execSingleTimeExpiry_guarded (t conn : Nat) (s : State) (s' : State)
    (hs : execSingleTimeExpiry t conn s = .next s') : s'.guarded = s.guarded := by
  refine does_guarded _ _ _ (fun z => ?_) s' hs
  simp only [guarded_mk, steady_mk, steady_eta, closed_mk, closed_eta, guarded_eta, guarded_fold, guarded_if, ite_self, implies_true, State.modConn_guarded]

theorem State.rejectSps_guarded (s : State) (e : Entry) (status off : Nat) :
    (State.rejectSps s e status off).guarded = s.guarded := by
  delta State.rejectSps
  simp only [guarded_mk, steady_mk, steady_eta, closed_mk, closed_eta, guarded_eta, guarded_fold, guarded_if, ite_self, implies_true, State.finish_guarded]

theorem fxSafetyLoad_guarded (data : List Byte) (c : Ctx) (e : Entry) (s : State) : (fxSafetyLoad data c e s).guarded = s.guarded := by
  unfold fxSafetyLoad
  split
  · exact State.reject_guarded ..
  · split
    · exact State.rejectSps_guarded ..
    · exact State.rejectSps_guarded ..
    · rw [State.finish_guarded, State.safMark_guarded, State.safMark_guarded, State.setCh_guarded, State.setCh_guarded]
      exact (guarded_fold _ (fun s k => State.modOut_guarded s k _ rfl) _ _).trans (State.modSaf_guarded _ _ rfl)

theorem execSafetyLoad_guarded (t : Nat) (h : DHdr) (data : List Byte) (s : State) (s' : State)
    (hs : execSafetyLoad t h data s = .next s') : s'.guarded = s.guarded := by
  refine does_guarded _ _ _ (fun z => ?_) s' hs
  simp only [guarded_mk, steady_mk, steady_eta, closed_mk, closed_eta, guarded_eta, guarded_fold, guarded_if, ite_self, implies_true, State.runDescr_guarded, fxSafetyLoad_guarded]

theorem State.slotCt_guarded (s : State) (k e : Nat) :
    (State.slotCt s k e).guarded = s.guarded := by
  delta State.slotCt
  (try extract_lets) <;> (repeat' split) <;> (try with_reducible rfl) <;>
    (simp +zetaDelta only [guarded_mk, steady_mk, steady_eta, closed_mk, closed_eta, guarded_eta, guarded_fold, guarded_if, ite_self, implies_true, State.integrated_guarded, State.modSeg_guarded, State.sendCopyAt_guarded, State.sendFrame_guarded]) <;> (repeat' split) <;> (try with_reducible rfl) <;>
    simp +zetaDelta only [guarded_mk, steady_mk, steady_eta, closed_mk, closed_eta, guarded_eta, guarded_fold, guarded_if, ite_self, implies_true, State.integrated_guarded, State.modSeg_guarded, State.sendCopyAt_guarded, State.sendFrame_guarded]

theorem State.slotSy_guarded (s : State) (k e : Nat) :
    (State.slotSy s k e).guarded = s.guarded := by
  delta State.slotSy
  simp only [guarded_mk, steady_mk, steady_eta, closed_mk, closed_eta, guarded_eta, guarded_fold, guarded_if, ite_self, implies_true, State.modSeg_guarded, State.raise_guarded, State.rampNode_guarded, State.sendFrame_guarded]

theorem State.slotSf_guarded (s : State) (k e : Nat) :
    (State.slotSf s k e).guarded = s.guarded := by
  delta State.slotSf
  (try extract_lets) <;> (repeat' split) <;> (try with_reducible rfl) <;>
    (simp +zetaDelta only [guarded_mk, steady_mk, steady_eta, closed_mk, closed_eta, guarded_eta, guarded_fold, guarded_if, ite_self, implies_true, State.sendCopyAt_guarded]) <;> (repeat' split) <;> (try with_reducible rfl) <;>
    simp +zetaDelta only [guarded_mk, steady_mk, steady_eta, closed_mk, closed_eta, guarded_eta, guarded_fold, guarded_if, ite_self, implies_true, State.sendCopyAt_guarded]

theorem State.ask_guarded (s : State) (k e fn target : Nat) (data : List Byte) :
    (State.ask s k e fn target data).guarded = s.guarded := by
  delta State.ask
  simp only [guarded_mk, steady_mk, steady_eta, closed_mk, closed_eta, guarded_eta, guarded_fold, guarded_if, ite_self, implies_true, State.modSeg_guarded, State.sendFrame_guarded]

theorem State.sendOwed_guarded (s : State) (k e : Nat) (x : Acyclic) : (s.sendOwed k e x).guarded = s.guarded := by
  cases x <;> simp only [State.sendOwed, State.ask_guarded, State.sendFrame_guarded, State.modSeg_guarded, State.publish_guarded, State.modNode_guarded]

theorem State.sendRequest_guarded (s : State) (k e : Nat) (r : MgReq) :
    (State.sendRequest s k e r).guarded = s.guarded := by
  delta State.sendRequest
  simp only [guarded_mk, steady_mk, steady_eta, closed_mk, closed_eta, guarded_eta, guarded_fold, guarded_if, ite_self, implies_true, State.modSeg_guarded, State.sendFrame_guarded]

theorem State.slotMg_guarded (s : State) (k e : Nat) :
    (State.slotMg s k e).guarded = s.guarded := by
  delta State.slotMg
  (try extract_lets) <;> (repeat' split) <;> (try with_reducible rfl) <;>
    (simp +zetaDelta only [guarded_mk, steady_mk, steady_eta, closed_mk, closed_eta, guarded_eta, guarded_fold, guarded_if, ite_self, implies_true, State.ask_guarded, State.modNode_guarded, State.modSeg_guarded, State.sendOwed_guarded, State.sendRequest_guarded]) <;> (repeat' split) <;> (try with_reducible rfl) <;>
    simp +zetaDelta only [guarded_mk, steady_mk, steady_eta, closed_mk, closed_eta, guarded_eta, guarded_fold, guarded_if, ite_self, implies_true, State.ask_guarded, State.modNode_guarded, State.modSeg_guarded, State.sendOwed_guarded, State.sendRequest_guarded]

theorem execSlotTransmit_guarded (t seg entry : Nat) (s : State) (s' : State)
    (hs : execSlotTransmit t seg entry s = .next s') : s'.guarded = s.guarded := by
  refine does_guarded _ _ _ (fun z => ?_) s' hs
  (try extract_lets) <;> (repeat' split) <;> (try with_reducible rfl) <;>
    (simp +zetaDelta only [guarded_mk, steady_mk, steady_eta, closed_mk, closed_eta, guarded_eta, guarded_fold, guarded_if, ite_self, implies_true, State.modSeg_guarded, State.slotCt_guarded, State.slotMg_guarded, State.slotSf_guarded, State.slotSy_guarded]) <;> (repeat' split) <;> (try with_reducible rfl) <;>
    simp +zetaDelta only [guarded_mk, steady_mk, steady_eta, closed_mk, closed_eta, guarded_eta, guarded_fold, guarded_if, ite_self, implies_true, State.modSeg_guarded, State.slotCt_guarded, State.slotMg_guarded, State.slotSf_guarded, State.slotSy_guarded]

theorem State.modNv_guarded (s : State) (f : Nv → Nv) (h : (f s.nv).pages = s.nv.pages) : (s.modNv f).guarded = s.guarded := by
  simp only [State.modNv, State.guarded, h]

theorem State.nvNext_guarded (n : Nat) (s : State) : (State.nvNext n s).guarded = s.guarded := by
  induction n generalizing s with
  | zero => rfl
  | succ n ih =>
    unfold State.nvNext
    split
    · rfl
    · split
      · exact State.modNv_guarded _ _ rfl
      · cases hw : s.nv.waiting with
        | nil => rfl
        | cons j r =>
          dsimp only
          rw [guarded_if]
          split
          · rw [ih]
            cases j <;> simp only [State.finish_guarded, State.modNv_guarded]
          · exact (State.modNv_guarded _ _ rfl).trans (State.modNv_guarded _ _ rfl)

theorem State.nvQueue_guarded (s : State) (j : NvJob) :
    (State.nvQueue s j).guarded = s.guarded := by
  delta State.nvQueue
  simp only [guarded_mk, steady_mk, steady_eta, closed_mk, closed_eta, guarded_eta, guarded_fold, guarded_if, ite_self, implies_true, State.modNv_guarded, State.nvNext_guarded]

theorem State.nvFree_guarded (s : State) :
    (State.nvFree s).guarded = s.guarded := by
  delta State.nvFree
  simp only [guarded_mk, steady_mk, steady_eta, closed_mk, closed_eta, guarded_eta, guarded_fold, guarded_if, ite_self, implies_true, State.modNv_guarded, State.nvNext_guarded]

theorem State.nvGoOn_guarded (s : State) (j : NvJob) :
    (State.nvGoOn s j).guarded = s.guarded := by
  delta State.nvGoOn
  simp only [guarded_mk, steady_mk, steady_eta, closed_mk, closed_eta, guarded_eta, guarded_fold, guarded_if, ite_self, implies_true, State.modNv_guarded, State.nvFree_guarded]

theorem State.nvFail_guarded (s : State) : s.nvFail.guarded = s.guarded := by
  unfold State.nvFail
  rw [State.postReady_guarded]
  refine (guarded_fold _ (fun s j => ?_) _ _).trans (State.modNv_guarded _ _ rfl)
  split <;> simp only [State.finish_guarded]

theorem fxNvWrite_guarded (addr buf len : Nat) (data : List Byte) (c : Ctx) (e : Entry) (s : State) :
    (fxNvWrite addr buf len data c e s).guarded = s.guarded := by
  delta fxNvWrite
  first
  | (simp only [guarded_mk, steady_mk, steady_eta, closed_mk, closed_eta, guarded_eta, guarded_fold, guarded_if, ite_self, implies_true, State.finish_guarded, State.nvQueue_guarded, State.rejectAt_guarded, State.reject_guarded]; done)
  | ((try extract_lets) <;> (repeat' split) <;> (try with_reducible rfl) <;>
    (simp +zetaDelta only [guarded_mk, steady_mk, steady_eta, closed_mk, closed_eta, guarded_eta, guarded_fold, guarded_if, ite_self, implies_true, State.finish_guarded, State.nvQueue_guarded, State.rejectAt_guarded, State.reject_guarded]) <;> (repeat' split) <;> (try with_reducible rfl) <;>
    simp +zetaDelta only [guarded_mk, steady_mk, steady_eta, closed_mk, closed_eta, guarded_eta, guarded_fold, guarded_if, ite_self, implies_true, State.finish_guarded, State.nvQueue_guarded, State.rejectAt_guarded, State.reject_guarded]; done)
  | ((repeat' first | (refine (guarded_fold _ (fun s x => ?_) _ _).trans ?_) | (extract_lets; done) | split) <;>
    (try with_reducible rfl) <;> (simp +zetaDelta only [guarded_mk, steady_mk, steady_eta, closed_mk, closed_eta, guarded_eta, guarded_fold, guarded_if, ite_self, implies_true, State.finish_guarded, State.nvQueue_guarded, State.rejectAt_guarded, State.reject_guarded]) <;> (repeat' split) <;>
    (try with_reducible rfl) <;> simp +zetaDelta only [guarded_mk, steady_mk, steady_eta, closed_mk, closed_eta, guarded_eta, guarded_fold, guarded_if, ite_self, implies_true, State.finish_guarded, State.nvQueue_guarded, State.rejectAt_guarded, State.reject_guarded]; done)

theorem fxNvRead_guarded (addr buf len : Nat) (u1 : Ctx) (e : Entry) (s : State) :
    (fxNvRead addr buf len u1 e s).guarded = s.guarded := by
  delta fxNvRead
  first
  | (simp only [guarded_mk, steady_mk, steady_eta, closed_mk, closed_eta, guarded_eta, guarded_fold, guarded_if, ite_self, implies_true, State.finish_guarded, State.nvQueue_guarded, State.rejectAt_guarded, State.reject_guarded]; done)
  | ((try extract_lets) <;> (repeat' split) <;> (try with_reducible rfl) <;>
    (simp +zetaDelta only [guarded_mk, steady_mk, steady_eta, closed_mk, closed_eta, guarded_eta, guarded_fold, guarded_if, ite_self, implies_true, State.finish_guarded, State.nvQueue_guarded, State.rejectAt_guarded, State.reject_guarded]) <;> (repeat' split) <;> (try with_reducible rfl) <;>
    simp +zetaDelta only [guarded_mk, steady_mk, steady_eta, closed_mk, closed_eta, guarded_eta, guarded_fold, guarded_if, ite_self, implies_true, State.finish_guarded, State.nvQueue_guarded, State.rejectAt_guarded, State.reject_guarded]; done)
  | ((repeat' first | (refine (guarded_fold _ (fun s x => ?_) _ _).trans ?_) | (extract_lets; done) | split) <;>
    (try with_reducible rfl) <;> (simp +zetaDelta only [guarded_mk, steady_mk, steady_eta, closed_mk, closed_eta, guarded_eta, guarded_fold, guarded_if, ite_self, implies_true, State.finish_guarded, State.nvQueue_guarded, State.rejectAt_guarded, State.reject_guarded]) <;> (repeat' split) <;>
    (try with_reducible rfl) <;> simp +zetaDelta only [guarded_mk, steady_mk, steady_eta, closed_mk, closed_eta, guarded_eta, guarded_fold, guarded_if, ite_self, implies_true, State.finish_guarded, State.nvQueue_guarded, State.rejectAt_guarded, State.reject_guarded]; done)

theorem execNvWrite_guarded (t : Nat) (h : DHdr) (addr buf len : Nat) (data : List Byte) (s : State) (s' : State)
    (hs : execNvWrite t h addr buf len data s = .next s') : s'.guarded = s.guarded := by
  refine does_guarded _ _ _ (fun z => ?_) s' hs
  simp only [guarded_mk, steady_mk, steady_eta, closed_mk, closed_eta, guarded_eta, guarded_fold, guarded_if, ite_self, implies_true, State.runDescr_guarded, fxNvWrite_guarded]

theorem execNvRead_guarded (t : Nat) (h : DHdr) (addr buf len : Nat) (s : State) (s' : State)
    (hs : execNvRead t h addr buf len s = .next s') : s'.guarded = s.guarded := by
  refine does_guarded _ _ _ (fun z => ?_) s' hs
  simp only [guarded_mk, steady_mk, steady_eta, closed_mk, closed_eta, guarded_eta, guarded_fold, guarded_if, ite_self, implies_true, State.runDescr_guarded, fxNvRead_guarded]

theorem fxSafetyConfirm_guarded (check : Nat) (c : Ctx) (e : Entry) (s : State) : (fxSafetyConfirm check c e s).guarded = s.guarded := by
  unfold fxSafetyConfirm
  split
  · exact State.reject_guarded ..
  · split
    · split
      · rw [State.finish_guarded]; exact State.modSaf_guarded _ _ rfl
      · exact State.reject_guarded ..
    · (repeat' split) <;> simp only [State.reject_guarded, State.finish_guarded, State.nvQueue_guarded]

theorem execSafetyConfirm_guarded (t : Nat) (h : DHdr) (check : Nat) (s : State) (s' : State)
    (hs : execSafetyConfirm t h check s = .next s') : s'.guarded = s.guarded := by
  refine does_guarded _ _ _ (fun z => ?_) s' hs
  simp only [guarded_mk, steady_mk, steady_eta, closed_mk, closed_eta, guarded_eta, guarded_fold, guarded_if, ite_self, implies_true, State.runDescr_guarded, fxSafetyConfirm_guarded]

theorem State.confirmSps_guarded (s : State) (check : Nat) : (s.confirmSps check).guarded = s.guarded := by
  unfold State.confirmSps
  split
  · rw [State.safMark_guarded, State.safMark_guarded]; exact State.modSaf_guarded _ _ rfl
  · rfl

theorem execSafetyChannelPowerUp_guarded (t : Nat) (chB : Bool) (s : State) (s' : State)
    (hs : execSafetyChannelPowerUp t chB s = .next s') : s'.guarded = s.guarded := by
  refine does_guarded _ _ _ (fun z => ?_) s' hs
  generalize (if chB = true then Rail.vsb else Rail.vsa) = r
  split
  · rfl
  · extract_lets s1 d p s2
    have h2 : s2.guarded = z.guarded := by
      refine Eq.trans ?_ (State.modCh_guarded z chB fun c => { linkDown := c.linkDown, powered := true })
      simp only [s2, p, guarded_mk, steady_dom, guarded_eta, s1]
    clear_value s2
    generalize (if s2.nvFenced = true then none else s2.nv.spsStored) = o
    cases o with
    | some x =>
      refine (State.modSaf_guarded _ _ ?_).trans h2
      split <;> rfl
    | none => rw [State.safMark_guarded, h2]

theorem execNvPageReadDone_guarded (t : Nat) (s : State) (s' : State)
    (hs : execNvPageReadDone t s = .next s') : s'.guarded = s.guarded := by
  refine does_guarded _ _ _ (fun z => ?_) s' hs
  first
  | (simp only [guarded_mk, steady_mk, steady_eta, closed_mk, closed_eta, guarded_eta, guarded_fold, guarded_if, ite_self, implies_true, State.emitHost_guarded, State.finish_guarded, State.modAxis_guarded, State.nvFree_guarded, State.nvGoOn_guarded, State.postReady_guarded]; done)
  | ((try extract_lets) <;> (repeat' split) <;> (try with_reducible rfl) <;>
    (simp +zetaDelta only [guarded_mk, steady_mk, steady_eta, closed_mk, closed_eta, guarded_eta, guarded_fold, guarded_if, ite_self, implies_true, State.emitHost_guarded, State.finish_guarded, State.modAxis_guarded, State.nvFree_guarded, State.nvGoOn_guarded, State.postReady_guarded]) <;> (repeat' split) <;> (try with_reducible rfl) <;>
    simp +zetaDelta only [guarded_mk, steady_mk, steady_eta, closed_mk, closed_eta, guarded_eta, guarded_fold, guarded_if, ite_self, implies_true, State.emitHost_guarded, State.finish_guarded, State.modAxis_guarded, State.nvFree_guarded, State.nvGoOn_guarded, State.postReady_guarded]; done)
  | ((repeat' first | (refine (guarded_fold _ (fun s x => ?_) _ _).trans ?_) | (extract_lets; done) | split) <;>
    (try with_reducible rfl) <;> (simp +zetaDelta only [guarded_mk, steady_mk, steady_eta, closed_mk, closed_eta, guarded_eta, guarded_fold, guarded_if, ite_self, implies_true, State.emitHost_guarded, State.finish_guarded, State.modAxis_guarded, State.nvFree_guarded, State.nvGoOn_guarded, State.postReady_guarded]) <;> (repeat' split) <;>
    (try with_reducible rfl) <;> simp +zetaDelta only [guarded_mk, steady_mk, steady_eta, closed_mk, closed_eta, guarded_eta, guarded_fold, guarded_if, ite_self, implies_true, State.emitHost_guarded, State.finish_guarded, State.modAxis_guarded, State.nvFree_guarded, State.nvGoOn_guarded, State.postReady_guarded]; done)

theorem execNvTimeout_guarded (t : Nat) (s : State) (s' : State)
    (hs : execNvTimeout t s = .next s') : s'.guarded = s.guarded := by
  refine does_guarded _ _ _ (fun z => ?_) s' hs
  first
  | (simp only [guarded_mk, steady_mk, steady_eta, closed_mk, closed_eta, guarded_eta, guarded_fold, guarded_if, ite_self, implies_true, State.finish_guarded, State.modNv_guarded, State.nvFree_guarded, State.postReady_guarded, State.raise_guarded]; done)
  | ((try extract_lets) <;> (repeat' split) <;> (try with_reducible rfl) <;>
    (simp +zetaDelta only [guarded_mk, steady_mk, steady_eta, closed_mk, closed_eta, guarded_eta, guarded_fold, guarded_if, ite_self, implies_true, State.finish_guarded, State.modNv_guarded, State.nvFree_guarded, State.postReady_guarded, State.raise_guarded]) <;> (repeat' split) <;> (try with_reducible rfl) <;>
    simp +zetaDelta only [guarded_mk, steady_mk, steady_eta, closed_mk, closed_eta, guarded_eta, guarded_fold, guarded_if, ite_self, implies_true, State.finish_guarded, State.modNv_guarded, State.nvFree_guarded, State.postReady_guarded, State.raise_guarded]; done)
  | ((repeat' first | (refine (guarded_fold _ (fun s x => ?_) _ _).trans ?_) | (extract_lets; done) | split) <;>
    (try with_reducible rfl) <;> (simp +zetaDelta only [guarded_mk, steady_mk, steady_eta, closed_mk, closed_eta, guarded_eta, guarded_fold, guarded_if, ite_self, implies_true, State.finish_guarded, State.modNv_guarded, State.nvFree_guarded, State.postReady_guarded, State.raise_guarded]) <;> (repeat' split) <;>
    (try with_reducible rfl) <;> simp +zetaDelta only [guarded_mk, steady_mk, steady_eta, closed_mk, closed_eta, guarded_eta, guarded_fold, guarded_if, ite_self, implies_true, State.finish_guarded, State.modNv_guarded, State.nvFree_guarded, State.postReady_guarded, State.raise_guarded]; done)

theorem execLedgerPersistence_guarded (t : Nat) (s : State) (s' : State)
    (hs : execLedgerPersistence t s = .next s') : s'.guarded = s.guarded := by
  refine does_guarded _ _ _ (fun z => ?_) s' hs
  simp only [guarded_mk, steady_mk, steady_eta, closed_mk, closed_eta, guarded_eta, guarded_fold, guarded_if, ite_self, implies_true, State.newest_guarded, State.nvQueue_guarded]

theorem fxDevMode_guarded (code : Nat) (u1 : Ctx) (e : Entry) (s : State) :
    (fxDevMode code u1 e s).guarded = s.guarded := by
  delta fxDevMode
  simp only [guarded_mk, steady_mk, steady_eta, closed_mk, closed_eta, guarded_eta, guarded_fold, guarded_if, ite_self, implies_true, State.reject_guarded, State.safeHold_guarded]

theorem fxMode_guarded (code : Nat) (c : Ctx) (e : Entry) (s : State) :
    (fxMode code c e s).guarded = s.guarded := by
  delta fxMode
  simp only [guarded_mk, steady_mk, steady_eta, closed_mk, closed_eta, guarded_eta, guarded_fold, guarded_if, ite_self, implies_true, fxAxisMode_guarded, fxDevMode_guarded]

theorem execMode_guarded (t : Nat) (h : DHdr) (code : Nat) (s : State) (s' : State)
    (hs : execMode t h code s = .next s') : s'.guarded = s.guarded := by
  refine does_guarded _ _ _ (fun z => ?_) s' hs
  simp only [guarded_mk, steady_mk, steady_eta, closed_mk, closed_eta, guarded_eta, guarded_fold, guarded_if, ite_self, implies_true, State.runDescr_guarded, fxMode_guarded]

theorem State.haltSeg_guarded (s : State) (k : Nat) :
    (State.haltSeg s k).guarded = s.guarded := by
  delta State.haltSeg
  simp only [guarded_mk, steady_mk, steady_eta, closed_mk, closed_eta, guarded_eta, guarded_fold, guarded_if, ite_self, implies_true, State.finish_guarded, State.modSeg_guarded]

theorem State.quietAxis_guarded (s : State) (a : Nat) :
    (State.quietAxis s a).guarded = s.guarded := by
  delta State.quietAxis
  simp only [guarded_mk, steady_mk, steady_eta, closed_mk, closed_eta, guarded_eta, guarded_fold, guarded_if, ite_self, implies_true, State.endIdent_guarded, State.finishAll_guarded, State.finish_guarded, State.modAxis_guarded]

theorem State.quietGroup_guarded (s : State) (g : Nat) (ig : IGroup) :
    (State.quietGroup s g ig).guarded = s.guarded := by
  delta State.quietGroup
  simp only [guarded_mk, steady_mk, steady_eta, closed_mk, closed_eta, guarded_eta, guarded_fold, guarded_if, ite_self, implies_true, State.endPath_guarded]

theorem State.quietPool_guarded (s : State) :
    (State.quietPool s).guarded = s.guarded := by
  delta State.quietPool
  simp only [guarded_mk, steady_mk, steady_eta, closed_mk, closed_eta, guarded_eta, guarded_fold, guarded_if, ite_self, implies_true, State.endRun_guarded, State.modHammer_guarded, State.modPool_guarded]

theorem State.leavePair_guarded (s : State) :
    (State.leavePair s).guarded = s.guarded := by
  delta State.leavePair
  simp only [guarded_mk, steady_mk, steady_eta, closed_mk, closed_eta, guarded_eta, guarded_fold, guarded_if, ite_self, implies_true]

theorem State.quiesce_guarded (s : State) :
    (State.quiesce s).guarded = s.guarded := by
  delta State.quiesce
  simp only [guarded_mk, steady_mk, steady_eta, closed_mk, closed_eta, guarded_eta, guarded_fold, guarded_if, ite_self, implies_true, State.haltSeg_guarded, State.leavePair_guarded, State.postReady_guarded, State.quietAxis_guarded, State.quietGroup_guarded, State.quietPool_guarded]

theorem State.startSegs_guarded (s : State) :
    (State.startSegs s).guarded = s.guarded := by
  delta State.startSegs
  simp only [guarded_mk, steady_mk, steady_eta, closed_mk, closed_eta, guarded_eta, guarded_fold, guarded_if, ite_self, implies_true, State.beginListen_guarded]

theorem State.openAll_guarded (s : State) :
    (State.openAll s).guarded = s.guarded := by
  delta State.openAll
  simp only [guarded_mk, steady_mk, steady_eta, closed_mk, closed_eta, guarded_eta, guarded_fold, guarded_if, ite_self, implies_true, State.modAxis_guarded]

theorem State.enter_guarded (s : State) (goal : DevMode) :
    (State.enter s goal).guarded = s.guarded := by
  delta State.enter
  first
  | (simp only [guarded_mk, steady_mk, steady_eta, closed_mk, closed_eta, guarded_eta, guarded_fold, guarded_if, ite_self, implies_true, State.disarmAll_guarded, State.openAll_guarded, State.quiesce_guarded, State.setMode_guarded, State.startSegs_guarded]; done)
  | ((try extract_lets) <;> (repeat' split) <;> (try with_reducible rfl) <;>
    (simp +zetaDelta only [guarded_mk, steady_mk, steady_eta, closed_mk, closed_eta, guarded_eta, guarded_fold, guarded_if, ite_self, implies_true, State.disarmAll_guarded, State.openAll_guarded, State.quiesce_guarded, State.setMode_guarded, State.startSegs_guarded]) <;> (repeat' split) <;> (try with_reducible rfl) <;>
    simp +zetaDelta only [guarded_mk, steady_mk, steady_eta, closed_mk, closed_eta, guarded_eta, guarded_fold, guarded_if, ite_self, implies_true, State.disarmAll_guarded, State.openAll_guarded, State.quiesce_guarded, State.setMode_guarded, State.startSegs_guarded]; done)
  | ((repeat' first | (refine (guarded_fold _ (fun s x => ?_) _ _).trans ?_) | (extract_lets; done) | split) <;>
    (try with_reducible rfl) <;> (simp +zetaDelta only [guarded_mk, steady_mk, steady_eta, closed_mk, closed_eta, guarded_eta, guarded_fold, guarded_if, ite_self, implies_true, State.disarmAll_guarded, State.openAll_guarded, State.quiesce_guarded, State.setMode_guarded, State.startSegs_guarded]) <;> (repeat' split) <;>
    (try with_reducible rfl) <;> simp +zetaDelta only [guarded_mk, steady_mk, steady_eta, closed_mk, closed_eta, guarded_eta, guarded_fold, guarded_if, ite_self, implies_true, State.disarmAll_guarded, State.openAll_guarded, State.quiesce_guarded, State.setMode_guarded, State.startSegs_guarded]; done)

theorem State.enterFollowed_guarded (s : State) (goal : DevMode) :
    (State.enterFollowed s goal).guarded = s.guarded := by
  delta State.enterFollowed
  simp only [guarded_mk, steady_mk, steady_eta, closed_mk, closed_eta, guarded_eta, guarded_fold, guarded_if, ite_self, implies_true, State.enter_guarded, State.openAll_guarded]

theorem State.takeMode_guarded (s : State) (x : DevMode × DevMode × Nat) :
    (State.takeMode s x).guarded = s.guarded := by
  delta State.takeMode
  simp only [guarded_mk, steady_mk, steady_eta, closed_mk, closed_eta, guarded_eta, guarded_fold, guarded_if, ite_self, implies_true, State.enterFollowed_guarded, State.enter_guarded, State.finish_guarded, State.modEntry_guarded]

theorem State.degradeMode_guarded (s : State) :
    (State.degradeMode s).guarded = s.guarded := by
  delta State.degradeMode
  simp only [guarded_mk, steady_mk, steady_eta, closed_mk, closed_eta, guarded_eta, guarded_fold, guarded_if, ite_self, implies_true, State.enter_guarded, State.setMode_guarded]

theorem State.modeBoundary_guarded (s : State) (k : Nat) :
    (State.modeBoundary s k).guarded = s.guarded := by
  delta State.modeBoundary
  simp only [guarded_mk, steady_mk, steady_eta, closed_mk, closed_eta, guarded_eta, guarded_fold, guarded_if, ite_self, implies_true, State.degradeMode_guarded, State.takeMode_guarded]

theorem State.lockedWrite_guarded (s : State) (off v b : Nat) :
    (State.lockedWrite s off v b).guarded = s.guarded := by
  delta State.lockedWrite
  simp only [guarded_mk, steady_mk, steady_eta, closed_mk, closed_eta, guarded_eta, guarded_fold, guarded_if, ite_self, implies_true, State.raise_guarded]

theorem State.setStage_guarded (s : State) (off v : Nat) :
    (State.setStage s off v).guarded = s.guarded := by
  delta State.setStage
  simp only [guarded_mk, steady_mk, steady_eta, closed_mk, closed_eta, guarded_eta, guarded_fold, guarded_if, ite_self, implies_true]

theorem State.takeBlocks_guarded (s : State) (bs : List Nat) :
    (State.takeBlocks s bs).guarded = s.guarded := by
  delta State.takeBlocks
  simp only [guarded_mk, steady_mk, steady_eta, closed_mk, closed_eta, guarded_eta, guarded_fold, guarded_if, ite_self, implies_true, State.applyOffs_guarded]

theorem State.setReason_guarded (s : State) (b c : Nat) :
    (State.setReason s b c).guarded = s.guarded := by
  delta State.setReason
  simp only [guarded_mk, steady_mk, steady_eta, closed_mk, closed_eta, guarded_eta, guarded_fold, guarded_if, ite_self, implies_true]

theorem State.setGlb_guarded (s : State) (reason sub block : Nat) :
    (State.setGlb s reason sub block).guarded = s.guarded := by
  delta State.setGlb
  simp only [guarded_mk, steady_mk, steady_eta, closed_mk, closed_eta, guarded_eta, guarded_fold, guarded_if, ite_self, implies_true]

theorem State.discard_guarded (s : State) :
    (State.discard s).guarded = s.guarded := by
  delta State.discard
  simp only [guarded_mk, steady_mk, steady_eta, closed_mk, closed_eta, guarded_eta, guarded_fold, guarded_if, ite_self, implies_true]

theorem State.setWrite_guarded (s : State) (off v : Nat) :
    (State.setWrite s off v).guarded = s.guarded := by
  delta State.setWrite
  simp only [guarded_mk, steady_mk, steady_eta, closed_mk, closed_eta, guarded_eta, guarded_fold, guarded_if, ite_self, implies_true, State.lockedWrite_guarded, State.setForce_guarded, State.setStage_guarded]

theorem State.candidate_guarded (s : State) (bs : List Nat) :
    (State.candidate s bs).guarded = s.guarded := by
  delta State.candidate
  simp only [guarded_mk, steady_mk, steady_eta, closed_mk, closed_eta, guarded_eta, guarded_fold, guarded_if, ite_self, implies_true, State.asCommitted_guarded, State.takeBlocks_guarded]

theorem State.netDone_guarded (old s : State) (k : Nat) (h_s : s.guarded = old.guarded) :
    (State.netDone old s k).guarded = old.guarded := by
  delta State.netDone
  simp only [guarded_mk, steady_mk, steady_eta, closed_mk, closed_eta, guarded_eta, guarded_fold, guarded_if, ite_self, implies_true, h_s, State.liveOff_guarded, State.modPool_guarded, State.modSeg_guarded, State.unfence_guarded]

theorem State.fbpDone_guarded (old s : State) (p : Nat) (h_s : s.guarded = old.guarded) :
    (State.fbpDone old s p).guarded = old.guarded := by
  delta State.fbpDone
  simp only [guarded_mk, steady_mk, steady_eta, closed_mk, closed_eta, guarded_eta, guarded_fold, guarded_if, ite_self, implies_true, h_s, State.capture_guarded, State.modPort_guarded, State.supplyOff_guarded, State.supplyOn_guarded]

theorem State.pulDone_guarded (old s : State) (c : Nat) (h_s : s.guarded = old.guarded) :
    (State.pulDone old s c).guarded = old.guarded := by
  delta State.pulDone
  simp only [guarded_mk, steady_mk, steady_eta, closed_mk, closed_eta, guarded_eta, guarded_fold, guarded_if, ite_self, implies_true, h_s, State.modStep_guarded]

theorem State.adcDone_guarded (old s : State) (c : Nat) (h_s : s.guarded = old.guarded) :
    (State.adcDone old s c).guarded = old.guarded := by
  delta State.adcDone
  simp only [guarded_mk, steady_mk, steady_eta, closed_mk, closed_eta, guarded_eta, guarded_fold, guarded_if, ite_self, implies_true, h_s, State.modConv_guarded, State.refStart_guarded]

theorem State.timDone_guarded (s : State) :
    (State.timDone s).guarded = s.guarded := by
  delta State.timDone
  simp only [guarded_mk, steady_mk, steady_eta, closed_mk, closed_eta, guarded_eta, guarded_fold, guarded_if, ite_self, implies_true, State.domEnable_guarded, State.dropDomain_guarded]

theorem State.blockDone_guarded (old s : State) (b : Nat) (h_s : s.guarded = old.guarded) :
    (State.blockDone old s b).guarded = old.guarded := by
  delta State.blockDone
  simp only [guarded_mk, steady_mk, steady_eta, closed_mk, closed_eta, guarded_eta, guarded_fold, guarded_if, ite_self, implies_true, h_s, State.adcDone_guarded, State.fbpDone_guarded, State.netDone_guarded, State.pulDone_guarded, State.setReason_guarded, State.timDone_guarded]

theorem State.blockFailed_guarded (s : State) (b c : Nat) :
    (State.blockFailed s b c).guarded = s.guarded := by
  delta State.blockFailed
  simp only [guarded_mk, steady_mk, steady_eta, closed_mk, closed_eta, guarded_eta, guarded_fold, guarded_if, ite_self, implies_true, State.modSeg_guarded, State.setReason_guarded]

theorem State.commitSet_guarded (s : State) (bs : List Nat) (glb : Nat → Nat → Nat × Nat) (shown : Nat) :
    (s.commitSet bs glb shown).guarded = s.guarded := by
  have fold : ∀ (o : State) (l : List Nat) (x : State), x.guarded = o.guarded → (l.foldl (fun x b => o.blockDone x b) x).guarded = o.guarded := by
    intro o l
    induction l with
    | nil => intro x h; exact h
    | cons b r ih => intro x h; rw [List.foldl_cons]; exact ih _ (State.blockDone_guarded o x b h)
  have go : ∀ s : State, State.guarded (match firstFailure s (s.candidate bs) bs with
      | none => (bs.foldl (fun x b => s.blockDone x b) (s.candidate bs)).setGlb 0 0 shown
      | some (b, r, none) => (s.blockFailed b r).setGlb (glb b r).1 (glb b r).2 b
      | some (b, r, some d) => (s.blockFailed b r).setGlb 0xF d.2 d.1) = s.guarded := by
    intro s
    split
    · rw [State.setGlb_guarded]; exact fold s bs (s.candidate bs) (State.candidate_guarded s bs)
    · rw [State.setGlb_guarded, State.blockFailed_guarded]
    · rw [State.setGlb_guarded, State.blockFailed_guarded]
  refine (go _).trans ?_
  split
  · exact guarded_tw _ _
  · rfl

theorem State.commitGo_guarded (s : State) (b off : Nat) :
    (State.commitGo s b off).guarded = s.guarded := by
  delta State.commitGo
  simp only [guarded_mk, steady_mk, steady_eta, closed_mk, closed_eta, guarded_eta, guarded_fold, guarded_if, ite_self, implies_true, State.commitSet_guarded, State.lockedWrite_guarded]

theorem State.glbGo_guarded (s : State) :
    (State.glbGo s).guarded = s.guarded := by
  delta State.glbGo
  simp only [guarded_mk, steady_mk, steady_eta, closed_mk, closed_eta, guarded_eta, guarded_fold, guarded_if, ite_self, implies_true, State.commitSet_guarded, State.lockedWrite_guarded]

theorem State.glbAll_guarded (s : State) :
    (State.glbAll s).guarded = s.guarded := by
  delta State.glbAll
  first
  | (simp only [guarded_mk, steady_mk, steady_eta, closed_mk, closed_eta, guarded_eta, guarded_fold, guarded_if, ite_self, implies_true, State.commitSet_guarded, State.setGlb_guarded]; done)
  | ((try extract_lets) <;> (repeat' split) <;> (try with_reducible rfl) <;>
    (simp +zetaDelta only [guarded_mk, steady_mk, steady_eta, closed_mk, closed_eta, guarded_eta, guarded_fold, guarded_if, ite_self, implies_true, State.commitSet_guarded, State.setGlb_guarded]) <;> (repeat' split) <;> (try with_reducible rfl) <;>
    simp +zetaDelta only [guarded_mk, steady_mk, steady_eta, closed_mk, closed_eta, guarded_eta, guarded_fold, guarded_if, ite_self, implies_true, State.commitSet_guarded, State.setGlb_guarded]; done)
  | ((repeat' first | (refine (guarded_fold _ (fun s x => ?_) _ _).trans ?_) | (extract_lets; done) | split) <;>
    (try with_reducible rfl) <;> (simp +zetaDelta only [guarded_mk, steady_mk, steady_eta, closed_mk, closed_eta, guarded_eta, guarded_fold, guarded_if, ite_self, implies_true, State.commitSet_guarded, State.setGlb_guarded]) <;> (repeat' split) <;>
    (try with_reducible rfl) <;> simp +zetaDelta only [guarded_mk, steady_mk, steady_eta, closed_mk, closed_eta, guarded_eta, guarded_fold, guarded_if, ite_self, implies_true, State.commitSet_guarded, State.setGlb_guarded]; done)

theorem State.twnWrite_guarded (s : State) (v : Nat) :
    (State.twnWrite s v).guarded = s.guarded := by
  delta State.twnWrite
  first
  | (simp only [guarded_mk, steady_mk, steady_eta, closed_mk, closed_eta, guarded_eta, guarded_fold, guarded_if, ite_self, implies_true, State.dropDomain_guarded, State.leavePair_guarded, State.lockedWrite_guarded, State.raise_guarded, State.setForce_guarded]; done)
  | ((try extract_lets) <;> (repeat' split) <;> (try with_reducible rfl) <;>
    (simp +zetaDelta only [guarded_mk, steady_mk, steady_eta, closed_mk, closed_eta, guarded_eta, guarded_fold, guarded_if, ite_self, implies_true, State.dropDomain_guarded, State.leavePair_guarded, State.lockedWrite_guarded, State.raise_guarded, State.setForce_guarded]) <;> (repeat' split) <;> (try with_reducible rfl) <;>
    simp +zetaDelta only [guarded_mk, steady_mk, steady_eta, closed_mk, closed_eta, guarded_eta, guarded_fold, guarded_if, ite_self, implies_true, State.dropDomain_guarded, State.leavePair_guarded, State.lockedWrite_guarded, State.raise_guarded, State.setForce_guarded]; done)
  | ((repeat' first | (refine (guarded_fold _ (fun s x => ?_) _ _).trans ?_) | (extract_lets; done) | split) <;>
    (try with_reducible rfl) <;> (simp +zetaDelta only [guarded_mk, steady_mk, steady_eta, closed_mk, closed_eta, guarded_eta, guarded_fold, guarded_if, ite_self, implies_true, State.dropDomain_guarded, State.leavePair_guarded, State.lockedWrite_guarded, State.raise_guarded, State.setForce_guarded]) <;> (repeat' split) <;>
    (try with_reducible rfl) <;> simp +zetaDelta only [guarded_mk, steady_mk, steady_eta, closed_mk, closed_eta, guarded_eta, guarded_fold, guarded_if, ite_self, implies_true, State.dropDomain_guarded, State.leavePair_guarded, State.lockedWrite_guarded, State.raise_guarded, State.setForce_guarded]; done)

theorem State.twnRepair_guarded (s : State) :
    (State.twnRepair s).guarded = s.guarded := by
  delta State.twnRepair
  simp only [guarded_mk, steady_mk, steady_eta, closed_mk, closed_eta, guarded_eta, guarded_fold, guarded_if, ite_self, implies_true]

theorem State.ringCtl_guarded (s : State) (r v : Nat) :
    (State.ringCtl s r v).guarded = s.guarded := by
  delta State.ringCtl
  simp only [guarded_mk, steady_mk, steady_eta, closed_mk, closed_eta, guarded_eta, guarded_fold, guarded_if, ite_self, implies_true, State.ringDisable_guarded, State.ringEnable_guarded]

theorem State.stickyWrite_guarded (s : State) (off v : Nat) :
    (State.stickyWrite s off v).guarded = s.guarded := by
  delta State.stickyWrite
  simp only [guarded_mk, steady_mk, steady_eta, closed_mk, closed_eta, guarded_eta, guarded_fold, guarded_if, ite_self, implies_true, State.clearPort_guarded, State.clearStep_guarded, State.modConv_guarded, State.modNode_guarded, State.modSrc_guarded]

theorem State.pulseWrite_guarded (s : State) (off v : Nat) :
    (State.pulseWrite s off v).guarded = s.guarded := by
  delta State.pulseWrite
  first
  | (simp only [guarded_mk, steady_mk, steady_eta, closed_mk, closed_eta, guarded_eta, guarded_fold, guarded_if, ite_self, implies_true, State.commitGo_guarded, State.discard_guarded, State.glbAll_guarded, State.glbGo_guarded, State.ringCtl_guarded, State.twnRepair_guarded]; done)
  | ((try extract_lets) <;> (repeat' split) <;> (try with_reducible rfl) <;>
    (simp +zetaDelta only [guarded_mk, steady_mk, steady_eta, closed_mk, closed_eta, guarded_eta, guarded_fold, guarded_if, ite_self, implies_true, State.commitGo_guarded, State.discard_guarded, State.glbAll_guarded, State.glbGo_guarded, State.ringCtl_guarded, State.twnRepair_guarded]) <;> (repeat' split) <;> (try with_reducible rfl) <;>
    simp +zetaDelta only [guarded_mk, steady_mk, steady_eta, closed_mk, closed_eta, guarded_eta, guarded_fold, guarded_if, ite_self, implies_true, State.commitGo_guarded, State.discard_guarded, State.glbAll_guarded, State.glbGo_guarded, State.ringCtl_guarded, State.twnRepair_guarded]; done)
  | ((repeat' first | (refine (guarded_fold _ (fun s x => ?_) _ _).trans ?_) | (extract_lets; done) | split) <;>
    (try with_reducible rfl) <;> (simp +zetaDelta only [guarded_mk, steady_mk, steady_eta, closed_mk, closed_eta, guarded_eta, guarded_fold, guarded_if, ite_self, implies_true, State.commitGo_guarded, State.discard_guarded, State.glbAll_guarded, State.glbGo_guarded, State.ringCtl_guarded, State.twnRepair_guarded]) <;> (repeat' split) <;>
    (try with_reducible rfl) <;> simp +zetaDelta only [guarded_mk, steady_mk, steady_eta, closed_mk, closed_eta, guarded_eta, guarded_fold, guarded_if, ite_self, implies_true, State.commitGo_guarded, State.discard_guarded, State.glbAll_guarded, State.glbGo_guarded, State.ringCtl_guarded, State.twnRepair_guarded]; done)

theorem State.regWrite_guarded (s : State) (off v : Nat) :
    (State.regWrite s off v).guarded = s.guarded := by
  delta State.regWrite
  simp only [guarded_mk, steady_mk, steady_eta, closed_mk, closed_eta, guarded_eta, guarded_fold, guarded_if, ite_self, implies_true, State.pulseWrite_guarded, State.setWrite_guarded, State.stickyWrite_guarded, State.twnWrite_guarded]

theorem State.windowWrite_guarded (s : State) (off v : Nat) :
    (State.windowWrite s off v).guarded = s.guarded := by
  delta State.windowWrite
  simp only [guarded_mk, steady_mk, steady_eta, closed_mk, closed_eta, guarded_eta, guarded_fold, guarded_if, ite_self, implies_true, State.disarm_guarded]

theorem State.windowWord_guarded (s : State) (off : Nat) : (s.windowWord off).2.guarded = s.guarded := by
  unfold State.windowWord; split <;> rfl

theorem State.windowMark_guarded (s : State) (off kind syn bit axis flips : Nat) :
    (State.windowMark s off kind syn bit axis flips).guarded = s.guarded := by
  delta State.windowMark
  simp only [guarded_mk, steady_mk, steady_eta, closed_mk, closed_eta, guarded_eta, guarded_fold, guarded_if, ite_self, implies_true, State.raise_guarded]

theorem State.windowFix_guarded (s : State) (off v : Nat) :
    (State.windowFix s off v).guarded = s.guarded := by
  delta State.windowFix
  simp only [guarded_mk, steady_mk, steady_eta, closed_mk, closed_eta, guarded_eta, guarded_fold, guarded_if, ite_self, implies_true]

theorem State.windowRead_guarded (s : State) (off ecc syn bit axis : Nat) :
    (State.windowRead s off ecc syn bit axis).guarded = s.guarded := by
  delta State.windowRead
  simp only [guarded_mk, steady_mk, steady_eta, closed_mk, closed_eta, guarded_eta, guarded_fold, guarded_if, ite_self, implies_true, State.emit_guarded, State.windowFix_guarded, State.windowMark_guarded, State.windowWord_guarded]

theorem execNetSegCommit_guarded (t seg : Nat) (s : State) (s' : State)
    (hs : execNetSegCommit t seg s = .next s') : s'.guarded = s.guarded := by
  refine does_guarded _ _ _ (fun z => ?_) s' hs
  simp only [guarded_mk, steady_mk, steady_eta, closed_mk, closed_eta, guarded_eta, guarded_fold, guarded_if, ite_self, implies_true, State.regWrite_guarded]

theorem execFbpCommit_guarded (t port : Nat) (s : State) (s' : State)
    (hs : execFbpCommit t port s = .next s') : s'.guarded = s.guarded := by
  refine does_guarded _ _ _ (fun z => ?_) s' hs
  simp only [guarded_mk, steady_mk, steady_eta, closed_mk, closed_eta, guarded_eta, guarded_fold, guarded_if, ite_self, implies_true, State.regWrite_guarded]

theorem execPulCommit_guarded (t ch : Nat) (s : State) (s' : State)
    (hs : execPulCommit t ch s = .next s') : s'.guarded = s.guarded := by
  refine does_guarded _ _ _ (fun z => ?_) s' hs
  simp only [guarded_mk, steady_mk, steady_eta, closed_mk, closed_eta, guarded_eta, guarded_fold, guarded_if, ite_self, implies_true, State.regWrite_guarded]

theorem execAdcCommit_guarded (t conv : Nat) (s : State) (s' : State)
    (hs : execAdcCommit t conv s = .next s') : s'.guarded = s.guarded := by
  refine does_guarded _ _ _ (fun z => ?_) s' hs
  simp only [guarded_mk, steady_mk, steady_eta, closed_mk, closed_eta, guarded_eta, guarded_fold, guarded_if, ite_self, implies_true, State.regWrite_guarded]

theorem execHstCommit_guarded (t : Nat) (s : State) (s' : State)
    (hs : execHstCommit t s = .next s') : s'.guarded = s.guarded := by
  refine does_guarded _ _ _ (fun z => ?_) s' hs
  simp only [guarded_mk, steady_mk, steady_eta, closed_mk, closed_eta, guarded_eta, guarded_fold, guarded_if, ite_self, implies_true, State.regWrite_guarded]

theorem execAsyCommit_guarded (t : Nat) (s : State) (s' : State)
    (hs : execAsyCommit t s = .next s') : s'.guarded = s.guarded := by
  refine does_guarded _ _ _ (fun z => ?_) s' hs
  simp only [guarded_mk, steady_mk, steady_eta, closed_mk, closed_eta, guarded_eta, guarded_fold, guarded_if, ite_self, implies_true, State.regWrite_guarded]

theorem execGlbCommitGo_guarded (t : Nat) (s : State) (s' : State)
    (hs : execGlbCommitGo t s = .next s') : s'.guarded = s.guarded := by
  refine does_guarded _ _ _ (fun z => ?_) s' hs
  simp only [guarded_mk, steady_mk, steady_eta, closed_mk, closed_eta, guarded_eta, guarded_fold, guarded_if, ite_self, implies_true, State.regWrite_guarded]

theorem execGlbCommitAll_guarded (t : Nat) (s : State) (s' : State)
    (hs : execGlbCommitAll t s = .next s') : s'.guarded = s.guarded := by
  refine does_guarded _ _ _ (fun z => ?_) s' hs
  simp only [guarded_mk, steady_mk, steady_eta, closed_mk, closed_eta, guarded_eta, guarded_fold, guarded_if, ite_self, implies_true, State.regWrite_guarded]

theorem execGlbCommitDiscard_guarded (t : Nat) (s : State) (s' : State)
    (hs : execGlbCommitDiscard t s = .next s') : s'.guarded = s.guarded := by
  refine does_guarded _ _ _ (fun z => ?_) s' hs
  simp only [guarded_mk, steady_mk, steady_eta, closed_mk, closed_eta, guarded_eta, guarded_fold, guarded_if, ite_self, implies_true, State.regWrite_guarded]

theorem execTwnEnable_guarded (t : Nat) (rankBall : Bool) (s : State) (s' : State)
    (hs : execTwnEnable t rankBall s = .next s') : s'.guarded = s.guarded := by
  refine does_guarded _ _ _ (fun z => ?_) s' hs
  simp only [guarded_mk, steady_mk, steady_eta, closed_mk, closed_eta, guarded_eta, guarded_fold, guarded_if, ite_self, implies_true, State.regWrite_guarded]

theorem execTwnRepair_guarded (t : Nat) (s : State) (s' : State)
    (hs : execTwnRepair t s = .next s') : s'.guarded = s.guarded := by
  refine does_guarded _ _ _ (fun z => ?_) s' hs
  simp only [guarded_mk, steady_mk, steady_eta, closed_mk, closed_eta, guarded_eta, guarded_fold, guarded_if, ite_self, implies_true, State.regWrite_guarded]

theorem execDebugWindowRead_guarded (t off ecc syndrome bit axis : Nat) (s : State) (s' : State)
    (hs : execDebugWindowRead t off ecc syndrome bit axis s = .next s') : s'.guarded = s.guarded := by
  refine does_guarded _ _ _ (fun z => ?_) s' hs
  simp only [guarded_mk, steady_mk, steady_eta, closed_mk, closed_eta, guarded_eta, guarded_fold, guarded_if, ite_self, implies_true, State.windowRead_guarded]

theorem execDebugWindowWrite_guarded (t off : Nat) (v : Word) (s : State) (s' : State)
    (hs : execDebugWindowWrite t off v s = .next s') : s'.guarded = s.guarded := by
  refine does_guarded _ _ _ (fun z => ?_) s' hs
  simp only [guarded_mk, steady_mk, steady_eta, closed_mk, closed_eta, guarded_eta, guarded_fold, guarded_if, ite_self, implies_true, State.windowWrite_guarded]

theorem execRegisterWrite_guarded (t off : Nat) (v : Word) (s : State) (s' : State)
    (hs : execRegisterWrite t off v s = .next s') : s'.guarded = s.guarded := by
  refine does_guarded _ _ _ (fun z => ?_) s' hs
  simp only [guarded_mk, steady_mk, steady_eta, closed_mk, closed_eta, guarded_eta, guarded_fold, guarded_if, ite_self, implies_true, State.regWrite_guarded, State.windowWrite_guarded]

theorem execUnsupportedRequest_guarded (t : Nat) (isRead : Bool) (off : Nat) (s : State) (s' : State)
    (hs : execUnsupportedRequest t isRead off s = .next s') : s'.guarded = s.guarded := by
  refine does_guarded _ _ _ (fun z => ?_) s' hs
  simp only [guarded_mk, steady_mk, steady_eta, closed_mk, closed_eta, guarded_eta, guarded_fold, guarded_if, ite_self, implies_true, State.emit_guarded]

theorem applyOp_guarded (c : Ctx) (e : Entry) (s : State) :
    (applyOp c e s).guarded = s.guarded := by
  delta applyOp
  first
  | (simp only [guarded_mk, steady_mk, steady_eta, closed_mk, closed_eta, guarded_eta, guarded_fold, guarded_if, ite_self, implies_true, State.couple_guarded, State.fence_guarded, State.unfence_guarded, fxAxisCfg_guarded, fxCamDisengage_guarded, fxCamEngage_guarded, fxCamLoad_guarded, fxClearFlags_guarded, fxClearLedger_guarded, fxCouple_guarded, fxFence_guarded, fxFilter_guarded, fxFollow_guarded, fxGear_guarded, fxGroupMove_guarded, fxIdent_guarded, fxInject_guarded, fxJog_guarded, fxLearn_guarded, fxLimits_guarded, fxLoadset_guarded, fxMode_guarded, fxMoveAbs_guarded, fxMoveRel_guarded, fxNodeReq_guarded, fxNop_guarded, fxNvRead_guarded, fxNvWrite_guarded, fxPhaseIn_guarded, fxResample_guarded, fxSafetyConfirm_guarded, fxSafetyLoad_guarded, fxSetc_guarded, fxStop_guarded, fxSwapset_guarded, fxTerrace_guarded, fxTimeSelect_guarded, fxTimeStep_guarded, fxTrace_guarded, fxUnfence_guarded, fxUnmute_guarded]; done)
  | ((try extract_lets) <;> (repeat' split) <;> (try with_reducible rfl) <;>
    (simp +zetaDelta only [guarded_mk, steady_mk, steady_eta, closed_mk, closed_eta, guarded_eta, guarded_fold, guarded_if, ite_self, implies_true, State.couple_guarded, State.fence_guarded, State.unfence_guarded, fxAxisCfg_guarded, fxCamDisengage_guarded, fxCamEngage_guarded, fxCamLoad_guarded, fxClearFlags_guarded, fxClearLedger_guarded, fxCouple_guarded, fxFence_guarded, fxFilter_guarded, fxFollow_guarded, fxGear_guarded, fxGroupMove_guarded, fxIdent_guarded, fxInject_guarded, fxJog_guarded, fxLearn_guarded, fxLimits_guarded, fxLoadset_guarded, fxMode_guarded, fxMoveAbs_guarded, fxMoveRel_guarded, fxNodeReq_guarded, fxNop_guarded, fxNvRead_guarded, fxNvWrite_guarded, fxPhaseIn_guarded, fxResample_guarded, fxSafetyConfirm_guarded, fxSafetyLoad_guarded, fxSetc_guarded, fxStop_guarded, fxSwapset_guarded, fxTerrace_guarded, fxTimeSelect_guarded, fxTimeStep_guarded, fxTrace_guarded, fxUnfence_guarded, fxUnmute_guarded]) <;> (repeat' split) <;> (try with_reducible rfl) <;>
    simp +zetaDelta only [guarded_mk, steady_mk, steady_eta, closed_mk, closed_eta, guarded_eta, guarded_fold, guarded_if, ite_self, implies_true, State.couple_guarded, State.fence_guarded, State.unfence_guarded, fxAxisCfg_guarded, fxCamDisengage_guarded, fxCamEngage_guarded, fxCamLoad_guarded, fxClearFlags_guarded, fxClearLedger_guarded, fxCouple_guarded, fxFence_guarded, fxFilter_guarded, fxFollow_guarded, fxGear_guarded, fxGroupMove_guarded, fxIdent_guarded, fxInject_guarded, fxJog_guarded, fxLearn_guarded, fxLimits_guarded, fxLoadset_guarded, fxMode_guarded, fxMoveAbs_guarded, fxMoveRel_guarded, fxNodeReq_guarded, fxNop_guarded, fxNvRead_guarded, fxNvWrite_guarded, fxPhaseIn_guarded, fxResample_guarded, fxSafetyConfirm_guarded, fxSafetyLoad_guarded, fxSetc_guarded, fxStop_guarded, fxSwapset_guarded, fxTerrace_guarded, fxTimeSelect_guarded, fxTimeStep_guarded, fxTrace_guarded, fxUnfence_guarded, fxUnmute_guarded]; done)
  | ((repeat' first | (refine (guarded_fold _ (fun s x => ?_) _ _).trans ?_) | (extract_lets; done) | split) <;>
    (try with_reducible rfl) <;> (simp +zetaDelta only [guarded_mk, steady_mk, steady_eta, closed_mk, closed_eta, guarded_eta, guarded_fold, guarded_if, ite_self, implies_true, State.couple_guarded, State.fence_guarded, State.unfence_guarded, fxAxisCfg_guarded, fxCamDisengage_guarded, fxCamEngage_guarded, fxCamLoad_guarded, fxClearFlags_guarded, fxClearLedger_guarded, fxCouple_guarded, fxFence_guarded, fxFilter_guarded, fxFollow_guarded, fxGear_guarded, fxGroupMove_guarded, fxIdent_guarded, fxInject_guarded, fxJog_guarded, fxLearn_guarded, fxLimits_guarded, fxLoadset_guarded, fxMode_guarded, fxMoveAbs_guarded, fxMoveRel_guarded, fxNodeReq_guarded, fxNop_guarded, fxNvRead_guarded, fxNvWrite_guarded, fxPhaseIn_guarded, fxResample_guarded, fxSafetyConfirm_guarded, fxSafetyLoad_guarded, fxSetc_guarded, fxStop_guarded, fxSwapset_guarded, fxTerrace_guarded, fxTimeSelect_guarded, fxTimeStep_guarded, fxTrace_guarded, fxUnfence_guarded, fxUnmute_guarded]) <;> (repeat' split) <;>
    (try with_reducible rfl) <;> simp +zetaDelta only [guarded_mk, steady_mk, steady_eta, closed_mk, closed_eta, guarded_eta, guarded_fold, guarded_if, ite_self, implies_true, State.couple_guarded, State.fence_guarded, State.unfence_guarded, fxAxisCfg_guarded, fxCamDisengage_guarded, fxCamEngage_guarded, fxCamLoad_guarded, fxClearFlags_guarded, fxClearLedger_guarded, fxCouple_guarded, fxFence_guarded, fxFilter_guarded, fxFollow_guarded, fxGear_guarded, fxGroupMove_guarded, fxIdent_guarded, fxInject_guarded, fxJog_guarded, fxLearn_guarded, fxLimits_guarded, fxLoadset_guarded, fxMode_guarded, fxMoveAbs_guarded, fxMoveRel_guarded, fxNodeReq_guarded, fxNop_guarded, fxNvRead_guarded, fxNvWrite_guarded, fxPhaseIn_guarded, fxResample_guarded, fxSafetyConfirm_guarded, fxSafetyLoad_guarded, fxSetc_guarded, fxStop_guarded, fxSwapset_guarded, fxTerrace_guarded, fxTimeSelect_guarded, fxTimeStep_guarded, fxTrace_guarded, fxUnfence_guarded, fxUnmute_guarded]; done)

theorem State.inOrder_guarded (f : State → Entry → State) (h : ∀ s e, (f s e).guarded = s.guarded) (n : Nat) (l : List Entry)
    (s : State) : (State.inOrder f n l s).guarded = s.guarded := by
  induction n generalizing l s with
  | zero => rfl
  | succ n ih =>
    unfold State.inOrder
    split
    · rfl
    · rw [ih, h]

theorem State.applyEntry_guarded (s : State) (n m : Nat) (jobs : List Nat) (st : List Nat) (e : Entry) :
    (State.applyEntry s n m jobs st e).guarded = s.guarded := by
  delta State.applyEntry
  first
  | (simp only [guarded_mk, steady_mk, steady_eta, closed_mk, closed_eta, guarded_eta, guarded_fold, guarded_if, ite_self, implies_true, State.reject_guarded, State.sendTag_guarded, State.startEntry_guarded, applyOp_guarded]; done)
  | ((try extract_lets) <;> (repeat' split) <;> (try with_reducible rfl) <;>
    (simp +zetaDelta only [guarded_mk, steady_mk, steady_eta, closed_mk, closed_eta, guarded_eta, guarded_fold, guarded_if, ite_self, implies_true, State.reject_guarded, State.sendTag_guarded, State.startEntry_guarded, applyOp_guarded]) <;> (repeat' split) <;> (try with_reducible rfl) <;>
    simp +zetaDelta only [guarded_mk, steady_mk, steady_eta, closed_mk, closed_eta, guarded_eta, guarded_fold, guarded_if, ite_self, implies_true, State.reject_guarded, State.sendTag_guarded, State.startEntry_guarded, applyOp_guarded]; done)
  | ((repeat' first | (refine (guarded_fold _ (fun s x => ?_) _ _).trans ?_) | (extract_lets; done) | split) <;>
    (try with_reducible rfl) <;> (simp +zetaDelta only [guarded_mk, steady_mk, steady_eta, closed_mk, closed_eta, guarded_eta, guarded_fold, guarded_if, ite_self, implies_true, State.reject_guarded, State.sendTag_guarded, State.startEntry_guarded, applyOp_guarded]) <;> (repeat' split) <;>
    (try with_reducible rfl) <;> simp +zetaDelta only [guarded_mk, steady_mk, steady_eta, closed_mk, closed_eta, guarded_eta, guarded_fold, guarded_if, ite_self, implies_true, State.reject_guarded, State.sendTag_guarded, State.startEntry_guarded, applyOp_guarded]; done)

theorem State.applyAll_guarded (s : State) (n m : Nat) (jobs stopped : List Nat) (l : List Entry) :
    (State.applyAll s n m jobs stopped l).guarded = s.guarded := by
  delta State.applyAll
  simp only [guarded_mk, steady_mk, steady_eta, closed_mk, closed_eta, guarded_eta, guarded_fold, guarded_if, ite_self, implies_true, State.applyEntry_guarded, State.inOrder_guarded]

theorem State.applyPoint_guarded (s : State) (ps : List Point) (n m : Nat) (jobs stopped : List Nat) :
    (State.applyPoint s ps n m jobs stopped).guarded = s.guarded := by
  delta State.applyPoint
  simp only [guarded_mk, steady_mk, steady_eta, closed_mk, closed_eta, guarded_eta, guarded_fold, guarded_if, ite_self, implies_true, State.applyAll_guarded]

theorem State.overtake_guarded (s : State) (j : Job) :
    (State.overtake s j).guarded = s.guarded := by
  delta State.overtake
  simp only [guarded_mk, steady_mk, steady_eta, closed_mk, closed_eta, guarded_eta, guarded_fold, guarded_if, ite_self, implies_true, State.abortJob_guarded, State.endRun_guarded]

theorem State.endCycle_guarded (s : State) (k : Nat) :
    (State.endCycle s k).guarded = s.guarded := by
  delta State.endCycle
  simp only [guarded_mk, steady_mk, steady_eta, closed_mk, closed_eta, guarded_eta, guarded_fold, guarded_if, ite_self, implies_true, State.overtake_guarded, State.recordAbort_guarded, State.resyncSend_guarded]

theorem State.takeReport_guarded (s : State) (k j start a : Nat) (p : List Byte) (i : Nat) :
    (State.takeReport s k j start a p i).guarded = s.guarded := by
  delta State.takeReport
  simp only [guarded_mk, steady_mk, steady_eta, closed_mk, closed_eta, guarded_eta, guarded_fold, guarded_if, ite_self, implies_true, State.liveOff_guarded, State.liveOn_guarded, State.modAxis_guarded, State.pushSample_guarded, State.raiseNow_guarded]

theorem State.closeNode_guarded (s : State) (k m start : Nat) (got : List (Nat × List Byte)) (j : Nat) :
    (State.closeNode s k m start got j).guarded = s.guarded := by
  delta State.closeNode
  first
  | (simp only [guarded_mk, steady_mk, steady_eta, closed_mk, closed_eta, guarded_eta, guarded_fold, guarded_if, ite_self, implies_true, State.liveOff_guarded, State.modNode_guarded, State.nodeUp_guarded, State.pushSample_guarded, State.takeReport_guarded]; done)
  | ((try extract_lets) <;> (repeat' split) <;> (try with_reducible rfl) <;>
    (simp +zetaDelta only [guarded_mk, steady_mk, steady_eta, closed_mk, closed_eta, guarded_eta, guarded_fold, guarded_if, ite_self, implies_true, State.liveOff_guarded, State.modNode_guarded, State.nodeUp_guarded, State.pushSample_guarded, State.takeReport_guarded]) <;> (repeat' split) <;> (try with_reducible rfl) <;>
    simp +zetaDelta only [guarded_mk, steady_mk, steady_eta, closed_mk, closed_eta, guarded_eta, guarded_fold, guarded_if, ite_self, implies_true, State.liveOff_guarded, State.modNode_guarded, State.nodeUp_guarded, State.pushSample_guarded, State.takeReport_guarded]; done)
  | ((repeat' first | (refine (guarded_fold _ (fun s x => ?_) _ _).trans ?_) | (extract_lets; done) | split) <;>
    (try with_reducible rfl) <;> (simp +zetaDelta only [guarded_mk, steady_mk, steady_eta, closed_mk, closed_eta, guarded_eta, guarded_fold, guarded_if, ite_self, implies_true, State.liveOff_guarded, State.modNode_guarded, State.nodeUp_guarded, State.pushSample_guarded, State.takeReport_guarded]) <;> (repeat' split) <;>
    (try with_reducible rfl) <;> simp +zetaDelta only [guarded_mk, steady_mk, steady_eta, closed_mk, closed_eta, guarded_eta, guarded_fold, guarded_if, ite_self, implies_true, State.liveOff_guarded, State.modNode_guarded, State.nodeUp_guarded, State.pushSample_guarded, State.takeReport_guarded]; done)

theorem State.sendUse_guarded (s : State) (k n m : Nat) (got : List (Nat × List Byte)) :
    (State.sendUse s k n m got).guarded = s.guarded := by
  delta State.sendUse
  simp only [guarded_mk, steady_mk, steady_eta, closed_mk, closed_eta, guarded_eta, guarded_fold, guarded_if, ite_self, implies_true, State.sendTwin_guarded]

theorem State.withdrawSoft_guarded (s : State) (c : SoftClass) : (s.withdrawSoft c).guarded = s.guarded := by
  unfold State.withdrawSoft
  refine (guarded_fold _ (fun s e => ?_) _ _).trans (State.modPool_guarded ..)
  extract_lets s1
  have h1 : s1.guarded = s.guarded := by
    simp only [s1]
    split
    · split
      · exact State.modHammer_guarded ..
      · rfl
    · rfl
  clear_value s1
  split
  · split
    · rw [State.freeHammer_guarded, h1]
    · exact h1
  · exact h1

theorem State.endResample_guarded (s : State) (a : Nat) (r : Resample) (table : Option (SMap Int)) (status : Nat) :
    (State.endResample s a r table status).guarded = s.guarded := by
  delta State.endResample
  simp only [guarded_mk, steady_mk, steady_eta, closed_mk, closed_eta, guarded_eta, guarded_fold, guarded_if, ite_self, implies_true, State.finish_guarded, State.modAxis_guarded, State.startEntry_guarded]

theorem State.swapPoint_guarded (s : State) (n a : Nat) :
    (State.swapPoint s n a).guarded = s.guarded := by
  delta State.swapPoint
  first
  | (simp only [guarded_mk, steady_mk, steady_eta, closed_mk, closed_eta, guarded_eta, guarded_fold, guarded_if, ite_self, implies_true, State.endResample_guarded, State.tellTwin_guarded, State.withdrawSoft_guarded]; done)
  | ((try extract_lets) <;> (repeat' split) <;> (try with_reducible rfl) <;>
    (simp +zetaDelta only [guarded_mk, steady_mk, steady_eta, closed_mk, closed_eta, guarded_eta, guarded_fold, guarded_if, ite_self, implies_true, State.endResample_guarded, State.tellTwin_guarded, State.withdrawSoft_guarded]) <;> (repeat' split) <;> (try with_reducible rfl) <;>
    simp +zetaDelta only [guarded_mk, steady_mk, steady_eta, closed_mk, closed_eta, guarded_eta, guarded_fold, guarded_if, ite_self, implies_true, State.endResample_guarded, State.tellTwin_guarded, State.withdrawSoft_guarded]; done)
  | ((repeat' first | (refine (guarded_fold _ (fun s x => ?_) _ _).trans ?_) | (extract_lets; done) | split) <;>
    (try with_reducible rfl) <;> (simp +zetaDelta only [guarded_mk, steady_mk, steady_eta, closed_mk, closed_eta, guarded_eta, guarded_fold, guarded_if, ite_self, implies_true, State.endResample_guarded, State.tellTwin_guarded, State.withdrawSoft_guarded]) <;> (repeat' split) <;>
    (try with_reducible rfl) <;> simp +zetaDelta only [guarded_mk, steady_mk, steady_eta, closed_mk, closed_eta, guarded_eta, guarded_fold, guarded_if, ite_self, implies_true, State.endResample_guarded, State.tellTwin_guarded, State.withdrawSoft_guarded]; done)

theorem State.makeJobs_guarded (s : State) (k n m : Nat) (ins : List (Nat × JobIn)) :
    (State.makeJobs s k n m ins).guarded = s.guarded := by
  delta State.makeJobs
  simp only [guarded_mk, steady_mk, steady_eta, closed_mk, closed_eta, guarded_eta, guarded_fold, guarded_if, ite_self, implies_true, State.modPool_guarded]

theorem State.openAxis_guarded (s : State) (n m a : Nat) (i : JobIn) :
    (State.openAxis s n m a i).guarded = s.guarded := by
  delta State.openAxis
  simp only [guarded_mk, steady_mk, steady_eta, closed_mk, closed_eta, guarded_eta, guarded_fold, guarded_if, ite_self, implies_true, State.axisEvs_guarded, State.endIdent_guarded, State.modAxis_guarded]

theorem State.openPaths_guarded (s : State) (ins : List (Nat × JobIn)) :
    (State.openPaths s ins).guarded = s.guarded := by
  delta State.openPaths
  first
  | (simp only [guarded_mk, steady_mk, steady_eta, closed_mk, closed_eta, guarded_eta, guarded_fold, guarded_if, ite_self, implies_true, State.stopPath_guarded]; done)
  | ((try extract_lets) <;> (repeat' split) <;> (try with_reducible rfl) <;>
    (simp +zetaDelta only [guarded_mk, steady_mk, steady_eta, closed_mk, closed_eta, guarded_eta, guarded_fold, guarded_if, ite_self, implies_true, State.stopPath_guarded]) <;> (repeat' split) <;> (try with_reducible rfl) <;>
    simp +zetaDelta only [guarded_mk, steady_mk, steady_eta, closed_mk, closed_eta, guarded_eta, guarded_fold, guarded_if, ite_self, implies_true, State.stopPath_guarded]; done)
  | ((repeat' first | (refine (guarded_fold _ (fun s x => ?_) _ _).trans ?_) | (extract_lets; done) | split) <;>
    (try with_reducible rfl) <;> (simp +zetaDelta only [guarded_mk, steady_mk, steady_eta, closed_mk, closed_eta, guarded_eta, guarded_fold, guarded_if, ite_self, implies_true, State.stopPath_guarded]) <;> (repeat' split) <;>
    (try with_reducible rfl) <;> simp +zetaDelta only [guarded_mk, steady_mk, steady_eta, closed_mk, closed_eta, guarded_eta, guarded_fold, guarded_if, ite_self, implies_true, State.stopPath_guarded]; done)

theorem State.idleAxis_guarded (s : State) (k n m a : Nat) (i : JobIn) :
    (State.idleAxis s k n m a i).guarded = s.guarded := by
  delta State.idleAxis
  simp only [guarded_mk, steady_mk, steady_eta, closed_mk, closed_eta, guarded_eta, guarded_fold, guarded_if, ite_self, implies_true, State.openAxis_guarded, State.record_guarded]

theorem State.startReq_guarded (s : State) (a : Nat) :
    (State.startReq s a).guarded = s.guarded := by
  delta State.startReq
  first
  | (simp only [guarded_mk, steady_mk, steady_eta, closed_mk, closed_eta, guarded_eta, guarded_fold, guarded_if, ite_self, implies_true, State.beginStop_guarded, State.modAxis_guarded]; done)
  | ((try extract_lets) <;> (repeat' split) <;> (try with_reducible rfl) <;>
    (simp +zetaDelta only [guarded_mk, steady_mk, steady_eta, closed_mk, closed_eta, guarded_eta, guarded_fold, guarded_if, ite_self, implies_true, State.beginStop_guarded, State.modAxis_guarded]) <;> (repeat' split) <;> (try with_reducible rfl) <;>
    simp +zetaDelta only [guarded_mk, steady_mk, steady_eta, closed_mk, closed_eta, guarded_eta, guarded_fold, guarded_if, ite_self, implies_true, State.beginStop_guarded, State.modAxis_guarded]; done)
  | ((repeat' first | (refine (guarded_fold _ (fun s x => ?_) _ _).trans ?_) | (extract_lets; done) | split) <;>
    (try with_reducible rfl) <;> (simp +zetaDelta only [guarded_mk, steady_mk, steady_eta, closed_mk, closed_eta, guarded_eta, guarded_fold, guarded_if, ite_self, implies_true, State.beginStop_guarded, State.modAxis_guarded]) <;> (repeat' split) <;>
    (try with_reducible rfl) <;> simp +zetaDelta only [guarded_mk, steady_mk, steady_eta, closed_mk, closed_eta, guarded_eta, guarded_fold, guarded_if, ite_self, implies_true, State.beginStop_guarded, State.modAxis_guarded]; done)

theorem State.putUnit_guarded (s : State) (u : TwinUnit) : (s.putUnit u).guarded = s.guarded := by
  have fold : ∀ (g : State × List Byte → Nat → State × List Byte), (∀ x a, (g x a).1.guarded = x.1.guarded) →
      ∀ (l : List Nat) x, (l.foldl g x).1.guarded = x.1.guarded := by
    intro g h l
    induction l with
    | nil => intro x; rfl
    | cons a r ih => intro x; rw [List.foldl_cons, ih, h]
  unfold State.putUnit
  refine (fold _ (fun x g => ?_) _ _).trans (fold _ (fun x a => ?_) _ _)
  · dsimp only
    split <;> rfl
  · exact State.setAxis_guarded ..

theorem State.replayCycle_guarded (s : State) (k : Nat) (axes groups : List Nat) (c : KeptCycle) :
    (State.replayCycle s k axes groups c).guarded = s.guarded := by
  delta State.replayCycle
  first
  | (simp only [guarded_mk, steady_mk, steady_eta, closed_mk, closed_eta, guarded_eta, guarded_fold, guarded_if, ite_self, implies_true, State.completeAxis_guarded, State.completeGroup_guarded, State.completeStep_guarded, State.dropJob_guarded, State.inOrder_guarded, applyOp_guarded]; done)
  | ((try extract_lets) <;> (repeat' split) <;> (try with_reducible rfl) <;>
    (simp +zetaDelta only [guarded_mk, steady_mk, steady_eta, closed_mk, closed_eta, guarded_eta, guarded_fold, guarded_if, ite_self, implies_true, State.completeAxis_guarded, State.completeGroup_guarded, State.completeStep_guarded, State.dropJob_guarded, State.inOrder_guarded, applyOp_guarded]) <;> (repeat' split) <;> (try with_reducible rfl) <;>
    simp +zetaDelta only [guarded_mk, steady_mk, steady_eta, closed_mk, closed_eta, guarded_eta, guarded_fold, guarded_if, ite_self, implies_true, State.completeAxis_guarded, State.completeGroup_guarded, State.completeStep_guarded, State.dropJob_guarded, State.inOrder_guarded, applyOp_guarded]; done)
  | ((repeat' first | (refine (guarded_fold _ (fun s x => ?_) _ _).trans ?_) | (extract_lets; done) | split) <;>
    (try with_reducible rfl) <;> (simp +zetaDelta only [guarded_mk, steady_mk, steady_eta, closed_mk, closed_eta, guarded_eta, guarded_fold, guarded_if, ite_self, implies_true, State.completeAxis_guarded, State.completeGroup_guarded, State.completeStep_guarded, State.dropJob_guarded, State.inOrder_guarded, applyOp_guarded]) <;> (repeat' split) <;>
    (try with_reducible rfl) <;> simp +zetaDelta only [guarded_mk, steady_mk, steady_eta, closed_mk, closed_eta, guarded_eta, guarded_fold, guarded_if, ite_self, implies_true, State.completeAxis_guarded, State.completeGroup_guarded, State.completeStep_guarded, State.dropJob_guarded, State.inOrder_guarded, applyOp_guarded]; done)

theorem State.install_guarded (s : State) (k : Nat) (u : TwinUnit) :
    (State.install s k u).guarded = s.guarded := by
  delta State.install
  first
  | (simp only [guarded_mk, steady_mk, steady_eta, closed_mk, closed_eta, guarded_eta, guarded_fold, guarded_if, ite_self, implies_true, State.modTwSeg_guarded, State.putUnit_guarded, State.replayCycle_guarded, State.setAxis_guarded]; done)
  | ((try extract_lets) <;> (repeat' split) <;> (try with_reducible rfl) <;>
    (simp +zetaDelta only [guarded_mk, steady_mk, steady_eta, closed_mk, closed_eta, guarded_eta, guarded_fold, guarded_if, ite_self, implies_true, State.modTwSeg_guarded, State.putUnit_guarded, State.replayCycle_guarded, State.setAxis_guarded]) <;> (repeat' split) <;> (try with_reducible rfl) <;>
    simp +zetaDelta only [guarded_mk, steady_mk, steady_eta, closed_mk, closed_eta, guarded_eta, guarded_fold, guarded_if, ite_self, implies_true, State.modTwSeg_guarded, State.putUnit_guarded, State.replayCycle_guarded, State.setAxis_guarded]; done)
  | ((repeat' first | (refine (guarded_fold _ (fun s x => ?_) _ _).trans ?_) | (extract_lets; done) | split) <;>
    (try with_reducible rfl) <;> (simp +zetaDelta only [guarded_mk, steady_mk, steady_eta, closed_mk, closed_eta, guarded_eta, guarded_fold, guarded_if, ite_self, implies_true, State.modTwSeg_guarded, State.putUnit_guarded, State.replayCycle_guarded, State.setAxis_guarded]) <;> (repeat' split) <;>
    (try with_reducible rfl) <;> simp +zetaDelta only [guarded_mk, steady_mk, steady_eta, closed_mk, closed_eta, guarded_eta, guarded_fold, guarded_if, ite_self, implies_true, State.modTwSeg_guarded, State.putUnit_guarded, State.replayCycle_guarded, State.setAxis_guarded]; done)

theorem State.pairNext_guarded (s : State) :
    (State.pairNext s).guarded = s.guarded := by
  delta State.pairNext
  first
  | (simp only [guarded_mk, steady_mk, steady_eta, closed_mk, closed_eta, guarded_eta, guarded_fold, guarded_if, ite_self, implies_true, State.raise_guarded, State.setMode_guarded, State.startResync_guarded]; done)
  | ((try extract_lets) <;> (repeat' split) <;> (try with_reducible rfl) <;>
    (simp +zetaDelta only [guarded_mk, steady_mk, steady_eta, closed_mk, closed_eta, guarded_eta, guarded_fold, guarded_if, ite_self, implies_true, State.raise_guarded, State.setMode_guarded, State.startResync_guarded]) <;> (repeat' split) <;> (try with_reducible rfl) <;>
    simp +zetaDelta only [guarded_mk, steady_mk, steady_eta, closed_mk, closed_eta, guarded_eta, guarded_fold, guarded_if, ite_self, implies_true, State.raise_guarded, State.setMode_guarded, State.startResync_guarded]; done)
  | ((repeat' first | (refine (guarded_fold _ (fun s x => ?_) _ _).trans ?_) | (extract_lets; done) | split) <;>
    (try with_reducible rfl) <;> (simp +zetaDelta only [guarded_mk, steady_mk, steady_eta, closed_mk, closed_eta, guarded_eta, guarded_fold, guarded_if, ite_self, implies_true, State.raise_guarded, State.setMode_guarded, State.startResync_guarded]) <;> (repeat' split) <;>
    (try with_reducible rfl) <;> simp +zetaDelta only [guarded_mk, steady_mk, steady_eta, closed_mk, closed_eta, guarded_eta, guarded_fold, guarded_if, ite_self, implies_true, State.raise_guarded, State.setMode_guarded, State.startResync_guarded]; done)

theorem State.resyncClose_guarded (s : State) (k : Nat) :
    (State.resyncClose s k).guarded = s.guarded := by
  delta State.resyncClose
  simp only [guarded_mk, steady_mk, steady_eta, closed_mk, closed_eta, guarded_eta, guarded_fold, guarded_if, ite_self, implies_true, State.install_guarded, State.modTwSeg_guarded, State.pairNext_guarded, State.raise_guarded]

theorem State.followerClose_guarded (s : State) (k n m : Nat) :
    (State.followerClose s k n m).guarded = s.guarded := by
  delta State.followerClose
  simp only [guarded_mk, steady_mk, steady_eta, closed_mk, closed_eta, guarded_eta, guarded_fold, guarded_if, ite_self, implies_true, State.cmdMismatch_guarded, State.resyncClose_guarded]

theorem State.keepCycle_guarded (s : State) (k n m : Nat) (ins : List (Nat × JobIn)) (ents : List Entry) :
    (State.keepCycle s k n m ins ents).guarded = s.guarded := by
  delta State.keepCycle
  simp only [guarded_mk, steady_mk, steady_eta, closed_mk, closed_eta, guarded_eta, guarded_fold, guarded_if, ite_self, implies_true, State.modTwSeg_guarded]

theorem State.restoreAxes_guarded (s : State) (k : Nat) :
    (State.restoreAxes s k).guarded = s.guarded := by
  delta State.restoreAxes
  simp only [guarded_mk, steady_mk, steady_eta, closed_mk, closed_eta, guarded_eta, guarded_fold, guarded_if, ite_self, implies_true, State.axisStop_guarded, State.install_guarded, State.modTwSeg_guarded]

theorem State.lostAxis_guarded (s : State) (k n m a : Nat) (i : JobIn) :
    (State.lostAxis s k n m a i).guarded = s.guarded := by
  delta State.lostAxis
  simp only [guarded_mk, steady_mk, steady_eta, closed_mk, closed_eta, guarded_eta, guarded_fold, guarded_if, ite_self, implies_true, State.abortAxis_guarded]

theorem State.closeAt_guarded (s : State) (k n m : Nat) :
    (State.closeAt s k n m).guarded = s.guarded := by
  delta State.closeAt
  simp only [guarded_mk, steady_mk, steady_eta, closed_mk, closed_eta, guarded_eta, guarded_fold, guarded_if, ite_self, implies_true, State.applyAll_guarded, State.closeNode_guarded, State.endCycle_guarded, State.followerClose_guarded, State.idleAxis_guarded, State.keepCycle_guarded, State.lostAxis_guarded, State.makeJobs_guarded, State.modSeg_guarded, State.openPaths_guarded, State.postReady_guarded, State.restoreAxes_guarded, State.sendUse_guarded, State.startReq_guarded, State.stopDue_guarded, State.swapPoint_guarded]

theorem execReportClose_guarded (t seg : Nat) (s : State) (s' : State)
    (hs : execReportClose t seg s = .next s') : s'.guarded = s.guarded := by
  refine does_guarded _ _ _ (fun z => ?_) s' hs
  simp only [guarded_mk, steady_mk, steady_eta, closed_mk, closed_eta, guarded_eta, guarded_fold, guarded_if, ite_self, implies_true, State.closeAt_guarded]

theorem State.traceMiss_guarded (s : State) (k n m a held : Nat) :
    (State.traceMiss s k n m a held).guarded = s.guarded := by
  delta State.traceMiss
  simp only [guarded_mk, steady_mk, steady_eta, closed_mk, closed_eta, guarded_eta, guarded_fold, guarded_if, ite_self, implies_true, State.traceAbout_guarded]

theorem State.pourMiss_guarded (s : State) (k : Nat) :
    (State.pourMiss s k).guarded = s.guarded := by
  delta State.pourMiss
  simp only [guarded_mk, steady_mk, steady_eta, closed_mk, closed_eta, guarded_eta, guarded_fold, guarded_if, ite_self, implies_true, State.modSeg_guarded, State.raise_guarded]

theorem State.pourHolds_guarded (s : State) (k n m : Nat) (l : List Nat) :
    (State.pourHolds s k n m l).guarded = s.guarded := by
  delta State.pourHolds
  simp only [guarded_mk, steady_mk, steady_eta, closed_mk, closed_eta, guarded_eta, guarded_fold, guarded_if, ite_self, implies_true, State.modPool_guarded, State.modSeg_guarded, State.traceMiss_guarded]

theorem State.cycleWatchdog_guarded (s : State) (k held : Nat) :
    (State.cycleWatchdog s k held).guarded = s.guarded := by
  delta State.cycleWatchdog
  simp only [guarded_mk, steady_mk, steady_eta, closed_mk, closed_eta, guarded_eta, guarded_fold, guarded_if, ite_self, implies_true, State.raiseDone_guarded, State.takeReaction_guarded]

theorem State.pourAxis_guarded (s : State) (a : Nat) (b : Bank) (sent : Bool) :
    (State.pourAxis s a b sent).guarded = s.guarded := by
  delta State.pourAxis
  first
  | (simp only [guarded_mk, steady_mk, steady_eta, closed_mk, closed_eta, guarded_eta, guarded_fold, guarded_if, ite_self, implies_true, State.modAxis_guarded, State.modStep_guarded]; done)
  | ((try extract_lets) <;> (repeat' split) <;> (try with_reducible rfl) <;>
    (simp +zetaDelta only [guarded_mk, steady_mk, steady_eta, closed_mk, closed_eta, guarded_eta, guarded_fold, guarded_if, ite_self, implies_true, State.modAxis_guarded, State.modStep_guarded]) <;> (repeat' split) <;> (try with_reducible rfl) <;>
    simp +zetaDelta only [guarded_mk, steady_mk, steady_eta, closed_mk, closed_eta, guarded_eta, guarded_fold, guarded_if, ite_self, implies_true, State.modAxis_guarded, State.modStep_guarded]; done)
  | ((repeat' first | (refine (guarded_fold _ (fun s x => ?_) _ _).trans ?_) | (extract_lets; done) | split) <;>
    (try with_reducible rfl) <;> (simp +zetaDelta only [guarded_mk, steady_mk, steady_eta, closed_mk, closed_eta, guarded_eta, guarded_fold, guarded_if, ite_self, implies_true, State.modAxis_guarded, State.modStep_guarded]) <;> (repeat' split) <;>
    (try with_reducible rfl) <;> simp +zetaDelta only [guarded_mk, steady_mk, steady_eta, closed_mk, closed_eta, guarded_eta, guarded_fold, guarded_if, ite_self, implies_true, State.modAxis_guarded, State.modStep_guarded]; done)

theorem State.coverPoint_guarded (s : State) (k : Nat) :
    (State.coverPoint s k).guarded = s.guarded := by
  delta State.coverPoint
  simp only [guarded_mk, steady_mk, steady_eta, closed_mk, closed_eta, guarded_eta, guarded_fold, guarded_if, ite_self, implies_true, State.modSeg_guarded, State.modTwSeg_guarded, State.raise_guarded]

theorem State.pourAt_guarded (s : State) (k n m : Nat) :
    (State.pourAt s k n m).guarded = s.guarded := by
  delta State.pourAt
  simp only [guarded_mk, steady_mk, steady_eta, closed_mk, closed_eta, guarded_eta, guarded_fold, guarded_if, ite_self, implies_true, State.coverPoint_guarded, State.cycleWatchdog_guarded, State.modBank_guarded, State.modPool_guarded, State.modSeg_guarded, State.pourAxis_guarded, State.pourHolds_guarded, State.pourMiss_guarded, State.ringDrops_guarded, State.takeBatch_guarded, State.telFlow_guarded]

theorem execPourPoint_guarded (t seg : Nat) (s : State) (s' : State)
    (hs : execPourPoint t seg s = .next s') : s'.guarded = s.guarded := by
  refine does_guarded _ _ _ (fun z => ?_) s' hs
  simp only [guarded_mk, steady_mk, steady_eta, closed_mk, closed_eta, guarded_eta, guarded_fold, guarded_if, ite_self, implies_true, State.pourAt_guarded]

theorem State.evalMaster_guarded (s : State) (a : Nat) (v : MasterVal) :
    (State.evalMaster s a v).guarded = s.guarded := by
  delta State.evalMaster
  simp only [guarded_mk, steady_mk, steady_eta, closed_mk, closed_eta, guarded_eta, guarded_fold, guarded_if, ite_self, implies_true]

theorem State.runMaster_guarded (s : State) (n i a : Nat) :
    (State.runMaster s n i a).guarded = s.guarded := by
  delta State.runMaster
  simp only [guarded_mk, steady_mk, steady_eta, closed_mk, closed_eta, guarded_eta, guarded_fold, guarded_if, ite_self, implies_true, State.axisEvs_guarded, State.evalMaster_guarded, State.modAxis_guarded]

theorem State.captureAll_guarded (s : State) (start : Nat) :
    (State.captureAll s start).guarded = s.guarded := by
  delta State.captureAll
  simp only [guarded_mk, steady_mk, steady_eta, closed_mk, closed_eta, guarded_eta, guarded_fold, guarded_if, ite_self, implies_true, State.portCapture_guarded, State.pushSample_guarded]

theorem execMasterInterval_guarded (t : Nat) (s : State) (s' : State)
    (hs : execMasterInterval t s = .next s') : s'.guarded = s.guarded := by
  refine does_guarded _ _ _ (fun z => ?_) s' hs
  simp only [guarded_mk, steady_mk, steady_eta, closed_mk, closed_eta, guarded_eta, guarded_fold, guarded_if, ite_self, implies_true, State.applyPoint_guarded, State.captureAll_guarded, State.evalMaster_guarded, State.postReady_guarded, State.pushSample_guarded, State.runMaster_guarded, State.sendTwin_guarded, State.startReq_guarded]

theorem State.freshCounts_guarded (s : State) :
    (State.freshCounts s).guarded = s.guarded := by
  delta State.freshCounts
  simp only [guarded_mk, steady_mk, steady_eta, closed_mk, closed_eta, guarded_eta, guarded_fold, guarded_if, ite_self, implies_true, State.modConv_guarded, State.modSeg_guarded, State.pourMiss_guarded, State.raise_guarded]

theorem State.freshRings_guarded (s : State) :
    (State.freshRings s).guarded = s.guarded := by
  delta State.freshRings
  simp only [guarded_mk, steady_mk, steady_eta, closed_mk, closed_eta, guarded_eta, guarded_fold, guarded_if, ite_self, implies_true, State.modRing_guarded, State.sendMsi_guarded]

theorem State.segBoundary_guarded (s : State) (k : Nat) :
    (State.segBoundary s k).guarded = s.guarded := by
  delta State.segBoundary
  first
  | (simp only [guarded_mk, steady_mk, steady_eta, closed_mk, closed_eta, guarded_eta, guarded_fold, guarded_if, ite_self, implies_true, State.faultSegment_guarded, State.finish_guarded, State.modSeg_guarded, State.restoreSeg_guarded]; done)
  | ((try extract_lets) <;> (repeat' split) <;> (try with_reducible rfl) <;>
    (simp +zetaDelta only [guarded_mk, steady_mk, steady_eta, closed_mk, closed_eta, guarded_eta, guarded_fold, guarded_if, ite_self, implies_true, State.faultSegment_guarded, State.finish_guarded, State.modSeg_guarded, State.restoreSeg_guarded]) <;> (repeat' split) <;> (try with_reducible rfl) <;>
    simp +zetaDelta only [guarded_mk, steady_mk, steady_eta, closed_mk, closed_eta, guarded_eta, guarded_fold, guarded_if, ite_self, implies_true, State.faultSegment_guarded, State.finish_guarded, State.modSeg_guarded, State.restoreSeg_guarded]; done)
  | ((repeat' first | (refine (guarded_fold _ (fun s x => ?_) _ _).trans ?_) | (extract_lets; done) | split) <;>
    (try with_reducible rfl) <;> (simp +zetaDelta only [guarded_mk, steady_mk, steady_eta, closed_mk, closed_eta, guarded_eta, guarded_fold, guarded_if, ite_self, implies_true, State.faultSegment_guarded, State.finish_guarded, State.modSeg_guarded, State.restoreSeg_guarded]) <;> (repeat' split) <;>
    (try with_reducible rfl) <;> simp +zetaDelta only [guarded_mk, steady_mk, steady_eta, closed_mk, closed_eta, guarded_eta, guarded_fold, guarded_if, ite_self, implies_true, State.faultSegment_guarded, State.finish_guarded, State.modSeg_guarded, State.restoreSeg_guarded]; done)

theorem State.stepDown_guarded (s : State) : s.stepDown.guarded = s.guarded := by
  delta State.stepDown
  extract_lets s1 s2 s3 t
  have h3 : s3.guarded = s.guarded :=
    (guarded_fold _ (fun s k => State.modTwSeg_guarded ..) _ _).trans ((State.quietPool_guarded ..).trans
      (guarded_fold _ (fun s k => State.modSeg_guarded ..) _ _))
  rw [State.setMode_guarded, guarded_mk, guarded_eta, h3]

theorem State.stepDownDue_guarded (s : State) :
    (State.stepDownDue s).guarded = s.guarded := by
  delta State.stepDownDue
  simp only [guarded_mk, steady_mk, steady_eta, closed_mk, closed_eta, guarded_eta, guarded_fold, guarded_if, ite_self, implies_true, State.stepDown_guarded]

theorem State.statArea_guarded (s : State) (n k : Nat) : (s.statArea n k).2.guarded = s.guarded := by
  simp only [State.statArea, guarded_if, State.draw_guarded, ite_self]

theorem State.statBoundary_guarded (s : State) (n : Nat) :
    (State.statBoundary s n).guarded = s.guarded := by
  delta State.statBoundary
  simp only [guarded_mk, steady_mk, steady_eta, closed_mk, closed_eta, guarded_eta, guarded_fold, guarded_if, ite_self, implies_true, State.issueSoft_guarded, State.modPool_guarded, State.statArea_guarded]

theorem State.heartbeat_guarded (s : State) :
    (State.heartbeat s).guarded = s.guarded := by
  delta State.heartbeat
  simp only [guarded_mk, steady_mk, steady_eta, closed_mk, closed_eta, guarded_eta, guarded_fold, guarded_if, ite_self, implies_true, State.sendTwin_guarded]

theorem State.silence_guarded (s : State) :
    (State.silence s).guarded = s.guarded := by
  delta State.silence
  simp only [guarded_mk, steady_mk, steady_eta, closed_mk, closed_eta, guarded_eta, guarded_fold, guarded_if, ite_self, implies_true]

theorem State.restPoint_guarded (s : State) (n : Nat) :
    (State.restPoint s n).guarded = s.guarded := by
  delta State.restPoint
  simp only [guarded_mk, steady_mk, steady_eta, closed_mk, closed_eta, guarded_eta, guarded_fold, guarded_if, ite_self, implies_true, State.applyPoint_guarded, State.openAxis_guarded, State.startReq_guarded, State.swapPoint_guarded]

theorem State.timeStepped_guarded (s : State) :
    (State.timeStepped s).guarded = s.guarded := by
  delta State.timeStepped
  simp only [guarded_mk, steady_mk, steady_eta, closed_mk, closed_eta, guarded_eta, guarded_fold, guarded_if, ite_self, implies_true, State.autoSwitch_guarded, State.timeBoundary_guarded]

theorem execMajorCycleBoundary_guarded (t : Nat) (s : State) (s' : State)
    (hs : execMajorCycleBoundary t s = .next s') : s'.guarded = s.guarded := by
  refine does_guarded _ _ _ (fun z => ?_) s' hs
  simp only [guarded_mk, steady_mk, steady_eta, closed_mk, closed_eta, guarded_eta, guarded_fold, guarded_if, ite_self, implies_true, State.freshCounts_guarded, State.freshRings_guarded, State.heartbeat_guarded, State.modPool_guarded, State.modeBoundary_guarded, State.postReady_guarded, State.rejoin_guarded, State.restPoint_guarded, State.segBoundary_guarded, State.silence_guarded, State.statBoundary_guarded, State.stepDownDue_guarded, State.timeStepped_guarded]

theorem execTwinLaneDown_guarded (t lane : Nat) (s : State) (s' : State)
    (hs : execTwinLaneDown t lane s = .next s') : s'.guarded = s.guarded := by
  refine does_guarded _ _ _ (fun z => ?_) s' hs
  simp only [guarded_mk, steady_mk, steady_eta, closed_mk, closed_eta, guarded_eta, guarded_fold, guarded_if, ite_self, implies_true, State.liveOn_guarded, State.raise_guarded]

theorem execTwinLaneUp_guarded (t lane : Nat) (s : State) (s' : State)
    (hs : execTwinLaneUp t lane s = .next s') : s'.guarded = s.guarded := by
  refine does_guarded _ _ _ (fun z => ?_) s' hs
  simp only [guarded_mk, steady_mk, steady_eta, closed_mk, closed_eta, guarded_eta, guarded_fold, guarded_if, ite_self, implies_true, State.liveOff_guarded]

theorem State.pairLead_guarded (s : State) : s.pairLead.guarded = s.guarded := by
  delta State.pairLead
  extract_lets t s2 s3 s4 s5 s6
  have h3 : s3.guarded = s.guarded := (State.tellTwin_guarded ..).trans (by simp only [s2, guarded_mk, guarded_eta])
  have h4 : s4.guarded = s.guarded := (guarded_fold _ (fun s c => State.sendBytes_guarded ..) _ _).trans h3
  have h5' : s5.guarded = s.guarded := (guarded_fold _ (fun s r => State.tellTwin_guarded ..) _ _).trans h4
  have h5 : s6.guarded = s.guarded := by
    refine (guarded_fold _ (fun s e => ?_) _ _).trans h5'
    (repeat' split) <;> simp only [State.sendTag_guarded, State.tagNew_guarded]
  clear_value s6
  split
  · rw [State.startResync_guarded, h5]
  · exact h5

theorem State.pairFollow_guarded (s : State) :
    (State.pairFollow s).guarded = s.guarded := by
  delta State.pairFollow
  simp only [guarded_mk, steady_mk, steady_eta, closed_mk, closed_eta, guarded_eta, guarded_fold, guarded_if, ite_self, implies_true, State.pairNext_guarded]

theorem execPairingStart_guarded (t : Nat) (s : State) (s' : State)
    (hs : execPairingStart t s = .next s') : s'.guarded = s.guarded := by
  refine does_guarded _ _ _ (fun z => ?_) s' hs
  simp only [guarded_mk, steady_mk, steady_eta, closed_mk, closed_eta, guarded_eta, guarded_fold, guarded_if, ite_self, implies_true, State.integrated_guarded, State.pairFollow_guarded, State.pairLead_guarded]

theorem State.unpair_guarded (s : State) :
    (State.unpair s).guarded = s.guarded := by
  delta State.unpair
  simp only [guarded_mk, steady_mk, steady_eta, closed_mk, closed_eta, guarded_eta, guarded_fold, guarded_if, ite_self, implies_true]

theorem State.mirrorSeg_guarded (s : State) (k st : Nat) :
    (State.mirrorSeg s k st).guarded = s.guarded := by
  delta State.mirrorSeg
  simp only [guarded_mk, steady_mk, steady_eta, closed_mk, closed_eta, guarded_eta, guarded_fold, guarded_if, ite_self, implies_true, State.modTwSeg_guarded, State.notReady_guarded, State.startResync_guarded]

theorem State.hbOfFollower_guarded (s : State) (pair : Nat) (states : List Nat) (deltas : List Int) :
    (State.hbOfFollower s pair states deltas).guarded = s.guarded := by
  delta State.hbOfFollower
  simp only [guarded_mk, steady_mk, steady_eta, closed_mk, closed_eta, guarded_eta, guarded_fold, guarded_if, ite_self, implies_true, State.before_guarded, State.mirrorSeg_guarded, State.takeDelta_guarded]

theorem State.hbOfLeader_guarded (s : State) (mode : Nat) :
    (State.hbOfLeader s mode).guarded = s.guarded := by
  delta State.hbOfLeader
  simp only [guarded_mk, steady_mk, steady_eta, closed_mk, closed_eta, guarded_eta, guarded_fold, guarded_if, ite_self, implies_true]

theorem execTwinHbReceived_guarded (t mode role rank pair : Nat) (segStates : List Nat) (deltas : List Int) (s : State) (s' : State)
    (hs : execTwinHbReceived t mode role rank pair segStates deltas s = .next s') : s'.guarded = s.guarded := by
  refine does_guarded _ _ _ (fun z => ?_) s' hs
  simp only [guarded_mk, steady_mk, steady_eta, closed_mk, closed_eta, guarded_eta, guarded_fold, guarded_if, ite_self, implies_true, State.hbOfFollower_guarded, State.hbOfLeader_guarded, State.liveOff_guarded]

theorem execTwinLinkLost_guarded (t : Nat) (s : State) (s' : State)
    (hs : execTwinLinkLost t s = .next s') : s'.guarded = s.guarded := by
  refine does_guarded _ _ _ (fun z => ?_) s' hs
  simp only [guarded_mk, steady_mk, steady_eta, closed_mk, closed_eta, guarded_eta, guarded_fold, guarded_if, ite_self, implies_true, State.liveOn_guarded, State.notReady_guarded, State.postReady_guarded, State.raise_guarded, State.unpair_guarded]

theorem State.retag_guarded (s : State) (e : Entry) (x : Tag) :
    (State.retag s e x).guarded = s.guarded := by
  delta State.retag
  simp only [guarded_mk, steady_mk, steady_eta, closed_mk, closed_eta, guarded_eta, guarded_fold, guarded_if, ite_self, implies_true, State.finish_guarded, State.modEntry_guarded]

theorem execTagReceived_guarded (t seg ring pos seq opc crc status tag minor : Nat) (s : State) (s' : State)
    (hs : execTagReceived t seg ring pos seq opc crc status tag minor s = .next s') : s'.guarded = s.guarded := by
  refine does_guarded _ _ _ (fun z => ?_) s' hs
  first
  | (simp only [guarded_mk, steady_mk, steady_eta, closed_mk, closed_eta, guarded_eta, guarded_fold, guarded_if, ite_self, implies_true, State.matchTags_guarded, State.postReady_guarded, State.retag_guarded]; done)
  | ((try extract_lets) <;> (repeat' split) <;> (try with_reducible rfl) <;>
    (simp +zetaDelta only [guarded_mk, steady_mk, steady_eta, closed_mk, closed_eta, guarded_eta, guarded_fold, guarded_if, ite_self, implies_true, State.matchTags_guarded, State.postReady_guarded, State.retag_guarded]) <;> (repeat' split) <;> (try with_reducible rfl) <;>
    simp +zetaDelta only [guarded_mk, steady_mk, steady_eta, closed_mk, closed_eta, guarded_eta, guarded_fold, guarded_if, ite_self, implies_true, State.matchTags_guarded, State.postReady_guarded, State.retag_guarded]; done)
  | ((repeat' first | (refine (guarded_fold _ (fun s x => ?_) _ _).trans ?_) | (extract_lets; done) | split) <;>
    (try with_reducible rfl) <;> (simp +zetaDelta only [guarded_mk, steady_mk, steady_eta, closed_mk, closed_eta, guarded_eta, guarded_fold, guarded_if, ite_self, implies_true, State.matchTags_guarded, State.postReady_guarded, State.retag_guarded]) <;> (repeat' split) <;>
    (try with_reducible rfl) <;> simp +zetaDelta only [guarded_mk, steady_mk, steady_eta, closed_mk, closed_eta, guarded_eta, guarded_fold, guarded_if, ite_self, implies_true, State.matchTags_guarded, State.postReady_guarded, State.retag_guarded]; done)

theorem execCplReceived_guarded (t ring pos : Nat) (record : List Byte) (s : State) (s' : State)
    (hs : execCplReceived t ring pos record s = .next s') : s'.guarded = s.guarded := by
  refine does_guarded _ _ _ (fun z => ?_) s' hs
  simp only [guarded_mk, steady_mk, steady_eta, closed_mk, closed_eta, guarded_eta, guarded_fold, guarded_if, ite_self, implies_true, State.postReady_guarded, State.record_guarded]

theorem execUseReceived_guarded (t seg tag minor map : Nat) (records : List (Nat × List Byte)) (x e : List (Nat × Int)) (s : State) (s' : State)
    (hs : execUseReceived t seg tag minor map records x e s = .next s') : s'.guarded = s.guarded := by
  refine does_guarded _ _ _ (fun z => ?_) s' hs
  simp only [guarded_mk, steady_mk, steady_eta, closed_mk, closed_eta, guarded_eta, guarded_fold, guarded_if, ite_self, implies_true, State.modSeg_guarded, State.modStep_guarded, State.modTwSeg_guarded]

theorem State.takeVals_guarded (s : State) (vals : List MasterVal) :
    (State.takeVals s vals).guarded = s.guarded := by
  delta State.takeVals
  simp only [guarded_mk, steady_mk, steady_eta, closed_mk, closed_eta, guarded_eta, guarded_fold, guarded_if, ite_self, implies_true, State.evalMaster_guarded]

theorem execMstReceived_guarded (t : Nat) (vals : List MasterVal) (s : State) (s' : State)
    (hs : execMstReceived t vals s = .next s') : s'.guarded = s.guarded := by
  refine does_guarded _ _ _ (fun z => ?_) s' hs
  split
  · rfl
  · rw [State.postReady_guarded]
    refine (guarded_fold _ (fun s p => ?_) _ _).trans ((State.takeVals_guarded _ _).trans
      ((guarded_fold _ (fun s a => State.runMaster_guarded _ _ _ _) _ _).trans (State.takeVals_guarded _ _)))
    split <;> simp only [State.modPort_guarded]

theorem execDigReceived_guarded (t seg tag minor digest : Nat) (s : State) (s' : State)
    (hs : execDigReceived t seg tag minor digest s = .next s') : s'.guarded = s.guarded := by
  refine does_guarded _ _ _ (fun z => ?_) s' hs
  simp only [guarded_mk, steady_mk, steady_eta, closed_mk, closed_eta, guarded_eta, guarded_fold, guarded_if, ite_self, implies_true, State.digestCompare_guarded, State.digest_guarded, State.modTwSeg_guarded]

theorem State.identAs_guarded (s : State) (a reason : Nat) :
    (State.identAs s a reason).guarded = s.guarded := by
  delta State.identAs
  simp only [guarded_mk, steady_mk, steady_eta, closed_mk, closed_eta, guarded_eta, guarded_fold, guarded_if, ite_self, implies_true, State.identOver_guarded]

theorem State.takeIndices_guarded (s : State) (r p c : Nat) :
    (State.takeIndices s r p c).guarded = s.guarded := by
  delta State.takeIndices
  simp only [guarded_mk, steady_mk, steady_eta, closed_mk, closed_eta, guarded_eta, guarded_fold, guarded_if, ite_self, implies_true, State.modRing_guarded, State.statusWrite_guarded]

theorem State.cfgMismatch_guarded (s : State) :
    (State.cfgMismatch s).guarded = s.guarded := by
  delta State.cfgMismatch
  simp only [guarded_mk, steady_mk, steady_eta, closed_mk, closed_eta, guarded_eta, guarded_fold, guarded_if, ite_self, implies_true, State.modTwSeg_guarded, State.raise_guarded]

theorem State.adopt_guarded (s : State) (o : TwinOut) : (s.adopt o).guarded = s.guarded := by
  cases o with
  | configCrc c =>
    simp only [State.adopt]
    split
    · exact State.cfgMismatch_guarded ..
    · rfl
  | degradeHalve k => simp only [State.adopt, State.degradeAs_guarded]
  | degradeStop k => simp only [State.adopt, State.degradeAs_guarded]
  | resampleSwap a => simp only [State.adopt, State.modAxis_guarded]
  | resampleAbort a => simp only [State.adopt, State.modAxis_guarded]
  | identEnd a r => simp only [State.adopt, State.identAs_guarded]
  | axisFault a c => simp only [State.adopt, State.axisStop_guarded]
  | safeHold => exact (guarded_tw (s.holdAxes srcTwin 0) _).trans (State.holdAxes_guarded s srcTwin 0)
  | handover n => simp only [State.adopt, guarded_mk, guarded_eta]
  | ringIndices r p c => simp only [State.adopt, State.takeIndices_guarded]

theorem execOutReceived_guarded (t : Nat) (o : TwinOut) (s : State) (s' : State)
    (hs : execOutReceived t o s = .next s') : s'.guarded = s.guarded := by
  refine does_guarded _ _ _ (fun z => ?_) s' hs
  simp only [guarded_mk, steady_mk, steady_eta, closed_mk, closed_eta, guarded_eta, guarded_fold, guarded_if, ite_self, implies_true, State.adopt_guarded, State.postReady_guarded]

theorem execEvtReceived_guarded (t : Nat) (mark : List Byte) (s : State) (s' : State)
    (hs : execEvtReceived t mark s = .next s') : s'.guarded = s.guarded := by
  refine does_guarded _ _ _ (fun z => ?_) s' hs
  simp only [guarded_mk, steady_mk, steady_eta, closed_mk, closed_eta, guarded_eta, guarded_fold, guarded_if, ite_self, implies_true, State.post_guarded]

theorem State.blkCam_guarded (s : State) (ident tag m off : Nat) (data : List Byte) :
    (State.blkCam s ident tag m off data).guarded = s.guarded := by
  delta State.blkCam
  simp only [guarded_mk, steady_mk, steady_eta, closed_mk, closed_eta, guarded_eta, guarded_fold, guarded_if, ite_self, implies_true]

theorem State.blkUnit_guarded (s : State) (k ident tag m off : Nat) (data : List Byte) :
    (State.blkUnit s k ident tag m off data).guarded = s.guarded := by
  delta State.blkUnit
  simp only [guarded_mk, steady_mk, steady_eta, closed_mk, closed_eta, guarded_eta, guarded_fold, guarded_if, ite_self, implies_true, State.modTwSeg_guarded]

theorem execBlkReceived_guarded (t seg unit tag minor off : Nat) (crcOk : Bool) (data : List Byte) (s : State) (s' : State)
    (hs : execBlkReceived t seg unit tag minor off crcOk data s = .next s') : s'.guarded = s.guarded := by
  refine does_guarded _ _ _ (fun z => ?_) s' hs
  simp only [guarded_mk, steady_mk, steady_eta, closed_mk, closed_eta, guarded_eta, guarded_fold, guarded_if, ite_self, implies_true, State.blkCam_guarded, State.blkUnit_guarded, State.sendTwin_guarded]

theorem State.sendAxisUnit_guarded (s : State) (a : Nat) :
    (State.sendAxisUnit s a).guarded = s.guarded := by
  delta State.sendAxisUnit
  first
  | (simp only [guarded_mk, steady_mk, steady_eta, closed_mk, closed_eta, guarded_eta, guarded_fold, guarded_if, ite_self, implies_true, State.sendBytes_guarded]; done)
  | ((try extract_lets) <;> (repeat' split) <;> (try with_reducible rfl) <;>
    (simp +zetaDelta only [guarded_mk, steady_mk, steady_eta, closed_mk, closed_eta, guarded_eta, guarded_fold, guarded_if, ite_self, implies_true, State.sendBytes_guarded]) <;> (repeat' split) <;> (try with_reducible rfl) <;>
    simp +zetaDelta only [guarded_mk, steady_mk, steady_eta, closed_mk, closed_eta, guarded_eta, guarded_fold, guarded_if, ite_self, implies_true, State.sendBytes_guarded]; done)
  | ((repeat' first | (refine (guarded_fold _ (fun s x => ?_) _ _).trans ?_) | (extract_lets; done) | split) <;>
    (try with_reducible rfl) <;> (simp +zetaDelta only [guarded_mk, steady_mk, steady_eta, closed_mk, closed_eta, guarded_eta, guarded_fold, guarded_if, ite_self, implies_true, State.sendBytes_guarded]) <;> (repeat' split) <;>
    (try with_reducible rfl) <;> simp +zetaDelta only [guarded_mk, steady_mk, steady_eta, closed_mk, closed_eta, guarded_eta, guarded_fold, guarded_if, ite_self, implies_true, State.sendBytes_guarded]; done)

theorem execReqReceived_guarded (t off : Nat) (s : State) (s' : State)
    (hs : execReqReceived t off s = .next s') : s'.guarded = s.guarded := by
  refine does_guarded _ _ _ (fun z => ?_) s' hs
  simp only [guarded_mk, steady_mk, steady_eta, closed_mk, closed_eta, guarded_eta, guarded_fold, guarded_if, ite_self, implies_true, State.sendAxisUnit_guarded, State.sendTwin_guarded]

theorem State.reaccept_guarded (s : State) (e : Entry) :
    (State.reaccept s e).guarded = s.guarded := by
  delta State.reaccept
  first
  | (simp only [guarded_mk, steady_mk, steady_eta, closed_mk, closed_eta, guarded_eta, guarded_fold, guarded_if, ite_self, implies_true, State.modEntry_guarded, State.reject_guarded]; done)
  | ((try extract_lets) <;> (repeat' split) <;> (try with_reducible rfl) <;>
    (simp +zetaDelta only [guarded_mk, steady_mk, steady_eta, closed_mk, closed_eta, guarded_eta, guarded_fold, guarded_if, ite_self, implies_true, State.modEntry_guarded, State.reject_guarded]) <;> (repeat' split) <;> (try with_reducible rfl) <;>
    simp +zetaDelta only [guarded_mk, steady_mk, steady_eta, closed_mk, closed_eta, guarded_eta, guarded_fold, guarded_if, ite_self, implies_true, State.modEntry_guarded, State.reject_guarded]; done)
  | ((repeat' first | (refine (guarded_fold _ (fun s x => ?_) _ _).trans ?_) | (extract_lets; done) | split) <;>
    (try with_reducible rfl) <;> (simp +zetaDelta only [guarded_mk, steady_mk, steady_eta, closed_mk, closed_eta, guarded_eta, guarded_fold, guarded_if, ite_self, implies_true, State.modEntry_guarded, State.reject_guarded]) <;> (repeat' split) <;>
    (try with_reducible rfl) <;> simp +zetaDelta only [guarded_mk, steady_mk, steady_eta, closed_mk, closed_eta, guarded_eta, guarded_fold, guarded_if, ite_self, implies_true, State.modEntry_guarded, State.reject_guarded]; done)

theorem State.leadSeg_guarded (s : State) (k : Nat) :
    (State.leadSeg s k).guarded = s.guarded := by
  delta State.leadSeg
  simp only [guarded_mk, steady_mk, steady_eta, closed_mk, closed_eta, guarded_eta, guarded_fold, guarded_if, ite_self, implies_true, State.modSeg_guarded, State.modTwSeg_guarded, State.openRing_guarded, State.segmentStop_guarded]

theorem State.keepCpl_guarded (s : State) (e : Entry) :
    (State.keepCpl s e).guarded = s.guarded := by
  delta State.keepCpl
  first
  | (simp only [guarded_mk, steady_mk, steady_eta, closed_mk, closed_eta, guarded_eta, guarded_fold, guarded_if, ite_self, implies_true, State.modEntry_guarded]; done)
  | ((try extract_lets) <;> (repeat' split) <;> (try with_reducible rfl) <;>
    (simp +zetaDelta only [guarded_mk, steady_mk, steady_eta, closed_mk, closed_eta, guarded_eta, guarded_fold, guarded_if, ite_self, implies_true, State.modEntry_guarded]) <;> (repeat' split) <;> (try with_reducible rfl) <;>
    simp +zetaDelta only [guarded_mk, steady_mk, steady_eta, closed_mk, closed_eta, guarded_eta, guarded_fold, guarded_if, ite_self, implies_true, State.modEntry_guarded]; done)
  | ((repeat' first | (refine (guarded_fold _ (fun s x => ?_) _ _).trans ?_) | (extract_lets; done) | split) <;>
    (try with_reducible rfl) <;> (simp +zetaDelta only [guarded_mk, steady_mk, steady_eta, closed_mk, closed_eta, guarded_eta, guarded_fold, guarded_if, ite_self, implies_true, State.modEntry_guarded]) <;> (repeat' split) <;>
    (try with_reducible rfl) <;> simp +zetaDelta only [guarded_mk, steady_mk, steady_eta, closed_mk, closed_eta, guarded_eta, guarded_fold, guarded_if, ite_self, implies_true, State.modEntry_guarded]; done)

theorem State.changeOver_guarded (s : State) :
    (State.changeOver s).guarded = s.guarded := by
  delta State.changeOver
  simp only [guarded_mk, steady_mk, steady_eta, closed_mk, closed_eta, guarded_eta, guarded_fold, guarded_if, ite_self, implies_true, State.holdAxes_guarded, State.integrated_guarded, State.keepCpl_guarded, State.leadSeg_guarded, State.postReady_guarded, State.raise_guarded, State.reaccept_guarded, State.safeHold_guarded, State.setMode_guarded]

theorem execChangeover_guarded (t : Nat) (s : State) (s' : State)
    (hs : execChangeover t s = .next s') : s'.guarded = s.guarded := by
  refine does_guarded _ _ _ (fun z => ?_) s' hs
  simp only [guarded_mk, steady_mk, steady_eta, closed_mk, closed_eta, guarded_eta, guarded_fold, guarded_if, ite_self, implies_true, State.changeOver_guarded]

theorem execTwinDualLeader_guarded (t : Nat) (s : State) (s' : State)
    (hs : execTwinDualLeader t s = .next s') : s'.guarded = s.guarded := by
  refine does_guarded _ _ _ (fun z => ?_) s' hs
  simp only [guarded_mk, steady_mk, steady_eta, closed_mk, closed_eta, guarded_eta, guarded_fold, guarded_if, ite_self, implies_true, State.raise_guarded]

theorem State.modPw_guarded (s : State) (f : Power → Power) (h : (f s.pw).steady = s.pw.steady) : (s.modPw f).guarded = s.guarded := by
  simp only [State.modPw, State.guarded, h]

theorem State.powerUp_guarded (s : State) : s.powerUp.guarded = s.guarded := by
  have fold : ∀ (l : List Nat) (p : Power), (l.foldl Power.domainUp p).steady = p.steady := by
    intro l
    induction l with
    | nil => intro p; rfl
    | cons a r ih => intro p; rw [List.foldl_cons, ih]; rfl
  delta State.powerUp
  extract_lets s1
  have h1 : s1.guarded = s.guarded := State.modPw_guarded _ _ (fold _ _)
  clear_value s1
  split
  · rw [State.refStart_guarded, h1]
  · exact h1

theorem State.mayBoot_guarded (s : State) :
    (State.mayBoot s).guarded = s.guarded := by
  delta State.mayBoot
  simp only [guarded_mk, steady_mk, steady_eta, closed_mk, closed_eta, guarded_eta, guarded_fold, guarded_if, ite_self, implies_true, State.powerUp_guarded, State.setMode_guarded]

theorem execPowerDomainUp_guarded (t domain : Nat) (s : State) (s' : State)
    (hs : execPowerDomainUp t domain s = .next s') : s'.guarded = s.guarded := by
  refine does_guarded _ _ _ (fun z => ?_) s' hs
  extract_lets due s1
  have h1 : s1.guarded = z.guarded := State.modPw_guarded z _ (steady_dom _ _)
  clear_value s1
  split
  · rfl
  · split
    · rw [State.refStart_guarded, h1]
    · exact h1

theorem State.encRailLost_guarded (s : State) (five : Bool) :
    (State.encRailLost s five).guarded = s.guarded := by
  delta State.encRailLost
  simp only [guarded_mk, steady_mk, steady_eta, closed_mk, closed_eta, guarded_eta, guarded_fold, guarded_if, ite_self, implies_true, State.supplyOvl_guarded]

theorem State.applyRecords_guarded (s : State) (n : Nat) (b : List Byte) (i : Nat) (s' : State) (h : s.applyRecords n b i = .inl s') : s'.guarded = s.guarded := by
  induction n generalizing s b i with
  | zero => simp only [State.applyRecords, Sum.inl.injEq] at h; rw [h]
  | succ n ih =>
    unfold State.applyRecords at h
    extract_lets off v s2 at h
    split at h
    · cases h
    · split at h
      · cases h
      · rw [ih _ _ _ h]; exact State.regWrite_guarded ..

theorem State.loadCam_guarded (s : State) (c : Nat) :
    (State.loadCam s c).guarded = s.guarded := by
  delta State.loadCam
  simp only [guarded_mk, steady_mk, steady_eta, closed_mk, closed_eta, guarded_eta, guarded_fold, guarded_if, ite_self, implies_true, State.modNv_guarded]

theorem State.loadCams_guarded (s : State) :
    (State.loadCams s).guarded = s.guarded := by
  delta State.loadCams
  simp only [guarded_mk, steady_mk, steady_eta, closed_mk, closed_eta, guarded_eta, guarded_fold, guarded_if, ite_self, implies_true, State.loadCam_guarded]

theorem State.leaveBoot_guarded (s : State) (m : DevMode) :
    (State.leaveBoot s m).guarded = s.guarded := by
  delta State.leaveBoot
  simp only [guarded_mk, steady_mk, steady_eta, closed_mk, closed_eta, guarded_eta, guarded_fold, guarded_if, ite_self, implies_true, State.enter_guarded, State.supplyOn_guarded]

theorem State.bootFail_guarded (s : State) (err rec_ : Nat) :
    (State.bootFail s err rec_).guarded = s.guarded := by
  delta State.bootFail
  simp only [guarded_mk, steady_mk, steady_eta, closed_mk, closed_eta, guarded_eta, guarded_fold, guarded_if, ite_self, implies_true, State.leaveBoot_guarded, State.modNv_guarded]

theorem bootTail_guarded (s : State) (f : Nv → Nv) (hf : (f s.discard.loadCams.nv).pages = s.discard.loadCams.nv.pages)
    (m : DevMode) : ((s.discard.loadCams.modNv f).leaveBoot m).guarded = s.guarded :=
  (State.leaveBoot_guarded _ _).trans ((State.modNv_guarded _ _ hf).trans
    ((State.loadCams_guarded _).trans (State.discard_guarded _)))

theorem bootApply_guarded (s : State) (r : State ⊕ (Nat × Nat)) (hr : ∀ z, r = .inl z → z.guarded = s.guarded)
    (f : Nv → Nv) (hf : ∀ v, (f v).pages = v.pages) (m : State → DevMode) (e : Nat × Nat → Nat) :
    (match r with
      | .inr x => s.bootFail x.1 (e x)
      | .inl z => ((z.discard.loadCams.modNv f).leaveBoot (m (z.discard.loadCams.modNv f)))).guarded = s.guarded := by
  cases r with
  | inr x => exact State.bootFail_guarded _ _ _
  | inl z => exact (bootTail_guarded z f (hf _) _).trans (hr z rfl)

theorem execBootComplete_guarded (t : Nat) (rankBall : Bool) (s : State) (s' : State)
    (hs : execBootComplete t rankBall s = .next s') : s'.guarded = s.guarded := by
  refine does_guarded _ _ _ (fun z => ?_) s' hs
  split
  · rfl
  · extract_lets p s1
    have h1 : s1.guarded = z.guarded := guarded_tw _ _
    clear_value s1
    split
    · exact (State.bootFail_guarded _ _ _).trans h1
    · split
      · exact (State.bootFail_guarded _ _ _).trans h1
      · next b hb =>
        exact (bootApply_guarded s1 (s1.applyRecords ((s1.nv.imageBody b).length / 8) (s1.nv.imageBody b) 0)
          (fun z h => State.applyRecords_guarded _ _ _ _ _ h) (fun v => { v with ledgerPage := v.nextLedger }) (fun _ => rfl)
          (fun w => if byteAt (w.nv.imageHead b) 16 = 0 then .idle else .commission)
          (fun e => if e.1 = 2 ∨ e.1 = 3 then e.2 else 0)).trans h1

theorem execEccCorr_guarded (t src addr syndrome bit axis : Nat) (s : State) (s' : State)
    (hs : execEccCorr t src addr syndrome bit axis s = .next s') : s'.guarded = s.guarded := by
  refine does_guarded _ _ _ (fun z => ?_) s' hs
  simp only [guarded_mk, steady_mk, steady_eta, closed_mk, closed_eta, guarded_eta, guarded_fold, guarded_if, ite_self, implies_true, State.raise_guarded]

theorem State.asbLost_guarded (s : State) (src addr axis : Nat) (detail : List Byte) :
    (State.asbLost s src addr axis detail).guarded = s.guarded := by
  delta State.asbLost
  first
  | (simp only [guarded_mk, steady_mk, steady_eta, closed_mk, closed_eta, guarded_eta, guarded_fold, guarded_if, ite_self, implies_true, State.modTwSeg_guarded, State.raiseDone_guarded, State.sendTwin_guarded, State.takeReaction_guarded]; done)
  | ((try extract_lets) <;> (repeat' split) <;> (try with_reducible rfl) <;>
    (simp +zetaDelta only [guarded_mk, steady_mk, steady_eta, closed_mk, closed_eta, guarded_eta, guarded_fold, guarded_if, ite_self, implies_true, State.modTwSeg_guarded, State.raiseDone_guarded, State.sendTwin_guarded, State.takeReaction_guarded]) <;> (repeat' split) <;> (try with_reducible rfl) <;>
    simp +zetaDelta only [guarded_mk, steady_mk, steady_eta, closed_mk, closed_eta, guarded_eta, guarded_fold, guarded_if, ite_self, implies_true, State.modTwSeg_guarded, State.raiseDone_guarded, State.sendTwin_guarded, State.takeReaction_guarded]; done)
  | ((repeat' first | (refine (guarded_fold _ (fun s x => ?_) _ _).trans ?_) | (extract_lets; done) | split) <;>
    (try with_reducible rfl) <;> (simp +zetaDelta only [guarded_mk, steady_mk, steady_eta, closed_mk, closed_eta, guarded_eta, guarded_fold, guarded_if, ite_self, implies_true, State.modTwSeg_guarded, State.raiseDone_guarded, State.sendTwin_guarded, State.takeReaction_guarded]) <;> (repeat' split) <;>
    (try with_reducible rfl) <;> simp +zetaDelta only [guarded_mk, steady_mk, steady_eta, closed_mk, closed_eta, guarded_eta, guarded_fold, guarded_if, ite_self, implies_true, State.modTwSeg_guarded, State.raiseDone_guarded, State.sendTwin_guarded, State.takeReaction_guarded]; done)

theorem State.valleyLost_guarded (s : State) (obj : Nat) :
    (State.valleyLost s obj).guarded = s.guarded := by
  delta State.valleyLost
  simp only [guarded_mk, steady_mk, steady_eta, closed_mk, closed_eta, guarded_eta, guarded_fold, guarded_if, ite_self, implies_true, State.modAxis_guarded, State.modCGroup_guarded]

theorem State.identsLost_guarded (s : State) :
    (State.identsLost s).guarded = s.guarded := by
  delta State.identsLost
  simp only [guarded_mk, steady_mk, steady_eta, closed_mk, closed_eta, guarded_eta, guarded_fold, guarded_if, ite_self, implies_true, State.identOver_guarded, State.modAxis_guarded]

theorem State.spineLost_guarded (s : State) (src addr obj : Nat) (detail : List Byte) :
    (State.spineLost s src addr obj detail).guarded = s.guarded := by
  delta State.spineLost
  simp only [guarded_mk, steady_mk, steady_eta, closed_mk, closed_eta, guarded_eta, guarded_fold, guarded_if, ite_self, implies_true, State.axisStops_guarded, State.fenceAnew_guarded, State.identsLost_guarded, State.modConv_guarded, State.notReady_guarded, State.raiseDone_guarded, State.takeReaction_guarded, State.tellFaults_guarded]

theorem execEccDouble_guarded (t src addr syndrome obj : Nat) (s : State) (s' : State)
    (hs : execEccDouble t src addr syndrome obj s = .next s') : s'.guarded = s.guarded := by
  refine does_guarded _ _ _ (fun z => ?_) s' hs
  simp only [guarded_mk, steady_mk, steady_eta, closed_mk, closed_eta, guarded_eta, guarded_fold, guarded_if, ite_self, implies_true, State.asbLost_guarded, State.fenceHammer_guarded, State.postReady_guarded, State.raiseDone_guarded, State.spineLost_guarded, State.valleyLost_guarded]

theorem execParity_guarded (t src addr : Nat) (s : State) (s' : State)
    (hs : execParity t src addr s = .next s') : s'.guarded = s.guarded := by
  refine does_guarded _ _ _ (fun z => ?_) s' hs
  first
  | (simp only [guarded_mk, steady_mk, steady_eta, closed_mk, closed_eta, guarded_eta, guarded_fold, guarded_if, ite_self, implies_true, State.dropRun_guarded, State.fenceAnew_guarded, State.fenceBench_guarded, State.fenceHammer_guarded, State.fenceValley_guarded, State.modJob_guarded, State.postReady_guarded, State.raiseDone_guarded, State.reissueAfterFault_guarded]; done)
  | ((try extract_lets) <;> (repeat' split) <;> (try with_reducible rfl) <;>
    (simp +zetaDelta only [guarded_mk, steady_mk, steady_eta, closed_mk, closed_eta, guarded_eta, guarded_fold, guarded_if, ite_self, implies_true, State.dropRun_guarded, State.fenceAnew_guarded, State.fenceBench_guarded, State.fenceHammer_guarded, State.fenceValley_guarded, State.modJob_guarded, State.postReady_guarded, State.raiseDone_guarded, State.reissueAfterFault_guarded]) <;> (repeat' split) <;> (try with_reducible rfl) <;>
    simp +zetaDelta only [guarded_mk, steady_mk, steady_eta, closed_mk, closed_eta, guarded_eta, guarded_fold, guarded_if, ite_self, implies_true, State.dropRun_guarded, State.fenceAnew_guarded, State.fenceBench_guarded, State.fenceHammer_guarded, State.fenceValley_guarded, State.modJob_guarded, State.postReady_guarded, State.raiseDone_guarded, State.reissueAfterFault_guarded]; done)
  | ((repeat' first | (refine (guarded_fold _ (fun s x => ?_) _ _).trans ?_) | (extract_lets; done) | split) <;>
    (try with_reducible rfl) <;> (simp +zetaDelta only [guarded_mk, steady_mk, steady_eta, closed_mk, closed_eta, guarded_eta, guarded_fold, guarded_if, ite_self, implies_true, State.dropRun_guarded, State.fenceAnew_guarded, State.fenceBench_guarded, State.fenceHammer_guarded, State.fenceValley_guarded, State.modJob_guarded, State.postReady_guarded, State.raiseDone_guarded, State.reissueAfterFault_guarded]) <;> (repeat' split) <;>
    (try with_reducible rfl) <;> simp +zetaDelta only [guarded_mk, steady_mk, steady_eta, closed_mk, closed_eta, guarded_eta, guarded_fold, guarded_if, ite_self, implies_true, State.dropRun_guarded, State.fenceAnew_guarded, State.fenceBench_guarded, State.fenceHammer_guarded, State.fenceValley_guarded, State.modJob_guarded, State.postReady_guarded, State.raiseDone_guarded, State.reissueAfterFault_guarded]; done)

end Sys2Proof.Machine
end

