-- ==== Sys2Proof/Laws/Island.lean ====
section
/-! SUPPORT. The operations that Laws/Guarded.lean leaves out: those that open safety outputs, those of the package
supervisor and those that write a page of the NV store. -/

set_option linter.unusedSimpArgs false
set_option linter.unusedVariables false

namespace Sys2Proof.Machine

/-- The package supervisor apart, `s'` differs from `s` in nothing that few operations touch, but that safety outputs may
be open that were closed. -/
structure Opens (s s' : State) : Prop where
  pages : s'.nv.pages = s.nv.pages
  tap : s'.tap = s.tap
  tapReset : s'.tapReset = s.tapReset
  closed : ∀ k, s'.saf.closed k = true → s.saf.closed k = true

/-- The same, with the supplies left alone. -/
structure Shuts (s s' : State) : Prop extends Opens s s' where
  steady : s'.pw.steady = s.pw.steady

theorem Opens.refl (s : State) : Opens s s := ⟨rfl, rfl, rfl, fun _ h => h⟩

theorem Shuts.refl (s : State) : Shuts s s := ⟨Opens.refl s, rfl⟩

theorem Opens.trans {a b c : State} (h : Opens a b) (g : Opens b c) : Opens a c :=
  ⟨g.pages.trans h.pages, g.tap.trans h.tap, g.tapReset.trans h.tapReset, fun k x => h.closed k (g.closed k x)⟩

theorem Shuts.trans {a b c : State} (h : Shuts a b) (g : Shuts b c) : Shuts a c :=
  ⟨h.toOpens.trans g.toOpens, g.steady.trans h.steady⟩

theorem Shuts.of_guarded {s s' : State} (h : s'.guarded = s.guarded) : Shuts s s' := by
  have h1 : s'.pw.steady = s.pw.steady := congrArg (fun x => x.1) h
  have h2 : s'.nv.pages = s.nv.pages := congrArg (fun x => x.2.1) h
  have h3 : s'.tap = s.tap := congrArg (fun x => x.2.2.1) h
  have h4 : s'.tapReset = s.tapReset := congrArg (fun x => x.2.2.2.1) h
  have h5 : s'.saf.closed = s.saf.closed := congrArg (fun x => x.2.2.2.2) h
  exact ⟨⟨h2, h3, h4, fun k x => by rw [← h5]; exact x⟩, h1⟩

theorem Opens.of_guarded {s s' : State} (h : s'.guarded = s.guarded) : Opens s s' := (Shuts.of_guarded h).toOpens

theorem Shuts.fold {α : Type} (g : State → α → State) (h : ∀ s x, Shuts s (g s x)) (l : List α) (s : State) :
    Shuts s (l.foldl g s) := by
  induction l generalizing s with
  | nil => exact Shuts.refl s
  | cons a r ih => rw [List.foldl_cons]; exact (h s a).trans (ih _)

/-- One step of a chain: the last operation leaves alone what few operations touch. -/
theorem Shuts.then {a b c : State} (h : Shuts a b) (g : c.guarded = b.guarded) : Shuts a c := h.trans (.of_guarded g)

theorem Opens.then {a b c : State} (h : Opens a b) (g : c.guarded = b.guarded) : Opens a c := h.trans (.of_guarded g)

/-! ## The safety island -/

theorem State.modOut_shuts (s : State) (k : Nat) (f : SafOut → SafOut) (h : (f (s.safOut k)).on = true → (s.safOut k).on = true) :
    Shuts s (s.modOut k f) := by
  refine ⟨⟨rfl, rfl, rfl, fun j x => ?_⟩, rfl⟩
  rw [State.modOut_closed] at x
  split at x
  · next e => rw [e]; exact h x
  · exact x

theorem State.switchOut_shuts (s : State) (k : Nat) : Shuts s (s.switchOut k false) := by
  delta State.switchOut
  extract_lets s1
  split
  · exact .refl s
  · have h1 : Shuts s s1 := State.modOut_shuts _ _ _ (fun h => absurd h (by simp))
    clear_value s1
    exact (h1.then (State.emit_guarded _ _)).then (State.emit_guarded _ _)

theorem State.outsOff_shuts (s : State) : Shuts s s.outsOff := by
  refine Shuts.fold _ (fun s k => ?_) _ _
  exact (State.switchOut_shuts s k).then (State.modOut_guarded _ _ _ rfl)

/-- Switching outputs off changes the island and the outputs alone. -/
theorem State.outsOff_only (s : State) : ∃ o g, s.outsOff = { s with out := o, saf := g } := by
  have one : ∀ (s : State) (k : Nat),
      ∃ o g, ((s.switchOut k false).modOut k fun o => { o with want := false }) = { s with out := o, saf := g } := by
    intro s k
    unfold State.switchOut
    split
    · exact ⟨_, _, rfl⟩
    · exact ⟨_, _, rfl⟩
  have h : ∀ (l : List Nat) (s : State),
      ∃ o g, (l.foldl (fun s k => (s.switchOut k false).modOut k fun o => { o with want := false }) s) = { s with out := o, saf := g } := by
    intro l
    induction l with
    | nil => intro s; exact ⟨s.out, s.saf, rfl⟩
    | cons a r ih =>
      intro s
      rw [List.foldl_cons]
      obtain ⟨o, g, e⟩ := one s a
      obtain ⟨o2, g2, e2⟩ := ih ((s.switchOut a false).modOut a fun o => { o with want := false })
      rw [e2, e]
      exact ⟨o2, g2, rfl⟩
  exact h _ s

theorem State.outsOff_nv (s : State) : s.outsOff.nv = s.nv := by
  obtain ⟨o, g, e⟩ := State.outsOff_only s
  rw [e]

theorem State.lockOut_shuts (s : State) (k : Nat) : Shuts s (s.lockOut k) :=
  (Shuts.of_guarded (State.modOut_guarded _ _ _ rfl)).trans (State.switchOut_shuts _ _)

theorem State.lockout_shuts (s : State) (chB : Bool) (cause : Nat) : Shuts s (s.lockout chB cause) := by
  delta State.lockout
  extract_lets s1
  split
  · exact .refl s
  · have h1 : s1.guarded = s.guarded := (State.modSaf_guarded _ _ rfl).trans (State.setCh_guarded _ _ _)
    clear_value s1
    exact ((Shuts.of_guarded h1).trans (State.outsOff_shuts _)).then (State.safMark_guarded _ _ _ _ _)

theorem State.lockoutRun_shuts (s : State) (chB : Bool) (cause : Nat) : Shuts s (s.lockoutRun chB cause) := by
  delta State.lockoutRun
  split
  · exact State.lockout_shuts _ _ _
  · exact .refl s

theorem State.safReset_shuts (s : State) : Shuts s s.safReset := by
  delta State.safReset
  extract_lets s1
  have h1 : Shuts s s1 := State.outsOff_shuts s
  clear_value s1
  exact h1.trans ⟨⟨rfl, rfl, rfl, fun k h => (Bool.false_ne_true h).elim⟩, rfl⟩

/-- A reset of the island changes it and the outputs alone: what is left of it is the cause of LOCKOUT and the links. -/
theorem State.safReset_only (s : State) : ∃ o g, s.safReset = { s with out := o, saf := g } ∧ g.outs = [] ∧
    g.a.st = .off ∧ g.b.st = .off := by
  obtain ⟨o, g, e⟩ := State.outsOff_only s
  unfold State.safReset
  rw [e]
  exact ⟨o, _, rfl, rfl, rfl, rfl⟩

theorem State.safReset_nv (s : State) : s.safReset.nv = s.nv := by
  obtain ⟨o, g, e, -⟩ := State.safReset_only s
  rw [e]

theorem State.safLinkDown_shuts (s : State) (chB : Bool) : Shuts s (s.safLinkDown chB) := by
  delta State.safLinkDown
  extract_lets s1
  have h1 : s1.guarded = s.guarded := State.modCh_guarded _ _ _
  clear_value s1
  split
  · exact (Shuts.of_guarded h1).trans (State.lockout_shuts _ _ _)
  · exact .of_guarded h1

theorem State.safRailLost_shuts (s : State) (chB : Bool) : Shuts s (s.safRailLost chB) := by
  delta State.safRailLost
  extract_lets s1 s2
  have h1 : Shuts s s1 := (Shuts.of_guarded (State.modCh_guarded _ _ _)).trans (State.outsOff_shuts _)
  clear_value s1
  have h2 : Shuts s s2 := h1.then (State.modPw_guarded _ _ rfl)
  clear_value s2
  exact h2.trans (State.lockoutRun_shuts _ _ _)

theorem State.hearTick_shuts (s : State) (chB : Bool) : Shuts s (s.hearTick chB) := by
  delta State.hearTick
  extract_lets c ok s1
  split
  · exact .refl s
  · have h1 : s1.guarded = s.guarded := State.modCh_guarded _ _ _
    clear_value s1
    split
    · exact (Shuts.of_guarded h1).trans (State.lockoutRun_shuts _ _ _)
    · exact .of_guarded h1

theorem State.judgeDiffer_shuts (s : State) (x : Nat) : Shuts s (s.judgeDiffer x) := by
  delta State.judgeDiffer
  extract_lets s1
  have h1 : s1.guarded = s.guarded := by
    simp only [s1]
    split
    · rfl
    · exact (State.evalMark_guarded _ _ _ _).trans (State.modSaf_guarded _ _ rfl)
  clear_value s1
  split
  · split
    · exact .of_guarded (Eq.trans rfl h1)
    · exact (Shuts.of_guarded h1).trans (State.lockOut_shuts _ _)
  · exact .of_guarded (State.modSaf_guarded _ _ rfl)

theorem State.evalLock_shuts (s : State) (k kind : Nat) : Shuts s (s.evalLock k kind) :=
  (State.lockOut_shuts s k).then (State.evalMark_guarded _ _ _ _)

theorem State.evalOut_shuts (s : State) (k : Nat) : Shuts s (s.evalOut k) := by
  delta State.evalOut
  extract_lets mon s1 s2 s3 fns want
  have h1 : Shuts s s1 := by
    simp only [s1]
    split
    · exact State.evalLock_shuts _ _ _
    · exact .refl s
  clear_value s1
  have h2 : Shuts s s2 := by
    simp only [s2]
    split
    · exact h1.trans (State.evalLock_shuts _ _ _)
    · exact h1
  clear_value s2
  have h3 : Shuts s s3 := by
    simp only [s3]
    split
    · exact h2.then (State.modOut_guarded _ _ _ rfl)
    · exact h2
  clear_value s3
  split
  · exact h3.trans (State.evalLock_shuts _ _ _)
  · exact h3.then (State.modOut_guarded _ _ _ rfl)

theorem State.evaluate_shuts (s : State) : Shuts s s.evaluate := by
  delta State.evaluate
  extract_lets s1 s2 s3 s4
  have h1 : Shuts s s1 := .of_guarded (State.modSaf_guarded _ _ rfl)
  clear_value s1
  have h2 : Shuts s s2 := h1.trans (Shuts.fold _ State.judgeDiffer_shuts _ _)
  clear_value s2
  have h3 : Shuts s s3 := h2.then (guarded_fold _ State.evalPair_guarded _ _)
  clear_value s3
  have h4 : Shuts s s4 := h3.then (guarded_fold _ State.evalFn_guarded _ _)
  clear_value s4
  exact h4.trans (Shuts.fold _ State.evalOut_shuts _ _)

theorem State.raiseEval_guarded (s : State) (chB : Bool) : (s.raiseEval chB).guarded = s.guarded := by
  refine guarded_fold _ (fun s m => ?_) _ _
  split
  · exact State.safMark_guarded _ _ _ _ _
  · exact State.raise_guarded _ _ _ _ _

/-! ## The commands of the island -/

/-- A meaning does what its effect does. -/
theorem does_shuts (s : State) (t : Nat) (f : State → State) (h : ∀ z, Shuts z (f z)) (s' : State)
    (hs : s.does t f = .next s') : Shuts s s' := by
  simp only [State.does, Host.Outcome.next.injEq] at hs
  rw [← hs]
  exact ((Shuts.of_guarded (State.before_guarded s t)).trans (h _)).trans ⟨⟨rfl, rfl, rfl, fun _ x => x⟩, rfl⟩

/-- The same for effects that may change the supplies. -/
theorem does_opens (s : State) (t : Nat) (f : State → State) (h : ∀ z, Opens z (f z)) (s' : State)
    (hs : s.does t f = .next s') : Opens s s' := by
  simp only [State.does, Host.Outcome.next.injEq] at hs
  rw [← hs]
  exact ((Opens.of_guarded (State.before_guarded s t)).trans (h _)).trans ⟨rfl, rfl, rfl, fun _ x => x⟩

theorem execTickTimeout_shuts (t : Nat) (chB : Bool) (s s' : State) (hs : execTickTimeout t chB s = .next s') :
    Shuts s s' := by
  refine does_shuts _ _ _ (fun z => ?_) s' hs
  extract_lets c late
  clear_value late
  split
  · exact (Shuts.of_guarded (State.modCh_guarded _ _ _)).trans (State.lockoutRun_shuts _ _ _)
  · exact .refl z

theorem execPeerSnapshot_shuts (t : Nat) (chB : Bool) (s s' : State) (hs : execPeerSnapshot t chB s = .next s') :
    Shuts s s' := by
  refine does_shuts _ _ _ (fun z => ?_) s' hs
  split
  · exact .refl z
  · extract_lets z1
    have h1 : Shuts z z1 := .of_guarded (State.modCh_guarded _ _ _)
    clear_value z1
    split
    · exact h1.then (State.raiseEval_guarded _ _)
    · exact (h1.trans (State.evaluate_shuts z1)).then (State.raiseEval_guarded _ _)

theorem execResultCompare_shuts (t : Nat) (chB same : Bool) (s s' : State) (hs : execResultCompare t chB same s = .next s') :
    Shuts s s' := by
  refine does_shuts _ _ _ (fun z => ?_) s' hs
  split
  · exact .refl z
  · split
    · exact .of_guarded (State.modCh_guarded _ _ _)
    · exact State.lockoutRun_shuts _ _ _

theorem execPeerSilent_shuts (t : Nat) (chB : Bool) (s s' : State) (hs : execPeerSilent t chB s = .next s') : Shuts s s' := by
  refine does_shuts _ _ _ (fun z => ?_) s' hs
  split
  · exact State.lockoutRun_shuts _ _ _
  · exact .refl z

theorem execSelftestFail_shuts (t : Nat) (chB : Bool) (s s' : State) (hs : execSelftestFail t chB s = .next s') :
    Shuts s s' := by
  refine does_shuts _ _ _ (fun z => ?_) s' hs
  split
  · exact (Shuts.of_guarded (State.modCh_guarded _ _ _)).trans (State.lockout_shuts _ _ _)
  · exact .refl z

theorem execOutputReadbackCheck_shuts (t out : Nat) (mvA mvB mvSafe : Int) (s s' : State)
    (hs : execOutputReadbackCheck t out mvA mvB mvSafe s = .next s') : Shuts s s' := by
  refine does_shuts _ _ _ (fun z => ?_) s' hs
  extract_lets o low top age pulsing bad
  split
  · exact (State.lockOut_shuts _ _).then (State.safBoth_guarded _ _ _)
  · exact .refl z

theorem execSafOverload_shuts (t out : Nat) (s s' : State) (hs : execSafOverload t out s = .next s') : Shuts s s' := by
  refine does_shuts _ _ _ (fun z => ?_) s' hs
  split
  · exact ((State.lockOut_shuts _ _).then (State.modOut_guarded _ _ _ rfl)).then (State.safBoth_guarded _ _ _)
  · exact .refl z

theorem execFeedbackTimeout_shuts (t out : Nat) (s s' : State) (hs : execFeedbackTimeout t out s = .next s') :
    Shuts s s' := by
  refine does_shuts _ _ _ (fun z => ?_) s' hs
  split
  · exact (State.lockOut_shuts _ _).then (State.safBoth_guarded _ _ _)
  · exact .refl z

theorem execLinkDown_shuts (t link : Nat) (s s' : State) (hs : execLinkDown t link s = .next s') : Shuts s s' := by
  refine does_shuts _ _ _ (fun z => ?_) s' hs
  extract_lets src s1 code s2 s3
  split
  · exact .refl z
  · have h1 : s1.guarded = z.guarded := (State.liveOn_guarded _ _ _).trans (State.modPw_guarded _ _ rfl)
    clear_value s1
    have h2 : s2.guarded = z.guarded := (State.takeReaction_guarded _ _ _ _ _ _).trans ((State.raiseDone_guarded _ _ _ _ _ _).trans h1)
    clear_value s2
    have h3 : Shuts z s3 := by
      simp only [s3]
      split
      · exact (Shuts.of_guarded h2).trans (State.safLinkDown_shuts _ _)
      · split
        · exact (Shuts.of_guarded h2).trans (State.safLinkDown_shuts _ _)
        · split
          · exact .of_guarded ((State.nvFail_guarded _).trans ((State.fenceAnew_guarded _ _ _).trans h2))
          · exact .of_guarded h2
    clear_value s3
    exact h3.then (State.postReady_guarded _)

end Sys2Proof.Machine
end

