-- ==== Sys2Proof/Laws/Outputs.lean ====
section
/-! SUPPORT. What the operations of the safety island on outputs and channels do, each said once: switching an output,
locking one, switching all off, and LOCKOUT of a channel. -/

namespace Sys2Proof.Machine

/-- Reading an output after a change of one. -/
theorem State.modOut_safOut (s : State) (k j : Nat) (f : SafOut → SafOut) :
    (s.modOut k f).safOut j = if j = k then f (s.safOut k) else s.safOut j := SMap.get_put _ _ _ _ _

/-- `w` is `s` but for the island's outputs and what was sent. -/
def State.OutsOf (s w : State) : Prop := ∃ o l, w = { s with out := o, saf := { s.saf with outs := l } }

theorem State.OutsOf.trans {a b c : State} (h : a.OutsOf b) (g : b.OutsOf c) : a.OutsOf c := by
  obtain ⟨o, l, rfl⟩ := h
  obtain ⟨o', l', rfl⟩ := g
  exact ⟨o', l', rfl⟩

theorem State.modOut_only (s : State) (k : Nat) (f : SafOut → SafOut) : s.OutsOf (s.modOut k f) := ⟨_, _, rfl⟩

/-- Switching an output changes the island's outputs and what was sent, and of the outputs that one: it is as wanted, and what
else it holds but the time of the change and a test pulse stays. -/
theorem State.switchOut_spec (s : State) (k : Nat) (on : Bool) :
    s.OutsOf (s.switchOut k on) ∧
      ((s.switchOut k on).safOut k).on = on ∧ ((s.switchOut k on).safOut k).want = (s.safOut k).want ∧
      ((s.switchOut k on).safOut k).locked = (s.safOut k).locked ∧ ((s.switchOut k on).safOut k).ovl = (s.safOut k).ovl ∧
      ∀ j, j ≠ k → (s.switchOut k on).safOut j = s.safOut j := by
  by_cases h : (s.safOut k).on = on
  · have e : s.switchOut k on = s := by unfold State.switchOut; rw [if_pos h]
    rw [e]
    exact ⟨⟨_, _, rfl⟩, h, rfl, rfl, rfl, fun _ _ => rfl⟩
  · have e : s.switchOut k on =
        ((s.modOut k fun o => { o with on := on, changedAt := s.raw, testing := false }).emit (.safety false k on)).emit
          (.safety true k on) := by unfold State.switchOut; rw [if_neg h]
    have g : ∀ j, (s.switchOut k on).safOut j =
        if j = k then { s.safOut k with on := on, changedAt := s.raw, testing := false } else s.safOut j := by
      intro j; rw [e]
      show (s.modOut k fun o => { o with on := on, changedAt := s.raw, testing := false }).safOut j = _
      exact State.modOut_safOut s k j _
    refine ⟨by rw [e]; exact ⟨_, _, rfl⟩, ?_, ?_, ?_, ?_, fun j hj => ?_⟩
    · rw [g, if_pos rfl]
    · rw [g, if_pos rfl]
    · rw [g, if_pos rfl]
    · rw [g, if_pos rfl]
    · rw [g, if_neg hj]

/-- A LOCKED output is off and wanted no longer, and every other output is left alone. -/
theorem State.lockOut_spec (s : State) (k : Nat) :
    s.OutsOf (s.lockOut k) ∧
      ((s.lockOut k).safOut k).on = false ∧ ((s.lockOut k).safOut k).want = false ∧ ((s.lockOut k).safOut k).locked = true ∧
      ((s.lockOut k).safOut k).ovl = (s.safOut k).ovl ∧ ∀ j, j ≠ k → (s.lockOut k).safOut j = s.safOut j := by
  obtain ⟨h1, h2, h3, h4, h5, h6⟩ := State.switchOut_spec (s.modOut k fun o => { o with locked := true, want := false }) k false
  have g : (s.modOut k fun o => { o with locked := true, want := false }).safOut k =
      { s.safOut k with locked := true, want := false } := by rw [State.modOut_safOut, if_pos rfl]
  refine ⟨(State.modOut_only s k _).trans h1, h2, ?_, ?_, ?_, fun j hj => ?_⟩
  · unfold State.lockOut; rw [h3, g]
  · unfold State.lockOut; rw [h4, g]
  · unfold State.lockOut; rw [h5, g]
  · unfold State.lockOut; rw [h6 j hj, State.modOut_safOut, if_neg hj]

/-- Every output of the block is off and unwanted after all are switched off; what else an output is told to be stays. -/
theorem State.outsOff_spec (s : State) :
    s.OutsOf s.outsOff ∧
      (∀ k, k < 8 → (s.outsOff.safOut k).on = false ∧ (s.outsOff.safOut k).want = false) ∧
      (∀ k, (s.outsOff.safOut k).locked = (s.safOut k).locked) ∧ ∀ k, 8 ≤ k → s.outsOff.safOut k = s.safOut k := by
  let one : State → Nat → State := fun s k => (s.switchOut k false).modOut k fun o => { o with want := false }
  have h : ∀ (l : List Nat) (s : State),
      s.OutsOf (l.foldl one s) ∧
        (∀ k, k ∈ l ∨ ((s.safOut k).on = false ∧ (s.safOut k).want = false) →
          ((l.foldl one s).safOut k).on = false ∧ ((l.foldl one s).safOut k).want = false) ∧
        (∀ k, ((l.foldl one s).safOut k).locked = (s.safOut k).locked) ∧
        ∀ k, k ∉ l → (l.foldl one s).safOut k = s.safOut k := by
    intro l
    induction l with
    | nil => exact fun s => ⟨⟨_, _, rfl⟩, fun k h => h.elim (fun h => absurd h (by simp)) id, fun _ => rfl, fun _ _ => rfl⟩
    | cons a r ih =>
      intro s
      rw [List.foldl_cons]
      obtain ⟨e, h1, h2, h3⟩ := ih (one s a)
      obtain ⟨g1, g2, g3, g4, g5, g6⟩ := State.switchOut_spec s a false
      have ga : (one s a).safOut a = { (s.switchOut a false).safOut a with want := false } := by
        show (State.modOut _ _ _).safOut a = _
        rw [State.modOut_safOut, if_pos rfl]
      have gn : ∀ k, k ≠ a → (one s a).safOut k = s.safOut k := by
        intro k hk
        show (State.modOut _ _ _).safOut k = _
        rw [State.modOut_safOut, if_neg hk, g6 k hk]
      refine ⟨(g1.trans (State.modOut_only _ _ _)).trans e, fun k hk => ?_, fun k => ?_, fun k hk => ?_⟩
      · apply h1
        by_cases hka : k = a
        · right; rw [hka, ga]; exact ⟨g2, rfl⟩
        · rcases hk with hk | hk
          · rcases List.mem_cons.mp hk with hk | hk
            · exact absurd hk hka
            · exact .inl hk
          · right; rw [gn k hka]; exact hk
      · rw [h2]
        by_cases hka : k = a
        · rw [hka, ga]; exact g4
        · rw [gn k hka]
      · rw [h3 k (fun h => hk (List.mem_cons_of_mem _ h)), gn k (fun h => hk (h ▸ List.mem_cons_self))]
  obtain ⟨e, h1, h2, h3⟩ := h (List.range 8) s
  exact ⟨e, fun k hk => h1 k (.inl (List.mem_range.mpr hk)), h2, fun k hk => h3 k (by simp; omega)⟩

/-- Raising a mark changes the assay unit alone, and what waits for release ends with the mark. -/
theorem State.raise_spec (s : State) (src kind addr : Nat) (d : List Byte) :
    ∃ m a, s.raise src kind addr d = { s with asy := a } ∧ a.held = s.asy.held ++ [m] ∧ m.src = src ∧ m.kind = kind ∧ m.addr = addr :=
  ⟨_, _, rfl, rfl, rfl, rfl, rfl⟩

/-- A channel's state after a change of it. -/
theorem State.modCh_ch (s : State) (b c : Bool) (f : SafCh → SafCh) :
    (s.modCh b f).ch c = if c = b then f (s.ch b) else s.ch c := by cases b <;> cases c <;> rfl

/-- The end of a channel's entry to LOCKOUT: every output off, and the second mark. -/
theorem State.lockout_end (s w z : State) (chB : Bool) (cause : Nat) (m : Mark) (e : z = w.outsOff.safMark chB 0xC1 cause 0)
    (hs : ∃ g a, w = { s with saf := g, asy := a }) (hb : w.ch chB = { s.ch chB with st := .lockout })
    (hn : w.ch (!chB) = s.ch (!chB)) (hcause : w.saf.cause = cause) (hk : ∀ k, w.safOut k = s.safOut k)
    (hh : w.asy.held = s.asy.held ++ [m]) (m2 : m.src = srcSaf chB) (m3 : m.kind = 0xC0) :
    (∃ o g a, z = { s with out := o, saf := g, asy := a }) ∧
      z.ch chB = { s.ch chB with st := .lockout } ∧ z.ch (!chB) = s.ch (!chB) ∧ z.saf.cause = cause ∧
      (∀ k, k < 8 → (z.safOut k).on = false ∧ (z.safOut k).want = false) ∧ (∀ k, (z.safOut k).locked = (s.safOut k).locked) ∧
      ∃ m n, z.asy.held = s.asy.held ++ [m, n] ∧ m.src = srcSaf chB ∧ m.kind = 0xC0 ∧ n.src = srcSaf chB ∧ n.kind = 0xC1 := by
  obtain ⟨n, a, e1, e2, e3, e4, -⟩ := State.raise_spec w.outsOff (srcSaf chB) 0xC1 0 [BitVec.ofNat 8 cause, BitVec.ofNat 8 0]
  have e0 : z = { w.outsOff with asy := a } := e.trans e1
  clear e e1
  obtain ⟨⟨o, l, g1⟩, g2, g3, -⟩ := State.outsOff_spec w
  obtain ⟨g, b, hs⟩ := hs
  have z1 : z.saf = w.outsOff.saf := by rw [e0]
  have z2 : z.saf = { w.saf with outs := l } := by rw [e0, g1]
  have zs : ∀ k, z.safOut k = w.outsOff.safOut k := by intro k; unfold State.safOut; rw [z1]
  have zc : ∀ c, z.ch c = w.ch c := by intro c; unfold State.ch; rw [z2]
  refine ⟨?_, ?_, ?_, ?_, fun k h => ?_, fun k => ?_, m, n, ?_, m2, m3, e3, e4⟩
  · rw [e0, g1, hs]; exact ⟨_, _, _, rfl⟩
  · rw [zc, hb]
  · rw [zc, hn]
  · rw [e0, g1]; exact hcause
  · rw [zs]; exact g2 k h
  · rw [zs, g3, hk]
  · have : z.asy.held = a.held := by rw [e0]
    have h2 : w.outsOff.asy.held = w.asy.held := by rw [g1]
    rw [this, e2, h2, hh, List.append_assoc]; rfl

/-- A channel that is not in LOCKOUT enters it: the cause is recorded, its two marks are raised in order, every output goes off, and
the other channel and the rest of the machine stay. -/
theorem State.lockout_spec (s : State) (chB : Bool) (cause : Nat) (h : (s.ch chB).st ≠ .lockout) :
    (∃ o g a, s.lockout chB cause = { s with out := o, saf := g, asy := a }) ∧
      (s.lockout chB cause).ch chB = { s.ch chB with st := .lockout } ∧ (s.lockout chB cause).ch (!chB) = s.ch (!chB) ∧
      (s.lockout chB cause).saf.cause = cause ∧
      (∀ k, k < 8 → ((s.lockout chB cause).safOut k).on = false ∧ ((s.lockout chB cause).safOut k).want = false) ∧
      (∀ k, ((s.lockout chB cause).safOut k).locked = (s.safOut k).locked) ∧
      ∃ m n, (s.lockout chB cause).asy.held = s.asy.held ++ [m, n] ∧ m.src = srcSaf chB ∧ m.kind = 0xC0 ∧ n.src = srcSaf chB ∧
        n.kind = 0xC1 := by
  let v : State := (s.modCh chB fun c => { c with st := .lockout }).safMark chB 0xC0 0 2
  let w : State := v.modSaf fun g => { g with cause := cause }
  have ew : s.setCh chB .lockout = v := by unfold State.setCh; rw [if_neg h]; rfl
  have e : s.lockout chB cause = w.outsOff.safMark chB 0xC1 cause 0 := by
    unfold State.lockout; rw [if_neg h, ew]
  obtain ⟨m, a', v1, m1, m2, m3, -⟩ :=
    State.raise_spec (s.modCh chB fun c => { c with st := .lockout }) (srcSaf chB) 0xC0 0 [BitVec.ofNat 8 0, BitVec.ofNat 8 2]
  have hv : v = { (s.modCh chB fun c => { c with st := .lockout }) with asy := a' } := v1
  have hw : w = { (s.modCh chB fun c => { c with st := .lockout }) with
      asy := a', saf := { (s.modCh chB fun c => { c with st := .lockout }).saf with cause := cause } } := by
    show v.modSaf _ = _
    rw [hv]; rfl
  have hs : ∃ g a, w = { s with saf := g, asy := a } := by rw [hw]; exact ⟨_, _, rfl⟩
  have hb : w.ch chB = { s.ch chB with st := .lockout } := by rw [hw]; cases chB <;> rfl
  have hn : w.ch (!chB) = s.ch (!chB) := by rw [hw]; cases chB <;> rfl
  have hcause : w.saf.cause = cause := by rw [hw]
  have hk : ∀ k, w.safOut k = s.safOut k := by intro k; rw [hw]; cases chB <;> rfl
  have hh : w.asy.held = s.asy.held ++ [m] := by rw [hw]; cases chB <;> exact m1
  exact State.lockout_end s w _ chB cause m e hs hb hn hcause hk hh m2 m3

/-- The marks that both channels raise change the assay unit alone. -/
theorem State.safBoth_only (s : State) (kind x : Nat) : ∃ a, s.safBoth kind x = { s with asy := a } := by
  have one : ∀ (s : State) c, ∃ a, s.safMark c kind x 0 = { s with asy := a } := fun s c => ⟨_, rfl⟩
  have two : ∃ a, (if s.saf.a.st = .run then s.safMark false kind x 0 else s) = { s with asy := a } := by
    split
    · exact one s false
    · exact ⟨s.asy, rfl⟩
  obtain ⟨a, e⟩ := two
  unfold State.safBoth
  dsimp only
  rw [e]
  split
  · obtain ⟨a', e'⟩ := one { s with asy := a } true
    exact ⟨a', e'⟩
  · exact ⟨a, rfl⟩

end Sys2Proof.Machine
end

