-- ==== Sys2Proof/Laws/Stores.lean ====
section
/-! SUPPORT. The commands of the package supervisor, of the TAP and of page writes: what they leave of the NV pages, the TAP
and the safety outputs. -/

set_option linter.unusedSimpArgs false
set_option linter.unusedVariables false

namespace Sys2Proof.Machine

/-- `s'` follows `s` under a command that may reset the device: the pages are as they were or as reset leaves them. -/
structure Resets (s s' : State) : Prop where
  pages : s'.nv.pages = s.nv.pages ∨ s'.nv.pages = s.nv.afterReset.pages
  tap : s'.tap = s.tap
  tapReset : s'.tapReset = s.tapReset
  closed : ∀ k, s'.saf.closed k = true → s.saf.closed k = true

theorem Opens.resets {s s' : State} (h : Opens s s') : Resets s s' := ⟨.inl h.pages, h.tap, h.tapReset, h.closed⟩

theorem Resets.then {a b c : State} (h : Resets a b) (g : Opens b c) : Resets a c :=
  ⟨by rw [g.pages]; exact h.pages, g.tap.trans h.tap, g.tapReset.trans h.tapReset, fun k x => h.closed k (g.closed k x)⟩

theorem Opens.thenResets {a b c : State} (h : Opens a b) (hn : b.nv = a.nv) (g : Resets b c) : Resets a c :=
  ⟨by have := g.pages; rw [hn] at this; exact this, g.tap.trans h.tap, g.tapReset.trans h.tapReset,
    fun k x => h.closed k (g.closed k x)⟩

theorem State.modPw_opens (s : State) (f : Power → Power) : Opens s (s.modPw f) := ⟨rfl, rfl, rfl, fun _ h => h⟩

theorem emitFold_saf (f : Nat → Bool) (l : List Nat) (s : State) :
    (l.foldl (fun s p => if f p then s.emit (.supply p false) else s) s).saf = s.saf := by
  induction l generalizing s with
  | nil => rfl
  | cons a r ih => rw [List.foldl_cons, ih]; split <;> rfl

theorem State.enterReset_resets (s : State) (cause : ResetCause) (rail : Nat) : Resets s (s.enterReset cause rail) := by
  have key : ∀ (l : List Nat) (z : State),
      (l.foldl (fun s p => if (s.port p).supOn then s.emit (.supply p false) else s) z).nv = z.nv ∧
      (l.foldl (fun s p => if (s.port p).supOn then s.emit (.supply p false) else s) z).saf = z.saf ∧
      (l.foldl (fun s p => if (s.port p).supOn then s.emit (.supply p false) else s) z).tap = z.tap ∧
      (l.foldl (fun s p => if (s.port p).supOn then s.emit (.supply p false) else s) z).tapReset = z.tapReset := by
    intro l
    induction l with
    | nil => intro z; exact ⟨rfl, rfl, rfl, rfl⟩
    | cons a r ih =>
      intro z
      have := ih (if (z.port a).supOn then z.emit (.supply a false) else z)
      rw [List.foldl_cons]
      refine ⟨this.1.trans ?_, this.2.1.trans ?_, this.2.2.1.trans ?_, this.2.2.2.trans ?_⟩ <;> split <;> rfl
  delta State.enterReset
  extract_lets z
  have h : z.nv = s.nv ∧ z.saf = s.saf ∧ z.tap = s.tap ∧ z.tapReset = s.tapReset := key _ _
  clear_value z
  refine ⟨.inr ?_, h.2.2.1, h.2.2.2, fun k x => ?_⟩
  · show z.nv.afterReset.pages = _
    rw [h.1]
  · have x' : z.saf.closed k = true := x
    rw [h.2.1] at x'
    exact x'

theorem State.resetFor_resets (s : State) (cause : ResetCause) (rail : Nat) : Resets s (s.resetFor cause rail) := by
  delta State.resetFor
  split
  · exact (Opens.refl s).resets
  · exact State.enterReset_resets _ _ _

theorem State.sequence_opens (s : State) : Opens s s.sequence := State.modPw_opens _ _

/-- Supervisors with the same supplies agree on each of their fields. -/
theorem Power.of_steady {p q : Power} (h : p.steady = q.steady) :
    p.railsGood = q.railsGood ∧ p.enabling = q.enabling ∧ p.attempts = q.attempts ∧ p.failedAt = q.failedAt ∧ p.railLost = q.railLost ∧
      p.shutAt = q.shutAt ∧ p.nvw = q.nvw ∧ p.hold = q.hold ∧ p.vrst = q.vrst ∧ p.vaonMin = q.vaonMin ∧
      p.vsuv = q.vsuv ∧ p.hot = q.hot ∧ p.shut = q.shut ∧ p.cause = q.cause ∧ p.causeRail = q.causeRail ∧
      p.resets = q.resets ∧ p.plls = q.plls ∧ p.tdOk = q.tdOk ∧ p.refclk = q.refclk ∧ p.perst = q.perst := by
  have g := h
  simp only [Power.steady, Power.mk.injEq] at g
  simp_all

/-! ## The commands of the package supervisor -/

/-- A meaning does what its effect does. -/
theorem does_resets (s : State) (t : Nat) (f : State → State) (h : ∀ z, Resets z (f z)) (s' : State)
    (hs : s.does t f = .next s') : Resets s s' := by
  simp only [State.does, Host.Outcome.next.injEq] at hs
  rw [← hs]
  exact ((Opens.of_guarded (State.before_guarded s t)).thenResets (State.before_nv s t) (h _)).then
    ⟨rfl, rfl, rfl, fun _ x => x⟩

theorem execResetRelease_resets (t : Nat) (s s' : State) (hs : execResetRelease t s = .next s') : Resets s s' := by
  refine does_resets _ _ _ (fun z => ?_) s' hs
  split
  · exact (State.sequence_opens z).resets
  · exact (Opens.refl z).resets

theorem execRailGood_resets (t rail : Nat) (s s' : State) (hs : execRailGood t rail s = .next s') : Resets s s' := by
  refine does_resets _ _ _ (fun z => Opens.resets ?_) s' hs
  extract_lets r
  split
  · split
    · split
      · exact .refl z
      · split
        · exact ((State.modPw_opens _ _).trans (State.modPw_opens _ _)).then (State.mayBoot_guarded _)
        · exact State.modPw_opens _ _
    · exact .refl z
  · exact State.modPw_opens _ _

theorem State.stayReset_opens (s : State) : Opens s s.stayReset := by
  delta State.stayReset
  split
  · exact (Opens.of_guarded (State.setMode_guarded s .reset)).trans (State.modPw_opens _ _)
  · exact .refl s

theorem execRailTimeout_resets (t rail : Nat) (s s' : State) (hs : execRailTimeout t rail s = .next s') : Resets s s' := by
  refine does_resets _ _ _ (fun z => Opens.resets ?_) s' hs
  split
  · split
    · exact (State.modPw_opens _ _).trans (State.stayReset_opens _)
    · exact .refl z
  · exact .refl z

theorem execRailRetry_resets (t : Nat) (s s' : State) (hs : execRailRetry t s = .next s') : Resets s s' := by
  refine does_resets _ _ _ (fun z => Opens.resets ?_) s' hs
  split
  · exact State.sequence_opens _
  · exact .refl z

theorem execRailFail_resets (t rail : Nat) (s s' : State) (hs : execRailFail t rail s = .next s') : Resets s s' := by
  refine does_resets _ _ _ (fun z => ?_) s' hs
  extract_lets r seq z1
  clear_value r
  split
  · exact (Opens.refl z).resets
  · have h1 : Opens z z1 := State.modPw_opens _ _
    have n1 : z1.nv = z.nv := rfl
    clear_value z1
    split
    · exact h1.resets
    · cases r with
      | vcore => exact h1.thenResets n1 (State.resetFor_resets _ _ _)
      | v1p0 => exact h1.thenResets n1 (State.resetFor_resets _ _ _)
      | vio => exact ((h1.then (State.raiseNow_guarded _ _ _ _ _)).trans (State.modPw_opens _ _)).resets
      | vafe => exact ((h1.then (State.raiseNow_guarded _ _ _ _ _)).trans (State.modPw_opens _ _)).resets
      | venc5 => exact (h1.then (State.encRailLost_guarded _ _)).resets
      | venc3 => exact (h1.then (State.encRailLost_guarded _ _)).resets
      | vsa => exact (h1.trans (State.safRailLost_shuts _ _).toOpens).resets
      | vsb => exact (h1.trans (State.safRailLost_shuts _ _).toOpens).resets
      | vaon => exact h1.resets

theorem execRailFailShutdown_resets (t rail : Nat) (s s' : State) (hs : execRailFailShutdown t rail s = .next s') :
    Resets s s' := by
  refine does_resets _ _ _ (fun z => ?_) s' hs
  split
  · split
    · exact (State.resetFor_resets _ _ _).then (State.modPw_opens _ _)
    · exact (Opens.refl z).resets
  · exact (Opens.refl z).resets

theorem execSupplyNvw_resets (t : Nat) (s s' : State) (hs : execSupplyNvw t s = .next s') : Resets s s' := by
  refine does_resets _ _ _ (fun z => Opens.resets ?_) s' hs
  split
  · exact .refl z
  · exact (((State.modPw_opens _ _).then (State.liveOn_guarded _ _ _))).then (State.raise_guarded _ _ _ _ _)

theorem execSupplyHold_resets (t : Nat) (s s' : State) (hs : execSupplyHold t s = .next s') : Resets s s' := by
  refine does_resets _ _ _ (fun z => Opens.resets ?_) s' hs
  split
  · exact .refl z
  · exact (((State.modPw_opens _ _).then (State.liveOn_guarded _ _ _))).then (State.raiseNow_guarded _ _ _ _ _)

theorem execVrstCrossed_resets (t : Nat) (s s' : State) (hs : execVrstCrossed t s = .next s') : Resets s s' :=
  does_resets _ _ _ (fun z => (State.resetFor_resets _ _ _).then (State.modPw_opens _ _)) s' hs

theorem execVaonMinCrossed_resets (t : Nat) (s s' : State) (hs : execVaonMinCrossed t s = .next s') : Resets s s' := by
  refine does_resets _ _ _ (fun z => ?_) s' hs
  extract_lets z1
  have h1 : Resets z z1 := State.resetFor_resets _ _ _
  clear_value z1
  exact h1.then ⟨rfl, rfl, rfl, fun _ x => x⟩

theorem execVsuvCrossed_resets (t : Nat) (s s' : State) (hs : execVsuvCrossed t s = .next s') : Resets s s' := by
  refine does_resets _ _ _ (fun z => Opens.resets ?_) s' hs
  split
  · exact .refl z
  · extract_lets z1
    have h1 : Opens z z1 := (State.safReset_shuts z).toOpens.trans (State.modPw_opens _ _)
    clear_value z1
    exact (h1.then (State.liveOn_guarded _ _ _)).then (State.raiseNow_guarded _ _ _ _ _)

theorem execSupplyConditionEnd_resets (t threshold : Nat) (s s' : State)
    (hs : execSupplyConditionEnd t threshold s = .next s') : Resets s s' := by
  refine does_resets _ _ _ (fun z => Opens.resets ?_) s' hs
  split
  · exact (State.modPw_opens _ _).then (State.liveOff_guarded _ _ _)
  · exact ((State.modPw_opens _ _).then (State.liveOff_guarded _ _ _)).then (State.mayBoot_guarded _)
  · exact State.modPw_opens _ _
  · exact State.modPw_opens _ _
  · exact (State.modPw_opens _ _).then (State.liveOff_guarded _ _ _)
  · exact .refl z

theorem execTempHigh_resets (t die : Nat) (s s' : State) (hs : execTempHigh t die s = .next s') : Resets s s' := by
  refine does_resets _ _ _ (fun z => Opens.resets ?_) s' hs
  split
  · exact .refl z
  · exact ((State.modPw_opens _ _).then (State.liveOn_guarded _ _ _)).then (State.raise_guarded _ _ _ _ _)

theorem execTempShutdown_resets (t die : Nat) (s s' : State) (hs : execTempShutdown t die s = .next s') : Resets s s' := by
  refine does_resets _ _ _ (fun z => Opens.resets ?_) s' hs
  split
  · exact .refl z
  · extract_lets z1
    have h1 : Opens z z1 := State.modPw_opens _ _
    clear_value z1
    exact (h1.then (State.liveOn_guarded _ _ _)).then (State.raiseNow_guarded _ _ _ _ _)

theorem execThermalRailOff_resets (t : Nat) (s s' : State) (hs : execThermalRailOff t s = .next s') : Resets s s' := by
  refine does_resets _ _ _ (fun z => ?_) s' hs
  split
  · split
    · exact ((State.safReset_shuts z).toOpens.thenResets (State.safReset_nv z) (State.resetFor_resets _ _ _)).then
        (State.modPw_opens _ _)
    · exact (Opens.refl z).resets
  · exact (Opens.refl z).resets

theorem execThermalRestart_resets (t die : Nat) (s s' : State) (hs : execThermalRestart t die s = .next s') :
    Resets s s' := by
  refine does_resets _ _ _ (fun z => Opens.resets ?_) s' hs
  extract_lets z1 z2
  have h1 : Opens z z1 := State.modPw_opens _ _
  clear_value z1
  have h2 : Opens z z2 := (h1.then (State.liveOff_guarded _ _ _)).then (State.liveOff_guarded _ _ _)
  clear_value z2
  split
  · exact h2.trans (State.sequence_opens _)
  · exact h2

theorem execTemperatureConditionEnd_resets (t die : Nat) (s s' : State)
    (hs : execTemperatureConditionEnd t die s = .next s') : Resets s s' :=
  does_resets _ _ _ (fun z => Opens.resets ((State.modPw_opens _ _).then (State.liveOff_guarded _ _ _))) s' hs

theorem execPllLockLoss_resets (t pll : Nat) (s s' : State) (hs : execPllLockLoss t pll s = .next s') : Resets s s' := by
  refine does_resets _ _ _ (fun z => ?_) s' hs
  split
  · exact State.resetFor_resets _ _ _
  · exact (Opens.refl z).resets

theorem execTdCheck_resets (t : Nat) (ok : Bool) (s s' : State) (hs : execTdCheck t ok s = .next s') : Resets s s' := by
  refine does_resets _ _ _ (fun z => ?_) s' hs
  split
  · exact (Opens.refl z).resets
  · split
    · exact (State.modPw_opens _ _).resets
    · exact State.resetFor_resets _ _ _

theorem execPerst_resets (t : Nat) (s s' : State) (hs : execPerst t s = .next s') : Resets s s' :=
  does_resets _ _ _ (fun z => (State.modPw_opens _ _).resets) s' hs

theorem execBootStart_resets (t : Nat) (s s' : State) (hs : execBootStart t s = .next s') : Resets s s' := by
  refine does_resets _ _ _ (fun z => Opens.resets ?_) s' hs
  split
  · exact .refl z
  · extract_lets p g t1 z1
    have h1 : Opens z z1 := ⟨rfl, rfl, rfl, fun _ x => x⟩
    clear_value z1
    split
    · exact h1.then (State.modNv_guarded _ _ rfl)
    · refine h1.then (State.modNv_guarded _ _ ?_)
      dsimp only
      split <;> rfl

/-! ## The TAP -/

theorem execBypass_tap (t : Nat) (s s' : State) (hs : execBypass t s = .next s') :
    s'.nv = s.nv ∧ s'.saf = s.saf ∧ s'.pw = s.pw ∧ s'.tap = .bypass ∧ s'.tapReset = false := by
  simp only [execBypass, State.does, Host.Outcome.next.injEq] at hs
  subst hs
  exact ⟨State.before_nv s t, State.before_saf s t, State.before_pw s t, rfl, rfl⟩

theorem execSamplePreload_tap (t : Nat) (s s' : State) (hs : execSamplePreload t s = .next s') :
    s'.nv = s.nv ∧ s'.saf = s.saf ∧ s'.pw = s.pw ∧ s'.tap = .sample ∧ s'.tapReset = false := by
  simp only [execSamplePreload, State.does, Host.Outcome.next.injEq] at hs
  subst hs
  exact ⟨State.before_nv s t, State.before_saf s t, State.before_pw s t, rfl, rfl⟩

theorem execExtest_tap (t : Nat) (s s' : State) (hs : execExtest t s = .next s') :
    s'.nv = s.nv ∧ s'.saf = s.saf ∧ s'.pw = s.pw ∧ s'.tap = .extest ∧ s'.tapReset = false := by
  simp only [execExtest, State.does, Host.Outcome.next.injEq] at hs
  subst hs
  exact ⟨State.before_nv s t, State.before_saf s t, State.before_pw s t, rfl, rfl⟩

theorem execTapReset_tap (t : Nat) (s s' : State) (hs : execTapReset t s = .next s') :
    s'.nv = s.nv ∧ s'.saf = s.saf ∧ s'.pw = s.pw ∧ s'.tap = .bypass ∧ s'.tapReset = true := by
  simp only [execTapReset, State.does, Host.Outcome.next.injEq] at hs
  subst hs
  exact ⟨State.before_nv s t, State.before_saf s t, State.before_pw s t, rfl, rfl⟩

/-! ## Page writes -/

theorem Nv.putPage_page (v : Nv) (p : Nat) (b : List Byte) (q : Nat) :
    (v.putPage p b).page q = if q = p then padTo 1024 b else v.page q := by
  show SMap.get _ (SMap.put _ _ _ _) _ = _
  split
  · next h => subst h; rw [SMap.get_put_same]
  · next h =>
    unfold Nv.page SMap.get
    rw [SMap.lookup_put_ne _ _ _ h]

/-- A page other than those that reset may complete reads as before. -/
theorem Resets.page {s s' : State} (h : Resets s s') (p : Nat) (hp : ∀ j, s.nv.job = some j → j.pageOf ≠ p) :
    s'.nv.page p = s.nv.page p := by
  have key : s.nv.afterReset.page p = s.nv.page p := by
    unfold Nv.afterReset
    cases hj : s.nv.job with
    | none => rfl
    | some j =>
      have := hp j hj
      cases j <;> first
        | rfl
        | exact (Nv.putPage_page _ _ _ _).trans (if_neg (fun e => this e.symm))
  rcases h.pages with h | h
  · unfold Nv.page at *; rw [h]
  · refine Eq.trans ?_ key
    unfold Nv.page; rw [h]

/-! ## The canonical form of the store -/

/-- Writing a page keeps the canonical form. -/
theorem Nv.wf_putPage (v : Nv) (p : Nat) (b : List Byte) (h : v.wf = true) : (v.putPage p b).wf = true := by
  unfold Nv.wf at h ⊢
  rw [Bool.and_eq_true, List.all_eq_true] at h ⊢
  refine ⟨SMap.rising_put _ _ _ _ h.1, fun e he => ?_⟩
  have hb : (padTo 1024 b).length = 1024 := by
    unfold padTo slice
    simp only [List.length_append, List.length_replicate, List.drop_zero, List.length_take]
    omega
  have hm : e ∈ SMap.put (blankPage p) v.pages p (padTo 1024 b) := he
  unfold SMap.put at hm
  split at hm
  · exact h.2 e (List.mem_filter.mp hm).1
  · next hne =>
    rcases SMap.mem_insert _ _ _ _ hm with he2 | he2
    · subst he2
      simp only [Bool.and_eq_true, decide_eq_true_eq]
      exact ⟨hne, hb⟩
    · exact h.2 e (List.mem_filter.mp he2).1

/-- The store after RESET is canonical where it was. -/
theorem Nv.wf_afterReset (v : Nv) (h : v.wf = true) : v.afterReset.wf = true := by
  unfold Nv.afterReset
  extract_lets w
  have : w.wf = true := by
    simp only [w]
    split
    · exact Nv.wf_putPage _ _ _ h
    · exact Nv.wf_putPage _ _ _ h
    · exact Nv.wf_putPage _ _ _ h
    · exact h
  exact this

theorem Nv.wf_pages {v w : Nv} (h : w.pages = v.pages) (hv : v.wf = true) : w.wf = true := by
  unfold Nv.wf at *
  rw [h]
  exact hv

/-- The NV page in progress apart, `s'` has what `s` has of the pages, the supplies, the TAP and the outputs. -/
structure Written (s s' : State) : Prop where
  pages : s'.nv.pages = s.nv.pages ∨ ∃ p b, s'.nv.pages = (s.nv.putPage p b).pages
  page : ∀ p, (∀ j, s.nv.job = some j → j.pageOf ≠ p) → s'.nv.page p = s.nv.page p
  rest : (s'.pw.steady, s'.tap, s'.tapReset, s'.saf.closed) = (s.pw.steady, s.tap, s.tapReset, s.saf.closed)

theorem Written.refl (s : State) : Written s s := ⟨.inl rfl, fun _ _ => rfl, rfl⟩

theorem guarded_rest {s s' : State} (h : s'.guarded = s.guarded) :
    (s'.pw.steady, s'.tap, s'.tapReset, s'.saf.closed) = (s.pw.steady, s.tap, s.tapReset, s.saf.closed) :=
  congrArg (fun x => (x.1, x.2.2.1, x.2.2.2.1, x.2.2.2.2)) h

theorem guarded_page {s s' : State} (h : s'.guarded = s.guarded) (p : Nat) : s'.nv.page p = s.nv.page p := by
  have h2 : s'.nv.pages = s.nv.pages := congrArg (fun x => x.2.1) h
  unfold Nv.page; rw [h2]

theorem Written.then {a b c : State} (h : Written a b) (g : c.guarded = b.guarded) : Written a c :=
  ⟨by rw [show c.nv.pages = b.nv.pages from congrArg (fun x => x.2.1) g]; exact h.pages,
    fun p hp => (guarded_page g p).trans (h.page p hp), (guarded_rest g).trans h.rest⟩

theorem Written.put {s : State} {j : NvJob} (hj : s.nv.job = some j) (f : Nv → Nv) (b : List Byte)
    (hf : (f s.nv).pages = (s.nv.putPage j.pageOf b).pages) : Written s (s.modNv f) := by
  refine ⟨.inr ⟨_, _, hf⟩, fun p hp => ?_, rfl⟩
  have h := Nv.putPage_page s.nv j.pageOf b p
  rw [if_neg (fun e => hp j hj e.symm)] at h
  refine Eq.trans ?_ h
  show SMap.get _ (f s.nv).pages p = SMap.get _ _ p
  rw [hf]

theorem execNvPageWriteDone_written (t : Nat) (s s' : State) (hs : execNvPageWriteDone t s = .next s') : Written s s' := by
  have h0 : ∀ z : State, Written z
      (match z.nv.job with
      | some (.write id p rest done) =>
        let s := z.modNv fun v => v.putPage p (rest.take 1024)
        let rest := rest.drop 1024
        if rest.isEmpty then (s.finish id stDone (zeros 8)).nvFree.postReady
        else if s.nvBarred then (s.finish id stDeferred (leBytes 4 (done + 1024) ++ zeros 4)).nvFree.postReady
        else (s.nvGoOn (.write id (p + 1) rest (done + 1024))).postReady
      | some (.confirm id p rest check) =>
        let s := z.modNv fun v => v.putPage p (rest.take 1024)
        let rest := rest.drop 1024
        if rest.isEmpty then ((s.confirmSps check).finish id stDone (zeros 8)).nvFree.postReady
        else if s.nvBarred then (s.finish id stDeferred (zeros 8)).nvFree.postReady
        else (s.nvGoOn (.confirm id (p + 1) rest check)).postReady
      | some (.ledger p pages) =>
        let s := z.modNv fun v => { v.putPage (0x814000 / 1024 + p) (pages.headD []) with ledgerPage := (p + 1) % 8 }
        if pages.tail.isEmpty then s.nvFree.postReady else (s.nvGoOn (.ledger ((p + 1) % 8) pages.tail)).postReady
      | _ => z) := by
    intro z
    split
    · next id p rest done hj =>
      extract_lets z1 r
      have h1 : Written z z1 := Written.put hj _ (rest.take 1024) rfl
      clear_value z1 r
      split
      · exact ((h1.then (State.finish_guarded _ _ _ _)).then (State.nvFree_guarded _)).then (State.postReady_guarded _)
      · split
        · exact ((h1.then (State.finish_guarded _ _ _ _)).then (State.nvFree_guarded _)).then (State.postReady_guarded _)
        · exact (h1.then (State.nvGoOn_guarded _ _)).then (State.postReady_guarded _)
    · next id p rest check hj =>
      extract_lets z1 r
      have h1 : Written z z1 := Written.put hj _ (rest.take 1024) rfl
      clear_value z1 r
      split
      · exact (((h1.then (State.confirmSps_guarded _ _)).then (State.finish_guarded _ _ _ _)).then
          (State.nvFree_guarded _)).then (State.postReady_guarded _)
      · split
        · exact ((h1.then (State.finish_guarded _ _ _ _)).then (State.nvFree_guarded _)).then (State.postReady_guarded _)
        · exact (h1.then (State.nvGoOn_guarded _ _)).then (State.postReady_guarded _)
    · next p pages hj =>
      have h1 := Written.put hj (fun v => { v.putPage (0x814000 / 1024 + p) (pages.headD []) with ledgerPage := (p + 1) % 8 })
        (pages.headD []) rfl
      split
      · exact (h1.then (State.nvFree_guarded _)).then (State.postReady_guarded _)
      · exact (h1.then (State.nvGoOn_guarded _ _)).then (State.postReady_guarded _)
    · exact .refl z
  simp only [execNvPageWriteDone, State.does, Host.Outcome.next.injEq] at hs
  rw [← hs]
  refine ⟨?_, fun p hp => ?_, ?_⟩
  · rw [← State.before_nv s t]
    exact (h0 (s.before t)).pages
  · exact ((h0 (s.before t)).page p (by rw [State.before_nv]; exact hp)).trans (by rw [State.before_nv])
  · exact (h0 (s.before t)).rest.trans (guarded_rest (State.before_guarded s t))

/-! ## The safety tick -/

/-- The safety outputs apart, `s'` has what `s` has. -/
def Keeps (s s' : State) : Prop :=
  (s'.pw.steady, s'.nv.pages, s'.tap, s'.tapReset) = (s.pw.steady, s.nv.pages, s.tap, s.tapReset)

theorem Keeps.of_guarded {s s' : State} (h : s'.guarded = s.guarded) : Keeps s s' :=
  (congrArg (fun x : Power × SMap (List Byte) × Tap × Bool × (Nat → Bool) => (x.1, x.2.1, x.2.2.1, x.2.2.2.1)) h :)

theorem Keeps.of_shuts {s s' : State} (h : Shuts s s') : Keeps s s' := by
  unfold Keeps
  rw [h.steady, h.pages, h.tap, h.tapReset]

theorem Keeps.then {a b c : State} (h : Keeps a b) (g : Keeps b c) : Keeps a c := Eq.trans g h

theorem Keeps.fold {α : Type} (g : State → α → State) (h : ∀ s x, Keeps s (g s x)) (l : List α) (s : State) :
    Keeps s (l.foldl g s) := by
  induction l generalizing s with
  | nil => exact rfl
  | cons a r ih => rw [List.foldl_cons]; exact (h s a).then (ih _)

theorem State.switchOut_keeps (s : State) (k : Nat) (on : Bool) : Keeps s (s.switchOut k on) := by
  delta State.switchOut
  split
  · exact rfl
  · exact rfl

theorem State.applyOut_keeps (s : State) (both : Bool) (n k : Nat) : Keeps s (s.applyOut both n k) := by
  delta State.applyOut
  extract_lets o s1 useB
  have h1 : Keeps s s1 := State.switchOut_keeps _ _ _
  clear_value s1
  split
  · exact h1.then rfl
  · exact h1.then rfl

theorem does_keeps (s : State) (t : Nat) (f : State → State) (h : ∀ z, Keeps z (f z)) (s' : State)
    (hs : s.does t f = .next s') : Keeps s s' := by
  simp only [State.does, Host.Outcome.next.injEq] at hs
  rw [← hs]
  have h1 := h (s.before t)
  generalize f (s.before t) = w at h1 ⊢
  exact ((Keeps.of_guarded (State.before_guarded s t)).then h1).then rfl

theorem State.enterRun_keeps (s : State) (chB : Bool) : Keeps s (s.enterRun chB) := by
  delta State.enterRun
  extract_lets c
  split
  · split
    · exact .of_shuts (State.lockout_shuts _ _ _)
    · exact .of_guarded ((State.startFns_guarded _).trans (State.setCh_guarded _ _ _))
  · exact rfl

theorem execSafetyTick_keeps (t fbA fbB lowA lowB highA highB : Nat) (s s' : State)
    (hs : execSafetyTick t fbA fbB lowA lowB highA highB s = .next s') : Keeps s s' := by
  refine does_keeps _ _ _ (fun z => ?_) s' hs
  extract_lets z1 okA okB n z2 z3 opens z4 z5 z6 z7 z8 z9 z10
  split
  · exact rfl
  · have h1 : Keeps z z1 :=
      ((Keeps.of_guarded ((State.emit_guarded _ _).trans (State.tickSent_guarded _))).then (.of_shuts (State.hearTick_shuts _ _))).then
        (.of_shuts (State.hearTick_shuts _ _))
    clear_value z1
    split
    · exact h1
    · have h2 : Keeps z z2 := h1.then (Keeps.fold _ (fun s k => State.applyOut_keeps _ _ _ _) _ _)
      clear_value z2
      have h3 : Keeps z z3 := h2.then (Keeps.of_guarded (guarded_fold _ State.startPulse_guarded _ _))
      clear_value z3
      have h4 : Keeps z z4 := h3.then (Keeps.of_guarded (State.modSaf_guarded _ _ rfl))
      clear_value z4
      have h5 : Keeps z z5 := h4.then (Keeps.of_guarded (State.releaseUnits_guarded _))
      clear_value z5
      have h6 : Keeps z z6 := by
        simp only [z6]
        split
        · exact h5.then (Keeps.of_guarded (State.modCh_guarded _ _ _))
        · exact h5
      clear_value z6
      have h7 : Keeps z z7 := by
        simp only [z7]
        split
        · exact h6.then (Keeps.of_guarded (State.modCh_guarded _ _ _))
        · exact h6
      clear_value z7
      have h8 : Keeps z z8 := h7.then (Keeps.of_guarded (guarded_fold _ State.connSnapshot_guarded _ _))
      clear_value z8
      have h9 : Keeps z z9 := (h8.then (Keeps.of_guarded (State.seeAck_guarded _))).then (Keeps.of_guarded (State.leaveLockout_guarded _))
      clear_value z9
      have h10 : Keeps z z10 := by
        simp only [z10]
        split
        · exact h9.then (State.enterRun_keeps _ _)
        · exact h9
      clear_value z10
      split
      · exact h10.then (State.enterRun_keeps _ _)
      · exact h10

end Sys2Proof.Machine
end

