-- ==== Sys2Proof/WellFormed.lean ====
section
/-! DEFINITION. The static checks on commands: every index an operand names exists on this block, and every value
fits the width the spec gives it. The meanings are total and do not rest on these checks. -/

namespace Sys2Proof

/-- A signed value of `w` bits. -/
def fitsS (w : Nat) (x : Int) : Bool := decide (-(2 ^ (w - 1) : Nat) ≤ x ∧ x < (2 ^ (w - 1) : Nat))

/-- An unsigned value of `w` bits. -/
def fitsU (w : Nat) (x : Int) : Bool := decide (0 ≤ x ∧ x < (2 ^ w : Nat))

/-- A number of `w` bits. -/
def fitsN (w : Nat) (x : Nat) : Bool := decide (x < 2 ^ w)

/-- A coefficient fits its five bytes (14 R565). -/
def Coef.ok (c : Coef) : Bool := fitsS 32 c.m && fitsS 8 c.e

/-- The header fields fit (14 Table 14.5): a command ring 0 to 7, SEQ and TGT of 16 bits. -/
def DHdr.ok (h : DHdr) : Bool := decide (h.ring < 8) && fitsN 16 h.seq && fitsN 16 h.tgt

/-- A segment exists (01 R13). -/
def segOk (k : Nat) : Bool := decide (k < 8)

/-- A node address (08). -/
def nodeOk (j : Nat) : Bool := decide (1 ≤ j ∧ j ≤ 40)

/-- An axis exists (01). -/
def axisOk (a : Nat) : Bool := decide (a < 568)

/-- The payload of GROUP_MOVE fits. -/
def GroupFn.ok : GroupFn → Bool
  | .define seg mask => segOk seg && fitsN 64 mask
  | .dissolve => true
  | .move l => l.all (fitsS 64)

/-- The payload of LEARN fits. -/
def LearnFn.ok : LearnFn → Bool
  | .mode m => decide (m ≤ 2)
  | .master l a p o => fitsN 8 l && fitsN 16 a && fitsS 64 p && fitsS 64 o
  | .gains src lead kl ff => decide (src ≤ 2) && fitsN 16 lead.toNat && kl.ok && ff.ok
  | .shape s0 s1 lmin llim => s0.ok && s1.ok && fitsU 32 lmin && fitsS 32 llim
  | .clear => true

/-- The payload of COUPLE fits. -/
def CoupleFn.ok : CoupleFn → Bool
  | .define _ seg mask clim => segOk seg && fitsN 64 mask && fitsS 32 clim
  | .load e vals => fitsN 16 e && vals.all Coef.ok
  | .swap => true
  | .dissolve => true

/-- The payload of IDENT fits. -/
def IdentFn.ok : IdentFn → Bool
  | .start exc rsp m settle a w20 w24 emax =>
    decide (exc ≤ 1) && decide (rsp ≤ 2) && fitsN 8 m && fitsN 8 settle && fitsS 32 a && fitsN 32 w20 && fitsN 32 w24 &&
      fitsS 32 emax
  | .cancel => true

/-- The payload of AXIS_CFG fits (14 R566). -/
def AxisCfg.ok (c : AxisCfg) : Bool :=
  decide (c.aw ≤ 2) && decide (c.kind ≤ 3) && fitsN 5 c.fbFrac && fitsN 4 c.vffFrac && fitsN 8 c.stages &&
    decide (c.faultPol ≤ 2) && decide (c.stopPol ≤ 2) && c.catchK.ok && fitsU 32 c.catchV

/-- The static checks of one command. -/
def Instr.wellFormed : Instr → Bool
  | .nop _ h => h.ok
  | .fence _ h rings _ => h.ok && fitsN 8 rings
  | .mode _ h c => h.ok && fitsN 8 c
  | .moveAbs _ h x => h.ok && fitsS 64 x
  | .moveRel _ h d => h.ok && fitsS 64 d
  | .jog _ h v => h.ok && fitsS 32 v
  | .stop _ h => h.ok
  | .limits _ h a b c d e => h.ok && fitsU 32 a && fitsU 32 b && fitsU 32 c && fitsU 32 d && fitsU 32 e
  | .follow _ h _ _ src g lag => h.ok && fitsN 16 src && g.ok && fitsU 32 lag
  | .gear _ h _ master n m ofs => h.ok && fitsN 16 master && fitsS 32 n && fitsS 32 m && fitsS 64 ofs
  | .camEngage _ h table _ _ md master oc b x =>
    h.ok && fitsN 8 table && decide (md ≤ 2) && fitsN 16 master && fitsS 64 oc && fitsS 64 b && fitsS 64 x
  | .camDisengage _ h _ => h.ok
  | .groupMove _ h f => h.ok && f.ok
  | .phaseIn _ h w => h.ok && fitsS 64 w
  | .setc _ h i b v => h.ok && fitsN 8 i && fitsN 4 b && v.ok
  | .loadset _ h i b vals => h.ok && fitsN 8 i && decide (b ≤ 3) && decide (vals.length ≤ 3) && vals.all Coef.ok
  | .swapset _ h m => h.ok && fitsN 5 m
  | .terrace _ h sel n b t1 t2 t3 hy =>
    h.ok && decide (sel ≤ 2) && fitsN 4 n && fitsN 16 b && fitsU 32 t1 && fitsU 32 t2 && fitsU 32 t3 && fitsU 32 hy
  | .filter _ h c e => h.ok && fitsN 5 c && fitsN 5 e
  | .learn _ h f => h.ok && f.ok
  | .resample _ h l tag => h.ok && fitsN 8 l && fitsN 24 tag
  | .couple _ h f => h.ok && f.ok
  | .ident _ h f => h.ok && f.ok
  | .camLoad _ h table k sp rise y =>
    h.ok && fitsN 8 table && fitsN 16 k && fitsS 64 sp && fitsS 64 rise && y.all (fitsS 64) && decide (y.length = k)
  | .axisCfg _ h c => h.ok && c.ok
  | .nodeMgmtUnmute _ h _ seg node fn buf _ => h.ok && segOk seg && nodeOk node && fitsN 8 fn && fitsN 64 buf
  | .timeStep _ h _ x => h.ok && fitsS 64 x
  | .timeSelect _ h d _ => h.ok && decide (d < 2)
  | .nvWrite _ h addr buf len data => h.ok && fitsN 32 addr && fitsN 64 buf && fitsN 32 len && decide (data.length = len)
  | .nvRead _ h addr buf len => h.ok && fitsN 32 addr && fitsN 64 buf && fitsN 32 len
  | .safetyLoad _ h data => h.ok && decide (data.length = 4096)
  | .safetyConfirm _ h c => h.ok && fitsN 32 c
  | .inject _ h _ src => h.ok && fitsN 16 src
  | .unfence _ h src => h.ok && fitsN 16 src
  | .clearLedger _ h => h.ok
  | .clearFlags _ h m => h.ok && fitsN 8 m
  | .trace _ h e g _ _ lo hi => h.ok && fitsN 9 e && fitsN 8 g && fitsN 16 lo && fitsN 16 hi
  | .descriptorAccepted _ r bytes _ => decide (r < 8) && (decide (bytes.length = 32) || decide (bytes.length = 64))
  | .atPhaseTimeout _ r pos => decide (r < 8) && fitsN 32 pos
  | .netSegCommit _ k => segOk k
  | .fbpCommit _ p => decide (p < 8)
  | .pulCommit _ c => decide (c < 16)
  | .adcCommit _ c => decide (c < 2)
  | .hstCommit _ => true
  | .asyCommit _ => true
  | .glbCommitGo _ => true
  | .glbCommitAll _ => true
  | .glbCommitDiscard _ => true
  | .hstRingEnable _ r => decide (r < 33)
  | .hstRingDisable _ r => decide (r < 33)
  | .twnEnable _ _ => true
  | .twnRepair _ => true
  | .timMtLoRead _ => true
  | .adcPopLoRead _ c => decide (c < 2)
  | .pulEcntLoRead _ c => decide (c < 16)
  | .debugWindowRead _ off ecc syn b ax => fitsN 24 off && decide (ecc ≤ 2) && fitsN 16 syn && fitsN 8 b && fitsN 16 ax
  | .debugWindowWrite _ off _ => fitsN 24 off
  | .registerWrite _ off _ => fitsN 24 off
  | .unsupportedRequest _ _ off => fitsN 64 off
  | .bypass _ => true
  | .samplePreload _ => true
  | .extest _ => true
  | .tapReset _ => true
  | .resetRelease _ => true
  | .railGood _ r => decide (r < 9)
  | .railTimeout _ r => decide (r < 9)
  | .railRetry _ => true
  | .railFail _ r => decide (r < 9)
  | .railFailShutdown _ r => decide (r < 9)
  | .supplyNvw _ => true
  | .supplyHold _ => true
  | .vrstCrossed _ => true
  | .vaonMinCrossed _ => true
  | .vsuvCrossed _ => true
  | .supplyConditionEnd _ k => decide (k < 5)
  | .tempHigh _ d => decide (d < 4)
  | .tempShutdown _ d => decide (d < 4)
  | .thermalRailOff _ => true
  | .thermalRestart _ d => decide (d < 4)
  | .pllLockLoss _ p => decide (p < 6)
  | .tdCheck _ _ => true
  | .bootStart _ => true
  | .bootComplete _ _ => true
  | .refReady _ => true
  | .perst _ => true
  | .flitCrcError _ l => decide (l < 4)
  | .linkDown _ l => decide (l < 4)
  | .nvPageWriteDone _ => true
  | .nvTimeout _ => true
  | .ledgerPersistence _ => true
  | .eccCorr _ src addr syn b ax => fitsN 16 src && fitsN 32 addr && fitsN 16 syn && fitsN 8 b && fitsN 16 ax
  | .eccDouble _ src addr syn obj => fitsN 16 src && fitsN 32 addr && fitsN 16 syn && fitsN 17 obj
  | .parity _ src addr => fitsN 16 src && fitsN 32 addr
  | .fabricTimeout _ h => decide (h < 128)
  | .readyStall _ b => decide (b < 16)
  | .jobWatchdog _ h => decide (h < 128)
  | .reissuePoint _ j => decide (j < 0x10020)
  | .hammerSlow _ h => decide (h < 128)
  | .softLimit _ h => decide (h < 128)
  | .preemptStop _ h => decide (h < 128)
  | .softJobComplete _ h => decide (h < 128)
  | .asbMoveLanded _ a => axisOk a
  | .unfenceCheckDone _ src _ => fitsN 16 src
  | .reportClose _ k => segOk k
  | .reportLost _ k j => segOk k && nodeOk j
  | .nodeLost _ k j => segOk k && nodeOk j
  | .jobComplete _ h => decide (h < 128)
  | .pourPoint _ k => segOk k
  | .slotTransmit _ k e => segOk k && decide (e < 128)
  | .rpReceived _ k _ _ _ => segOk k
  | .receiveOverlap _ k _ _ f g => segOk k && decide (f < 128) && decide (g < 128)
  | .nodeMuted _ k j => segOk k && nodeOk j
  | .sfReceived _ k _ _ _ => segOk k
  | .syReturn _ k _ _ => segOk k
  | .channelLost _ k _ => segOk k
  | .ringHealed _ k => segOk k
  | .delayAdoption _ k => segOk k
  | .portLinkChange _ p _ => decide (p < 16)
  | .listenEnd _ k => segOk k
  | .csReceived _ k _ _ => segOk k
  | .csPhaseEnd _ k => segOk k
  | .scheduleStart _ k => segOk k
  | .syReceived _ k _ _ => segOk k
  | .inAnswer _ k _ _ _ => segOk k
  | .lcClaim _ k _ _ _ => segOk k
  | .mgAnswer _ k _ _ _ => segOk k
  | .mgmtRequestTimeout _ k => segOk k
  | .nodeNotFound _ k j => segOk k && nodeOk j
  | .latecomerWithdrawn _ k j => segOk k && nodeOk j
  | .majorCycleBoundary _ => true
  | .masterInterval _ => true
  | .poll _ page => page.all fun e => decide (e.1 < 4096)
  | .hostHbTimeout _ => true
  | .cyclePoint _ k => decide (k < 4)
  | .pcieLinkDown _ => true
  | .pcieLinkUp _ sp w => fitsN 3 sp && fitsN 3 w
  | .plantFrameSend _ p fid len _ frame => decide (p < 2) && fitsN 16 fid && decide (frame.length = len)
  | .plantFrameReceived _ p _ _ _ => decide (p < 2)
  | .gptpSyncReceived _ p _ o c r l => decide (p < 2) && fitsN 64 o && fitsS 64 c && fitsS 32 r && fitsS 8 l
  | .announceReceived _ p g => decide (p < 2) && fitsN 64 g
  | .pdelayReqInterval _ p => decide (p < 2)
  | .pdelayResponseReceived _ p mld nrr _ => decide (p < 2) && fitsN 32 mld && fitsS 32 nrr
  | .pdelayReqReceived _ p _ => decide (p < 2)
  | .syncReceiptTimeout _ d => decide (d < 2)
  | .announceReceiptTimeout _ d => decide (d < 2)
  | .holdoverExpiry _ d => decide (d < 2)
  | .illegalTransition _ p => decide (p < 8)
  | .indexEdge _ p => decide (p < 8)
  | .fbpWire _ p => decide (p < 8)
  | .fbpAmpl _ p => decide (p < 8)
  | .fbpOverspeed _ p => decide (p < 8)
  | .speedWindowEnd _ p => decide (p < 8)
  | .encSupplyOvl _ p => decide (p < 8)
  | .encSupplyTotalOvl _ => true
  | .encSupplyRestart _ p => decide (p < 8)
  | .encSupplySettled _ p => decide (p < 8)
  | .latchEdge _ n => decide (n < 16)
  | .latchEntryPost _ n => decide (n < 16)
  | .stepBoundary _ c => decide (c < 16)
  | .pulHalt _ c => decide (c < 16)
  | .pulParity _ c => decide (c < 16)
  | .adcSequenceStart _ c => decide (c < 2)
  | .adcConversionComplete _ c code => decide (c < 2) && fitsS 17 code
  | .twinHbReceived _ m role rank pair segs _ =>
    fitsN 4 m && decide (role < 3) && decide (rank < 2) && decide (pair < 4) && decide (segs.length = 8)
  | .tagReceived _ k r pos seq opc crc st tag m =>
    (segOk k || decide (k = 0xFF)) && decide (r < 8) && fitsN 32 pos && fitsN 16 seq && fitsN 8 opc && fitsN 32 crc && fitsN 8 st && fitsN 24 tag && fitsN 3 m
  | .cplReceived _ r pos rec_ => decide (r < 8) && fitsN 32 pos && decide (rec_.length = 16)
  | .useReceived _ k _ m map _ _ _ => segOk k && fitsN 3 m && fitsN 40 map
  | .mstReceived _ vals => decide (vals.length = 40)
  | .digReceived _ k _ m d => segOk k && fitsN 3 m && fitsN 64 d
  | .outReceived _ _ => true
  | .evtReceived _ mark => decide (mark.length = 32)
  | .blkReceived _ k _ _ m _ _ _ => (segOk k || decide (k = 0xFF)) && fitsN 3 m
  | .reqReceived _ _ => true
  | .twinLaneDown _ l => decide (l < 2)
  | .twinLaneUp _ l => decide (l < 2)
  | .twinLinkLost _ => true
  | .pairingStart _ => true
  | .changeover _ => true
  | .twinDualLeader _ => true
  | .markRelease _ => true
  | .safetyTick _ a b la lb ha hb => fitsN 8 a && fitsN 8 b && fitsN 16 la && fitsN 16 lb && fitsN 16 ha && fitsN 16 hb
  | .tickTimeout _ _ => true
  | .peerSnapshot _ _ => true
  | .resultCompare _ _ _ => true
  | .peerSilent _ _ => true
  | .selftestFail _ _ => true
  | .testPulseEnd _ _ tp => decide (tp < 4)
  | .safDiscrepancy _ p => decide (p < 8)
  | .stop1DelayExpiry _ f => decide (f < 16)
  | .outputReadbackCheck _ o _ _ _ => decide (o < 8)
  | .safOverload _ o => decide (o < 8)
  | .feedbackTimeout _ o => decide (o < 8)
  | .safConnLost _ c => decide (c < 32)
  | .singleTimeExpiry _ c => decide (c < 32)
  | .safetyChannelPowerUp _ _ => true
  | .safetyInputSample _ _ levels => fitsN 16 levels
  | .quadratureCount _ p _ => decide (p < 8)
  | .sincosSample _ p a b => decide (p < 8) && fitsS 16 a && fitsS 16 b
  | .rateMultiplierCarry _ c => decide (c < 16)
  | .dividedOutputEdge _ p => decide (p < 8)
  | .ctReceived _ k _ _ => segOk k
  | .plantPortLinkChange _ p _ => decide (p < 2)
  | .powerDomainUp _ d => decide (d < 14)
  | .abandonedRunStop _ h => decide (h < 128)
  | .temperatureConditionEnd _ d => decide (d < 4)
  | .msiXVectorUnmask _ v => decide (v < 32)
  | .nvPageReadDone _ => true

end Sys2Proof
end

