-- ==== Sys2Proof/Tests/Slice0.lean ====
section
/-! SUPPORT. Tests of the model, each a named theorem: ill-formed commands that the checks of WellFormed refuse, states and operands
that meet the hypotheses of every statement, clause by clause, and single steps whose results are worked out by hand from the rules of the spec. -/

open Sys2Proof Sys2Proof.Machine

namespace Sys2Proof.Tests

set_option maxRecDepth 100000

/-! ## Well-formedness -/

/-- A header that fits. -/
def h0 : DHdr := ⟨0, 0, false, 0⟩
/-- A coefficient that fits. -/
def c0 : Coef := ⟨0, 0⟩
/-- A setting of an axis that fits. -/
def a0 : AxisCfg := ⟨0, 0, 0, 0, 0, 0, 0, false, false, c0, 0⟩
/-- Sixteen bytes. -/
def d16 : List Byte := List.replicate 16 0
/-- Thirty-two bytes. -/
def d32 : List Byte := List.replicate 32 0
/-- Eight numbers. -/
def z8 : List Nat := [0, 0, 0, 0, 0, 0, 0, 0]

theorem test_ill_formed_refused_1 : ([
  .nop 0 { h0 with ring := 8 },
  .nop 0 { h0 with seq := 65536 },
  .nop 0 { h0 with tgt := 65536 },
  .fence 0 { h0 with ring := 8 } 0 false,
  .fence 0 { h0 with seq := 65536 } 0 false,
  .fence 0 { h0 with tgt := 65536 } 0 false,
  .fence 0 h0 256 false,
  .mode 0 { h0 with ring := 8 } 0,
  .mode 0 { h0 with seq := 65536 } 0,
  .mode 0 { h0 with tgt := 65536 } 0,
  .mode 0 h0 256,
  .moveAbs 0 { h0 with ring := 8 } 0,
  .moveAbs 0 { h0 with seq := 65536 } 0,
  .moveAbs 0 { h0 with tgt := 65536 } 0,
  .moveAbs 0 h0 9223372036854775808,
  .moveRel 0 { h0 with ring := 8 } 0,
  .moveRel 0 { h0 with seq := 65536 } 0,
  .moveRel 0 { h0 with tgt := 65536 } 0,
  .moveRel 0 h0 9223372036854775808,
  .jog 0 { h0 with ring := 8 } 0,
  .jog 0 { h0 with seq := 65536 } 0,
  .jog 0 { h0 with tgt := 65536 } 0,
  .jog 0 h0 2147483648,
  .stop 0 { h0 with ring := 8 },
  .stop 0 { h0 with seq := 65536 },
  .stop 0 { h0 with tgt := 65536 },
  .limits 0 { h0 with ring := 8 } 0 0 0 0 0,
  .limits 0 { h0 with seq := 65536 } 0 0 0 0 0,
  .limits 0 { h0 with tgt := 65536 } 0 0 0 0 0,
  .limits 0 h0 4294967296 0 0 0 0,
  .limits 0 h0 0 (-1) 0 0 0,
  .limits 0 h0 0 0 4294967296 0 0,
  .limits 0 h0 0 0 0 4294967296 0,
  .limits 0 h0 0 0 0 0 4294967296,
  .follow 0 { h0 with ring := 8 } false false 0 c0 0,
  .follow 0 { h0 with seq := 65536 } false false 0 c0 0,
  .follow 0 { h0 with tgt := 65536 } false false 0 c0 0,
  .follow 0 h0 false false 65536 c0 0,
  .follow 0 h0 false false 0 ⟨2147483648, 0⟩ 0,
  .follow 0 h0 false false 0 ⟨0, 128⟩ 0] : List Instr).all (fun c => !c.wellFormed) = true := by decide

theorem test_ill_formed_refused_2 : ([
  .follow 0 h0 false false 0 c0 4294967296,
  .gear 0 { h0 with ring := 8 } false 0 0 0 0,
  .gear 0 { h0 with seq := 65536 } false 0 0 0 0,
  .gear 0 { h0 with tgt := 65536 } false 0 0 0 0,
  .gear 0 h0 false 65536 0 0 0,
  .gear 0 h0 false 0 2147483648 0 0,
  .gear 0 h0 false 0 0 2147483648 0,
  .gear 0 h0 false 0 0 0 9223372036854775808,
  .camEngage 0 { h0 with ring := 8 } 0 false false 0 0 0 0 0,
  .camEngage 0 { h0 with seq := 65536 } 0 false false 0 0 0 0 0,
  .camEngage 0 { h0 with tgt := 65536 } 0 false false 0 0 0 0 0,
  .camEngage 0 h0 256 false false 0 0 0 0 0,
  .camEngage 0 h0 0 false false 3 0 0 0 0,
  .camEngage 0 h0 0 false false 0 65536 0 0 0,
  .camEngage 0 h0 0 false false 0 0 9223372036854775808 0 0,
  .camEngage 0 h0 0 false false 0 0 0 9223372036854775808 0,
  .camEngage 0 h0 0 false false 0 0 0 0 9223372036854775808,
  .camDisengage 0 { h0 with ring := 8 } false,
  .camDisengage 0 { h0 with seq := 65536 } false,
  .camDisengage 0 { h0 with tgt := 65536 } false,
  .groupMove 0 { h0 with ring := 8 } .dissolve,
  .groupMove 0 { h0 with seq := 65536 } .dissolve,
  .groupMove 0 { h0 with tgt := 65536 } .dissolve,
  .groupMove 0 h0 (.define 8 0),
  .groupMove 0 h0 (.define 0 (2 ^ 64)),
  .groupMove 0 h0 (.move [2 ^ 63]),
  .phaseIn 0 { h0 with ring := 8 } 0,
  .phaseIn 0 { h0 with seq := 65536 } 0,
  .phaseIn 0 { h0 with tgt := 65536 } 0,
  .phaseIn 0 h0 9223372036854775808,
  .setc 0 { h0 with ring := 8 } 0 0 c0,
  .setc 0 { h0 with seq := 65536 } 0 0 c0,
  .setc 0 { h0 with tgt := 65536 } 0 0 c0,
  .setc 0 h0 256 0 c0,
  .setc 0 h0 0 16 c0,
  .setc 0 h0 0 0 ⟨2147483648, 0⟩,
  .setc 0 h0 0 0 ⟨0, 128⟩,
  .loadset 0 { h0 with ring := 8 } 0 0 [],
  .loadset 0 { h0 with seq := 65536 } 0 0 [],
  .loadset 0 { h0 with tgt := 65536 } 0 0 []] : List Instr).all (fun c => !c.wellFormed) = true := by decide

theorem test_ill_formed_refused_3 : ([
  .loadset 0 h0 256 0 [],
  .loadset 0 h0 0 4 [],
  .loadset 0 h0 0 0 [c0, c0, c0, c0],
  .loadset 0 h0 0 0 [⟨0, 128⟩],
  .swapset 0 { h0 with ring := 8 } 0,
  .swapset 0 { h0 with seq := 65536 } 0,
  .swapset 0 { h0 with tgt := 65536 } 0,
  .swapset 0 h0 32,
  .terrace 0 { h0 with ring := 8 } 0 0 0 0 0 0 0,
  .terrace 0 { h0 with seq := 65536 } 0 0 0 0 0 0 0,
  .terrace 0 { h0 with tgt := 65536 } 0 0 0 0 0 0 0,
  .terrace 0 h0 3 0 0 0 0 0 0,
  .terrace 0 h0 0 16 0 0 0 0 0,
  .terrace 0 h0 0 0 65536 0 0 0 0,
  .terrace 0 h0 0 0 0 4294967296 0 0 0,
  .terrace 0 h0 0 0 0 0 4294967296 0 0,
  .terrace 0 h0 0 0 0 0 0 4294967296 0,
  .terrace 0 h0 0 0 0 0 0 0 4294967296,
  .filter 0 { h0 with ring := 8 } 0 0,
  .filter 0 { h0 with seq := 65536 } 0 0,
  .filter 0 { h0 with tgt := 65536 } 0 0,
  .filter 0 h0 32 0,
  .filter 0 h0 0 32,
  .learn 0 { h0 with ring := 8 } .clear,
  .learn 0 { h0 with seq := 65536 } .clear,
  .learn 0 { h0 with tgt := 65536 } .clear,
  .learn 0 h0 (.mode 3),
  .learn 0 h0 (.master 256 0 0 0),
  .learn 0 h0 (.master 0 65536 0 0),
  .learn 0 h0 (.master 0 0 (2 ^ 63) 0),
  .learn 0 h0 (.master 0 0 0 (2 ^ 63)),
  .learn 0 h0 (.gains 3 0 c0 c0),
  .learn 0 h0 (.gains 0 65536 c0 c0),
  .learn 0 h0 (.gains 0 0 ⟨0, 128⟩ c0),
  .learn 0 h0 (.gains 0 0 c0 ⟨0, 128⟩),
  .learn 0 h0 (.shape ⟨0, 128⟩ c0 0 0),
  .learn 0 h0 (.shape c0 ⟨0, 128⟩ 0 0),
  .learn 0 h0 (.shape c0 c0 (-1) 0),
  .learn 0 h0 (.shape c0 c0 0 (2 ^ 31)),
  .resample 0 { h0 with ring := 8 } 0 0] : List Instr).all (fun c => !c.wellFormed) = true := by decide

theorem test_ill_formed_refused_4 : ([
  .resample 0 { h0 with seq := 65536 } 0 0,
  .resample 0 { h0 with tgt := 65536 } 0 0,
  .resample 0 h0 256 0,
  .resample 0 h0 0 16777216,
  .couple 0 { h0 with ring := 8 } .swap,
  .couple 0 { h0 with seq := 65536 } .swap,
  .couple 0 { h0 with tgt := 65536 } .swap,
  .couple 0 h0 (.define false 8 0 0),
  .couple 0 h0 (.define false 0 (2 ^ 64) 0),
  .couple 0 h0 (.define false 0 0 (2 ^ 31)),
  .couple 0 h0 (.load 65536 []),
  .couple 0 h0 (.load 0 [⟨0, 128⟩]),
  .ident 0 { h0 with ring := 8 } .cancel,
  .ident 0 { h0 with seq := 65536 } .cancel,
  .ident 0 { h0 with tgt := 65536 } .cancel,
  .ident 0 h0 (.start 2 0 0 0 0 0 0 0),
  .ident 0 h0 (.start 0 3 0 0 0 0 0 0),
  .ident 0 h0 (.start 0 0 256 0 0 0 0 0),
  .ident 0 h0 (.start 0 0 0 256 0 0 0 0),
  .ident 0 h0 (.start 0 0 0 0 (2 ^ 31) 0 0 0),
  .ident 0 h0 (.start 0 0 0 0 0 (2 ^ 32) 0 0),
  .ident 0 h0 (.start 0 0 0 0 0 0 (2 ^ 32) 0),
  .ident 0 h0 (.start 0 0 0 0 0 0 0 (2 ^ 31)),
  .camLoad 0 { h0 with ring := 8 } 0 0 0 0 [],
  .camLoad 0 { h0 with seq := 65536 } 0 0 0 0 [],
  .camLoad 0 { h0 with tgt := 65536 } 0 0 0 0 [],
  .camLoad 0 h0 256 0 0 0 [],
  .camLoad 0 h0 0 65536 0 0 [],
  .camLoad 0 h0 0 0 9223372036854775808 0 [],
  .camLoad 0 h0 0 0 0 9223372036854775808 [],
  .camLoad 0 h0 0 0 0 0 [2 ^ 63],
  .camLoad 0 h0 0 0 0 0 [0, 0],
  .axisCfg 0 { h0 with ring := 8 } a0,
  .axisCfg 0 { h0 with seq := 65536 } a0,
  .axisCfg 0 { h0 with tgt := 65536 } a0,
  .axisCfg 0 h0 { a0 with aw := 3 },
  .axisCfg 0 h0 { a0 with kind := 4 },
  .axisCfg 0 h0 { a0 with fbFrac := 32 },
  .axisCfg 0 h0 { a0 with vffFrac := 16 },
  .axisCfg 0 h0 { a0 with stages := 256 }] : List Instr).all (fun c => !c.wellFormed) = true := by decide

theorem test_ill_formed_refused_5 : ([
  .axisCfg 0 h0 { a0 with faultPol := 3 },
  .axisCfg 0 h0 { a0 with stopPol := 3 },
  .axisCfg 0 h0 { a0 with catchK := ⟨0, 128⟩ },
  .axisCfg 0 h0 { a0 with catchV := -1 },
  .nodeMgmtUnmute 0 { h0 with ring := 8 } true 0 1 0 0 [],
  .nodeMgmtUnmute 0 { h0 with seq := 65536 } true 0 1 0 0 [],
  .nodeMgmtUnmute 0 { h0 with tgt := 65536 } true 0 1 0 0 [],
  .nodeMgmtUnmute 0 h0 true 8 1 0 0 [],
  .nodeMgmtUnmute 0 h0 true 0 0 0 0 [],
  .nodeMgmtUnmute 0 h0 true 0 41 0 0 [],
  .nodeMgmtUnmute 0 h0 true 0 1 256 0 [],
  .nodeMgmtUnmute 0 h0 true 0 1 0 18446744073709551616 [],
  .timeStep 0 { h0 with ring := 8 } false 0,
  .timeStep 0 { h0 with seq := 65536 } false 0,
  .timeStep 0 { h0 with tgt := 65536 } false 0,
  .timeStep 0 h0 false 9223372036854775808,
  .timeSelect 0 { h0 with ring := 8 } 0 false,
  .timeSelect 0 { h0 with seq := 65536 } 0 false,
  .timeSelect 0 { h0 with tgt := 65536 } 0 false,
  .timeSelect 0 h0 2 false,
  .nvWrite 0 { h0 with ring := 8 } 0 0 0 [],
  .nvWrite 0 { h0 with seq := 65536 } 0 0 0 [],
  .nvWrite 0 { h0 with tgt := 65536 } 0 0 0 [],
  .nvWrite 0 h0 4294967296 0 0 [],
  .nvWrite 0 h0 0 18446744073709551616 0 [],
  .nvWrite 0 h0 0 0 1 [],
  .nvRead 0 { h0 with ring := 8 } 0 0 0,
  .nvRead 0 { h0 with seq := 65536 } 0 0 0,
  .nvRead 0 { h0 with tgt := 65536 } 0 0 0,
  .nvRead 0 h0 4294967296 0 0,
  .nvRead 0 h0 0 18446744073709551616 0,
  .nvRead 0 h0 0 0 4294967296,
  .safetyLoad 0 { h0 with ring := 8 } (List.replicate 4096 0),
  .safetyLoad 0 { h0 with seq := 65536 } (List.replicate 4096 0),
  .safetyLoad 0 { h0 with tgt := 65536 } (List.replicate 4096 0),
  .safetyLoad 0 h0 [],
  .safetyConfirm 0 { h0 with ring := 8 } 0,
  .safetyConfirm 0 { h0 with seq := 65536 } 0,
  .safetyConfirm 0 { h0 with tgt := 65536 } 0,
  .safetyConfirm 0 h0 4294967296] : List Instr).all (fun c => !c.wellFormed) = true := by decide

theorem test_ill_formed_refused_6 : ([
  .inject 0 { h0 with ring := 8 } false 0,
  .inject 0 { h0 with seq := 65536 } false 0,
  .inject 0 { h0 with tgt := 65536 } false 0,
  .inject 0 h0 false 65536,
  .unfence 0 { h0 with ring := 8 } 0,
  .unfence 0 { h0 with seq := 65536 } 0,
  .unfence 0 { h0 with tgt := 65536 } 0,
  .unfence 0 h0 65536,
  .clearLedger 0 { h0 with ring := 8 },
  .clearLedger 0 { h0 with seq := 65536 },
  .clearLedger 0 { h0 with tgt := 65536 },
  .clearFlags 0 { h0 with ring := 8 } 0,
  .clearFlags 0 { h0 with seq := 65536 } 0,
  .clearFlags 0 { h0 with tgt := 65536 } 0,
  .clearFlags 0 h0 256,
  .trace 0 { h0 with ring := 8 } 0 0 false false 0 0,
  .trace 0 { h0 with seq := 65536 } 0 0 false false 0 0,
  .trace 0 { h0 with tgt := 65536 } 0 0 false false 0 0,
  .trace 0 h0 512 0 false false 0 0,
  .trace 0 h0 0 256 false false 0 0,
  .trace 0 h0 0 0 false false 65536 0,
  .trace 0 h0 0 0 false false 0 65536,
  .descriptorAccepted 0 8 d32 [],
  .descriptorAccepted 0 0 [] [],
  .atPhaseTimeout 0 8 0,
  .atPhaseTimeout 0 0 4294967296,
  .netSegCommit 0 8,
  .fbpCommit 0 8,
  .pulCommit 0 16,
  .adcCommit 0 2,
  .hstRingEnable 0 33,
  .hstRingDisable 0 33,
  .adcPopLoRead 0 2,
  .pulEcntLoRead 0 16,
  .debugWindowRead 0 16777216 0 0 0 0,
  .debugWindowRead 0 0 3 0 0 0,
  .debugWindowRead 0 0 0 65536 0 0,
  .debugWindowRead 0 0 0 0 256 0,
  .debugWindowRead 0 0 0 0 0 65536,
  .debugWindowWrite 0 16777216 0] : List Instr).all (fun c => !c.wellFormed) = true := by decide

theorem test_ill_formed_refused_7 : ([
  .registerWrite 0 16777216 0,
  .unsupportedRequest 0 false 18446744073709551616,
  .railGood 0 9,
  .railTimeout 0 9,
  .railFail 0 9,
  .railFailShutdown 0 9,
  .supplyConditionEnd 0 5,
  .tempHigh 0 4,
  .tempShutdown 0 4,
  .thermalRestart 0 4,
  .temperatureConditionEnd 0 4,
  .flitCrcError 0 4,
  .linkDown 0 4,
  .pllLockLoss 0 6,
  .eccCorr 0 65536 0 0 0 0,
  .eccCorr 0 0 4294967296 0 0 0,
  .eccCorr 0 0 0 65536 0 0,
  .eccCorr 0 0 0 0 256 0,
  .eccCorr 0 0 0 0 0 65536,
  .eccDouble 0 65536 0 0 0,
  .eccDouble 0 0 4294967296 0 0,
  .eccDouble 0 0 0 65536 0,
  .eccDouble 0 0 0 0 131072,
  .parity 0 65536 0,
  .parity 0 0 4294967296,
  .fabricTimeout 0 128,
  .jobWatchdog 0 128,
  .hammerSlow 0 128,
  .softLimit 0 128,
  .preemptStop 0 128,
  .softJobComplete 0 128,
  .jobComplete 0 128,
  .abandonedRunStop 0 128,
  .readyStall 0 16,
  .reissuePoint 0 65568,
  .asbMoveLanded 0 568,
  .unfenceCheckDone 0 65536 true,
  .reportClose 0 8,
  .pourPoint 0 8,
  .ringHealed 0 8] : List Instr).all (fun c => !c.wellFormed) = true := by decide

theorem test_ill_formed_refused_8 : ([
  .delayAdoption 0 8,
  .listenEnd 0 8,
  .csPhaseEnd 0 8,
  .scheduleStart 0 8,
  .mgmtRequestTimeout 0 8,
  .reportLost 0 8 1,
  .reportLost 0 0 0,
  .reportLost 0 0 41,
  .nodeLost 0 8 1,
  .nodeLost 0 0 0,
  .nodeLost 0 0 41,
  .nodeMuted 0 8 1,
  .nodeMuted 0 0 0,
  .nodeMuted 0 0 41,
  .nodeNotFound 0 8 1,
  .nodeNotFound 0 0 0,
  .nodeNotFound 0 0 41,
  .latecomerWithdrawn 0 8 1,
  .latecomerWithdrawn 0 0 0,
  .latecomerWithdrawn 0 0 41,
  .slotTransmit 0 8 0,
  .slotTransmit 0 0 128,
  .rpReceived 0 8 false 0 [],
  .sfReceived 0 8 false 0 [],
  .inAnswer 0 8 false 0 [],
  .lcClaim 0 8 false 0 [],
  .mgAnswer 0 8 false 0 [],
  .receiveOverlap 0 8 false 0 0 0,
  .receiveOverlap 0 0 false 0 128 0,
  .receiveOverlap 0 0 false 0 0 128,
  .syReturn 0 8 none none,
  .channelLost 0 8 false,
  .portLinkChange 0 16 true,
  .csReceived 0 8 false [],
  .syReceived 0 8 false [],
  .ctReceived 0 8 false [],
  .poll 0 [(4096, 0)],
  .cyclePoint 0 4,
  .pcieLinkUp 0 8 0,
  .pcieLinkUp 0 0 8] : List Instr).all (fun c => !c.wellFormed) = true := by decide

theorem test_ill_formed_refused_9 : ([
  .plantFrameSend 0 2 0 0 false [],
  .plantFrameSend 0 0 65536 0 false [],
  .plantFrameSend 0 0 0 1 false [],
  .plantFrameReceived 0 2 0 true [],
  .gptpSyncReceived 0 2 0 0 0 0 0,
  .gptpSyncReceived 0 0 0 18446744073709551616 0 0 0,
  .gptpSyncReceived 0 0 0 0 9223372036854775808 0 0,
  .gptpSyncReceived 0 0 0 0 0 2147483648 0,
  .gptpSyncReceived 0 0 0 0 0 0 128,
  .announceReceived 0 2 0,
  .announceReceived 0 0 18446744073709551616,
  .pdelayReqInterval 0 2,
  .pdelayResponseReceived 0 2 0 0 true,
  .pdelayResponseReceived 0 0 4294967296 0 true,
  .pdelayResponseReceived 0 0 0 2147483648 true,
  .pdelayReqReceived 0 2 [],
  .syncReceiptTimeout 0 2,
  .announceReceiptTimeout 0 2,
  .holdoverExpiry 0 2,
  .illegalTransition 0 8,
  .indexEdge 0 8,
  .fbpWire 0 8,
  .fbpAmpl 0 8,
  .fbpOverspeed 0 8,
  .speedWindowEnd 0 8,
  .encSupplyOvl 0 8,
  .encSupplyRestart 0 8,
  .encSupplySettled 0 8,
  .dividedOutputEdge 0 8,
  .latchEdge 0 16,
  .latchEntryPost 0 16,
  .stepBoundary 0 16,
  .pulHalt 0 16,
  .pulParity 0 16,
  .rateMultiplierCarry 0 16,
  .adcSequenceStart 0 2,
  .adcConversionComplete 0 2 0,
  .adcConversionComplete 0 0 65536,
  .quadratureCount 0 8 true,
  .sincosSample 0 8 0 0] : List Instr).all (fun c => !c.wellFormed) = true := by decide

theorem test_ill_formed_refused_10 : ([
  .sincosSample 0 0 32768 0,
  .sincosSample 0 0 0 32768,
  .twinHbReceived 0 16 0 0 0 z8 [],
  .twinHbReceived 0 0 3 0 0 z8 [],
  .twinHbReceived 0 0 0 2 0 z8 [],
  .twinHbReceived 0 0 0 0 4 z8 [],
  .twinHbReceived 0 0 0 0 0 [] [],
  .tagReceived 0 8 0 0 0 0 0 0 0 0,
  .tagReceived 0 0 8 0 0 0 0 0 0 0,
  .tagReceived 0 0 0 4294967296 0 0 0 0 0 0,
  .tagReceived 0 0 0 0 65536 0 0 0 0 0,
  .tagReceived 0 0 0 0 0 256 0 0 0 0,
  .tagReceived 0 0 0 0 0 0 4294967296 0 0 0,
  .tagReceived 0 0 0 0 0 0 0 256 0 0,
  .tagReceived 0 0 0 0 0 0 0 0 16777216 0,
  .tagReceived 0 0 0 0 0 0 0 0 0 8,
  .cplReceived 0 8 0 d16,
  .cplReceived 0 0 4294967296 d16,
  .cplReceived 0 0 0 [],
  .useReceived 0 8 0 0 0 [] [] [],
  .useReceived 0 0 0 8 0 [] [] [],
  .useReceived 0 0 0 0 1099511627776 [] [] [],
  .mstReceived 0 [],
  .digReceived 0 8 0 0 0,
  .digReceived 0 0 0 8 0,
  .digReceived 0 0 0 0 18446744073709551616,
  .evtReceived 0 [],
  .blkReceived 0 8 0 0 0 0 true [],
  .blkReceived 0 0 0 0 8 0 true [],
  .twinLaneDown 0 2,
  .twinLaneUp 0 2,
  .safetyTick 0 256 0 0 0 0 0,
  .safetyTick 0 0 256 0 0 0 0,
  .safetyTick 0 0 0 65536 0 0 0,
  .safetyTick 0 0 0 0 65536 0 0,
  .safetyTick 0 0 0 0 0 65536 0,
  .safetyTick 0 0 0 0 0 0 65536,
  .testPulseEnd 0 false 4,
  .safDiscrepancy 0 8,
  .stop1DelayExpiry 0 16] : List Instr).all (fun c => !c.wellFormed) = true := by decide

theorem test_ill_formed_refused_11 : ([
  .outputReadbackCheck 0 8 0 0 0,
  .safOverload 0 8,
  .feedbackTimeout 0 8,
  .safConnLost 0 32,
  .singleTimeExpiry 0 32,
  .safetyInputSample 0 false 65536,
  .plantPortLinkChange 0 2 true,
  .powerDomainUp 0 14,
  .msiXVectorUnmask 0 32] : List Instr).all (fun c => !c.wellFormed) = true := by decide

theorem test_well_formed_accepted_1 : ([
  .nop 0 h0,
  .fence 0 h0 0 false,
  .mode 0 h0 0,
  .moveAbs 0 h0 0,
  .moveRel 0 h0 0,
  .jog 0 h0 0,
  .stop 0 h0,
  .limits 0 h0 0 0 0 0 0,
  .follow 0 h0 false false 0 c0 0,
  .gear 0 h0 false 0 0 0 0,
  .camEngage 0 h0 0 false false 0 0 0 0 0,
  .camDisengage 0 h0 false,
  .groupMove 0 h0 .dissolve,
  .phaseIn 0 h0 0,
  .setc 0 h0 0 0 c0,
  .loadset 0 h0 0 0 [],
  .swapset 0 h0 0,
  .terrace 0 h0 0 0 0 0 0 0 0,
  .filter 0 h0 0 0,
  .learn 0 h0 .clear,
  .resample 0 h0 0 0,
  .couple 0 h0 .swap,
  .ident 0 h0 .cancel,
  .camLoad 0 h0 0 0 0 0 [],
  .axisCfg 0 h0 a0,
  .nodeMgmtUnmute 0 h0 true 0 1 0 0 [],
  .timeStep 0 h0 false 0,
  .timeSelect 0 h0 0 false,
  .nvWrite 0 h0 0 0 0 [],
  .nvRead 0 h0 0 0 0,
  .safetyLoad 0 h0 (List.replicate 4096 0),
  .safetyConfirm 0 h0 0,
  .inject 0 h0 false 0,
  .unfence 0 h0 0,
  .clearLedger 0 h0,
  .clearFlags 0 h0 0,
  .trace 0 h0 0 0 false false 0 0,
  .descriptorAccepted 0 0 d32 [],
  .atPhaseTimeout 0 0 0,
  .netSegCommit 0 0] : List Instr).all (fun c => c.wellFormed) = true := by decide

theorem test_well_formed_accepted_2 : ([
  .fbpCommit 0 0,
  .pulCommit 0 0,
  .adcCommit 0 0,
  .hstRingEnable 0 0,
  .hstRingDisable 0 0,
  .adcPopLoRead 0 0,
  .pulEcntLoRead 0 0,
  .debugWindowRead 0 0 0 0 0 0,
  .debugWindowWrite 0 0 0,
  .registerWrite 0 0 0,
  .unsupportedRequest 0 false 0,
  .railGood 0 0,
  .railTimeout 0 0,
  .railFail 0 0,
  .railFailShutdown 0 0,
  .supplyConditionEnd 0 0,
  .tempHigh 0 0,
  .tempShutdown 0 0,
  .thermalRestart 0 0,
  .temperatureConditionEnd 0 0,
  .flitCrcError 0 0,
  .linkDown 0 0,
  .pllLockLoss 0 0,
  .eccCorr 0 0 0 0 0 0,
  .eccDouble 0 0 0 0 0,
  .parity 0 0 0,
  .fabricTimeout 0 0,
  .jobWatchdog 0 0,
  .hammerSlow 0 0,
  .softLimit 0 0,
  .preemptStop 0 0,
  .softJobComplete 0 0,
  .jobComplete 0 0,
  .abandonedRunStop 0 0,
  .readyStall 0 0,
  .reissuePoint 0 0,
  .asbMoveLanded 0 0,
  .unfenceCheckDone 0 0 true,
  .reportClose 0 0,
  .pourPoint 0 0] : List Instr).all (fun c => c.wellFormed) = true := by decide

theorem test_well_formed_accepted_3 : ([
  .ringHealed 0 0,
  .delayAdoption 0 0,
  .listenEnd 0 0,
  .csPhaseEnd 0 0,
  .scheduleStart 0 0,
  .mgmtRequestTimeout 0 0,
  .reportLost 0 0 1,
  .nodeLost 0 0 1,
  .nodeMuted 0 0 1,
  .nodeNotFound 0 0 1,
  .latecomerWithdrawn 0 0 1,
  .slotTransmit 0 0 0,
  .rpReceived 0 0 false 0 [],
  .sfReceived 0 0 false 0 [],
  .inAnswer 0 0 false 0 [],
  .lcClaim 0 0 false 0 [],
  .mgAnswer 0 0 false 0 [],
  .receiveOverlap 0 0 false 0 0 0,
  .syReturn 0 0 none none,
  .channelLost 0 0 false,
  .portLinkChange 0 0 true,
  .csReceived 0 0 false [],
  .syReceived 0 0 false [],
  .ctReceived 0 0 false [],
  .poll 0 [],
  .cyclePoint 0 0,
  .pcieLinkUp 0 0 0,
  .plantFrameSend 0 0 0 0 false [],
  .plantFrameReceived 0 0 0 true [],
  .gptpSyncReceived 0 0 0 0 0 0 0,
  .announceReceived 0 0 0,
  .pdelayReqInterval 0 0,
  .pdelayResponseReceived 0 0 0 0 true,
  .pdelayReqReceived 0 0 [],
  .syncReceiptTimeout 0 0,
  .announceReceiptTimeout 0 0,
  .holdoverExpiry 0 0,
  .illegalTransition 0 0,
  .indexEdge 0 0,
  .fbpWire 0 0] : List Instr).all (fun c => c.wellFormed) = true := by decide

theorem test_well_formed_accepted_4 : ([
  .fbpAmpl 0 0,
  .fbpOverspeed 0 0,
  .speedWindowEnd 0 0,
  .encSupplyOvl 0 0,
  .encSupplyRestart 0 0,
  .encSupplySettled 0 0,
  .dividedOutputEdge 0 0,
  .latchEdge 0 0,
  .latchEntryPost 0 0,
  .stepBoundary 0 0,
  .pulHalt 0 0,
  .pulParity 0 0,
  .rateMultiplierCarry 0 0,
  .adcSequenceStart 0 0,
  .adcConversionComplete 0 0 0,
  .quadratureCount 0 0 true,
  .sincosSample 0 0 0 0,
  .twinHbReceived 0 0 0 0 0 z8 [],
  .tagReceived 0 0 0 0 0 0 0 0 0 0,
  .cplReceived 0 0 0 d16,
  .useReceived 0 0 0 0 0 [] [] [],
  .digReceived 0 0 0 0 0,
  .evtReceived 0 d32,
  .blkReceived 0 0 0 0 0 0 true [],
  .twinLaneDown 0 0,
  .twinLaneUp 0 0,
  .safetyTick 0 0 0 0 0 0 0,
  .testPulseEnd 0 false 0,
  .safDiscrepancy 0 0,
  .stop1DelayExpiry 0 0,
  .outputReadbackCheck 0 0 0 0 0,
  .safOverload 0 0,
  .feedbackTimeout 0 0,
  .safConnLost 0 0,
  .singleTimeExpiry 0 0,
  .safetyInputSample 0 false 0,
  .plantPortLinkChange 0 0 true,
  .powerDomainUp 0 0,
  .msiXVectorUnmask 0 0] : List Instr).all (fun c => c.wellFormed) = true := by decide

/-! ## States that meet the hypotheses of the statements -/

/-- A device in mode `m`. -/
def inMode (m : DevMode) : State := { pw := { mode := m } }

/-- A device in mode `m` with registers in force. -/
def withRegs (m : DevMode) (f : SMap Nat) : State := { pw := { mode := m }, regs := { force := f } }

/-- Two commands that wait, in order. -/
def queued : State := { pending := [.tapReset 3, .vrstCrossed 5] }

theorem witness_StepRunsTheFrontCommand : ∃ c q, queued.pending = c :: q := ⟨_, _, rfl⟩

theorem witness_AnEmptyQueueIdles : State.reset.pending = [] := rfl

theorem witness_StepKeepsTheOrderOfCommands : Safety.Timely queued ∧ ∃ w, step queued = .next w := by
  refine ⟨⟨by decide, by decide⟩, _, rfl⟩

/-- An output that is closed. -/
def closed : State := { saf := { outs := [(7, { on := true })] } }

theorem witness_OnlyTheSafetyTickClosesAnOutput :
    (∃ w, exec (.tapReset 3) closed = .next w ∧ (w.safOut 7).on = true) ∧ (Instr.tapReset 3).isSafetyTick = false :=
  ⟨⟨_, rfl, by decide⟩, by decide⟩

/-- A page write in progress: one page, the last of the store. -/
def writing : State :=
  { pw := { mode := .commission }, nv := { job := some (.write 5 16383 (List.replicate 1024 7) 0), startedAt := 0 } }

theorem witness_OnlyThePageInProgressChanges :
    (∃ w, exec (.nvPageWriteDone 4) writing = .next w) ∧ ∀ j, writing.nv.job = some j → j.pageOf ≠ 16382 := by
  refine ⟨⟨_, rfl⟩, fun j h => ?_⟩
  cases h
  decide

theorem witness_StepKeepsTheNvStoreCanonical :
    ({ writing with pending := [.nvPageWriteDone 4] } : State).nv.wf = true ∧
      ∃ w, step { writing with pending := [.nvPageWriteDone 4] } = .next w := ⟨by decide, _, rfl⟩

theorem witness_OnlyTheSupervisorChangesTheSupplies :
    (∃ w, exec (.nvPageWriteDone 4) writing = .next w) ∧ (Instr.nvPageWriteDone 4).isSupervisor = false := ⟨⟨_, rfl⟩, rfl⟩

theorem witness_TapInstructionsLoadTheTap :
    (∃ w, exec (.vrstCrossed 4) State.reset = .next w) ∧ (Instr.vrstCrossed 4).isTap = false := ⟨⟨_, rfl⟩, rfl⟩

/-- Sequencing has enabled rail `r` at time 0. -/
def enabling (r : Rail) (good : List Rail) : State :=
  { pw := { mode := .reset, enabling := some (r, 0), railsGood := good } }

theorem witness_RailsComeUpInOrder :
    (let b := State.reset.before 0; b.maySequence = true ∧ b.pw.attempts = 0) ∧
    ((enabling .vio []).before 4).pw.enabling = some (.vio, 0) ∧
    ((enabling .vafe [.vio]).before 4).pw.enabling = some (.vafe, 0) ∧
    ((enabling .v1p0 [.vio, .vafe]).before 4).pw.enabling = some (.v1p0, 0) ∧
    (let b := (enabling .vcore [.vio, .vafe, .v1p0]).before 4;
      b.pw.enabling = some (.vcore, 0) ∧ b.pw.mode = .reset ∧ Rail.vio ∈ b.pw.railsGood ∧ Rail.vafe ∈ b.pw.railsGood ∧
        Rail.v1p0 ∈ b.pw.railsGood ∧ b.pw.hold = false ∧ b.pw.vrst = false) ∧
    (let b := (enabling .vio []).before 8000000; b.pw.enabling = some (Rail.ofCode 1, 0) ∧ 0 + 8000000 ≤ b.now ∧ b.pw.attempts < 2) ∧
    (let b := ({ pw := { mode := .reset, enabling := some (.vcore, 0), attempts := 2 } } : State).before 8000000;
      b.pw.enabling = some (Rail.ofCode 4, 0) ∧ 0 + 8000000 ≤ b.now ∧ 2 ≤ b.pw.attempts) ∧
    (let b := ({ pw := { mode := .reset, attempts := 2, failedAt := 0 } } : State).before 400000000;
      b.maySequence = true ∧ 1 ≤ b.pw.attempts ∧ b.pw.attempts < 3 ∧ b.pw.failedAt + 400000000 ≤ b.now) ∧
    3 ≤ (({ pw := { mode := .reset, attempts := 3 } } : State).before 4).pw.attempts := by decide

/-- A running device with every rail good and its PLLs locked. -/
def powered : State :=
  { pw := { mode := .run, railsGood := [.vaon, .vio, .vafe, .v1p0, .vcore], plls := [2, 3, 4, 5, 6, 7], railLost := some 0,
            shutAt := some 0 } }

theorem witness_ResetClearsTheSpine :
    let b := powered.before 4000000;
    b.pw.mode ≠ .reset ∧ 0 + 2 ∈ b.pw.plls ∧ 5 + 2 ∈ b.pw.plls ∧ b.tdDue = true ∧ b.pw.sequenced = true ∧
      b.pw.railLost = some 0 ∧ b.pw.shutAt = some 0 ∧ 0 + 4000000 ≤ b.now := by decide

/-- A package that a thermal shutdown holds in RESET, one die hot. -/
def tooHot : State := { pw := { mode := .reset, cause := .thermal, shut := [3], hot := [3], railsGood := [.vaon] } }

theorem witness_SuppliesAndTemperaturesAct :
    (let b := powered.before 4;
      b.pw.nvw = false ∧ b.pw.hold = false ∧ b.pw.mode = .run ∧ b.pw.sequenced = true ∧
        b.pw.vsuv = false ∧ 3 ∉ b.pw.hot ∧ 3 ∉ b.pw.shut) ∧
    (let b := tooHot.before 4;
      b.pw.mode = .reset ∧ b.pw.cause = .thermal ∧ b.pw.shut = [3] ∧ b.pw.railsGood = [.vaon] ∧ b.pw.enabling = none ∧
        b.pw.vrst = false ∧ b.pw.attempts < 3) := by decide

theorem witness_ThePackageBoots :
    (let b := (inMode .idle).before 4; 3 ∉ b.pw.domains ∧ 8 ∉ b.pw.domains ∧ 10 ∉ b.pw.domains ∧ b.pw.mode ≠ .reset) ∧
    (let b := (({ (withRegs .idle [(0x0E0000, 0x80000000)]) with
        pw := { mode := .idle, domains := [11] }, an := { refOnAt := 0 } } : State).before 8000000);
      b.refEn = true ∧ 11 ∈ b.pw.domains ∧ b.an.refOnAt + 8000000 ≤ b.now) ∧
    (let b := State.reset.before 4; b.tdDue = true) ∧
    (let b := ({ pw := { tdAt := some 0 } } : State).before 3999996; b.pw.tdAt = some 0 ∧ b.now < 0 + 4000000) ∧
    (let b := ({ pw := { mode := .boot, railsGood := [.vaon, .vio, .vafe, .v1p0, .vcore] } } : State).before 4;
      b.pw.mode = .boot ∧ b.pw.plls = [] ∧ b.pw.sequenced = true ∧ b.nvFenced = false) ∧
    (let b := ({ pw := { plls := [2, 3, 4, 5, 6, 7] } } : State).before 4;
      b.pw.mode = .boot ∧ b.pw.plls ≠ [] ∧ b.nvFenced = false ∧ b.nv.bootImage = none) ∧
    (let b := ({ pw := { plls := [2, 3, 4, 5, 6, 7] }, nv := { aValid := true, pages := [(64, List.replicate 1024 0)] } } : State).before 4;
      b.pw.mode = .boot ∧ b.pw.plls ≠ [] ∧ b.nvFenced = false ∧ b.nv.bootImage = some false ∧ b.nv.imageBody false = [] ∧
        byteAt (b.nv.imageHead false) 16 = 0) := by decide

/-- A header of target `tgt`. -/
def hd (tgt : Nat) : DHdr := ⟨0, 0, false, tgt⟩

/-- A read of the store in progress whose last page remains. -/
def reading (left : Nat) : State := { pw := { mode := .idle }, nv := { job := some (.read 5 16383 left 4096 1024) } }

/-- A mark of the ledger's own that has waited since time 0. -/
def mark0 : Mark := ⟨0x5010, 0x32, 1, 0, 0, 0, 0, 1, [], false, false, true⟩

theorem witness_NvTransfersRunPageByPage :
    (let b := (inMode .idle).before 4; (b.nv.waiting = [] ∨ b.nv.job.isSome = true) ∧ b.nvFenced = false ∧ nvRange 0x1FFFC00 4096 1024 = none ∧
      snapAxis 0x1FFFC00 4096 = none ∧ areaOf 0x1FFFC00 = some .user ∧ NvArea.user.writable = true ∧ NvArea.user.inMode b.pw.mode = true ∧
      Taken b (hd 0xFFFF) (.nvWrite 0x1FFFC00 4096 1024 (List.replicate 1024 7)) ∧ b.nvBarred = false ∧
      Taken b (hd 0xFFFF) (.nvRead 0x1FFFC00 4096 1024)) ∧
    (let b := ({ pw := { mode := .idle, nvw := true } } : State).before 4; (b.nv.waiting = [] ∨ b.nv.job.isSome = true) ∧ b.nvFenced = false ∧
      Taken b (hd 0xFFFF) (.nvWrite 0x1FFFC00 4096 1024 (List.replicate 1024 7)) ∧ b.nvBarred = true) ∧
    (let b := (inMode .idle).before 4; Taken b (hd 0xFFFF) (.nvRead 0x1FFFC00 4096 0) ∧ snapAxis 0x1FFFC00 4096 = none) ∧
    (let b := writing.before 4000000; b.nv.job = some (.write 5 16383 (List.replicate 1024 7) 0) ∧
      (List.replicate 1024 (7 : Byte)).drop 1024 = [] ∧ b.nv.waiting = [] ∧ (b.nv.job.map NvJob.writes) = some true ∧
      b.nv.startedAt + 4000000 ≤ b.now) ∧
    (let b := writing.before 3999996; b.nv.job = some (.write 5 16383 (List.replicate 1024 7) 0) ∧ b.now < b.nv.startedAt + 4000000) ∧
    (let b := ({ writing with nv := { job := some (.write 5 16382 (List.replicate 2048 7) 0) } } : State).before 4;
      b.nv.job = some (.write 5 16382 (List.replicate 2048 7) 0) ∧ (List.replicate 2048 (7 : Byte)).drop 1024 ≠ [] ∧ b.nvBarred = false ∧
      b.nv.waiting = []) ∧
    (let b := ({ nv := { job := some (.ledger 7 [[5]]) } } : State).before 4; b.nv.job = some (.ledger 7 ([5] :: []))) ∧
    (∀ l ∈ [1, 2], let b := (reading l).before 4; b.nv.job = some (.read 5 16383 l 4096 1024) ∧ b.nv.waiting = [] ∧
      b.fenced srcHostEngine = false) ∧
    (let b := ({ nv := { job := some (.snapshot 5 511 22519 1 []) } } : State).before 4; b.nv.job = some (.snapshot 5 511 22519 1 [])) ∧
    (let b := ({ asy := { persistDue := true, unpersisted := 1, cnt := 1 } } : State).before 4;
      b.asy.persistDue = true ∧ b.nvFenced = false ∧ b.fenced (srcCode 4 0x006) = false ∧ 0 < min b.asy.unpersisted b.asy.cnt ∧
      b.nv.job = none ∧ b.nv.waiting = []) ∧
    (State.reset.before 4).asy.persistDue = false := by
  unfold Taken
  decide

/-- The head of the snapshot of axis 0, whose 512 bins are blank. -/
def snap0 : List Byte := [0, 0, 9, 1] ++ List.replicate 24 0 ++ leBytes 4 (crc32c (List.replicate 2048 255)) ++ List.replicate 992 0

/-- An axis that learns with phase master 560, and a store that holds the snapshot of axis 0. -/
def snapped : State :=
  { pw := { mode := .idle }, axes := [(0, { ln := { log2n := 9, master := some 560 } })], nv := { pages := [(0x1100000 / 1024, snap0)] } }

theorem witness_NvTransfersAreQueued_snapshots :
    let b := snapped.before 4; (b.nv.waiting = [] ∨ b.nv.job.isSome = true) ∧ b.nvFenced = false ∧ b.nvBarred = false ∧
      nvRange 0x1100000 0 0x2400 = none ∧ areaOf 0x1100000 = some .snapshots ∧ NvArea.snapshots.writable = true ∧
      NvArea.snapshots.inMode b.pw.mode = true ∧ snapAxis 0x1100000 0 = some 0 ∧ (b.axis 0).ln.master.isSome = true ∧
      Taken b (hd 0xFFFF) (.nvWrite 0x1100000 0 0x2400 []) ∧ Taken b (hd 0xFFFF) (.nvRead 0x1100000 0 0x2400) ∧ b.pw.mode = .idle ∧
      snapOk 0 (b.axis 0).ln (b.nv.readPages (0x1100000 / 1024) 9) = true := by
  unfold Taken
  decide +kernel

/-- The smallest parameter set that has no fault: its version, T_DISC and WD_TICK, and nothing used. -/
def sps0 : List Byte := [1] ++ List.replicate 15 0 ++ [10, 0, 200, 0] ++ List.replicate 4076 0

theorem witness_SafetyParametersAreLoadedAndConfirmed :
    (let b := (inMode .commission).before 4; Taken b (hd 0xFFFF) (.safetyLoad sps0) ∧ b.pw.mode = .commission ∧
      leastOf (spsRange sps0) = none ∧ leastOf (spsIncons sps0) = none) ∧
    (let b := (inMode .run).before 4; Taken b (hd 0xFFFF) (.safetyLoad sps0) ∧ b.pw.mode ≠ .commission) ∧
    (let b := ({ pw := { mode := .commission }, saf := { loaded := some sps0, checkLoaded := 9 } } : State).before 4;
      Taken b (hd 0xFFFF) (.safetyConfirm 9) ∧ b.pw.mode = .commission ∧ b.saf.loaded = some sps0 ∧ 9 = b.saf.checkLoaded ∧
      b.nvBarred = false ∧ b.nvFenced = false ∧ b.nv.job = none ∧ b.nv.waiting = [] ∧
      Taken b (hd 0xFFFF) (.safetyConfirm 8) ∧ 8 ≠ b.saf.checkLoaded) ∧
    (let b := ({ pw := { mode := .commission }, saf := { sps := some sps0, checkForce := 9 } } : State).before 4;
      Taken b (hd 0xFFFF) (.safetyConfirm 9) ∧ b.pw.mode = .commission ∧ b.saf.loaded = none ∧ b.saf.sps.isSome = true ∧ b.ackInput = none ∧
      9 = b.saf.checkForce) ∧
    (let b := ({ nv := { job := some (.confirm 5 8224 [7] 9) }, saf := { loaded := some sps0, checkLoaded := 9 } } : State).before 4;
      b.nv.job = some (.confirm 5 8224 [7] 9) ∧ [(7 : Byte)].drop 1024 = [] ∧ b.nv.waiting = [] ∧ b.saf.loaded = some sps0 ∧
      b.saf.checkLoaded = 9) := by
  unfold Taken
  decide +kernel

theorem witness_MarksAreRecordedAndReleased :
    (let b := ({ pw := { mode := .run }, host := { rings := [(24, { on := true })] }, asy := { held := [mark0] } } : State).before 16000;
      b.asy.held = [mark0] ∧ mark0.mt + 4000 ≤ b.mt ∧ mark0.applied = true ∧ b.fenced srcAssay = false ∧ b.asy.written < 64 ∧ b.fenced (srcCode 4 0x006) = false ∧
      b.withholds mark0.kind mark0.react = false ∧ (b.ringOf 24).on = true ∧ b.room 24 1 = true) ∧
    (let b := ({ asy := { held := [mark0] } } : State).before 15996; ∀ m ∈ b.asy.held, b.mt < m.mt + 4000) := by decide

theorem witness_ErrorsAreReported :
    (let b := (inMode .run).before 4; b.fenced (srcHammer 127) = false ∧ b.yields 127 = false ∧ SMap.get 0 b.pw.retrans 3 < 16) ∧
    (let b := ({ pw := { mode := .run, retrans := [(3, 16)] } } : State).before 4;
      SMap.get 0 b.pw.retrans 3 = 16 ∧ (srcCode 5 3, 0x10) ∉ b.asy.once) ∧
    (let b := ({ pw := { mode := .run }, saf := { a := { powered := true }, b := { powered := true } } } : State).before 4;
      1 ∉ b.pw.linksDown ∧ 2 ∉ b.pw.linksDown ∧ 3 ∉ b.pw.linksDown ∧ b.saf.a.powered = true ∧ b.saf.b.powered = true) := by decide

theorem witness_AssayDescriptorsAct :
    (let b := (inMode .run).before 4; Taken b (hd 0xFFFF) .clearLedger) ∧
    (let b := (inMode .idle).before 4; Taken b (hd 0xFFFF) (.inject true (srcHammer 127)) ∧ b.pw.mode = .idle ∧
      safetySrc (srcHammer 127) = false ∧ armable (srcHammer 127) = true ∧ (∀ x ∈ b.asy.armed, x.1 ≠ srcHammer 127) ∧ b.leads = false) ∧
    (let b := ({ pw := { mode := .run }, asy := { src := [(srcHammer 127, { fenced := true })] } } : State).before 4;
      Taken b (hd 0xFFFF) (.unfence (srcHammer 127)) ∧ b.pw.mode ≠ .reset ∧ b.pw.mode ≠ .boot ∧ b.pw.mode ≠ .safeHold ∧
      fenceable (srcHammer 127) = true ∧ srcLevel (srcHammer 127) ≠ 6 ∧ b.fenced (srcHammer 127) = true ∧
      ∀ c ∈ b.pool.checks, c.1 ≠ srcHammer 127) ∧
    (let b := ({ pool := { checks := [(srcHammer 127, 6)] } } : State).before 4;
      b.pool.checks.find? (fun c => decide (c.1 = srcHammer 127)) = some (srcHammer 127, 6)) := by
  unfold Taken
  decide

/-- A running device whose axis `a` has its limits and the motion state that `f` gives it. -/
def moving (a : Nat) (f : Motion → Motion) : State :=
  { pw := { mode := .run }, axes := [(a, { mode := .closed, mo := f { hasLim := true } })],
    host := { rings := [(0, { on := true }), (8, { on := true })] } }

theorem witness_ChecksComeFirstAndNopTellsTheTime :
    (let b := (inMode .run).before 4; Instr.descr (.jog 4 (hd 560) 5) = some (4, hd 560, .jog 5) ∧ tgtOk (opcOf (.jog 5)) 560 = false ∧
      tgtOk (opcOf (.jog 5)) 559 = true ∧ b.modeExcludes (opcOf (.jog 5)) = false) ∧
    (let b := (inMode .safeHold).before 4; tgtOk (opcOf (.jog 5)) 559 = true ∧ b.modeExcludes (opcOf (.jog 5)) = true) ∧
    (let b := (moving 0 id).before 4; b.host.acc = [] ∧ b.postsLeaders = false ∧ (b.ringOf (8 + (hd 0).ring)).on = true ∧
      Taken b (hd 0xFFFF) .nop ∧ b.segOf 0xFFFF = none) ∧
    (let op : DOp := .terrace 0 5 1 0 0 0 0; let b := (inMode .run).before 4;
      tgtOk (opcOf op) 511 = true ∧ b.modeExcludes (opcOf op) = false ∧ (payloadFault op 511).isSome = true) := by
  unfold Taken
  decide

/-- A gear that is locked. -/
def gear0 : Eng := { isCam := false, master := 560, st := .locked }
/-- A cam that is locked. -/
def cam0 : Eng := { isCam := true, master := 560, st := .locked }
/-- A stop in progress. -/
def stop0 : StopRun := { pol := 1, dmax := 1, jmax := 1, destop := 1, fault := false, ids := [] }

theorem witness_MovesSetTheTarget :
    (let b := (moving 559 id).before 4; Taken b (hd 559) (.moveAbs (2 ^ 63 - 1)) ∧ b.motionBar (b.cmdCtx (hd 559) (.moveAbs (2 ^ 63 - 1))) 559 .other = none ∧
      Taken b (hd 559) (.moveRel 5) ∧ b.motionBar (b.cmdCtx (hd 559) (.moveRel 5)) 559 .other = none ∧
      (b.axis 559).mo.locked = none ∧ fits64 ((b.axis 559).mo.target + 5) = true ∧
      Taken b (hd 559) (.jog (-5)) ∧ b.motionBar (b.cmdCtx (hd 559) (.jog (-5))) 559 .other = none) ∧
    (let b := (moving 0 fun m => { m with src := .move (2 ^ 63 - 1) none none false }).before 4;
      Taken b (hd 0) (.moveRel 1) ∧ b.motionBar (b.cmdCtx (hd 0) (.moveRel 1)) 0 .other = none ∧
      (b.axis 0).mo.locked = none ∧ fits64 ((b.axis 0).mo.target + 1) = false) ∧
    (let b := (moving 0 fun m => { m with src := .eng gear0 }).before 4;
      Taken b (hd 0) (.moveRel 5) ∧ b.motionBar (b.cmdCtx (hd 0) (.moveRel 5)) 0 .other = none ∧ (b.axis 0).mo.locked.isSome = true) := by
  unfold Taken
  decide

theorem witness_StopsAndLimitsAct :
    (let b := (moving 559 id).before 4; Taken b (hd 559) .stop ∧ b.motionBar (b.cmdCtx (hd 559) .stop) 559 .stop = none ∧
      (b.axis 559).onPath = none ∧ b.chFenced 559 = false ∧ (b.axis 559).mo.stop = none ∧
      Taken b (hd 559) (.limits (0x7FFFFFFF) 1 1 1 1) ∧
      b.motionBar (b.cmdCtx (hd 559) (.limits (0x7FFFFFFF) 1 1 1 1)) 559 .limits = none ∧
      Taken b (hd 527) (.camDisengage true)) ∧
    (let b := (moving 0 fun m => { m with stop := some stop0 }).before 4; Taken b (hd 0) .stop ∧
      b.motionBar (b.cmdCtx (hd 0) .stop) 0 .stop = none ∧ (b.axis 0).onPath = none ∧ b.chFenced 0 = false ∧
      (b.axis 0).mo.stop = some stop0) ∧
    (let b := (moving 0 id).before 4; b.motionBar (b.cmdCtx (hd 0) (.camDisengage true)) 0 .other = none ∧ (b.axis 0).mo.onCam = false) ∧
    (let b := (moving 0 fun m => { m with src := .eng cam0 }).before 4;
      (∀ hv ∈ [true, false], Taken b (hd 0) (.camDisengage hv) ∧ b.motionBar (b.cmdCtx (hd 0) (.camDisengage hv)) 0 .other = none) ∧
      (b.axis 0).mo.onCam = true ∧ (b.axis 0).mo.stop = none) := by
  unfold Taken
  decide

/-- Registers of a segment 0 of 250-granule cycles that carries axis 0 at node 1: CFG, GUARD and PP, the axis mask, a CT entry, an RP entry of
node 1, an SY entry, an SF entry of node 1 and NODE(1). -/
def segRegs (pp : Nat) : SMap Nat :=
  [(0x080000, 0), (0x080004, 4), (0x080008, pp), (0x080018, 1), (0x080100, 0x10000000 + 2 * 20), (0x080104, 0x20400000 + 512 * 40 + 2 * 4),
   (0x080108, 0x30000000 + 512 * 60 + 2 * 8), (0x08010C, 0x40400000 + 512 * 80 + 2 * 8), (0x080304, 0x80000100)]

/-- A running device with segment 0 in state `g`, its pour point at `pp`, and axis 0 in the motion state that `f` gives it. -/
def onNet (pp : Nat) (g : Segment) (f : Motion → Motion) : State :=
  { pw := { mode := .run }, regs := { force := segRegs pp }, segs := [(0, g)],
    axes := [(0, { mode := .closed, mo := f { hasLim := true } })] }

/-- The segment runs. -/
def seg0 : Segment := { ring := .running, linkW := true, linkE := true }

/-- A cam table is loaded. -/
def withCam (s : State) : State := { s with cams := [(255, { s := 1, rise := 0, y := [0, 0] })] }

/-- The change of axis 0 that a source makes. -/
def engaged (b : State) (a : Nat) (op : DOp) (f : Motion → Motion) (l : List (Nat × Nat)) : State :=
  (b.cmdTaken (hd a) op).engage (b.cmdCtx (hd a) op) a f l

/-- A change of axis 0 that its segment admits. -/
theorem admits0 {b v w : State} (hs : b.segOf 0 = some 0) (h : admitChange v w 0 = true) : Admits b v w 0 :=
  Or.inr fun k hk => by rw [hs] at hk; cases hk; exact h

/-- A change of axis 0 that its segment does not admit. -/
theorem not_admits0 {b v w : State} (hs : b.segOf 0 = some 0) (hr : b.tw.role ≠ .follower) (h : admitChange v w 0 = false) :
    ¬ Admits b v w 0 := fun ha => ha.elim hr fun f => by rw [f 0 hs] at h; cases h

/-- FOLLOW of the last master port. -/
def follow0 : DOp := .follow false true 567 ⟨1, 1⟩ 5
/-- The source that it puts on. -/
def followSrc : Motion → Motion :=
  fun m => { m with src := .follow { ai := false, pos := true, src := 567, g := ⟨1, 1⟩, lagmax := 5 }, zeroTq := false }

theorem witness_SourcesEngage_follow :
    (let b := (onNet 240 seg0 id).before 4; Taken b (hd 0) follow0 ∧ b.motionBar (b.cmdCtx (hd 0) follow0) 0 .follow = none ∧
      b.followFault 0 false true 567 = false ∧ Admits b (b.cmdTaken (hd 0) follow0) (engaged b 0 follow0 followSrc [(b.host.nextId, 0x00)]) 0 ∧
      b.followFault 0 true true 7 = true ∧ Taken b (hd 0) (.follow true true 7 ⟨1, 1⟩ 5)) ∧
    (let b := (onNet 0 seg0 fun m => { m with src := .eng cam0 }).before 4; Taken b (hd 0) follow0 ∧
      b.motionBar (b.cmdCtx (hd 0) follow0) 0 .follow = none ∧ b.followFault 0 false true 567 = false ∧
      ¬ Admits b (b.cmdTaken (hd 0) follow0) (engaged b 0 follow0 followSrc [(b.host.nextId, 0x00)]) 0) := by
  refine ⟨⟨?_, by decide, by decide, admits0 (by decide) (by decide), by decide, ?_⟩, ?_, by decide, by decide,
    not_admits0 (by decide) (by decide) (by decide)⟩ <;> unfold Taken <;> decide

/-- A gear of the last master port, 2 to -4. -/
def gearOp (virt : Bool) : DOp := .gear virt 567 2 (-4) 5
/-- The engagement that it puts on. -/
def gearEng (b : State) : Eng :=
  { isCam := false, master := 567, n := (gearRatio 2 (-4)).1, m := (gearRatio 2 (-4)).2, ofs := 5, st := .catching, id := some b.host.nextId }

theorem witness_SourcesEngage_gear :
    (let b := (onNet 240 seg0 id).before 4; Taken b (hd 0) (gearOp false) ∧ b.motionBar (b.cmdCtx (hd 0) (gearOp false)) 0 .other = none ∧
      (b.axis 0).mo.locked = none ∧ b.masterOk 0 567 = true ∧ b.masterOk 0 0 = false ∧ b.masterOk 0 527 = false ∧
      Admits b (b.cmdTaken (hd 0) (gearOp false)) (engaged b 0 (gearOp false) (fun m => { m with src := .eng (gearEng b) }) []) 0) ∧
    (let b := (onNet 0 seg0 fun m => { m with src := .eng { cam0 with st := .catching } }).before 4; Taken b (hd 0) (gearOp false) ∧
      b.motionBar (b.cmdCtx (hd 0) (gearOp false)) 0 .other = none ∧ (b.axis 0).mo.locked = none ∧ b.masterOk 0 567 = true ∧
      ¬ Admits b (b.cmdTaken (hd 0) (gearOp false)) (engaged b 0 (gearOp false) (fun m => { m with src := .eng (gearEng b) }) []) 0) ∧
    (∀ a ∈ [528, 559], let b := (moving a id).before 4; Taken b (hd a) (gearOp true) ∧
      b.motionBar (b.cmdCtx (hd a) (gearOp true)) a .other = none ∧ b.masterOk a 567 = true) := by
  refine ⟨⟨?_, by decide, by decide, by decide, by decide, by decide, admits0 (by decide) (by decide)⟩,
    ⟨?_, by decide, by decide, by decide, not_admits0 (by decide) (by decide) (by decide)⟩, ?_⟩ <;> unfold Taken <;> decide

/-- CAM_ENGAGE of the last table in its catching mode. -/
def camOp : DOp := .camEngage 255 true false 0 567 1 2 3
/-- The engagement that it puts on. -/
def camEng (b : State) : Eng :=
  { isCam := true, master := 567, table := 255, cubic := false, oc := 1, cont := true, b := 2, st := .catching, id := some b.host.nextId }

theorem witness_SourcesEngage_cam :
    (let b := (withCam (onNet 240 seg0 id)).before 4; Taken b (hd 0) camOp ∧ b.motionBar (b.cmdCtx (hd 0) camOp) 0 .other = none ∧
      (b.cams.lookup 255).isSome = true ∧ b.masterOk 0 567 = true ∧ b.cams.lookup 254 = none ∧
      Admits b (b.cmdTaken (hd 0) camOp) (engaged b 0 camOp (fun m => { m with src := .eng (camEng b) }) []) 0) ∧
    (let b := (withCam (onNet 0 seg0 id)).before 4; Taken b (hd 0) camOp ∧
      b.motionBar (b.cmdCtx (hd 0) camOp) 0 .other = none ∧ (b.cams.lookup 255).isSome = true ∧ b.masterOk 0 567 = true ∧
      ¬ Admits b (b.cmdTaken (hd 0) camOp) (engaged b 0 camOp (fun m => { m with src := .eng (camEng b) }) []) 0) := by
  refine ⟨⟨?_, by decide, by decide, by decide, by decide, admits0 (by decide) (by decide)⟩,
    ⟨?_, by decide, by decide, by decide, not_admits0 (by decide) (by decide) (by decide)⟩⟩ <;> unfold Taken <;> decide

theorem witness_SourcesEngage_phaseIn :
    (let b := (moving 527 id).before 4; Taken b (hd 527) (.phaseIn 0x10000) ∧
      b.motionBar (b.cmdCtx (hd 527) (.phaseIn 0x10000)) 527 .other = none ∧ (b.axis 527).mo.retained = none) ∧
    (let b := (moving 0 fun m => { m with retained := some gear0 }).before 4; Taken b (hd 0) (.phaseIn 0x10000) ∧
      b.motionBar (b.cmdCtx (hd 0) (.phaseIn 0x10000)) 0 .other = none ∧ (b.axis 0).mo.retained = some gear0) := by
  unfold Taken
  decide

/-- What PHASE_IN makes of a retained gear. -/
def phasedIn (b : State) : State :=
  (b.cmdTaken (hd 0) (.phaseIn 0x10000)).engage (b.cmdCtx (hd 0) (.phaseIn 0x10000)) 0
    (fun m => { m with src := .eng { gear0 with st := .phasing 0x10000 0 0 0 false, id := some b.host.nextId }, retained := none }) []

theorem witness_SourcesEngage_phaseIn_admitted :
    (let b := (onNet 240 seg0 fun m => { m with retained := some gear0 }).before 4; Taken b (hd 0) (.phaseIn 0x10000) ∧
      b.motionBar (b.cmdCtx (hd 0) (.phaseIn 0x10000)) 0 .other = none ∧ (b.axis 0).mo.retained = some gear0 ∧
      Admits b (b.cmdTaken (hd 0) (.phaseIn 0x10000)) (phasedIn b) 0) ∧
    (let b := (onNet 0 seg0 fun m => { m with retained := some gear0, src := .eng cam0 }).before 4; Taken b (hd 0) (.phaseIn 0x10000) ∧
      b.motionBar (b.cmdCtx (hd 0) (.phaseIn 0x10000)) 0 .other = none ∧ (b.axis 0).mo.retained = some gear0 ∧
      ¬ Admits b (b.cmdTaken (hd 0) (.phaseIn 0x10000)) (phasedIn b) 0) := by
  refine ⟨⟨?_, by decide, by decide, admits0 (by decide) (by decide)⟩,
    ⟨?_, by decide, by decide, not_admits0 (by decide) (by decide) (by decide)⟩⟩ <;> unfold Taken <;> decide

/-- What CAM_DISENGAGE makes of an axis, holding its velocity. -/
def freed (b : State) : State :=
  let m := (b.axis 0).mo
  let l := m.leave stSuperseded false
  ((b.cmdTaken (hd 0) (.camDisengage true)).modAxis 0 fun ax => { ax with mo := { l.1 with src := .jog m.v none } }).endMotion
    (b.cmdCtx (hd 0) (.camDisengage true)) 0 (endingOf l.2 ++ [(b.host.nextId, 0x00)])

theorem witness_StopsAndLimitsAct_disengaged :
    (let b := (onNet 240 seg0 fun m => { m with src := .eng cam0 }).before 4; Taken b (hd 0) (.camDisengage true) ∧
      b.motionBar (b.cmdCtx (hd 0) (.camDisengage true)) 0 .other = none ∧ (b.axis 0).mo.onCam = true ∧
      Admits b (b.cmdTaken (hd 0) (.camDisengage true)) (freed b) 0) ∧
    (let b := (onNet 0 seg0 fun m => { m with src := .eng { cam0 with cubic := true } }).before 4; Taken b (hd 0) (.camDisengage true) ∧
      b.motionBar (b.cmdCtx (hd 0) (.camDisengage true)) 0 .other = none ∧ (b.axis 0).mo.onCam = true ∧
      ¬ Admits b (b.cmdTaken (hd 0) (.camDisengage true)) (freed b) 0) := by
  refine ⟨⟨?_, by decide, by decide, admits0 (by decide) (by decide)⟩,
    ⟨?_, by decide, by decide, not_admits0 (by decide) (by decide) (by decide)⟩⟩ <;> unfold Taken <;> decide

/-- A group of axis 0 alone. -/
def group0 : IGroup := { seg := 0, members := [0] }

theorem witness_GroupsFormMoveAndDissolve :
    (let b := (onNet 240 seg0 id).before 4; b.pw.mode ≠ .commission ∧ b.pw.mode ≠ .idle ∧ (∀ k, b.stopActs k = false) ∧
      Taken b (hd 31) (.groupMove (.define 0 1)) ∧ b.igroups.lookup 31 = none ∧ b.mayForm 31 (maskAxes 0 1) = true ∧
      admitChange (b.cmdTaken (hd 31) (.groupMove (.define 0 1))) { b.cmdTaken (hd 31) (.groupMove (.define 0 1)) with
        igroups := SMap.insert (SMap.erase b.igroups 31) 31 { seg := 0, members := maskAxes 0 1 } } 0 = true) ∧
    (let b := ({ onNet 240 seg0 id with igroups := [(31, group0)] } : State).before 4; Taken b (hd 31) (.groupMove .dissolve) ∧
      b.igroups.lookup 31 = some group0 ∧ group0.moving = none ∧ group0.members = [0] ∧
      admitChange (b.cmdTaken (hd 31) (.groupMove .dissolve)) { b.cmdTaken (hd 31) (.groupMove .dissolve) with
        igroups := SMap.erase b.igroups 31 } 0 = true ∧
      Taken b (hd 31) (.groupMove (.move [5])) ∧ b.groupBar (b.cmdCtx (hd 31) (.groupMove (.move [5]))) group0 1 = none) ∧
    (let b := ({ onNet 240 seg0 id with axes := [(0, { set := { stages := 128 } })] } : State).before 4;
      Taken b (hd 31) (.couple (.define false 0 1 5)) ∧ b.coupleBar 31 (.define false 0 1 5) = none ∧
      admitChange (b.cmdTaken (hd 31) (.couple (.define false 0 1 5)))
        (((b.cmdTaken (hd 31) (.couple (.define false 0 1 5))).couple 31 (.define false 0 1 5)).finish b.host.nextId 0x00 (zeros 8)) 0 = true) ∧
    (let b := ({ pw := { mode := .follow }, tw := { role := .follower }, cgroups := [(31, ⟨0, false, [0], 5, [], 0, []⟩)] } : State).before 4;
      Taken b (hd 31) (.couple .swap) ∧ b.cgroups.lookup 31 = some ⟨0, false, [0], 5, [], 0, []⟩ ∧ b.tw.role = .follower ∧
      ∀ k, b.stopActs k = false) := by
  refine ⟨⟨by decide, by decide, fun k => ?_, ?_, by decide, by decide, by decide⟩,
    ⟨?_, by decide, by decide, by decide, by decide, ?_, by decide⟩, ⟨?_, by decide, by decide⟩, ?_, by decide, by decide, fun k => ?_⟩
  · show ((SMap.get {} [(0, seg0)] k).stopBy && _) = false
    simp only [SMap.get, List.lookup]
    cases h : k == 0 <;> rfl
  all_goals first | rfl | (unfold Taken; decide)

/-- No segment is stopped where no segment has been touched. -/
theorem no_stop {b : State} (h : b.segs = []) (k : Nat) : b.stopActs k = false := by
  show ((b.seg k).stopBy && _) = false
  have : b.seg k = {} := by show SMap.get {} b.segs k = {}; rw [h]; rfl
  rw [this]
  rfl

/-- A running device whose axis `a` is `x`. -/
def axisDev (a : Nat) (x : Axis) : State := { pw := { mode := .run }, axes := [(a, x)] }

theorem witness_CoefficientsAreWritten :
    let b := (axisDev 511 {}).before 4;
    (∀ k, b.segOf 511 = some k → b.stopActs k = false) ∧ Taken b (hd 511) (.setc 0x00 15 ⟨1, 1⟩) ∧ Taken b (hd 511) (.setc 0x37 0 ⟨5, 0⟩) ∧
      (b.axis 511).fault = false ∧ Taken b (hd 511) (.loadset 0x2D 3 [⟨1, 1⟩, ⟨2, 0⟩, ⟨3, -3⟩]) ∧ Taken b (hd 511) (.swapset 31) := by
  refine ⟨fun k _ => no_stop rfl k, ?_⟩
  unfold Taken
  decide

/-- A setting of a POS axis. -/
def cfg0 : AxisCfg :=
  { kind := 0, fbFrac := 16, vffFrac := 8, stages := 0, aw := 0, faultPol := 2, stopPol := 1, noReverse := false, cross := false,
    catchK := ⟨1, 1⟩, catchV := 0 }

theorem witness_AxesAreConfigured :
    (∀ a : Nat, a = 511 → ∀ x : Axis, let b := ({ axisDev a x with tw := { role := .follower } } : State).before 4;
      (∀ k, b.segOf a = some k → b.stopActs k = false) ∧ b.tw.role = .follower) ∧
    (let b := (axisDev 527 {}).before 4; Taken b (hd 511) (.terrace 2 4 256 0 10 20 4) ∧ (b.axis 511).ln.master = none ∧
      Taken b (hd 511) (.terrace 1 4 256 0 10 20 4) ∧ ¬ ((1 : Nat) = 2 ∧ (b.axis 511).ln.master = none) ∧ Taken b (hd 511) (.filter 31 5) ∧
      (b.axis 511).set.kind ≠ .drv ∧ Taken b (hd 559) (.mode 2) ∧ Taken b (hd 527) (.mode 1) ∧ b.axisModeBar 527 1 = none ∧
      Taken b (hd 511) (.axisCfg cfg0) ∧ (b.axis 511).onPath = none ∧ (b.axis 511).mode = .disabled) ∧
    (let b := (axisDev 511 { mode := .closed }).before 4; Taken b (hd 511) (.axisCfg cfg0) ∧ (b.axis 511).onPath = none ∧
      (b.axis 511).mode ≠ .disabled) ∧
    (let b := (inMode .idle).before 4; Taken b (hd 0) (.mode 1) ∧ b.axisModeBar 0 1 ≠ none) ∧
    (let b := (inMode .run).before 4; b.segOf 528 = none ∧ Taken b (hd 528) (.mode 2)) := by
  refine ⟨fun a _ x => ⟨fun k _ => no_stop rfl k, rfl⟩, ?_⟩
  unfold Taken
  decide

/-- An identification of one block. -/
def ident0 : IdentFn := .start 0 0 1 15 0x20000000 0x80000000 0 0x7FFFFFFF

theorem witness_LearningAndTablesAreLoaded :
    (∀ k, ((axisDev 511 {}).before 4).stopActs k = false) ∧
    (let b := (axisDev 511 {}).before 4; Taken b (hd 511) (.learn .clear) ∧ b.learnBar 511 .clear = none ∧
      Taken b (hd 511) (.learn (.mode 2)) ∧ b.learnBar 511 (.mode 2) ≠ none ∧ Taken b (hd 511) (.learn (.master 11 567 0x10000 (-5))) ∧
      b.learnBar 511 (.master 11 567 0x10000 (-5)) = none ∧ Taken b (hd 511) (.ident .cancel) ∧ (b.axis 511).ident = none) ∧
    (let b := (axisDev 511 {}).before 4; Taken b (hd 511) (.resample 11 (2 ^ 23)) ∧ (b.axis 511).ln.log2n ≠ 11 ∧
      (b.axis 511).ln.resample = none ∧ 2 ^ 23 ≠ tagOf (b.cmdCtx (hd 511) (.resample 11 (2 ^ 23))).n ∧
      swapCycle (b.cmdCtx (hd 511) (.resample 11 (2 ^ 23))).n (2 ^ 23) = some (2 ^ 23) ∧ (b.resampling (511 / 128)).length < 4) ∧
    (let b := ({ onNet 240 seg0 id with segs := [(0, { seg0 with nodes := [(1, { st := .live })] })] } : State).before 4;
      b.stopActs 0 = false ∧ b.segOf 0 = some 0 ∧ Taken b (hd 0) (.ident ident0) ∧ b.identBar 0 = none) ∧
    (let b := (moving 0 id).before 4; Taken b (hd 0xFFFF) (.camLoad 255 8192 0x10000 5 (List.replicate 8192 1)) ∧
      b.fenced (srcCode 4 0x003) = false ∧ (∀ e ∈ b.axes, e.2.mo.usesCam 255 = false) ∧ b.camPoints 255 + 8192 ≤ 524288) := by
  refine ⟨fun k => no_stop rfl k, ?_⟩
  unfold Taken
  decide

theorem witness_ControlDescriptorsAct :
    (let b := (moving 511 id).before 4; Taken b (hd 0xFFFF) (.fence 255 false) ∧ b.host.acc = [] ∧ b.postsLeaders = false ∧
      Taken b (hd 0xFFFF) (.trace 511 255 true true 0 0x237) ∧ b.force 0x020010 < 2 ^ 32 ∧ b.force 0x020014 < 2 ^ 32 ∧
      Taken b (hd 511) (.clearFlags 255) ∧ Taken b (hd 512) (.clearFlags 255) ∧ Taken b (hd 527) (.clearFlags 0) ∧
      Taken b (hd 0xFFFF) (.mode 4) ∧ modeAllowed b.pw.mode (DevMode.ofCode 4) = true ∧ b.pw.mode ≠ .safeHold ∧
      Taken b (hd 0xFFFF) (.mode 2) ∧ modeAllowed b.pw.mode (DevMode.ofCode 2) = false) := by
  unfold Taken
  decide

/-- Domain 1 is locked. -/
def lockedDom : State :=
  { pw := { mode := .run }, time := { d1 := { st := .locked, capable := true } }, regs := { force := [(0x0C0000, 3)] } }

/-- Segment 7 carries a management entry of the controller, and its node 40 is live. -/
def mgmtNet : State :=
  { pw := { mode := .run }, regs := { force := [(0x08E100, 0x80000000 + 512 * 60 + 2 * 100)] },
    segs := [(7, { ring := .running, nodes := [(40, { st := .live, muted := true })] })] }

theorem witness_TimeAndNodesAreManaged :
    (let b := (inMode .idle).before 4; Taken b (hd 0xFFFF) (.timeStep false (-5)) ∧ b.pw.mode = .idle ∧ (∀ k < 8, (b.seg k).ring = .stopped) ∧
      b.host.acc = [] ∧ b.time.rate = 0 ∧ b.time.ofs % 2 ^ 32 = 0) ∧
    (let b := lockedDom.before 4; Taken b (hd 0xFFFF) (.timeStep true 0) ∧ b.pw.mode ≠ .idle ∧ b.pw.mode ≠ .commission ∧
      Taken b (hd 0xFFFF) (.timeSelect 1 true) ∧ b.pw.mode ≠ .reset ∧ b.pw.mode ≠ .boot ∧ b.domLocked 1 = true ∧ b.force 0x0C0000 < 2 ^ 32) ∧
    (let b := mgmtNet.before 4; Taken b (hd 0xFFFF) (.unmute 7 40) ∧ Taken b (hd 0xFFFF) (.nodeReq 7 40 0x40 4096 [1, 2]) ∧
      b.requestEntry 7 = some 0 ∧ fitsLen (22 + 2) (schLen (b.sched 7 0)) = true ∧ (b.node 7 40).live = true ∧ (b.seg 7).mg = none) := by
  unfold Taken
  decide

/-- A running device with its PCIe link up and ring `r` as `g`, register settings `f` in force. -/
def ringDev (r : Nat) (g : Ring) (f : SMap Nat) : State :=
  { pw := { mode := .run }, regs := { force := f }, host := { rings := [(r, g)], linkUp := true } }

/-- NOP, addressed to no segment, to run in the next cycle. -/
def nopBytes : List Byte := [1, 0, 9, 0, 0xFF, 0xFF, 0, 0] ++ zeros 24

/-- The record of a NOP accepted at position 5 of ring 7 that waits for a phase since cycle 0. -/
def phased : Entry :=
  { id := 3, ring := 7, pos := 5, seq := 1, irq := false, tgt := 0xFFFF, op := .nop, due := .phase 0, accN := 0, accT := 0,
    prog := .waiting, tagged := none, seg := none, crc := 0 }

theorem witness_RingsAndDoorbellsAreServed :
    (∀ r ∈ [0, 7, 8, 15, 16, 23, 24, 32], let b := (ringDev r { on := true } []).before 4; (b.ringOf r).on = true ∧
      (b.ringOf (r + 8)).disabling = false ∧ b.telBusy (r - 16) = false ∧ b.pourNow (r - 16) = false) ∧
    (∀ r ∈ [0, 32], let b := (inMode .run).before 4; (b.ringOf r).on = false ∧ b.ringReason r ≠ 0) ∧
    (let b := ({ ringDev 0 {} [] with regs := { stage := [(ringOff 32 8, 4)] } } : State).before 4; (b.ringOf 32).on = false ∧ b.ringReason 32 = 0) ∧
    (let b := (ringDev 15 { on := true } []).before 4; (b.ringOf 7).on = false ∧ ∀ e ∈ b.host.acc, e.ring ≠ 7) ∧
    (let b := ({ ringDev 15 { on := true } [] with host := { rings := [(7, { on := true }), (15, { on := true })] } } : State).before 4;
      (b.ringOf 7).on = true ∧ (b.ringOf 15).on = true) ∧
    (let b := ({ onNet 240 { seg0 with cur := { opened := true, poured := true } } id with host := { rings := [(16, { on := true })] } } : State).before 4;
      (b.ringOf 16).on = true ∧ b.telBusy 0 = true) ∧
    (let b := (inMode .run).before 4; b.host.linkUp = false) ∧
    (let b := (ringDev 32 { on := true } [(0x010000, 7)]).before 4; b.host.linkUp = true ∧ b.pollGran = false) ∧
    (let b := (ringDev 32 { on := true } [(0x010000, 0)]).before 4; b.up = true ∧ b.host.linkUp = true ∧ b.fenced srcHostEngine = false ∧
      b.pollGran = true ∧ b.host.polledAt ≠ some b.granuleNo) ∧
    (let b := ({ pw := { mode := .run }, regs := { force := [(0x010000, 0), (0x010004, 0x80000001)] }, host := { hbChecking := true, hbWord := 5 } } : State).before 4000000;
      b.hbApplies = true ∧ b.host.hbChecking = true ∧ b.host.hbWord ≠ pageWord [] 0x0C0 ∧ b.host.hbLate = false ∧
      b.hbTimeout ≤ b.now - b.host.hbAt ∧ b.pollGran = true ∧ b.hbChangesNow = false) ∧
    (let b := ({ pw := { mode := .run }, regs := { force := [(0x010004, 0x80000001)] }, host := { hbChecking := true } } : State).before 3999996;
      b.hbApplies = true ∧ b.host.hbChecking = true ∧ b.host.hbWord = pageWord [] 0x0C0 ∧ b.now - b.host.hbAt < b.hbTimeout) := by decide

/-- A device whose ring 7 may fetch one descriptor. -/
def fetching : State :=
  { pw := { mode := .run },
    host := { linkUp := true, rings := [(7, { on := true, own := 2 ^ 32 - 1, host := 0, fetched := 1 }), (15, { on := true })] } }

theorem witness_DescriptorsAreAcceptedAndMessagesSent :
    (let b := fetching.before 4;
      let bs := padTo (32 * descrLen nopBytes) nopBytes; let e := b.newEntry 7 bs [];
      b.up = true ∧ b.fenced srcHostEngine = false ∧ b.mayFetch 7 (descrLen bs) = true ∧ b.acceptBar bs e.op e.tgt e.seg = none ∧ b.host.acc = [] ∧ b.tw.role = .alone ∧
        (∀ q < 8, (b.ringOf (q + 8)).disabling = false) ∧ b.mayFetch 6 (descrLen bs) = false) ∧
    (let b := ({ pw := { mode := .run }, host := { acc := [phased], rings := [(15, { on := true })] } } : State).before 32768000000;
      b.host.acc = [phased] ∧ phased.ring = 7 ∧ phased.due = .phase 0 ∧ phased.prog = .waiting ∧
        65536 ≤ (b.cyc + 2 ^ 40 - phased.accN) % 2 ^ 40 ∧ b.tw.role = .alone ∧ (b.ringOf (8 + 7)).on = true ∧ b.fenced srcHostEngine = false) ∧
    (let b := ({ pw := { mode := .run }, host := { acc := [phased] } } : State).before 32767999996;
      ∀ e ∈ b.host.acc, e.ring = 7 → e.pos = 5 → (b.cyc + 2 ^ 40 - e.accN) % 2 ^ 40 < 65536) ∧
    (let b := (ringDev 0 {} [(0x01004C, 0xBE000000)]).before 4; b.cpFires 3 = true ∧ bits (b.force (cpOff 3)) 29 25 = 31 ∧
      b.host.linkUp = true ∧ b.fenced srcHostEngine = false ∧ SMap.get 0 b.host.cpLast 31 ≠ b.granuleNo + 1 ∧ b.cpAwaits 3 = false ∧ 31 ∉ b.host.msiMasked ∧ b.cpFires 2 = false) ∧
    (let b := ({ pw := { mode := .run }, regs := { force := [(0x01004C, 0xBE000000)] }, host := { msiMasked := [31], msiPending := [31] } } : State).before 4;
      b.cpFires 3 = true ∧ SMap.get 0 b.host.cpLast 31 ≠ b.granuleNo + 1 ∧ b.cpAwaits 3 = false ∧ 31 ∈ b.host.msiMasked ∧ 31 ∈ b.host.msiPending ∧ 30 ∉ b.host.msiPending) := by decide

theorem witness_TheLinkAndThePlantPortsAct :
    (let b := ({ ringDev 30 { on := true, host := 1 } [] with time := { p1 := { up := true } } } : State).before 4; b.host.linkUp = true ∧
      (b.ringOf (29 + 1)).on = true ∧ (b.ringOf (29 + 1)).host ≠ (b.ringOf (29 + 1)).own ∧ b.plantUp 1 = true) ∧
    (let b := (ringDev 32 { on := true } []).before 4; (b.ringOf (31 + 1)).on = true ∧ gptpFrame (zeros 1514) = false ∧
      (zeros 1514).length ≤ 1514 ∧ b.room (31 + 1) 1 = true ∧ b.fenced srcHostEngine = false) ∧
    gptpFrame ([0x01, 0x80, 0xC2, 0x00, 0x00, 0x0E] ++ zeros 6 ++ [0x88, 0xF7]) = true := by decide

/-- A device that is set up, with staged writes to the given registers. -/
def stagedDev (l : SMap Nat) (p : List Nat) : State := { pw := { mode := .idle }, regs := { stage := l, pend := p } }

theorem witness_CommitsActAsOneSetOrFail :
    (∀ blk ∈ [0x10, 0x1F, 0x20, 0x27, 0x28, 0x29, 0x2A], let b := (inMode .idle).before 4; b.tw.role ≠ .follower ∧ b.blockRuns blk = false ∧
      firstFailure b (b.candidate [blk]) [blk] = none) ∧
    (∀ blk ∈ [0x04, 0x08, 0x0F], let b := (inMode .idle).before 4; b.blockRuns blk = false ∧ (firstFailure b (b.candidate [blk]) [blk]).isSome = true) ∧
    (∀ blk ∈ [0x10, 0x1F, 0x20, 0x27, 0x28, 0x29, 0x2A], ((inMode .run).before 4).blockRuns blk = true) ∧
    ((ringDev 0 { on := true } []).before 4).blockRuns 0x04 = true ∧ ((onNet 240 seg0 id).before 4).blockRuns 0x08 = true ∧
    (let b := (stagedDev [(0x010010, 0x1000), (0x010018, 0x2000)] [0x04]).before 4; b.blockRuns 0x04 = false ∧
      firstFailure b (b.candidate [0x04]) [0x04] = none) ∧
    (let b := (inMode .boot).before 4; b.setup = true ∧ firstFailure b (b.candidate [0x01, 0x02, 0x03]) [0x01, 0x02, 0x03] = none) ∧
    (let b := (stagedDev [(0x0E0C00, 1)] [0x2A]).before 4; let bs := (List.range 0x30).filter fun k => b.regs.pend.contains k;
      (∀ k ∈ bs, b.blockRuns k = false) ∧ firstFailure b (b.candidate bs) bs = none) ∧
    (let b := ({ pw := { mode := .run }, regs := { pend := [0x2A] } } : State).before 4; ∃ k < 0x30, k ∈ b.regs.pend ∧ b.blockRuns k = true) := by
  decide

/-- A converter whose first result waits in its pop ring. -/
def popped : State := { pw := { mode := .run }, adc := [(1, { fill := 1, buf := [(0, (5, 6))] })] }

theorem witness_RegisterAccessesAct :
    (let b := (inMode .idle).before 4; let i := Reg.info 0x08E008; 0x08E008 < 0x800000 ∧ 0x08E008 % 4 = 0 ∧ i.2 ≠ 0 ∧ b.offRuns 0x08E008 = false ∧
      unstaged i.1 = false ∧ Reg.ring 0x08E008 = none ∧ Reg.commitOf 0x08E008 = none ∧ b.tw.role = .alone) ∧
    (let b := (onNet 240 seg0 id).before 4; let i := Reg.info 0x080008; i.2 ≠ 0 ∧ b.offRuns 0x080008 = true ∧ unstaged i.1 = false ∧
      Reg.ring 0x080008 = none ∧ Reg.commitOf 0x080008 = none ∧ 200 &&& i.2 ≠ b.stage 0x080008) ∧
    (let b := popped.before 4; b.lengthNow 1 = none ∧ b.lengthNow 0 = none ∧ (b.conv 1).fill ≠ 0 ∧ (b.conv 1).ringBad = false ∧ (b.conv 0).fill = 0) ∧
    (∀ off ∈ [0x800000, 0xFFFFFC], let b := ({ pw := { mode := .commission }, sram := [(off, ⟨7, 0⟩)] } : State).before 4;
      b.pw.mode = .commission ∧ b.armedFlip (srcBench (windowBench off)) = 0 ∧ b.sram.lookup off = some ⟨7, 0⟩) ∧
    ((inMode .run).before 4).pw.mode ≠ .commission := by decide

theorem witness_TheTwinIsEnabledAndRepaired :
    (let b := (inMode .idle).before 4; bit (b.force 0x0F0000) 0 = false ∧ b.setup = true ∧
      ({ b with tw := { b.tw with ball := true } } : State).noWindow = none) ∧
    (let b := (withRegs .idle [(0x08E008, 10)]).before 4; bit (b.force 0x0F0000) 0 = false ∧ b.setup = true ∧
      ({ b with tw := { b.tw with ball := true } } : State).noWindow = some 7) ∧
    (let b := (inMode .run).before 4; bit (b.force 0x0F0000) 0 = false ∧ b.setup = false) := by decide

/-- A hard run of axis `a` that began at core clock 0, of 500 clocks. -/
def run0 (a : Nat) (abandoned : Bool) : HardRun :=
  { key := .axis a, since := 0, len := 500, cost := 0, dom := 0, deadline := 9000, copy := false, abandoned := abandoned }

/-- A job's inputs: open loops and no report. -/
def in0 : JobIn :=
  { rep := .kept, phaseM := none, srcM := none, swM := none, ai := 0, closed := false, estop := false, enable := false, two := false }

/-- The job of axis `a` in the first cycle of segment 0. -/
def job0 (a timeouts : Nat) : Job :=
  { key := .axis a, seg := 0, n := 0, m := 0, deadline := 9000, len := 500,
    input := in0,
    ready := false, listedCopy := 0, hasCopy := false, timeouts := timeouts }

/-- A running device at `now` whose hammer 127 runs the job of axis `a`. -/
def working (now a timeouts : Nat) (abandoned : Bool) : State :=
  { pw := { mode := .run }, now := now,
    pool := { hammers := [(127, { run := some (.hard (run0 a abandoned)) })], jobs := [job0 a timeouts] } }

theorem witness_RunsCommitOrEndWithout :
    (∀ a ∈ [0, 511], let b := (working 4000 a 0 false).before 4000; let q := axisJob (b.lawIn a (job0 a 0)) (b.axis a);
      (b.hammer 127).run = some (.hard (run0 a false)) ∧ (run0 a false).abandoned = false ∧ b.job (.axis a) = some (job0 a 0) ∧
        b.cgroupOf a = none ∧ (b.axis a).ident = none ∧ (b.axis a).identWas = [] ∧ b.tw.pair ≠ .paired ∧ b.closesNow 0 = false ∧
        b.beaten 127 (.axis a) = false ∧ q.2.2.isEmpty = true) ∧
    (let b := (working 4000 0 0 true).before 4000; (b.hammer 127).run = some (.hard (run0 0 true)) ∧ (run0 0 true).abandoned = true) ∧
    (let b := (working 9999 0 0 false).before 9999; b.core - (run0 0 false).since < 4 * (run0 0 false).len) ∧
    (let b := (working 10000 0 0 false).before 10000; 4 * (run0 0 false).len ≤ b.core - (run0 0 false).since ∧ (job0 0 0).waits = false ∧
      b.runsOf (.axis 0) = [127] ∧ b.resvOf (.axis 0) = [] ∧ b.cgroupOf 0 = none ∧ (b.axis 0).ident = none ∧ b.tw.pair ≠ .paired ∧ b.yields 127 = false ∧
      b.timesOutNow 127 = false) ∧
    (let b := (working 4000 0 1 false).before 4000; b.job (run0 0 false).key = some (job0 0 1) ∧ (job0 0 1).timeouts ≠ 0 ∧ (job0 0 0).timeouts = 0 ∧
      b.fenced (srcValley (valleyOfSeg (job0 0 1).seg)) = false) := by decide

/-- A statistics job of segment 7. -/
def stat0 : Soft := { serial := 1, cls := .stat 7 [1, 2] }

/-- A running device at `now` whose hammer 127 runs soft job `j` from core clock 0. -/
def softly (now : Nat) (j : Soft) (stop : Bool) : State :=
  { pw := { mode := .run }, now := now, pool := { hammers := [(127, { run := some (.soft j 0 stop) })] }, host := { linkUp := true },
    axes := [(511, { ln := { resample := some { id := 1, log2n := 9, swapN := 5 } } })] }

theorem witness_CopiesAndSoftJobsRunOut :
    (let b := (working 42180 511 0 false).before 42180; let k := jobKeyOf 511; b.job k = some (job0 511 0) ∧ b.runsOf k = [127] ∧
      (job0 511 0).hasCopy = false ∧ (job0 511 0).waits = false ∧ b.runsBefore 127 = true ∧ b.atReissue (job0 511 0) = true ∧
      b.completesNow 127 = false ∧ b.fenced srcDispatcher = false ∧ b.job (jobKeyOf 0x1001F) = none) ∧
    (let b := (working 42175 511 0 false).before 42175; b.job (jobKeyOf 511) = some (job0 511 0) ∧ b.atReissue (job0 511 0) = false) ∧
    (let b := ({ pool := { hammers := [(127, { overrun := 64 })] } } : State).before 4; 64 ≤ b.overruns 127 ∧ (b.hammer 127).slow = false ∧
      b.fenced (srcHammer 127) = false ∧ b.fencesNow [srcHammer 127] = false ∧ b.yields 127 = false) ∧
    (let b := ({ pool := { moving := [(527, 9)] } } : State).before 4; b.inTransit 527 = true ∧ b.benchOut (b.home 527) = false) ∧
    (let b := ({ now := 1500, pool := { jobs := [{ job0 0 0 with ready := true }], stall := [(0, 45)] } } : State).before 1504;
      b.stalled 0 = true ∧ b.fencesNow [srcValley (valleyOf 0)] = false ∧ b.stalled 1 = false) ∧
    (let b := ({ now := 1500, pool := { jobs := [{ job0 0 0 with ready := true }], stall := [(0, 46)] } } : State).before 1504;
      b.list 0 ≠ [] ∧ b.stalled 0 = false) ∧
    (let b := (softly 4000 stat0 true).before 4000; (b.hammer 127).run = some (.soft stat0 0 true) ∧ (b.hammer 127).resv = none ∧
      b.takeable (benchOf 127) 127 = [] ∧ stat0.cls = .stat 7 [1, 2] ∧ b.host.linkUp = true ∧ b.fenced srcHostEngine = false ∧ stat0.ran + (b.core - 0) ≤ b.softLimit) ∧
    ((softly 4000 stat0 false).before 4000).pool.hammers.lookup 127 = some { run := some (.soft stat0 0 false) } ∧
    (let b := (softly 4000 { stat0 with cls := .resample 511 } false).before 4000; (b.hammer 127).resv = none ∧
      (b.axis 511).ln.resample = some { id := 1, log2n := 9, swapN := 5 }) ∧
    (let b := (softly 64000005 stat0 false).before 64000005; b.softLimit < stat0.ran + (b.core - 0)) ∧
    (let b := (softly 64000000 stat0 false).before 64000000; stat0.ran + (b.core - 0) ≤ b.softLimit) := by decide

/-- A cycle's closed torque values of an axis: the loops ask for the greatest and the coupling term adds to it. -/
def left0 : Left :=
  { n := 0, m := 0, u5 := 0x7FFFFFFF, vff := 0, tff := 0, z := 0, opened := false, aborted := false, pStar := 0, e := 0, stale := false,
    learnOn := false, input := in0 }

theorem witness_NarrowingRoundsToEvenAndSaturates :
    (1 : Nat) ≤ 1 ∧ left0.opened = false ∧ ((inMode .run).recIn 0 (job0 0 0) false).estop = false ∧
      ({} : Axis).set.kind ≠ .drv ∧ ({ set := { kind := .drv } } : Axis).set.kind = .drv := by decide

theorem witness_TheTorqueKeepsToItsLimits :
    left0.opened = false ∧ ({} : Axis).co.tlimNeg ≤ ({} : Axis).co.tlimPos ∧ ({} : Axis).co.dtlim = 0 ∧ 0 < ({ dtlim := 1 } : Coefs).dtlim ∧
      ({} : Axis).co.tlimNeg ≤ ({} : Axis).lp.tauPrev ∧ ({} : Axis).lp.tauPrev ≤ ({} : Axis).co.tlimPos ∧ ({} : Axis).set.kind ≠ .drv ∧
      ({} : Axis).ident = none := by decide


/-! ### The Miush network -/

/-- A frame of a header and a payload, with its FCS. -/
def fr (h p : List Byte) : List Byte := h ++ p ++ leBytes 4 (crc32 (h ++ p))

/-- The registers of segment 0: a CT entry, an RP entry of node 1, an SY entry, an SF entry of node 1, an open entry 4, an MG and an SF entry
of the controller, node 2 present and node 3 a spare of one axis that reports in entry 1. -/
def netRegs : SMap Nat :=
  [(0x080000, 0), (0x080004, 4), (0x080008, 240), (0x080018, 1), (0x080020, 0), (0x080100, 0x10000000 + 2 * 20), (0x080104, 0x20400000 + 512 * 40 + 2 * 4),
   (0x080108, 0x30000000 + 512 * 60 + 2 * 8), (0x08010C, 0x40400000 + 512 * 80 + 2 * 8), (0x080110, 0x8FC00000 + 512 * 100 + 2 * 127),
   (0x080114, 0x80000000 + 512 * 130 + 2 * 40), (0x080118, 0x40000000 + 512 * 150 + 2 * 8),
   (0x080304, 0x80000100), (0x080308, 0x80000000), (0x08030C, 0xC0000101)]

/-- A running device whose segment 0 is `g`. -/
def netDev (g : Segment) : State := { pw := { mode := .run }, regs := { force := netRegs }, segs := [(0, g)] }

/-- A report of node 1 of one axis in entry 1 on channel A. -/
def report0 : List Byte := fr [0x21, 1, 0, 0, 1, 0] (List.replicate 12 7)

/-- The segment, with management requests and polls under way as `f` says. -/
def acyc0 (f : Segment → Segment) : State := netDev (f { seg0 with synced := true })

/-- A request that has not been sent. -/
def fresh0 : MgReq := { id := 1, node := 1, fn := 0x40, trans := 0, data := [], buf := 4096, repeats := 0, sent := false }

theorem witness_SlotsSendTheirFrames :
    (let b := (netDev seg0).before 4; b.entryUsed 0 0 = true ∧ schSender (b.sched 0 0) = 0 ∧ b.slotDue 0 0 = true ∧ schType (b.sched 0 0) = 1 ∧
      (b.seg 0).ring = .running ∧ ¬ (b.fenced (srcMould 0) = true ∧ b.fenced srcWatchdog = true)) ∧
    (let b := (netDev seg0).before 8; b.entryUsed 0 127 = false ∧ schSender (b.sched 0 1) ≠ 0 ∧ b.slotDue 0 0 = false) ∧
    (let b := (netDev { seg0 with ring := .csPhase }).before 4; b.entryUsed 0 0 = true ∧ schSender (b.sched 0 0) = 0 ∧ b.slotDue 0 0 = true ∧
      schType (b.sched 0 0) = 1 ∧ (b.seg 0).ring = .csPhase ∧ (b.seg 0).csDone = false ∧ (b.seg 0).csUntil = none) ∧
    (let b := ({ netDev { seg0 with ring := .integrated } with pw := { mode := .follow }, tw := { role := .follower, segs := [(0, { covered := true })] } } : State).before 4;
      b.entryUsed 0 0 = true ∧ schSender (b.sched 0 0) = 0 ∧ b.slotDue 0 0 = true ∧ schType (b.sched 0 0) = 1 ∧
      (b.seg 0).ring = .integrated ∧ b.following = true ∧ (b.twSeg 0).covered = true) ∧
    (let b := (netDev seg0).before 15000; b.entryUsed 0 2 = true ∧ schSender (b.sched 0 2) = 0 ∧ b.slotDue 0 2 = true ∧
      schType (b.sched 0 2) = 3 ∧ (b.seg 0).ring = .running) ∧
    (let b := ({ netDev seg0 with saf := { sps := some (List.replicate 0x160 0 ++ [0x80, 1, 6]) } } : State).before 37500;
      b.entryUsed 0 6 = true ∧ schSender (b.sched 0 6) = 0 ∧ b.slotDue 0 6 = true ∧ schType (b.sched 0 6) = 4 ∧ b.segRuns 0 = true ∧
      b.connAt 0 6 = some 0 ∧ b.saf.tickRaw + 4000 ≤ b.raw) := by decide

theorem witness_SlotsSendTheirFrames_acyclic :
    (let b := (acyc0 id).before 32500; b.entryUsed 0 5 = true ∧ schSender (b.sched 0 5) = 0 ∧ b.slotDue 0 5 = true ∧ schType (b.sched 0 5) = 8 ∧
      (b.seg 0).ring = .running ∧ takeOwed b.mayOwe (b.seg 0).owe = none ∧ b.requestDue 0 = none ∧ (b.seg 0).synced = true ∧
      b.hasWindow 0 = true ∧ b.pollable 0 = [1, 2] ∧ (b.pollable 0).all (fun j => (b.node 0 j).polledOnce) = false ∧
      nextAfter ((b.pollable 0).filter fun j => !(b.node 0 j).waitsHeal) (b.seg 0).lastPoll = some 1) ∧
    (let b := (acyc0 fun g => { g with owe := [.grant 3 [] 5 1, .assign 2 []] }).before 32500; b.slotDue 0 5 = true ∧
      takeOwed b.mayOwe (b.seg 0).owe = some (.assign 2 [], [.grant 3 [] 5 1])) ∧
    (let b := (acyc0 fun g => { g with mg := some fresh0 }).before 32500; b.slotDue 0 5 = true ∧
      takeOwed b.mayOwe (b.seg 0).owe = none ∧ b.requestDue 0 = some fresh0) ∧
    (let b := (acyc0 fun g => { g with nodes := [(1, { polledOnce := true }), (2, { polledOnce := true })] }).before 32500; b.slotDue 0 5 = true ∧
      takeOwed b.mayOwe (b.seg 0).owe = none ∧ b.requestDue 0 = none ∧ b.pollable 0 = [1, 2] ∧
      (b.pollable 0).all (fun j => (b.node 0 j).polledOnce) = true ∧ b.minor 0 = 0) ∧
    (let b := (acyc0 fun g => { g with nodes := [(1, { st := .live }), (2, { st := .live })] }).before 32500; b.slotDue 0 5 = true ∧
      takeOwed b.mayOwe (b.seg 0).owe = none ∧ b.requestDue 0 = none ∧ b.pollable 0 = [] ∧
      nextAfter (([] : List Nat).filter fun j => !(b.node 0 j).waitsHeal) (b.seg 0).lastPoll = none ∧ b.spareFree 0 = true ∧
      (b.seg 0).mg = none ∧ b.minor 0 = 0 ∧ (b.seg 0).synced = true) := by decide

/-- Segment 0 with the slots of nodes 1 and 2 beside each other. -/
def besideNet : State :=
  { pw := { mode := .run }, segs := [(0, seg0)], regs := { force :=
    [(0x080000, 0), (0x080004, 4), (0x080008, 240), (0x080018, 1), (0x080020, 0), (0x080100, 0x10000000 + 2 * 20), (0x080104, 0x20400000 + 512 * 40 + 2 * 4),
     (0x080108, 0x20800000 + 512 * 60 + 2 * 4), (0x080304, 0x80000100), (0x080308, 0x80000000)] } }

theorem witness_ReportsAreTakenAndOffendersMuted :
    (∀ u ∈ [none, some [(1 : Byte)]], let b := (netDev { seg0 with nodes := [(1, { used := u })] }).before 10000; b.segRuns 0 = true ∧ b.hears 0 false = true ∧
      (b.entryAt 0 false 2500 fun w => decide (schType w = 2)) = some (0, 1) ∧ schSender (b.sched 0 1) = 1 ∧
      b.reportOk 0 0 1 false 2500 report0 = true ∧ b.reportOk 0 0 1 false 2500 (7 :: report0) = false ∧ (b.node 0 1).used = u ∧
      (b.node 0 1).muted = false ∧ b.inTime 0 0 = true ∧ b.copyANow 0 0 1 = false ∧ (b.node 0 1).st ≠ .live) ∧
    (let b := (netDev { seg0 with nodes := [(40, { missRun := 8 })] }).before 4; b.staleK 0 < (b.node 0 40).missRun ∧
      8 ≤ (b.node 0 40).missRun ∧ 0x41 ∉ (b.src (srcNode 0 40)).live ∧ 0x40 ∉ (b.src (srcNode 0 40)).live ∧ (b.node 0 39).missRun < 8) ∧
    (let b := (netDev { seg0 with nodes := [(3, { st := .granted 2 1 0 })] }).before 8000000; (b.node 0 3).st = .granted 2 1 0 ∧
      16 ≤ (b.cyc + 2 ^ 40 - 0) % 2 ^ 40 ∧ (b.cyc + 2 ^ 40 - 0) % 2 ^ 40 < 2 ^ 39) ∧
    (let b := (netDev { seg0 with synced := true }).before 32000000; (b.seg 0).synced = true ∧ 2 ∈ b.pollable 0 ∧ (b.node 0 2).notFound = false ∧
      64 ≤ (b.cyc + 2 ^ 40 - (b.seg 0).firstSyN) % 2 ^ 40) ∧
    (∀ x ∈ [(10, 2500, 1, 2), (7, 0, 0, 1)], let b := (netDev seg0).before (1600 * x.1); let first := x.2.2.1; let second := x.2.2.2;
      b.segRuns 0 = true ∧ b.hears 0 false = true ∧ b.nextUsed 0 0 first = some second ∧
      ¬ (b.arrival 0 1 first false x.2.1).natAbs < (b.arrival 0 0 first false x.2.1).natAbs ∧ schStart (b.sched 0 first) < schStart (b.sched 0 second) ∧
      b.entryDur 0 first + 16 < b.mt - x.2.1 ∧ b.expected 0 0 (schStart (b.sched 0 second)) false < 16 * (b.mt : Int) ∧
      b.chargeable 0 1 = some 1 ∧ b.chargeable 0 0 = none ∧ b.chargeable 0 2 = none) ∧
    (∀ start ∈ [2500, 2606, 2700], let b := besideNet.before 16000;
      let d : Int := ((b.arrival 0 0 1 false start).natAbs : Int) -
        (16 * ((b.mt : Int) - b.entryDur 0 2) - b.expected 0 0 (schStart (b.sched 0 2)) false).natAbs;
      b.segRuns 0 = true ∧ b.hears 0 false = true ∧ b.nextUsed 0 0 1 = some 2 ∧ b.chargeable 0 1 = some 1 ∧ b.chargeable 0 2 = some 2 ∧
      b.entryDur 0 1 + 16 < b.mt - start ∧ b.expected 0 0 (schStart (b.sched 0 2)) false < 16 * (b.mt : Int) ∧
      (if start = 2606 then d.natAbs ≤ 16 else if start = 2700 then 16 < d else d < -16)) ∧
    (let b := (netDev seg0).before 11024; b.mt - 2500 ≤ b.entryDur 0 1 + 16) ∧
    (let b := (netDev { seg0 with nodes := [(40, { offence := 3 })] }).before 4; 3 ≤ (b.node 0 40).offence ∧ (b.node 0 40).muted = false ∧
      (b.node 0 39).offence < 3) := by
  repeat' apply And.intro
  all_goals decide

/-- An IN answer of `sender` that asks for address `a`, with a delay or without. -/
def answer0 (sender a : Byte) (delta : List Byte) : List Byte := fr [0x61, sender, 0, 0, 4, 0] ([a, 0, 0, 0, 0, 0] ++ delta ++ List.replicate 8 9)
/-- A claim for `n` axes. -/
def claim0 (n : Byte) : List Byte := fr [0x71, 63, 0, 0, 4, 0] (n :: List.replicate 23 9)
/-- The answer of node 1 to request 7. -/
def reply0 : List Byte := fr [0x81, 1, 0, 0, 4, 0] [0, 0, 7, 0, 5]
/-- Request 7 of node 1, sent `k` times after the first. -/
def request0 (k : Nat) : MgReq := { id := 1, node := 1, fn := 0x40, trans := 7, data := [], buf := 4096, repeats := k, sent := true }

theorem witness_NodesAreIntegratedAndAsked :
    (∀ x ∈ [((2 : Byte), false), (63, false), (2, true), (5, false)],
      let b := (netDev { seg0 with asked := some 2, ringOpen := x.2, nodes := [(2, { st := .polled })] }).before 25000;
      let f := answer0 2 x.1 (if x.2 then [0, 0x80] else [1, 0]);
      b.segRuns 0 = true ∧ b.openEntry 0 false 6250 f = some (0, 4) ∧ byteAt f 0 / 16 = 6 ∧ f.length = 26 ∧ b.askedIn 0 0 = true ∧
      b.mayAnswer 0 f = true ∧ b.polledNow 0 = true ∧ b.claimBeside 0 (0, 4) none = false ∧ (b.seg 0).ringOpen = x.2 ∧
      byteAt (payloadOf f) 0 = x.1.toNat ∧ b.pollable 0 = [1, 2] ∧ bit (b.force (netOff 0 0x20)) 15 = false ∧
      (fldS (payloadOf f) 6 2 = -0x8000 ↔ x.2 = true)) ∧
    (let b := (netDev { seg0 with invited := true }).before 25000; let f := answer0 63 2 [1, 0];
      b.openEntry 0 false 6250 f = some (0, 4) ∧ b.mayAnswer 0 f = true ∧ b.polledNow 0 = true ∧ (b.seg 0).asked = none) ∧
    (∀ n ∈ [(1 : Byte), 2], let b := (netDev { seg0 with invited := true }).before 25000; let f := claim0 n;
      b.segRuns 0 = true ∧ b.openEntry 0 false 6250 f = some (0, 4) ∧ claimFrame f = true ∧ b.claimBeside 0 (0, 4) (some (slice (payloadOf f) 8 8)) = false ∧
      (b.seg 0).claim = none ∧ (b.seg 0).invited = true ∧ b.askedIn 0 0 = true ∧ (b.seg 0).ringOpen = false ∧
      b.spareFor 0 (byteAt (payloadOf f) 0) = (if n = 1 then some 3 else none)) ∧
    (let b := (netDev { seg0 with claim := some (0, 0, [1]) }).before 25000; let f := claim0 1; b.openEntry 0 false 6250 f = some (0, 4) ∧
      claimFrame f = true ∧ b.claimBeside 0 (0, 4) (some (slice (payloadOf f) 8 8)) = true ∧ (b.seg 0).invited = false) ∧
    (let b := (netDev { seg0 with mg := some (request0 0), asked := some 1 }).before 25000; (b.seg 0).mg = some (request0 0) ∧ b.segRuns 0 = true ∧
      b.openEntry 0 false 6250 reply0 = some (0, 4) ∧ byteAt reply0 0 / 16 = 8 ∧ b.askedIn 0 0 = true ∧ (b.seg 0).asked = some (request0 0).node ∧
      byteAt reply0 1 = (request0 0).node ∧ 4 ≤ (payloadOf reply0).length ∧ (payloadOf reply0).length ≤ 256 ∧
      fld (payloadOf reply0) 2 2 = (request0 0).trans ∧ (request0 0).sent = true ∧ b.claimBeside 0 (0, 4) none = false ∧
      b.fenced srcHostEngine = false) ∧
    (let b := (netDev { seg0 with mg := some (request0 3), askedC := 1 }).before 4; (b.seg 0).mg = some (request0 3) ∧ (request0 3).sent = true ∧
      3 ≤ (request0 3).repeats ∧ b.askedNow 0 = false ∧ (request0 2).repeats < 3) := by
  repeat' apply And.intro
  all_goals decide

theorem witness_TheRingOpensAndHeals :
    (let b := (netDev { seg0 with synced := true }).before 4; b.segRuns 0 = true ∧ (b.seg 0).synced = true ∧ (b.seg 0).ringOpen = false ∧
      b.hears 0 false = true ∧ b.hears 0 true = true ∧ b.channelGone 0 true = false ∧ (b.seg 0).heal < 16) ∧
    (let b := (netDev { seg0 with noRetB := 2 }).before 4; b.segRuns 0 = true ∧ b.channelGone 0 true = true ∧ (b.seg 0).ringOpen = false) ∧
    (let b := (netDev { seg0 with ringOpen := true, heal := 16 }).before 4; (b.seg 0).ringOpen = true ∧ (b.seg 0).linkW = true ∧ (b.seg 0).linkE = true ∧
      16 ≤ (b.seg 0).heal) ∧
    (let b := (netDev { seg0 with remeasured := true, nodes := [(40, { st := .live, deltas := List.replicate 8 1 })] }).before 4;
      b.majorOffset = 0 ∧ (b.seg 0).remeasured = true ∧ (∀ j ∈ b.serviceNodes 0, 8 ≤ (b.node 0 j).deltas.length) ∧ 40 ∈ b.serviceNodes 0) ∧
    (let b := (netDev { ring := .listening, linkW := true }).before 4; (b.seg 0).ring = .listening ∧ (b.seg 0).listenFrom = none ∧
      (b.seg 0).linkW = true) := by decide

/-- A CS of a rank, a nonce and a cycle-length code. -/
def cs0 (rank nonce code : Byte) : List Byte := fr [0x51, 0, 0, 0, 0, 0] [rank, 0, nonce, 0, code, 0, 0, 0]
/-- An SY at machine time `mt` in minor cycle `m` of major cycle 0. -/
def sy0 (mt m : Nat) : List Byte := fr [0x31, 0, 0, 0, 0, 0] (leBytes 8 mt ++ leBytes 5 0 ++ leBytes 1 m ++ zeros 18)
/-- A CT of cycle count `c` on channel A. -/
def ct0 (c : Nat) : List Byte := fr ([0x11, 0] ++ leBytes 2 c ++ [0, 0]) (zeros 8)

theorem witness_TheColdStartIsWonOrJoined :
    (∀ t ∈ [999996, 1000000], let b := (netDev { seg0 with ring := .listening, listenFrom := some 0 }).before t; (b.seg 0).ring = .listening ∧
      (b.seg 0).listenFrom = some 0 ∧ (b.listenLen ≤ b.now - 0 ↔ t = 1000000) ∧ b.coldNow 0 = false ∧ b.hears 0 false = true) ∧
    coldOk (cs0 1 5 0) 5 csLen [0, 62] = true ∧ coldOk (cs0 0 5 0) 5 csLen [0, 62] = true ∧
    (let b := (netDev { seg0 with ring := .csPhase, nonce := 5, csUntil := some 8 }).before 4; (b.seg 0).ring = .csPhase ∧ (b.seg 0).csDone = false ∧
      b.hears 0 true = true ∧ b.rank < byteAt (payloadOf (cs0 1 5 0)) 0 ∧ byteAt (payloadOf (cs0 0 5 0)) 0 = b.rank ∧
      fld (payloadOf (cs0 0 5 0)) 2 2 = (b.seg 0).nonce.toNat ∧ fld (payloadOf (cs0 0 4 0)) 2 2 < (b.seg 0).nonce.toNat ∧
      coldOk (cs0 0 4 0) 5 csLen [0, 62] = true ∧ (b.seg 0).csUntil = some 8 ∧ b.now < 8) ∧
    (let b := ({ netDev { seg0 with ring := .csPhase, csUntil := some 4 } with regs := { force := [(0x0F0000, 1)] }, tw := { rank := 1 } } : State).before 4;
      (b.seg 0).ring = .csPhase ∧ (b.seg 0).csDone = false ∧ b.hears 0 false = true ∧ byteAt (payloadOf (cs0 0 5 0)) 0 < b.rank ∧
      byteAt (payloadOf (cs0 0 5 1)) 0 < b.rank ∧ byteAt (payloadOf (cs0 0 5 1)) 4 = b.ownCode 0 ∧
      byteAt (payloadOf (cs0 0 5 0)) 4 ≠ b.ownCode 0 ∧ coldOk (cs0 0 5 1) 5 csLen [0, 62] = true ∧ 4 ≤ b.now) ∧
    (∀ l ∈ [true, false], let b := (netDev { ring := .csPhase, csDone := true, linkW := l, linkE := true }).before 4; (b.seg 0).ring = .csPhase ∧
      (b.seg 0).csDone = true ∧ b.majorOffset = 0 ∧ (b.seg 0).linkW = l ∧ (b.seg 0).linkE = true ∧ b.hears 0 true = l) ∧
    ((netDev seg0).before 100).majorOffset ≠ 0 ∧ coldOk (sy0 15625 1) 3 syLen [0] = true ∧
    (∀ l ∈ [false, true], let b := (netDev { seg0 with ring := .integrating, loser := l }).before 4; (b.seg 0).ring = .integrating ∧ (b.seg 0).heard = none ∧
      (b.seg 0).loser = l ∧ (syHead (sy0 15625 1)).2.2.2 = b.ownCode 0 ∧ (syHead (sy0 15625 9)).2.2.2 ≠ b.ownCode 0 ∧
      coldOk (sy0 15625 9) 3 syLen [0] = true) ∧
    (let b := (netDev { seg0 with ring := .integrating, heard := some (syHead (sy0 0 0)) }).before 4; (b.seg 0).heard = some (syHead (sy0 0 0)) ∧
      syConsistent (syHead (sy0 0 0)) (syHead (sy0 15625 1)) = true ∧ syConsistent (syHead (sy0 0 0)) (syHead (sy0 15624 1)) = false) ∧
    (let b := (netDev { seg0 with ring := .integrated }).before 4; (b.seg 0).ring = .integrated ∧ coldOk (ct0 (b.countNow 0)) 1 ctLen [0] = true ∧
      fld (ct0 (b.countNow 0)) 2 2 = b.countNow 0 % 2 ^ 16 ∧ bit (byteAt (ct0 (b.countNow 0)) 5) 7 = false) := by
  repeat' apply And.intro
  all_goals decide

theorem witness_CyclesOpenAndPourWithinMajorCycles :
    (let b := State.reset.before 4; b.up = false ∧ b.segRuns 7 = false) ∧
    (let b := (inMode .run).before 4; b.up = true ∧ b.intervalDue = true ∧ b.boundaryNow = true ∧ b.tw.role ≠ .follower ∧
      b.fenced srcMaster = false ∧ b.fenced srcTimeUnit = false ∧ b.fenced srcHostEngine = false) ∧
    (let b := (inMode .run).before 100; b.intervalDue = false ∧ b.boundaryNow = false) ∧
    (let b := ({ pw := { mode := .run }, asy := { src := [(srcMaster, { fenced := true })] }, pool := { rejoin := [srcHammer 127] },
                 host := { rings := [(32, { on := true, withheld := true })] } } : State).before 4;
      b.up = true ∧ b.intervalDue = true ∧ b.boundaryNow = true ∧ b.fenced srcMaster = true ∧ srcHammer 127 ∈ b.pool.rejoin ∧
      (b.ringOf 32).withheld = true ∧ bits (b.force (ringOff 32 8)) 26 22 ∉ b.host.msiMasked) ∧
    (let b := (netDev seg0).before 12000; b.segRuns 0 = true ∧ b.noJobs 0 = false ∧ (b.seg 0).cur.opened = false ∧ b.segAxes 0 = [0] ∧
      0 ∉ (b.twSeg 0).lost) ∧
    (let b := (netDev { seg0 with cur := { opened := true } }).before 12000; let at_ := b.mtBack (b.applyGran 0); b.segRuns 0 = true ∧
      (b.seg 0).cur.opened = true ∧ (b.seg 0).cur.n = cycOf at_ ∧ (b.seg 0).cur.m = granOf at_ / b.segL 0) ∧
    (let b := ({ netDev { seg0 with cur := { opened := true, entries := [(0, { cmd := [1], tel := [] })] } } with now := 60000 } : State).before 60000;
      let at_ := b.mtBack (b.segPP 0); let bank := b.bank 0 (cycOf at_) (granOf at_ / b.segL 0); b.segRuns 0 = true ∧ bank.opened = true ∧
      bank.poured = false ∧ b.fenced (srcMould 0) = false ∧ b.following = false ∧ 0 ∈ b.segAxes 0 ∧
      bank.entries.lookup 0 = some { cmd := [1], tel := [] } ∧ bank.estop = false) ∧
    (let b := ({ netDev { seg0 with cur := { opened := true, poured := true } } with now := 60000 } : State).before 60000;
      let at_ := b.mtBack (b.segPP 0); (b.bank 0 (cycOf at_) (granOf at_ / b.segL 0)).poured = true) := by
  repeat' apply And.intro
  all_goals decide

/-! ### Machine time, ports, channels and converters -/

/-- Domain 1 in a state, enabled, with its port up. -/
def domDev (d : Domain) : State :=
  { pw := { mode := .run }, time := { d1 := d, p1 := { up := true } }, regs := { force := [(0x0C0000, 2)] } }

/-- A request of a domain. -/
def pdReq (dom : Nat) : List Byte := zeros 18 ++ [BitVec.ofNat 8 dom] ++ zeros 35

theorem witness_DomainsAreSteeredHeldAndLost :
    (let b := (domDev { st := .locked, capable := true, announced := true, gmid := 7 }).before 4; let d := b.dom 1;
      b.fenced srcTimeUnit = false ∧ d.st = .locked ∧ d.capable = true ∧ d.first = false ∧ d.announced = true ∧ d.gmid ≠ 8 ∧ b.domOn 1 = true ∧
      b.plantUp 1 = true ∧ ((toS 64 (toU 64 (b.syncTime 1 0 0 - (d.at 0 : Int)))).natAbs : Int) ≤ b.stepNs ∧
      b.stepNs < ((toS 64 (toU 64 (b.syncTime 1 5000 0 - (d.at 0 : Int)))).natAbs : Int) ∧ b.syncOver 1 = false ∧ b.pdelayDue 1 = true ∧
      (b.plant 1).sentAt ≠ some b.core ∧ byteAt (pdReq (b.ptpDomain 1)) 18 = b.ptpDomain 1 ∧
      byteAt (pdReq (b.ptpDomain 1 + 1)) 18 ≠ b.ptpDomain 1) ∧
    (∀ f ∈ [true, false], let d := ((domDev { st := .acquire, capable := true, first := f }).before 4).dom 1; d.st = .acquire ∧ d.capable = true ∧
      d.first = f ∧ d.announced = false) ∧
    (∀ x ∈ [DomState.listen, .holdover, .lost], let b := (domDev { st := x, announced := true, capable := true }).before 4; let d := b.dom 1;
      b.fenced srcTimeUnit = false ∧ d.st = x ∧ d.st ≠ .off ∧ d.capable = true ∧ ¬ (d.st = .listen ∧ d.announced = false)) ∧
    ((State.reset.before 4).dom 0).st = .off ∧ ((domDev { st := .locked }).before 16000000000).syncOver 1 = true ∧
    (let b := (withRegs .run [(0x0C0010, 1)]).before 4000000000; let c : State := { b with time := { d1 := { st := .holdover } } };
      (c.dom 1).st = .holdover ∧ c.holdS * 1000000000 ≤ c.raw - (c.dom 1).enteredAt) := by decide

/-- A running device whose encoder port 7 is `g`, with its CFG word and further registers. -/
def portDev (cfg : Nat) (f : SMap Nat) (g : FbPort) : State :=
  { pw := { mode := .run }, regs := { force := (0x0D01C0, cfg) :: f }, fbp := [(7, g)] }

theorem witness_QuadratureIsCounted :
    (let b := (portDev 0x40000000 [] {}).before 4; b.portMode 7 = 1 ∧ b.portValid 7 = true ∧ (b.port 7).illegal = false ∧ (b.port 7).wire = false) ∧
    (∀ cfg ∈ [0x40040000, 0x40080000], let b := (portDev cfg [] {}).before 4; b.portValid 7 = true ∧ b.spoilsNow 7 = false ∧
      bits (b.force (fbOff 7 0)) 19 18 ≠ 0 ∧ (b.port 7).firstTaken = false) ∧
    (let b := (portDev 0x40080000 [] { firstTaken := true }).before 4; bits (b.force (fbOff 7 0)) 19 18 = 2 ∧ (b.port 7).firstTaken = true) ∧
    ((({ portDev 0x40040000 [] {} with pending := [.fbpWire 4 7] } : State).before 4).spoilsNow 7) = true ∧
    (let b := (ringDev 28 { on := true } []).before 4; (b.ringOf 28).on = true ∧ b.room 28 1 = true ∧ b.fenced srcHostEngine = false) ∧
    ((State.reset.before 4).portValid 7 = false) := by decide

theorem witness_SineCosineAndSpeedAreMeasured :
    (let b := (portDev 0x80000000 [(0x0D01C8, 0xC8010064)] { angle := some 1023, ampFails := 1 }).before 4; b.portMode 7 = 2 ∧ b.portValid 7 = true ∧
      (b.port 7).angle = some 1023 ∧ ampOk (b.force (fbOff 7 8)) 100 0 = true ∧ ampOk (b.force (fbOff 7 8)) 0 0 = false ∧
      (b.port 7).ampFails = 1 ∧ (b.port 7).ampl = false ∧ (b.port 7).overspeed = false ∧ (b.port 7).invalidIn = false ∧ b.windowDue 7 = true) ∧
    (let b := (portDev 0x80000000 [(0x0D01C8, 0xC8010064)] {}).before 4; b.portMode 7 = 2 ∧ (b.port 7).angle = none ∧ (b.port 7).ampl = false ∧
      ampOk (b.force (fbOff 7 8)) 100 0 = true) ∧
    (State.reset.before 4).portMode 7 ≠ 2 ∧ ((portDev 0x40000000 [] { wire := true }).before 4).portValid 7 = false ∧
    ((portDev 0x40000000 [] {}).before 250).windowDue 7 = false ∧
    (let b := (portDev 0x40000000 [(0x0D01D0, 0x80000002)] { backlog := -1 }).before 40; bit (b.force (fbOff 7 0x10)) 31 = true ∧
      b.portValid 7 = true ∧ (b.port 7).backlog ≠ 0 ∧ (b.port 7).edgeAt + 20 * max 2 (bits (b.force (fbOff 7 0x10)) 3 0) ≤ b.now) ∧
    ((State.reset.before 4).port 7).backlog = 0 := by decide

/-- An event of a latch input at machine time 100. -/
def ev0 : LatchEv := ⟨100, false, false⟩

/-- A running device whose latch input 15 is `l`, of axis `a`, with axis 511 in use and sampled. -/
def latDev (a : Nat) (l : Latch) : State :=
  { pw := { mode := .run }, regs := { force := [(0x0DC0F0, 0x80000000 + a), (0x08E01C, 0x80000000)] }, lat := [(15, l)],
    samples := [(511, [(200, some 9), (50, some 5)])], host := { rings := [(28, { on := true })] } }

theorem witness_LatchesRecordAndSuppliesSwitch :
    (∀ d ∈ [4, 5], let b := (latDev 511 { deadUntil := d }).before 4; b.up = true ∧ bit (b.force (latOff 15 0)) 31 = true ∧
      edgeSelected (bits (b.force (latOff 15 0)) 29 28) (!(b.latch 15).high) = true ∧ ((b.latch 15).deadUntil ≤ b.now ↔ d = 4)) ∧
    (let b := State.reset.before 4; bit (b.force (latOff 15 0)) 31 = false ∧ (b.latch 15).queue = [] ∧ b.latchReady 15 = none) ∧
    (let b := ({ latDev 568 { queue := [ev0] } with lat := [(3, { queue := [ev0] }), (15, { queue := [ev0] })] } : State).before 4; (b.latch 15).queue = [ev0] ∧
      568 ≤ bits (b.force (latOff 15 0)) 9 0 ∧ b.latchReady 15 = some (ev0, 0, 3)) ∧
    (let b := (latDev 511 { queue := [ev0] }).before 4; bits (b.force (latOff 15 0)) 9 0 < 512 ∧ b.configured (bits (b.force (latOff 15 0)) 9 0) = true ∧
      (b.latchReady 15).isSome = true ∧ (∀ i < 15, (b.latchReady i).any (fun x => decide (x.1.mt = ev0.mt)) = false) ∧ (b.ringOf 28).on = true ∧
      b.room 28 1 = true ∧ b.fenced srcHostEngine = false) ∧
    (let b := (portDev 0x20000000 [] { supOn := true }).before 4; (b.port 7).supOn = true ∧ (∀ q < 8, 7 < q → (b.port q).supOn = false) ∧
      b.pw.supTotalAt = none) ∧
    (let b := ({ portDev 0x20000000 [] { supOn := true } with pw := { supTotalAt := some 0 } } : State).before 3999996; b.pw.supTotalAt = some 0 ∧
      b.now < 0 + 4000000) ∧
    ((State.reset.before 4).port 7).supOn = false ∧ (∀ q < 8, ((State.reset.before 4).port q).supOn = false) ∧
    (∀ t ∈ [399999996, 400000000], let b := (portDev 0x10000000 [] {}).before t; (b.port 7).supOn = false ∧ (b.port 7).supOvl = false ∧
      b.portSup 7 = true ∧ ((b.port 7).offAt + 400000000 ≤ b.now ↔ t = 400000000)) ∧
    (let b := (portDev 0x10000100 [] { supOn := true }).before 40000000; (b.port 7).supOn = true ∧
      (b.port 7).onAt + bits (b.force (fbOff 7 0)) 11 8 * 40000000 ≤ b.now) := by decide

/-- A running device whose step channel 15 is `v` in STEP mode, its axis's loops closed in the cycle before. -/
def stepDev (v : StepCh) (open_ : Bool) : State :=
  { pw := { mode := .run }, regs := { force := [(0x0D81E0, 0x40000000)] }, pul := [(15, v)],
    axes := [(527, { mode := .closed, wasOpen := open_ })] }

theorem witness_StepPulsesFollowTheirTarget :
    (let b := (stepDev { w := 2 ^ 47, acc := 2 ^ 47 } false).before 20; (b.stepCh 15).carryDue b.now = true ∧ -(2 ^ 63) < (b.stepCh 15).e ∧
      (b.stepCh 15).e < 2 ^ 63 - 1) ∧
    ((State.reset.before 4).stepCh 15).carryDue (State.reset.before 4).now = false ∧
    (let b := (stepDev { e := 3, target := some 5 } false).before 4; bits (b.force (pulOff 15 0)) 31 30 ≠ 0 ∧ b.boundaryDue 15 = true ∧
      b.following = false ∧ b.haltsNow 15 = false ∧ b.stepOpen (512 + 15) = false ∧ b.fenced (srcStep 15) = false ∧ (b.stepCh 15).target = some 5 ∧
      (b.stepCh 15).carryDue b.now = false ∧ (b.stepCh 15).e < 5) ∧
    (let b := (stepDev { w := 1 } true).before 4; b.boundaryDue 15 = true ∧ b.following = false ∧ b.haltsNow 15 = false ∧
      b.stepOpen (512 + 15) = true ∧ (b.stepCh 15).w ≠ 0) ∧
    (let b := ({ stepDev {} false with pending := [.pulHalt 4 15] } : State).before 4; b.boundaryDue 15 = true ∧ b.following = false ∧ b.haltsNow 15 = true ∧
      b.fenced (srcStep 15) = false) ∧
    (let b := ({ stepDev {} false with asy := { src := [(srcStep 15, { fenced := true })] } } : State).before 4; b.boundaryDue 15 = true ∧
      b.following = false ∧ b.stepOpen (512 + 15) = false ∧ b.fenced (srcStep 15) = true) ∧
    (let b := ({ stepDev {} false with pw := { mode := .follow } } : State).before 4; b.boundaryDue 15 = true ∧ b.following = true) ∧
    ((stepDev {} false).before 100).boundaryDue 15 = false ∧ bits ((State.reset.before 4).force (pulOff 15 0)) 31 30 = 0 := by decide

theorem witness_ConversionsGiveTheirResults :
    (let b := (withRegs .run [(0x0E0400, 0x41410000)]).before 4; b.up = true ∧ b.trigDue (b.force (adcOff 1 0)) = true ∧ (b.conv 1).busy = false) ∧
    (State.reset.before 4).trigDue ((State.reset.before 4).force (adcOff 1 0)) = false ∧
    (let b := ({ ringDev 27 { on := true } [] with adc := [(1, { busy := true, slotReady := true, ctl := 0x47410000 })] } : State).before 32000;
      b.up = true ∧ (b.conv 1).busy = true ∧ b.slotOver 1 = true ∧ bits (b.conv 1).ctl 21 16 ≤ (b.conv 1).entry + 1 ∧ (b.ringOf (26 + 1)).on = true ∧
      b.room (26 + 1) 1 = true ∧ bit (b.conv 1).ctl 26 = true ∧ bit (b.conv 1).ctl 25 = true ∧ b.fenced srcHostEngine = false ∧
      SMap.get (0, 0) b.an.lastBy (bits (SMap.get seqReset (b.conv 1).seqs (b.conv 1).entry) 12 8) ≠ (b.now / 50 + 1, 0)) ∧
    (let b := ({ inMode .run with adc := [(0, { busy := true, ctl := 0x44020000 })] } : State).before 32000; (b.conv 0).busy = true ∧ b.slotOver 0 = true ∧
      (b.conv 0).entry + 1 < bits (b.conv 0).ctl 21 16 ∧ bit (b.conv 0).ctl 26 = true ∧ bit (b.conv 0).ctl 25 = false ∧
      (b.conv 0).ringBad = false ∧ (b.conv 0).lenPend = false ∧ (b.conv 0).fill < (b.conv 0).len) ∧
    (let b := ({ inMode .run with adc := [(0, { busy := true })] } : State).before 4; (b.conv 0).busy = true ∧ b.slotOver 0 = false) := by decide

/-! ### The safety island -/

/-- A parameter set with some bytes set, the rest 0. -/
def spsWith (l : SMap Byte) : List Byte := (List.range 0x360).map fun i => SMap.get 0 l i

/-- Pair 7 is used and its first input tested by pulse 3, output 7 is used with a feedback contact, function 15 names it, and connection 31 of node 1
of segment 0 is used, with its WD of 2 ms. -/
def sps1 : List Byte :=
  spsWith [(0x03C, 1), (0x03E, 0x38), (0x03F, 0x80), (0x130, 0x80), (0x131, 0x80), (0x132, 0x80), (0x15F, 0xC0), (0x350, 0x80), (0x351, 1), (0x352, 3),
    (0x358, 2)]

/-- A running device with that set in force and the safety state `f` makes of it. -/
def safDev (f : Safety → Safety) : State :=
  { pw := { mode := .run }, regs := { force := netRegs }, segs := [(0, seg0)],
    saf := f { sps := some sps1, a := { powered := true, st := .run }, b := { powered := true, st := .run } } }

/-- A store whose second copy of the parameter set reads blank and carries its check value. -/
def spsNv : Nv :=
  { pages := [(0x810000 / 1024 + 9, leBytes 4 (crc32c (List.replicate 4096 255)) ++ leBytes 4 1 ++ List.replicate 1016 255)] }

theorem witness_SafetyInputsAreFilteredAndTested_powerUp :
    (let b := ({ pw := { railsGood := [.vsb] }, nv := spsNv } : State).before 4; (b.ch true).powered = false ∧ b.pw.vsuv = false ∧
      b.pw.railsGood.contains .vsb = true ∧ b.saf.loaded = none ∧ b.nvFenced = false ∧ b.nv.spsStored.isSome = true) ∧
    (let b := ({ pw := { railsGood := [.vsb] } } : State).before 4; (b.ch true).powered = false ∧ b.pw.vsuv = false ∧
      b.pw.railsGood.contains .vsb = true ∧ b.nv.spsStored = none) ∧
    (let b := ({ pw := { railsGood := [.vsb] }, saf := { loaded := some [1] } } : State).before 4; b.saf.loaded.isSome = true) := by decide +kernel

theorem witness_SafetyInputsAreFilteredAndTested :
    ((State.reset.before 4).ch true).powered = false ∧
    (let b := (safDev id).before 4; (b.ch true).powered = true ∧ b.testSource 15 = none ∧ b.filtLen 15 = 60 ∧
      (SMap.get (0, false) (b.ch true).pulses 3).2 = false ∧ (b.ch true).sincePulse 3 b.raw = none) ∧
    (∀ t ∈ [400000, 400004], let b := (safDev fun v => { v with b := { v.b with inputs := [(14, { count := 1 }), (15, { count := 59 })], pulses := [(3, (1, true))] } }).before t;
      b.testSource 15 = none ∧ bit 0x8000 15 ≠ (SMap.get {} (b.ch true).inputs 15).level ∧ bit 0 15 = (SMap.get {} (b.ch true).inputs 15).level ∧
      b.filtLen 15 ≤ (SMap.get {} (b.ch true).inputs 15).count + 1 ∧ (SMap.get {} (b.ch true).inputs 14).count + 1 < b.filtLen 14 ∧
      (SMap.get (0, false) (b.ch true).pulses 3).2 = true ∧ ((b.ch true).sincePulse 3 b.raw).any (fun d => decide (b.testW ≤ d)) = true ∧
      (((b.testSource 14).bind fun tp => (b.ch true).sincePulse tp b.raw).any (fun d => decide (d ≤ b.testW + 100000)) = decide (t = 400000)) ∧
      b.testSource 14 = some 3 ∧ b.pairUsed (14 / 2) = true ∧ (SMap.get {} (b.ch true).inputs 14).lowSeen = false) ∧
    (({ pw := { vsuv := true } } : State).before 4).pw.vsuv = true ∧ (State.reset.before 4).pw.railsGood.contains .vsa = false := by decide

theorem witness_AMismatchOrASilentPeerLocksOut :
    (let b := (safDev id).before 4; (b.ch true).st = .run ∧ (b.ch false).st = .run ∧ (b.ch true).gotRes = false) ∧
    (let b := (safDev id).before 400000; (b.ch true).st = .run ∧ (b.ch true).gotSnap = false ∧ b.saf.tickRaw + 100000 ≤ b.raw) := by decide

theorem witness_ChannelsLockOut :
    (let b := (safDev id).before 4; let c := b.ch true; c.st = .run ∧ (b.ch false).st = .run ∧ c.gotRes = false ∧ c.lastTick = none ∧ c.powered = true ∧
      c.st ≠ .lockout ∧ ¬ ((c.gotSnap = false ∧ b.saf.tickRaw + 100000 ≤ b.raw) ∨ (c.gotRes = false ∧ b.saf.tickRaw + 350000 ≤ b.raw))) ∧
    (let b := (safDev fun v => { v with b := { v.b with gotSnap := true } }).before 1400000; (b.ch true).st = .run ∧ (b.ch true).gotRes = false ∧
      b.saf.tickRaw + 350000 ≤ b.raw) ∧
    (∀ t ∈ [2399996, 2400000], let b := (safDev fun v => { v with b := { v.b with lastTick := some 0 } }).before t;
      (b.ch true).st = .run ∧ (b.ch true).lastTick = some 0 ∧ (b.ch true).discards < 2 ∧ (b.raw < 0 + 600000 ↔ t = 2399996)) ∧
    (let c := ((safDev fun v => { v with b := { v.b with lastTick := some 0, discards := 2 } }).before 4).ch true; c.st = .run ∧ 2 ≤ c.discards) ∧
    (let c := ((safDev fun v => { v with b := { v.b with st := .lockout } }).before 4).ch true; c.st ≠ .run ∧ c.st = .lockout ∧ c.powered = true ∧
      c.lastTick = none) ∧
    (let c := (State.reset.before 4).ch true; c.st ≠ .run ∧ c.powered = false) := by decide

theorem witness_TheSafetyCycleSwitchesOutputs :
    (State.reset.before 4).up = false ∧ ((safDev id).before 100).tickDue = false ∧
    (∀ r ∈ [449999, 450000, 550000, 550001], let b := (safDev fun v => { v with a := { v.a with lastTick := some (1000000 - r), discards := 1 } }).before 4000000;
      b.up = true ∧ b.tickDue = true ∧ (b.ch false).hears = true ∧ (b.ch false).st = .run ∧ 1 ≤ (b.ch false).discards ∧
      ((b.ch false).tickFits b.raw = true ↔ 450000 ≤ r ∧ r ≤ 550000) ∧ (b.ch true).hears = true ∧ (b.ch true).tickFits b.raw = true) ∧
    (let b := (safDev fun v => { v with a := { v.a with st := .off, ticks := 1 } }).before 4000000; b.tickDue = true ∧ (b.ch false).tickFits b.raw = true ∧
      (b.ch false).st = .off ∧ b.saf.sps.isSome = true ∧ 1 ≤ (b.ch false).ticks ∧ (b.ch false).selftest = false) ∧
    (let b := (safDev fun v => { v with a := {}, b := { v.b with linkDown := true } }).before 4000000; b.tickDue = true ∧ (b.ch false).hears = false ∧
      (b.ch true).hears = false) ∧
    ((State.reset.before 4).ch true).st ≠ .run ∧
    (∀ e ∈ [true, false], let b := (safDev fun v => { v with evaluated := e }).before 4; (b.ch true).st = .run ∧ (b.ch (!true)).st ≠ .off ∧
      (b.ch true).gotSnap = false ∧ b.saf.evaluated = e ∧ b.outUsed 7 = true ∧ b.fnUsed 15 = true ∧ bit (b.fnByte 15 2) 7 = true ∧
      (b.safFn 15).st ≠ .delay) ∧
    (∀ n ∈ [1, 2], let b := (safDev fun v => { v with fns := [(15, { st := .delay, left := n })] }).before 4; (b.safFn 15).st = .delay ∧
      ((b.safFn 15).left ≤ 1 ↔ n = 1) ∧ b.saf.evaluated = false) := by
  repeat' apply And.intro
  all_goals decide

theorem witness_OutputsAndPairsAreWatched :
    (let b := (safDev id).before 80000004; (b.safOut 7).on = false ∧ b.outUsed 7 = true ∧ (b.safOut 7).locked = false ∧
      20000000 < b.raw - (b.safOut 7).changedAt ∧ bit (b.outWord 7) 30 = true ∧
      (b.safOut 7).changedAt + 1000000 * bits (b.outWord 7) 19 10 ≤ b.raw) ∧
    (let b := (safDev fun v => { v with outs := [(7, { on := true })] }).before 8000004; (b.safOut 7).on = true ∧ (b.safOut 7).testing = false ∧
      b.outUsed 7 = true ∧ (b.safOut 7).locked = false ∧ 2000000 < b.raw - (b.safOut 7).changedAt) ∧
    (let b := (safDev fun v => { v with outs := [(7, { on := true, testing := true })] }).before 1000000; (b.safOut 7).on = true ∧
      (b.safOut 7).testing = true ∧ b.raw < b.saf.tickRaw + 300000 ∧ b.outUsed 7 = true ∧ (b.safOut 7).locked = false ∧
      250000 ≤ b.raw - b.saf.tickRaw) ∧
    (let b := State.reset.before 4; bit (b.outWord 7) 30 = false ∧ b.outUsed 7 = false ∧ (b.safOut 7).on = false) ∧
    (∀ f ∈ [0, 1], let b := (safDev fun v => { v with tickRaw := 1000001, pairs := [(7, { discSince := some f })] }).before 4; (b.safPair 7).discSince = some f ∧
      (b.safPair 7).st ≠ .fault ∧ (b.tDisc 7 < b.saf.tickRaw - f ↔ f = 0)) ∧
    (((safDev id).before 4).safPair 7).discSince = none := by decide

/-- The unit of connection 31 with SEQ 9, for a channel. -/
def unit0 (chB : Bool) : List Byte :=
  let p : List Byte := [31, 0x20, 9, 0] ++ leBytes 8 5000 ++ List.replicate 16 3
  p ++ leBytes 4 (unitCheck chB 0 p)
/-- Its copy in entry 3 of node 1 on channel A. -/
def copy0 : List Byte := fr [0x41, 1, 0, 0, 3, 0] (unit0 false)

theorem witness_SafeUnitsAreAcceptedInPairs :
    (∀ o ∈ [unitBody false ((unit0 false).take 28), []], let b := (safDev fun v => { v with conns := [(31, { gotB := o })] }).before 20000; let p := payloadOf copy0;
      b.segRuns 0 = true ∧ b.hears 0 false = true ∧ (b.entryAt 0 false 5000 fun w => decide (schType w = 4)) = some (0, 3) ∧
      b.copyOk 0 0 3 false 5000 copy0 = true ∧ byteAt copy0 1 = schSender (b.sched 0 3) ∧ copy0.length = 42 ∧ (b.node 0 1).badA = false ∧
      (b.ch false).st ≠ .off ∧ (b.ch false).linkDown = false ∧ schSender (b.sched 0 3) = 1 ∧ b.connOf 0 1 = some 31 ∧
      b.unitOk 31 false p = true ∧ (b.safConn 31).rxSeq = none ∧ ((b.safConn 31).gotB = unitBody false (p.take 28) ↔ o ≠ [])) ∧
    (∀ r ∈ [9, 10, 9 + 2 ^ 16 - 255], let b := (safDev fun v => { v with conns := [(31, { rxSeq := some r })] }).before 20000;
      let ahead := (fld (payloadOf copy0) 2 2 + 2 ^ 16 - r) % 2 ^ 16; b.unitOk 31 false (payloadOf copy0) = true ∧ (b.safConn 31).rxSeq = some r ∧
      (if r = 9 then ahead = 0 else if r = 10 then 255 < ahead else ahead = 255)) ∧
    (let b := (safDev id).before 8020004; b.unitOk 31 false (payloadOf copy0) = false ∧ b.copyOk 0 0 3 false 5000 (7 :: copy0) = false) ∧
    (let b := (safDev fun v => { v with a := { v.a with st := .off } }).before 20000; (b.ch false).st = .off) ∧
    (State.reset.before 4).segRuns 0 = false ∧
    (∀ m ∈ [2000000, 2000001], let b := (safDev fun v => { v with tickMt := m, conns := [(31, { st := .ok })] }).before 4; b.connUsed 31 = true ∧
      (b.safConn 31).st ≠ .lost ∧ ((b.safConn 31).rxMt + b.connWd 31 < b.saf.tickMt ↔ m = 2000001)) ∧
    (let b := (safDev fun v => { v with conns := [(31, { st := .single })] }).before 4; (b.safConn 31).st = .single ∧ b.singleRefused 31 = true) ∧
    (((safDev id).before 4).safConn 31).st ≠ .single := by
  repeat' apply And.intro
  all_goals decide

/-- A follower of a running leader whose unit of connection 31 stands in the entry of the controller. -/
def leaderUnit : List Byte := fr [0x41, 0, 0, 0, 6, 0] (unit0 false)

theorem witness_SafeUnitsAreAcceptedInPairs_follower :
    let b := ({ safDev id with pw := { mode := .follow }, tw := { role := .follower }, segs := [(0, { seg0 with ring := .integrated })], saf := { sps := some (List.replicate 0x350 0 ++ [0x80, 1, 6, 0, 0, 0, 0, 0, 2]), a := { powered := true, st := .run } } } : State).before 37600;
      b.segRuns 0 = true ∧ b.hears 0 false = true ∧ (b.entryAt 0 false 9375 fun w => decide (schType w = 4)) = some (0, 6) ∧
      b.copyOk 0 0 6 false 9375 leaderUnit = true ∧ byteAt leaderUnit 1 = schSender (b.sched 0 6) ∧ schSender (b.sched 0 6) = 0 ∧
      leaderUnit.length = 42 ∧ (b.node 0 0).badA = false ∧ (b.ch false).st ≠ .off ∧ (b.ch false).linkDown = false ∧ b.following = true ∧
      b.connAt 0 6 = some 31 ∧ fld (payloadOf leaderUnit) 28 4 = unitCheck false (b.connFld 31 4 4) ((payloadOf leaderUnit).take 28) := by
  repeat' apply And.intro
  all_goals decide

/-! ### The twin link -/

/-- A device whose twin link is enabled with both lanes up, as `x`, in mode `m` with segment 0 in `r`. -/
def twinDev (m : DevMode) (r : RingSt) (x : Twin → Twin) : State :=
  { pw := { mode := m }, regs := { force := [(0x0F0000, 1)] }, tw := x { lane0 := true, lane1 := true }, segs := [(0, { ring := r })],
    host := { rings := [(24, { on := true })] } }

/-- A follower that hears its leader, paired. -/
def follower : State := twinDev .follow .integrated fun x => { x with role := .follower, pair := .paired, hbAt := some 0, peerRole := 1 }

theorem witness_TheTwinPairsAndChangesOver :
    (let b := (twinDev .run .running fun x => { x with role := .leader, rank := 1, hbAt := some 0, peerRole := 1, lane1 := false }).before 4;
      bit (b.force 0x0F0000) 0 = true ∧ b.tw.laneUp 0 = true ∧ b.tw.laneUp 1 = false ∧ b.twinUp = true ∧ b.tw.role = .leader ∧ b.tw.peerRole = 1 ∧
      b.tw.hbAt.isSome = true ∧ b.tw.linkLost = false ∧ b.running ≠ [] ∧ b.tw.rank = 1 ∧ ¬ b.tw.hbAt.getD b.tw.enAt + 1500000 ≤ b.now ∧
      b.changeDue = false ∧ b.tw.pair = .unpaired ∧ (b.seg 0).ringOpen = false ∧ 0 ∈ b.running) ∧
    (∀ p ∈ [Pair.pairing, .paired], let b := (twinDev .run .running fun x => { x with role := .leader, pair := p }).before 4; b.twinUp = true ∧
      b.tw.role = .leader ∧ b.tw.pair = p ∧ b.tw.pair ≠ .unpaired ∧ 0 ∈ b.running ∧ (b.twSeg 0).st ≠ .resync ∧ b.now < b.tw.pairAt + 1000000) ∧
    (let b := State.reset.before 4; b.twinUp = false ∧ bit (b.force 0x0F0000) 0 = false ∧ b.mayPair = false ∧ b.tw.role ≠ .leader) ∧
    (let b := follower.before 1500000; bit (b.force 0x0F0000) 0 = true ∧ b.tw.linkLost = false ∧ b.tw.hbAt.getD b.tw.enAt + 1500000 ≤ b.now ∧
      b.tw.role = .follower ∧ b.changeDue = false ∧ 0 ∈ b.running ∧ b.twinUp = true) ∧
    (let b := (twinDev .run .running fun x => { x with role := .leader, hbAt := some 0, peerRole := 2 }).before 4; b.mayPair = true ∧
      b.tw.role = .leader ∧ b.tw.peerRole = 2 ∧ b.ringsIn .running = true) ∧
    (let b := (twinDev .follow .integrated fun x => { x with role := .follower, hbAt := some 0, peerRole := 1 }).before 4; b.mayPair = true ∧
      b.tw.role = .follower ∧ b.tw.peerRole = 1 ∧ b.ringsIn .integrated = true) ∧
    (∀ p ∈ [Pair.unsynced, .paired], let b := ({ follower with tw := { follower.tw with silent := 3, pair := p } } : State).before 4;
      b.changeDue = true ∧ b.tw.pair = p ∧ (b.seg 0).ring = .integrated) ∧
    (({ follower with tw := { follower.tw with handover := some 0 } } : State).before 4).changeDue = true ∧
    (({ follower with tw := { follower.tw with silent := 2 } } : State).before 100).changeDue = false := by decide

/-- A descriptor that waits for its TAG at position 5 of ring 7, or has it. -/
def waits0 (x : Option (Nat × Nat × Nat)) : State := { follower with host := { acc := [{ phased with tagged := x }], rings := [(15, { on := true })] } }

theorem witness_AFollowerTakesFromItsLeader :
    (let b := follower.before 4; b.hearsLeader = true ∧ b.host.acc = [] ∧ tagOf b.cyc = 0 ∧ b.minor 0 = 0 ∧ b.following = true ∧
      (b.ringOf 24).on = true ∧ b.room 24 1 = true ∧ b.fenced srcHostEngine = false ∧ b.leads = false ∧ b.tw.pair ≠ .pairing) ∧
    (let b := (waits0 none).before 4; b.hearsLeader = true ∧
      b.host.acc.find? (fun e => decide (e.ring = 7 ∧ e.pos = 5) && e.tagged.isSome && decide (e.seq = 1)) = none ∧
      b.host.acc.find? (fun e => decide (e.ring = 7 ∧ e.pos = 5)) = some phased ∧ opcOf phased.op = 1 ∧ phased.seq = 1 ∧ phased.crc = 0) ∧
    (let b := (waits0 (some (0, 0, 0))).before 4;
      (b.host.acc.find? fun e => decide (e.ring = 7 ∧ e.pos = 5) && e.tagged.isSome && decide (e.seq = 1)).isSome = true) ∧
    (let e : Entry := { phased with op := .moveAbs 0, prog := .running 0 0 };
      let b := ({ waits0 none with host := { acc := [e], rings := [(15, { on := true })] } } : State).before 4; b.hearsLeader = true ∧ b.host.acc = [e] ∧
      opcLocal (opcOf e.op) = false ∧ e.prog ≠ .waiting ∧ b.tw.cpls = [] ∧ (b.ringOf (8 + 7)).on = true ∧ b.fenced srcHostEngine = false) ∧
    (let b := State.reset.before 4; b.hearsLeader = false ∧ b.twinUp = false ∧ (b.twSeg 0).lost = []) ∧
    (∀ k ∈ [0, 1, 2], let b := ({ follower with tw := { follower.tw with segs := [(7, { st := .ready, own := some (0, 0, 9), misrun := k })] } } : State).before 4;
      b.twinUp = true ∧ b.tw.pair = .paired ∧ b.tw.role = .follower ∧ (b.twSeg 7).own = some (0, 0, 9) ∧ tagOf 0 = 0 ∧ (b.twSeg 7).st ≠ .resync ∧
      (b.twSeg 7).misrun = k) ∧
    (let b := (twinDev .run .running fun x => { x with role := .leader, pair := .paired, segs := [(0, { lost := [0] })] }).before 4; b.twinUp = true ∧ b.tw.pair = .paired ∧
      b.tw.role ≠ .follower ∧ b.leads = true ∧ (b.twSeg 0).lost ≠ []) ∧
    (let b := ({ follower with tw := { follower.tw with pair := .pairing } } : State).before 4; b.hearsLeader = true ∧ b.tw.pair = .pairing) ∧
    (∀ n : Nat, n + 1 ≠ n) ∧
    (let b := ({ follower with axes := [(511, { ident := some { id := 1, exc := 0, rsp := 0, blocks := 1, settle := 15, amp := 1, emax := 1, seq := 0, w20 := 0, w24 := 0 }, ln := { resample := some { id := 1, log2n := 9, swapN := 5 } } })] } : State).before 4;
      (b.axis 511).ln.resample.isSome = true ∧ (b.axis 511).ident.isSome = true) ∧
    (let b := ({ follower with host := { rings := [(24, { on := true, own := 65536, host := 0 })] } } : State).before 4; (b.ringOf 24).on = true ∧
      b.room 24 1 = false) ∧
    (∀ n ∈ [1, 2], (({} : TwinPart).add (n * 2 ^ 16) 0 0 0 [7]).whole = decide (n = 1)) ∧
    (let b := ({ onNet 240 seg0 id with regs := { force := (0x0F0000, 1) :: segRegs 240 }, tw := { lane0 := true, role := .leader, pair := .paired } } : State).before 4;
      b.twinUp = true ∧ b.tw.pair = .paired ∧ (b.segOf 0).isSome = true) := by
  refine ⟨by decide, by decide, by decide, by decide, by decide, by decide, by decide, by decide, fun n => by omega, ?_⟩
  repeat' apply And.intro
  all_goals decide

/-! ## Results worked out in the spec, and single steps -/

/-- A FIR term: a coefficient times a Q1.31 sample, in units of 2^-62. -/
def tap (c : Coef) (x : Int) : Int := c.m * x * 2 ^ c.e.toNat

/-- The taps of 06's worked case: 300 and -300 at 0.875, 0.25 at 0.5. -/
def taps : List Int :=
  [tap ⟨0x4B000000, 9⟩ 0x70000000, tap ⟨0x4B000000, 9⟩ 0x70000000, tap ⟨-0x4B000000, 9⟩ 0x70000000, tap ⟨-0x4B000000, 9⟩ 0x70000000,
   tap ⟨0x20000000, 0⟩ 0x40000000]

/-- 06 Table 06.6: the sum freezes at its second term and the output saturates. -/
theorem test_fir_sum_overflows : (sum32 taps).v = 0x7FFFFFFF ∧ (sum32 taps).sat = true ∧ (taps.take 2).foldl Acc.add {} = ⟨2 ^ 71 - 1, true⟩ := by
  decide

/-- The same taps in the order that 06 names after it: no partial sum overflows. -/
theorem test_fir_sum_in_another_order :
    sum32 [taps[0], taps[2], taps[1], taps[3], taps[4]] = ⟨0x10000000, false, false⟩ := by decide

/-- 06 R269: convergent rounding takes a tie to the even value, and a narrowing saturates after it. -/
theorem test_rounding : [3, 5, 6, 7, -3, -5, -6].map (fun x => roundConv x 1) = [2, 2, 3, 4, -2, -2, -3] ∧
    (narrow 8 24 (0x7F800000 : Int)).v = 127 ∧ (narrow 8 24 (0x7F800000 : Int)).sat = true := by decide

/-- 12's worked case: the landing of channel 3 from 1000 to 1250, and from 1250 back to 1200. -/
theorem test_landing :
    (let c := StepCh.land { e := 1000, acc := 3000 } (0x40000000 + 20 * 2 ^ 16 + 8 * 2 ^ 8) 6250 1250 0; c.w = 11258999068426 ∧ c.down = false ∧
      c.rateLim = false ∧ (c.acc + 6250 * c.w) / 2 ^ 48 = 250 ∧ (c.acc + 6250 * c.w) % 2 ^ 48 = 1500) ∧
    (let c := StepCh.land { e := 1250, acc := 1500 } (0x40000000 + 20 * 2 ^ 16 + 8 * 2 ^ 8) 6250 1200 0; c.acc = 0 ∧ c.down = true ∧
      c.accAt = 20 * 30 ∧ 6220 * (c.w - 1) < 50 * 2 ^ 48 ∧ 50 * 2 ^ 48 ≤ 6220 * c.w) := by decide

/-- 11's worked cases of speed: one, three and -2 counts in a window of 500 granules. -/
theorem test_speed : [1, 3, -2].map (fun n => roundDiv (n * 2 ^ 20) 500) = [2097, 6291, -4194] := by decide

/-- 11 R491's example: a mark 12 500 ns after the sample at 1 000 000.0 counts, of the 31 250 ns to the sample at 1 000 640.0. -/
theorem test_latch_position :
    latchPos [(31250, some (1000640 * 65536)), (0, some (1000000 * 65536))] 2000 14500 = some (1000256 * 65536, 0) := by decide

/-- 14's worked case of AT_CYCLE across the wrap of the tag. -/
theorem test_at_cycle : atCycle 0x0300FFFFFE 0x000010 = some 0x0301000010 ∧ atCycle 0x0300FFFFFE 0xFFFFF0 = none ∧
    atCycle 0x0300FFFFFE 0xFFFFFE = some 0x0300FFFFFE := by decide

/-- 05's worked case: the phase of 1 234 567 counts of an 80 000 count master, and its advance. -/
theorem test_phase : phaseOf (1234567 * 65536) 0 (80000 * 65536) = 1855801681 ∧ phaseStep 1855801681 1854601681 = 1200000 := by decide

/-- 07's worked case of a target behind: the first cycle of the braking leg, with a = -0.0625 and REVERSED. -/
theorem test_target_behind :
    let m : Motion := { p := 10000 * 2 ^ 48, v := 40 * 2 ^ 48, vmax := 0x00280000 * 2 ^ 32, amax := 0x00800000 * 2 ^ 24,
                        dmax := 0x00800000 * 2 ^ 24, jmax := 0x10000000 * 2 ^ 16 }
    let o := runMove ⟨(job0 0 0).input, 0, true, false, false, 0, false, c0, 0, [], none⟩ m (5000 * 65536) none none false
    o.g = ⟨10000 * 2 ^ 48 + 639 * 2 ^ 44, 639 * 2 ^ 44, -(2 ^ 44)⟩ ∧ o.rev = true ∧ o.lim = false := by decide

/-- 14 Table 14.6 and 20 R793: EXTEST, then TAP_RESET, in the order of the queue. -/
theorem test_step_takes_the_front :
    ∃ w v, step { pending := [.extest 1, .tapReset 2] } = .next w ∧ w.tap = .extest ∧ w.pending = [.tapReset 2] ∧ step w = .next v ∧
      v.tap = .bypass ∧ v.pending = [] := ⟨_, _, rfl, by decide, by decide, rfl, by decide, by decide⟩

/-- 18 R721: the last rail of the sequence takes the package from RESET to BOOT. -/
theorem test_rail_sequence : ∃ w, exec (.railGood 4 4) (enabling .vcore [.vio, .vafe, .v1p0]) = .next w ∧ w.pw.mode = .boot ∧ w.pw.prev = .reset :=
  ⟨_, rfl, by decide, by decide⟩

/-- 17 R669: SELFTEST_FAIL takes its channel to LOCKOUT with cause 4, and the other channel runs on. -/
theorem test_selftest : ∃ w, exec (.selftestFail 4 true) (safDev id) = .next w ∧ (w.ch true).st = .lockout ∧ (w.ch false).st = .run ∧
    w.saf.cause = 4 := ⟨_, rfl, by decide, by decide, by decide⟩

/-- 08 R344: the header and payload of the CT train of an axis that has no record: a hold record on each channel. -/
theorem test_slot : ∃ w, exec (.slotTransmit 4 0 0) (netDev seg0) = .next w ∧ w.out.length = 2 := ⟨_, rfl, by decide⟩

end Sys2Proof.Tests
end

section
/-! O46 fails in a state that lists a source twice. The statement asks no canonical form (`SMap.wf`) of the table of sources,
and CLEAR_LEDGER, whose effect may come within a major-cycle boundary (02 R67), rebuilds that table: an entry that has become the default
goes, and one behind it with the same key then stands for the source. -/

namespace Sys2Proof.Machine

/-- CLEAR_LEDGER for the device, accepted at time 0. With no segment running it takes effect at the next boundary. -/
def waitingClear : Entry :=
  { id := 1, ring := 0, pos := 0, seq := 0, irq := false, tgt := 0xFFFF, op := .clearLedger, due := .next, accN := 0, accT := 0,
    prog := .waiting, tagged := none, seg := none, crc := 0 }

/-- A device in RUN where major cycle 1 begins, with a TIME_STEP of the cycle that ends. Its time unit is listed twice: in
service with STICKY, and behind that entry fenced. -/
def timeUnitTwice : State :=
  { now := 500000, pw := { mode := .run }, time := { stepTaken := true }, host := { acc := [waitingClear] },
    asy := { src := [(srcTimeUnit, { sticky := true }), (srcTimeUnit, { fenced := true })] } }

/-- The boundary is due, and it finds the time unit in service. -/
theorem timeUnitTwice_before : let b := timeUnitTwice.before 500000
    b.up = true ∧ b.boundaryNow = true ∧ b.fenced srcTimeUnit = false := by decide

set_option maxRecDepth 2048 in
/-- Within the boundary CLEAR_LEDGER takes the first entry away, so that the time unit reads as fenced before its own part
comes (10 R445): the record of the TIME_STEP stays. -/
theorem majorCycleBoundary_timeUnitTwice : ∃ v, exec (.majorCycleBoundary 500000) timeUnitTwice = .next v ∧
    v.fenced srcTimeUnit = true ∧ v.time.stepTaken = true := ⟨_, rfl, by decide, by decide⟩

/-- Refutes O46: its clause that a boundary with the time unit in service ends the record of a TIME_STEP fails in
`timeUnitTwice`, whose table of sources is not in canonical form. -/
theorem not_cyclesOpenAndPourWithinMajorCycles : ¬ Obligations.CyclesOpenAndPourWithinMajorCycles := by
  unfold Obligations.CyclesOpenAndPourWithinMajorCycles
  rintro ⟨hmajor, -⟩
  obtain ⟨hup, hdue, hinService⟩ := timeUnitTwice_before
  obtain ⟨-, -, -, hboundary⟩ := hmajor timeUnitTwice 500000
  obtain ⟨w, hw, -, -, -, -, -, htime, -⟩ := hboundary hup hdue
  obtain ⟨v, hv, -, hkept⟩ := majorCycleBoundary_timeUnitTwice
  have hwv : ends timeUnitTwice 500000 w = v := Host.Outcome.next.inj (hw.symm.trans hv)
  have hcleared : v.time.stepTaken = false := hwv ▸ (htime hinService).1
  rw [hkept] at hcleared
  contradiction

end Sys2Proof.Machine
end

section
/-! FENCE, TRACE, CLEAR_FLAGS and the device MODE as commands (02 R91; 03 R144; 04 R186; 18 R735): what the effect of each does,
and what stands once the completions that are due are posted. -/

namespace Sys2Proof.Machine

/-! ## The record of accepted descriptors -/

theorem State.cplDisable_acc (s : State) (r : Nat) : (s.cplDisable r).host.acc = s.host.acc := by
  unfold State.cplDisable
  split <;> rfl

theorem State.cplDisables_acc (s : State) : s.cplDisables.host.acc = s.host.acc := by
  unfold State.cplDisables
  induction List.range 8 generalizing s with
  | nil => rfl
  | cons r rs ih => rw [List.foldl_cons, ih, State.cplDisable_acc]

/-- The only descriptor of the record leaves it once its completion is due. -/
theorem State.postReady_acc_of_single (s : State) (e : Entry) (rec_ : List Byte) (hacc : s.host.acc = [e])
    (hrec : s.recordOf e = some rec_) : s.postReady.host.acc = [] := by
  unfold State.postReady
  rw [State.cplDisables_acc, hacc]
  simp [postLoop, hrec]

/-- The completion of a local opcode that is over is due, at a follower too (15 R594). -/
theorem State.recordOf_done_of_local (s : State) (e : Entry) {st n m : Nat} {res : List Byte} (hloc : opcLocal (opcOf e.op) = true)
    (hdone : e.prog = .done st n m res) : s.recordOf e = some (cplRecord e st n m res) := by
  simp [State.recordOf, hloc, hdone]

/-- A descriptor of a local opcode that ends with nothing else open leaves an empty record. -/
theorem State.finish_postReady_acc (s : State) (h : DHdr) (op : DOp) (st : Nat) (res : List Byte) (hacc : s.host.acc = [])
    (hloc : opcLocal (opcOf op) = true) : ((s.cmdTaken h op).finish (s.cmdEntry h op).id st res).postReady.host.acc = [] := by
  have hone : ((s.cmdTaken h op).finish (s.cmdEntry h op).id st res).host.acc =
      [{ s.cmdEntry h op with prog := .done st (s.applyCycle op h.tgt).1 (s.applyCycle op h.tgt).2 res }] := by
    simp [State.finish, State.cmdTaken, hacc, State.cmdEntry, Progress.isDone, Entry.applied]
  exact State.postReady_acc_of_single _ _ _ hone (State.recordOf_done_of_local _ _ hloc rfl)

/-! ## The four commands -/

/-- A command whose meaning is to run a descriptor leaves, where the descriptor passes the first checks, what its effect makes of the
state with its record. -/
theorem exec_taken {i : Instr} {s : State} {t : Nat} {h : DHdr} {op : DOp} {f : Ctx → Entry → State → State}
    (hexec : exec i s = s.does t fun b => b.runDescr h op f) (ht : Taken (s.before t) h op) :
    exec i s = .next (ends s t
      (f ((s.before t).cmdCtx h op) ((s.before t).cmdEntry h op) ((s.before t).cmdTaken h op)).postReady) := by
  rw [hexec, does_eq, State.runDescr_taken _ _ _ _ ht]

/-- What FENCE does when its command runs: it waits for what it names, or ends. -/
def fenceEffect (rings : Nat) (wait : Bool) (c : Ctx) (e : Entry) (s : State) : State :=
  if s.fenceHeld e rings wait then s.modEntry e.id fun e => { e with prog := .waiting } else fxFence c e s

theorem exec_fence (s : State) (t : Nat) (h : DHdr) (rings : Nat) (wait : Bool) :
    exec (.fence t h rings wait) s = s.does t fun b => b.runDescr h (.fence rings wait) (fenceEffect rings wait) := rfl

theorem exec_trace (s : State) (t : Nat) (h : DHdr) (em sm : Nat) (cm sp : Bool) (lo hi : Nat) :
    exec (.trace t h em sm cm sp lo hi) s =
      s.does t fun b => b.runDescr h (.trace em sm cm sp lo hi) (fxTrace em sm cm sp lo hi) := rfl

theorem exec_clearFlags (s : State) (t : Nat) (h : DHdr) (mask : Nat) :
    exec (.clearFlags t h mask) s = s.does t fun b => b.runDescr h (.clearFlags mask) (fxClearFlags mask) := rfl

theorem exec_mode (s : State) (t : Nat) (h : DHdr) (code : Nat) :
    exec (.mode t h code) s = s.does t fun b => b.runDescr h (.mode code) (fxMode code) := rfl

/-! ## FENCE (02 R91) -/

/-- Nothing that was accepted earlier holds a FENCE back where nothing was open before it: it ends. -/
theorem fenceEffect_of_first (b : State) (h : DHdr) (rings : Nat) (wait : Bool) (c : Ctx) (hacc : b.host.acc = []) :
    let op : DOp := .fence rings wait
    fenceEffect rings wait c (b.cmdEntry h op) (b.cmdTaken h op) = (b.cmdTaken h op).finish (b.cmdEntry h op).id stDone (zeros 8) := by
  intro op
  have hfree : (b.cmdTaken h op).fenceHeld (b.cmdEntry h op) rings wait = false := by simp [State.fenceHeld, State.cmdTaken, hacc]
  simp only [fenceEffect, hfree, Bool.false_eq_true, if_false, fxFence]

/-- A FENCE that is held waits and one that is not ends: neither touches more than the record. -/
theorem fenceEffect_Desk (rings : Nat) (wait : Bool) (c : Ctx) (e : Entry) (s : State) : Desk s (fenceEffect rings wait c e s) := by
  unfold fenceEffect
  split
  · exact .of_desk (State.modEntry_desk _ _ _)
  · exact State.finish_Desk _ _ _ _

/-- FENCE acts on the desk alone, and with nothing else open it ends. -/
theorem execFence_Desk {s : State} {t : Nat} {h : DHdr} {rings : Nat} {wait : Bool} (ht : Taken (s.before t) h (.fence rings wait)) :
    ∃ w, exec (.fence t h rings wait) s = .next (ends s t w) ∧ Desk (s.before t) w ∧
      ((s.before t).host.acc = [] → w.host.acc = []) := by
  refine ⟨_, exec_taken (exec_fence ..) ht, ?_, fun hacc => ?_⟩
  · exact ((State.cmdTaken_Desk _ _ _).trans (fenceEffect_Desk ..)).trans (State.postReady_Desk _)
  · rw [fenceEffect_of_first _ _ _ _ _ hacc]
    exact State.finish_postReady_acc _ _ _ _ _ hacc rfl

/-! ## TRACE (03 R144, Table 03.10) -/

/-- SCH_TRACE_CTL with the filters of a TRACE. -/
def traceCtl (v evtMask segMask : Nat) (softPass : Bool) : Nat :=
  v - 2 ^ 16 * bits v 24 16 - 2 ^ 8 * bits v 15 8 - bits v 0 0 + 2 ^ 16 * (evtMask % 2 ^ 9) + 2 ^ 8 * (segMask % 2 ^ 8) + b2n softPass

/-- SCH_TRACE_RANGE with the axes of a TRACE. -/
def traceRange (v lo hi : Nat) : Nat :=
  v - 2 ^ 16 * bits v 25 16 - bits v 9 0 + 2 ^ 16 * (hi % 2 ^ 10) + lo % 2 ^ 10

theorem traceCtl_fields (v : Nat) {evtMask segMask : Nat} (softPass : Bool) (he : evtMask < 512) (hs : segMask < 256) :
    bits (traceCtl v evtMask segMask softPass) 24 16 = evtMask ∧ bits (traceCtl v evtMask segMask softPass) 15 8 = segMask ∧
      bits (traceCtl v evtMask segMask softPass) 0 0 = b2n softPass := by
  have hb : b2n softPass < 2 := by cases softPass <;> decide
  simp only [traceCtl, bits, Nat.shiftRight_eq_div_pow]
  omega

theorem traceRange_fields (v : Nat) {lo hi : Nat} (hl : lo < 1024) (hh : hi < 1024) :
    bits (traceRange v lo hi) 25 16 = hi ∧ bits (traceRange v lo hi) 9 0 = lo := by
  simp only [traceRange, bits, Nat.shiftRight_eq_div_pow]
  omega

/-- A change by the device writes the set-up registers alone. -/
theorem State.devSet_eq (s : State) (off mask v : Nat) : s.devSet off mask v = { s with regs := (s.devSet off mask v).regs } := by
  unfold State.devSet
  dsimp only
  split
  · split <;> rfl
  · rfl

/-- What the device sets is in force, whatever the staging copy does. -/
theorem State.devSet_force (s : State) (off mask v q : Nat) : (s.devSet off mask v).force q = (s.setForce off v).force q := by
  unfold State.devSet
  dsimp only
  split
  · split <;> rfl
  · rfl

theorem State.devSet_force_same (s : State) (off mask v : Nat) : (s.devSet off mask v).force off = v := by
  rw [State.devSet_force, State.setForce_force_same]

theorem State.devSet_force_ne (s : State) (off mask v : Nat) {q : Nat} (hq : q ≠ off) : (s.devSet off mask v).force q = s.force q := by
  rw [State.devSet_force, State.setForce_force_ne _ _ _ hq]

theorem Desk.force {b w : State} (h : Desk b w) (off : Nat) : w.force off = b.force off := by
  unfold State.force
  rw [h.regs]

section
variable (em sm : Nat) (cm sp : Bool) (lo hi : Nat) (c : Ctx) (e : Entry) (s : State)

theorem fxTrace_Desk : Desk { s with regs := (fxTrace em sm cm sp lo hi c e s).regs, pool := { s.pool with compress := cm } }
    (fxTrace em sm cm sp lo hi c e s) := by
  unfold fxTrace
  dsimp only
  rw [State.devSet_eq (State.devSet _ _ _ _), State.devSet_eq s]
  exact State.finish_Desk _ _ _ _

theorem fxTrace_ctl : (fxTrace em sm cm sp lo hi c e s).force 0x020010 = traceCtl (s.force 0x020010) em sm sp := by
  unfold fxTrace
  rw [(State.finish_Desk _ _ _ _).force]
  exact (State.devSet_force_ne _ _ _ _ (by decide)).trans (State.devSet_force_same _ _ _ _)

theorem fxTrace_range : (fxTrace em sm cm sp lo hi c e s).force 0x020014 = traceRange (s.force 0x020014) lo hi := by
  unfold fxTrace
  rw [(State.finish_Desk _ _ _ _).force]
  refine (State.devSet_force_same _ _ _ _).trans ?_
  rw [State.devSet_force_ne _ _ _ _ (by decide)]
  rfl

end

/-- TRACE puts its filters into force and its COMPRESS into the pool. -/
theorem execTrace_filters {s : State} {t : Nat} {h : DHdr} {em sm lo hi : Nat} {cm sp : Bool}
    (ht : Taken (s.before t) h (.trace em sm cm sp lo hi)) :
    ∃ w, exec (.trace t h em sm cm sp lo hi) s = .next (ends s t w) ∧
      Desk { s.before t with regs := w.regs, pool := { (s.before t).pool with compress := cm } } w ∧
      w.force 0x020010 = traceCtl ((s.before t).force 0x020010) em sm sp ∧
      w.force 0x020014 = traceRange ((s.before t).force 0x020014) lo hi := by
  refine ⟨_, exec_taken (exec_trace ..) ht, ?_⟩
  rw [(State.postReady_Desk _).force, (State.postReady_Desk _).force, (State.postReady_Desk _).regs,
    fxTrace_ctl, fxTrace_range]
  exact ⟨(fxTrace_Desk em sm cm sp lo hi _ _ ((s.before t).cmdTaken h _)).trans (State.postReady_Desk _), rfl, rfl⟩

/-! ## CLEAR_FLAGS (04 R186, 12 R512) -/

theorem Desk.stepCh {b w : State} (h : Desk b w) (c : Nat) : w.stepCh c = b.stepCh c := by
  unfold State.stepCh
  rw [h.pul]

theorem OnAxis.stepCh {a : Nat} {b w : State} (h : OnAxis a b w) (c : Nat) : w.stepCh c = b.stepCh c := h.2.stepCh c

/-- Of a network axis CLEAR_FLAGS clears the flags of its mask (04 R186). -/
theorem execClearFlags_network {s : State} {t : Nat} {h : DHdr} {mask : Nat} (ht : Taken (s.before t) h (.clearFlags mask))
    (ha : h.tgt < 512) : let b := s.before t
    ∃ w, exec (.clearFlags t h mask) s = .next (ends s t w) ∧ OnAxis h.tgt b w ∧
      w.axis h.tgt = { b.axis h.tgt with lp := { (b.axis h.tgt).lp with flags := clearFlagMask (b.axis h.tgt).lp.flags mask },
                                         ends := (w.axis h.tgt).ends } := by
  have htgt : (State.cmdEntry (s.before t) h (.clearFlags mask)).tgt = h.tgt := rfl
  refine ⟨_, exec_taken (exec_clearFlags ..) ht, ?_⟩
  simp only [fxClearFlags, htgt, ha, if_true]
  refine ⟨((OnAxis.of_modAxis _ _ _).trans (State.doneOn_OnAxis _ _ _ _)).posted, ?_⟩
  rw [State.postReady_axis, State.doneOn_axis, State.modAxis_axis_same, State.cmdTaken_axis]

/-- Of a step channel CLEAR_FLAGS clears every sticky flag, and keeps the count (12 R512). -/
theorem execClearFlags_step {s : State} {t : Nat} {h : DHdr} {mask : Nat} (ht : Taken (s.before t) h (.clearFlags mask))
    (hlo : 512 ≤ h.tgt) (hhi : h.tgt < 528) :
    ∃ w, exec (.clearFlags t h mask) s = .next (ends s t w) ∧ w.stepCh (h.tgt - 512) =
      { (s.before t).stepCh (h.tgt - 512) with parity := false, halted := false, rateLim := false } := by
  have htgt : (State.cmdEntry (s.before t) h (.clearFlags mask)).tgt = h.tgt := rfl
  refine ⟨_, exec_taken (exec_clearFlags ..) ht, ?_⟩
  rw [(State.postReady_Desk _).stepCh]
  simp only [fxClearFlags, htgt, Nat.not_lt.mpr hlo, hhi, if_true, if_false]
  rw [(State.doneOn_OnAxis _ _ _ _).stepCh, State.clearStep, State.modStep_stepCh_same]
  simp [bit, Nat.testBit, (State.cmdTaken_Desk _ _ _).stepCh]

/-! ## MODE of the device (18 R735, Table 18.7) -/

theorem fxMode_device {e : Entry} (code : Nat) (c : Ctx) (s : State) (h : e.tgt = 0xFFFF) : fxMode code c e s = fxDevMode code c e s :=
  if_pos h

/-- A transition that Table 18.7 allows waits for the boundary, whatever waits there already (log 45). -/
theorem fxDevMode_allowed {code : Nat} (c : Ctx) (e : Entry) {s : State} (hallowed : modeAllowed s.pw.mode (DevMode.ofCode code) = true)
    (hhold : s.pw.mode ≠ .safeHold) : fxDevMode code c e s =
      { s with pw := { s.pw with pendMode := s.pw.pendMode ++ [(s.pw.mode, DevMode.ofCode code, e.id)] } } := by
  simp [fxDevMode, hallowed, hhold]

/-- Any other transition is rejected. -/
theorem fxDevMode_refused {code : Nat} (c : Ctx) (e : Entry) {s : State} (hrefused : modeAllowed s.pw.mode (DevMode.ofCode code) = false) :
    fxDevMode code c e s = s.reject e stRejMode := by
  simp [fxDevMode, hrefused]

theorem execMode_allowed {s : State} {t : Nat} {h : DHdr} {code : Nat} (ht : Taken (s.before t) h (.mode code)) (hdev : h.tgt = 0xFFFF)
    (hallowed : modeAllowed (s.before t).pw.mode (DevMode.ofCode code) = true) (hhold : (s.before t).pw.mode ≠ .safeHold) :
    let b := s.before t
    ∃ w, exec (.mode t h code) s = .next (ends s t w) ∧
      Desk { b with pw := { b.pw with pendMode := b.pw.pendMode ++ [(b.pw.mode, DevMode.ofCode code, b.host.nextId)] } } w := by
  refine ⟨_, exec_taken (exec_mode ..) ht, ?_⟩
  rw [fxMode_device _ _ _ hdev, fxDevMode_allowed (s := (s.before t).cmdTaken h (.mode code)) _ _ hallowed hhold]
  refine Desk.trans ?_ (State.postReady_Desk _)
  exact rfl

theorem execMode_refused {s : State} {t : Nat} {h : DHdr} {code : Nat} (ht : Taken (s.before t) h (.mode code)) (hdev : h.tgt = 0xFFFF)
    (hrefused : modeAllowed (s.before t).pw.mode (DevMode.ofCode code) = false) :
    ∃ w, exec (.mode t h code) s = .next (ends s t w) ∧ Desk (s.before t) w := by
  refine ⟨_, exec_taken (exec_mode ..) ht, ?_⟩
  rw [fxMode_device _ _ _ hdev, fxDevMode_refused (s := (s.before t).cmdTaken h (.mode code)) _ _ hrefused]
  exact ((State.cmdTaken_Desk _ _ _).trans (State.finish_Desk _ _ _ _)).trans (State.postReady_Desk _)

/-- Settles O29: each of the four descriptors by what its command leaves. -/
theorem controlDescriptorsAct : Obligations.ControlDescriptorsAct := by
  unfold Obligations.ControlDescriptorsAct
  intro s t h b
  refine ⟨fun rings wait ht => ?fence, fun em sm cm sp lo hi ht he hs hl hh _ _ => ?trace, fun mask ht ha => execClearFlags_network ht ha,
    fun mask ht hlo hhi => ?step, fun code ht hdev => execMode_allowed ht hdev, fun code ht hdev => execMode_refused ht hdev⟩
  case fence =>
    obtain ⟨w, hw, hdesk, hacc⟩ := execFence_Desk ht
    exact ⟨w, hw, hdesk, fun hopen _ => hacc hopen⟩
  case trace =>
    obtain ⟨w, hw, hdesk, hctl, hrange⟩ := execTrace_filters ht
    obtain ⟨hevt, hseg, hsoft⟩ := traceCtl_fields (b.force 0x020010) sp he hs
    obtain ⟨hhigh, hlow⟩ := traceRange_fields (b.force 0x020014) hl hh
    exact ⟨w, hw, hdesk, hctl ▸ hevt, hctl ▸ hseg, hctl ▸ hsoft, hrange ▸ hhigh, hrange ▸ hlow⟩
  case step =>
    obtain ⟨w, hw, hch⟩ := execClearFlags_step ht hlo hhi
    exact ⟨w, hw, by rw [hch], by rw [hch], by rw [hch], by rw [hch]⟩

end Sys2Proof.Machine
end

section
/-! What the operations of the pool, of the mould and of the assay unit leave alone, as four relations between the state before and
the state after: the host and the twin are written to, the pool alone changes, marks and fences only grow. The clauses of O37 and
O38 rest on them. -/

namespace Sys2Proof.Machine

/-! ## Writing to the host and to the twin (14, 15) -/

/-- What writing to the host and to the twin makes of `b`: no mark, no source and nothing that the peer told changes, and what was
sent stays sent. -/
structure Writes (b w : State) : Prop where
  desk : Desk b w
  held : w.asy.held = b.asy.held
  src : w.asy.src = b.asy.src
  peerMode : w.tw.peerMode = b.tw.peerMode
  out : b.out ⊆ w.out

theorem Writes.refl (b : State) : Writes b b := ⟨.refl b, rfl, rfl, rfl, fun _ h => h⟩

theorem Writes.trans {a b c : State} (h : Writes a b) (g : Writes b c) : Writes a c :=
  ⟨h.desk.trans g.desk, g.held.trans h.held, g.src.trans h.src, g.peerMode.trans h.peerMode, fun _ ho => g.out (h.out ho)⟩

theorem Writes.ite {b v w : State} {c : Prop} [Decidable c] (h : Writes b v) (g : Writes b w) : Writes b (if c then v else w) := by
  split
  · exact h
  · exact g

theorem Writes.foldl {α : Type} {f : State → α → State} (step : ∀ s x, Writes s (f s x)) (l : List α) (b : State) :
    Writes b (l.foldl f b) :=
  List.foldlRecOn l f (Writes.refl b) fun s h x _ => h.trans (step s x)

theorem State.modRing_writes (s : State) (r : Nat) (f : Ring → Ring) : Writes s (s.modRing r f) := ⟨rfl, rfl, rfl, rfl, fun _ h => h⟩

theorem State.modEntry_writes (s : State) (id : Nat) (f : Entry → Entry) : Writes s (s.modEntry id f) :=
  ⟨rfl, rfl, rfl, rfl, fun _ h => h⟩

theorem State.modTwSeg_writes (s : State) (k : Nat) (f : TwinSeg → TwinSeg) : Writes s (s.modTwSeg k f) :=
  ⟨rfl, rfl, rfl, rfl, fun _ h => h⟩

theorem State.emit_writes (s : State) (o : Out) : Writes s (s.emit o) :=
  ⟨rfl, rfl, rfl, rfl, fun _ h => List.mem_cons_of_mem _ h⟩

theorem State.emitHost_writes (s : State) (o : Out) : Writes s (s.emitHost o) := .ite (.refl s) (s.emit_writes o)

theorem State.sendMsi_writes (s : State) (vec : Nat) : Writes s (s.sendMsi vec) :=
  .ite ⟨rfl, rfl, rfl, rfl, fun _ h => h⟩ (s.emitHost_writes _)

theorem State.ringMsi_writes (s : State) (r : Nat) : Writes s (s.ringMsi r) :=
  .ite (.ite (s.modRing_writes r _) ((s.modRing_writes r _).trans (State.sendMsi_writes _ _))) (.refl s)

theorem State.putEntry_writes (s : State) (r : Nat) (e : List Byte) : Writes s (s.putEntry r e) :=
  (s.emitHost_writes _).trans (State.modRing_writes _ r _)

theorem State.putIndex_writes (s : State) (r : Nat) (msg : Bool) : Writes s (s.putIndex r msg) :=
  (s.emitHost_writes _).trans (.ite (State.ringMsi_writes _ r) (.refl _))

theorem State.sendTwin_writes (s : State) (type seg tag minor : Nat) (payload : List Byte) :
    Writes s (s.sendTwin type seg tag minor payload) :=
  .ite (.refl s) ((s.emit_writes _).trans ⟨rfl, rfl, rfl, rfl, fun _ h => h⟩)

theorem State.tellTwin_writes (s : State) (o : TwinOut) : Writes s (s.tellTwin o) := .ite (s.sendTwin_writes _ _ _ _ _) (.refl s)

theorem State.keepDefine_writes (s : State) (e : Entry) : Writes s (s.keepDefine e) := by
  unfold State.keepDefine
  split
  · split
    · exact .ite ⟨rfl, rfl, rfl, rfl, fun _ h => h⟩ (.refl s)
    · exact ⟨rfl, rfl, rfl, rfl, fun _ h => h⟩
  · exact .refl s

theorem State.postCpl_writes (s : State) (e : Entry) (rec_ : List Byte) : Writes s (s.postCpl e rec_) :=
  have ring : Writes s (if (s.ringOf (8 + e.ring)).on then (s.putEntry (8 + e.ring) rec_).putIndex (8 + e.ring) e.irq else s) :=
    .ite ((s.putEntry_writes _ _).trans (State.putIndex_writes _ _ _)) (.refl s)
  ring.trans (.ite (State.sendTwin_writes _ _ _ _ _ _) ⟨rfl, rfl, rfl, rfl, fun _ h => h⟩)

theorem postLoop_writes (s : State) (blocked : List Nat) (kept l : List Entry) : Writes s (postLoop s blocked kept l) := by
  induction l generalizing s blocked kept with
  | nil => exact ⟨rfl, rfl, rfl, rfl, fun _ h => h⟩
  | cons e r ih =>
    unfold postLoop
    split
    · exact ih ..
    · split
      · exact ((s.postCpl_writes e _).trans (State.keepDefine_writes _ e)).trans (ih ..)
      · exact ih ..

theorem State.cplDisable_writes (s : State) (r : Nat) : Writes s (s.cplDisable r) := .ite (s.modRing_writes _ _) (.refl s)

theorem State.postReady_writes (s : State) : Writes s s.postReady :=
  (postLoop_writes s _ _ _).trans (.foldl State.cplDisable_writes _ _)

theorem State.finish_writes (s : State) (id status : Nat) (res : List Byte) : Writes s (s.finish id status res) := s.modEntry_writes _ _

theorem State.notReady_writes (s : State) (l : List Nat) : Writes s (s.notReady l) := .foldl (fun s k => s.modTwSeg_writes k _) _ _

/-! ## Marks and fences only grow (16 R621, R629) -/

/-- Marks wait for release behind those of `b`, and what is fenced stays fenced. -/
structure Grows (b w : State) : Prop where
  held : b.asy.held <+: w.asy.held
  fenced : ∀ c, b.fenced c = true → w.fenced c = true

/-- A reaction: marks and fences only grow, and the pool stays. -/
structure Reacts (b w : State) : Prop extends Grows b w where
  pool : w.pool = b.pool

/-- A report, of the mould or of a mark: the axes and the coupling groups stay too. -/
structure Records (b w : State) : Prop extends Reacts b w where
  axes : w.axes = b.axes
  cgroups : w.cgroups = b.cgroups

theorem Grows.of_asy {b w : State} (h : w.asy = b.asy) : Grows b w :=
  ⟨h ▸ List.prefix_refl _, fun _ hc => by rwa [State.fenced, State.src, h]⟩

theorem Grows.refl (b : State) : Grows b b := .of_asy rfl

theorem Grows.trans {a b c : State} (h : Grows a b) (g : Grows b c) : Grows a c :=
  ⟨h.held.trans g.held, fun x hx => g.fenced x (h.fenced x hx)⟩

theorem Grows.ite {b v w : State} {c : Prop} [Decidable c] (h : Grows b v) (g : Grows b w) : Grows b (if c then v else w) := by
  split
  · exact h
  · exact g

theorem Grows.foldl {α : Type} {f : State → α → State} (step : ∀ s x, Grows s (f s x)) (l : List α) (b : State) :
    Grows b (l.foldl f b) :=
  List.foldlRecOn l f (Grows.refl b) fun s h x _ => h.trans (step s x)

theorem Reacts.refl (b : State) : Reacts b b := ⟨.refl b, rfl⟩

theorem Reacts.trans {a b c : State} (h : Reacts a b) (g : Reacts b c) : Reacts a c :=
  ⟨h.toGrows.trans g.toGrows, g.pool.trans h.pool⟩

theorem Reacts.ite {b v w : State} {c : Prop} [Decidable c] (h : Reacts b v) (g : Reacts b w) : Reacts b (if c then v else w) := by
  split
  · exact h
  · exact g

theorem Reacts.foldl {α : Type} {f : State → α → State} (step : ∀ s x, Reacts s (f s x)) (l : List α) (b : State) :
    Reacts b (l.foldl f b) :=
  List.foldlRecOn l f (Reacts.refl b) fun s h x _ => h.trans (step s x)

theorem Records.of_asy {b w : State} (hasy : w.asy = b.asy) (hpool : w.pool = b.pool) (haxes : w.axes = b.axes)
    (hcgroups : w.cgroups = b.cgroups) : Records b w :=
  ⟨⟨.of_asy hasy, hpool⟩, haxes, hcgroups⟩

theorem Records.refl (b : State) : Records b b := .of_asy rfl rfl rfl rfl

theorem Records.trans {a b c : State} (h : Records a b) (g : Records b c) : Records a c :=
  ⟨h.toReacts.trans g.toReacts, g.axes.trans h.axes, g.cgroups.trans h.cgroups⟩

theorem Records.ite {b v w : State} {c : Prop} [Decidable c] (h : Records b v) (g : Records b w) : Records b (if c then v else w) := by
  split
  · exact h
  · exact g

theorem Records.foldl {α : Type} {f : State → α → State} (step : ∀ s x, Records s (f s x)) (l : List α) (b : State) :
    Records b (l.foldl f b) :=
  List.foldlRecOn l f (Records.refl b) fun s h x _ => h.trans (step s x)

theorem Records.axis {b w : State} (h : Records b w) (a : Nat) : w.axis a = b.axis a := by rw [State.axis, h.axes]; rfl

/-- What is written to the host and to the twin is no mark. -/
theorem Writes.records {b w : State} (h : Writes b w) : Records b w :=
  ⟨⟨⟨h.held ▸ List.prefix_refl _, fun _ hc => by rwa [State.fenced, State.src, h.src]⟩, h.desk.pool⟩, h.desk.axes, h.desk.cgroups⟩

/-! ### Marks -/

/-- A change of a source that leaves its fence alone leaves every fence alone. -/
theorem State.modSrc_fenced (s : State) (c q : Nat) {f : SrcSt → SrcSt} (hf : ∀ e, (f e).fenced = e.fenced) :
    (s.modSrc c f).fenced q = s.fenced q := by
  by_cases hq : q = c
  · rw [State.fenced, hq, State.modSrc_src_same, hf]; rfl
  · rw [State.fenced, State.modSrc_src_ne _ _ _ hq]; rfl

theorem State.addMark_fenced (s : State) (src kind addr react : Nat) (detail : List Byte) (applied : Bool) (c : Nat) :
    (s.addMark src kind addr react detail applied).fenced c = s.fenced c :=
  State.modSrc_fenced _ _ _ fun _ => rfl

theorem State.addMark_records (s : State) (src kind addr react : Nat) (detail : List Byte) (applied : Bool) :
    Records s (s.addMark src kind addr react detail applied) :=
  ⟨⟨⟨⟨_, rfl⟩, fun _ hc => (s.addMark_fenced ..).trans hc⟩, rfl⟩, rfl, rfl⟩

theorem State.raise_records (s : State) (src kind addr : Nat) (detail : List Byte) : Records s (s.raise src kind addr detail) :=
  s.addMark_records ..

theorem State.raiseDone_records (s : State) (src kind addr react : Nat) (detail : List Byte) :
    Records s (s.raiseDone src kind addr react detail) := s.addMark_records ..

/-- A mark raised in `v` is among those that wait in all that grows from there. -/
theorem Grows.raiseDone_held {v w : State} {src kind addr react : Nat} {detail : List Byte}
    (h : Grows (v.raiseDone src kind addr react detail) w) :
    ∃ m l, w.asy.held = v.asy.held ++ m :: l ∧ m.src = src ∧ m.kind = kind ∧ m.addr = addr ∧ m.react = react := by
  obtain ⟨m, hm, hsrc, hkind, haddr, hreact, -⟩ := State.addMark_held v src kind addr react detail true
  obtain ⟨l, hl⟩ := h.held
  refine ⟨m, l, ?_, hsrc, hkind, haddr, hreact⟩
  rw [← hl, State.raiseDone, hm, List.append_assoc]
  rfl

theorem State.modSrc_records_of_fenced (s : State) (c : Nat) {f : SrcSt → SrcSt} (hf : ∀ e, (f e).fenced = e.fenced) :
    Records s (s.modSrc c f) :=
  ⟨⟨⟨List.prefix_refl _, fun q hq => (s.modSrc_fenced c q hf).trans hq⟩, rfl⟩, rfl, rfl⟩

theorem State.liveOn_records (s : State) (src kind : Nat) : Records s (s.liveOn src kind) := s.modSrc_records_of_fenced _ fun _ => rfl

theorem State.fence_fenced (s : State) (src reason : Nat) : (s.fence src reason).fenced src = true := by
  unfold State.fence
  split
  · assumption
  · rw [State.raiseDone, State.addMark_fenced, State.fenced, State.modSrc_src_same]

theorem State.fence_records (s : State) (src reason : Nat) : Records s (s.fence src reason) := by
  have fenceOn : Records s (s.modSrc src fun e => { e with fenced := true }) := by
    refine ⟨⟨⟨List.prefix_refl _, fun q hq => ?_⟩, rfl⟩, rfl, rfl⟩
    by_cases h : q = src
    · rw [State.fenced, h, State.modSrc_src_same]
    · rw [State.fenced, State.modSrc_src_ne _ _ _ h]; exact hq
  exact .ite (.refl s) (fenceOn.trans (State.raiseDone_records ..))

/-! ### Reactions (16 R636 to R643) -/

theorem State.modAxis_reacts (s : State) (a : Nat) (f : Axis → Axis) : Reacts s (s.modAxis a f) := ⟨.of_asy rfl, rfl⟩

theorem State.modSeg_records (s : State) (k : Nat) (f : Segment → Segment) : Records s (s.modSeg k f) := .of_asy rfl rfl rfl rfl

theorem State.axisStops_reacts (s : State) (l : List Nat) (src kind : Nat) : Reacts s (s.axisStops l src kind) :=
  .foldl (fun s a => .ite (.refl s) (s.modAxis_reacts a _)) _ _

theorem State.faultSegment_reacts (s : State) (k src kind : Nat) : Reacts s (s.faultSegment k src kind) :=
  .foldl (fun s a => s.modAxis_reacts a _) _ _

theorem State.segmentStop_reacts (s : State) (k src kind : Nat) : Reacts s (s.segmentStop k src kind) :=
  have stop : Reacts s (if (s.seg k).stopBy ∧ (s.seg k).stopAt = none then s.faultSegment k src kind
      else s.modSeg k fun g => { g with
        stopBy := true, stopAt := some (g.stopAt.getD (s.cyc, s.minor k)), stopFor := g.stopFor ++ [(src, kind)] }) :=
    .ite (s.faultSegment_reacts k src kind) (s.modSeg_records k _).toReacts
  stop.trans ((State.fence_records _ _ _).trans (State.liveOn_records _ _ _)).toReacts

theorem State.holdAxes_reacts (s : State) (src kind : Nat) : Reacts s (s.holdAxes src kind) :=
  .trans (.foldl (fun _ _ => .foldl (fun s a => s.modAxis_reacts a _) _ _) _ _) (State.axisStops_reacts ..)

theorem State.setMode_reacts (s : State) (m : DevMode) : Reacts s (s.setMode m) := .ite (.refl s) ⟨.of_asy rfl, rfl⟩

theorem State.safeHold_reacts (s : State) (src kind : Nat) : Reacts s (s.safeHold src kind) := by
  have due : Reacts s { s with asy := { s.asy with persistDue := s.asy.persistDue || bit (s.force 0x100000) 0 } } :=
    ⟨⟨List.prefix_refl _, fun _ h => h⟩, rfl⟩
  unfold State.safeHold
  refine due.trans ?_
  dsimp only
  split
  · exact .refl _
  · exact .refl _
  · exact .refl _
  · exact (State.notReady_writes _ _).records.toReacts
  · exact ((State.holdAxes_reacts _ _ _).trans (State.setMode_reacts _ _)).trans (State.tellTwin_writes _ _).records.toReacts

theorem State.handOver_reacts (s : State) : Reacts s s.handOver :=
  .ite (.refl s) ((s.tellTwin_writes _).records.toReacts.trans ⟨.of_asy rfl, rfl⟩)

theorem State.tellFaults_reacts (s : State) (l : List Nat) (kind : Nat) : Reacts s (s.tellFaults l kind) :=
  .ite (.foldl (fun s _ => (s.tellTwin_writes _).records.toReacts) _ _) (.refl s)

theorem State.takeReaction_reacts (s : State) (src kind addr code : Nat) (detail : List Byte) :
    Reacts s (s.takeReaction src kind addr code detail) :=
  .ite (.ite (.refl s) (s.notReady_writes _).records.toReacts)
    (.ite ((s.axisStops_reacts ..).trans (State.tellFaults_reacts ..))
      (.ite (.foldl (fun s k => s.segmentStop_reacts k src kind) _ _)
        (.ite (s.safeHold_reacts ..) (.ite s.handOver_reacts (.refl s)))))

/-- A mark whose reaction is taken at detection waits for release, whatever the reaction. -/
theorem State.raiseNow_held (s : State) (src kind addr : Nat) (detail : List Byte) :
    ∃ m l, (s.raiseNow src kind addr detail).asy.held = s.asy.held ++ m :: l ∧ m.src = src ∧ m.kind = kind ∧ m.addr = addr := by
  obtain ⟨m, l, hheld, hsrc, hkind, haddr, -⟩ := (State.takeReaction_reacts (s.raiseDone src kind addr
    (if s.withholds kind (s.clocked (s.fallBack src (s.reactOf kind))) then 0 else s.clocked (s.fallBack src (s.reactOf kind))) detail)
    src kind addr (s.clocked (s.fallBack src (s.reactOf kind))) detail).raiseDone_held
  exact ⟨m, l, hheld, hsrc, hkind, haddr⟩

theorem State.raiseNow_reacts (s : State) (src kind addr : Nat) (detail : List Byte) : Reacts s (s.raiseNow src kind addr detail) :=
  (s.raiseDone_records ..).toReacts.trans (State.takeReaction_reacts ..)

theorem State.degradeStep_reacts (s : State) (k : Nat) : Reacts s (s.degradeStep k) := by
  unfold State.degradeStep State.degradeAs
  exact (((s.modSeg_records k _).trans ((Records.ite (State.fence_records _ _ _) (State.fence_records _ _ _)).trans
    (State.liveOn_records _ _ _))).trans ((State.tellTwin_writes _ _).records.trans (State.raiseDone_records ..))).toReacts

theorem State.degradeLoop_reacts (n : Nat) (s : State) (v : Nat) : Reacts s (State.degradeLoop n s v) := by
  induction n generalizing s with
  | zero => exact .refl s
  | succ n ih =>
    unfold State.degradeLoop
    split
    · exact .refl s
    · split
      · exact (s.degradeStep_reacts _).trans (ih _)
      · exact .refl s

theorem State.recheck_reacts (s : State) (v : Nat) : Reacts s (s.recheck v) := .ite (.refl s) (State.degradeLoop_reacts _ _ _)

/-! ### The mould (02 R69 to R79) and the digests (15 R600) -/

theorem State.modBank_records (s : State) (k n m : Nat) (f : Bank → Bank) : Records s (s.modBank k n m f) := by
  unfold State.modBank
  split
  · exact s.modSeg_records k _
  · exact s.modSeg_records k _
  · exact .refl s

theorem State.noteRelease_records (s : State) (k n m before : Nat) : Records s (s.noteRelease k n m before) :=
  .ite (s.modBank_records ..) (.refl s)

theorem State.telOut_records (s : State) (k n m a : Nat) (e : MouldEntry) (room : Bool) : Records s (s.telOut k n m a e room) :=
  .ite (s.putEntry_writes _ _).records (.refl s)

/-- The release of one record after another, up to the first that is missing. -/
theorem State.telFlow_records (s : State) (k n m : Nat) : Records s (s.telFlow k n m) := by
  have releases : ∀ (b : Bank) (axes : List Nat), Records s (axes.foldl (fun (acc : State × Bool) a =>
      if b.telDone.contains a || acc.2 then acc
      else match b.entries.lookup a with
        | some e => ((acc.1.telOut k n m a e b.room).modBank k n m fun c => { c with telDone := a :: c.telDone }, false)
        | none => (acc.1, true)) (s, false)).1 := fun b axes =>
    List.foldlRecOn (motive := fun acc : State × Bool => Records s acc.1) axes _ (Records.refl s) fun acc h a _ => by
      split
      · exact h
      · split
        · dsimp only
          exact (h.trans (State.telOut_records ..)).trans (State.modBank_records ..)
        · exact h
  unfold State.telFlow
  refine .ite (.refl s) ((releases _ _).trans (.ite ?_ (.refl _)))
  exact (Records.ite (State.putIndex_writes _ _ _).records (.refl _)).trans (State.modRing_writes _ _ _).records

theorem State.startResync_writes (s : State) (k : Nat) : Writes s (s.startResync k) := by
  unfold State.startResync
  exact s.modTwSeg_writes k _

theorem State.digestCompare_records (s : State) (k : Nat) : Records s (s.digestCompare k) := by
  have twSeg : ∀ (s : State) f, Records s (s.modTwSeg k f) := fun s f => (s.modTwSeg_writes k f).records
  unfold State.digestCompare
  dsimp only
  split
  · refine .ite (.refl s) ((twSeg s _).trans (.ite (twSeg _ _) ?_))
    exact (Records.ite (State.raise_records ..) (.refl _)).trans ((twSeg _ _).trans (.ite (State.startResync_writes _ k).records (.refl _)))
  · exact .refl s

theorem State.digest_records (s : State) (k n m : Nat) : Records s (s.digest k n m) :=
  .ite ((s.modBank_records ..).trans ((State.modTwSeg_writes _ _ _).records.trans
    ((State.sendTwin_writes _ _ _ _ _ _).records.trans (State.digestCompare_records _ _)))) (.refl s)

theorem State.record_records (s : State) (k n m a : Nat) (cmd tel : List Byte) : Records s (s.record k n m a cmd tel) :=
  ((s.modBank_records ..).trans (State.noteRelease_records ..)).trans ((State.telFlow_records ..).trans (State.digest_records ..))

theorem State.recordAbort_records (s : State) (k n m a : Nat) (rep : ReportIn) (learnt : Bool) :
    Records s (s.recordAbort k n m a rep learnt) := s.record_records k n m a [] (abortTel (s.axis a) a n m rep learnt)

theorem State.recordGroup_records (s : State) (g : Nat) (j : Job) : Records s (s.recordGroup g j) := by
  unfold State.recordGroup
  split
  · exact .refl s
  · exact .foldl (fun s a => by split <;> exact s.recordAbort_records ..) _ _

theorem State.sendBlk_writes (s : State) (x : TwinBlk) : Writes s (s.sendBlk x) :=
  (s.sendTwin_writes _ _ _ _ _).trans ⟨rfl, rfl, rfl, rfl, fun _ h => h⟩

theorem State.sendBytes_writes (s : State) (seg unit n m : Nat) (bs : List Byte) : Writes s (s.sendBytes seg unit n m bs) :=
  .foldl (fun s _ => s.sendBlk_writes _) _ _

theorem State.resyncSend_writes (s : State) (k : Nat) : Writes s (s.resyncSend k) :=
  .foldl (fun s _ => .ite ((s.sendBytes_writes ..).trans (State.modTwSeg_writes ..)) (.refl s)) _ _

end Sys2Proof.Machine
end

section
/-! What the operations of the pool change, and what of the pool they leave (03, 01 R20 to R32). -/

namespace Sys2Proof.Machine

/-! ## The pool alone -/

/-- `w` is `b` with another pool. -/
def PoolOnly (b w : State) : Prop := ∃ p, w = { b with pool := p }

theorem PoolOnly.refl (b : State) : PoolOnly b b := ⟨b.pool, rfl⟩

theorem PoolOnly.trans {a b c : State} (h : PoolOnly a b) (g : PoolOnly b c) : PoolOnly a c := by
  obtain ⟨p, rfl⟩ := h
  obtain ⟨q, rfl⟩ := g
  exact ⟨q, rfl⟩

theorem PoolOnly.eq {b w : State} (h : PoolOnly b w) : w = { b with pool := w.pool } := by
  obtain ⟨p, rfl⟩ := h
  rfl

theorem PoolOnly.ite {b v w : State} {c : Prop} [Decidable c] (h : PoolOnly b v) (g : PoolOnly b w) : PoolOnly b (if c then v else w) := by
  split
  · exact h
  · exact g

theorem PoolOnly.foldl {α : Type} {f : State → α → State} (step : ∀ s x, PoolOnly s (f s x)) (l : List α) (b : State) :
    PoolOnly b (l.foldl f b) :=
  List.foldlRecOn l f (PoolOnly.refl b) fun s h x _ => h.trans (step s x)

theorem PoolOnly.asy {b w : State} (h : PoolOnly b w) : w.asy = b.asy := by rw [h.eq]

theorem PoolOnly.host {b w : State} (h : PoolOnly b w) : w.host = b.host := by rw [h.eq]

theorem PoolOnly.desk {b w : State} (h : PoolOnly b w) : Desk { b with pool := w.pool } w := by
  obtain ⟨p, rfl⟩ := h
  rfl

/-- What leaves the pool alone too. -/
theorem Desk.withPool {b w : State} (h : Desk b w) : Desk { b with pool := w.pool } w := by
  rw [h.pool]
  exact h

theorem Desk.axis_withPool {b w : State} {p : Pool} (h : Desk { b with pool := p } w) (a : Nat) : w.axis a = b.axis a := h.axis a

/-- One after the other, but for the pool. -/
theorem Desk.trans_withPool {a b c : State} (h : Desk { a with pool := b.pool } b) (g : Desk { b with pool := c.pool } c) :
    Desk { a with pool := c.pool } c := by
  rw [show b = _ from h] at g
  exact g

theorem PoolOnly.grows {b w : State} (h : PoolOnly b w) : Grows b w := .of_asy h.asy

theorem PoolOnly.axis {b w : State} (h : PoolOnly b w) (a : Nat) : w.axis a = b.axis a := by rw [h.eq]; rfl

theorem PoolOnly.fenced {b w : State} (h : PoolOnly b w) (c : Nat) : w.fenced c = b.fenced c := by rw [h.eq]; rfl

theorem PoolOnly.core {b w : State} (h : PoolOnly b w) : w.core = b.core := by rw [h.eq]; rfl

theorem State.modPool_poolOnly (s : State) (f : Pool → Pool) : PoolOnly s (s.modPool f) := ⟨_, rfl⟩

theorem State.modHammer_poolOnly (s : State) (h : Nat) (f : Hammer → Hammer) : PoolOnly s (s.modHammer h f) := ⟨_, rfl⟩

/-! ## The trace (R144 to R147) -/

/-- `w` is `b` with other trace records held. -/
def Traced (b w : State) : Prop := ∃ l, w = { b with pool := { b.pool with traceHeld := l } }

theorem Traced.refl (b : State) : Traced b b := ⟨b.pool.traceHeld, rfl⟩

theorem Traced.ite {b v w : State} {c : Prop} [Decidable c] (h : Traced b v) (g : Traced b w) : Traced b (if c then v else w) := by
  split
  · exact h
  · exact g

theorem Traced.poolOnly {b w : State} (h : Traced b w) : PoolOnly b w := by
  obtain ⟨l, rfl⟩ := h
  exact ⟨_, rfl⟩

theorem Traced.hammer {b w : State} (h : Traced b w) (x : Nat) : w.hammer x = b.hammer x := by
  obtain ⟨l, rfl⟩ := h
  rfl

theorem State.traceJob_traced (s : State) (code h : Nat) (k : JobKey) (detail : Nat) (copy : Bool) (dom : Nat) (won : Bool) :
    Traced s (s.traceJob code h k detail copy dom won) := by
  unfold State.traceJob
  split
  · exact .refl s
  · exact .ite ⟨_, rfl⟩ (.refl s)

theorem State.traceSoft_traced (s : State) (code h : Nat) (j : Soft) (detail : Nat) : Traced s (s.traceSoft code h j detail) :=
  .ite ⟨_, rfl⟩ (.refl s)

theorem State.traceHammer_traced (s : State) (code h detail : Nat) : Traced s (s.traceHammer code h detail) := .ite ⟨_, rfl⟩ (.refl s)

/-! ## Jobs -/

theorem State.modJob_job (s : State) (k q : JobKey) {f : Job → Job} (hf : ∀ j, (f j).key = j.key) :
    (s.modJob k f).job q = (s.job q).map fun j => if j.key = k then f j else j := by
  have hkey : ∀ j : Job, (if j.key = k then f j else j).key = j.key := fun j => by split <;> simp [hf]
  show List.find? _ (s.pool.jobs.map fun j => if j.key = k then f j else j) = _
  rw [List.find?_map]
  simp only [Function.comp_def, hkey]
  rfl

theorem State.job_key {s : State} {k : JobKey} {j : Job} (h : s.job k = some j) : j.key = k := by
  simpa using List.find?_some h

/-- What a change of a job leaves of it is read as before. -/
theorem State.modJob_job_map {α : Type} (s : State) (k q : JobKey) {f : Job → Job} {g : Job → α} (hf : ∀ j, (f j).key = j.key)
    (hg : ∀ j, g (f j) = g j) : ((s.modJob k f).job q).map g = (s.job q).map g := by
  have hmap : ∀ j : Job, g (if j.key = k then f j else j) = g j := fun j => by split <;> simp [hg]
  rw [State.modJob_job _ _ _ hf, Option.map_map]
  simp only [Function.comp_def, hmap]

theorem State.modJob_job_same {s : State} {k : JobKey} {j : Job} (hj : s.job k = some j) (f : Job → Job)
    (hf : ∀ j, (f j).key = j.key := by intro _; rfl) : (s.modJob k f).job k = some (f j) := by
  rw [State.modJob_job _ _ _ hf, hj, Option.map_some, if_pos (State.job_key hj)]

theorem State.dropJob_job_same (s : State) (k : JobKey) : (s.dropJob k).job k = none := by
  show List.find? _ (s.pool.jobs.filter fun j => decide (j.key ≠ k)) = none
  simp [List.find?_eq_none]

/-! ## Placing runs (R128 to R134) -/

/-- A job but for its place in the ready lists. -/
def Job.unlisted (j : Job) : Job := { j with ready := false, listedCopy := 0 }

/-- What starting a run, placing it and asking for a pre-emption leave alone: all but the pool, every job but for its place in the
lists, the runs that each hammer is barred from, the counts of re-issues, and where the ASBs stand. -/
structure Places (b w : State) : Prop where
  poolOnly : PoolOnly b w
  job : ∀ k, (w.job k).map Job.unlisted = (b.job k).map Job.unlisted
  barred : ∀ h, (w.hammer h).barred = (b.hammer h).barred
  reissue : w.pool.reissue = b.pool.reissue
  home : w.pool.home = b.pool.home
  moving : w.pool.moving = b.pool.moving

theorem Places.refl (b : State) : Places b b := ⟨.refl b, fun _ => rfl, fun _ => rfl, rfl, rfl, rfl⟩

theorem Places.trans {a b c : State} (h : Places a b) (g : Places b c) : Places a c :=
  ⟨h.poolOnly.trans g.poolOnly, fun k => (g.job k).trans (h.job k), fun x => (g.barred x).trans (h.barred x), g.reissue.trans h.reissue,
    g.home.trans h.home, g.moving.trans h.moving⟩

theorem Places.ite {b v w : State} {c : Prop} [Decidable c] (h : Places b v) (g : Places b w) : Places b (if c then v else w) := by
  split
  · exact h
  · exact g

theorem Places.foldl {α : Type} {f : State → α → State} (step : ∀ s x, Places s (f s x)) (l : List α) (b : State) :
    Places b (l.foldl f b) :=
  List.foldlRecOn l f (Places.refl b) fun s h x _ => h.trans (step s x)

/-- A field of a job that is no place in a list is read through `Places`. -/
theorem Places.job_map {α : Type} {b w : State} (h : Places b w) (k : JobKey) {f : Job → α} (hf : ∀ j, f j.unlisted = f j) :
    (w.job k).map f = (b.job k).map f := by
  have hmap : ∀ o : Option Job, o.map f = (o.map Job.unlisted).map f := fun o => by simp [Function.comp_def, hf]
  rw [hmap, h.job, ← hmap]

theorem Traced.places {b w : State} (h : Traced b w) : Places b w := by
  obtain ⟨l, rfl⟩ := h
  exact ⟨⟨_, rfl⟩, fun _ => rfl, fun _ => rfl, rfl, rfl, rfl⟩

theorem State.modHammer_places (s : State) (h : Nat) (f : Hammer → Hammer) (hf : ∀ m, (f m).barred = m.barred := by intro _; rfl) :
    Places s (s.modHammer h f) := by
  refine ⟨s.modHammer_poolOnly h f, fun _ => rfl, fun x => ?_, rfl, rfl, rfl⟩
  by_cases hx : x = h
  · rw [hx, State.modHammer_hammer_same, hf]
  · rw [State.modHammer_hammer_ne _ _ _ hx]

theorem State.modJob_places (s : State) (k : JobKey) (f : Job → Job) (hf : ∀ j, (f j).unlisted = j.unlisted := by intro _; rfl) :
    Places s (s.modJob k f) := by
  have hkey : ∀ j, (f j).key = j.key := fun j =>
    (congrArg Job.key (hf j) : (f j).unlisted.key = j.unlisted.key)
  exact ⟨⟨_, rfl⟩, fun q => s.modJob_job_map k q hkey hf, fun _ => rfl, rfl, rfl, rfl⟩

theorem State.modPool_places (s : State) (f : Pool → Pool) (hjobs : (f s.pool).jobs = s.pool.jobs := by rfl)
    (hhammers : (f s.pool).hammers = s.pool.hammers := by rfl) (hreissue : (f s.pool).reissue = s.pool.reissue := by rfl)
    (hhome : (f s.pool).home = s.pool.home := by rfl) (hmoving : (f s.pool).moving = s.pool.moving := by rfl) : Places s (s.modPool f) :=
  ⟨⟨_, rfl⟩, fun k => by rw [State.job, State.modPool_pool, hjobs]; rfl, fun h => by rw [State.hammer, State.modPool_pool, hhammers]; rfl,
    hreissue, hhome, hmoving⟩

theorem State.startRun_places (s : State) (h : Nat) (k : JobKey) (copy : Bool) (dom : Nat) : Places s (s.startRun h k copy dom) := by
  unfold State.startRun
  split
  · exact .refl s
  · exact (s.modHammer_places h _).trans (State.modJob_places _ k _ fun _ => by split <;> rfl)

theorem State.askStop_places (s : State) (h : Nat) : Places s (s.askStop h) :=
  (s.modHammer_places h _).trans (State.modPool_places _ _)

theorem State.place_places (s : State) (k : JobKey) (copy : Bool) (orig : Nat) : Places s (s.place k copy orig) := by
  unfold State.place
  split
  · exact .refl s
  · refine .ite (s.modJob_places k _) ?_
    split
    · exact (Places.ite (s.startRun_places ..) (s.modHammer_places _ _)).trans (State.traceJob_traced ..).places
    · split
      · exact ((s.askStop_places _).trans (State.modHammer_places _ _ _)).trans (State.traceJob_traced ..).places
      · exact ((s.modPool_places _).trans (State.modJob_places _ k _)).trans
          (State.traceJob_traced ..).places

/-! ## Runs that end and runs that are lost (R132 to R139) -/

/-- The hard run of a hammer ends, and nothing else of the pool changes. -/
theorem State.endRun_hard {s : State} {h : Nat} {r : HardRun} (completes : Bool) (hrun : (s.hammer h).run = some (.hard r)) :
    s.endRun h completes = s.modHammer h fun m =>
      { m with run := none, overrun := overrunAfter r s.core m.overrun completes } := by
  simp only [State.endRun, hrun]

theorem State.endRun_poolOnly (s : State) (h : Nat) (completes : Bool) : PoolOnly s (s.endRun h completes) := by
  unfold State.endRun
  split
  · exact s.modHammer_poolOnly h _
  · exact .refl s

theorem State.issueCopy_poolOnly (s : State) (k : JobKey) (j : Job) (h : Nat) : PoolOnly s (s.issueCopy k j h) :=
  .trans ⟨_, rfl⟩ (State.place_places _ k true h).poolOnly

theorem State.reissueAfterFault_poolOnly (s : State) (k : JobKey) (orig since : Nat) : PoolOnly s (s.reissueAfterFault k orig since) := by
  unfold State.reissueAfterFault
  split
  · exact .refl s
  · exact .ite (.refl s) (.ite (s.issueCopy_poolOnly ..) (s.place_places ..).poolOnly)

theorem State.queueSoft_poolOnly (s : State) (v : Nat) (j : Soft) : PoolOnly s (s.queueSoft v j) := ⟨_, rfl⟩

theorem State.requeueSoft_poolOnly (s : State) (j : Soft) : PoolOnly s (s.requeueSoft j) := by
  unfold State.requeueSoft
  dsimp only
  split
  · exact s.queueSoft_poolOnly ..
  · exact s.queueSoft_poolOnly ..
  · exact (s.queueSoft_poolOnly ..).trans (State.modPool_poolOnly ..)

theorem State.loseRun_poolOnly (s : State) (h : Nat) : PoolOnly s (s.loseRun h) := by
  unfold State.loseRun
  extract_lets m ended emptied context placed
  have hended : PoolOnly s ended := by
    dsimp only [ended]
    split
    · exact .ite (s.endRun_poolOnly ..) ((s.endRun_poolOnly ..).trans (State.modPool_poolOnly ..))
    · exact .refl s
  have hemptied : PoolOnly s emptied := hended.trans (State.modHammer_poolOnly ..)
  have hcontext : PoolOnly s context := by
    dsimp only [context]
    split
    · exact hemptied.trans (State.requeueSoft_poolOnly ..)
    · exact hemptied
  have hplaced : PoolOnly s placed := by
    dsimp only [placed]
    split
    · exact hcontext.trans (State.reissueAfterFault_poolOnly ..)
    · exact hcontext
  split
  · exact hplaced.trans (State.requeueSoft_poolOnly ..)
  · exact .ite hplaced (hplaced.trans (State.reissueAfterFault_poolOnly ..))
  · exact hplaced

/-- Runs are abandoned and places given up: only the pool changes, and no hammer that has no run gets one. -/
structure Abandons (b w : State) : Prop where
  poolOnly : PoolOnly b w
  idle : ∀ h, (b.hammer h).run = none → (w.hammer h).run = none

theorem Abandons.refl (b : State) : Abandons b b := ⟨.refl b, fun _ h => h⟩

theorem Abandons.trans {a b c : State} (h : Abandons a b) (g : Abandons b c) : Abandons a c :=
  ⟨h.poolOnly.trans g.poolOnly, fun x hx => g.idle x (h.idle x hx)⟩

theorem Abandons.foldl {α : Type} {f : State → α → State} (step : ∀ s x, Abandons s (f s x)) (l : List α) (b : State) :
    Abandons b (l.foldl f b) :=
  List.foldlRecOn l f (Abandons.refl b) fun s h x _ => h.trans (step s x)

theorem State.modHammer_abandons (s : State) (h : Nat) (f : Hammer → Hammer) 
    (hf : ∀ m, m.run = none → (f m).run = none := by exact fun _ h => h) : Abandons s (s.modHammer h f) := by
  refine ⟨s.modHammer_poolOnly h f, fun x hx => ?_⟩
  by_cases hxh : x = h
  · subst hxh
    rw [State.modHammer_hammer_same]
    exact hf _ hx
  · rwa [State.modHammer_hammer_ne _ _ _ hxh]

theorem State.abandonRivals_abandons (s : State) (k : JobKey) : Abandons s (s.abandonRivals k) :=
  have runs : Abandons s ((s.runsOf k).foldl (fun s h => s.modHammer h fun m =>
      { m with run := match m.run with | some (.hard r) => some (.hard { r with abandoned := true }) | r => r }) s) :=
    .foldl (fun s h => s.modHammer_abandons h _ fun m hm => by simp only [hm]) _ _
  runs.trans (.foldl (fun s h => s.modHammer_abandons h _) _ _)

/-! ## Fences of the pool (01 R20 to R32, R47, R53) -/

theorem State.traceFences_poolOnly (s : State) (l : List Nat) (reason : Nat) : PoolOnly s (s.traceFences l reason) :=
  .foldl (fun s h => (s.traceHammer_traced 0x8 h reason).poolOnly) _ _

theorem State.startMoves_poolOnly (s : State) (b : Nat) : PoolOnly s (s.startMoves b) := by
  unfold State.startMoves
  dsimp only
  refine .ite (.refl s) (.foldl (fun s a => ?_) _ _)
  split
  · exact s.modPool_poolOnly _
  · exact .refl s

theorem State.failUnfence_grows (s : State) (src : Nat) : Grows s (s.failUnfence src) := by
  unfold State.failUnfence
  extract_lets due failed
  have hfailed : Grows s failed := .foldl (fun s _ => (s.finish_writes ..).records.toGrows) _ _
  exact hfailed.trans (State.modPool_poolOnly ..).grows

theorem State.refence_grows (s : State) (src reason : Nat) : Grows s (s.refence src reason) :=
  (s.failUnfence_grows src).trans (.ite (State.raiseDone_records ..).toGrows (.refl _))

theorem State.fenceAnew_grows (s : State) (src reason : Nat) : Grows s (s.fenceAnew src reason) :=
  .ite (s.refence_grows src reason)
    (((s.failUnfence_grows src).trans (State.fence_records _ src reason).toGrows).trans (State.modPool_poolOnly _ _).grows)

theorem State.fenceAnew_fenced (s : State) (src reason : Nat) : (s.fenceAnew src reason).fenced src = true := by
  unfold State.fenceAnew
  split
  · next hfenced => exact (s.refence_grows src reason).fenced src hfenced
  · exact State.fence_fenced _ src reason

theorem State.dropValleyJobs_grows (s : State) (v : Nat) : Grows s (s.dropValleyJobs v) := by
  refine .foldl (fun s j => ?_) _ _
  extract_lets recorded abandoned
  have hrecorded : Grows s recorded := by
    dsimp only [recorded]
    split
    · exact (s.recordAbort_records ..).toGrows
    · exact (s.recordGroup_records ..).toGrows
  have habandoned : Grows recorded abandoned := .foldl (fun s h => (s.modHammer_poolOnly h _).grows) _ _
  exact (hrecorded.trans habandoned).trans (State.modPool_poolOnly ..).grows

theorem State.finish_grows (s : State) (id status : Nat) (res : List Byte) : Grows s (s.finish id status res) :=
  (s.finish_writes id status res).records.toGrows

theorem State.powerOffValley_grows (s : State) (v : Nat) : Grows s (s.powerOffValley v) := by
  unfold State.powerOffValley
  extract_lets axes reset gone left dissolved
  have hreset : Grows s reset := by
    refine .foldl (fun s a => ?_) _ _
    extract_lets ax l ids ended done
    have hended : Grows s ended := .foldl (fun s e => s.finish_grows ..) _ _
    have hdone : Grows ended done := .foldl (fun s i => s.finish_grows ..) _ _
    exact (hended.trans hdone).trans (.of_asy rfl)
  have hleft : Grows reset left := .foldl (fun s e => .foldl (fun s id => s.finish_grows ..) _ _) _ _
  clear_value left
  have hdissolved : Grows left dissolved := .of_asy rfl
  have hoff (pw : Power) : Grows dissolved { dissolved with pw := pw } := .of_asy rfl
  exact (((hreset.trans hleft).trans hdissolved).trans (hoff _)).trans (State.postReady_writes _).records.toGrows

/-- The fence of a valley: whatever else it takes with it, marks and fences only grow, and the valley is fenced. -/
theorem State.fenceValley_grows (s : State) (v reason kind : Nat) :
    Grows s (s.fenceValley v reason kind) ∧ (s.fenceValley v reason kind).fenced (srcValley v) = true := by
  unfold State.fenceValley
  split
  · next hfenced =>
    have hgrows : Grows s (s.refence (srcValley v) reason).postReady :=
      (s.refence_grows ..).trans (State.postReady_writes _).records.toGrows
    exact ⟨hgrows, hgrows.fenced _ hfenced⟩
  · extract_lets traced hs anew dropped lost code stopped off
    have hanew : Grows s anew := (s.traceFences_poolOnly ..).grows.trans (State.fenceAnew_grows ..)
    have hlost : Grows anew lost := (State.dropValleyJobs_grows ..).trans (.foldl (fun s h => (s.loseRun_poolOnly h).grows) _ _)
    have hstopped : Grows lost stopped :=
      .ite (State.notReady_writes ..).records.toGrows
        (.ite (State.handOver_reacts _).toGrows ((State.segmentStop_reacts ..).trans (State.segmentStop_reacts ..)).toGrows)
    have hoff : Grows stopped off := .ite (State.powerOffValley_grows ..) (.refl _)
    have hrest := ((hlost.trans hstopped).trans hoff).trans
      (Grows.ite (c := ((List.range 4).all fun w => off.fenced (srcValley w)) = true) (off.safeHold_reacts (srcValley v) kind).toGrows
        (.refl _))
    exact ⟨hanew.trans hrest, hrest.fenced _ (State.fenceAnew_fenced ..)⟩

/-- The fence of a bench, which may take its valley with it. -/
theorem State.fenceBench_grows (s : State) (k reason kind : Nat) :
    Grows s (s.fenceBench k reason kind) ∧ (s.fenceBench k reason kind).fenced (srcBench k) = true := by
  unfold State.fenceBench
  split
  · next hfenced =>
    have hgrows : Grows s (s.refence (srcBench k) reason).postReady :=
      (s.refence_grows ..).trans (State.postReady_writes _).records.toGrows
    exact ⟨hgrows, hgrows.fenced _ hfenced⟩
  · extract_lets hs traced anew v moved lost
    have hanew : Grows s anew := (s.traceFences_poolOnly ..).grows.trans (State.fenceAnew_grows ..)
    have hlost : Grows anew lost := .trans (State.startMoves_poolOnly ..).grows (.foldl (fun s h => (s.loseRun_poolOnly h).grows) _ _)
    have hrest := Grows.ite (c := ((List.range 4).all fun i => anew.fenced (srcBench (4 * v + i))) = true)
      (anew.fenceValley_grows v 9 kind).1 (hlost.trans (lost.recheck_reacts v).toGrows)
    exact ⟨hanew.trans hrest, hrest.fenced _ (State.fenceAnew_fenced ..)⟩

end Sys2Proof.Machine
end

section
/-! O38: copies, slow hammers, ASBs that land, stalled benches, and the ends of soft jobs (03 R104 to R108, R125 to R151; 01 R24,
R29). -/

namespace Sys2Proof.Machine

/-! ## Copies (R129, R133) -/

/-- A copy is issued: its job has it, the run's hammer takes no other run of that deadline, the valley counts it, and only the pool
changes. -/
theorem State.issueCopy_spec {s : State} {k : JobKey} {j : Job} (h : Nat) (hj : s.job k = some j) :
    PoolOnly s (s.issueCopy k j h) ∧ ((s.issueCopy k j h).job k).map Job.hasCopy = some true ∧
      j.deadline ∈ ((s.issueCopy k j h).hammer h).barred ∧
      SMap.get 0 (s.issueCopy k j h).pool.reissue (valleyOfSeg j.seg) = (SMap.get 0 s.pool.reissue (valleyOfSeg j.seg) + 1) % 2 ^ 32 := by
  refine ⟨s.issueCopy_poolOnly k j h, ?_⟩
  unfold State.issueCopy
  extract_lets barred counted
  have hplaced : Places counted (counted.place k true h) := counted.place_places k true h
  refine ⟨?copy, ?bar, ?count⟩
  case copy =>
    rw [hplaced.job_map k fun _ => rfl]
    have hcopied : counted.job k = some { j with hasCopy := true } := State.modJob_job_same hj _
    rw [hcopied]
    rfl
  case bar =>
    rw [hplaced.barred]
    show j.deadline ∈ (barred.hammer h).barred
    rw [State.modHammer_hammer_same]
    exact List.mem_cons_self
  case count =>
    rw [hplaced.reissue]
    exact SMap.get_put_same ..

theorem execReissuePoint_copies {s : State} {t job h : Nat} {j : Job} (hj : (s.before t).job (jobKeyOf job) = some j)
    (hruns : (s.before t).runsOf (jobKeyOf job) = [h]) (hcopy : j.hasCopy = false) (hwaits : j.waits = false)
    (hbefore : (s.before t).runsBefore h = true) (hpoint : (s.before t).atReissue j = true)
    (hends : (s.before t).completesNow h = false) (hup : (s.before t).fenced srcDispatcher = false) :
    exec (.reissuePoint t job) s = .next (ends s t ((s.before t).issueCopy (jobKeyOf job) j h)) := by
  show execReissuePoint t job s = _
  simp only [execReissuePoint, does_eq, hj, hruns, hcopy, hwaits, hbefore, hpoint, hends, hup, Bool.not_true, Bool.or_self,
    Bool.false_eq_true, if_false]

theorem execReissuePoint_none {s : State} {t job : Nat} (hnone : ∀ j, (s.before t).job (jobKeyOf job) = some j →
      j.hasCopy = true ∨ j.waits = true ∨ (s.before t).runsOf (jobKeyOf job) = [] ∨ (s.before t).atReissue j = false) :
    exec (.reissuePoint t job) s = .next (ends s t (s.before t)) := by
  show execReissuePoint t job s = _
  rw [execReissuePoint, does_eq]
  congr 2
  dsimp only
  split
  · rfl
  · next j hj =>
    split
    · next h hruns =>
      refine if_pos ?_
      rcases hnone j hj with h | h | h | h
      · simp [h]
      · simp [h]
      · rw [hruns] at h; contradiction
      · simp [h]
    · rfl

/-! ## Slow hammers (R136) -/

theorem execHammerSlow_slows {s : State} {t h : Nat} (hcount : 64 ≤ (s.before t).overruns h) (hfast : ((s.before t).hammer h).slow = false)
    (hup : (s.before t).fenced (srcHammer h) = false) (hfence : (s.before t).fencesNow [srcHammer h] = false)
    (hyields : (s.before t).yields h = false) :
    ∃ w, exec (.hammerSlow t h) s = .next (ends s t w) ∧ (w.hammer h).slow = true ∧
      ∃ m l, w.asy.held = (s.before t).asy.held ++ m :: l ∧ m.src = srcHammer h ∧ m.kind = 0x08 := by
  have hdue : 64 ≤ (s.before t).overruns h ∧ ¬ ((s.before t).hammer h).slow ∧ ¬ (s.before t).fenced (srcHammer h) ∧
      ¬ (s.before t).fencesNow [srcHammer h] ∧ ¬ (s.before t).yields h := by simp [hcount, hfast, hup, hfence, hyields]
  refine ⟨_, (by rw [execHammerSlow, does_eq, if_pos hdue] : execHammerSlow t h s = _), ?_⟩
  generalize (s.before t) = b
  extract_lets slow code marked traced
  have htraced : Traced marked traced := State.traceHammer_traced ..
  have hreacts : Reacts traced (traced.recheck (h / 32)) := State.recheck_reacts ..
  constructor
  · have hsame : (traced.recheck (h / 32)).hammer h = slow.hammer h := by
      rw [State.hammer, hreacts.pool]
      exact htraced.hammer h
    rw [hsame, State.modHammer_hammer_same]
  · obtain ⟨m, l, hheld, hsrc, hkind, -⟩ := (htraced.poolOnly.grows.trans hreacts.toGrows).raiseDone_held
    exact ⟨m, l, hheld, hsrc, hkind⟩

/-! ## ASBs that land (01 R29) -/

theorem execAsbMoveLanded_lands {s : State} {t a : Nat} (hmoves : (s.before t).inTransit a = true)
    (hout : (s.before t).benchOut ((s.before t).home a) = false) :
    ∃ w, exec (.asbMoveLanded t a) s = .next (ends s t w) ∧ w.inTransit a = false ∧ (∀ c, w.home c = (s.before t).home c) ∧
      w = { s.before t with pool := w.pool } := by
  refine ⟨_, (by rw [execAsbMoveLanded, does_eq, if_pos hmoves] : execAsbMoveLanded t a s = _), ?_⟩
  generalize (s.before t) = b at *
  extract_lets landed started
  have hplaces : Places landed started := .foldl (fun s e => by
    split
    · exact .ite (s.startRun_places ..) (.refl s)
    · exact .refl s) _ _
  have honly : PoolOnly b started := PoolOnly.trans ⟨_, rfl⟩ hplaces.poolOnly
  have hhome : ∀ c, started.home c = b.home c := fun c => by rw [State.home, hplaces.home]; rfl
  have hstays : started.startMoves (started.home a) = started := by
    have hin : started.benchOut (started.home a) = false := by
      rw [hhome, State.benchOut, honly.fenced, honly.fenced]
      exact hout
    simp [State.startMoves, hin]
  rw [hstays]
  refine ⟨?_, hhome, honly.eq⟩
  rw [State.inTransit, hplaces.moving]
  simp [landed]

/-! ## Stalled benches (01 R24) -/

theorem execReadyStall_fences {s : State} {t k : Nat} (hstall : (s.before t).stalled k = true)
    (hvalley : (s.before t).fencesNow [srcValley (valleyOf k)] = false) :
    ∃ w, exec (.readyStall t k) s = .next (ends s t w) ∧ w.fenced (srcBench k) = true ∧
      ∃ m l, w.asy.held = (s.before t).asy.held ++ m :: l ∧ m.src = srcBench k ∧ m.kind = 0x05 := by
  refine ⟨_, (by rw [execReadyStall, does_eq, if_pos hstall] : execReadyStall t k s = _), ?_⟩
  extract_lets seg gone marked
  rw [if_neg (by simp [gone, hvalley])]
  obtain ⟨hgrows, hfenced⟩ := marked.fenceBench_grows k 3 0x05
  obtain ⟨m, l, hheld, hsrc, hkind, -⟩ := hgrows.raiseDone_held
  exact ⟨hfenced, m, l, hheld, hsrc, hkind⟩

theorem execReadyStall_none {s : State} {t k : Nat} (hstall : (s.before t).stalled k = false) :
    exec (.readyStall t k) s = .next (ends s t (s.before t)) := by
  show execReadyStall t k s = _
  rw [execReadyStall, does_eq, if_neg (by simp [hstall])]

end Sys2Proof.Machine
end

section
/-! O38: the ends of soft jobs (03 R104 to R108, R125, R126, R151). -/

namespace Sys2Proof.Machine

/-! ## A soft run asked to stop (R125, R126) -/

/-- The context that a soft run leaves on its hammer when it stops. -/
def State.savedContext (b : State) (j : Soft) (since : Nat) : Soft × Nat :=
  ({ j with ran := j.ran + (b.core - since), accs := b.drawAccs.1 }, b.core)

/-- A soft run has stopped on hammer h: its context is saved, and the draws of its accumulators are over. -/
def State.stopSaved (b : State) (h : Nat) (j : Soft) (since : Nat) : State :=
  b.drawAccs.2.modHammer h fun m => { m with run := none, resv := none, ctx := some (b.savedContext j since) }

/-- The draws of the accumulators advance the counter of free values alone. -/
theorem State.drawAccs_only (b : State) : ∃ n, b.drawAccs.2 = { b with free := n } :=
  List.foldlRecOn (motive := fun r : List (Int × Bool) × State => ∃ n, r.2 = { b with free := n }) (List.range 4) _ ⟨b.free, rfl⟩
    fun r hr _ _ => by
      obtain ⟨n, hn⟩ := hr
      exact ⟨n + 2, by rw [hn]; rfl⟩

theorem State.stopSaved_only (b : State) (h : Nat) (j : Soft) (since : Nat) :
    ∃ n, b.stopSaved h j since = State.modHammer { b with free := n } h fun m =>
      { m with run := none, resv := none, ctx := some (b.savedContext j since) } := by
  obtain ⟨n, hn⟩ := b.drawAccs_only
  exact ⟨n, by rw [State.stopSaved, hn]⟩

theorem State.stopSaved_takeable (b : State) (h : Nat) (j : Soft) (since k : Nat) : (b.stopSaved h j since).takeable k h = b.takeable k h := by
  obtain ⟨n, hn⟩ := b.stopSaved_only h j since
  have hbarred : ((b.stopSaved h j since).hammer h).barred = (b.hammer h).barred := by
    rw [hn, State.modHammer_hammer_same]
    rfl
  simp only [State.takeable, State.mayTake, hbarred]
  rw [hn]
  rfl

theorem execPreemptStop_saves {s : State} {t h since : Nat} {j : Soft} (hrun : ((s.before t).hammer h).run = some (.soft j since true))
    (hresv : ((s.before t).hammer h).resv = none) (hnone : (s.before t).takeable (benchOf h) h = []) :
    exec (.preemptStop t h) s = .next (ends s t (((s.before t).stopSaved h j since).traceSoft 0x3 h j 0xFFFF)) := by
  have hidle : ((s.before t).stopSaved h j since).takeable (benchOf h) h = [] := by rw [State.stopSaved_takeable, hnone]
  simp only [State.stopSaved, State.savedContext] at hidle ⊢
  show execPreemptStop t h s = _
  rw [execPreemptStop, does_eq, hrun]
  simp only [hresv, hidle, List.head?_nil, ite_self, Option.isSome_none, Bool.false_eq_true, or_self, if_false]

theorem execPreemptStop_unasked {s : State} {t h since : Nat} {j : Soft} (hrun : ((s.before t).hammer h).run = some (.soft j since false)) :
    exec (.preemptStop t h) s = .next (ends s t (s.before t)) := by
  show execPreemptStop t h s = _
  rw [execPreemptStop, does_eq, hrun]

theorem State.stopSaved_traced {b w : State} {h since : Nat} {j : Soft} (hresv : (b.hammer h).resv = none)
    (hw : Traced (b.stopSaved h j since) w) :
    Desk { b with pool := w.pool, free := w.free } w ∧
      w.hammer h = { b.hammer h with run := none, ctx := some (b.savedContext j since) } := by
  obtain ⟨n, hn⟩ := b.stopSaved_only h j since
  constructor
  · obtain ⟨p, rfl⟩ := hw.poolOnly
    rw [hn]
    rfl
  · rw [hw.hammer, hn, State.modHammer_hammer_same, ← hresv]
    rfl

/-! ## Soft jobs that end (R104, R108, R151) -/

/-- The hammer of a soft job with nothing placed on it is free again: it has no run, what waits for the host is posted, and no mark
is raised. -/
theorem State.freeHammer_spec {s : State} {h : Nat} (hresv : (s.hammer h).resv = none) :
    ((s.freeHammer h).hammer h).run = none ∧ Desk { s with pool := (s.freeHammer h).pool } (s.freeHammer h) ∧
      (s.freeHammer h).asy.held = s.asy.held ∧ s.out ⊆ (s.freeHammer h).out := by
  have heq : s.freeHammer h = (s.modHammer h fun m => { m with run := none, resv := none }).postReady := by
    simp only [State.freeHammer, hresv]
  have hwrites := (s.modHammer h fun m => { m with run := none, resv := none }).postReady_writes
  rw [heq]
  refine ⟨?_, (State.modHammer_poolOnly s h _).desk.trans_withPool hwrites.desk.withPool, hwrites.held, hwrites.out⟩
  rw [State.hammer, hwrites.desk.pool, ← State.hammer, State.modHammer_hammer_same]

theorem execSoftJobComplete_soft {s : State} {t h since : Nat} {j : Soft} {stop : Bool}
    (hrun : ((s.before t).hammer h).run = some (.soft j since stop)) :
    ∃ v, Traced (s.before t) v ∧ exec (.softJobComplete t h) s = .next (ends s t ((v.softProduct j.cls).freeHammer h)) := by
  refine ⟨_, (s.before t).traceSoft_traced 0x5 h j (min 0xFFFF (j.ran + ((s.before t).core - since))),
    (?_ : execSoftJobComplete t h s = _)⟩
  rw [execSoftJobComplete, does_eq, hrun]

theorem execSoftLimit_over {s : State} {t h since : Nat} {j : Soft} {stop : Bool}
    (hrun : ((s.before t).hammer h).run = some (.soft j since stop))
    (hover : (s.before t).softLimit < j.ran + ((s.before t).core - since)) :
    exec (.softLimit t h) s =
      .next (ends s t ((((s.before t).raise (srcHammer h) 0x0E 0 []).softAbandon j.cls).freeHammer h)) := by
  show execSoftLimit t h s = _
  rw [execSoftLimit, does_eq, hrun]
  exact congrArg (fun w => Host.Outcome.next (ends s t w)) (if_pos hover)

theorem execSoftLimit_within {s : State} {t h since : Nat} {j : Soft} {stop : Bool}
    (hrun : ((s.before t).hammer h).run = some (.soft j since stop))
    (hwithin : j.ran + ((s.before t).core - since) ≤ (s.before t).softLimit) :
    exec (.softLimit t h) s = .next (ends s t (s.before t)) := by
  show execSoftLimit t h s = _
  rw [execSoftLimit, does_eq, hrun]
  exact congrArg (fun w => Host.Outcome.next (ends s t w)) (if_neg (by omega))

/-- A statistics job writes its area to the status page (14 Table 14.12). -/
theorem State.statProduct_out {s : State} {k : Nat} {area : List Byte} (hlink : s.host.linkUp = true) (hup : s.fenced srcHostEngine = false) :
    s.softProduct (.stat k area) = s.emit (.status (0x400 + 32 * k) area) := by
  simp [State.softProduct, State.statusWrite, State.emitHost, hlink, hup]

theorem execSoftJobComplete_stat {s : State} {t h since k : Nat} {j : Soft} {stop : Bool} {area : List Byte}
    (hrun : ((s.before t).hammer h).run = some (.soft j since stop)) (hresv : ((s.before t).hammer h).resv = none)
    (hcls : j.cls = .stat k area) (hlink : (s.before t).host.linkUp = true) (hup : (s.before t).fenced srcHostEngine = false) :
    ∃ w, exec (.softJobComplete t h) s = .next (ends s t w) ∧ (w.hammer h).run = none ∧ .status (0x400 + 32 * k) area ∈ w.out ∧
      Desk { s.before t with pool := w.pool } w := by
  obtain ⟨v, hv, hexec⟩ := execSoftJobComplete_soft hrun
  have hlinkv : v.host.linkUp = true := by rw [hv.poolOnly.host, hlink]
  rw [hcls, State.statProduct_out hlinkv ((hv.poolOnly.fenced _).trans hup)] at hexec
  refine ⟨_, hexec, ?_⟩
  obtain ⟨hidle, hdesk, -, hout⟩ :=
    State.freeHammer_spec (s := v.emit (.status (0x400 + 32 * k) area)) (h := h) ((hv.hammer h).symm ▸ hresv)
  exact ⟨hidle, hout List.mem_cons_self, (hv.poolOnly.desk.trans_withPool (v.emit_writes _).desk.withPool).trans_withPool hdesk⟩

theorem execSoftJobComplete_resample {s : State} {t h since a : Nat} {j : Soft} {stop : Bool} {p : Resample}
    (hrun : ((s.before t).hammer h).run = some (.soft j since stop)) (hresv : ((s.before t).hammer h).resv = none)
    (hcls : j.cls = .resample a) (hp : ((s.before t).axis a).ln.resample = some p) :
    ∃ w, exec (.softJobComplete t h) s = .next (ends s t w) ∧ (w.hammer h).run = none ∧
      (w.axis a).ln.resample =
        some { p with scratch := some (resampleTable ((s.before t).axis a).ln.bins ((s.before t).axis a).ln.log2n p.log2n) } ∧
      (w.axis a).ln.bins = ((s.before t).axis a).ln.bins ∧ ∀ x, x ≠ a → w.axis x = (s.before t).axis x := by
  obtain ⟨v, hv, hexec⟩ := execSoftJobComplete_soft hrun
  rw [hcls] at hexec
  have hresvp : ((v.softProduct (.resample a)).hammer h).resv = none := by
    rw [State.hammer, State.softProduct, State.modAxis_pool, ← State.hammer, hv.hammer, hresv]
  obtain ⟨hidle, hdesk, -⟩ := State.freeHammer_spec hresvp
  have haxis := hdesk.axis_withPool
  refine ⟨_, hexec, hidle, ?_, ?_, fun x hx => ?_⟩
  · rw [haxis, State.softProduct, State.modAxis_axis_same, hv.poolOnly.axis]
    simp only [hp]
  · rw [haxis, State.softProduct, State.modAxis_axis_same, hv.poolOnly.axis]
    simp only [hp]
  · rw [haxis, State.softProduct, State.modAxis_axis_ne _ _ _ hx, hv.poolOnly.axis]

theorem State.softAbandon_stat (s : State) (k : Nat) (area : List Byte) : s.softAbandon (.stat k area) = s := rfl

theorem execSoftLimit_stat {s : State} {t h since k : Nat} {j : Soft} {stop : Bool} {area : List Byte}
    (hrun : ((s.before t).hammer h).run = some (.soft j since stop)) (hresv : ((s.before t).hammer h).resv = none)
    (hcls : j.cls = .stat k area) (hover : (s.before t).softLimit < j.ran + ((s.before t).core - since)) :
    ∃ w, exec (.softLimit t h) s = .next (ends s t w) ∧ (w.hammer h).run = none ∧ Desk { s.before t with pool := w.pool } w ∧
      ∃ m, w.asy.held = (s.before t).asy.held ++ [m] ∧ m.src = srcHammer h ∧ m.kind = 0x0E := by
  have hexec := execSoftLimit_over hrun hover
  rw [hcls, State.softAbandon_stat] at hexec
  refine ⟨_, hexec, ?_⟩
  generalize s.before t = b at hresv ⊢
  have hraised : Desk b (b.raise (srcHammer h) 0x0E 0 []) := .of_desk (b.raise_desk ..)
  obtain ⟨hidle, hdesk, hkept, -⟩ := State.freeHammer_spec (s := b.raise (srcHammer h) 0x0E 0 []) (h := h) hresv
  obtain ⟨m, hheld, hsrc, hkind, -⟩ := b.addMark_held (srcHammer h) 0x0E 0 (b.reactOf 0x0E) [] false
  exact ⟨hidle, hraised.withPool.trans_withPool hdesk, m, hkept.trans hheld, hsrc, hkind⟩

/-- Settles O38: each command by what it does where its condition holds, and by what it leaves where it does not. -/
theorem copiesAndSoftJobsRunOut : Obligations.CopiesAndSoftJobsRunOut := by
  unfold Obligations.CopiesAndSoftJobsRunOut
  refine ⟨fun s t => ⟨fun job j h hj hruns hcopy hwaits hbefore hpoint hends hup => ?copies, fun job => execReissuePoint_none,
      fun h hcount hfast hup hfence hyields => execHammerSlow_slows hcount hfast hup hfence hyields,
      fun a hmoves hout => execAsbMoveLanded_lands hmoves hout, fun k hstall hvalley => execReadyStall_fences hstall hvalley,
      fun k hstall => execReadyStall_none hstall⟩,
    fun s t h j since => ⟨fun hrun hresv hnone => ?saves, fun hrun => execPreemptStop_unasked hrun,
      fun stop k area hrun hresv hcls hlink hup => execSoftJobComplete_stat hrun hresv hcls hlink hup,
      fun stop a p hrun hresv hcls hp => execSoftJobComplete_resample hrun hresv hcls hp,
      fun stop k area hrun hresv hcls hover => execSoftLimit_stat hrun hresv hcls hover,
      fun stop hrun hwithin => execSoftLimit_within hrun hwithin⟩⟩
  case copies =>
    obtain ⟨honly, hissued, hbarred, hcount⟩ := State.issueCopy_spec h hj
    exact ⟨_, execReissuePoint_copies hj hruns hcopy hwaits hbefore hpoint hends hup, hissued, hbarred, hcount, honly.axis⟩
  case saves =>
    exact ⟨_, execPreemptStop_saves hrun hresv hnone, State.stopSaved_traced hresv (State.traceSoft_traced ..)⟩

end Sys2Proof.Machine
end

section
/-! O37: an axis without an identification stays without one through its job (03 R132; 05 R248). -/

namespace Sys2Proof.Machine

/-! ## An axis without an identification stays without one -/

/-- The identifications of `b` stand in `w`. -/
structure Axis.SameIdents (b w : Axis) : Prop where
  ident : w.ident = b.ident
  identWas : w.identWas = b.identWas

theorem Axis.SameIdents.refl (b : Axis) : SameIdents b b := ⟨rfl, rfl⟩

theorem Axis.SameIdents.trans {a b c : Axis} (h : SameIdents a b) (g : SameIdents b c) : SameIdents a c :=
  ⟨g.ident.trans h.ident, g.identWas.trans h.identWas⟩

theorem Axis.SameIdents.ite {b v w : Axis} {c : Prop} [Decidable c] (h : SameIdents b v) (g : SameIdents b w) :
    SameIdents b (if c then v else w) := by
  split
  · exact h
  · exact g

theorem s0_sameIdents (i : LawIn) (ax : Axis) : ax.SameIdents (s0 i ax) := by
  unfold s0
  split
  · exact .ite ⟨rfl, rfl⟩ (.ite ⟨rfl, rfl⟩ ⟨rfl, rfl⟩)
  · exact .ite ⟨rfl, rfl⟩ (.refl ax)
  · exact .refl ax

theorem terraceStep_sameIdents (ax : Axis) (phi : Option Int) : ax.SameIdents (terraceStep ax phi) := by
  unfold terraceStep
  extract_lets ter x phis
  clear_value x phis
  split
  · exact ⟨rfl, rfl⟩
  · split
    · exact .refl ax
    · split
      · exact ⟨rfl, rfl⟩
      · exact .refl ax

theorem Axis.withLp_sameIdents (ax : Axis) (lp : LoopSt) : ax.SameIdents { ax with lp := lp } := ⟨rfl, rfl⟩

theorem Axis.withLn_sameIdents (ax : Axis) (ln : Learning) : ax.SameIdents { ax with ln := ln } := ⟨rfl, rfl⟩

theorem Axis.withMo_sameIdents (ax : Axis) (mo : Motion) : ax.SameIdents { ax with mo := mo } := ⟨rfl, rfl⟩

theorem Axis.withWasOpen_sameIdents (ax : Axis) (lp : LoopSt) (open_ : Bool) : ax.SameIdents { ax with lp := lp, wasOpen := open_ } :=
  ⟨rfl, rfl⟩

theorem Axis.flag_sameIdents (ax : Axis) (c : Bool) (i : Nat) : ax.SameIdents (ax.flag c i) := ax.withLp_sameIdents _

theorem Axis.flagRes_sameIdents (ax : Axis) (r : Res) (i : Nat) : ax.SameIdents (ax.flagRes r i) :=
  (ax.flag_sameIdents _ _).trans (Axis.flag_sameIdents _ _ _)

theorem clampFlag_sameIdents (ax : Axis) (r : Res) (lo hi : Int) (i : Nat) : ax.SameIdents (clampFlag ax r lo hi i).2.1 :=
  (ax.flag_sameIdents _ _).trans (Axis.flag_sameIdents _ _ _)

theorem s4_sameIdents (ax : Axis) (x : Int) : ax.SameIdents (s4 ax x).2 := by
  unfold s4
  extract_lets r o lp fl
  have hr : ax.SameIdents r.2 := List.foldlRecOn (motive := fun acc : Int × Axis => ax.SameIdents acc.2) _ _ (.refl ax)
    fun acc hacc q _ => by
      split
      · exact hacc.trans (acc.2.withLp_sameIdents _)
      · exact hacc
  split
  · exact hr.trans (r.2.withLp_sameIdents _)
  · exact hr.trans (r.2.withLp_sameIdents _)

theorem s23_sameIdents (i : LawIn) (ax : Axis) (o : S1Out) : ax.SameIdents (s23 i ax o).ax := by
  unfold s23
  extract_lets pos e axE vff axF pre c vc axC kip sp hold rP xP axX lpX lpC axP ev axV tff axT up u u3 axU kiv back sk holdV rI xI axY lpY axI
  have hC : ax.SameIdents axC :=
    ((ax.flagRes_sameIdents _ _).trans (Axis.flagRes_sameIdents _ _ _)).trans (clampFlag_sameIdents _ _ _ _ _)
  have hP : axC.SameIdents axP :=
    .ite ((clampFlag_sameIdents _ _ _ _ _).trans (Axis.withLp_sameIdents _ _)) (.ite (.refl _) (axC.withLp_sameIdents _))
  have hU : axP.SameIdents axU :=
    ((axP.flagRes_sameIdents _ _).trans (Axis.flagRes_sameIdents _ _ _)).trans (clampFlag_sameIdents _ _ _ _ _)
  have hI : axU.SameIdents axI := .ite (.refl _) ((clampFlag_sameIdents _ _ _ _ _).trans (Axis.withLp_sameIdents _ _))
  exact ((hC.trans hP).trans hU).trans hI

theorem s24_sameIdents (i : LawIn) (ax : Axis) (o : S1Out) : ax.SameIdents (s24 i ax o).ax := by
  unfold s24
  split
  · exact s4_sameIdents ax o.tau
  · exact ((ax.flagRes_sameIdents _ _).trans (Axis.flagRes_sameIdents _ _ _)).trans (Axis.flagRes_sameIdents _ _ _)
  · exact (s23_sameIdents i ax o).trans (s4_sameIdents _ _)

theorem s5_sameIdents (i : LawIn) (m : Mid) (o : S1Out) (phi : Option Int) : m.ax.SameIdents (s5 i m o phi).2.1 := by
  unfold s5
  extract_lets ax g on
  split
  · exact .refl _
  · extract_lets dphi dir l c s added u5 may x r learnt lnL
    have hadded : ax.SameIdents added :=
      .ite ((clampFlag_sameIdents _ _ _ _ _).trans (Axis.flag_sameIdents _ _ _)) (.refl _)
    split
    · exact hadded.trans (((added.flag_sameIdents _ _).trans (Axis.flag_sameIdents _ _ _)).trans (Axis.withLn_sameIdents _ _))
    · exact hadded

theorem s7Clamp_sameIdents (ax : Axis) (u6 : Int) : ax.SameIdents (s7Clamp ax u6).2.1 := by
  unfold s7Clamp
  extract_lets a b
  have ha : ax.SameIdents a.2.1 := clampFlag_sameIdents _ _ _ _ _
  split
  · exact ha
  · exact ha.trans (clampFlag_sameIdents _ _ _ _ _)

theorem axisJob_sameIdents (i : LawIn) (ax : Axis) : ax.SameIdents (axisJob i ax).1 := by
  unfold axisJob
  extract_lets fed phi lostNow evM terraced o moved keepPhi m r isDrv l closed lpM lpO l'
  have hmoved : ax.SameIdents moved :=
    ((s0_sameIdents i ax).trans (terraceStep_sameIdents fed phi)).trans
      ((terraced.withMo_sameIdents o.mo).trans ((Axis.flag_sameIdents _ _ _).trans (Axis.flag_sameIdents _ _ _)))
  have hkeep : ∀ x : Axis, x.SameIdents (keepPhi x) := fun x => x.withLn_sameIdents _
  split
  · have hr : moved.SameIdents r.2.1 := (s24_sameIdents i moved o).trans (s5_sameIdents i m o phi)
    exact (hmoved.trans hr).trans ((r.2.1.withWasOpen_sameIdents r.2.1.lp false).trans (hkeep _))
  · exact hmoved.trans ((moved.withWasOpen_sameIdents lpO true).trans (hkeep _))

/-- Without an identification the end of a job excites nothing and keeps no sample. -/
theorem finishJob_sameIdents (r : RecIn) (velocity : Bool) (c : Option Int) (l : Left) {ax : Axis} (hident : ax.ident = none) :
    ax.SameIdents (finishJob r velocity c l ax).1 := by
  unfold finishJob
  extract_lets enable wrap cmd lnO isDrv u s6 vff coupled k0 ex u6 a clamped u7 rsp ident tq vw driven cmd' lpD lnD done
  split
  · exact ax.withLn_sameIdents _
  · have hcoupled : ax.SameIdents coupled := ax.flag_sameIdents _ _
    have hclamped : coupled.SameIdents clamped := s7Clamp_sameIdents coupled u6
    have hdriven : clamped.SameIdents driven := .ite (clamped.flag_sameIdents _ _) (.refl _)
    have hnone : ident = none := by simp only [ident, ex, hcoupled.ident, hident, Option.map_none]
    exact ⟨hnone.trans hident.symm, ((hcoupled.trans hclamped).trans hdriven).identWas⟩

end Sys2Proof.Machine
end

section
/-! O37: the commit of a network axis's job (03 R132; 04 R157, R184). -/

namespace Sys2Proof.Machine

/-! ## What a job reports (R222, R286, R306, R629) -/

/-- `w` is `b` but for marks, for what is posted and for what the twin is sent; what the peer told stays. -/
structure Speaks (b w : State) : Prop where
  desk : Desk b w
  peerMode : w.tw.peerMode = b.tw.peerMode

theorem Speaks.refl (b : State) : Speaks b b := ⟨.refl b, rfl⟩

theorem Speaks.trans {a b c : State} (h : Speaks a b) (g : Speaks b c) : Speaks a c :=
  ⟨h.desk.trans g.desk, g.peerMode.trans h.peerMode⟩

theorem Speaks.ite {b v w : State} {c : Prop} [Decidable c] (h : Speaks b v) (g : Speaks b w) : Speaks b (if c then v else w) := by
  split
  · exact h
  · exact g

theorem Writes.speaks {b w : State} (h : Writes b w) : Speaks b w := ⟨h.desk, h.peerMode⟩

theorem State.axisCond_speaks (s : State) (a kind : Nat) (now : Bool) (detail : List Byte) : Speaks s (s.axisCond a kind now detail) :=
  .ite ⟨.of_desk ((State.raise_desk ..).trans (State.liveOn_desk ..)), rfl⟩ (.ite ⟨.of_desk (State.liveOff_desk ..), rfl⟩ (.refl s))

theorem State.axisConds_speaks (s : State) (a : Nat) (srcM : Option Int) (evs : List Ev) : Speaks s (s.axisConds a srcM evs) :=
  ((s.axisCond_speaks ..).trans (State.axisCond_speaks ..)).trans ((State.axisCond_speaks ..).trans (State.axisCond_speaks ..))

/-- The event is no end of a group path. -/
def Ev.offPath : Ev → Prop
  | .pathEnd _ _ => False
  | _ => True

theorem State.axisEv_speaks (s : State) (a n m : Nat) (pos : Int) {e : Ev} (he : e.offPath) : Speaks s (s.axisEv a n m pos e) := by
  cases e with
  | finish id st => exact (s.finish_writes ..).speaks
  | mark kind detail => exact .refl s
  | pathEnd g stopped => exact he.elim

/-- An axis whose job has reported: the descriptors that ended are gone from it, and a retained gear whose master is back is lost no
longer. -/
def Axis.reported (ax : Axis) (srcM : Option Int) : Axis :=
  { ax with ends := [], mo := { ax.mo with
    ending := [], retained := ax.mo.retained.map fun e => { e with lost := e.lost && srcM.isNone } } }

/-- Away from group paths, a job's reports leave the rest of the machine as it was, but for what is posted and for marks. -/
theorem State.axisEvs_speaks (s : State) (a n m : Nat) (pos : Int) (srcM : Option Int) {evs : List Ev} (hevs : ∀ e ∈ evs, e.offPath) :
    ∃ v, Speaks s v ∧ Speaks (v.setAxis a ((s.axis a).reported srcM)) (s.axisEvs a n m pos srcM evs) := by
  unfold State.axisEvs
  extract_lets ends done ended reported finished told
  have hended : Speaks s ended := (Writes.foldl (fun s id => s.finish_writes ..) _ _).speaks
  have hreported : reported = ended.setAxis a ((s.axis a).reported srcM) := by
    rw [← hended.desk.axis]
    refine congrArg (ended.setAxis a) ?_
    dsimp only
    unfold Axis.reported
    cases (ended.axis a).mo.retained <;> rfl
  have hfinished : Speaks reported finished := (Writes.foldl (fun s x => s.finish_writes ..) _ _).speaks
  have htold : Speaks finished told := List.foldlRecOn evs _ (.refl _) fun s hs e he => hs.trans (s.axisEv_speaks a n m pos (hevs e he))
  refine ⟨ended, hended, hreported ▸ ?_⟩
  exact (hfinished.trans htold).trans ((State.axisConds_speaks ..).trans (State.postReady_writes _).speaks)

/-! ## The inputs of the law and of the record -/

theorem PoolOnly.lawIn {b w : State} (h : PoolOnly b w) (a : Nat) (j : Job) : w.lawIn a j = b.lawIn a j := by
  rw [h.eq]
  rfl

theorem PoolOnly.cgroupOf {b w : State} (h : PoolOnly b w) (a : Nat) : w.cgroupOf a = b.cgroupOf a := by
  rw [h.eq]
  rfl

theorem PoolOnly.recIn {b w : State} (h : PoolOnly b w) (a : Nat) (j : Job) (coupled : Bool) : w.recIn a j coupled = b.recIn a j coupled := by
  rw [h.eq]
  rfl

theorem State.setAxis_recIn (s : State) (x : Nat) (ax : Axis) (a : Nat) (j : Job) (coupled : Bool) :
    (s.setAxis x ax).recIn a j coupled = s.recIn a j coupled := rfl

theorem Speaks.recIn {b w : State} (h : Speaks b w) (a : Nat) (j : Job) (coupled : Bool) : w.recIn a j coupled = b.recIn a j coupled := by
  have hlate : w.isLate j = b.isLate j := by rw [show w = _ from h.desk]; rfl
  have hmuted : w.axisMuted a = b.axisMuted a := by rw [show w = _ from h.desk]; rfl
  have hholding : w.holding = b.holding := by
    rw [State.holding, State.holding, State.following, State.following, h.desk.pw, h.peerMode]
  rw [State.recIn, State.recIn, hlate, hmuted, hholding]

/-! ## The commit -/

theorem State.identIssue_none {s : State} {a : Nat} (hident : (s.axis a).ident = none) (l : List IdentBlock) : s.identIssue a l = s := by
  simp only [State.identIssue, hident]

theorem State.identLimits_none {s : State} {a : Nat} (hident : (s.axis a).ident = none) (opened : Bool) (e : Int) :
    s.identLimits a opened e = s := by
  simp only [State.identLimits, hident]

/-- An axis without identifications stays as it is when a job looks for one that is done. -/
theorem State.identDone_none {s : State} {a : Nat} (hident : (s.axis a).ident = none) (hwas : (s.axis a).identWas = []) :
    (s.identDone a).axis = s.axis ∧ (s.identDone a).pool = s.pool := by
  unfold State.identDone
  extract_lets kept
  have hkept : kept.axis = s.axis := by
    funext k
    by_cases hk : k = a
    · subst hk
      rw [State.modAxis_axis_same, hwas, List.filter_nil, ← hwas]
    · exact State.modAxis_axis_ne _ _ _ hk
  have hnone : (kept.axis a).ident = none := by rw [hkept, hident]
  simp only [hnone]
  exact ⟨hkept, rfl⟩

theorem State.commitAxis_single {s : State} {a : Nat} {ax : Axis} (j : Job) (l : Left) (hident : ax.ident = none) (hwas : ax.identWas = []) :
    let w := s.commitAxis a j false none false ax l
    w.axis a = (finishJob (s.recIn a j false) false none l ax).1 ∧ (∀ k, k ≠ a → w.axis k = s.axis k) ∧ w.pool = s.pool := by
  unfold State.commitAxis
  extract_lets before r set issued limited settled w
  have hsame : ax.SameIdents r.1 := finishJob_sameIdents _ _ _ _ hident
  have hset : set.axis a = r.1 := s.setAxis_axis_same a r.1
  have hissued : issued = set := State.identIssue_none (by rw [hset, hsame.ident, hident]) _
  have hlimited : limited = set := by
    rw [← hissued]
    exact State.identLimits_none (by rw [hissued, hset, hsame.ident, hident]) _ _
  obtain ⟨haxis, hpool⟩ : settled.axis = set.axis ∧ settled.pool = set.pool := by
    rw [← hlimited]
    refine State.identDone_none ?_ ?_ <;> rw [hlimited, hset]
    · rw [hsame.ident, hident]
    · rw [hsame.identWas, hwas]
  have hrecord : Records settled w := settled.record_records ..
  refine ⟨?_, fun k hk => ?_, ?_⟩
  · rw [hrecord.axis, haxis, hset]
  · rw [hrecord.axis, haxis, State.setAxis_axis_ne _ _ _ hk]
  · rw [hrecord.pool, hpool]
    rfl

/-- The job of an axis that is in no coupling group, has no identification and ends no group path: the axis is as the law makes it, no
other axis changes, and neither does the pool. -/
theorem State.completeAxis_single {s : State} {a : Nat} (j : Job) (hgroup : s.cgroupOf a = none) (hident : (s.axis a).ident = none)
    (hwas : (s.axis a).identWas = []) :
    let q := axisJob (s.lawIn a j) (s.axis a)
    let w := s.completeAxis a j
    (∀ e ∈ q.2.2, e.offPath) →
    w.axis a = (finishJob (s.recIn a j false) false none q.2.1 (q.1.reported j.input.srcM)).1 ∧ (∀ k, k ≠ a → w.axis k = s.axis k) ∧
      w.pool = s.pool := by
  intro q w hevs
  have hsame : (s.axis a).SameIdents q.1 := axisJob_sameIdents _ _
  obtain ⟨v, hv, hspoke⟩ := (s.setAxis a q.1).axisEvs_speaks a j.n j.m (resultPos q.1 q.2.1.pStar) j.input.srcM hevs
  have hw : w = ((s.setAxis a q.1).axisEvs a j.n j.m (resultPos q.1 q.2.1.pStar) j.input.srcM q.2.2).commitAxis a j false none false
      (((s.setAxis a q.1).axisEvs a j.n j.m (resultPos q.1 q.2.1.pStar) j.input.srcM q.2.2).axis a) q.2.1 := by
    simp only [w, q, State.completeAxis, hgroup]
  generalize (s.setAxis a q.1).axisEvs a j.n j.m (resultPos q.1 q.2.1.pStar) j.input.srcM q.2.2 = u at hspoke hw
  have hreported : u.axis a = q.1.reported j.input.srcM := by
    rw [hspoke.desk.axis, State.setAxis_axis_same, State.setAxis_axis_same]
  have hrec : u.recIn a j false = s.recIn a j false := by
    rw [hspoke.recIn, State.setAxis_recIn, hv.recIn, State.setAxis_recIn]
  obtain ⟨hself, hothers, hpool⟩ := State.commitAxis_single (s := u) (a := a) (ax := u.axis a) j q.2.1
    (by rw [hreported]; exact hsame.ident.trans hident) (by rw [hreported]; exact hsame.identWas.trans hwas)
  rw [← hw] at hself hothers hpool
  refine ⟨?_, fun k hk => ?_, ?_⟩
  · rw [hself, hrec, hreported]
  · rw [hothers k hk, hspoke.desk.axis, State.setAxis_axis_ne _ _ _ hk, hv.desk.axis, State.setAxis_axis_ne _ _ _ hk]
  · rw [hpool, hspoke.desk.pool, State.setAxis_pool, hv.desk.pool, State.setAxis_pool]

end Sys2Proof.Machine
end

section
/-! O37: runs that complete, and runs that end without a commit (01 R17, R30; 03 R132, R135). -/

namespace Sys2Proof.Machine

/-! ## A run that completes (R132) -/

/-- What a run's completion has done before its job commits: its record and its statistics, the end of the run, its rivals given up,
and the job gone. -/
theorem State.completeRun_eq (s : State) (h : Nat) (r : HardRun) (j : Job) {a : Nat} (hkey : r.key = .axis a) (hnet : a < 512)
    (hrun : (s.hammer h).run = some (.hard r)) :
    ∃ v, s.completeRun h r j = ((v.completeAxis a j).resyncSend j.seg).postReady ∧ PoolOnly s v ∧ v.job (.axis a) = none ∧
      (v.hammer h).run = none := by
  unfold State.completeRun
  extract_lets traced counted ended given dropped completed
  have htraced : Traced s traced := s.traceJob_traced ..
  have hcounted : (counted.hammer h).run = some (.hard r) := (congrArg Hammer.run (htraced.hammer h)).trans hrun
  have hended : (ended.hammer h).run = none := by
    dsimp only [ended]
    rw [State.endRun_hard true hcounted, State.modHammer_hammer_same]
  have hgiven : Abandons ended given := ended.abandonRivals_abandons r.key
  have hpool : PoolOnly s given :=
    (htraced.poolOnly.trans (State.modPool_poolOnly ..)).trans ((State.endRun_poolOnly counted h true).trans hgiven.poolOnly)
  refine ⟨dropped, ?_, hpool.trans (State.modPool_poolOnly ..), hkey ▸ given.dropJob_job_same r.key, hgiven.idle h hended⟩
  have hcompleted : completed = dropped.completeAxis a j := by
    dsimp only [completed]
    rw [hkey]
    exact if_neg (Nat.not_le.mpr hnet)
  rw [hcompleted]

theorem execJobComplete_commits {s : State} {t h a : Nat} {r : HardRun} {j : Job} (hrun : ((s.before t).hammer h).run = some (.hard r))
    (hrival : r.abandoned = false) (hkey : r.key = .axis a) (hjob : (s.before t).job (.axis a) = some j)
    (hclose : (s.before t).closesNow j.seg = false) (hbeaten : (s.before t).beaten h (.axis a) = false) :
    exec (.jobComplete t h) s = .next (ends s t ((s.before t).completeRun h r j)) := by
  show execJobComplete t h s = _
  rw [execJobComplete, does_eq, hrun]
  simp only [hrival, hkey, hjob, hclose, hbeaten, Bool.false_eq_true, if_false]

/-- The run of a network axis completes: its job has committed once. -/
theorem State.completeRun_spec {b : State} {h a : Nat} {r : HardRun} {j : Job} (hrun : (b.hammer h).run = some (.hard r))
    (hkey : r.key = .axis a) (hnet : a < 512) (hgroup : b.cgroupOf a = none) (hident : (b.axis a).ident = none)
    (hwas : (b.axis a).identWas = []) :
    let q := axisJob (b.lawIn a j) (b.axis a)
    let w := b.completeRun h r j
    (∀ e ∈ q.2.2, e.offPath) →
    w.axis a = (finishJob (b.recIn a j false) false none q.2.1 (q.1.reported j.input.srcM)).1 ∧ (∀ k, k ≠ a → w.axis k = b.axis k) ∧
      w.job (.axis a) = none ∧ (w.hammer h).run = none := by
  intro q w hevs
  obtain ⟨v, hv, hpool, hgone, hidle⟩ := b.completeRun_eq h r j hkey hnet hrun
  have hw : w = ((v.completeAxis a j).resyncSend j.seg).postReady := hv
  have hwrites : Writes (v.completeAxis a j) w :=
    hw ▸ (State.resyncSend_writes _ _).trans (State.postReady_writes _)
  have hq : axisJob (v.lawIn a j) (v.axis a) = q := by rw [hpool.lawIn, hpool.axis]
  obtain ⟨hself, hothers, hkept⟩ := State.completeAxis_single j (hpool.cgroupOf a ▸ hgroup) (hpool.axis a ▸ hident) (hpool.axis a ▸ hwas)
    (hq.symm ▸ hevs)
  rw [hq] at hself
  refine ⟨?_, fun k hk => ?_, ?_, ?_⟩
  · rw [hwrites.desk.axis, hself, hpool.recIn]
  · rw [hwrites.desk.axis, hothers k hk, hpool.axis]
  · rw [State.job, hwrites.desk.pool, hkept]
    exact hgone
  · rw [State.hammer, hwrites.desk.pool, hkept]
    exact hidle

/-! ## An abandoned run (R132, R135) -/

theorem execAbandonedRunStop_stops {s : State} {t h : Nat} {r : HardRun} (hrun : ((s.before t).hammer h).run = some (.hard r))
    (hrival : r.abandoned = true) :
    ∃ w, exec (.abandonedRunStop t h) s = .next (ends s t w) ∧ w = { s.before t with pool := w.pool } ∧
      w.pool.jobs = (s.before t).pool.jobs ∧
      w.hammer h = { (s.before t).hammer h with
        run := none, overrun := overrunAfter r (s.before t).core ((s.before t).hammer h).overrun false } ∧
      ∀ k, k ≠ h → w.hammer k = (s.before t).hammer k := by
  refine ⟨(s.before t).modHammer h fun m => { m with run := none, overrun := overrunAfter r (s.before t).core m.overrun false },
    (?_ : execAbandonedRunStop t h s = _), rfl, rfl, State.modHammer_hammer_same .., fun k hk => State.modHammer_hammer_ne _ _ _ hk⟩
  rw [execAbandonedRunStop, does_eq, hrun]
  simp only [hrival, if_true, State.endRun_hard false hrun]

theorem execAbandonedRunStop_none {s : State} {t h : Nat} {r : HardRun} (hrun : ((s.before t).hammer h).run = some (.hard r))
    (hrival : r.abandoned = false) : exec (.abandonedRunStop t h) s = .next (ends s t (s.before t)) := by
  show execAbandonedRunStop t h s = _
  rw [execAbandonedRunStop, does_eq, hrun]
  simp only [hrival, Bool.false_eq_true, if_false]

/-! ## The job watchdog (01 R17) -/

theorem execJobWatchdog_early {s : State} {t h : Nat} {r : HardRun} (hrun : ((s.before t).hammer h).run = some (.hard r))
    (hearly : (s.before t).core - r.since < 4 * r.len) : exec (.jobWatchdog t h) s = .next (ends s t (s.before t)) := by
  have hspent : r.spent (s.before t).core = false := by simp [HardRun.spent, hearly]
  show execJobWatchdog t h s = _
  rw [execJobWatchdog, does_eq, hrun]
  simp only [hspent, Bool.not_false, if_true]

theorem execJobWatchdog_last {s : State} {t h a : Nat} {r : HardRun} {j : Job} (hrun : ((s.before t).hammer h).run = some (.hard r))
    (hrival : r.abandoned = false) (hspent : 4 * r.len ≤ (s.before t).core - r.since) (hkey : r.key = .axis a)
    (hjob : (s.before t).job (.axis a) = some j) (hwaits : j.waits = false) (hruns : (s.before t).runsOf (.axis a) = [h])
    (hplaces : (s.before t).resvOf (.axis a) = []) (hyields : (s.before t).yields h = false) (htimes : (s.before t).timesOutNow h = false) :
    exec (.jobWatchdog t h) s = .next (ends s t (((((s.before t).endRun h false).abortJob (srcHammer h) j
      ((s.before t).core - r.since)).resyncSend j.seg).postReady)) := by
  have hdue : r.spent (s.before t).core = true := by simp [HardRun.spent, hrival, hspent]
  have hcore : ((s.before t).endRun h false).core = (s.before t).core := (State.endRun_poolOnly _ h false).core
  show execJobWatchdog t h s = _
  rw [execJobWatchdog, does_eq, hrun]
  simp only [hdue, hkey, hjob, hwaits, hruns, hplaces, hyields, htimes, hcore, Bool.not_true, Bool.not_false, Bool.or_self,
    Bool.false_eq_true, if_false, decide_true, List.isEmpty_nil, Bool.and_self, if_true]

theorem State.deferEffects_records (s : State) (a : Nat) (j : Job) : Records s (s.deferEffects a j) := by
  unfold State.deferEffects
  generalize s.nextCycle j.seg j.n j.m = next
  exact .of_asy rfl rfl rfl rfl

/-- The job of an axis alone is aborted: the mould builds its record. -/
theorem State.abortAxis_records {s : State} {a : Nat} (j : Job) (hgroup : s.cgroupOf a = none) (hident : (s.axis a).ident = none) :
    Records s (s.abortAxis a j) := by
  have hskip : s.identSkip a j false 0 = s := by simp only [State.identSkip, hident]
  unfold State.abortAxis
  rw [hskip]
  extract_lets deferred recorded
  have hrecorded : Records s recorded := (s.deferEffects_records a j).trans (deferred.recordAbort_records ..)
  have halone : recorded.cgroupOf a = none := by
    rw [State.cgroupOf, hrecorded.cgroups]
    exact hgroup
  clear_value recorded
  rw [halone]
  exact hrecorded

theorem State.abortJob_axis {s : State} {a : Nat} {j : Job} (src elapsed : Nat) (hkey : j.key = .axis a) (hgroup : s.cgroupOf a = none)
    (hident : (s.axis a).ident = none) :
    (s.abortJob src j elapsed).job (.axis a) = none ∧
      ∃ l m, s.asy.held <+: l ∧ l ++ [m] <+: (s.abortJob src j elapsed).asy.held ∧ m.src = src ∧ m.kind = 0x04 ∧ m.addr = a := by
  unfold State.abortJob
  extract_lets given dropped aborted
  have hpool : PoolOnly s dropped := (s.abandonRivals_abandons j.key).poolOnly.trans (State.modPool_poolOnly ..)
  have hgone : dropped.job (.axis a) = none := hkey ▸ given.dropJob_job_same j.key
  have haborted : Records dropped aborted := by
    dsimp only [aborted]
    rw [hkey]
    exact State.abortAxis_records j (hpool.cgroupOf a ▸ hgroup) (hpool.axis a ▸ hident)
  constructor
  · rw [State.job, (aborted.raiseNow_reacts ..).pool, haborted.pool]
    exact hgone
  · obtain ⟨m, l, hheld, hsrc, hkind, haddr⟩ := aborted.raiseNow_held src 0x04 j.key.code (leBytes 4 elapsed)
    refine ⟨aborted.asy.held, m, (hpool.grows.trans haborted.toGrows).held, ⟨l, ?_⟩, hsrc, hkind, haddr.trans (by rw [hkey]; rfl)⟩
    rw [hheld, List.append_assoc]
    rfl

/-- The watchdog of a job's last run: the job is gone, and its mark waits for release. -/
theorem execJobWatchdog_aborts {s : State} {t h a : Nat} {r : HardRun} {j : Job} (hrun : ((s.before t).hammer h).run = some (.hard r))
    (hrival : r.abandoned = false) (hspent : 4 * r.len ≤ (s.before t).core - r.since) (hkey : r.key = .axis a)
    (hjob : (s.before t).job (.axis a) = some j) (hwaits : j.waits = false) (hruns : (s.before t).runsOf (.axis a) = [h])
    (hplaces : (s.before t).resvOf (.axis a) = []) (hgroup : (s.before t).cgroupOf a = none) (hident : ((s.before t).axis a).ident = none)
    (hyields : (s.before t).yields h = false) (htimes : (s.before t).timesOutNow h = false) :
    ∃ w, exec (.jobWatchdog t h) s = .next (ends s t w) ∧ w.job (.axis a) = none ∧
      ∃ l m, w.asy.held = (s.before t).asy.held ++ l ∧ m ∈ l ∧ m.src = srcHammer h ∧ m.kind = 0x04 ∧ m.addr = a := by
  refine ⟨_, execJobWatchdog_last hrun hrival hspent hkey hjob hwaits hruns hplaces hyields htimes, ?_⟩
  generalize s.before t = b at hjob hgroup hident ⊢
  have hended : PoolOnly b (b.endRun h false) := b.endRun_poolOnly h false
  obtain ⟨hgone, -, m, ⟨l, rfl⟩, ⟨rest, hrest⟩, hsrc, hkind, haddr⟩ := State.abortJob_axis (s := b.endRun h false) (srcHammer h)
    (b.core - r.since) (State.job_key hjob) (hended.cgroupOf a ▸ hgroup) (hended.axis a ▸ hident)
  have hwrites := (State.resyncSend_writes ((b.endRun h false).abortJob (srcHammer h) j (b.core - r.since)) j.seg).trans
    (State.postReady_writes _)
  constructor
  · rw [State.job, hwrites.desk.pool]
    exact hgone
  · refine ⟨l ++ m :: rest, m, ?_, List.mem_append_right _ List.mem_cons_self, hsrc, hkind, haddr⟩
    rw [hwrites.held, ← hrest, hended.asy]
    simp only [List.append_assoc, List.singleton_append]

end Sys2Proof.Machine
end

section
/-! O37: fabric timeouts (01 R30). -/

namespace Sys2Proof.Machine

/-! ## The first timeout of a job -/

theorem State.dropRun_places (s : State) (h : Nat) (r : HardRun) : Places s (s.dropRun h r) := by
  have hended : Places s (s.endRun h false) := by
    unfold State.endRun
    split
    · exact s.modHammer_places h _
    · exact .refl s
  exact hended.trans (State.modPool_places _ _)

/-- A re-issue leaves the timeouts that a job has met. -/
theorem State.reissueAfterFault_timeouts (s : State) (k : JobKey) (orig since : Nat) (q : JobKey) :
    ((s.reissueAfterFault k orig since).job q).map Job.timeouts = (s.job q).map Job.timeouts := by
  unfold State.reissueAfterFault
  split
  · rfl
  · next j _ =>
    split
    · rfl
    · split
      · unfold State.issueCopy
        extract_lets barred counted
        rw [(counted.place_places k true orig).job_map q fun _ => rfl]
        exact s.modJob_job_map k q (fun _ => rfl) fun _ => rfl
      · exact (s.place_places k false orig).job_map q fun _ => rfl

/-- The valley whose fabric a hard run's transaction uses. -/
theorem State.fabricValley_hard {s : State} {h : Nat} {r : HardRun} {j : Job} (hrun : (s.hammer h).run = some (.hard r))
    (hjob : s.job r.key = some j) : s.fabricValley h = valleyOfSeg j.seg := by
  simp only [State.fabricValley, hrun, hjob]

theorem execFabricTimeout_first {s : State} {t h : Nat} {r : HardRun} {j : Job} (hrun : ((s.before t).hammer h).run = some (.hard r))
    (hjob : (s.before t).job r.key = some j) (hfirst : j.timeouts = 0) :
    ∃ w, exec (.fabricTimeout t h) s = .next (ends s t w) ∧ (w.job r.key).map Job.timeouts = some 1 ∧
      ∃ m l, w.asy.held = (s.before t).asy.held ++ m :: l ∧ m.src = srcValley (valleyOfSeg j.seg) ∧ m.kind = 0x06 ∧ m.react = 1 := by
  have hvalley := State.fabricValley_hard hrun hjob
  let marked := (s.before t).raiseDone (srcValley (valleyOfSeg j.seg)) 0x06 r.key.num 1 (leBytes 4 1600)
  let counted := marked.modJob r.key fun j => { j with timeouts := 1 }
  refine ⟨(counted.dropRun h r).reissueAfterFault r.key h r.since, (?_ : execFabricTimeout t h s = _), ?_, ?_⟩
  · rw [execFabricTimeout, does_eq, hvalley, hrun]
    simp only [hjob, hfirst, if_true, marked, counted]
  · have hcounted : counted.job r.key = some { j with timeouts := 1 } := State.modJob_job_same (s := marked) hjob _
    rw [State.reissueAfterFault_timeouts, (counted.dropRun_places h r).job_map _ fun _ => rfl, hcounted]
    rfl
  · have hrest : PoolOnly marked ((counted.dropRun h r).reissueAfterFault r.key h r.since) :=
      .trans ⟨_, rfl⟩ ((counted.dropRun_places h r).poolOnly.trans (State.reissueAfterFault_poolOnly ..))
    obtain ⟨m, l, hheld, hsrc, hkind, -, hreact⟩ := hrest.grows.raiseDone_held
    exact ⟨m, l, hheld, hsrc, hkind, hreact⟩

/-! ## The second -/

theorem execFabricTimeout_second {s : State} {t h : Nat} {r : HardRun} {j : Job} (hrun : ((s.before t).hammer h).run = some (.hard r))
    (hjob : (s.before t).job r.key = some j) (hagain : j.timeouts ≠ 0) :
    ∃ w, exec (.fabricTimeout t h) s = .next (ends s t w) ∧ w.fenced (srcValley (valleyOfSeg j.seg)) = true ∧
      ∃ m l, w.asy.held = (s.before t).asy.held ++ m :: l ∧ m.src = srcValley (valleyOfSeg j.seg) ∧ m.kind = 0x06 ∧ m.react = 4 := by
  have hvalley := State.fabricValley_hard hrun hjob
  let marked := (s.before t).raiseDone (srcValley (valleyOfSeg j.seg)) 0x06 r.key.num 4 (leBytes 4 1600)
  obtain ⟨hgrows, hfenced⟩ := marked.fenceValley_grows (valleyOfSeg j.seg) 10 0x06
  refine ⟨marked.fenceValley (valleyOfSeg j.seg) 10 0x06, (?_ : execFabricTimeout t h s = _), hfenced, ?_⟩
  · rw [execFabricTimeout, does_eq, hvalley, hrun]
    simp only [hjob, if_neg hagain, marked]
  · obtain ⟨m, l, hheld, hsrc, hkind, -, hreact⟩ := hgrows.raiseDone_held
    exact ⟨m, l, hheld, hsrc, hkind, hreact⟩

/-- Settles O37: the commit by what the law makes of the axis, and each run that ends without one by what it leaves. -/
theorem runsCommitOrEndWithout : Obligations.RunsCommitOrEndWithout := by
  unfold Obligations.RunsCommitOrEndWithout
  refine ⟨fun s t h a r j hrun hrival hkey hnet hjob hgroup hident hwas _ hclose hbeaten hevs => ?commits,
    fun s t h r hrun => ⟨execAbandonedRunStop_stops hrun, execAbandonedRunStop_none hrun, execJobWatchdog_early hrun,
      fun j a hrival hspent hkey _ hjob hwaits hruns hplaces hgroup hident _ hyields htimes =>
        execJobWatchdog_aborts hrun hrival hspent hkey hjob hwaits hruns hplaces hgroup hident hyields htimes,
      fun j hjob => execFabricTimeout_first hrun hjob, fun j hjob hagain _ => execFabricTimeout_second hrun hjob hagain⟩⟩
  case commits =>
    refine ⟨_, execJobComplete_commits hrun hrival hkey hjob hclose hbeaten,
      State.completeRun_spec hrun hkey hnet hgroup hident hwas fun e he => ?_⟩
    have hoff := hevs e he
    cases e <;> exact hoff

end Sys2Proof.Machine
end

section
/-! O40: the torque stage S7 (04 R182 to R184): what it makes of u6, what it flags, and that a closed cycle keeps it as τ_prev. -/

namespace Sys2Proof.Machine

/-! ## Clamps and saturation (R158, R271) -/

theorem clampI_mem {lo hi : Int} (h : lo ≤ hi) (x : Int) : lo ≤ clampI x lo hi ∧ clampI x lo hi ≤ hi := by
  unfold clampI
  omega

theorem clampI_of_mem {x lo hi : Int} (hlo : lo ≤ x) (hhi : x ≤ hi) : clampI x lo hi = x := by
  unfold clampI
  omega

/-- A clamp keeps a value in an interval that also holds some value between the bounds of the clamp. -/
theorem clampI_mem_of_mem {x y lo hi d e : Int} (hx : lo ≤ x ∧ x ≤ hi) (hy : lo ≤ y ∧ y ≤ hi) (hd : d ≤ y) (he : y ≤ e) :
    lo ≤ clampI x d e ∧ clampI x d e ≤ hi := by
  unfold clampI
  omega

/-- A saturated value fits its width. -/
theorem sat_sat (w : Nat) (x : Int) : (sat w (sat w x).v).v = (sat w x).v := by
  have hpos : (1 : Int) ≤ (2 ^ (w - 1) : Nat) := by exact_mod_cast Nat.one_le_two_pow
  obtain ⟨hlo, hhi⟩ := clampI_mem (lo := -(2 ^ (w - 1) : Nat)) (hi := (2 ^ (w - 1) : Nat) - 1) (by omega) x
  exact clampI_of_mem hlo hhi

/-! ## Flags (R185) -/

@[simp] theorem flagIf_false (f : BitVec 8) (i : Nat) : flagIf f false i = f := rfl

theorem flagIf_flagIf (f : BitVec 8) (c d : Bool) (i : Nat) : flagIf (flagIf f c i) d i = flagIf f (c || d) i := by
  cases c with
  | false => rw [flagIf_false, Bool.false_or]
  | true =>
    cases d with
    | false => rw [flagIf_false, Bool.or_false]
    | true => simp only [flagIf, setFlag, if_true, Bool.or_true, BitVec.or_assoc, BitVec.or_self]

theorem flagIf_getLsbD (f : BitVec 8) (c : Bool) (i : Nat) {j : Nat} (hj : j < 8) :
    (flagIf f c i).getLsbD j = (f.getLsbD j || (c && decide (i = j))) := by
  cases c with
  | false => rw [flagIf_false, Bool.false_and, Bool.or_false]
  | true =>
    rw [flagIf, if_pos rfl, setFlag, BitVec.getLsbD_or, BitVec.getLsbD_ofNat, Nat.testBit_two_pow, decide_eq_true hj, Bool.true_and]

@[simp] theorem Axis.flag_false (ax : Axis) (i : Nat) : ax.flag false i = ax := rfl

theorem Axis.flag_flag (ax : Axis) (c d : Bool) (i : Nat) : (ax.flag c i).flag d i = ax.flag (c || d) i := by
  simp only [Axis.flag, flagIf_flagIf]

/-! ## S7 (R182) -/

/-- What the torque limits make of u6. -/
def Axis.torqueClamp (ax : Axis) (u6 : Int) : Int := clampI u6 ax.co.tlimNeg ax.co.tlimPos

/-- What S7 makes of u6: within the torque limits, and with DTLIM near the last value. -/
def Axis.torque (ax : Axis) (u6 : Int) : Int :=
  if ax.co.dtlim = 0 then ax.torqueClamp u6
  else clampI (ax.torqueClamp u6) (ax.lp.tauPrev - ax.co.dtlim) (ax.lp.tauPrev + ax.co.dtlim)

/-- A clamp of S7 limits u6. -/
def Axis.torqueLimited (ax : Axis) (u6 : Int) : Bool :=
  decide (ax.torqueClamp u6 ≠ u6) || decide (ax.torque u6 ≠ ax.torqueClamp u6)

theorem Axis.torqueLimited_iff {ax : Axis} {u6 : Int} :
    ax.torqueLimited u6 = true ↔ ax.torqueClamp u6 ≠ u6 ∨ ax.torque u6 ≠ ax.torqueClamp u6 := by
  simp only [Axis.torqueLimited, Bool.or_eq_true, decide_eq_true_iff]

/-- S7 answers its value and whether a clamp limited it, and flags that. -/
theorem s7Clamp_eq (ax : Axis) (u6 : Int) :
    s7Clamp ax u6 = (ax.torque u6, ax.flag (ax.torqueLimited u6) fSatOut, ax.torqueLimited u6) := by
  unfold s7Clamp
  extract_lets a b
  have ha : a = (ax.torqueClamp u6, ax.flag (decide (ax.torqueClamp u6 ≠ u6)) fSatOut, decide (ax.torqueClamp u6 ≠ u6)) := rfl
  split
  · next hd =>
    have ht : ax.torque u6 = ax.torqueClamp u6 := if_pos hd
    rw [ha, Axis.torqueLimited, ht, decide_eq_false (fun hne => hne rfl : ¬ ax.torqueClamp u6 ≠ ax.torqueClamp u6), Bool.or_false]
  · next hd =>
    have ht : ax.torque u6 = clampI (ax.torqueClamp u6) (ax.lp.tauPrev - ax.co.dtlim) (ax.lp.tauPrev + ax.co.dtlim) := if_neg hd
    have hb : b = (ax.torque u6, a.2.1.flag (decide (ax.torque u6 ≠ ax.torqueClamp u6)) fSatOut,
        decide (ax.torque u6 ≠ ax.torqueClamp u6)) := by
      rw [ht]
      rfl
    simp only [hb, ha, Axis.flag_flag, Axis.torqueLimited]

/-- Without DTLIM the value keeps to the torque limits. -/
theorem Axis.torque_mem {ax : Axis} (hlim : ax.co.tlimNeg ≤ ax.co.tlimPos) (hd : ax.co.dtlim = 0) (u6 : Int) :
    ax.co.tlimNeg ≤ ax.torque u6 ∧ ax.torque u6 ≤ ax.co.tlimPos := by
  rw [Axis.torque, if_pos hd]
  exact clampI_mem hlim u6

/-- With DTLIM the value differs from the last by DTLIM at most. -/
theorem Axis.torque_near {ax : Axis} (hd : 0 < ax.co.dtlim) (u6 : Int) :
    ax.lp.tauPrev - ax.co.dtlim ≤ ax.torque u6 ∧ ax.torque u6 ≤ ax.lp.tauPrev + ax.co.dtlim := by
  rw [Axis.torque, if_neg (by omega)]
  exact clampI_mem (by omega) _

/-- With DTLIM too the value keeps to the torque limits, where the last one did. -/
theorem Axis.torque_mem_of_prev {ax : Axis} (hlim : ax.co.tlimNeg ≤ ax.co.tlimPos) (hd : 0 < ax.co.dtlim)
    (hneg : ax.co.tlimNeg ≤ ax.lp.tauPrev) (hpos : ax.lp.tauPrev ≤ ax.co.tlimPos) (u6 : Int) :
    ax.co.tlimNeg ≤ ax.torque u6 ∧ ax.torque u6 ≤ ax.co.tlimPos := by
  rw [Axis.torque, if_neg (by omega)]
  exact clampI_mem_of_mem (clampI_mem hlim u6) ⟨hneg, hpos⟩ (by omega) (by omega)

/-! ## The end of a closed job (R180 to R184) -/

/-- `w` is what a closed cycle of `b` commits: its torque is what S7 makes of some u6, and what S7 rests on otherwise stays. -/
structure Axis.Commits (b w : Axis) : Prop where
  torque : ∃ u6, w.lp.tauPrev = b.torque u6
  co : w.co = b.co
  mo : w.mo = b.mo
  fb : w.fb = b.fb
  set : w.set = b.set

/-- In every closed cycle, of a DRV axis too, whatever is added to the torque before S7. -/
theorem finishJob_commits (r : RecIn) (velocity : Bool) (c : Option Int) {l : Left} (ax : Axis) (hclosed : l.opened = false) :
    ax.Commits (finishJob r velocity c l ax).1 := by
  unfold finishJob
  extract_lets enable wrap cmd lnO isDrv u s6 vff coupled k0 ex u6 a clamped u7 rsp ident tq vw driven cmd' lpD lnD done
  have ha : a = (ax.torque u6, coupled.flag (ax.torqueLimited u6) fSatOut, ax.torqueLimited u6) := s7Clamp_eq coupled u6
  have hclamped : clamped = coupled.flag (ax.torqueLimited u6) fSatOut := congrArg (·.2.1) ha
  have hdriven : ∃ hit, driven = clamped.flag hit fSatOut := by
    cases hdrv : isDrv
    · exact ⟨false, by simp only [driven, hdrv, Bool.false_eq_true, if_false, Axis.flag_false]⟩
    · exact ⟨vw.sat, by simp only [driven, hdrv, if_true]⟩
  obtain ⟨hit, hdriven⟩ := hdriven
  rw [if_neg (hclosed ▸ Bool.false_ne_true)]
  refine ⟨⟨u6, congrArg (·.1) ha⟩, ?_, ?_, ?_, ?_⟩ <;> simp only [wrap, done, hdriven, hclamped] <;> rfl

/-- In a closed cycle of an axis that is neither DRV nor identified nor coupled in velocity: S7 has the sum of S5 and the coupling
term, saturated; SAT_OUT says whether it limited it, and the record carries what it made of it. -/
theorem finishJob_torque (r : RecIn) (c : Option Int) {l : Left} {ax : Axis} (hclosed : l.opened = false) (hkind : ax.set.kind ≠ .drv)
    (hident : ax.ident = none) :
    let u6 := (sat 32 (l.u5 + c.getD 0)).v
    let y := finishJob r false c l ax
    y.1.lp.tauPrev = ax.torque u6 ∧
      y.1.lp.flags.getLsbD fSatOut = (ax.lp.flags.getLsbD fSatOut || ax.torqueLimited u6) ∧
      (r.estop = false → (y.2.1.drop 2).take 2 = leInt 2 (narrow 16 16 (ax.torque u6)).v) := by
  intro v
  unfold finishJob
  extract_lets enable wrap cmd lnO isDrv u s6 vff coupled k0 ex u6 a clamped u7 rsp ident tq vw driven cmd' lpD lnD done y
  have hdrv : isDrv = false := decide_eq_false hkind
  have hex : ex.1 = 0 := by simp only [ex, show coupled.ident = none from hident]
  have hs6 : s6.v = v := by
    cases c <;> simp only [s6, u, hdrv, Bool.false_eq_true, if_false] <;> rfl
  have hu6 : u6 = v := by simp only [u6, hex, hs6, Int.add_zero, v, sat_sat]
  have ha : a = (ax.torque v, coupled.flag (ax.torqueLimited v) fSatOut, ax.torqueLimited v) := hu6 ▸ s7Clamp_eq coupled u6
  have hu7 : u7 = ax.torque v := congrArg (·.1) ha
  have hdriven : driven = coupled.flag (ax.torqueLimited v) fSatOut := by
    simp only [driven, hdrv, Bool.false_eq_true, if_false, clamped, ha]
  have hy : y = wrap done cmd' tq [] := if_neg (hclosed ▸ Bool.false_ne_true)
  refine ⟨by rw [hy]; exact hu7, ?_, fun hestop => ?_⟩
  · rw [hy]
    simp only [wrap, done, lpD, hdriven, coupled, Axis.flag]
    rw [flagIf_getLsbD _ _ _ (by decide), flagIf_getLsbD _ _ _ (by decide), decide_eq_true (rfl : fSatOut = fSatOut),
      decide_eq_false (by decide : fSatCoup ≠ fSatOut), Bool.and_false, Bool.or_false, Bool.and_true]
  · rw [hy]
    simp only [wrap, hestop, cmd', hdrv, Bool.false_eq_true, if_false, tq, hu7]
    rfl

/-- Settles O40: the bounds from what S7 makes of any u6, the equations of a torque axis from what it makes of the sum of S6. -/
theorem theTorqueKeepsToItsLimits : Obligations.TheTorqueKeepsToItsLimits := by
  unfold Obligations.TheTorqueKeepsToItsLimits
  intro r velocity c l ax hclosed hlim y
  obtain ⟨⟨v, htorque⟩, hco, hmo, hfb, hset⟩ := finishJob_commits r velocity c ax hclosed
  refine ⟨fun hd => ?_, fun hd => ⟨?_, ?_, fun hneg hpos => ?_⟩, hco, hmo, hfb, hset, ?_⟩
  · exact htorque ▸ Axis.torque_mem hlim hd v
  · exact htorque ▸ (Axis.torque_near hd v).1
  · exact htorque ▸ (Axis.torque_near hd v).2
  · exact htorque ▸ Axis.torque_mem_of_prev hlim hd hneg hpos v
  · rintro hkind rfl hident u6 a u7
    obtain ⟨hvalue, hflag, hrecord⟩ := finishJob_torque r c hclosed hkind hident
    refine ⟨hvalue, fun hlimits => ?_, fun hsame hstays => ?_, hrecord⟩
    · rw [hflag, Axis.torqueLimited_iff.mpr hlimits, Bool.or_true]
    · have hmiss : ax.torqueLimited u6 ≠ true := fun h => (Axis.torqueLimited_iff.mp h).elim (· hsame) (· hstays)
      rw [hflag, Bool.eq_false_iff.mpr hmiss, Bool.or_false]

end Sys2Proof.Machine
end

section
/-! O26: what a descriptor that changes its axis leaves, and SETC, LOADSET and SWAPSET (04 R198 to R201, R331). -/

namespace Sys2Proof.Machine

/-! ## The effect of a descriptor on its axis -/

/-- Nothing stops the segment of axis `a`. -/
def State.Unstopped (s : State) (a : Nat) : Prop := ∀ k, s.segOf a = some k → s.stopActs k = false

/-- No admission is asked of a change of axis `a`'s load: the device follows, or the axis is of no segment (02 R81, 15 R596). -/
def State.Unasked (s : State) (a : Nat) : Prop := s.tw.role = .follower ∨ s.segOf a = none

theorem State.Unstopped.taken {s : State} {h : DHdr} (hs : s.Unstopped h.tgt) (op : DOp) :
    (s.cmdTaken h op).Unstopped (s.cmdEntry h op).tgt := hs

theorem State.Unasked.taken {s : State} {h : DHdr} (hs : s.Unasked h.tgt) (op : DOp) :
    (s.cmdTaken h op).Unasked (s.cmdEntry h op).tgt := hs

/-- The effect of a descriptor on an axis whose segment is not stopped is its own. -/
theorem State.axisEffect_of_unstopped {s : State} {e : Entry} (h : s.Unstopped e.tgt) (f : State → State) : s.axisEffect e f = f s := by
  unfold State.axisEffect State.confEffect
  extract_lets stopped
  have hgoes : stopped = false := by
    dsimp only [stopped]
    split
    · next k hk => exact h k hk
    · rfl
  rw [hgoes, if_neg Bool.false_ne_true]

/-- A change for which no admission is asked is made. -/
theorem State.admitted_of_unasked {s : State} {e : Entry} (h : s.Unasked e.tgt) (w : State) : s.admitted e (s.segOf e.tgt) w = w := by
  unfold State.admitted
  split
  · next k hk => exact if_pos (.inl (h.resolve_right fun hnone => Option.some_ne_none k (hk.symm.trans hnone)))
  · rfl

/-- An axis that takes a change as its descriptor ends: no other axis changes, and the axis's list of descriptors that end with
the cycle alone differs from what the change makes. -/
theorem State.modAxis_doneOn_posted (s : State) (h : DHdr) (op : DOp) (f : Axis → Axis) :
    let w := (((s.cmdTaken h op).modAxis h.tgt f).doneOn (s.cmdCtx h op) (s.cmdEntry h op) h.tgt).postReady
    OnAxis h.tgt s w ∧ w.axis h.tgt = { f (s.axis h.tgt) with ends := (w.axis h.tgt).ends } := by
  refine ⟨((OnAxis.of_modAxis _ _ _).trans (State.doneOn_OnAxis _ _ _ _)).posted, ?_⟩
  rw [State.postReady_axis, State.doneOn_axis, State.modAxis_axis_same, State.cmdTaken_axis]

/-- A descriptor that is turned away leaves every axis as it is. -/
theorem State.reject_posted (s : State) (h : DHdr) (op : DOp) (status : Nat) :
    let w := ((s.cmdTaken h op).reject (s.cmdEntry h op) status).postReady
    OnAxis h.tgt s w ∧ w.axis h.tgt = s.axis h.tgt := by
  have hdesk : Desk s ((s.cmdTaken h op).reject (s.cmdEntry h op) status).postReady :=
    ((State.cmdTaken_Desk s h op).trans (State.finish_Desk _ _ _ _)).trans (State.postReady_Desk _)
  exact ⟨.of_desk hdesk, hdesk.axis _⟩

/-- What the command of a descriptor leaves when its effect changes its axis and ends it. -/
theorem exec_modAxis {i : Instr} {s : State} {t : Nat} {h : DHdr} {op : DOp} {f : Ctx → Entry → State → State} {g : Axis → Axis}
    (hexec : exec i s = s.does t fun b => b.runDescr h op f) (ht : Taken (s.before t) h op)
    (heffect : let b := s.before t
      f (b.cmdCtx h op) (b.cmdEntry h op) (b.cmdTaken h op) =
        ((b.cmdTaken h op).modAxis h.tgt g).doneOn (b.cmdCtx h op) (b.cmdEntry h op) h.tgt) :
    ∃ w, exec i s = .next (ends s t w) ∧ OnAxis h.tgt (s.before t) w ∧
      w.axis h.tgt = { g ((s.before t).axis h.tgt) with ends := (w.axis h.tgt).ends } := by
  refine ⟨_, exec_taken hexec ht, ?_⟩
  rw [heffect]
  exact (s.before t).modAxis_doneOn_posted h op g

/-- What the command of a descriptor leaves when its effect is to be turned away. -/
theorem exec_reject {i : Instr} {s : State} {t : Nat} {h : DHdr} {op : DOp} {f : Ctx → Entry → State → State} {status : Nat}
    (hexec : exec i s = s.does t fun b => b.runDescr h op f) (ht : Taken (s.before t) h op)
    (heffect : let b := s.before t
      f (b.cmdCtx h op) (b.cmdEntry h op) (b.cmdTaken h op) = (b.cmdTaken h op).reject (b.cmdEntry h op) status) :
    ∃ w, exec i s = .next (ends s t w) ∧ OnAxis h.tgt (s.before t) w ∧ w.axis h.tgt = (s.before t).axis h.tgt := by
  refine ⟨_, exec_taken hexec ht, ?_⟩
  rw [heffect]
  exact (s.before t).reject_posted h op status

/-! ## Coefficients (R198 to R201) -/

theorem exec_setc (s : State) (t : Nat) (h : DHdr) (i ter : Nat) (v : Coef) :
    exec (.setc t h i ter v) s = s.does t fun b => b.runDescr h (.setc i ter v) (fxSetc i ter v) := rfl

theorem exec_loadset (s : State) (t : Nat) (h : DHdr) (first ter : Nat) (vals : List Coef) :
    exec (.loadset t h first ter vals) s = s.does t fun b => b.runDescr h (.loadset first ter vals) (fxLoadset first ter vals) := rfl

theorem exec_swapset (s : State) (t : Nat) (h : DHdr) (mask : Nat) :
    exec (.swapset t h mask) s = s.does t fun b => b.runDescr h (.swapset mask) (fxSwapset mask) := rfl

/-- The axis after SETC: a write of TQ_SET ends the zero torque of a stop outside FAULT (R331). -/
def Axis.setc (ax : Axis) (i ter : Nat) (v : Coef) : Axis :=
  { ax with co := ax.co.setc i ter v, mo := { ax.mo with zeroTq := ax.mo.zeroTq && !(decide (i = 0x37) && !ax.fault) } }

theorem fxSetc_of_unstopped {s : State} {e : Entry} (hgoes : s.Unstopped e.tgt) (i ter : Nat) (v : Coef) (c : Ctx) :
    fxSetc i ter v c e s = (s.modAxis e.tgt fun ax => ax.setc i ter v).doneOn c e e.tgt := State.axisEffect_of_unstopped hgoes _

theorem fxLoadset_of_unstopped {s : State} {e : Entry} (hgoes : s.Unstopped e.tgt) (first ter : Nat) (vals : List Coef) (c : Ctx) :
    fxLoadset first ter vals c e s = (s.modAxis e.tgt fun ax => { ax with co := ax.co.loadset first ter vals }).doneOn c e e.tgt :=
  State.axisEffect_of_unstopped hgoes _

theorem fxSwapset_of_unstopped {s : State} {e : Entry} (hgoes : s.Unstopped e.tgt) (mask : Nat) (c : Ctx) :
    fxSwapset mask c e s =
      (s.modAxis e.tgt fun ax => { ax with co := { ax.co with bank := ax.co.bank ^^^ (mask % 32) } }).doneOn c e e.tgt :=
  State.axisEffect_of_unstopped hgoes _

/-- SETC writes coefficients, and of the motion it ends the zero torque at most. -/
theorem execSetc_writes {s : State} {t : Nat} {h : DHdr} {i ter : Nat} {v : Coef} (hgoes : (s.before t).Unstopped h.tgt)
    (ht : Taken (s.before t) h (.setc i ter v)) :
    let x := (s.before t).axis h.tgt
    ∃ w, exec (.setc t h i ter v) s = .next (ends s t w) ∧ OnAxis h.tgt (s.before t) w ∧
      w.axis h.tgt = { x.setc i ter v with ends := (w.axis h.tgt).ends } :=
  exec_modAxis (exec_setc ..) ht (fxSetc_of_unstopped (hgoes.taken _) ..)

/-- Settles O26: each of the three by the change it makes of its axis. -/
theorem coefficientsAreWritten : Obligations.CoefficientsAreWritten := by
  unfold Obligations.CoefficientsAreWritten
  intro s t h b x hstops
  have hgoes : b.Unstopped h.tgt := hstops
  refine ⟨fun i ter v ht => ?setc, fun first ter vals ht => ?loadset, fun mask ht => ?swapset⟩
  case setc =>
    obtain ⟨w, hw, hframe, haxis⟩ := execSetc_writes hgoes ht
    have hco : (w.axis h.tgt).co = x.co.setc i ter v := by rw [haxis]; rfl
    have hzero : (w.axis h.tgt).mo.zeroTq = (x.mo.zeroTq && !(decide (i = 0x37) && !x.fault)) := by rw [haxis]; rfl
    refine ⟨w, hw, hframe, hco, by rw [hco, hzero]; exact haxis, fun hi => ?_, fun hi hf => ?_⟩
    · rw [hzero, decide_eq_false hi, Bool.false_and, Bool.not_false, Bool.and_true]
    · rw [hzero, decide_eq_true hi, hf, Bool.not_false, Bool.true_and, Bool.not_true, Bool.and_false]
  case loadset => exact exec_modAxis (exec_loadset ..) ht (fxLoadset_of_unstopped (hgoes.taken _) ..)
  case swapset => exact exec_modAxis (exec_swapset ..) ht (fxSwapset_of_unstopped (hgoes.taken _) ..)

end Sys2Proof.Machine
end

section
/-! O27: TERRACE, FILTER, axis MODE and AXIS_CFG (04 R166, R176, R191, R196; 14 R566; R796). -/

namespace Sys2Proof.Machine

/-! ## The four commands -/

theorem exec_terrace (s : State) (t : Nat) (h : DHdr) (sel n base : Nat) (t1 t2 t3 hy : Int) :
    exec (.terrace t h sel n base t1 t2 t3 hy) s =
      s.does t fun b => b.runDescr h (.terrace sel n base t1 t2 t3 hy) (fxTerrace sel n base t1 t2 t3 hy) := rfl

theorem exec_filter (s : State) (t : Nat) (h : DHdr) (changed enable : Nat) :
    exec (.filter t h changed enable) s = s.does t fun b => b.runDescr h (.filter changed enable) (fxFilter changed enable) := rfl

theorem exec_axisCfg (s : State) (t : Nat) (h : DHdr) (cfg : AxisCfg) :
    exec (.axisCfg t h cfg) s = s.does t fun b => b.runDescr h (.axisCfg cfg) (fxAxisCfg cfg) := rfl

/-! ## TERRACE (R191, R196) -/

/-- The axis after TERRACE. -/
def Axis.terrace (ax : Axis) (sel n base : Nat) (t1 t2 t3 hy : Int) : Axis :=
  { ax with ter := { ax.ter with sel := sel, n := n, b := base, t1 := t1, t2 := t2, t3 := t3, h := hy } }

/-- A selector of the learning position without a learning master is turned away. -/
theorem fxTerrace_refused {s : State} {e : Entry} (hgoes : s.Unstopped e.tgt) (hmaster : (s.axis e.tgt).ln.master = none) (n base : Nat)
    (t1 t2 t3 hy : Int) (c : Ctx) : fxTerrace 2 n base t1 t2 t3 hy c e s = s.reject e stRejIncons :=
  (State.axisEffect_of_unstopped hgoes _).trans (if_pos ⟨rfl, by rw [hmaster]; rfl⟩)

theorem fxTerrace_taken {s : State} {e : Entry} {sel : Nat} (hgoes : s.Unstopped e.tgt) (hfree : s.Unasked e.tgt)
    (hmaster : ¬ (sel = 2 ∧ (s.axis e.tgt).ln.master = none)) (n base : Nat) (t1 t2 t3 hy : Int) (c : Ctx) :
    fxTerrace sel n base t1 t2 t3 hy c e s = (s.modAxis e.tgt fun ax => ax.terrace sel n base t1 t2 t3 hy).doneOn c e e.tgt := by
  rw [← Option.isNone_iff_eq_none] at hmaster
  exact (State.axisEffect_of_unstopped hgoes _).trans ((if_neg hmaster).trans (State.admitted_of_unasked hfree _))

/-! ## FILTER (R176) -/

/-- A DRV axis has no sections to switch on. -/
theorem fxFilter_refused {s : State} {e : Entry} {changed enable : Nat} (hgoes : s.Unstopped e.tgt)
    (hbad : (s.axis e.tgt).set.kind = .drv ∧ changed &&& enable &&& 0x1F ≠ 0) (c : Ctx) :
    fxFilter changed enable c e s = s.reject e stRejIncons :=
  (State.axisEffect_of_unstopped hgoes _).trans (if_pos hbad)

theorem fxFilter_taken {s : State} {e : Entry} {changed enable : Nat} (hgoes : s.Unstopped e.tgt) (hfree : s.Unasked e.tgt)
    (hok : ¬ ((s.axis e.tgt).set.kind = .drv ∧ changed &&& enable &&& 0x1F ≠ 0)) (c : Ctx) :
    fxFilter changed enable c e s = (s.modAxis e.tgt fun ax => ax.filter changed enable).doneOn c e e.tgt :=
  (State.axisEffect_of_unstopped hgoes _).trans ((if_neg hok).trans (State.admitted_of_unasked hfree _))

/-! ## MODE of an axis (R166) -/

theorem fxMode_axis {e : Entry} (code : Nat) (c : Ctx) (s : State) (h : e.tgt ≠ 0xFFFF) : fxMode code c e s = fxAxisMode code c e s :=
  if_neg h

theorem fxAxisMode_barred {s : State} {e : Entry} {code status : Nat} (hbar : s.axisModeBar e.tgt code = some status) (c : Ctx) :
    fxAxisMode code c e s = s.reject e status := by
  simp only [fxAxisMode, hbar]

theorem fxAxisMode_free {s : State} {e : Entry} {code : Nat} (hbar : s.axisModeBar e.tgt code = none) (c : Ctx) :
    fxAxisMode code c e s = (s.modAxis e.tgt fun ax => ax.setMode (AxisMode.ofCode code)).doneOn c e e.tgt := by
  simp only [fxAxisMode, hbar]

/-! ## AXIS_CFG (R566, R796) -/

theorem fxAxisCfg_refused {s : State} {e : Entry} (hgoes : s.Unstopped e.tgt) (hmode : (s.axis e.tgt).mode ≠ .disabled) (cfg : AxisCfg)
    (c : Ctx) : fxAxisCfg cfg c e s = s.reject e stRejMode :=
  (State.axisEffect_of_unstopped hgoes _).trans (if_pos hmode)

theorem fxAxisCfg_taken {s : State} {e : Entry} (hgoes : s.Unstopped e.tgt) (hfree : s.Unasked e.tgt)
    (hmode : (s.axis e.tgt).mode = .disabled) (cfg : AxisCfg) (c : Ctx) : fxAxisCfg cfg c e s = s.axisConfig c e cfg :=
  (State.axisEffect_of_unstopped hgoes _).trans ((if_neg (not_not_intro hmode)).trans (State.admitted_of_unasked hfree _))

/-- Off a group path AXIS_CFG makes of its axis the axis of its setting, whose motion is at its reset value at the position of its
feedback, but for a zero torque and the descriptors that end (R331, R796). -/
theorem State.axisConfig_spec {s : State} {e : Entry} (hpath : (s.axis e.tgt).onPath = none) (c : Ctx) (cfg : AxisCfg) :
    OnAxis e.tgt s (s.axisConfig c e cfg) ∧ ∃ ids l,
      (s.axisConfig c e cfg).axis e.tgt =
        { (s.axis e.tgt).config e.tgt cfg { p := up48 (s.axis e.tgt).fb.p, zeroTq := (s.axis e.tgt).mo.zeroTq, ending := ids } with
          ends := l } := by
  unfold State.axisConfig
  extract_lets a ax stopped swapped m configured
  have hstopped : stopped = s := by
    dsimp only [stopped, ax, a]
    rw [hpath]
  have hswapped : Desk s swapped := by
    rw [← hstopped]
    dsimp only [swapped]
    split
    · exact State.finish_Desk _ _ _ _
    · exact .refl _
  constructor
  · exact ((OnAxis.of_desk hswapped).trans (.of_modAxis ..)).trans ((State.endMotion_OnAxis ..).trans (State.doneOn_OnAxis ..))
  · rw [State.doneOn_axis, State.endMotion_axis, State.modAxis_axis_same]
    dsimp only [m, a]
    rw [hswapped.axis]
    exact ⟨((s.axis e.tgt).mo.afterConfig (s.axis e.tgt).fb.p).1.ending ++ _, _, rfl⟩

/-- AXIS_CFG of a DISABLED axis that runs on no path. -/
theorem execAxisCfg_configures {s : State} {t : Nat} {h : DHdr} {cfg : AxisCfg} (hgoes : (s.before t).Unstopped h.tgt)
    (hfree : (s.before t).Unasked h.tgt) (ht : Taken (s.before t) h (.axisCfg cfg)) (hpath : ((s.before t).axis h.tgt).onPath = none)
    (hmode : ((s.before t).axis h.tgt).mode = .disabled) :
    let x := (s.before t).axis h.tgt
    ∃ w ids l, exec (.axisCfg t h cfg) s = .next (ends s t w) ∧ OnAxis h.tgt (s.before t) w ∧
      w.axis h.tgt = { x.config h.tgt cfg { p := up48 x.fb.p, zeroTq := x.mo.zeroTq, ending := ids } with ends := l } := by
  obtain ⟨hframe, ids, l, haxis⟩ := State.axisConfig_spec (s := (s.before t).cmdTaken h (.axisCfg cfg))
    (e := (s.before t).cmdEntry h (.axisCfg cfg)) hpath ((s.before t).cmdCtx h (.axisCfg cfg)) cfg
  refine ⟨_, ids, l, exec_taken (exec_axisCfg ..) ht, ?_⟩
  rw [fxAxisCfg_taken (hgoes.taken _) (hfree.taken _) hmode]
  exact ⟨hframe.posted, (State.postReady_axis ..).trans haxis⟩

/-- Settles O27: each of the four by whether its axis takes it or turns it away. -/
theorem axesAreConfigured : Obligations.AxesAreConfigured := by
  unfold Obligations.AxesAreConfigured
  intro s t h b x hstops hload
  have hgoes : b.Unstopped h.tgt := hstops
  have hfree : b.Unasked h.tgt := hload
  refine ⟨fun sel n base t1 t2 t3 hy ht => ?terrace, fun changed enable ht => ?filter, fun code ht hdev => ?mode,
    fun cfg ht hpath => ?axisCfg⟩
  case terrace =>
    by_cases hbad : sel = 2 ∧ x.ln.master = none
    · obtain ⟨rfl, hmaster⟩ := hbad
      obtain ⟨w, hw, hframe, hkept⟩ := exec_reject (exec_terrace ..) ht (fxTerrace_refused (hgoes.taken _) hmaster ..)
      exact ⟨w, hw, hframe, fun _ _ => hkept, fun hok => absurd ⟨rfl, hmaster⟩ hok⟩
    · obtain ⟨w, hw, hframe, haxis⟩ := exec_modAxis (exec_terrace ..) ht (fxTerrace_taken (hgoes.taken _) (hfree.taken _) hbad ..)
      exact ⟨w, hw, hframe, fun hsel hmaster => absurd ⟨hsel, hmaster⟩ hbad, fun _ => haxis⟩
  case filter =>
    by_cases hbad : x.set.kind = .drv ∧ changed &&& enable &&& 0x1F ≠ 0
    · obtain ⟨w, hw, hframe, -⟩ := exec_reject (exec_filter ..) ht (fxFilter_refused (hgoes.taken _) hbad _)
      exact ⟨w, hw, hframe, fun hkind => absurd hbad.1 hkind⟩
    · obtain ⟨w, hw, hframe, haxis⟩ := exec_modAxis (exec_filter ..) ht (fxFilter_taken (hgoes.taken _) (hfree.taken _) hbad _)
      exact ⟨w, hw, hframe, fun _ => haxis⟩
  case mode =>
    cases hbar : b.axisModeBar h.tgt code with
    | some status =>
      obtain ⟨w, hw, hframe, hkept⟩ := exec_reject (exec_mode ..) ht ((fxMode_axis _ _ _ hdev).trans (fxAxisMode_barred hbar _))
      exact ⟨w, hw, hframe, nofun, fun _ => hkept⟩
    | none =>
      obtain ⟨w, hw, hframe, haxis⟩ := exec_modAxis (exec_mode ..) ht ((fxMode_axis _ _ _ hdev).trans (fxAxisMode_free hbar _))
      exact ⟨w, hw, hframe, fun _ => haxis, fun hsome => absurd rfl hsome⟩
  case axisCfg =>
    by_cases hmode : x.mode = .disabled
    · obtain ⟨w, ids, l, hw, hframe, haxis⟩ := execAxisCfg_configures hgoes hfree ht hpath hmode
      refine ⟨w, hw, hframe, fun hnot => absurd hmode hnot, fun _ => ?_⟩
      rw [haxis]
      exact ⟨rfl, rfl, rfl, rfl, rfl, rfl, rfl, rfl⟩
    · obtain ⟨w, hw, hframe, hkept⟩ := exec_reject (exec_axisCfg ..) ht (fxAxisCfg_refused (hgoes.taken _) hmode ..)
      exact ⟨w, hw, hframe, fun _ => hkept, fun hdisabled => absurd hdisabled hmode⟩

end Sys2Proof.Machine
end

section
/-! O6: what is read right after reset (04 R795; 10 R430; 15 R582; 17 R669; 20 R793; 19 Table 19.7). The tables are empty there, so
every entry reads as its reset value. -/

namespace Sys2Proof.Machine

/-! ## The tables right after reset -/

theorem SMap.get_nil {α : Type} (d : α) (k : Nat) : SMap.get d [] k = d := rfl

theorem State.reset_axis (a : Nat) : State.reset.axis a = Axis.default a := SMap.get_nil _ a

theorem State.reset_force (off : Nat) : State.reset.force off = Reg.resetValue off := SMap.get_nil _ off

theorem State.reset_stage (off : Nat) : State.reset.stage off = Reg.resetValue off :=
  (SMap.get_nil _ off).trans (State.reset_force off)

theorem State.reset_src (c : Nat) : State.reset.src c = {} := SMap.get_nil _ c

theorem State.reset_safOut (k : Nat) : State.reset.safOut k = {} := SMap.get_nil _ k

theorem State.reset_ch (chB : Bool) : State.reset.ch chB = {} := by cases chB <;> rfl

theorem State.reset_timely : Safety.Timely State.reset := ⟨.nil, fun _ hc => nomatch hc⟩

/-! ## The axes (R795) -/

/-- Two axes in the reset configuration differ in their stop policies at most. -/
theorem Axis.default_eq (a : Nat) :
    Axis.default a =
      { set := { faultPol := if 512 ≤ a ∧ a < 528 then 0 else 2, stopPol := if 512 ≤ a ∧ a < 528 then 0 else 1 } } := by
  unfold Axis.default
  split <;> rfl

/-- Settles O6: the fields by the reset state, the tables by their entries' reset values. -/
theorem resetIsAsSpecified : Obligations.ResetIsAsSpecified := by
  unfold Obligations.ResetIsAsSpecified
  refine ⟨rfl, rfl, rfl, State.reset_timely, rfl, fun off => ⟨State.reset_force off, State.reset_stage off⟩, fun src => ?fenced, rfl,
    fun a => ?axis, fun k => ?output, fun chB => ?channel, rfl, rfl, rfl⟩
  case fenced => rw [State.fenced, State.reset_src]
  case axis =>
    rw [State.reset_axis, Axis.default_eq]
    exact ⟨rfl, rfl, rfl, rfl, rfl, rfl, rfl, rfl, rfl, rfl⟩
  case output => rw [State.reset_safOut]
  case channel => rw [State.reset_ch]

end Sys2Proof.Machine
end

section
/-! O28: LEARN, RESAMPLE, IDENT and CAM_LOAD (05 R216, R227, R229, R244, R253; 07 R318). -/

namespace Sys2Proof.Machine

/-! ## The four commands -/

theorem exec_learn (s : State) (t : Nat) (h : DHdr) (f : LearnFn) :
    exec (.learn t h f) s = s.does t fun b => b.runDescr h (.learn f) (fxLearn f) := rfl

theorem exec_resample (s : State) (t : Nat) (h : DHdr) (log2n tag : Nat) :
    exec (.resample t h log2n tag) s = s.does t fun b => b.runDescr h (.resample log2n tag) (fxResample log2n tag) := rfl

theorem exec_ident (s : State) (t : Nat) (h : DHdr) (f : IdentFn) :
    exec (.ident t h f) s = s.does t fun b => b.runDescr h (.ident f) (fxIdent f) := rfl

theorem exec_camLoad (s : State) (t : Nat) (h : DHdr) (table k : Nat) (sp rise : Int) (y : List Int) :
    exec (.camLoad t h table k sp rise y) s =
      s.does t fun b => b.runDescr h (.camLoad table k sp rise y) (fxCamLoad table k sp rise y) := rfl

/-- What the command of a descriptor leaves when its effect is to end it at once, with any status. -/
theorem exec_finish {i : Instr} {s : State} {t : Nat} {h : DHdr} {op : DOp} {f : Ctx → Entry → State → State} {id status : Nat}
    {r : List Byte} (hexec : exec i s = s.does t fun b => b.runDescr h op f) (ht : Taken (s.before t) h op)
    (heffect : let b := s.before t
      f (b.cmdCtx h op) (b.cmdEntry h op) (b.cmdTaken h op) = (b.cmdTaken h op).finish id status r) :
    ∃ w, exec i s = .next (ends s t w) ∧ Desk (s.before t) w := by
  refine ⟨_, exec_taken hexec ht, ?_⟩
  rw [heffect]
  exact ((State.cmdTaken_Desk _ _ _).trans (State.finish_Desk _ _ _ _)).trans (State.postReady_Desk _)

/-! ## LEARN (R216, R227) -/

/-- The axis after LEARN. -/
def Axis.learn (ax : Axis) (f : LearnFn) : Axis := { ax with ln := ax.ln.apply f }

theorem fxLearn_barred {s : State} {e : Entry} {f : LearnFn} {status off : Nat} (hgoes : s.Unstopped e.tgt)
    (hbar : s.learnBar e.tgt f = some (status, off)) (c : Ctx) : fxLearn f c e s = s.rejectAt e status off := by
  rw [fxLearn, State.axisEffect_of_unstopped hgoes]
  simp only [hbar]

theorem fxLearn_free {s : State} {e : Entry} {f : LearnFn} (hgoes : s.Unstopped e.tgt) (hbar : s.learnBar e.tgt f = none) (c : Ctx) :
    fxLearn f c e s = (s.modAxis e.tgt fun ax => ax.learn f).doneOn c e e.tgt := by
  rw [fxLearn, State.axisEffect_of_unstopped hgoes]
  simp only [hbar, Axis.learn]

/-! ## RESAMPLE (R229) -/

/-- The axis once a RESAMPLE waits on it. -/
def Axis.awaitSwap (ax : Axis) (r : Resample) : Axis := { ax with ln := { ax.ln with resample := some r } }

theorem State.issueSoft_poolOnly (s : State) (c : SoftClass) : PoolOnly s (s.issueSoft c) := by
  cases c <;> exact ⟨_, rfl⟩

/-- A RESAMPLE to another table length, with a swap cycle ahead and room in the valley, waits for that cycle and issues its job. -/
theorem fxResample_waits {s : State} {e : Entry} {c : Ctx} {log2n tag n : Nat} (hgoes : s.Unstopped e.tgt)
    (hlen : (s.axis e.tgt).ln.log2n ≠ log2n) (hnone : (s.axis e.tgt).ln.resample = none) (htag : tag ≠ tagOf c.n)
    (hswap : swapCycle c.n tag = some n) (hroom : (s.resampling (e.tgt / 128)).length < 4) :
    fxResample log2n tag c e s =
      (s.modAxis e.tgt fun ax => ax.awaitSwap { id := e.id, log2n := log2n, swapN := n }).issueSoft (.resample e.tgt) := by
  rw [fxResample, State.axisEffect_of_unstopped hgoes]
  simp only [hlen, hnone, htag, hswap, Nat.not_le.mpr hroom, Option.isSome_none, Bool.false_eq_true, if_false, Axis.awaitSwap]

theorem execResample_waits {s : State} {t : Nat} {h : DHdr} {log2n tag n : Nat} (hgoes : (s.before t).Unstopped h.tgt)
    (ht : Taken (s.before t) h (.resample log2n tag)) :
    let b := s.before t; let x := b.axis h.tgt; let c := b.cmdCtx h (.resample log2n tag)
    x.ln.log2n ≠ log2n → x.ln.resample = none → tag ≠ tagOf c.n → swapCycle c.n tag = some n → (b.resampling (h.tgt / 128)).length < 4 →
    ∃ w, exec (.resample t h log2n tag) s = .next (ends s t w) ∧
      w.axis h.tgt = x.awaitSwap { id := b.host.nextId, log2n := log2n, swapN := n } ∧ ∀ y, y ≠ h.tgt → w.axis y = b.axis y := by
  intro b x c hlen hnone htag hswap hroom
  refine ⟨_, exec_taken (exec_resample ..) ht, ?_⟩
  rw [fxResample_waits (hgoes.taken _) hlen hnone htag hswap hroom]
  refine ⟨?_, fun y hy => ?_⟩
  · exact (State.postReady_axis _ _).trans (((State.issueSoft_poolOnly _ _).axis _).trans (State.modAxis_axis_same _ _ _))
  · exact (State.postReady_axis _ _).trans (((State.issueSoft_poolOnly _ _).axis _).trans (State.modAxis_axis_ne _ _ _ hy))

/-! ## IDENT (R244, R253) -/

/-- The axis once an identification starts on it: one that was there joins those it has had. -/
def Axis.startIdent (ax : Axis) (i : Ident) : Axis := { ax with ident := some i, identWas := ax.ident.toList ++ ax.identWas }

/-- The identification of an IDENT START. -/
def Entry.identOf (e : Entry) (exc rsp m settle : Nat) (amp : Int) (w20 w24 : Nat) (emax : Int) : Ident :=
  { id := e.id, seq := e.seq, exc := exc, rsp := rsp, blocks := m, settle := settle, amp := amp, w20 := w20, w24 := w24, emax := emax }

theorem fxIdent_starts {s : State} {e : Entry} {exc rsp m settle : Nat} {amp : Int} {w20 w24 : Nat} {emax : Int}
    (hgoes : s.Unstopped e.tgt) (hbar : s.identBar e.tgt = none) (c : Ctx) :
    fxIdent (.start exc rsp m settle amp w20 w24 emax) c e s =
      s.modAxis e.tgt fun ax => ax.startIdent (e.identOf exc rsp m settle amp w20 w24 emax) := by
  rw [fxIdent, State.axisEffect_of_unstopped hgoes]
  simp only [hbar, Axis.startIdent, Entry.identOf]

/-- There is nothing to cancel on an axis without an identification. -/
theorem fxIdent_cancel_refused {s : State} {e : Entry} (hgoes : s.Unstopped e.tgt) (hnone : (s.axis e.tgt).ident = none) (c : Ctx) :
    fxIdent .cancel c e s = s.reject e stRejIncons := by
  rw [fxIdent, State.axisEffect_of_unstopped hgoes]
  simp only [hnone]

theorem execIdent_starts {s : State} {t : Nat} {h : DHdr} {exc rsp m settle : Nat} {amp : Int} {w20 w24 : Nat} {emax : Int}
    (hgoes : (s.before t).Unstopped h.tgt) :
    let b := s.before t; let f : IdentFn := .start exc rsp m settle amp w20 w24 emax
    Taken b h (.ident f) → b.identBar h.tgt = none → ∃ w, exec (.ident t h f) s = .next (ends s t w) ∧ OnAxis h.tgt b w ∧
      w.axis h.tgt = (b.axis h.tgt).startIdent ((b.cmdEntry h (.ident f)).identOf exc rsp m settle amp w20 w24 emax) := by
  intro b f ht hbar
  refine ⟨_, exec_taken (exec_ident ..) ht, ?_⟩
  rw [fxIdent_starts (hgoes.taken _) hbar]
  exact ⟨(OnAxis.of_modAxis _ _ _).posted, (State.postReady_axis _ _).trans (State.modAxis_axis_same _ _ _)⟩

/-! ## CAM_LOAD (07 R318) -/

/-- A table is put in the place of what the store held under its number. -/
def State.storeCam (s : State) (table : Nat) (x : Cam) : State :=
  { s with cams := SMap.insert (SMap.erase s.cams table) table x }

theorem State.storeCam_lookup (s : State) (table : Nat) (x : Cam) (j : Nat) :
    (s.storeCam table x).cams.lookup j = if j = table then some x else s.cams.lookup j := by
  have hgone : (SMap.erase s.cams table).lookup table = none := by rw [SMap.lookup_erase, if_pos rfl]
  refine (SMap.lookup_insert _ _ _ _ hgone).trans ?_
  rw [SMap.lookup_erase]
  split <;> rfl

theorem State.storeCam_taken_Desk (s : State) (h : DHdr) (op : DOp) (table : Nat) (x : Cam) :
    Desk (s.storeCam table x) ((s.cmdTaken h op).storeCam table x) := rfl

theorem fxCamLoad_stores {s : State} {table k : Nat} (hup : s.fenced (srcCode 4 0x003) = false)
    (hfree : ∀ e ∈ s.axes, e.2.mo.usesCam table = false) (hroom : s.camPoints table + k ≤ camStorePoints) (sp rise : Int) (y : List Int)
    (c : Ctx) (e : Entry) :
    fxCamLoad table k sp rise y c e s = (s.storeCam table { s := sp, rise := rise, y := y.take k }).finish e.id stDone (zeros 8) := by
  have hunused : (s.axes.any fun x => x.2.mo.usesCam table) = false :=
    List.any_eq_false.mpr fun x hx => Bool.eq_false_iff.mp (hfree x hx)
  simp only [fxCamLoad, hup, hunused, Nat.not_lt.mpr hroom, Bool.false_eq_true, false_and, if_false, State.storeCam]

theorem execCamLoad_stores {s : State} {t : Nat} {h : DHdr} {table k : Nat} {sp rise : Int} {y : List Int}
    (ht : Taken (s.before t) h (.camLoad table k sp rise y)) (hup : (s.before t).fenced (srcCode 4 0x003) = false)
    (hfree : ∀ e ∈ (s.before t).axes, e.2.mo.usesCam table = false) (hroom : (s.before t).camPoints table + k ≤ camStorePoints) :
    ∃ w, exec (.camLoad t h table k sp rise y) s = .next (ends s t w) ∧
      Desk ((s.before t).storeCam table { s := sp, rise := rise, y := y.take k }) w := by
  refine ⟨_, exec_taken (exec_camLoad ..) ht, ?_⟩
  rw [fxCamLoad_stores (s := (s.before t).cmdTaken h _) hup hfree hroom]
  exact ((State.storeCam_taken_Desk ..).trans (State.finish_Desk ..)).trans (State.postReady_Desk _)

/-- Settles O28: LEARN and IDENT by the change they make of their axis or by their rejection, RESAMPLE by what waits on its axis,
CAM_LOAD by what the store then holds. -/
theorem learningAndTablesAreLoaded : Obligations.LearningAndTablesAreLoaded := by
  unfold Obligations.LearningAndTablesAreLoaded
  intro s t h b x hstops
  have hgoes : b.Unstopped h.tgt := hstops
  refine ⟨fun f ht => ?learn, fun l tag n ht hlen hnone htag hswap hroom => ?resample, ?start,
    fun ht hnone => ?cancel, fun table k sp rise y ht hup hfree hroom => ?camLoad⟩
  case learn =>
    cases hbar : b.learnBar h.tgt f with
    | some r =>
      obtain ⟨w, hw, hdesk⟩ := exec_finish (exec_learn ..) ht (fxLearn_barred (hgoes.taken _) hbar _)
      exact ⟨w, hw, .of_desk hdesk, nofun, fun _ => hdesk.axis _⟩
    | none =>
      obtain ⟨w, hw, hframe, haxis⟩ := exec_modAxis (exec_learn ..) ht (fxLearn_free (hgoes.taken _) hbar _)
      exact ⟨w, hw, hframe, fun _ => haxis, fun hsome => absurd rfl hsome⟩
  case resample =>
    obtain ⟨w, hw, haxis, hothers⟩ := execResample_waits hgoes ht hlen hnone htag hswap hroom
    exact ⟨w, hw, congrArg (·.ln.resample) haxis, hothers⟩
  case start =>
    intro exc rsp m settle a w20 w24 emax f ht hbar
    obtain ⟨w, hw, hframe, haxis⟩ := execIdent_starts hgoes ht hbar
    exact ⟨w, _, hw, hframe, haxis, rfl, rfl, rfl, rfl⟩
  case cancel => exact exec_finish (exec_ident ..) ht (fxIdent_cancel_refused (hgoes.taken _) hnone _)
  case camLoad =>
    obtain ⟨w, hw, hdesk⟩ := execCamLoad_stores ht hup hfree hroom
    have hcams (j : Nat) := (congrArg (List.lookup j) hdesk.cams).trans (State.storeCam_lookup _ _ _ j)
    refine ⟨w, hw, ?_, (hcams table).trans (if_pos rfl), fun j hj => (hcams j).trans (if_neg hj)⟩
    rw [hdesk.cams]
    exact hdesk

end Sys2Proof.Machine
end

section
/-! O39: convergent rounding and saturation (06 R269), and the narrowed torque of the command records (04 R183). -/

namespace Sys2Proof.Machine

/-! ## Convergent rounding -/

/-- `q` is an integer nearest to the quotient of `x` and `d`, and an even one when two are as near. -/
structure NearestEven (x d q : Int) : Prop where
  above : 2 * (q * d - x) ≤ d
  below : 2 * (x - q * d) ≤ d
  tie : 2 * (q * d - x) = d ∨ 2 * (x - q * d) = d → q % 2 = 0

@[simp] theorem roundConv_zero (x : Int) : roundConv x 0 = x := rfl

/-- The floor of the quotient goes up by one where the dropped bits are past the half, or are the half and the floor is odd. -/
theorem roundConv_succ (x : Int) (k : Nat) :
    let q := x / 2 ^ (k + 1); let r := x - q * 2 ^ (k + 1)
    roundConv x (k + 1) = if 2 ^ k < r ∨ r = 2 ^ k ∧ q % 2 = 1 then q + 1 else q := by
  intro q r
  have hd : ((2 ^ (k + 1) : Nat) : Int) = 2 ^ (k + 1) := Int.natCast_pow 2 (k + 1)
  have hh : ((2 ^ (k + 1 - 1) : Nat) : Int) = 2 ^ k := Int.natCast_pow 2 k
  rw [roundConv, if_neg (Nat.succ_ne_zero k), hd, hh]
  simp only [Bool.or_eq_true, Bool.and_eq_true, decide_eq_true_eq, beq_iff_eq, gt_iff_lt, q, r]

theorem roundConv_nearestEven (x : Int) (k : Nat) : NearestEven x (2 ^ k) (roundConv x k) := by
  cases k with
  | zero => constructor <;> rw [roundConv_zero] <;> omega
  | succ k =>
    have hpos : (0 : Int) < 2 ^ (k + 1) := Int.pow_pos (by decide)
    have hhalf : (2 : Int) ^ (k + 1) = 2 ^ k * 2 := Int.pow_succ 2 k
    have hfloor : x / 2 ^ (k + 1) * 2 ^ (k + 1) ≤ x := Int.ediv_mul_le x (Int.ne_of_gt hpos)
    have hceil : x < (x / 2 ^ (k + 1) + 1) * 2 ^ (k + 1) := Int.lt_ediv_add_one_mul_self x hpos
    have hnext (q : Int) : (q + 1) * 2 ^ (k + 1) = q * 2 ^ (k + 1) + 2 ^ (k + 1) := by
      rw [Int.add_mul, Int.one_mul]
    rw [hnext] at hceil
    rw [roundConv_succ]
    split
    · constructor <;> rw [hnext] <;> omega
    · constructor <;> omega

/-! ## Saturation -/

theorem clampI_of_lt {x lo : Int} (h : x < lo) (hi : Int) : clampI x lo hi = lo := if_pos h

theorem clampI_of_gt {x lo hi : Int} (hlo : lo ≤ x) (h : hi < x) : clampI x lo hi = hi := by
  rw [clampI, if_neg (Int.not_lt.mpr hlo), if_pos h]

theorem satW_eq (w : Nat) (x : Int) : satW w x = clampI x (-2 ^ (w - 1)) (2 ^ (w - 1) - 1) := by
  rw [satW, Int.natCast_pow]
  rfl

theorem sat_mem (w : Nat) (x : Int) : -2 ^ (w - 1) ≤ (sat w x).v ∧ (sat w x).v ≤ 2 ^ (w - 1) - 1 := by
  have hpos : (0 : Int) < 2 ^ (w - 1) := Int.pow_pos (by decide)
  rw [sat, satW_eq]
  exact clampI_mem (by omega) x

/-- A saturation that answers `y` says whether it changed the value. -/
theorem sat_eq {w : Nat} {x y : Int} (h : clampI x (-2 ^ (w - 1)) (2 ^ (w - 1) - 1) = y) : sat w x = ⟨y, decide (y ≠ x), false⟩ := by
  rw [sat, satW_eq, h]

theorem sat_of_mem {w : Nat} {x : Int} (hlo : -2 ^ (w - 1) ≤ x) (hhi : x ≤ 2 ^ (w - 1) - 1) : sat w x = ⟨x, false, false⟩ := by
  rw [sat_eq (clampI_of_mem hlo hhi), decide_eq_false (not_not_intro rfl)]

theorem sat_of_lt {w : Nat} {x : Int} (h : x < -2 ^ (w - 1)) : sat w x = ⟨-2 ^ (w - 1), true, false⟩ := by
  rw [sat_eq (clampI_of_lt h _), decide_eq_true (Int.ne_of_gt h)]

theorem sat_of_gt {w : Nat} {x : Int} (h : 2 ^ (w - 1) - 1 < x) : sat w x = ⟨2 ^ (w - 1) - 1, true, false⟩ := by
  have hpos : (0 : Int) < 2 ^ (w - 1) := Int.pow_pos (by decide)
  rw [sat_eq (clampI_of_gt (by omega) h), decide_eq_true (Int.ne_of_lt h)]

/-! ## The narrowing at the end of a sum -/

/-- A sum is its accumulator narrowed by 31 bits to 32, with the frozen bit as its guard. -/
theorem sum32_eq (ts : List Int) :
    sum32 ts = { narrow 32 31 (ts.foldl Acc.add {}).v with guard := (ts.foldl Acc.add {}).frozen } := rfl

/-! ## The command records of a closed cycle (R183) -/

/-- The record of a closed cycle that leaves `ax`, with the feed-forward `vff` that a DRV axis sends. -/
def RecIn.closedRecord (r : RecIn) (l : Left) (ax : Axis) (vff : Int) : List Byte :=
  if ax.set.kind = .drv then
    cmdByte0 2 r.mute r.enable true :: leInt 1 (narrow 8 24 ax.lp.tauPrev).v ++ pWire l.pStar ax.set.fbFrac ++
      leInt 2 (vffWire vff ax.set.fbFrac ax.set.vffFrac).v
  else cmdByte0 1 r.mute r.enable true :: [0] ++ leInt 2 (narrow 16 16 ax.lp.tauPrev).v ++ leBytes 4 ax.co.auxOut

theorem RecIn.closedRecord_of_drv (r : RecIn) (l : Left) {ax : Axis} (vff : Int) (hkind : ax.set.kind = .drv) :
    ((r.closedRecord l ax vff).drop 1).take 1 = leInt 1 (narrow 8 24 ax.lp.tauPrev).v := by
  rw [closedRecord, if_pos hkind]
  rfl

theorem RecIn.closedRecord_of_not_drv (r : RecIn) (l : Left) {ax : Axis} (vff : Int) (hkind : ax.set.kind ≠ .drv) :
    ((r.closedRecord l ax vff).drop 2).take 2 = leInt 2 (narrow 16 16 ax.lp.tauPrev).v := by
  rw [closedRecord, if_neg hkind]
  rfl

theorem finishJob_record (velocity : Bool) (c : Option Int) {r : RecIn} {l : Left} (ax : Axis) (hclosed : l.opened = false)
    (hestop : r.estop = false) : let y := finishJob r velocity c l ax; ∃ vff, y.2.1 = r.closedRecord l y.1 vff := by
  unfold finishJob
  extract_lets enable wrap cmd lnO isDrv u s6 vff coupled k0 ex u6 a clamped u7 rsp ident tq vw driven cmd' lpD lnD done y
  have hy : y = wrap done cmd' tq [] := if_neg (hclosed ▸ Bool.false_ne_true)
  have hset : clamped.set = ax.set := congrArg (·.2.1.set) (s7Clamp_eq coupled u6)
  refine ⟨vff.v, ?_⟩
  rw [hy]
  by_cases hkind : ax.set.kind = .drv
  · have hdrv : isDrv = true := decide_eq_true hkind
    simp only [RecIn.closedRecord, wrap, hestop, cmd', vw, done, driven, hdrv, Axis.flag, hset, hkind,
      Bool.false_eq_true, if_false, if_true]
    rfl
  · have hdrv : isDrv = false := decide_eq_false hkind
    simp only [RecIn.closedRecord, wrap, hestop, cmd', done, driven, hdrv, hset, hkind, Bool.false_eq_true, if_false]
    rfl

/-- Settles O39: the narrowing by the saturation of a value in or out of the range and by the rounding that is nearest and even, the
sum as a narrowing, the torque of a command record by the record of its kind of axis. -/
theorem narrowingRoundsToEvenAndSaturates : Obligations.NarrowingRoundsToEvenAndSaturates := by
  unfold Obligations.NarrowingRoundsToEvenAndSaturates
  refine ⟨fun x w k _ => ?narrowing, fun ts => ?sum, fun r velocity c l ax hclosed hestop => ?record⟩
  case narrowing =>
    intro lo hi q r
    obtain ⟨habove, hbelow, htie⟩ := roundConv_nearestEven x k
    refine ⟨(sat_mem w q).1, (sat_mem w q).2, fun hlo hhi => ?_, fun hlt => ?_, fun hgt => ?_, habove, hbelow, fun h _ => htie h, ?_⟩
    · exact ⟨congrArg Res.v (sat_of_mem hlo hhi), congrArg Res.sat (sat_of_mem hlo hhi)⟩
    · exact ⟨congrArg Res.v (sat_of_lt hlt), congrArg Res.sat (sat_of_lt hlt)⟩
    · exact ⟨congrArg Res.v (sat_of_gt hgt), congrArg Res.sat (sat_of_gt hgt)⟩
    · rintro rfl
      exact roundConv_zero x
  case sum => exact sum32_eq ts ▸ ⟨rfl, rfl⟩
  case record =>
    intro y
    obtain ⟨vff, hrecord⟩ := finishJob_record velocity c ax hclosed hestop
    have hset : y.1.set = ax.set := (finishJob_commits r velocity c ax hclosed).set
    rw [hrecord, ← hset]
    exact ⟨r.closedRecord_of_not_drv l vff, r.closedRecord_of_drv l vff⟩

end Sys2Proof.Machine
end

section
/-! O22: the motion descriptors as commands (07 R284 to R338), and MOVE_ABS, MOVE_REL and JOG (R291, R293, R294, R299, R315). -/

namespace Sys2Proof.Machine

/-! ## The effect of a motion descriptor on its axis -/

/-- A motion descriptor that meets no bar has the effect of its opcode. -/
theorem State.motionEffect_of_free {s : State} {c : Ctx} {e : Entry} {k : MotionOp} (hfree : s.motionBar c e.tgt k = none)
    (f : State → State) : s.motionEffect c e k f = f s := by
  simp only [State.motionEffect, hfree]

/-- The bar of a descriptor is the same once its record is made. -/
theorem State.motionBar_taken {s : State} {h : DHdr} {op : DOp} {k : MotionOp}
    (hfree : s.motionBar (s.cmdCtx h op) h.tgt k = none) :
    (s.cmdTaken h op).motionBar (s.cmdCtx h op) (s.cmdEntry h op).tgt k = none := hfree

/-- What the command of a descriptor leaves when its effect touches its axis and the desk alone. -/
theorem exec_onAxis {i : Instr} {s v : State} {t : Nat} {h : DHdr} {op : DOp} {f : Ctx → Entry → State → State}
    (hexec : exec i s = s.does t fun b => b.runDescr h op f) (ht : Taken (s.before t) h op)
    (heffect : let b := s.before t; f (b.cmdCtx h op) (b.cmdEntry h op) (b.cmdTaken h op) = v)
    (hframe : OnAxis h.tgt ((s.before t).cmdTaken h op) v) :
    ∃ w, exec i s = .next (ends s t w) ∧ OnAxis h.tgt (s.before t) w ∧ w.axis h.tgt = v.axis h.tgt := by
  refine ⟨_, exec_taken hexec ht, ?_⟩
  rw [heffect]
  exact ⟨hframe.posted, State.postReady_axis _ _⟩

/-- The axis once a new source takes over from what drives it (R287, R294); `job` holds back what ends until the job's end. -/
def Axis.engaged (ax : Axis) (job : Bool) (f : Motion → Motion) (l : List (Nat × Nat)) : Axis :=
  { ax with mo := { f ax.mo.takeOver.1 with
      ending := (f ax.mo.takeOver.1).ending ++ if job then ax.mo.takeOver.2 ++ l else [] } }

theorem State.engage_axis_engaged (s : State) (c : Ctx) (a : Nat) (f : Motion → Motion) (l : List (Nat × Nat)) :
    (s.engage c a f l).axis a = (s.axis a).engaged c.job f l := State.engage_axis s c a f l

/-- A source that takes over lets p*, v* and a* go on from where they are. -/
theorem Axis.engaged_source (ax : Axis) (job : Bool) (x : Source) (l : List (Nat × Nat)) :
    let y := ax.engaged job (fun m => { m with src := x }) l
    y.mo.src = x ∧ y.mo.p = ax.mo.p ∧ y.mo.v = ax.mo.v ∧ y.mo.a = ax.mo.a := ⟨rfl, ax.mo.takeOver_keeps⟩

/-- What the command of a descriptor leaves when its effect is a new source of its axis. -/
theorem exec_newSource {i : Instr} {s : State} {t : Nat} {h : DHdr} {op : DOp} {f : Ctx → Entry → State → State} {x : Source}
    (hexec : exec i s = s.does t fun b => b.runDescr h op f) (ht : Taken (s.before t) h op)
    (heffect : let b := s.before t
      f (b.cmdCtx h op) (b.cmdEntry h op) (b.cmdTaken h op) =
        (b.cmdTaken h op).engage (b.cmdCtx h op) h.tgt (fun m => { m with src := x }) []) :
    let b := s.before t; let m := (b.axis h.tgt).mo
    ∃ w, exec i s = .next (ends s t w) ∧ OnAxis h.tgt b w ∧ w.axis h.tgt = { b.axis h.tgt with mo := (w.axis h.tgt).mo } ∧
      (w.axis h.tgt).mo.src = x ∧ (w.axis h.tgt).mo.p = m.p ∧ (w.axis h.tgt).mo.v = m.v ∧ (w.axis h.tgt).mo.a = m.a := by
  intro b m
  obtain ⟨w, hw, hframe, haxis⟩ := exec_onAxis hexec ht heffect (State.engage_OnAxis _ _ _ _ _)
  rw [State.engage_axis_engaged, State.cmdTaken_axis] at haxis
  refine ⟨w, hw, hframe, ?_⟩
  rw [haxis]
  exact ⟨rfl, Axis.engaged_source _ _ x []⟩

/-! ## MOVE_ABS and JOG (R291, R294, R299) -/

theorem exec_moveAbs (s : State) (t : Nat) (h : DHdr) (x : Int) :
    exec (.moveAbs t h x) s = s.does t fun b => b.runDescr h (.moveAbs x) (fxMoveAbs x) := rfl

theorem exec_jog (s : State) (t : Nat) (h : DHdr) (v : Int) :
    exec (.jog t h v) s = s.does t fun b => b.runDescr h (.jog v) (fxJog v) := rfl

theorem fxMoveAbs_free {s : State} {c : Ctx} {e : Entry} (hfree : s.motionBar c e.tgt .other = none) (x : Int) :
    fxMoveAbs x c e s = s.engage c e.tgt (fun m => { m with src := .move x (some e.id) none false }) [] :=
  State.motionEffect_of_free hfree _

theorem fxJog_free {s : State} {c : Ctx} {e : Entry} (hfree : s.motionBar c e.tgt .other = none) (v : Int) :
    fxJog v c e s = s.engage c e.tgt (fun m => { m with src := .jog (up48 v) (some e.id) }) [] :=
  State.motionEffect_of_free hfree _

/-! ## MOVE_REL (R293, R315) -/

theorem exec_moveRel (s : State) (t : Nat) (h : DHdr) (d : Int) :
    exec (.moveRel t h d) s = s.does t fun b => b.runDescr h (.moveRel d) (fxMoveRel d) := rfl

section
variable {s : State} {c : Ctx} {e : Entry} (hfree : s.motionBar c e.tgt .other = none) {d : Int}
include hfree

theorem fxMoveRel_superimposed (hlocked : (s.axis e.tgt).mo.locked.isSome = true) :
    fxMoveRel d c e s = s.superimpose c e.tgt d e.id :=
  (State.motionEffect_of_free hfree _).trans (if_pos hlocked)

theorem fxMoveRel_moves (hunlocked : (s.axis e.tgt).mo.locked = none) (hfits : fits64 ((s.axis e.tgt).mo.target + d) = true) :
    fxMoveRel d c e s =
      s.engage c e.tgt (fun m => { m with src := .move ((s.axis e.tgt).mo.target + d) (some e.id) none false }) [] := by
  refine (State.motionEffect_of_free hfree _).trans ?_
  simp only [hunlocked, Option.isSome_none, Bool.false_eq_true, if_false, hfits, if_true]

theorem fxMoveRel_refused (hunlocked : (s.axis e.tgt).mo.locked = none) (hwide : fits64 ((s.axis e.tgt).mo.target + d) = false) :
    fxMoveRel d c e s = s.rejectAt e stRejRange 16 := by
  refine (State.motionEffect_of_free hfree _).trans ?_
  simp only [hunlocked, Option.isSome_none, Bool.false_eq_true, if_false, hwide]

end

/-- The axis once a difference is superimposed on its motion (R315). -/
def Axis.superimposed (ax : Axis) (job : Bool) (d : Int) (id : Nat) : Axis :=
  { ax with mo := { (ax.mo.superimpose d id).1 with
      ending := (ax.mo.superimpose d id).1.ending ++ if job then (ax.mo.superimpose d id).2 else [] } }

theorem State.superimpose_OnAxis (s : State) (c : Ctx) (a : Nat) (d : Int) (id : Nat) : OnAxis a s (s.superimpose c a d id) :=
  (OnAxis.of_modAxis _ _ _).trans (State.endMotion_OnAxis _ _ _ _)

theorem State.superimpose_axis (s : State) (c : Ctx) (a : Nat) (d : Int) (id : Nat) :
    (s.superimpose c a d id).axis a = (s.axis a).superimposed c.job d id := by
  unfold State.superimpose
  rw [State.endMotion_axis, State.modAxis_axis_same]
  rfl

/-- A superimposed difference leaves the source and p*, v* and a*, and adds to what is superimposed already. -/
theorem Motion.superimpose_keeps (m : Motion) (d : Int) (id : Nat) : let y := (m.superimpose d id).1
    y.p = m.p ∧ y.v = m.v ∧ y.a = m.a ∧ y.src = m.src ∧
      y.sup.map Superimposed.x = some ((m.sup.map Superimposed.x).getD 0 + d) := by
  unfold Motion.superimpose
  split
  · next x hx => exact ⟨rfl, rfl, rfl, rfl, by rw [hx]; rfl⟩
  · next hnone => exact ⟨rfl, rfl, rfl, rfl, by rw [hnone]; exact congrArg some (Int.zero_add d).symm⟩

theorem execMoveRel_superimposes {s : State} {t : Nat} {h : DHdr} {d : Int} (ht : Taken (s.before t) h (.moveRel d))
    (hfree : (s.before t).motionBar ((s.before t).cmdCtx h (.moveRel d)) h.tgt .other = none)
    (hlocked : ((s.before t).axis h.tgt).mo.locked.isSome = true) :
    ∃ w, exec (.moveRel t h d) s = .next (ends s t w) ∧ OnAxis h.tgt (s.before t) w ∧
      w.axis h.tgt =
        ((s.before t).axis h.tgt).superimposed ((s.before t).cmdCtx h (.moveRel d)).job d (s.before t).host.nextId := by
  obtain ⟨w, hw, hframe, haxis⟩ :=
    exec_onAxis (exec_moveRel ..) ht (fxMoveRel_superimposed (State.motionBar_taken hfree) hlocked)
      (State.superimpose_OnAxis ..)
  exact ⟨w, hw, hframe, haxis.trans (State.superimpose_axis ..)⟩

/-- Settles O22: MOVE_ABS and JOG by the source that takes over, MOVE_REL by whether a gear or cam is locked and by whether its sum
fits. -/
theorem movesSetTheTarget : Obligations.MovesSetTheTarget := by
  unfold Obligations.MovesSetTheTarget
  intro s t h b m
  refine ⟨fun x ht hfree => ?moveAbs, fun d ht hfree => ?moveRel, fun v ht hfree => ?jog⟩
  case moveAbs => exact exec_newSource (exec_moveAbs ..) ht (fxMoveAbs_free (State.motionBar_taken hfree) x)
  case jog => exact exec_newSource (exec_jog ..) ht (fxJog_free (State.motionBar_taken hfree) v)
  case moveRel =>
    cases hlocked : m.locked with
    | some g =>
      obtain ⟨w, hw, hframe, haxis⟩ := execMoveRel_superimposes ht hfree (hlocked ▸ rfl)
      obtain ⟨hp, hv, ha, hsrc, hsup⟩ := m.superimpose_keeps d b.host.nextId
      refine ⟨w, hw, hframe, ?_⟩
      rw [haxis]
      exact ⟨rfl, hp, hv, ha, nofun, nofun, fun _ => ⟨hsrc, hsup⟩⟩
    | none =>
      cases hfits : fits64 (m.target + d) with
      | true =>
        obtain ⟨w, hw, hframe, haxis, hsrc, hp, hv, ha⟩ :=
          exec_newSource (exec_moveRel ..) ht (fxMoveRel_moves (State.motionBar_taken hfree) hlocked hfits)
        exact ⟨w, hw, hframe, haxis, hp, hv, ha, fun _ _ => hsrc, nofun, nofun⟩
      | false =>
        obtain ⟨w, hw, hdesk⟩ :=
          exec_finish (exec_moveRel ..) ht (fxMoveRel_refused (State.motionBar_taken hfree) hlocked hfits)
        refine ⟨w, hw, .of_desk hdesk, ?_⟩
        rw [hdesk.axis]
        exact ⟨rfl, rfl, rfl, rfl, nofun, fun _ _ => rfl, nofun⟩

end Sys2Proof.Machine
end

section
/-! O23: STOP, LIMITS and CAM_DISENGAGE (07 R288, R298, R322, R325 to R331, R336). -/

namespace Sys2Proof.Machine

/-! ## Admission (02 R81, 15 R596) -/

/-- A change that the segment admits, or that a follower takes from its leader, is made. -/
theorem State.admitted_of_admits {s : State} {seg : Option Nat} {w : State}
    (h : s.tw.role = .follower ∨ ∀ k, seg = some k → admitChange s w k = true) (e : Entry) : s.admitted e seg w = w := by
  cases seg with
  | none => rfl
  | some k => exact if_pos (h.imp_right fun hadmits => hadmits k rfl)

/-- Any other change is turned away. -/
theorem State.admitted_of_not_admits {s : State} {seg : Option Nat} {w : State}
    (h : ¬ (s.tw.role = .follower ∨ ∀ k, seg = some k → admitChange s w k = true)) (e : Entry) :
    s.admitted e seg w = s.reject e stRejCap := by
  cases seg with
  | none => exact absurd (.inr nofun) h
  | some k => exact if_neg fun hadmits => h (hadmits.imp_right fun hk j hj => Option.some.inj hj ▸ hk)

/-- What the command of a descriptor leaves when its effect is a change of its axis that takes part in admission. -/
theorem exec_admitted {i : Instr} {s : State} {t : Nat} {h : DHdr} {op : DOp} {f : Ctx → Entry → State → State} {v : State}
    (hexec : exec i s = s.does t fun b => b.runDescr h op f) (ht : Taken (s.before t) h op)
    (heffect : let b := s.before t
      f (b.cmdCtx h op) (b.cmdEntry h op) (b.cmdTaken h op) = (b.cmdTaken h op).admitted (b.cmdEntry h op) (b.segOf h.tgt) v)
    (hframe : OnAxis h.tgt ((s.before t).cmdTaken h op) v) :
    let b := s.before t
    ∃ w, exec i s = .next (ends s t w) ∧ OnAxis h.tgt b w ∧
      (Admits b (b.cmdTaken h op) v h.tgt → w.axis h.tgt = v.axis h.tgt) ∧
      (¬ Admits b (b.cmdTaken h op) v h.tgt → w.axis h.tgt = b.axis h.tgt) := by
  intro b
  by_cases hadmits : Admits b (b.cmdTaken h op) v h.tgt
  · obtain ⟨w, hw, hon, haxis⟩ :=
      exec_onAxis hexec ht (heffect.trans (State.admitted_of_admits (s := b.cmdTaken h op) hadmits _)) hframe
    exact ⟨w, hw, hon, fun _ => haxis, fun hnot => absurd hadmits hnot⟩
  · obtain ⟨w, hw, hon, hkept⟩ := exec_reject hexec ht (heffect.trans (State.admitted_of_not_admits (s := b.cmdTaken h op) hadmits _))
    exact ⟨w, hw, hon, fun hyes => absurd hyes hadmits, fun _ => hkept⟩

/-! ## The start of a stop (R326, R329, R331, R338) -/

/-- A move that has arrived leaves the limits as they are. -/
theorem Motion.arriveFirst_limits (m : Motion) (two closed : Bool) : let y := m.arriveFirst two closed
    y.dmax = m.dmax ∧ y.jmax = m.jmax ∧ y.destop = m.destop := by
  unfold Motion.arriveFirst
  (repeat' split) <;> exact ⟨rfl, rfl, rfl⟩

/-- A stop of an axis without one starts under its own policy with the limits in force, and leaves the source. -/
theorem Motion.startStop_of_none {m : Motion} (hnone : m.stop = none) (trq two closed : Bool) (pol : Nat) (fault : Bool) (ids : List Nat) :
    let y := m.startStop trq two closed pol fault ids
    y.src = .none ∧ ∃ r, y.stop = some r ∧ r.pol = pol ∧ r.ids = ids ∧ r.dmax = m.dmax ∧ r.jmax = m.jmax ∧ r.destop = m.destop ∧
      r.fault = fault := by
  obtain ⟨hdmax, hjmax, hdestop⟩ := m.arriveFirst_limits two closed
  simp only [Motion.startStop, hnone]
  exact ⟨rfl, _, rfl, rfl, rfl, hdmax, hjmax, hdestop, rfl⟩

/-- A stop joins the one in progress, which goes on under the steeper policy. -/
theorem Motion.startStop_of_some {m : Motion} {r : StopRun} (hrun : m.stop = some r) (trq two closed : Bool) (pol : Nat) (fault : Bool)
    (ids : List Nat) :
    ∃ q, (m.startStop trq two closed pol fault ids).stop = some q ∧ q.ids = r.ids ++ ids ∧ q.pol = steeper r.pol pol ∧
      q.fault = (fault || r.fault) := by
  simp only [Motion.startStop, hrun, steeper]
  split <;> exact ⟨_, rfl, rfl, rfl, rfl⟩

/-! ## STOP (R325 to R331) -/

theorem exec_stop (s : State) (t : Nat) (h : DHdr) : exec (.stop t h) s = s.does t fun b => b.runDescr h .stop fxStop := rfl

/-- The axis `a` once a stop starts on it. -/
def Axis.startStop (ax : Axis) (a : Nat) (two closed : Bool) (pol : Nat) (fault : Bool) (ids : List Nat) : Axis :=
  { ax.haltIdent with mo := ax.mo.startStop (decide (ax.set.kind = .trq ∧ a < 512)) two closed pol fault ids }

/-- Off a group's path a stop is the axis's own. -/
theorem State.stopAxis_of_offPath {s : State} {a : Nat} (hpath : (s.axis a).onPath = none) (two closed : Bool) (pol : Nat) (fault : Bool)
    (ids : List Nat) : s.stopAxis a two closed pol fault ids = s.modAxis a fun ax => ax.startStop a two closed pol fault ids := by
  simp only [State.stopAxis, hpath, Axis.startStop]

/-- A STOP whose pulses can be cut keeps the policy of its axis (R328). -/
theorem fxStop_starts {s : State} {c : Ctx} {e : Entry} (hfree : s.motionBar c e.tgt .stop = none)
    (hpath : (s.axis e.tgt).onPath = none) (hcut : s.chFenced e.tgt = false) :
    fxStop c e s = s.modAxis e.tgt fun ax =>
      ax.startStop e.tgt (s.twoSteps e.tgt) (s.loopsClosed e.tgt) (s.axis e.tgt).set.stopPol false [e.id] := by
  refine (State.motionEffect_of_free hfree _).trans ?_
  simp only [State.beginStop, hcut, Bool.false_eq_true, and_false, if_false]
  exact State.stopAxis_of_offPath hpath ..

theorem execStop_starts {s : State} {t : Nat} {h : DHdr} (ht : Taken (s.before t) h .stop)
    (hfree : (s.before t).motionBar ((s.before t).cmdCtx h .stop) h.tgt .stop = none)
    (hpath : ((s.before t).axis h.tgt).onPath = none) (hcut : (s.before t).chFenced h.tgt = false) :
    let b := s.before t; let x := b.axis h.tgt
    ∃ w, exec (.stop t h) s = .next (ends s t w) ∧ OnAxis h.tgt b w ∧
      w.axis h.tgt = x.startStop h.tgt (b.twoSteps h.tgt) (b.loopsClosed h.tgt) x.set.stopPol false [b.host.nextId] := by
  obtain ⟨w, hw, hon, haxis⟩ :=
    exec_onAxis (exec_stop ..) ht (fxStop_starts (State.motionBar_taken hfree) hpath hcut) (.of_modAxis ..)
  exact ⟨w, hw, hon, haxis.trans (State.modAxis_axis_same ..)⟩

/-! ## LIMITS (R288, R298) -/

theorem exec_limits (s : State) (t : Nat) (h : DHdr) (vmax amax dmax destop jmax : Int) :
    exec (.limits t h vmax amax dmax destop jmax) s =
      s.does t fun b => b.runDescr h (.limits vmax amax dmax destop jmax) (fxLimits vmax amax dmax destop jmax) := rfl

/-- The axis once a change of its motion ends descriptors on it; `job` holds them back until the job's end. -/
def Axis.moved (ax : Axis) (job : Bool) (m : Motion) (l : List (Nat × Nat)) : Axis :=
  { ax with mo := { m with ending := m.ending ++ if job then l else [] } }

theorem State.modAxis_endMotion_OnAxis (s : State) (c : Ctx) (a : Nat) (f : Axis → Axis) (l : List (Nat × Nat)) :
    OnAxis a s ((s.modAxis a f).endMotion c a l) :=
  (OnAxis.of_modAxis _ _ _).trans (State.endMotion_OnAxis _ _ _ _)

theorem State.modAxis_endMotion_axis (s : State) (c : Ctx) (a : Nat) (f : Axis → Axis) (l : List (Nat × Nat)) :
    ((s.modAxis a f).endMotion c a l).axis a = (f (s.axis a)).moved c.job (f (s.axis a)).mo l := by
  rw [State.endMotion_axis, State.modAxis_axis_same]
  rfl

theorem fxLimits_free {s : State} {c : Ctx} {e : Entry} (hfree : s.motionBar c e.tgt .limits = none) (vmax amax dmax destop jmax : Int) :
    fxLimits vmax amax dmax destop jmax c e s =
      (s.modAxis e.tgt fun ax => { ax with mo := ax.mo.setLimits vmax amax dmax destop jmax }).endMotion c e.tgt [(e.id, stDone)] :=
  State.motionEffect_of_free hfree _

theorem execLimits_sets {s : State} {t : Nat} {h : DHdr} {vmax amax dmax destop jmax : Int} :
    let b := s.before t; let op : DOp := .limits vmax amax dmax destop jmax; let x := b.axis h.tgt
    Taken b h op → b.motionBar (b.cmdCtx h op) h.tgt .limits = none →
    ∃ w, exec (.limits t h vmax amax dmax destop jmax) s = .next (ends s t w) ∧ OnAxis h.tgt b w ∧
      w.axis h.tgt = x.moved (b.cmdCtx h op).job (x.mo.setLimits vmax amax dmax destop jmax) [(b.host.nextId, stDone)] := by
  intro b op x ht hfree
  obtain ⟨w, hw, hon, haxis⟩ :=
    exec_onAxis (exec_limits ..) ht (fxLimits_free (State.motionBar_taken hfree) ..) (State.modAxis_endMotion_OnAxis ..)
  exact ⟨w, hw, hon, haxis.trans (State.modAxis_endMotion_axis ..)⟩

/-! ## CAM_DISENGAGE (R322, R336) -/

theorem exec_camDisengage (s : State) (t : Nat) (h : DHdr) (holdVel : Bool) :
    exec (.camDisengage t h holdVel) s = s.does t fun b => b.runDescr h (.camDisengage holdVel) (fxCamDisengage holdVel) := rfl

/-- What moves the axis once it leaves its cam: its velocity, or a stop under RAMP. -/
def Motion.offCam (m : Motion) (two closed holdVel : Bool) : Motion :=
  if holdVel then { (m.leave stSuperseded false).1 with src := .jog m.v none }
  else (m.leave stSuperseded false).1.startStop false two closed 1 false []

theorem Motion.offCam_holds (m : Motion) (two closed : Bool) :
    (m.offCam two closed true).src = .jog m.v none ∧ (m.offCam two closed true).v = m.v := ⟨rfl, rfl⟩

/-- Leaving a source does not touch a stop in progress. -/
theorem Motion.leave_stop (m : Motion) (status : Nat) (keep : Bool) : (m.leave status keep).1.stop = m.stop := rfl

theorem Motion.offCam_ramps {m : Motion} (hnone : m.stop = none) (two closed : Bool) :
    ∃ r, (m.offCam two closed false).stop = some r ∧ r.pol = 1 := by
  obtain ⟨-, r, hstop, hpol, -⟩ :=
    Motion.startStop_of_none ((m.leave_stop stSuperseded false).trans hnone) false two closed 1 false []
  exact ⟨r, hstop, hpol⟩

theorem fxCamDisengage_refused {s : State} {c : Ctx} {e : Entry} (hfree : s.motionBar c e.tgt .other = none)
    (hcam : (s.axis e.tgt).mo.onCam = false) (holdVel : Bool) : fxCamDisengage holdVel c e s = s.reject e stRejIncons := by
  refine (State.motionEffect_of_free hfree _).trans ?_
  simp only [hcam, Bool.not_false, if_true]

theorem fxCamDisengage_leaves {s : State} {c : Ctx} {e : Entry} (hfree : s.motionBar c e.tgt .other = none)
    (hcam : (s.axis e.tgt).mo.onCam = true) (holdVel : Bool) :
    let m := (s.axis e.tgt).mo
    fxCamDisengage holdVel c e s =
      s.admitted e (s.segOf e.tgt)
        ((s.modAxis e.tgt fun ax => { ax with mo := m.offCam (s.twoSteps e.tgt) (s.loopsClosed e.tgt) holdVel }).endMotion c e.tgt
          (endingOf (m.leave stSuperseded false).2 ++ [(e.id, stDone)])) := by
  refine (State.motionEffect_of_free hfree _).trans ?_
  simp only [hcam, Bool.not_true, Bool.false_eq_true, if_false]
  rfl

/-- Settles O23: STOP by the stop that starts or the one it joins, LIMITS by the limits it sets, CAM_DISENGAGE by whether a cam drives
the axis and by its admission. -/
theorem stopsAndLimitsAct : Obligations.StopsAndLimitsAct := by
  unfold Obligations.StopsAndLimitsAct
  intro s t h b m
  refine ⟨fun ht hfree hpath hcut => ?stop, fun vmax amax dmax destop jmax ht hfree => ?limits, fun holdVel ht hfree => ?camDisengage⟩
  case stop =>
    obtain ⟨w, hw, hon, haxis⟩ := execStop_starts ht hfree hpath hcut
    refine ⟨w, hw, hon, ?_⟩
    rw [haxis]
    refine ⟨fun hnone => ?_, fun r hrun => Motion.startStop_of_some hrun ..⟩
    obtain ⟨hsrc, r, hstop, hpol, hids, hdmax, hjmax, hdestop, hfault⟩ := Motion.startStop_of_none hnone ..
    exact ⟨r, hstop, hpol, hids, hdmax, hjmax, hdestop, hfault, hsrc⟩
  case limits =>
    obtain ⟨w, hw, hon, haxis⟩ := execLimits_sets ht hfree
    refine ⟨w, hw, hon, ?_⟩
    rw [haxis]
    exact ⟨rfl, rfl, rfl, rfl, rfl, rfl, rfl, rfl, rfl, rfl, rfl⟩
  case camDisengage =>
    intro l m1 v
    cases hcam : m.onCam with
    | false =>
      obtain ⟨w, hw, hon, hkept⟩ := exec_reject (exec_camDisengage ..) ht (fxCamDisengage_refused (State.motionBar_taken hfree) hcam _)
      exact ⟨w, hw, hon, fun _ => hkept, nofun, nofun⟩
    | true =>
      have hmotion : m1 = m.offCam (b.twoSteps h.tgt) (b.loopsClosed h.tgt) holdVel := rfl
      obtain ⟨w, hw, hon, hyes, hno⟩ := exec_admitted (v := v) (exec_camDisengage ..) ht
        (fxCamDisengage_leaves (State.motionBar_taken hfree) hcam _) (State.modAxis_endMotion_OnAxis ..)
      refine ⟨w, hw, hon, nofun, fun _ => hno, fun _ hadmits => ?_⟩
      rw [hyes hadmits, State.modAxis_endMotion_axis, hmotion]
      refine ⟨rfl, ?_, ?_⟩
      · rintro rfl
        exact m.offCam_holds (b.twoSteps h.tgt) (b.loopsClosed h.tgt)
      · rintro rfl hnone
        exact Motion.offCam_ramps hnone ..

end Sys2Proof.Machine
end

section
/-! O24: FOLLOW, GEAR, CAM_ENGAGE and PHASE_IN (07 R303, R312, R314, R320, R321, R323, R336; 02 R81). -/

namespace Sys2Proof.Machine

/-! ## The engagement of a source that takes part in admission -/

/-- What the command of a descriptor leaves when its effect is a source that takes part in admission. -/
theorem exec_engageAdmit {i : Instr} {s : State} {t : Nat} {h : DHdr} {op : DOp} {f : Ctx → Entry → State → State}
    {g : Motion → Motion} {l : List (Nat × Nat)}
    (hexec : exec i s = s.does t fun b => b.runDescr h op f) (ht : Taken (s.before t) h op)
    (heffect : let b := s.before t
      f (b.cmdCtx h op) (b.cmdEntry h op) (b.cmdTaken h op) = (b.cmdTaken h op).engageAdmit (b.cmdCtx h op) (b.cmdEntry h op) g l) :
    let b := s.before t; let v := (b.cmdTaken h op).engage (b.cmdCtx h op) h.tgt g l
    ∃ w, exec i s = .next (ends s t w) ∧ OnAxis h.tgt b w ∧
      (Admits b (b.cmdTaken h op) v h.tgt → w.axis h.tgt = (b.axis h.tgt).engaged (b.cmdCtx h op).job g l) ∧
      (¬ Admits b (b.cmdTaken h op) v h.tgt → w.axis h.tgt = b.axis h.tgt) := by
  intro b v
  obtain ⟨w, hw, hon, hyes, hno⟩ := exec_admitted (v := v) hexec ht heffect (State.engage_OnAxis ..)
  exact ⟨w, hw, hon, fun hadmits => (hyes hadmits).trans (State.engage_axis_engaged ..), hno⟩

/-- An axis of no segment asks for no admission. -/
theorem Admits.of_virtual {b v w : State} {a : Nat} (ha : 528 ≤ a) : Admits b v w a := by
  refine .inr fun k hk => ?_
  rw [State.segOf, if_neg (by omega), if_neg (by omega)] at hk
  exact nomatch hk

/-! ## FOLLOW (R303) -/

theorem exec_follow (s : State) (t : Nat) (h : DHdr) (ai pos : Bool) (src : Nat) (g : Coef) (lag : Int) :
    exec (.follow t h ai pos src g lag) s =
      s.does t fun b => b.runDescr h (.follow ai pos src g lag) (fxFollow ai pos src g lag) := rfl

section
variable {s : State} {c : Ctx} {e : Entry} {ai pos : Bool} {src : Nat} (hfree : s.motionBar c e.tgt .follow = none)
include hfree

theorem fxFollow_refused (hfault : s.followFault e.tgt ai pos src = true) (g : Coef) (lag : Int) :
    fxFollow ai pos src g lag c e s = s.reject e stRejIncons :=
  (State.motionEffect_of_free hfree _).trans (if_pos hfault)

theorem fxFollow_engages (hgood : s.followFault e.tgt ai pos src = false) (g : Coef) (lag : Int) :
    fxFollow ai pos src g lag c e s =
      s.engageAdmit c e (fun m => { m with src := .follow { ai := ai, pos := pos, src := src, g := g, lagmax := lag },
                                           zeroTq := false }) [(e.id, stDone)] :=
  (State.motionEffect_of_free hfree _).trans (if_neg (Bool.eq_false_iff.mp hgood))

end

/-! ## GEAR (R312, R314) -/

theorem exec_gear (s : State) (t : Nat) (h : DHdr) (wait : Bool) (master : Nat) (n d ofs : Int) :
    exec (.gear t h wait master n d ofs) s =
      s.does t fun b => b.runDescr h (.gear wait master n d ofs) (fxGear wait master n d ofs) := rfl

/-- The engagement that a GEAR starts, its ratio reduced (R312). -/
def Entry.gearEng (e : Entry) (master : Nat) (n d ofs : Int) : Eng :=
  { isCam := false, master := master, n := (gearRatio n d).1, m := (gearRatio n d).2, ofs := ofs, st := .catching, id := some e.id }

section
variable {s : State} {c : Ctx} {e : Entry} {master : Nat} (hfree : s.motionBar c e.tgt .other = none)
include hfree

theorem fxGear_refused (hmaster : s.masterOk e.tgt master = false) (wait : Bool) (n d ofs : Int) :
    fxGear wait master n d ofs c e s = s.reject e stRejIncons := by
  refine (State.motionEffect_of_free hfree _).trans ?_
  simp only [hmaster, Bool.not_false, if_true]

/-- Where no gear or cam is locked a GEAR takes over. -/
theorem fxGear_engages (hmaster : s.masterOk e.tgt master = true) (hunlocked : (s.axis e.tgt).mo.locked = none) (n d ofs : Int) :
    fxGear false master n d ofs c e s =
      s.engageAdmit c e (fun m => { m with src := .eng (e.gearEng master n d ofs) }) [] := by
  refine (State.motionEffect_of_free hfree _).trans ?_
  simp only [hmaster, hunlocked, Bool.not_true, Bool.false_eq_true, if_false]
  rfl

/-- A GEAR that waits is retained with its base fixed at p* (R314). -/
theorem fxGear_waits (hmaster : s.masterOk e.tgt master = true) (n d ofs : Int) :
    fxGear true master n d ofs c e s =
      s.engageAdmit c e (fun m => { m with retained := some (s.gearWait e.tgt (e.gearEng master n d ofs)) }) [(e.id, stDone)] := by
  refine (State.motionEffect_of_free hfree _).trans ?_
  simp only [hmaster, Bool.not_true, Bool.false_eq_true, if_false, if_true]
  rfl

end

/-! ## CAM_ENGAGE in its catching mode (R320) -/

theorem exec_camEngage (s : State) (t : Nat) (h : DHdr) (table : Nat) (cont cubic : Bool) (mode master : Nat) (oc ofs xsw : Int) :
    exec (.camEngage t h table cont cubic mode master oc ofs xsw) s =
      s.does t fun b =>
        b.runDescr h (.camEngage table cont cubic mode master oc ofs xsw) (fxCamEngage table cont cubic mode master oc ofs xsw) := rfl

/-- The engagement that a CAM_ENGAGE starts. -/
def Entry.camEng (e : Entry) (table : Nat) (cont cubic : Bool) (master : Nat) (oc ofs : Int) : Eng :=
  { isCam := true, master := master, table := table, cubic := cubic, oc := oc, cont := cont, b := ofs, st := .catching, id := some e.id }

section
variable {s : State} {c : Ctx} {e : Entry} {table master : Nat} (hfree : s.motionBar c e.tgt .other = none)
include hfree

/-- A table that is not loaded, or a master that may not serve the axis, turns a CAM_ENGAGE away. -/
theorem fxCamEngage_refused (hbad : s.cams.lookup table = none ∨ s.masterOk e.tgt master = false) (cont cubic : Bool) (mode : Nat)
    (oc ofs xsw : Int) : fxCamEngage table cont cubic mode master oc ofs xsw c e s = s.reject e stRejIncons := by
  refine (State.motionEffect_of_free hfree _).trans ?_
  rcases hbad with htable | hmaster
  · simp only [htable, Option.isNone_none, if_true]
  · simp only [hmaster, Bool.not_false, if_true, ite_self]

theorem fxCamEngage_engages (htable : (s.cams.lookup table).isSome = true) (hmaster : s.masterOk e.tgt master = true)
    (cont cubic : Bool) (oc ofs xsw : Int) :
    fxCamEngage table cont cubic 0 master oc ofs xsw c e s =
      s.engageAdmit c e (fun m => { m with src := .eng (e.camEng table cont cubic master oc ofs) }) [] := by
  refine (State.motionEffect_of_free hfree _).trans ?_
  have hloaded : (s.cams.lookup table).isNone = false := by rw [← Option.not_isSome, htable]; rfl
  simp only [hloaded, hmaster, Bool.not_true, Bool.false_eq_true, if_false]
  rfl

end

/-! ## PHASE_IN (R323) -/

theorem exec_phaseIn (s : State) (t : Nat) (h : DHdr) (x : Int) :
    exec (.phaseIn t h x) s = s.does t fun b => b.runDescr h (.phaseIn x) (fxPhaseIn x) := rfl

section
variable {s : State} {c : Ctx} {e : Entry} (hfree : s.motionBar c e.tgt .other = none)
include hfree

theorem fxPhaseIn_refused (hnone : (s.axis e.tgt).mo.retained = none) (x : Int) : fxPhaseIn x c e s = s.reject e stRejIncons := by
  refine (State.motionEffect_of_free hfree _).trans ?_
  simp only [hnone]

theorem fxPhaseIn_engages {r : Eng} (hretained : (s.axis e.tgt).mo.retained = some r) (x : Int) :
    fxPhaseIn x c e s =
      s.engageAdmit c e
        (fun m => { m with src := .eng { r with st := .phasing x 0 0 0 false, id := some e.id }, retained := none }) [] := by
  refine (State.motionEffect_of_free hfree _).trans ?_
  simp only [hretained]

end

/-- Settles O24: each of the four by what turns it away, and else by the engagement that its admission lets through. -/
theorem sourcesEngage : Obligations.SourcesEngage := by
  unfold Obligations.SourcesEngage
  intro s t h b m
  refine ⟨?follow, ?gear, ?gearWait, ?camEngage, fun x ht hfree => ?phaseIn⟩
  case follow =>
    intro ai pos src g lag op ht hfree f v
    cases hfault : b.followFault h.tgt ai pos src with
    | true =>
      obtain ⟨w, hw, hon, hkept⟩ := exec_reject (exec_follow ..) ht (fxFollow_refused (State.motionBar_taken hfree) hfault ..)
      exact ⟨w, hw, hon, fun _ => hkept, nofun, nofun⟩
    | false =>
      obtain ⟨w, hw, hon, hyes, hno⟩ :=
        exec_engageAdmit (exec_follow ..) ht (fxFollow_engages (State.motionBar_taken hfree) hfault ..)
      obtain ⟨hp, hv, -⟩ := m.takeOver_keeps
      refine ⟨w, hw, hon, nofun, fun _ hadmits => ?_, fun _ => hno⟩
      rw [hyes hadmits]
      exact ⟨rfl, hp, hv⟩
  case gear =>
    intro master n d ofs op ht hfree hunlocked e v
    cases hmaster : b.masterOk h.tgt master with
    | false =>
      obtain ⟨w, hw, hon, hkept⟩ := exec_reject (exec_gear ..) ht (fxGear_refused (State.motionBar_taken hfree) hmaster ..)
      exact ⟨w, hw, hon, fun _ => hkept, nofun, nofun⟩
    | true =>
      obtain ⟨w, hw, hon, hyes, hno⟩ :=
        exec_engageAdmit (exec_gear ..) ht (fxGear_engages (State.motionBar_taken hfree) hmaster hunlocked ..)
      exact ⟨w, hw, hon, nofun, fun _ hadmits => congrArg (·.mo.src) (hyes hadmits), fun _ => hno⟩
  case gearWait =>
    intro master n d ofs op ht hfree hmaster hvirtual
    obtain ⟨w, hw, hon, hyes, -⟩ :=
      exec_engageAdmit (exec_gear ..) ht (fxGear_waits (State.motionBar_taken hfree) hmaster ..)
    exact ⟨w, _, hw, hon, congrArg (·.mo.retained) (hyes (.of_virtual hvirtual)), rfl, rfl, rfl, rfl, rfl, rfl⟩
  case camEngage =>
    intro table cont cubic master oc ofs xsw op ht hfree e v
    by_cases hgood : (b.cams.lookup table).isSome = true ∧ b.masterOk h.tgt master = true
    · obtain ⟨htable, hmaster⟩ := hgood
      obtain ⟨w, hw, hon, hyes, hno⟩ :=
        exec_engageAdmit (exec_camEngage ..) ht (fxCamEngage_engages (State.motionBar_taken hfree) htable hmaster ..)
      refine ⟨w, hw, hon, fun hbad => ?_, fun _ _ hadmits => congrArg (·.mo.src) (hyes hadmits), fun _ _ => hno⟩
      rcases hbad with hbad | hbad
      · exact absurd (hbad ▸ htable) nofun
      · exact absurd (hbad.symm.trans hmaster) nofun
    · have hbad : b.cams.lookup table = none ∨ b.masterOk h.tgt master = false := by
        cases htable : b.cams.lookup table with
        | none => exact .inl rfl
        | some cam => exact .inr (Bool.eq_false_iff.mpr fun hmaster => hgood ⟨by rw [htable]; rfl, hmaster⟩)
      obtain ⟨w, hw, hon, hkept⟩ := exec_reject (exec_camEngage ..) ht (fxCamEngage_refused (State.motionBar_taken hfree) hbad ..)
      exact ⟨w, hw, hon, fun _ => hkept, fun htable hmaster => absurd ⟨htable, hmaster⟩ hgood,
        fun htable hmaster => absurd ⟨htable, hmaster⟩ hgood⟩
  case phaseIn =>
    cases hretained : m.retained with
    | none =>
      obtain ⟨w, hw, hon, hkept⟩ := exec_reject (exec_phaseIn ..) ht (fxPhaseIn_refused (State.motionBar_taken hfree) hretained x)
      exact ⟨w, hw, hon, fun _ => hkept, fun _ hr => nomatch hr⟩
    | some r =>
      obtain ⟨w, hw, hon, hyes, hno⟩ :=
        exec_engageAdmit (exec_phaseIn ..) ht (fxPhaseIn_engages (State.motionBar_taken hfree) hretained x)
      refine ⟨w, hw, hon, nofun, fun q hq => ?_⟩
      obtain rfl := Option.some.inj hq
      refine ⟨fun hadmits => ?_, hno⟩
      rw [hyes hadmits]
      exact ⟨rfl, rfl⟩

end Sys2Proof.Machine
end

section
/-! O25: GROUP_MOVE (07 R308 to R311) and COUPLE DEFINE and SWAP (05 R234, R235). -/

namespace Sys2Proof.Machine

/-! ## The tables of groups -/

/-- An entry that is put in the place of the one before is found. -/
theorem SMap.lookup_replace_same {α : Type} (m : SMap α) (k : Nat) (v : α) :
    (SMap.insert (SMap.erase m k) k v).lookup k = some v := by
  rw [SMap.lookup_insert _ _ _ _ (by rw [SMap.lookup_erase, if_pos rfl]), if_pos rfl]

theorem State.modIGroup_lookup_same (s : State) (g : Nat) (f : IGroup → IGroup) :
    (s.modIGroup g f).igroups.lookup g = (s.igroups.lookup g).map f := by
  unfold State.modIGroup
  split
  · next x hx => rw [SMap.lookup_replace_same, hx, Option.map_some]
  · next hnone => rw [hnone, Option.map_none]

theorem State.modIGroup_axis (s : State) (g : Nat) (f : IGroup → IGroup) (a : Nat) : (s.modIGroup g f).axis a = s.axis a := by
  unfold State.modIGroup
  split <;> rfl

theorem State.modCGroup_lookup_same (s : State) (g : Nat) (f : CGroup → CGroup) :
    (s.modCGroup g f).cgroups.lookup g = (s.cgroups.lookup g).map f := by
  unfold State.modCGroup
  split
  · next x hx => rw [SMap.lookup_replace_same, hx, Option.map_some]
  · next hnone => rw [hnone, Option.map_none]

/-! ## The two commands -/

theorem exec_groupMove (s : State) (t : Nat) (h : DHdr) (f : GroupFn) :
    exec (.groupMove t h f) s = s.does t fun b => b.runDescr h (.groupMove f) (fxGroupMove f) := rfl

theorem exec_couple (s : State) (t : Nat) (h : DHdr) (f : CoupleFn) :
    exec (.couple t h f) s = s.does t fun b => b.runDescr h (.couple f) (fxCouple f) := rfl

/-- What the command of a descriptor leaves when its effect makes `v` of the state with its record and ends it. -/
theorem exec_finishes {i : Instr} {s v : State} {t : Nat} {h : DHdr} {op : DOp} {f : Ctx → Entry → State → State} {id status : Nat}
    {r : List Byte} (hexec : exec i s = s.does t fun b => b.runDescr h op f) (ht : Taken (s.before t) h op)
    (heffect : let b := s.before t; f (b.cmdCtx h op) (b.cmdEntry h op) (b.cmdTaken h op) = v.finish id status r) :
    ∃ w, exec i s = .next (ends s t w) ∧ Desk v w := by
  refine ⟨_, exec_taken hexec ht, ?_⟩
  rw [heffect]
  exact (State.finish_Desk _ _ _ _).trans (State.postReady_Desk _)

/-! ## GROUP_MOVE (R308 to R311) -/

/-- The mode lets groups move, and no segment is stopped. -/
def State.GroupsAct (s : State) : Prop := s.pw.mode ≠ .commission ∧ s.pw.mode ≠ .idle ∧ ∀ k, s.stopActs k = false

theorem State.GroupsAct.taken {s : State} (hacts : s.GroupsAct) (h : DHdr) (op : DOp) : (s.cmdTaken h op).GroupsAct := hacts

/-- No segment, whichever a group is of, turns its descriptor away. -/
theorem State.GroupsAct.passes {s : State} (hacts : s.GroupsAct) (seg : Option Nat) :
    ¬ (s.pw.mode = .commission ∨ s.pw.mode = .idle ∨ (match seg with | some k => s.stopActs k | none => false) = true) := by
  obtain ⟨hcommission, hidle, hgoes⟩ := hacts
  rintro (h | h | h)
  · exact hcommission h
  · exact hidle h
  · cases seg with
    | none => exact nomatch h
    | some k => exact Bool.false_ne_true ((hgoes k).symm.trans h)

section
variable {s : State} {c : Ctx} {e : Entry} (hacts : s.GroupsAct)
include hacts

/-- A group of axes that may form one is formed (R308). -/
theorem fxGroupMove_forms {k mask : Nat} (hnone : s.igroups.lookup e.tgt = none) (hform : s.mayForm e.tgt (maskAxes k mask) = true)
    (hadmits : let v := { s with igroups := SMap.insert (SMap.erase s.igroups e.tgt) e.tgt { seg := k, members := maskAxes k mask } }
      admitChange s v k = true) :
    fxGroupMove (.define k mask) c e s =
      State.finish { s with igroups := SMap.insert (SMap.erase s.igroups e.tgt) e.tgt { seg := k, members := maskAxes k mask } }
        e.id stDone (groupResult c) := by
  refine (if_neg (hacts.passes (some k))).trans ?_
  simp only [State.groupDefine, hnone, hform, Bool.false_eq_true, Bool.not_true, if_false]
  exact if_pos hadmits

/-- A group that does not move is taken away. -/
theorem fxGroupMove_dissolves {g : IGroup} (hgroup : s.igroups.lookup e.tgt = some g) (hrest : g.moving = none)
    (hadmits : admitChange s { s with igroups := SMap.erase s.igroups e.tgt } g.seg = true) :
    fxGroupMove .dissolve c e s =
      State.finish { s with igroups := SMap.erase s.igroups e.tgt } e.id stDone (groupResult c) := by
  refine (if_neg (hacts.passes ((s.igroups.lookup e.tgt).map (·.seg)))).trans ?_
  simp only [State.groupDissolve, hgroup, hrest, Option.isSome_none, Bool.false_eq_true, if_false]
  exact if_pos hadmits

theorem fxGroupMove_goes {g : IGroup} {xs : List Int} (hgroup : s.igroups.lookup e.tgt = some g)
    (hfree : s.groupBar c g xs.length = none) : fxGroupMove (.move xs) c e s = s.groupGo c e g xs := by
  refine (if_neg (hacts.passes ((s.igroups.lookup e.tgt).map (·.seg)))).trans ?_
  simp only [hgroup, hfree]

end

/-- The group sets out under descriptor `id`. -/
def IGroup.setOut (g : IGroup) (id : Nat) : IGroup := { g with moving := some id, arrived := [], stopping := false, stopIds := [] }

/-- The path of a group of one goes from p* of its member to its target (R309, R310). -/
theorem State.groupGo_of_one (s : State) (c : Ctx) (e : Entry) {g : IGroup} {a : Nat} (x : Int) (hone : g.members = [a]) :
    ∃ q : PathCopy, q.g = e.tgt ∧ q.p0 = (s.axis a).mo.pStar ∧ q.d = x - (s.axis a).mo.pStar ∧
      s.groupGo c e g [x] =
        (s.engage c a (fun m => { m with src := .path q }) []).modIGroup e.tgt fun g => g.setOut e.id := by
  unfold State.groupGo
  rw [hone]
  exact ⟨_, rfl, rfl, rfl, rfl⟩

theorem State.engage_igroups (s : State) (c : Ctx) (a : Nat) (f : Motion → Motion) (l : List (Nat × Nat)) :
    (s.engage c a f l).igroups = s.igroups := (State.engage_OnAxis s c a f l).2.igroups

theorem execGroupMove_goes {s : State} {t : Nat} {h : DHdr} {g : IGroup} {a : Nat} {x : Int} (hacts : (s.before t).GroupsAct)
    (ht : Taken (s.before t) h (.groupMove (.move [x]))) (hgroup : (s.before t).igroups.lookup h.tgt = some g) (hone : g.members = [a])
    (hfree : (s.before t).groupBar ((s.before t).cmdCtx h (.groupMove (.move [x]))) g 1 = none) :
    let b := s.before t
    ∃ w q, exec (.groupMove t h (.move [x])) s = .next (ends s t w) ∧ (w.axis a).mo.src = .path q ∧ q.g = h.tgt ∧
      q.p0 = (b.axis a).mo.pStar ∧ q.d = x - (b.axis a).mo.pStar ∧ (∀ y, y ≠ a → w.axis y = b.axis y) ∧
      w.igroups.lookup h.tgt = some (g.setOut b.host.nextId) := by
  intro b
  obtain ⟨q, hq, hstart, hway, hgo⟩ := State.groupGo_of_one (b.cmdTaken h (.groupMove (.move [x])))
    (b.cmdCtx h (.groupMove (.move [x]))) (b.cmdEntry h (.groupMove (.move [x]))) x hone
  have htgt : (b.cmdEntry h (.groupMove (.move [x]))).tgt = h.tgt := rfl
  refine ⟨_, q, exec_taken (exec_groupMove ..) ht, ?_⟩
  rw [fxGroupMove_goes (e := b.cmdEntry h (.groupMove (.move [x]))) (xs := [x]) (hacts.taken h _) hgroup hfree, hgo]
  refine ⟨?path, hq, hstart, hway, fun y hy => ?others, ?group⟩
  case path => rw [State.postReady_axis, State.modIGroup_axis, State.engage_axis_engaged]; rfl
  case others =>
    rw [State.postReady_axis, State.modIGroup_axis]
    exact (State.engage_OnAxis ..).1 y hy
  case group =>
    rw [(State.postReady_Desk _).igroups, htgt, State.modIGroup_lookup_same, State.engage_igroups]
    exact congrArg (Option.map _) hgroup

/-! ## COUPLE (05 R234, R235) -/

/-- A descriptor whose segment is not stopped has its own effect. -/
theorem State.confEffect_of_unstopped {s : State} (hgoes : ∀ k, s.stopActs k = false) (e : Entry) (seg : Option Nat) (f : State → State) :
    s.confEffect e seg f = f s := by
  cases seg with
  | none => rfl
  | some k => exact if_neg (Bool.eq_false_iff.mp (hgoes k))

/-- A COUPLE that nothing bars and its segment admits changes the table of groups. -/
theorem fxCouple_free {s : State} {e : Entry} {f : CoupleFn} (hgoes : ∀ k, s.stopActs k = false) (hfree : s.coupleBar e.tgt f = none)
    (hadmits : s.tw.role = .follower ∨ ∀ k, s.targetSeg (.couple f) e.tgt = some k →
      admitChange s ((s.couple e.tgt f).finish e.id stDone (zeros 8)) k = true) (c : Ctx) :
    fxCouple f c e s = (s.couple e.tgt f).finish e.id stDone (zeros 8) := by
  rw [fxCouple, State.confEffect_of_unstopped hgoes]
  simp only [hfree]
  exact State.admitted_of_admits hadmits e

theorem State.modCGroup_taken_Desk (s : State) (h : DHdr) (op : DOp) (g : Nat) (f : CGroup → CGroup) :
    Desk { s with cgroups := ((s.cmdTaken h op).modCGroup g f).cgroups } ((s.cmdTaken h op).modCGroup g f) := by
  unfold State.modCGroup
  split <;> rfl

/-- The effect of a COUPLE is on the table of groups. -/
theorem State.couple_taken_Desk (s : State) (h : DHdr) (op : DOp) (g : Nat) (f : CoupleFn) :
    Desk { s with cgroups := ((s.cmdTaken h op).couple g f).cgroups } ((s.cmdTaken h op).couple g f) := by
  cases f with
  | define velocity k mask clim => rfl
  | dissolve => rfl
  | load e vals => exact State.modCGroup_taken_Desk ..
  | swap => exact State.modCGroup_taken_Desk ..

/-- What the command of a COUPLE leaves that nothing bars and its segment admits. -/
theorem execCouple_free {s : State} {t : Nat} {h : DHdr} {f : CoupleFn} (hgoes : ∀ k, (s.before t).stopActs k = false) :
    let b := s.before t; let op : DOp := .couple f
    Taken b h op → b.coupleBar h.tgt f = none →
    (b.tw.role = .follower ∨ ∀ k, b.targetSeg op h.tgt = some k →
      admitChange (b.cmdTaken h op) (((b.cmdTaken h op).couple h.tgt f).finish b.host.nextId stDone (zeros 8)) k = true) →
    ∃ w, exec (.couple t h f) s = .next (ends s t w) ∧ Desk { b with cgroups := w.cgroups } w ∧
      w.cgroups = ((b.cmdTaken h op).couple h.tgt f).cgroups := by
  intro b op ht hfree hadmits
  obtain ⟨w, hw, hdesk⟩ := exec_finishes (exec_couple ..) ht
    (fxCouple_free (s := b.cmdTaken h op) (e := b.cmdEntry h op) hgoes hfree hadmits _)
  refine ⟨w, hw, ?_, hdesk.cgroups⟩
  rw [hdesk.cgroups]
  exact (State.couple_taken_Desk b h op h.tgt f).trans hdesk

/-- The group with its other bank active. -/
def CGroup.swapped (g : CGroup) : CGroup := { g with active := 1 - g.active }

theorem State.couple_swap_lookup (s : State) (a : Nat) :
    (s.couple a .swap).cgroups.lookup a = (s.cgroups.lookup a).map CGroup.swapped := State.modCGroup_lookup_same s a _

/-- SWAP is barred only where there is no group. -/
theorem State.coupleBar_swap {s : State} {a : Nat} {g : CGroup} (hgroup : s.cgroups.lookup a = some g) : s.coupleBar a .swap = none := by
  simp only [State.coupleBar, hgroup, Option.isSome_some, if_true]

/-- Settles O25: each of the five by the table of groups its effect leaves, MOVE by the path it puts on the member too. -/
theorem groupsFormMoveAndDissolve : Obligations.GroupsFormMoveAndDissolve := by
  unfold Obligations.GroupsFormMoveAndDissolve
  intro s t h b hcommission hidle hgoes
  have hacts : b.GroupsAct := ⟨hcommission, hidle, hgoes⟩
  refine ⟨?define, fun g ht hgroup hrest hadmits => ?dissolve, fun g a x ht hgroup hone hfree => ?move, ?couple,
    fun g ht hgroup hfollows => ?swap⟩
  case define =>
    intro k mask op ht hnone hform v hadmits
    obtain ⟨w, hw, hdesk⟩ := exec_finishes (exec_groupMove ..) ht (fxGroupMove_forms (hacts.taken h op) hnone hform hadmits)
    exact ⟨w, hw, hdesk⟩
  case dissolve =>
    obtain ⟨w, hw, hdesk⟩ := exec_finishes (exec_groupMove ..) ht (fxGroupMove_dissolves (hacts.taken h _) hgroup hrest hadmits)
    exact ⟨w, hw, hdesk⟩
  case move =>
    obtain ⟨w, q, hw, hsrc, hq, hstart, hway, hothers, hset⟩ := execGroupMove_goes hacts ht hgroup hone hfree
    exact ⟨w, q, hw, hsrc, hq, hstart, hway, hothers, congrArg (Option.map IGroup.moving) hset⟩
  case couple =>
    intro vel k mask clim op ht hfree v g hadmits
    obtain ⟨w, hw, hdesk, hgroups⟩ := execCouple_free hgoes ht hfree
      (hadmits.imp_right fun hadmit j hj => by obtain rfl := Option.some.inj hj; exact hadmit)
    rw [hgroups] at hdesk
    exact ⟨w, hw, hdesk⟩
  case swap =>
    obtain ⟨w, hw, hdesk, hgroups⟩ := execCouple_free hgoes ht (State.coupleBar_swap hgroup) (.inl hfollows)
    refine ⟨w, hw, hdesk, ?_⟩
    rw [hgroups, State.couple_swap_lookup]
    exact congrArg (Option.map CGroup.swapped) hgroup

end Sys2Proof.Machine
end

section
/-! The ring of a segment opens and closes (08 R342; 09 R416, R421), and what that leaves of the segment, of the others and of the
marks: the rules on which O44 and O45 rest. -/

namespace Sys2Proof.Machine

/-! ## Marks that are raised (16 R621) -/

theorem State.raise_held (s : State) (src kind addr : Nat) (detail : List Byte) :
    ∃ m, (s.raise src kind addr detail).asy.held = s.asy.held ++ [m] ∧ m.src = src ∧ m.kind = kind := by
  obtain ⟨m, hm, hsrc, hkind, -⟩ := State.addMark_held s src kind addr (s.reactOf kind) detail false
  exact ⟨m, hm, hsrc, hkind⟩

/-- A mark raised behind those of `b` is among the new ones of all that grows from there. -/
theorem Grows.raise_new {b v w : State} {src kind addr : Nat} {detail : List Byte} (h : Grows b v)
    (g : Grows (v.raise src kind addr detail) w) : ∃ m ∈ w.asy.held.drop b.asy.held.length, m.src = src ∧ m.kind = kind := by
  obtain ⟨m, hm, hsrc, hkind⟩ := v.raise_held src kind addr detail
  obtain ⟨before, hbefore⟩ := h.held
  obtain ⟨after, hafter⟩ := g.held
  refine ⟨m, ?_, hsrc, hkind⟩
  rw [← hafter, hm, ← hbefore]
  simp

theorem State.liveOff_records (s : State) (src kind : Nat) : Records s (s.liveOff src kind) := s.modSrc_records_of_fenced _ fun _ => rfl

/-! ## One segment changes -/

/-- Every segment but `k` is as it was. -/
def OnSeg (k : Nat) (b w : State) : Prop := ∀ j, j ≠ k → w.seg j = b.seg j

theorem OnSeg.refl (k : Nat) (b : State) : OnSeg k b b := fun _ _ => rfl

theorem OnSeg.trans {k : Nat} {a b c : State} (h : OnSeg k a b) (g : OnSeg k b c) : OnSeg k a c := fun j hj => (g j hj).trans (h j hj)

theorem OnSeg.ite {k : Nat} {b v w : State} {c : Prop} [Decidable c] (h : OnSeg k b v) (g : OnSeg k b w) :
    OnSeg k b (if c then v else w) := by
  split
  · exact h
  · exact g

theorem State.modSeg_onSeg (s : State) (k : Nat) (f : Segment → Segment) : OnSeg k s (s.modSeg k f) :=
  fun _ hj => State.modSeg_seg_ne _ _ _ hj

theorem State.modNode_onSeg (s : State) (k j : Nat) (f : Node → Node) : OnSeg k s (s.modNode k j f) := s.modSeg_onSeg k _

/-! ## The ring opens (R416, R417, R419, R423) -/

/-- The segment once its ring is open: no returns count, and every node keeps its delays and the mean of its offsets. -/
def Segment.opened (g : Segment) : Segment :=
  { g with
    ringOpen := true, heal := 0, remeasure := 0, remeasured := false
    nodes := g.nodes.map fun x => (x.1, { x.2 with
      baseline := if x.2.offsets.isEmpty then none else some (meanOff x.2.offsets), daTo := x.2.da, dbTo := x.2.db }) }

theorem State.openRing_of_open {s : State} {k : Nat} (hopen : (s.seg k).ringOpen = true) : s.openRing k = s := if_pos hopen

theorem State.openRing_of_closed {s : State} {k : Nat} (hclosed : (s.seg k).ringOpen = false) :
    s.openRing k = ((s.modSeg k Segment.opened).liveOn (srcSeg k) 0x51).raise (srcSeg k) 0x51 0 [] := by
  rw [State.openRing, hclosed]
  rfl

theorem State.openRing_seg_of_closed {s : State} {k : Nat} (hclosed : (s.seg k).ringOpen = false) :
    (s.openRing k).seg k = (s.seg k).opened := by
  rw [State.openRing_of_closed hclosed, State.raise, State.addMark_seg, State.liveOn, State.modSrc_seg, State.modSeg_seg_same]

theorem State.openRing_ringOpen (s : State) (k : Nat) : ((s.openRing k).seg k).ringOpen = true := by
  cases hring : (s.seg k).ringOpen with
  | true => rwa [State.openRing_of_open hring]
  | false => rw [State.openRing_seg_of_closed hring]; rfl

theorem State.openRing_held {s : State} {k : Nat} (hclosed : (s.seg k).ringOpen = false) :
    ∃ m, (s.openRing k).asy.held = s.asy.held ++ [m] ∧ m.src = srcSeg k ∧ m.kind = 0x51 := by
  rw [State.openRing_of_closed hclosed]
  exact State.raise_held ..

theorem State.openRing_onSeg (s : State) (k : Nat) : OnSeg k s (s.openRing k) := .ite (.refl k s) (s.modSeg_onSeg k Segment.opened)

theorem State.openRing_records (s : State) (k : Nat) : Records s (s.openRing k) :=
  .ite (.refl s) (((s.modSeg_records k Segment.opened).trans (State.liveOn_records ..)).trans (State.raise_records ..))

theorem State.openRing_tw (s : State) (k : Nat) : (s.openRing k).tw = s.tw := by
  cases hring : (s.seg k).ringOpen with
  | true => rw [State.openRing_of_open hring]
  | false => rw [State.openRing_of_closed hring, State.raise, State.addMark_tw, State.liveOn, State.modSrc_tw, State.modSeg_tw]

/-! ## The ring follows its links (R342, R416, R421) -/

/-- What a segment holds apart from its ring, the count of its returns and its nodes. -/
def Segment.apart (g : Segment) : Segment := { g with ringOpen := false, heal := 0, remeasure := 0, remeasured := false, nodes := [] }

theorem State.openRing_apart (s : State) (k : Nat) : ((s.openRing k).seg k).apart = (s.seg k).apart := by
  cases hring : (s.seg k).ringOpen with
  | true => rw [State.openRing_of_open hring]
  | false => rw [State.openRing_seg_of_closed hring]; rfl

/-- The segment with its ring closed again. -/
def Segment.closed (g : Segment) : Segment := { g with ringOpen := false }

/-- What looking after the ring can do. -/
theorem State.lookRing_cases (s : State) (k : Nat) :
    s.lookRing k = s ∨ s.lookRing k = s.openRing k ∨ s.lookRing k = (s.modSeg k Segment.closed).liveOff (srcSeg k) 0x51 := by
  unfold State.lookRing
  dsimp only
  split
  · exact .inl rfl
  · split
    · exact .inr (.inl rfl)
    · split
      · exact .inr (.inr rfl)
      · exact .inl rfl

theorem State.lookRing_of_down {s : State} {k : Nat} (hring : (s.seg k).ring ≠ .stopped)
    (hdown : (s.seg k).linkW = false ∨ (s.seg k).linkE = false) : s.lookRing k = s.openRing k := by
  have hlost : (!(s.seg k).linkW || !(s.seg k).linkE) = true := by simpa using hdown
  simp only [State.lookRing, hring, hlost, if_false, if_true]

/-- The segment closes its ring with both links up before its schedule runs. -/
theorem State.lookRing_ringOpen_of_listening {s : State} {k : Nat} (hring : (s.seg k).ring = .listening)
    (hwest : (s.seg k).linkW = true) (heast : (s.seg k).linkE = true) : ((s.lookRing k).seg k).ringOpen = false := by
  cases hopen : (s.seg k).ringOpen <;> simp [State.lookRing, State.liveOff, hring, hwest, heast, hopen]

theorem State.lookRing_onSeg (s : State) (k : Nat) : OnSeg k s (s.lookRing k) := by
  obtain h | h | h := s.lookRing_cases k <;> rw [h]
  · exact .refl k s
  · exact s.openRing_onSeg k
  · exact s.modSeg_onSeg k Segment.closed

theorem State.lookRing_records (s : State) (k : Nat) : Records s (s.lookRing k) := by
  obtain h | h | h := s.lookRing_cases k <;> rw [h]
  · exact .refl s
  · exact s.openRing_records k
  · exact (s.modSeg_records k Segment.closed).trans (State.liveOff_records ..)

theorem State.lookRing_apart (s : State) (k : Nat) : ((s.lookRing k).seg k).apart = (s.seg k).apart := by
  obtain h | h | h := s.lookRing_cases k <;> rw [h]
  · exact s.openRing_apart k
  · exact (congrArg Segment.apart (s.modSeg_seg_same k Segment.closed) :)

theorem State.lookRing_ring (s : State) (k : Nat) : ((s.lookRing k).seg k).ring = (s.seg k).ring :=
  (congrArg Segment.ring (s.lookRing_apart k) :)

theorem State.lookRing_linkW (s : State) (k : Nat) : ((s.lookRing k).seg k).linkW = (s.seg k).linkW :=
  (congrArg Segment.linkW (s.lookRing_apart k) :)

theorem State.lookRing_linkE (s : State) (k : Nat) : ((s.lookRing k).seg k).linkE = (s.seg k).linkE :=
  (congrArg Segment.linkE (s.lookRing_apart k) :)

theorem State.lookRing_listenFrom (s : State) (k : Nat) : ((s.lookRing k).seg k).listenFrom = (s.seg k).listenFrom :=
  (congrArg Segment.listenFrom (s.lookRing_apart k) :)

end Sys2Proof.Machine
end

section
/-! O44: the ring opens and heals (08 R342; 09 R410, R416, R417, R421, R422). -/

namespace Sys2Proof.Machine

/-! ## Own SY that return (R410, R416, R421) -/

/-- What the return of an own SY counts, by the channels on which it came. -/
def Segment.returned (g : Segment) (da db : Option Nat) : Segment :=
  { g with
    retA := da.isSome, retB := db.isSome, noRetA := if da.isSome then 0 else min 255 (g.noRetA + 1)
    noRetB := if db.isSome then 0 else min 255 (g.noRetB + 1)
    heal := if da.isSome ∧ db.isSome then min 255 (g.heal + 1) else 0 }

/-- The delays of both channels are measured: what is published follows, and a ring that has grown asymmetric is marked. -/
def State.measured (s : State) (k a b : Nat) : State :=
  let s := (s.modSeg k fun g => g.measure a b).publishAll k
  let skew := (s.seg k).da - (s.seg k).db
  if (s.seg k).remeasure = 0 ∧ (16 * s.asymThr k : Int) < skew.natAbs then s.raiseOnce (srcSeg k) 0x50 0 [] else s

/-- Only the nodes of segment `k` differ in it. -/
def OnNodes (k : Nat) (b w : State) : Prop := ∃ l, w.seg k = { b.seg k with nodes := l }

theorem OnNodes.refl (k : Nat) (b : State) : OnNodes k b b := ⟨(b.seg k).nodes, rfl⟩

theorem OnNodes.trans {k : Nat} {a b c : State} (h : OnNodes k a b) (g : OnNodes k b c) : OnNodes k a c := by
  obtain ⟨x, hx⟩ := h
  obtain ⟨y, hy⟩ := g
  exact ⟨y, by rw [hy, hx]⟩

theorem OnNodes.foldl {α : Type} {k : Nat} {f : State → α → State} (step : ∀ s x, OnNodes k s (f s x)) (l : List α) (b : State) :
    OnNodes k b (l.foldl f b) :=
  List.foldlRecOn l f (OnNodes.refl k b) fun s h x _ => h.trans (step s x)

theorem State.modNode_onNodes (s : State) (k j : Nat) (f : Node → Node) : OnNodes k s (s.modNode k j f) :=
  ⟨_, State.modSeg_seg_same ..⟩

theorem State.raiseOnce_seg (s : State) (src kind addr : Nat) (detail : List Byte) (q : Nat) :
    (s.raiseOnce src kind addr detail).seg q = s.seg q := by
  unfold State.raiseOnce
  split <;> rfl

theorem State.raiseOnce_onNodes (s : State) (src kind addr : Nat) (detail : List Byte) (k : Nat) :
    OnNodes k s (s.raiseOnce src kind addr detail) := ⟨_, s.raiseOnce_seg ..⟩

theorem State.publish_onNodes (s : State) (k j : Nat) : OnNodes k s (s.publish k j) := by
  unfold State.publish
  dsimp only
  split
  · exact s.modNode_onNodes k j _
  · split
    · exact .refl k s
    · exact s.raiseOnce_onNodes ..

theorem State.publishAll_onNodes (s : State) (k : Nat) : OnNodes k s (s.publishAll k) := by
  unfold State.publishAll
  split
  · exact .foldl (fun s j => s.publish_onNodes k j) _ _
  · exact .refl k s

/-- A measurement keeps the last sixteen of both channels, and no count changes. -/
theorem Segment.measure_spec (g : Segment) (a b : Nat) : let y := g.measure a b
    y.daHist = ((a : Int) :: g.daHist).take 16 ∧ y.dbHist = ((b : Int) :: g.dbHist).take 16 ∧
      y.noRetA = g.noRetA ∧ y.noRetB = g.noRetB ∧ y.heal = g.heal := by
  unfold Segment.measure
  dsimp only
  split
  · exact ⟨rfl, rfl, rfl, rfl, rfl⟩
  · split <;> exact ⟨rfl, rfl, rfl, rfl, rfl⟩

theorem State.measured_seg (s : State) (k a b : Nat) : ∃ l, (s.measured k a b).seg k = { (s.seg k).measure a b with nodes := l } := by
  obtain ⟨l, hl⟩ := (s.modSeg k fun g => g.measure a b).publishAll_onNodes k
  rw [State.modSeg_seg_same] at hl
  refine ⟨l, ?_⟩
  unfold State.measured
  dsimp only
  split
  · rw [State.raiseOnce_seg, hl]
  · exact hl

/-- What an own SY does whose copies came, or not, at ports that work. -/
def State.syReturned (s : State) (k : Nat) (x y : Option Nat) : State :=
  let s := s.modSeg k fun g => g.returned x y
  match x, y with
  | some a, some b => if (s.seg k).ringOpen then s else s.measured k a b
  | _, _ => s

theorem execSyReturn_running {s : State} {t k : Nat} (da db : Option Nat) (hruns : (s.before t).segRuns k = true)
    (hsynced : ((s.before t).seg k).synced = true) :
    exec (.syReturn t k da db) s = .next (ends s t ((s.before t).syReturned k
      (if (s.before t).hears k false then da else none) (if (s.before t).hears k true then db else none))) := by
  show execSyReturn t k da db s = _
  rw [execSyReturn, does_eq]
  simp only [hruns, hsynced, Bool.not_true, Bool.false_eq_true, not_true_eq_false, or_self, if_false]
  rfl

theorem State.syReturned_of_closed {s : State} {k : Nat} (hclosed : (s.seg k).ringOpen = false) (a b : Nat) :
    s.syReturned k (some a) (some b) = (s.modSeg k fun g => g.returned (some a) (some b)).measured k a b := by
  simp [State.syReturned, Segment.returned, hclosed]

/-- Without both copies, or with the ring open, the returns are counted and nothing is measured. -/
theorem State.syReturned_of_unmeasured {s : State} {k : Nat} {x y : Option Nat}
    (hun : x = none ∨ y = none ∨ (s.seg k).ringOpen = true) : s.syReturned k x y = s.modSeg k fun g => g.returned x y := by
  cases x <;> cases y <;> simp_all [State.syReturned, Segment.returned]

theorem State.syReturned_counts (s : State) (k : Nat) (x y : Option Nat) : let w := s.syReturned k x y
    (w.seg k).noRetA = ((s.seg k).returned x y).noRetA ∧ (w.seg k).noRetB = ((s.seg k).returned x y).noRetB ∧
      (w.seg k).heal = ((s.seg k).returned x y).heal := by
  intro w
  by_cases hun : x = none ∨ y = none ∨ (s.seg k).ringOpen = true
  · have hw : w.seg k = (s.seg k).returned x y := by
      rw [show w = _ from State.syReturned_of_unmeasured hun, State.modSeg_seg_same]
    rw [hw]
    exact ⟨rfl, rfl, rfl⟩
  · simp only [not_or, Bool.not_eq_true] at hun
    obtain ⟨hx, hy, hclosed⟩ := hun
    obtain ⟨a, rfl⟩ := Option.ne_none_iff_exists'.mp hx
    obtain ⟨b, rfl⟩ := Option.ne_none_iff_exists'.mp hy
    obtain ⟨l, hl⟩ := (s.modSeg k fun g => g.returned (some a) (some b)).measured_seg k a b
    rw [← State.syReturned_of_closed hclosed, State.modSeg_seg_same] at hl
    obtain ⟨-, -, hcounts⟩ := ((s.seg k).returned (some a) (some b)).measure_spec a b
    rw [hl]
    exact hcounts

theorem State.syReturned_hist {s : State} {k : Nat} (hclosed : (s.seg k).ringOpen = false) (a b : Nat) :
    let w := s.syReturned k (some a) (some b)
    (w.seg k).daHist = ((a : Int) :: (s.seg k).daHist).take 16 ∧ (w.seg k).dbHist = ((b : Int) :: (s.seg k).dbHist).take 16 := by
  intro w
  obtain ⟨l, hl⟩ := (s.modSeg k fun g => g.returned (some a) (some b)).measured_seg k a b
  rw [← State.syReturned_of_closed hclosed, State.modSeg_seg_same] at hl
  obtain ⟨ha, hb, -⟩ := ((s.seg k).returned (some a) (some b)).measure_spec a b
  rw [hl]
  exact ⟨ha, hb⟩

/-! ## Channels that are lost (R416) -/

theorem execChannelLost_opens {s : State} {t k : Nat} {chB : Bool} (hruns : (s.before t).segRuns k = true)
    (hgone : (s.before t).channelGone k chB = true) : exec (.channelLost t k chB) s = .next (ends s t ((s.before t).openRing k)) := by
  show execChannelLost t k chB s = _
  rw [execChannelLost, does_eq, hruns, hgone]
  rfl

theorem execChannelLost_none {s : State} {t k : Nat} {chB : Bool} (hthere : (s.before t).channelGone k chB = false) :
    exec (.channelLost t k chB) s = .next (ends s t (s.before t)) := by
  show execChannelLost t k chB s = _
  rw [execChannelLost, does_eq, hthere, Bool.and_false]
  rfl

/-! ## Healing (R421, R422) -/

/-- The segment once its ring has healed: sixteen own SY are to be measured anew. -/
def Segment.healed (g : Segment) : Segment :=
  { g with
    ringOpen := false, remeasure := 16, remeasured := false, daHist := [], dbHist := [], viaFollower := false
    nodes := g.nodes.map fun x => (x.1, { x.2 with deltas := [], baseline := none, waitsHeal := false }) }

theorem execRingHealed_heals {s : State} {t k : Nat} (hdue : ((s.before t).seg k).healDue = true) :
    exec (.ringHealed t k) s = .next (ends s t
      ((((s.before t).modSeg k Segment.healed).liveOff (srcSeg k) 0x51).raise (srcSeg k) 0x53 0 [])) := by
  show execRingHealed t k s = _
  rw [execRingHealed, does_eq]
  simp only [hdue, if_true]
  rfl

theorem execRingHealed_none {s : State} {t k : Nat} (hdue : ((s.before t).seg k).healDue = false) :
    exec (.ringHealed t k) s = .next (ends s t (s.before t)) := by
  show execRingHealed t k s = _
  rw [execRingHealed, does_eq]
  simp only [hdue, Bool.false_eq_true, if_false]

/-! ## New delays (R422) -/

/-- A node in service takes the delays that its measurements give, or keeps its own with a mark. -/
def State.adoptNode (s : State) (k j : Nat) : State :=
  match delaysOf (s.seg k).d (s.node k j).deltas with
  | some (a, b) => s.modNode k j fun d => d.adopt s.now (s.asymThr k) a b
  | none => (s.modNode k j fun d => { d with asym := false }).raiseOnce (srcNode k j) 0x4F 0 []

/-- Node `w` has taken what `b` measured: it is no longer suspect, and its delays go to those of R412, where there are any. -/
def Node.Adopted (d : Int) (b w : Node) : Prop := w.asym = false ∧ ∀ x y, delaysOf d b.deltas = some (x, y) → w.daTo = x ∧ w.dbTo = y

theorem State.modNode_node_same (s : State) (k j : Nat) (f : Node → Node) : (s.modNode k j f).node k j = f (s.node k j) := by
  rw [State.node, State.modNode, State.modSeg_seg_same]
  exact SMap.get_put_same ..

theorem State.modNode_node_ne (s : State) (k : Nat) {i j : Nat} (f : Node → Node) (hij : i ≠ j) :
    (s.modNode k j f).node k i = s.node k i := by
  rw [State.node, State.modNode, State.modSeg_seg_same]
  exact SMap.get_put_ne _ _ _ hij

theorem State.raiseOnce_node (s : State) (src kind addr : Nat) (detail : List Byte) (k j : Nat) :
    (s.raiseOnce src kind addr detail).node k j = s.node k j := by rw [State.node, State.raiseOnce_seg]; rfl

theorem State.adoptNode_onNodes (s : State) (k j : Nat) : OnNodes k s (s.adoptNode k j) := by
  unfold State.adoptNode
  split
  · exact s.modNode_onNodes k j _
  · exact (s.modNode_onNodes k j _).trans (State.raiseOnce_onNodes ..)

theorem State.adoptNode_node_ne (s : State) (k : Nat) {i j : Nat} (hij : i ≠ j) : (s.adoptNode k j).node k i = s.node k i := by
  unfold State.adoptNode
  split
  · exact s.modNode_node_ne k _ hij
  · rw [State.raiseOnce_node, s.modNode_node_ne k _ hij]

theorem State.adoptNode_adopted (s : State) (k j : Nat) : Node.Adopted (s.seg k).d (s.node k j) ((s.adoptNode k j).node k j) := by
  unfold State.adoptNode
  split
  next a b hdelays =>
    rw [State.modNode_node_same]
    refine ⟨rfl, fun x y hxy => ?_⟩
    obtain ⟨rfl, rfl⟩ := Prod.mk.inj (Option.some.inj (hdelays.symm.trans hxy))
    exact ⟨rfl, rfl⟩
  next hnone =>
    rw [State.raiseOnce_node, State.modNode_node_same]
    exact ⟨rfl, fun x y hxy => nomatch hnone.symm.trans hxy⟩

/-- Every node of a list takes its delays, and the other nodes stay. -/
theorem State.foldl_adoptNode {l : List Nat} (hl : l.Nodup) (s : State) (k : Nat) :
    let w := l.foldl (fun s j => s.adoptNode k j) s
    (∀ i, i ∉ l → w.node k i = s.node k i) ∧ ∀ i ∈ l, Node.Adopted (s.seg k).d (s.node k i) (w.node k i) := by
  induction l generalizing s with
  | nil => exact ⟨fun _ _ => rfl, fun _ hi => nomatch hi⟩
  | cons j l ih =>
    obtain ⟨hj, hl⟩ := List.nodup_cons.mp hl
    obtain ⟨hothers, hadopted⟩ := ih hl (s.adoptNode k j)
    obtain ⟨n, hn⟩ := s.adoptNode_onNodes k j
    have hd : ((s.adoptNode k j).seg k).d = (s.seg k).d := by rw [hn]
    refine ⟨fun i hi => ?_, fun i hi => ?_⟩
    · obtain ⟨hij, hi⟩ := List.ne_and_not_mem_of_not_mem_cons hi
      exact (hothers i hi).trans (s.adoptNode_node_ne k hij)
    · rcases List.mem_cons.mp hi with rfl | hi
      · rw [List.foldl_cons, hothers i hj]
        exact s.adoptNode_adopted k i
      · have hij : i ≠ j := fun h => hj (h ▸ hi)
        have := hadopted i hi
        rwa [hd, s.adoptNode_node_ne k hij] at this

theorem nodeAddrs_nodup : nodeAddrs.Nodup :=
  List.Pairwise.map _ (fun _ _ hne heq => hne (Nat.succ.inj heq)) List.nodup_range

theorem State.serviceNodes_nodup (s : State) (k : Nat) : (s.serviceNodes k).Nodup := List.Pairwise.filter _ nodeAddrs_nodup

theorem execDelayAdoption_adopts {s : State} {t k : Nat} (hbound : (s.before t).majorOffset = 0)
    (hmeasured : ((s.before t).seg k).remeasured = true)
    (hfull : ∀ j ∈ (s.before t).serviceNodes k, 8 ≤ ((s.before t).node k j).deltas.length) :
    exec (.delayAdoption t k) s = .next (ends s t ((((s.before t).serviceNodes k).foldl (fun s j => s.adoptNode k j) (s.before t)).modSeg k
      fun g => { g with remeasured := false })) := by
  have hall : ((s.before t).serviceNodes k).all (fun j => decide (8 ≤ ((s.before t).node k j).deltas.length)) = true := by
    simpa using hfull
  show execDelayAdoption t k s = _
  rw [execDelayAdoption, does_eq]
  simp only [hbound, hmeasured, hall, decide_true, Bool.and_self, if_true]
  rfl

/-! ## Links (R342, R389, R416) -/

/-- A port link of the segment comes up or goes down. -/
def Segment.link (g : Segment) (east up : Bool) : Segment := if east then { g with linkE := up } else { g with linkW := up }

/-- A segment that waits for a link listens from now on, if one is up (R389). -/
def Segment.hearken (g : Segment) (now : Nat) : Segment :=
  if g.ring = .listening ∧ g.listenFrom = none ∧ (g.linkW ∨ g.linkE) then { g with listenFrom := some now } else g

/-- The segment of a port whose link changes, before its ring follows. -/
def State.linked (s : State) (k : Nat) (east up : Bool) : State :=
  (s.modSeg k fun g => g.link east up).modSeg k fun g => g.hearken s.now

theorem State.linked_seg (s : State) (k : Nat) (east up : Bool) :
    (s.linked k east up).seg k = ((s.seg k).link east up).hearken s.now := by
  rw [State.linked, State.modSeg_seg_same, State.modSeg_seg_same]

theorem State.linked_onSeg (s : State) (k : Nat) (east up : Bool) : OnSeg k s (s.linked k east up) :=
  (s.modSeg_onSeg k _).trans ((s.modSeg k _).modSeg_onSeg k _)

theorem execPortLinkChange_eq (s : State) (t k : Nat) (east up : Bool) :
    exec (.portLinkChange t (2 * k + b2n east) up) s = .next (ends s t (((s.before t).linked k east up).lookRing k)) := by
  show execPortLinkChange t _ up s = _
  rw [execPortLinkChange, does_eq]
  cases east
  · have hport : (2 * k + b2n false) / 2 = k := by simp [b2n]
    have hside : (2 * k + b2n false) % 2 = 0 := by simp [b2n]
    simp only [hport, hside, if_true]
    rfl
  · have hport : (2 * k + b2n true) / 2 = k := by simp only [b2n, if_true]; omega
    have hside : (2 * k + b2n true) % 2 ≠ 0 := by simp only [b2n, if_true]; omega
    simp only [hport, hside, if_false]
    rfl

section

variable (g : Segment) (now : Nat) (east up : Bool)

theorem Segment.hearken_ring : (g.hearken now).ring = g.ring := by unfold Segment.hearken; split <;> rfl

theorem Segment.hearken_linkW : (g.hearken now).linkW = g.linkW := by unfold Segment.hearken; split <;> rfl

theorem Segment.hearken_linkE : (g.hearken now).linkE = g.linkE := by unfold Segment.hearken; split <;> rfl

theorem Segment.link_ring : (g.link east up).ring = g.ring := by cases east <;> rfl

theorem Segment.link_listenFrom : (g.link east up).listenFrom = g.listenFrom := by cases east <;> rfl

theorem Segment.link_own : (if east then (g.link east up).linkE else (g.link east up).linkW) = up := by cases east <;> rfl

theorem Segment.link_other : (if east then (g.link east up).linkW else (g.link east up).linkE) = if east then g.linkW else g.linkE := by
  cases east <;> rfl

theorem Segment.link_down : (g.link east false).linkW = false ∨ (g.link east false).linkE = false := by
  cases east
  · exact .inl rfl
  · exact .inr rfl

theorem Segment.link_up : (g.link east true).linkW = true ∨ (g.link east true).linkE = true := by
  cases east
  · exact .inl rfl
  · exact .inr rfl

theorem Segment.link_both {g : Segment} {east : Bool} (hother : (if east then g.linkW else g.linkE) = true) :
    (g.link east true).linkW = true ∧ (g.link east true).linkE = true := by
  cases east
  · exact ⟨rfl, hother⟩
  · exact ⟨hother, rfl⟩

end

section

variable (b : State) (k : Nat) (east up : Bool)

theorem State.linked_ring : ((b.linked k east up).seg k).ring = (b.seg k).ring := by
  rw [State.linked_seg, Segment.hearken_ring, Segment.link_ring]

theorem State.linked_linkW : ((b.linked k east up).seg k).linkW = ((b.seg k).link east up).linkW := by
  rw [State.linked_seg, Segment.hearken_linkW]

theorem State.linked_linkE : ((b.linked k east up).seg k).linkE = ((b.seg k).link east up).linkE := by
  rw [State.linked_seg, Segment.hearken_linkE]

/-- Its own link alone changes. -/
theorem State.lookRing_linked_links : let w := (b.linked k east up).lookRing k
    (if east then (w.seg k).linkE else (w.seg k).linkW) = up ∧
      (if east then (w.seg k).linkW else (w.seg k).linkE) = (if east then (b.seg k).linkW else (b.seg k).linkE) := by
  dsimp only
  rw [State.lookRing_linkW, State.lookRing_linkE, State.linked_linkW, State.linked_linkE]
  exact ⟨Segment.link_own .., Segment.link_other ..⟩

/-- A link that is down opens the ring of a segment that is started (R416). -/
theorem State.lookRing_linked_down (hstarted : (b.seg k).ring ≠ .stopped) :
    (((b.linked k east false).lookRing k).seg k).ringOpen = true := by
  rw [State.lookRing_of_down]
  · exact State.openRing_ringOpen ..
  · rwa [State.linked_ring]
  · rw [State.linked_linkW, State.linked_linkE]
    exact Segment.link_down ..

/-- A link that comes up beside the other closes the ring of a segment that listens (log 90). -/
theorem State.lookRing_linked_up (hlisten : (b.seg k).ring = .listening)
    (hother : (if east then (b.seg k).linkW else (b.seg k).linkE) = true) :
    (((b.linked k east true).lookRing k).seg k).ringOpen = false := by
  obtain ⟨hwest, heast⟩ := Segment.link_both hother
  exact State.lookRing_ringOpen_of_listening (by rwa [State.linked_ring]) (by rwa [State.linked_linkW]) (by rwa [State.linked_linkE])

/-- The first link that comes up starts the listen (R389). -/
theorem State.lookRing_linked_listenFrom (hlisten : (b.seg k).ring = .listening) (hnone : (b.seg k).listenFrom = none) :
    (((b.linked k east true).lookRing k).seg k).listenFrom = some b.now := by
  rw [State.lookRing_listenFrom, State.linked_seg, Segment.hearken, if_pos]
  exact ⟨(Segment.link_ring ..).trans hlisten, (Segment.link_listenFrom ..).trans hnone, Segment.link_up ..⟩

end

/-- Settles O44: each event by its own rule above, the adoption by induction over the nodes in service. -/
theorem theRingOpensAndHeals : Obligations.TheRingOpensAndHeals := by
  intro s t k b g
  refine ⟨?returns, ?lost, ?there, ?heals, ?early, ?adopts, ?links⟩
  case returns =>
    intro da db hruns hsynced x y
    obtain ⟨hA, hB, hheal⟩ := b.syReturned_counts k x y
    refine ⟨_, execSyReturn_running da db hruns hsynced, hA, hB, hheal, fun p q hx hy hclosed => ?_, fun hun => ?_⟩
    · obtain ⟨hhistA, hhistB⟩ := State.syReturned_hist hclosed p q
      rw [← hx, ← hy] at hhistA hhistB
      exact ⟨hhistA, hhistB⟩
    · have hw : (b.syReturned k x y).seg k = g.returned x y := by
        rw [State.syReturned_of_unmeasured hun, State.modSeg_seg_same]
      exact ⟨(congrArg Segment.daHist hw :), (congrArg Segment.dbHist hw :), (congrArg Segment.d hw :)⟩
  case lost =>
    intro chB hruns hgone hclosed
    exact ⟨_, execChannelLost_opens hruns hgone, State.openRing_ringOpen .., congrArg Segment.heal (State.openRing_seg_of_closed hclosed),
      State.openRing_held hclosed⟩
  case there => exact fun chB hthere => execChannelLost_none hthere
  case heals =>
    intro hopen hwest heast hheal
    have hdue : g.healDue = true := by simp [Segment.healDue, hopen, hwest, heast, hheal]
    have hw := b.modSeg_seg_same k Segment.healed
    exact ⟨_, execRingHealed_heals hdue, congrArg Segment.ringOpen hw, congrArg Segment.remeasure hw, congrArg Segment.daHist hw,
      State.raise_held ..⟩
  case early =>
    intro hheal
    have hnot : g.healDue = false := by simp [Segment.healDue, Nat.not_le.mpr hheal]
    exact execRingHealed_none hnot
  case adopts =>
    intro hbound hmeasured hfull
    obtain ⟨-, hadopted⟩ := State.foldl_adoptNode (b.serviceNodes_nodup k) b k
    refine ⟨_, execDelayAdoption_adopts hbound hmeasured hfull, congrArg Segment.remeasured (State.modSeg_seg_same ..), fun j hj => ?_⟩
    have hnode (v : State) : (v.modSeg k fun g => { g with remeasured := false }).node k j = v.node k j := by
      rw [State.node, State.modSeg_seg_same]; rfl
    rw [hnode]
    exact hadopted j hj
  case links =>
    intro east up
    obtain ⟨hown, hother⟩ := b.lookRing_linked_links k east up
    refine ⟨_, execPortLinkChange_eq s t k east up, hown, hother, ?_, ?_, ?_, (b.linked_onSeg k east up).trans (State.lookRing_onSeg _ k)⟩
    · rintro rfl
      exact b.lookRing_linked_down k east
    · rintro rfl
      exact b.lookRing_linked_up k east
    · rintro rfl
      exact b.lookRing_linked_listenFrom k east

end Sys2Proof.Machine
end

section
/-! O45: the cold start is won or joined (09 R390 to R396, R425; 15 R583 to R585). A frame is heard at a port that works, and what it
does then is stated apart from its way through the device. -/

namespace Sys2Proof.Machine

/-! ## Frames of the cold start at a port (R342, R390; 15 R584) -/

/-- The state with `o` for what it has sent. -/
def State.withOut (s : State) (o : List Out) : State := { s with out := o }

theorem State.withOut_hears (s : State) (o : List Out) (k : Nat) (chB : Bool) : (s.withOut o).hears k chB = s.hears k chB := rfl

theorem State.passOn_only (s : State) (k : Nat) (chB : Bool) (f : List Byte) : ∃ o, s.passOn k chB f = s.withOut o := by
  unfold State.passOn
  split
  · exact ⟨_, rfl⟩
  · exact ⟨s.out, rfl⟩

theorem State.passOn_of_not_follower {s : State} (hrole : s.tw.role ≠ .follower) (k : Nat) (chB : Bool) (f : List Byte) :
    s.passOn k chB f = s := if_neg fun h => hrole h.1

/-- A frame that arrives is passed on, and takes effect where the port works and the frame passes its check. -/
def State.onFrame (s : State) (k : Nat) (chB : Bool) (frame : List Byte) (ok : Bool) (effect : State → State) : State :=
  let s := s.passOn k chB frame
  if !s.hears k chB || !ok then s else effect s

section

variable {s : State} {k : Nat} {chB : Bool}

theorem State.onFrame_heard {ok : Bool} (hhears : s.hears k chB = true) (hok : ok = true) (frame : List Byte) (effect : State → State) :
    ∃ o, s.onFrame k chB frame ok effect = effect (s.withOut o) := by
  obtain ⟨o, ho⟩ := s.passOn_only k chB frame
  refine ⟨o, ?_⟩
  unfold State.onFrame
  simp only [ho, State.withOut_hears, hhears, hok, Bool.not_true, Bool.or_self, Bool.false_eq_true, if_false]

theorem State.onFrame_unheard (hrole : s.tw.role ≠ .follower) (hdeaf : s.hears k chB = false) (frame : List Byte) (ok : Bool)
    (effect : State → State) : s.onFrame k chB frame ok effect = s := by
  unfold State.onFrame
  simp only [State.passOn_of_not_follower hrole, hdeaf, Bool.not_false, Bool.true_or, if_true]

end

/-! ## What ends the listen and the contest (R390, R392, R394) -/

theorem State.integrate_seg (s : State) (k : Nat) : (s.integrate k).seg k = { s.seg k with ring := .integrating, heard := none } :=
  State.modSeg_seg_same ..

theorem State.loseContest_seg (s : State) (k : Nat) :
    (s.loseContest k).seg k = { s.seg k with ring := .integrating, heard := none, loser := true } := by
  rw [State.loseContest, State.modSeg_seg_same, State.integrate_seg]

theorem State.haltRing_seg (s : State) (k : Nat) : (s.haltRing k).seg k = { s.seg k with ring := .halted } := by
  rw [State.haltRing, State.raise, State.addMark_seg, State.modSeg_seg_same]

theorem State.beginListen_ring (s : State) (k : Nat) : ((s.beginListen k).seg k).ring = .listening := by
  rw [State.beginListen, State.lookRing_ring, State.modSeg_seg_same]

theorem State.integrate_onSeg (s : State) (k : Nat) : OnSeg k s (s.integrate k) := s.modSeg_onSeg k _

theorem State.loseContest_onSeg (s : State) (k : Nat) : OnSeg k s (s.loseContest k) :=
  (s.integrate_onSeg k).trans ((s.integrate k).modSeg_onSeg k _)

theorem State.haltRing_onSeg (s : State) (k : Nat) : OnSeg k s (s.haltRing k) := by
  intro j hj
  rw [State.haltRing, State.raise, State.addMark_seg, State.modSeg_seg_ne _ _ _ hj]

theorem State.beginListen_records (s : State) (k : Nat) : Records s (s.beginListen k) :=
  (s.modSeg_records k _).trans (State.lookRing_records _ k)

theorem State.loseContest_records (s : State) (k : Nat) : Records s (s.loseContest k) :=
  (s.modSeg_records k _).trans ((s.integrate k).modSeg_records k _)

theorem State.haltRing_records (s : State) (k : Nat) : Records s (s.haltRing k) :=
  (s.modSeg_records k _).trans (State.raise_records ..)

theorem State.haltRing_marks {b v : State} (h : Grows b v) (k : Nat) :
    ∃ m ∈ (v.haltRing k).asy.held.drop b.asy.held.length, m.src = srcSeg k ∧ m.kind = 0x4D :=
  (h.trans (v.modSeg_records k fun g => { g with ring := .halted }).toGrows).raise_new (.refl _)

/-! ## CS (R392 to R394) -/

/-- A CS of the device's own rank is marked. -/
def State.seeRank (s : State) (k rank : Nat) : State := if rank = s.rank then s.raise (srcSeg k) 0x4C 0 [] else s

theorem State.seeRank_records (s : State) (k rank : Nat) : Records s (s.seeRank k rank) := .ite (State.raise_records ..) (.refl s)

theorem State.seeRank_seg (s : State) (k rank : Nat) : (s.seeRank k rank).seg k = s.seg k := by
  unfold State.seeRank
  split
  · rw [State.raise, State.addMark_seg]
  · rfl

theorem State.seeRank_rank (s : State) (k rank : Nat) : (s.seeRank k rank).rank = s.rank := by
  unfold State.seeRank
  split <;> rfl

theorem State.seeRank_ownCode (s : State) (k rank : Nat) : (s.seeRank k rank).ownCode k = s.ownCode k := by
  unfold State.seeRank
  split <;> rfl

/-- The device listens anew on its own rank and nonce, and loses to a lower rank, or to a lower nonce of its own rank. -/
theorem State.contest_eq (s : State) (k rank nonce code : Nat) : s.contest k rank nonce code =
    if rank = s.rank ∧ nonce = (s.seg k).nonce.toNat then (s.seeRank k rank).beginListen k
    else if rank < s.rank ∨ (rank = s.rank ∧ nonce < (s.seg k).nonce.toNat) then
      (if code ≠ s.ownCode k then (s.seeRank k rank).haltRing k else (s.seeRank k rank).loseContest k)
    else s.seeRank k rank := by
  have hsee : (if decide (rank = s.rank) = true then s.raise (srcSeg k) 0x4C 0 [] else s) = s.seeRank k rank := by
    simp only [decide_eq_true_eq]
    rfl
  unfold State.contest
  dsimp only
  rw [hsee]
  simp only [State.seeRank_rank, State.seeRank_ownCode, decide_eq_true_eq]

section

variable {s : State} {k rank nonce code : Nat}

theorem State.contest_of_drawn (hrank : rank = s.rank) (hnonce : nonce = (s.seg k).nonce.toNat) :
    s.contest k rank nonce code = (s.seeRank k rank).beginListen k := by
  rw [State.contest_eq, if_pos ⟨hrank, hnonce⟩]

theorem State.contest_of_lost (hlower : rank < s.rank ∨ (rank = s.rank ∧ nonce < (s.seg k).nonce.toNat)) (hcode : code = s.ownCode k) :
    s.contest k rank nonce code = (s.seeRank k rank).loseContest k := by
  have hnot : ¬ (rank = s.rank ∧ nonce = (s.seg k).nonce.toNat) := by omega
  rw [State.contest_eq, if_neg hnot, if_pos hlower, if_neg (not_not_intro hcode)]

theorem State.contest_of_foreign (hlower : rank < s.rank ∨ (rank = s.rank ∧ nonce < (s.seg k).nonce.toNat))
    (hcode : code ≠ s.ownCode k) : s.contest k rank nonce code = (s.seeRank k rank).haltRing k := by
  have hnot : ¬ (rank = s.rank ∧ nonce = (s.seg k).nonce.toNat) := by omega
  rw [State.contest_eq, if_neg hnot, if_pos hlower, if_pos hcode]

theorem State.contest_of_higher (hdrawn : ¬ (rank = s.rank ∧ nonce = (s.seg k).nonce.toNat))
    (hlower : ¬ (rank < s.rank ∨ (rank = s.rank ∧ nonce < (s.seg k).nonce.toNat))) :
    s.contest k rank nonce code = s.seeRank k rank := by
  rw [State.contest_eq, if_neg hdrawn, if_neg hlower]

end

theorem State.contest_records (s : State) (k rank nonce code : Nat) : Records (s.seeRank k rank) (s.contest k rank nonce code) := by
  rw [State.contest_eq]
  exact .ite (State.beginListen_records ..) (.ite (.ite (State.haltRing_records ..) (State.loseContest_records ..)) (.refl _))

/-- A CS of the device's own rank leaves its mark, whatever the contest brings. -/
theorem State.contest_marks_equal {s : State} {rank : Nat} (hrank : rank = s.rank) (k nonce code : Nat) :
    ∃ m ∈ (s.contest k rank nonce code).asy.held.drop s.asy.held.length, m.src = srcSeg k ∧ m.kind = 0x4C := by
  have hgrows := (s.contest_records k rank nonce code).toGrows
  rw [State.seeRank, if_pos hrank] at hgrows
  exact (Grows.refl s).raise_new hgrows

/-- What a CS does that is heard. -/
def State.hearCs (s : State) (k : Nat) (frame : List Byte) : State :=
  let p := payloadOf frame
  match (s.seg k).ring with
  | .listening => s.integrate k
  | .csPhase => if (s.seg k).csDone then s else s.contest k (byteAt p 0) (fld p 2 2) (byteAt p 4)
  | _ => s

theorem exec_csReceived (s : State) (t k : Nat) (chB : Bool) (frame : List Byte) :
    exec (.csReceived t k chB frame) s =
      s.does t fun b => b.onFrame k chB frame (coldOk frame 5 csLen [0, 62]) fun v => v.hearCs k frame := rfl

section

variable {s : State} {k : Nat} (frame : List Byte)

theorem State.hearCs_of_listening (hring : (s.seg k).ring = .listening) : s.hearCs k frame = s.integrate k := by
  simp only [State.hearCs, hring]

theorem State.hearCs_of_contest (hring : (s.seg k).ring = .csPhase) (hopen : (s.seg k).csDone = false) :
    s.hearCs k frame = s.contest k (byteAt (payloadOf frame) 0) (fld (payloadOf frame) 2 2) (byteAt (payloadOf frame) 4) := by
  simp only [State.hearCs, hring, hopen, Bool.false_eq_true, if_false]

theorem State.hearCs_of_past (hlisten : (s.seg k).ring ≠ .listening) (hpast : (s.seg k).ring ≠ .csPhase ∨ (s.seg k).csDone = true) :
    s.hearCs k frame = s := by
  cases hring : (s.seg k).ring
  case listening => exact absurd hring hlisten
  case csPhase =>
    have hdone := hpast.resolve_left (not_not_intro hring)
    simp only [State.hearCs, hring, hdone, if_true]
  all_goals simp only [State.hearCs, hring]

end

/-! ## SY (R394, R396; 15 R583 to R585) -/

/-- An SY is held to the one heard before it: a second that agrees integrates the segment. -/
def State.compareSy (s : State) (k : Nat) (frame : List Byte) : State :=
  match (s.seg k).heard with
  | some a => if syConsistent a (syHead frame) then (s.keepDelays k frame).integrated k
              else s.modSeg k fun g => { g with heard := some (syHead frame) }
  | none => s.modSeg k fun g => { g with heard := some (syHead frame) }

/-- The segment remembers the SY that came on a channel. -/
def Segment.saw (g : Segment) (chB : Bool) (x : Nat × Nat) : Segment := if chB then { g with syB := some x } else { g with syA := some x }

theorem Segment.saw_ring (g : Segment) (chB : Bool) (x : Nat × Nat) : (g.saw chB x).ring = g.ring := by cases chB <;> rfl

theorem Segment.saw_seen (g : Segment) (chB : Bool) (x : Nat × Nat) :
    (if chB then (g.saw chB x).syB else (g.saw chB x).syA) = some x := by cases chB <;> rfl

/-- An integrated segment takes an SY's delays and its time. -/
def State.heedSy (s : State) (k : Nat) (chB : Bool) (frame : List Byte) : State :=
  let s := s.keepDelays k frame
  let s := s.modSeg k fun g => g.saw chB ((syHead frame).1, s.mt - 400)
  if s.timeSeg = some k ∧ s.tw.role = .follower then s.followMt (((syHead frame).1 : Int) + s.ownDelay k chB + 400 - s.mt) else s

/-- What an SY does that is heard. -/
def State.hearSy (s : State) (k : Nat) (chB : Bool) (frame : List Byte) : State :=
  let other := decide ((syHead frame).2.2.2 ≠ s.ownCode k)
  match (s.seg k).ring with
  | .listening => s.integrate k
  | .csPhase => if (s.seg k).csDone then s else if other then s.haltRing k else s.loseContest k
  | .integrating => if (s.seg k).loser && other then s.haltRing k else s.compareSy k frame
  | .integrated => s.heedSy k chB frame
  | _ => s

theorem exec_syReceived (s : State) (t k : Nat) (chB : Bool) (frame : List Byte) :
    exec (.syReceived t k chB frame) s =
      s.does t fun b => b.onFrame k chB frame (coldOk frame 3 syLen [0]) fun v => v.hearSy k chB frame := rfl

theorem State.keepDelays_onSeg (s : State) (k : Nat) (f : List Byte) : OnSeg k s (s.keepDelays k f) :=
  .ite (s.modSeg_onSeg k _) ((s.modSeg_onSeg k _).trans (State.modNode_onSeg _ k _ _))

theorem State.keepDelays_ring (s : State) (k : Nat) (f : List Byte) : ((s.keepDelays k f).seg k).ring = (s.seg k).ring := by
  unfold State.keepDelays
  dsimp only
  split
  · rw [State.modSeg_seg_same]
  · rw [State.modNode, State.modSeg_seg_same, State.modSeg_seg_same]

theorem State.keepDelays_mt (s : State) (k : Nat) (f : List Byte) : (s.keepDelays k f).mt = s.mt := by
  unfold State.keepDelays
  dsimp only
  split <;> rfl

theorem State.integrated_seg (s : State) (k j : Nat) :
    (s.integrated k).seg j = (s.modSeg k fun g => { g with ring := .integrated }).seg j := by
  unfold State.integrated
  dsimp only
  split <;> rfl

theorem State.followMt_seg (s : State) (diff : Int) (j : Nat) : (s.followMt diff).seg j = s.seg j := by
  unfold State.followMt
  split <;> rfl

theorem State.compareSy_onSeg (s : State) (k : Nat) (frame : List Byte) : OnSeg k s (s.compareSy k frame) := by
  unfold State.compareSy
  split
  · refine .ite ((s.keepDelays_onSeg k frame).trans fun j hj => ?_) (s.modSeg_onSeg k _)
    rw [State.integrated_seg, State.modSeg_seg_ne _ _ _ hj]
  · exact s.modSeg_onSeg k _

theorem State.heedSy_seg (s : State) (k : Nat) (chB : Bool) (frame : List Byte) (j : Nat) :
    (s.heedSy k chB frame).seg j = ((s.keepDelays k frame).modSeg k fun g => g.saw chB ((syHead frame).1, s.mt - 400)).seg j := by
  unfold State.heedSy
  dsimp only
  rw [← s.keepDelays_mt k frame]
  split
  · rw [State.followMt_seg]
  · rfl

theorem State.heedSy_onSeg (s : State) (k : Nat) (chB : Bool) (frame : List Byte) : OnSeg k s (s.heedSy k chB frame) := by
  intro j hj
  rw [State.heedSy_seg, State.modSeg_seg_ne _ _ _ hj, s.keepDelays_onSeg k frame j hj]

theorem State.hearSy_onSeg (s : State) (k : Nat) (chB : Bool) (frame : List Byte) : OnSeg k s (s.hearSy k chB frame) := by
  unfold State.hearSy
  dsimp only
  split
  · exact s.integrate_onSeg k
  · exact .ite (.refl k s) (.ite (s.haltRing_onSeg k) (s.loseContest_onSeg k))
  · exact .ite (s.haltRing_onSeg k) (s.compareSy_onSeg k frame)
  · exact s.heedSy_onSeg k chB frame
  · exact .refl k s

section

variable {s : State} {k : Nat} (chB : Bool) {frame : List Byte}

theorem State.hearSy_of_listening (hring : (s.seg k).ring = .listening) : s.hearSy k chB frame = s.integrate k := by
  simp only [State.hearSy, hring]

theorem State.hearSy_of_contest (hring : (s.seg k).ring = .csPhase) (hopen : (s.seg k).csDone = false) :
    s.hearSy k chB frame = if (syHead frame).2.2.2 ≠ s.ownCode k then s.haltRing k else s.loseContest k := by
  simp only [State.hearSy, hring, hopen, Bool.false_eq_true, if_false, decide_eq_true_eq]

theorem State.hearSy_of_lost (hring : (s.seg k).ring = .csPhase) (hopen : (s.seg k).csDone = false)
    (hown : ¬ (syHead frame).2.2.2 ≠ s.ownCode k) : s.hearSy k chB frame = s.loseContest k := by
  rw [State.hearSy_of_contest chB hring hopen, if_neg hown]

theorem State.hearSy_of_halted (hring : (s.seg k).ring = .csPhase) (hopen : (s.seg k).csDone = false)
    (hother : (syHead frame).2.2.2 ≠ s.ownCode k) : s.hearSy k chB frame = s.haltRing k := by
  rw [State.hearSy_of_contest chB hring hopen, if_pos hother]

theorem State.hearSy_of_foreign (hring : (s.seg k).ring = .integrating) (hloser : (s.seg k).loser = true)
    (hother : (syHead frame).2.2.2 ≠ s.ownCode k) : s.hearSy k chB frame = s.haltRing k := by
  simp only [State.hearSy, hring, hloser, hother, ne_eq, not_false_eq_true, decide_true, Bool.and_self, if_true]

theorem State.hearSy_of_integrating (hring : (s.seg k).ring = .integrating)
    (hown : ¬ ((s.seg k).loser = true ∧ (syHead frame).2.2.2 ≠ s.ownCode k)) : s.hearSy k chB frame = s.compareSy k frame := by
  have hnot : ¬ ((s.seg k).loser && decide ((syHead frame).2.2.2 ≠ s.ownCode k)) = true := by
    rwa [Bool.and_eq_true, decide_eq_true_eq]
  simp only [State.hearSy, hring]
  exact if_neg hnot

theorem State.hearSy_of_integrated (hring : (s.seg k).ring = .integrated) : s.hearSy k chB frame = s.heedSy k chB frame := by
  simp only [State.hearSy, hring]

end

section

variable {s : State} {k : Nat} {frame : List Byte}

theorem State.compareSy_of_first (hfirst : (s.seg k).heard = none) :
    (s.compareSy k frame).seg k = { s.seg k with heard := some (syHead frame) } := by
  simp only [State.compareSy, hfirst]
  exact State.modSeg_seg_same ..

theorem State.compareSy_of_agreeing {x : Nat × Nat × Nat × Nat} (hheard : (s.seg k).heard = some x)
    (hagree : syConsistent x (syHead frame) = true) : ((s.compareSy k frame).seg k).ring = .integrated := by
  simp only [State.compareSy, hheard, hagree, if_true]
  rw [State.integrated_seg, State.modSeg_seg_same]

theorem State.compareSy_of_differing {x : Nat × Nat × Nat × Nat} (hheard : (s.seg k).heard = some x)
    (hdiffer : syConsistent x (syHead frame) = false) :
    (s.compareSy k frame).seg k = { s.seg k with heard := some (syHead frame) } := by
  simp only [State.compareSy, hheard, hdiffer, Bool.false_eq_true, if_false]
  exact State.modSeg_seg_same ..

end

/-- An integrated segment stays so and has seen the SY. -/
theorem State.heedSy_spec (s : State) (k : Nat) (chB : Bool) (frame : List Byte) : let y := (s.heedSy k chB frame).seg k
    y.ring = (s.seg k).ring ∧ (if chB then y.syB else y.syA) = some ((syHead frame).1, s.mt - 400) := by
  dsimp only
  rw [State.heedSy_seg, State.modSeg_seg_same, ← s.keepDelays_ring k frame]
  exact ⟨Segment.saw_ring .., Segment.saw_seen ..⟩

/-! ## CT (R390, R392; 15 R606, R609) -/

/-- The leader is heard on a segment that the device follows. -/
def State.hearLeader (s : State) (k : Nat) : State :=
  { (s.modSeg k fun g => { g with ctSeen := true }) with tw := { s.tw with heardNow := true, silent := 0 } }

theorem State.hearLeader_ctSeen (s : State) (k : Nat) : ((s.hearLeader k).seg k).ctSeen = true :=
  congrArg Segment.ctSeen (s.modSeg_seg_same k fun g => { g with ctSeen := true })

/-- What a CT does that is heard. -/
def State.hearCt (s : State) (k : Nat) (chB : Bool) (frame : List Byte) : State :=
  match (s.seg k).ring with
  | .listening => s.integrate k
  | .csPhase => if (s.seg k).csDone then s else s.loseContest k
  | .integrated => if fld frame 2 2 = s.countNow k % 2 ^ 16 ∧ bit (byteAt frame 5) 7 = chB then s.hearLeader k else s
  | _ => s

theorem exec_ctReceived (s : State) (t k : Nat) (chB : Bool) (frame : List Byte) :
    exec (.ctReceived t k chB frame) s =
      s.does t fun b => b.onFrame k chB frame (coldOk frame 1 ctLen [0]) fun v => v.hearCt k chB frame := rfl

section

variable {s : State} {k : Nat} {chB : Bool} {frame : List Byte}

theorem State.hearCt_of_listening (hring : (s.seg k).ring = .listening) : s.hearCt k chB frame = s.integrate k := by
  simp only [State.hearCt, hring]

theorem State.hearCt_of_contest (hring : (s.seg k).ring = .csPhase) (hopen : (s.seg k).csDone = false) :
    s.hearCt k chB frame = s.loseContest k := by
  simp only [State.hearCt, hring, hopen, Bool.false_eq_true, if_false]

theorem State.hearCt_of_integrated (hring : (s.seg k).ring = .integrated) (hcount : fld frame 2 2 = s.countNow k % 2 ^ 16)
    (hchannel : bit (byteAt frame 5) 7 = chB) : s.hearCt k chB frame = s.hearLeader k := by
  simp only [State.hearCt, hring]
  exact if_pos ⟨hcount, hchannel⟩

end

/-! ## The listen, the CS phase and the start of the schedule (R390, R391, R395, R425) -/

/-- The CS phase begins with a nonce (R391). -/
def Segment.contesting (g : Segment) (nonce : Int) : Segment :=
  { g with ring := .csPhase, nonce := BitVec.ofInt 16 nonce, csUntil := none, csDone := false }

section

variable {s : State} {t k f : Nat}

theorem execListenEnd_ends (hring : ((s.before t).seg k).ring = .listening) (hfrom : ((s.before t).seg k).listenFrom = some f)
    (hlong : (s.before t).listenLen ≤ (s.before t).now - f) (hsilent : (s.before t).coldNow k = false) :
    exec (.listenEnd t k) s =
      .next (ends s t ((s.before t).draw.2.modSeg k fun g => g.contesting (s.before t).draw.1)) := by
  show execListenEnd t k s = _
  rw [execListenEnd, does_eq]
  simp only [hring, hfrom, hlong, hsilent, Bool.false_eq_true, not_false_eq_true, and_self, if_true]
  rfl

theorem execListenEnd_none (hfrom : ((s.before t).seg k).listenFrom = some f)
    (hnot : (s.before t).now - f < (s.before t).listenLen ∨ (s.before t).coldNow k = true) :
    exec (.listenEnd t k) s = .next (ends s t (s.before t)) := by
  have hstays : ¬ ((s.before t).listenLen ≤ (s.before t).now - f ∧ ¬ (s.before t).coldNow k = true) := by
    rintro ⟨hlong, hsilent⟩
    exact hnot.elim (fun h => absurd hlong (Nat.not_le.mpr h)) hsilent
  show execListenEnd t k s = _
  rw [execListenEnd, does_eq]
  cases hring : ((s.before t).seg k).ring <;> simp only [hring, hfrom, if_neg hstays]

variable {u : Nat}

theorem execCsPhaseEnd_ends (hring : ((s.before t).seg k).ring = .csPhase) (huntil : ((s.before t).seg k).csUntil = some u)
    (hover : u ≤ (s.before t).now) :
    exec (.csPhaseEnd t k) s = .next (ends s t ((s.before t).modSeg k fun g => { g with csDone := true })) := by
  show execCsPhaseEnd t k s = _
  rw [execCsPhaseEnd, does_eq]
  simp only [hring, huntil, hover, if_true]

theorem execCsPhaseEnd_none (huntil : ((s.before t).seg k).csUntil = some u) (hnot : (s.before t).now < u) :
    exec (.csPhaseEnd t k) s = .next (ends s t (s.before t)) := by
  show execCsPhaseEnd t k s = _
  rw [execCsPhaseEnd, does_eq]
  cases hring : ((s.before t).seg k).ring <;> simp only [hring, huntil, if_neg (Nat.not_le.mpr hnot)]

end

/-- The schedule of a segment begins, and the device leads where twin operation is set up (15 R583). -/
def State.started (s : State) (k : Nat) : State := (s.modSeg k Segment.begin).becomeLeader

/-- The ring as the links leave it when the schedule begins. -/
def State.startedRing (s : State) (k : Nat) : State :=
  if ((s.started k).seg k).linkW && ((s.started k).seg k).linkE then s.started k else (s.started k).openRing k

theorem State.becomeLeader_seg (s : State) (k : Nat) : s.becomeLeader.seg k = s.seg k := by
  unfold State.becomeLeader
  split <;> rfl

theorem State.started_seg (s : State) (k : Nat) : (s.started k).seg k = (s.seg k).begin := by
  rw [State.started, State.becomeLeader_seg, State.modSeg_seg_same]

theorem State.started_asy (s : State) (k : Nat) : (s.started k).asy = s.asy := by
  unfold State.started State.becomeLeader
  split <;> rfl

theorem State.started_role (s : State) (k : Nat) :
    (s.started k).tw.role = if bit (s.force 0x0F0000) 0 then .leader else s.tw.role := by
  unfold State.started State.becomeLeader
  rw [State.modSeg_force]
  split <;> rfl

theorem State.startedRing_of_up {s : State} {k : Nat} (hwest : (s.seg k).linkW = true) (heast : (s.seg k).linkE = true) :
    s.startedRing k = s.started k := by
  have hboth : (((s.started k).seg k).linkW && ((s.started k).seg k).linkE) = true := by
    rw [State.started_seg]
    simp only [Segment.begin, hwest, heast, Bool.and_self]
  rw [State.startedRing, if_pos hboth]

theorem State.startedRing_of_down {s : State} {k : Nat} (hdown : (s.seg k).linkW = false ∨ (s.seg k).linkE = false) :
    s.startedRing k = (s.started k).openRing k := by
  have hlost : ¬ (((s.started k).seg k).linkW && ((s.started k).seg k).linkE) = true := by
    rw [State.started_seg]
    rcases hdown with h | h <;> simp [Segment.begin, h]
  rw [State.startedRing, if_neg hlost]

/-- Apart from its ring, the segment is as its schedule begins. -/
theorem State.startedRing_apart (s : State) (k : Nat) : ((s.startedRing k).seg k).apart = (s.seg k).begin.apart := by
  rw [← State.started_seg]
  unfold State.startedRing
  split
  · rfl
  · exact State.openRing_apart ..

theorem State.startedRing_tw (s : State) (k : Nat) : (s.startedRing k).tw = (s.started k).tw := by
  unfold State.startedRing
  split
  · rfl
  · exact State.openRing_tw ..

section

variable {s : State} {t k : Nat}

theorem execScheduleStart_starts (hring : ((s.before t).seg k).ring = .csPhase) (hdone : ((s.before t).seg k).csDone = true)
    (hbound : (s.before t).majorOffset = 0) : exec (.scheduleStart t k) s = .next (ends s t ((s.before t).startedRing k)) := by
  show execScheduleStart t k s = _
  rw [execScheduleStart, does_eq, if_pos ⟨hring, hdone, hbound⟩]
  rfl

theorem execScheduleStart_none (hnot : ((s.before t).seg k).csDone = false ∨ (s.before t).majorOffset ≠ 0) :
    exec (.scheduleStart t k) s = .next (ends s t (s.before t)) := by
  have hstays : ¬ (((s.before t).seg k).ring = .csPhase ∧ ((s.before t).seg k).csDone = true ∧ (s.before t).majorOffset = 0) := by
    rintro ⟨-, hdone, hbound⟩
    exact hnot.elim (fun h => absurd hdone (by simp [h])) (fun h => h hbound)
  show execScheduleStart t k s = _
  rw [execScheduleStart, does_eq, if_neg hstays]

end

/-! ## O45 -/

section

variable {s : State} {t k : Nat} {chB : Bool} {frame : List Byte}

theorem execCsReceived_heard (hhears : (s.before t).hears k chB = true) (hok : coldOk frame 5 csLen [0, 62] = true) :
    ∃ o, exec (.csReceived t k chB frame) s = .next (ends s t (((s.before t).withOut o).hearCs k frame)) := by
  obtain ⟨o, ho⟩ := State.onFrame_heard hhears hok frame fun v => v.hearCs k frame
  exact ⟨o, by rw [exec_csReceived, does_eq, ho]⟩

theorem execSyReceived_heard (hhears : (s.before t).hears k chB = true) (hok : coldOk frame 3 syLen [0] = true) :
    ∃ o, exec (.syReceived t k chB frame) s = .next (ends s t (((s.before t).withOut o).hearSy k chB frame)) := by
  obtain ⟨o, ho⟩ := State.onFrame_heard hhears hok frame fun v => v.hearSy k chB frame
  exact ⟨o, by rw [exec_syReceived, does_eq, ho]⟩

theorem execCtReceived_heard (hhears : (s.before t).hears k chB = true) (hok : coldOk frame 1 ctLen [0] = true) :
    ∃ o, exec (.ctReceived t k chB frame) s = .next (ends s t (((s.before t).withOut o).hearCt k chB frame)) := by
  obtain ⟨o, ho⟩ := State.onFrame_heard hhears hok frame fun v => v.hearCt k chB frame
  exact ⟨o, by rw [exec_ctReceived, does_eq, ho]⟩

end

/-- Settles O45: the events of the listen and of the CS phase by their own rules, each frame by what it does once it is heard. -/
theorem theColdStartIsWonOrJoined : Obligations.TheColdStartIsWonOrJoined := by
  intro s t k b g
  refine ⟨?listenEnds, ?listens, ?cs, ?phaseEnds, ?phaseStays, ?starts, ?waits, ?sy, ?ct, ?deaf⟩
  case listenEnds =>
    intro f hring hfrom hlong hsilent
    have hw : (b.draw.2.modSeg k fun g => g.contesting b.draw.1).seg k = g.contesting b.draw.1 := State.modSeg_seg_same ..
    exact ⟨_, execListenEnd_ends hring hfrom hlong hsilent, (congrArg Segment.ring hw :), (congrArg Segment.csUntil hw :),
      (congrArg Segment.csDone hw :), b.draw.2.modSeg_onSeg k _⟩
  case listens => exact fun f hfrom hnot => execListenEnd_none hfrom hnot
  case cs =>
    intro chB frame hhears hok p quiet marked equal code lower
    obtain ⟨o, ho⟩ := execCsReceived_heard hhears hok
    let v := b.withOut o
    have hcontest (hring : g.ring = .csPhase) (hopen : g.csDone = false) :
        v.hearCs k frame = v.contest k (byteAt p 0) (fld p 2 2) (byteAt p 4) := State.hearCs_of_contest (s := v) frame hring hopen
    refine ⟨_, ho, ?listening, ?equal, ?drawn, ?lost, ?halted, ?won, ?past⟩
    case listening =>
      intro hring
      rw [State.hearCs_of_listening (s := v) frame hring]
      exact ⟨rfl, congrArg Segment.ring (v.integrate_seg k)⟩
    case equal =>
      intro hring hopen hequal
      rw [hcontest hring hopen]
      exact State.contest_marks_equal (s := v) hequal k _ _
    case drawn =>
      intro hring hopen hequal hnonce
      rw [hcontest hring hopen, State.contest_of_drawn (s := v) hequal hnonce]
      exact State.beginListen_ring ..
    case lost =>
      intro hring hopen hlower hcode
      rw [hcontest hring hopen, State.contest_of_lost (s := v) hlower hcode, State.loseContest_seg]
      exact ⟨rfl, rfl⟩
    case halted =>
      intro hring hopen hlower hcode
      rw [hcontest hring hopen, State.contest_of_foreign (s := v) hlower hcode, State.haltRing_seg]
      exact ⟨rfl, State.haltRing_marks (v.seeRank_records k _).toGrows k⟩
    case won =>
      intro hring hopen hlower hdrawn
      rw [hcontest hring hopen, State.contest_of_higher (s := v) hdrawn hlower, State.seeRank_seg]
      rfl
    case past =>
      intro hlisten hpast
      rw [State.hearCs_of_past (s := v) frame hlisten hpast]
      exact ⟨rfl, rfl⟩
  case phaseEnds =>
    exact fun u hring huntil hover => ⟨_, execCsPhaseEnd_ends hring huntil hover, rfl, State.modSeg_seg_same ..⟩
  case phaseStays => exact fun u huntil hnot => execCsPhaseEnd_none huntil hnot
  case starts =>
    intro hring hdone hbound
    have happart := b.startedRing_apart k
    refine ⟨_, execScheduleStart_starts hring hdone hbound, (congrArg Segment.ring happart :), (congrArg Segment.synced happart :),
      (congrArg Segment.train happart :), fun hwest heast => ?_, fun hdown => ?_, ?_⟩
    · rw [State.startedRing_of_up hwest heast, State.started_seg]
      exact ⟨b.started_asy k, rfl⟩
    · rw [State.startedRing_of_down hdown]
      exact State.openRing_ringOpen ..
    · rw [State.startedRing_tw]
      exact b.started_role k
  case waits => exact fun hnot => execScheduleStart_none hnot
  case sy =>
    intro chB frame hhears hok h other
    obtain ⟨o, ho⟩ := execSyReceived_heard hhears hok
    let v := b.withOut o
    refine ⟨_, ho, v.hearSy_onSeg k chB frame, ?listening, ?lost, ?halted, ?foreign, ?integrating, ?integrated⟩
    case listening =>
      intro hring
      rw [State.hearSy_of_listening (s := v) chB hring, State.integrate_seg]
    case lost =>
      intro hring hopen hown
      rw [State.hearSy_of_lost (s := v) chB hring hopen hown, State.loseContest_seg]
      exact ⟨rfl, rfl⟩
    case halted =>
      intro hring hopen hother
      rw [State.hearSy_of_halted (s := v) chB hring hopen hother, State.haltRing_seg]
    case foreign =>
      intro hring hloser hother
      rw [State.hearSy_of_foreign (s := v) chB hring hloser hother, State.haltRing_seg]
    case integrating =>
      intro hring hown
      rw [State.hearSy_of_integrating (s := v) chB hring hown]
      exact ⟨fun hfirst => State.compareSy_of_first hfirst, fun x hheard hagree => State.compareSy_of_agreeing hheard hagree,
        fun x hheard hdiffer => State.compareSy_of_differing hheard hdiffer⟩
    case integrated =>
      intro hring
      rw [State.hearSy_of_integrated (s := v) chB hring]
      obtain ⟨hkept, hseen⟩ := v.heedSy_spec k chB frame
      exact ⟨hkept.trans hring, hseen⟩
  case ct =>
    intro chB frame hhears hok
    obtain ⟨o, ho⟩ := execCtReceived_heard hhears hok
    let v := b.withOut o
    refine ⟨_, ho, ?joins, ?follows⟩
    case joins =>
      rintro (hring | ⟨hring, hopen⟩)
      · rw [State.hearCt_of_listening (s := v) hring, State.integrate_seg]
        exact ⟨rfl, rfl⟩
      · rw [State.hearCt_of_contest (s := v) hring hopen, State.loseContest_seg]
        exact ⟨rfl, rfl⟩
    case follows =>
      intro hring hcount hchannel
      rw [State.hearCt_of_integrated (s := v) hring hcount hchannel]
      exact ⟨v.hearLeader_ctSeen k, rfl, rfl⟩
  case deaf =>
    intro chB frame hrole hdeaf
    rw [exec_csReceived, exec_syReceived, exec_ctReceived, does_eq, does_eq, does_eq, State.onFrame_unheard hrole hdeaf,
      State.onFrame_unheard hrole hdeaf, State.onFrame_unheard hrole hdeaf]
    exact ⟨rfl, rfl, rfl⟩

end Sys2Proof.Machine
end

section
/-! O30: TIME_STEP and TIME_SELECT (10 R445 to R448), UNMUTE and REQUEST of NODE_MGMT (09 R409; 14 R567). -/

namespace Sys2Proof.Machine

/-! ## What the desk leaves of machine time and of the segments -/

theorem Desk.seg {b w : State} (h : Desk b w) (k : Nat) : w.seg k = b.seg k := by rw [State.seg, h.segs]; rfl

theorem Desk.node {b w : State} (h : Desk b w) (k j : Nat) : w.node k j = b.node k j := by rw [State.node, h.seg]; rfl

theorem Desk.raw {b w : State} (h : Desk b w) : w.raw = b.raw := by rw [State.raw, h.now, h.time]; rfl

theorem Desk.mt {b w : State} (h : Desk b w) : w.mt = b.mt := by rw [State.mt, h.raw, h.time]; rfl

theorem Desk.activeDom {b w : State} (h : Desk b w) : w.activeDom = b.activeDom := by rw [State.activeDom, h.force]; rfl

theorem Desk.autoDom {b w : State} (h : Desk b w) : w.autoDom = b.autoDom := by rw [State.autoDom, h.force]; rfl

theorem State.raise_Desk (s : State) (src kind addr : Nat) (detail : List Byte) : Desk s (s.raise src kind addr detail) :=
  .of_desk (State.raise_desk ..)

/-! ## The commands -/

theorem exec_timeStep (s : State) (t : Nat) (h : DHdr) (toDomain : Bool) (x : Int) :
    exec (.timeStep t h toDomain x) s = s.does t fun b => b.runDescr h (.timeStep toDomain x) (fxTimeStep toDomain x) := rfl

theorem exec_timeSelect (s : State) (t : Nat) (h : DHdr) (d : Nat) (auto : Bool) :
    exec (.timeSelect t h d auto) s = s.does t fun b => b.runDescr h (.timeSelect d auto) (fxTimeSelect d auto) := rfl

theorem exec_unmute (s : State) (t : Nat) (h : DHdr) (seg node fn buf : Nat) (data : List Byte) :
    exec (.nodeMgmtUnmute t h false seg node fn buf data) s =
      s.does t fun b => b.runDescr h (.unmute seg node) (fxUnmute seg node) := rfl

theorem exec_nodeReq (s : State) (t : Nat) (h : DHdr) (seg node fn buf : Nat) (data : List Byte) :
    exec (.nodeMgmtUnmute t h true seg node fn buf data) s =
      s.does t fun b => b.runDescr h (.nodeReq seg node fn buf data) (fxNodeReq seg node fn buf data) := rfl

/-! ## MT with a whole offset (R431, R446) -/

/-- A multiple of 2^k is rounded to its quotient. -/
theorem roundConv_mul_two_pow (q : Int) (k : Nat) : roundConv (q * 2 ^ k) k = q := by
  cases k with
  | zero => rw [roundConv_zero, Int.pow_zero, Int.mul_one]
  | succ k =>
    have hpos : (0 : Int) < 2 ^ k := Int.pow_pos (by decide)
    have hquot : q * 2 ^ (k + 1) / 2 ^ (k + 1) = q := Int.mul_ediv_cancel _ (Int.ne_of_gt (Int.pow_pos (by decide)))
    rw [roundConv_succ, hquot, Int.sub_self, if_neg (by omega)]

/-- A signed 96-bit offset differs from its value by a multiple of 2^96. -/
theorem ofs96_eq_add (x : Int) : ∃ m, ofs96 x = x + m * 2 ^ 96 := by
  refine ⟨(ofs96 x - x) / 2 ^ 96, ?_⟩
  simp only [ofs96, toS, toU]
  omega

theorem toU_toU_add (w : Nat) (a x : Int) : toU w ((toU w a : Int) + x) = toU w (a + x) := by
  have hpos : (0 : Int) < (2 ^ w : Nat) := by exact_mod_cast Nat.two_pow_pos w
  rw [toU, toU, Int.toNat_of_nonneg (Int.emod_nonneg _ (Int.ne_of_gt hpos)), Int.emod_add_emod]
  rfl

theorem toU_add_mul (w : Nat) (a m : Int) : toU w (a + m * (2 ^ w : Nat)) = toU w a := by
  rw [toU, Int.add_mul_emod_self_right, toU]

/-- MT that does not drift and has a whole offset moves by what is added to the offset. -/
theorem mtAt_step {ofs : Int} (hwhole : ofs % 2 ^ 32 = 0) (x : Int) (r0 raw : Nat) :
    mtAt (ofs96 (ofs + x * 2 ^ 32)) 0 r0 raw = toU 64 ((mtAt ofs 0 r0 raw : Int) + x) := by
  obtain ⟨m, hm⟩ := ofs96_eq_add (ofs + x * 2 ^ 32)
  have hofs : ofs + 0 * ((raw : Int) - r0) = (ofs / 2 ^ 32) * 2 ^ 32 := by omega
  have hnew : ofs96 (ofs + x * 2 ^ 32) + 0 * ((raw : Int) - r0) = (ofs / 2 ^ 32 + x + m * (2 ^ 64 : Nat)) * 2 ^ 32 := by omega
  rw [mtAt, mtAt, hofs, hnew, roundConv_mul_two_pow, roundConv_mul_two_pow, toU_toU_add, ← Int.add_assoc, toU_add_mul,
    Int.add_assoc]

/-! ## TIME_STEP (R446, R447) -/

/-- TIME_STEP by `x` ns as MT follows it: the offset, and the marks of the step. -/
def State.steppedBy (s : State) (x : Int) : State :=
  let u := s.stepMt (x * 2 ^ 32)
  { u with time := { u.time with stepTaken := true } }

theorem State.steppedBy_mt {s : State} (hrate : s.time.rate = 0) (hwhole : s.time.ofs % 2 ^ 32 = 0) (x : Int) :
    (s.steppedBy x).mt = toU 64 ((s.mt : Int) + x) := by
  have hmt : (s.steppedBy x).mt = mtAt (ofs96 (s.time.ofs + x * 2 ^ 32)) s.time.rate s.time.r0 s.raw := rfl
  rw [hmt, State.mt, hrate, mtAt_step hwhole]

/-- Nothing bars a TIME_STEP by a number with every ring stopped and no other descriptor open (R447). -/
theorem State.timeStepBar_none {s : State} {e : Entry} (hmode : s.pw.mode = .idle ∨ s.pw.mode = .commission)
    (hstopped : ∀ k < 8, (s.seg k).ring = .stopped) (hacc : ∀ x ∈ s.host.acc, x.id = e.id) : s.timeStepBar e false = none := by
  have hsetup : ¬ (s.pw.mode ≠ .idle ∧ s.pw.mode ≠ .commission) := fun h => hmode.elim h.1 h.2
  have hrings : (List.range 8).any (fun k => decide ((s.seg k).ring ≠ .stopped)) = false := by simpa using hstopped
  have hopen : s.host.acc.any (fun x => decide (x.id ≠ e.id) && decide (x.prog = .waiting) &&
      (match x.due with | .cycle _ => true | _ => false)) = false :=
    List.any_eq_false.mpr fun x hx => by simp [hacc x hx]
  simp only [State.timeStepBar, hsetup, hrings, if_false, Bool.false_and, Bool.false_eq_true]
  exact if_neg (ne_true_of_eq_false hopen)

theorem State.timeStepBar_of_mode {s : State} (hidle : s.pw.mode ≠ .idle) (hcomm : s.pw.mode ≠ .commission) (e : Entry)
    (toDomain : Bool) : s.timeStepBar e toDomain = some (stRejMode, 0) := if_pos ⟨hidle, hcomm⟩

theorem fxTimeStep_Desk {s : State} {e : Entry} (hbar : s.timeStepBar e false = none) (x : Int) (c : Ctx) :
    Desk (s.steppedBy x) (fxTimeStep false x c e s) := by
  simp only [fxTimeStep, hbar]
  exact .trans (b := (s.steppedBy x).raise srcTime 0x5D 0 []) (State.raise_Desk ..)
    ((Desk.of_desk (State.modEntry_desk ..)).trans (State.finish_Desk ..))

theorem fxTimeStep_Desk_of_bar {s : State} {e : Entry} {toDomain : Bool} {f : Nat × Nat} (hbar : s.timeStepBar e toDomain = some f)
    (x : Int) (c : Ctx) : Desk s (fxTimeStep toDomain x c e s) := by
  simp only [fxTimeStep, hbar]
  exact .of_desk (State.turnAway_desk ..)

/-- TIME_STEP that nothing bars leaves MT stepped. -/
theorem execTimeStep_steps {s : State} {t : Nat} {h : DHdr} {x : Int} (ht : Taken (s.before t) h (.timeStep false x))
    (hmode : (s.before t).pw.mode = .idle ∨ (s.before t).pw.mode = .commission)
    (hstopped : ∀ k < 8, ((s.before t).seg k).ring = .stopped) (hacc : (s.before t).host.acc = []) :
    ∃ w, exec (.timeStep t h false x) s = .next (ends s t w) ∧ Desk ((s.before t).steppedBy x) w := by
  let v := (s.before t).cmdTaken h (.timeStep false x)
  have hone : ∀ y ∈ v.host.acc, y.id = ((s.before t).cmdEntry h (.timeStep false x)).id := by simp [v, State.cmdTaken, hacc]
  have hbar := State.timeStepBar_none (s := v) hmode hstopped hone
  have htaken : Desk ((s.before t).steppedBy x) (v.steppedBy x) := rfl
  exact ⟨_, exec_taken (exec_timeStep ..) ht, (htaken.trans (fxTimeStep_Desk hbar x _)).trans (State.postReady_Desk _)⟩

/-- TIME_STEP outside IDLE and COMMISSION steps nothing. -/
theorem execTimeStep_refused {s : State} {t : Nat} {h : DHdr} {x : Int} {toDomain : Bool}
    (ht : Taken (s.before t) h (.timeStep toDomain x)) (hidle : (s.before t).pw.mode ≠ .idle)
    (hcomm : (s.before t).pw.mode ≠ .commission) :
    ∃ w, exec (.timeStep t h toDomain x) s = .next (ends s t w) ∧ Desk (s.before t) w := by
  have hbar := State.timeStepBar_of_mode (s := (s.before t).cmdTaken h (.timeStep toDomain x)) hidle hcomm
  exact ⟨_, exec_taken (exec_timeStep ..) ht,
    ((State.cmdTaken_Desk ..).trans (fxTimeStep_Desk_of_bar (hbar _ _) x _)).trans (State.postReady_Desk _)⟩

/-! ## TIME_SELECT (R448) -/

/-- TIM_CTL with AUTO set to `auto`. -/
def timAuto (v : Nat) (auto : Bool) : Nat := v - 8 * bits v 3 3 + 8 * b2n auto

theorem bit_eq_bits (v i : Nat) : bit v i = decide (bits v i i = 1) := by
  rw [bit, bits, Nat.add_sub_cancel_left, Nat.pow_one, Nat.testBit_eq_decide_div_mod_eq, Nat.shiftRight_eq_div_pow]

theorem timAuto_fields (v : Nat) (auto : Bool) : bits (timAuto v auto) 2 2 = bits v 2 2 ∧ bit (timAuto v auto) 3 = auto := by
  rw [bit_eq_bits]
  have hb : b2n auto < 2 ∧ decide (b2n auto = 1) = auto := by cases auto <;> decide
  have hbits : bits (timAuto v auto) 2 2 = bits v 2 2 ∧ bits (timAuto v auto) 3 3 = b2n auto := by
    simp only [timAuto, bits, Nat.shiftRight_eq_div_pow]
    omega
  rw [hbits.1, hbits.2]
  exact ⟨rfl, hb.2⟩

theorem timActive_fields (v d : Nat) : bits (timActive v d) 2 2 = d % 2 ∧ bit (timActive v d) 3 = bit v 3 := by
  rw [bit_eq_bits, bit_eq_bits, decide_eq_decide]
  simp only [timActive, bits, Nat.shiftRight_eq_div_pow]
  omega

/-- Domain `d` is the active one from here on. -/
def State.selectDom (s : State) (d : Nat) : State := if s.activeDom = d then s else s.switchDom d

theorem State.switchDom_Desk (s : State) (d : Nat) :
    Desk { s with regs := (s.switchDom d).regs, time := { s.time with switchedAt := some s.raw } } (s.switchDom d) := by
  rw [State.switchDom, (State.raise_Desk ..).regs, State.devSet_eq]
  exact State.raise_Desk ..

theorem State.switchDom_force (s : State) (d : Nat) : (s.switchDom d).force 0x0C0000 = timActive (s.force 0x0C0000) d := by
  rw [State.switchDom, (State.raise_Desk ..).force, State.devSet_force_same]
  rfl

theorem State.selectDom_Desk (s : State) (d : Nat) :
    Desk { s with regs := (s.selectDom d).regs, time := { s.time with switchedAt := (s.selectDom d).time.switchedAt } }
      (s.selectDom d) := by
  unfold State.selectDom
  split
  · exact rfl
  · rw [(s.switchDom_Desk d).time]
    exact s.switchDom_Desk d

theorem State.selectDom_activeDom (s : State) {d : Nat} (hd : d < 2) : (s.selectDom d).activeDom = d := by
  unfold State.selectDom
  split
  · assumption
  · rw [State.activeDom, State.switchDom_force, (timActive_fields _ d).1, Nat.mod_eq_of_lt hd]

theorem State.selectDom_autoDom (s : State) (d : Nat) : (s.selectDom d).autoDom = s.autoDom := by
  unfold State.selectDom
  split
  · rfl
  · rw [State.autoDom, State.switchDom_force, (timActive_fields _ d).2, State.autoDom]

theorem Desk.withTime {b w : State} (h : Desk b w) (u : TimeUnit) : Desk { b with time := u } { w with time := u } := by
  rw [show w = _ from h]
  rfl

/-- The settings of a TIME_SELECT stand: AUTO, and domain `d` active. -/
def State.timeSelected (s : State) (d : Nat) (auto : Bool) : State :=
  let u := (s.devSet 0x0C0000 8 (timAuto (s.force 0x0C0000) auto)).selectDom d
  { u with time := { u.time with selTaken := true } }

theorem State.timeSelected_Desk (s : State) (d : Nat) (auto : Bool) :
    Desk { s with
      regs := (s.timeSelected d auto).regs
      time := { s.time with selTaken := true, switchedAt := (s.timeSelected d auto).time.switchedAt } } (s.timeSelected d auto) := by
  rw [State.timeSelected, State.devSet_eq]
  have hsel := State.selectDom_Desk { s with regs := (s.devSet 0x0C0000 8 (timAuto (s.force 0x0C0000) auto)).regs } d
  dsimp only
  rw [hsel.time]
  exact hsel.withTime _

theorem State.timeSelected_activeDom (s : State) {d : Nat} (hd : d < 2) (auto : Bool) : (s.timeSelected d auto).activeDom = d :=
  State.selectDom_activeDom _ hd

theorem State.timeSelected_autoDom (s : State) (d : Nat) (auto : Bool) : (s.timeSelected d auto).autoDom = auto := by
  refine (State.selectDom_autoDom ..).trans ?_
  rw [State.autoDom, State.devSet_force_same, (timAuto_fields _ auto).2]

theorem fxTimeSelect_Desk {s : State} {d : Nat} (hreset : s.pw.mode ≠ .reset) (hboot : s.pw.mode ≠ .boot)
    (hlocked : s.domLocked d = true) (auto : Bool) (c : Ctx) (e : Entry) :
    Desk (s.timeSelected d auto) (fxTimeSelect d auto c e s) := by
  have hrun : ¬ (s.pw.mode = .reset ∨ s.pw.mode = .boot) := not_or.mpr ⟨hreset, hboot⟩
  simp only [fxTimeSelect, hrun, hlocked, Bool.not_true, Bool.false_eq_true, if_false]
  exact State.finish_Desk ..

theorem execTimeSelect_selects {s : State} {t : Nat} {h : DHdr} {d : Nat} {auto : Bool}
    (ht : Taken (s.before t) h (.timeSelect d auto)) (hreset : (s.before t).pw.mode ≠ .reset) (hboot : (s.before t).pw.mode ≠ .boot)
    (hd : d < 2) (hlocked : (s.before t).domLocked d = true) : let b := s.before t
    ∃ w, exec (.timeSelect t h d auto) s = .next (ends s t w) ∧
      Desk { b with regs := w.regs, time := { b.time with selTaken := true, switchedAt := w.time.switchedAt } } w ∧
      w.activeDom = d ∧ w.autoDom = auto := by
  let v := (s.before t).cmdTaken h (.timeSelect d auto)
  refine ⟨_, exec_taken (exec_timeSelect ..) ht, ?_⟩
  have hdesk := (fxTimeSelect_Desk (s := v) hreset hboot hlocked auto ((s.before t).cmdCtx h (.timeSelect d auto))
    ((s.before t).cmdEntry h (.timeSelect d auto))).trans (State.postReady_Desk _)
  rw [hdesk.activeDom, hdesk.autoDom, hdesk.regs, hdesk.time]
  exact ⟨(v.timeSelected_Desk d auto).trans hdesk, v.timeSelected_activeDom hd auto, v.timeSelected_autoDom d auto⟩

/-! ## NODE_MGMT (09 R409; 14 R567) -/

theorem fxUnmute_Desk (s : State) (seg node : Nat) (c : Ctx) (e : Entry) :
    Desk (s.modNode seg node fun d => { d with muted := false, offence := 0 }) (fxUnmute seg node c e s) :=
  (Desk.of_desk (State.liveOff_desk ..)).trans (State.finish_Desk ..)

theorem execUnmute_node {s : State} {t : Nat} {h : DHdr} {seg node : Nat} (fn buf : Nat) (data : List Byte)
    (ht : Taken (s.before t) h (.unmute seg node)) :
    ∃ w, exec (.nodeMgmtUnmute t h false seg node fn buf data) s = .next (ends s t w) ∧
      Desk ((s.before t).modNode seg node fun d => { d with muted := false, offence := 0 }) w :=
  ⟨_, exec_taken (exec_unmute ..) ht, (fxUnmute_Desk ((s.before t).cmdTaken h (.unmute seg node)) ..).trans (State.postReady_Desk _)⟩

/-- The request that a descriptor puts before a node. -/
def requestOf (id node fn buf : Nat) (data : List Byte) : MgReq :=
  { id := id, node := node, fn := fn, trans := 0, data := data, buf := buf, repeats := 0, sent := false }

/-- A request that fits its entry, of a node that is live, takes the free management slot of its segment. -/
theorem fxNodeReq_of_free {s : State} {seg node x : Nat} {data : List Byte} (hentry : s.requestEntry seg = some x)
    (hfits : fitsLen (22 + data.length) (schLen (s.sched seg x)) = true) (hlive : (s.node seg node).live = true)
    (hfree : (s.seg seg).mg = none) (fn buf : Nat) (c : Ctx) (e : Entry) :
    (fxNodeReq seg node fn buf data c e s).seg seg = { s.seg seg with mg := some (requestOf e.id node fn buf data) } ∧
      OnSeg seg s (fxNodeReq seg node fn buf data c e s) := by
  simp only [fxNodeReq, hentry, hfits, hlive, Bool.not_true, Bool.false_eq_true, if_false]
  refine ⟨?_, s.modSeg_onSeg seg _⟩
  rw [State.modSeg_seg_same, hfree]
  rfl

theorem execNodeReq_waits {s : State} {t : Nat} {h : DHdr} {seg node fn buf x : Nat} {data : List Byte}
    (ht : Taken (s.before t) h (.nodeReq seg node fn buf data)) (hentry : (s.before t).requestEntry seg = some x)
    (hfits : fitsLen (22 + data.length) (schLen ((s.before t).sched seg x)) = true)
    (hlive : ((s.before t).node seg node).live = true) (hfree : ((s.before t).seg seg).mg = none) : let b := s.before t
    ∃ w, exec (.nodeMgmtUnmute t h true seg node fn buf data) s = .next (ends s t w) ∧
      w.seg seg = { b.seg seg with mg := some (requestOf b.host.nextId node fn buf data) } ∧ OnSeg seg b w := by
  let v := (s.before t).cmdTaken h (.nodeReq seg node fn buf data)
  obtain ⟨hseg, hothers⟩ := fxNodeReq_of_free (s := v) hentry hfits hlive hfree fn buf ((s.before t).cmdCtx h _)
    ((s.before t).cmdEntry h _)
  exact ⟨_, exec_taken (exec_nodeReq ..) ht, ((State.postReady_Desk _).seg seg).trans hseg,
    fun k hk => ((State.postReady_Desk _).seg k).trans (hothers k hk)⟩

/-- Settles O30: each of the descriptors by what its command leaves. -/
theorem timeAndNodesAreManaged : Obligations.TimeAndNodesAreManaged := by
  intro s t h b
  refine ⟨fun x ht hmode hstopped hacc hrate hwhole => ?step, fun x toDomain ht => execTimeStep_refused ht,
    fun d auto ht hreset hboot hd hlocked _ => execTimeSelect_selects ht hreset hboot hd hlocked,
    fun seg node fn buf data ht => ?unmute, fun seg node fn buf data x ht hentry hfits hlive hfree => ?request⟩
  case step =>
    obtain ⟨w, hw, hdesk⟩ := execTimeStep_steps ht hmode hstopped hacc
    refine ⟨w, hw, ?_, hdesk.mt.trans (State.steppedBy_mt hrate hwhole x)⟩
    rw [hdesk.time, hdesk.saf]
    exact hdesk
  case unmute =>
    obtain ⟨w, hw, hdesk⟩ := execUnmute_node fn buf data ht
    refine ⟨w, hw, ?_, ?_, fun k hk => ?_, fun j hj => ?_⟩
    · rw [hdesk.node, State.modNode_node_same]
    · rw [hdesk.node, State.modNode_node_same]
    · rw [hdesk.seg, State.modNode_onSeg _ _ _ _ k hk]
    · rw [hdesk.node, State.modNode_node_ne _ _ _ hj]
  case request =>
    obtain ⟨w, hw, hseg, hothers⟩ := execNodeReq_waits ht hentry hfits hlive hfree
    exact ⟨w, hw, congrArg Segment.mg hseg, hothers⟩

end Sys2Proof.Machine
end

section
/-! O47: time domains and plant ports as they change (10 R437, R440, R449): a domain that enters a state or is lost, the gPTP
messages of a port, and what all that leaves alone. -/

namespace Sys2Proof.Machine

/-! ## Domains -/

theorem Desk.dom {b w : State} (h : Desk b w) (k : Nat) : w.dom k = b.dom k := by rw [State.dom, h.time]; rfl

theorem Desk.plant {b w : State} (h : Desk b w) (p : Nat) : w.plant p = b.plant p := by rw [State.plant, h.time]; rfl

/-- `w` is `b` but for the time domains and for what the desk writes. -/
def OnDoms (b w : State) : Prop := Desk { b with time := { b.time with d0 := w.time.d0, d1 := w.time.d1 } } w

theorem OnDoms.of_desk {b w : State} (h : Desk b w) : OnDoms b w := by rw [OnDoms, h.time]; exact h

theorem OnDoms.refl (b : State) : OnDoms b b := .of_desk (.refl b)

theorem OnDoms.desk {b w : State} (h : OnDoms b w) : Desk { b with time := { b.time with d0 := w.time.d0, d1 := w.time.d1 } } w := h

theorem OnDoms.trans {a b c : State} (h : OnDoms a b) (g : OnDoms b c) : OnDoms a c := by
  have htime := h.desk.withTime { b.time with d0 := c.time.d0, d1 := c.time.d1 }
  rw [h.desk.time] at htime
  refine htime.trans ?_
  have hb := h.desk.time
  rw [OnDoms, hb] at g
  exact g

theorem OnDoms.ite {b v w : State} {c : Prop} [Decidable c] (h : OnDoms b v) (g : OnDoms b w) : OnDoms b (if c then v else w) := by
  split
  · exact h
  · exact g

theorem OnDoms.force {b w : State} (h : OnDoms b w) (off : Nat) : w.force off = b.force off := h.desk.force off

theorem OnDoms.plant {b w : State} (h : OnDoms b w) (p : Nat) : w.plant p = b.plant p := h.desk.plant p

theorem OnDoms.raw {b w : State} (h : OnDoms b w) : w.raw = b.raw := h.desk.raw

theorem OnDoms.rateLim {b w : State} (h : OnDoms b w) : w.rateLim = b.rateLim := by rw [State.rateLim, h.force]; rfl

theorem OnDoms.mtOfs {b w : State} (h : OnDoms b w) : w.time.ofs = b.time.ofs := (congrArg TimeUnit.ofs h.desk.time :)

@[simp] theorem State.modDom_dom_same (s : State) (k : Nat) (f : Domain → Domain) : (s.modDom k f).dom k = f (s.dom k) := by
  unfold State.modDom State.dom
  split <;> rfl

@[simp] theorem State.modDom_asy (s : State) (k : Nat) (f : Domain → Domain) : (s.modDom k f).asy = s.asy := by
  unfold State.modDom
  split <;> rfl

theorem State.modDom_onDoms (s : State) (k : Nat) (f : Domain → Domain) : OnDoms s (s.modDom k f) := by
  unfold State.modDom
  split <;> rfl

/-! ## Plant ports -/

@[simp] theorem State.modPlant_plant_same (s : State) (p : Nat) (f : PlantPort → PlantPort) :
    (s.modPlant p f).plant p = f (s.plant p) := by
  unfold State.modPlant State.plant
  split <;> rfl

@[simp] theorem State.modPlant_dom (s : State) (p : Nat) (f : PlantPort → PlantPort) (k : Nat) :
    (s.modPlant p f).dom k = s.dom k := by
  unfold State.modPlant
  split <;> rfl

@[simp] theorem State.modPlant_asy (s : State) (p : Nat) (f : PlantPort → PlantPort) : (s.modPlant p f).asy = s.asy := by
  unfold State.modPlant
  split <;> rfl

@[simp] theorem State.modPlant_raw (s : State) (p : Nat) (f : PlantPort → PlantPort) : (s.modPlant p f).raw = s.raw := by
  unfold State.modPlant
  split <;> rfl

@[simp] theorem State.modPlant_out (s : State) (p : Nat) (f : PlantPort → PlantPort) : (s.modPlant p f).out = s.out := by
  unfold State.modPlant
  split <;> rfl

@[simp] theorem State.modPlant_force (s : State) (p : Nat) (f : PlantPort → PlantPort) (off : Nat) :
    (s.modPlant p f).force off = s.force off := by
  unfold State.modPlant
  split <;> rfl

theorem State.modPlant_onTime (s : State) (p : Nat) (f : PlantPort → PlantPort) :
    s.modPlant p f = { s with time := (s.modPlant p f).time } := by
  unfold State.modPlant
  split <;> rfl

/-! ## A domain enters a state (R440) -/

theorem State.liveOn_held (s : State) (src kind : Nat) : (s.liveOn src kind).asy.held = s.asy.held := rfl

theorem State.liveOff_held (s : State) (src kind : Nat) : (s.liveOff src kind).asy.held = s.asy.held := rfl

/-- A domain that enters a state at a raw count. -/
def Domain.enter (d : Domain) (st : DomState) (raw : Nat) : Domain :=
  { d with st := st, enteredAt := raw, first := decide (st = .acquire), good := 0 }

section
variable {s : State} {k : Nat} {st : DomState} (hne : (s.dom k).st ≠ st)
include hne

/-- The mark of a change of state is the last thing that it does. -/
theorem State.setDom_eq_raise : ∃ v, Desk (s.modDom k fun d => d.enter st s.raw) v ∧ v.asy.held = s.asy.held ∧
    ∃ detail, s.setDom k st = v.raise (srcDom k) 0x58 0 detail := by
  simp only [State.setDom, hne, if_false]
  refine ⟨_, ?_, ?_, _, rfl⟩
  · split
    · exact .of_desk (State.liveOff_desk ..)
    · exact .of_desk (State.liveOn_desk ..)
  · split
    · rw [State.liveOff_held, State.modDom_asy]
    · rw [State.liveOn_held, State.modDom_asy]

theorem State.setDom_Desk : Desk (s.modDom k fun d => d.enter st s.raw) (s.setDom k st) := by
  obtain ⟨v, hv, -, detail, hset⟩ := State.setDom_eq_raise hne
  rw [hset]
  exact hv.trans (State.raise_Desk ..)

theorem State.setDom_dom : (s.setDom k st).dom k = (s.dom k).enter st s.raw := by
  rw [(State.setDom_Desk hne).dom, State.modDom_dom_same]

theorem State.setDom_held : ∃ m, (s.setDom k st).asy.held = s.asy.held ++ [m] ∧ m.src = srcDom k ∧ m.kind = 0x58 := by
  obtain ⟨v, -, hheld, detail, hset⟩ := State.setDom_eq_raise hne
  rw [hset, ← hheld]
  exact State.raise_held ..

end

theorem State.setDom_of_eq {s : State} {k : Nat} {st : DomState} (h : (s.dom k).st = st) : s.setDom k st = s := if_pos h

theorem State.setDom_onDoms (s : State) (k : Nat) (st : DomState) : OnDoms s (s.setDom k st) := by
  by_cases h : (s.dom k).st = st
  · rw [State.setDom_of_eq h]
    exact .refl s
  · exact (s.modDom_onDoms k _).trans (.of_desk (State.setDom_Desk h))

/-! ## Loss (R440) -/

/-- Domain `k` of `b` is lost in `w`: it goes from ACQUIRE and LOCKED to HOLDOVER, with its mark, and keeps any other state. -/
def LosesDom (b w : State) (k : Nat) : Prop :=
  ((b.dom k).st = .acquire ∨ (b.dom k).st = .locked → (w.dom k).st = .holdover ∧ (w.dom k).enteredAt = b.raw ∧
    ∃ m, w.asy.held = b.asy.held ++ [m] ∧ m.src = srcDom k ∧ m.kind = 0x58) ∧
  ((b.dom k).st ≠ .acquire → (b.dom k).st ≠ .locked → (w.dom k).st = (b.dom k).st)

theorem State.loseDom_of_held {s : State} {k : Nat} (h : ¬ ((s.dom k).st = .acquire ∨ (s.dom k).st = .locked)) :
    s.loseDom k = s := if_neg h

theorem State.loseDom_of_tracking {s : State} {k : Nat} (h : (s.dom k).st = .acquire ∨ (s.dom k).st = .locked) :
    s.loseDom k = s.setDom k .holdover ∧ (s.dom k).st ≠ .holdover := by
  refine ⟨if_pos h, ?_⟩
  intro hst
  simp [hst] at h

theorem State.loseDom_loses (s : State) (k : Nat) : LosesDom s (s.loseDom k) k := by
  constructor
  · intro h
    obtain ⟨hlose, hne⟩ := State.loseDom_of_tracking h
    rw [hlose, State.setDom_dom hne]
    exact ⟨rfl, rfl, State.setDom_held hne⟩
  · intro hacq hlocked
    rw [State.loseDom_of_held (not_or.mpr ⟨hacq, hlocked⟩)]

/-- Loss touches the state of a domain, not what it measures. -/
theorem State.loseDom_dom (s : State) (k : Nat) :
    (s.loseDom k).dom k = s.dom k ∨ (s.loseDom k).dom k = (s.dom k).enter .holdover s.raw := by
  by_cases h : (s.dom k).st = .acquire ∨ (s.dom k).st = .locked
  · obtain ⟨hlose, hne⟩ := State.loseDom_of_tracking h
    exact .inr (by rw [hlose, State.setDom_dom hne])
  · exact .inl (by rw [State.loseDom_of_held h])

theorem State.loseDom_onDoms (s : State) (k : Nat) : OnDoms s (s.loseDom k) := by
  unfold State.loseDom
  split
  · exact s.setDom_onDoms k _
  · exact .refl s

/-- The loss of `v` is one of `b`, where both agree on the domain's state, on the raw count and on the marks. -/
theorem LosesDom.of_same {b v w : State} {k : Nat} (hst : (v.dom k).st = (b.dom k).st) (hraw : v.raw = b.raw)
    (hasy : v.asy = b.asy) (h : LosesDom v w k) : LosesDom b w k := by
  rw [LosesDom, hst, hraw, hasy] at h
  exact h

/-! ## asCapable and links (R440, R449) -/

/-- asCapable as given, and without it the domain is lost. -/
theorem State.setCapable_spec (s : State) (k : Nat) (c : Bool) :
    ((s.setCapable k c).dom k).capable = c ∧ ((s.setCapable k c).dom k).mld = (s.dom k).mld ∧
      (c = true → ((s.setCapable k c).dom k).st = (s.dom k).st) ∧ (c = false → LosesDom s (s.setCapable k c) k) ∧
      OnDoms s (s.setCapable k c) := by
  let v := s.modDom k fun d => { d with capable := c }
  have hv : v.dom k = { s.dom k with capable := c } := s.modDom_dom_same k _
  have hon : OnDoms s v := s.modDom_onDoms k _
  cases c with
  | true => exact ⟨(congrArg Domain.capable hv :), (congrArg Domain.mld hv :), fun _ => (congrArg Domain.st hv :), nofun, hon⟩
  | false =>
    have hloses : LosesDom s (v.loseDom k) k := (v.loseDom_loses k).of_same (congrArg Domain.st hv :) hon.raw (s.modDom_asy k _)
    have hdom : ((v.loseDom k).dom k).capable = false ∧ ((v.loseDom k).dom k).mld = (s.dom k).mld := by
      obtain h | h := v.loseDom_dom k <;> rw [h, hv] <;> exact ⟨rfl, rfl⟩
    exact ⟨hdom.1, hdom.2, nofun, fun _ => hloses, hon.trans (v.loseDom_onDoms k)⟩

/-! ## gPTP messages of a port (R449; 14 R570) -/

theorem mem_putAhead (port : Nat) (o : Out) (l : List Out) : o ∈ putAhead port o l := by
  induction l with
  | nil => exact List.mem_singleton_self o
  | cons x r ih =>
    unfold putAhead
    split
    · split
      · simp
      · exact List.mem_cons_of_mem _ ih
    · exact List.mem_cons_of_mem _ ih

theorem subset_putAhead (port : Nat) (o : Out) (l : List Out) : l ⊆ putAhead port o l := by
  induction l with
  | nil => exact List.nil_subset _
  | cons x r ih =>
    unfold putAhead
    split
    · split
      · exact List.cons_subset_cons _ (List.subset_cons_self o r)
      · exact List.cons_subset_cons _ ih
    · exact List.cons_subset_cons _ ih

theorem State.emitGptp_eq (s : State) (port : Nat) (o : Out) : s.emitGptp port o = { s with out := (s.emitGptp port o).out } := by
  unfold State.emitGptp
  split <;> rfl

theorem State.emitGptp_of_unsent {s : State} {port : Nat} (h : (s.plant port).sentAt ≠ some s.core) (o : Out) :
    s.emitGptp port o = s.emit o := if_neg h

theorem State.mem_emitGptp (s : State) (port : Nat) (o : Out) : o ∈ (s.emitGptp port o).out := by
  unfold State.emitGptp
  split
  · exact mem_putAhead ..
  · exact List.mem_cons_self

theorem State.subset_emitGptp (s : State) (port : Nat) (o : Out) : s.out ⊆ (s.emitGptp port o).out := by
  unfold State.emitGptp
  split
  · exact subset_putAhead ..
  · exact List.subset_cons_self _ _

end Sys2Proof.Machine
end

section
/-! O47: the servo of a time domain (10 R438, R439). -/

namespace Sys2Proof.Machine

/-! ## Rates (R432) -/

theorem Domain.setRate_rate (d : Domain) (rate : Int) (raw : Nat) : (d.setRate rate raw).rate = rate := by
  unfold Domain.setRate
  split
  · next h => exact h.symm
  · rfl

/-- A new rate restarts the count of an estimate and changes nothing else. -/
theorem Domain.setRate_eq (d : Domain) (rate : Int) (raw : Nat) :
    d.setRate rate raw = { d with rate := rate, ofs := (d.setRate rate raw).ofs, r0 := (d.setRate rate raw).r0 } := by
  unfold Domain.setRate
  split
  · next h => rw [h]
  · rfl

/-- The rate of a domain and its frequency term keep to a limit. -/
def Domain.Within (d : Domain) (lim : Int) : Prop := -lim ≤ d.rate ∧ d.rate ≤ lim ∧ -lim ≤ d.freq ∧ d.freq ≤ lim

theorem State.rateLim_nonneg (s : State) : 0 ≤ s.rateLim := Int.natCast_nonneg _

/-! ## One sample (R439) -/

section
variable (d : Domain) {lim : Int} (e : Int)

theorem Domain.firstSample_spec (hlim : 0 ≤ lim) (c n : Int) (raw : Nat) : let x := d.firstSample lim e c n raw
    x.st = d.st ∧ x.first = false ∧ x.good = 0 ∧ x.Within lim := by
  intro x
  have hfreq := clampI_mem (lo := -lim) (hi := lim) (by omega) (firstFreq c n)
  have hrate : x.rate = clampI (firstFreq c n) (-lim) lim := Domain.setRate_rate ..
  refine ⟨?_, rfl, rfl, hrate ▸ hfreq.1, hrate ▸ hfreq.2, hfreq⟩
  exact (congrArg Domain.st (Domain.setRate_eq ..) :)

theorem Domain.steerSample_spec (hlim : 0 ≤ lim) (t : Int) (ki kp : Nat) (good : Bool) (raw : Nat) :
    let x := d.steerSample lim e t ki kp good raw
    x.st = d.st ∧ x.first = d.first ∧ x.good = (if good then d.good + 1 else 0) ∧ x.Within lim := by
  intro x
  let terms := servoTerms d lim e t ki kp
  have hfreq := clampI_mem (lo := -lim) (hi := lim) (by omega) terms.1
  have hrate := clampI_mem (lo := -lim) (hi := lim) (by omega) terms.2.2
  have hset : x.rate = clampI terms.2.2 (-lim) lim := Domain.setRate_rate ..
  refine ⟨?_, ?_, rfl, hset ▸ hrate.1, hset ▸ hrate.2, hfreq⟩
  · exact (congrArg Domain.st (Domain.setRate_eq ..) :)
  · exact (congrArg Domain.first (Domain.setRate_eq ..) :)

end

section
variable (s : State) (k rawI origin : Nat) (corr cum : Int)

/-- The error of a sample: e_i of R438, as a signed number of 64 bits. -/
def State.sampleErr : Int := toS 64 (toU 64 (s.syncTime k origin corr - ((s.dom k).at rawI : Int)))

/-- The sample steps the domain (R439). -/
def State.sampleSteps : Bool := !(s.dom k).first && decide (s.stepNs < ((s.sampleErr k rawI origin corr).natAbs : Int))

/-- The domain with the rate and the offset that a sample gives it. -/
def State.tuned : Domain :=
  let d := s.dom k
  let e := s.sampleErr k rawI origin corr
  if d.first then d.firstSample s.rateLim e cum (s.plant k).nrr s.raw
  else if s.sampleSteps k rawI origin corr then d.stepSample e
  else d.steerSample s.rateLim e ((rawI : Int) - d.lastRaw) (bits (s.force 0x0C0004) 7 4) (bits (s.force 0x0C0004) 3 0)
    (decide ((e.natAbs : Int) ≤ s.lockNs)) s.raw

/-- The domain after a sample, before it may lock. -/
def State.sampled : Domain :=
  { s.tuned k rawI origin corr cum with
    lastE := lastE (s.sampleErr k rawI origin corr), lastRaw := rawI
    prior := some (s.raw, (s.dom k).ofs, (s.dom k).rate, (s.dom k).r0) }

theorem TimeUnit.setRate_doms (u : TimeUnit) (rate : Int) (raw : Nat) :
    (u.setRate rate raw).d0 = u.d0 ∧ (u.setRate rate raw).d1 = u.d1 := by
  unfold TimeUnit.setRate
  split <;> exact ⟨rfl, rfl⟩

/-- A slew is of MT's own rate: it leaves the domains alone. -/
theorem State.slewTo_dom (d : Domain) (j : Nat) : (s.slewTo d).dom j = s.dom j := by
  unfold State.slewTo
  dsimp only
  split
  · rfl
  · split <;> simp only [State.dom, TimeUnit.setRate_doms]

theorem State.slewMt_dom (j : Nat) : s.slewMt.dom j = s.dom j := s.slewTo_dom _ j

theorem State.slewMt_asy : s.slewMt.asy = s.asy := by
  unfold State.slewMt State.slewTo
  dsimp only
  split
  · rfl
  · split <;> rfl

/-- What a sample does but for the lock: the domain is sampled, MT may follow a step at once, and marks are raised. -/
theorem State.servo_eq : ∃ v, s.servo k rawI origin corr cum =
      (if (s.dom k).st = .acquire ∧ 8 ≤ (s.sampled k rawI origin corr cum).good then v.setDom k .locked else v) ∧
    v.dom k = s.sampled k rawI origin corr cum ∧ Grows s v ∧
    (s.sampleSteps k rawI origin corr = false → v.time.ofs = s.time.ofs) ∧
    (s.sampleSteps k rawI origin corr = true → (s.dom k).st = .locked →
      ∃ m l, v.asy.held = s.asy.held ++ m :: l ∧ m.src = srcDom k ∧ m.kind = 0x59) := by
  let d := s.dom k
  let x := s.sampled k rawI origin corr cum
  let step := s.sampleSteps k rawI origin corr
  let v0 := s.modDom k fun _ => x
  let v1 := if step ∧ s.time.switchedAt = some s.raw ∧ s.activeDom = k ∧ s.tw.role ≠ .follower then v0.slewMt else v0
  let v2 := if step ∧ d.st = .locked then v1.raise (srcDom k) 0x59 0 [] else v1
  let v3 := if (x.clampF ∧ ¬ d.clampF) ∨ (x.clampR ∧ ¬ d.clampR) then v2.raise (srcDom k) 0x5A 0 [] else v2
  have h1 : v1.dom k = x ∧ v1.asy = s.asy := by
    have h0 : v0.dom k = x ∧ v0.asy = s.asy := ⟨s.modDom_dom_same k _, s.modDom_asy k _⟩
    by_cases hc : step ∧ s.time.switchedAt = some s.raw ∧ s.activeDom = k ∧ s.tw.role ≠ .follower
    · have hslew : v1 = v0.slewMt := if_pos hc
      rw [hslew, v0.slewMt_dom, v0.slewMt_asy]
      exact h0
    · have hstay : v1 = v0 := if_neg hc
      rw [hstay]
      exact h0
  have h2 : Desk v1 v2 ∧ Grows v1 v2 := by
    simp only [v2]
    split
    · exact ⟨State.raise_Desk .., (State.raise_records ..).toGrows⟩
    · exact ⟨.refl v1, .refl v1⟩
  have h3 : Desk v2 v3 ∧ Grows v2 v3 := by
    simp only [v3]
    split
    · exact ⟨State.raise_Desk .., (State.raise_records ..).toGrows⟩
    · exact ⟨.refl v2, .refl v2⟩
  refine ⟨v3, rfl, ?dom, ?grows, fun hstep => ?ofs, fun hstep hlocked => ?mark⟩
  case dom => rw [h3.1.dom, h2.1.dom, h1.1]
  case grows => exact ((Grows.of_asy h1.2).trans h2.2).trans h3.2
  case ofs =>
    have hstay : v1 = v0 := if_neg (by simp [step, hstep])
    rw [h3.1.time, h2.1.time, hstay]
    exact (s.modDom_onDoms k _).mtOfs
  case mark =>
    have hraise : v2 = v1.raise (srcDom k) 0x59 0 [] := if_pos ⟨hstep, hlocked⟩
    obtain ⟨m, hm, hsrc, hkind⟩ := v1.raise_held (srcDom k) 0x59 0 []
    obtain ⟨l, hl⟩ := h3.2.held
    refine ⟨m, l, ?_, hsrc, hkind⟩
    rw [← hl, hraise, hm, h1.2, List.append_assoc]
    rfl

theorem State.sampled_of_first (hfirst : (s.dom k).first = true) : let x := s.sampled k rawI origin corr cum
    x.st = (s.dom k).st ∧ x.first = false ∧ x.good = 0 ∧ x.Within s.rateLim := by
  rw [State.sampled, State.tuned, if_pos hfirst]
  exact Domain.firstSample_spec _ _ s.rateLim_nonneg ..

theorem State.sampled_of_near (hlater : (s.dom k).first = false)
    (hnear : ((s.sampleErr k rawI origin corr).natAbs : Int) ≤ s.stepNs) : let x := s.sampled k rawI origin corr cum
    s.sampleSteps k rawI origin corr = false ∧ x.st = (s.dom k).st ∧ x.first = false ∧
      x.good = (if ((s.sampleErr k rawI origin corr).natAbs : Int) ≤ s.lockNs then (s.dom k).good + 1 else 0) ∧ x.Within s.rateLim := by
  have hstay : s.sampleSteps k rawI origin corr = false := by simpa [State.sampleSteps, hlater] using hnear
  obtain ⟨hst, hfirst, hgood, hwithin⟩ := (s.dom k).steerSample_spec (s.sampleErr k rawI origin corr) s.rateLim_nonneg
    ((rawI : Int) - (s.dom k).lastRaw) (bits (s.force 0x0C0004) 7 4) (bits (s.force 0x0C0004) 3 0)
    (decide (((s.sampleErr k rawI origin corr).natAbs : Int) ≤ s.lockNs)) s.raw
  rw [State.sampled, State.tuned, if_neg (ne_true_of_eq_false hlater), if_neg (ne_true_of_eq_false hstay)]
  refine ⟨hstay, hst, hfirst.trans hlater, ?_, hwithin⟩
  simpa only [decide_eq_true_eq] using hgood

theorem State.sampled_of_far (hlater : (s.dom k).first = false)
    (hfar : s.stepNs < ((s.sampleErr k rawI origin corr).natAbs : Int)) : let x := s.sampled k rawI origin corr cum
    s.sampleSteps k rawI origin corr = true ∧ x.st = (s.dom k).st ∧ x.first = false ∧
      x.ofs = ofs96 ((s.dom k).ofs + s.sampleErr k rawI origin corr * 2 ^ 32) ∧ x.rate = (s.dom k).rate ∧ x.good = 0 := by
  have hstep : s.sampleSteps k rawI origin corr = true := by simpa [State.sampleSteps, hlater] using hfar
  rw [State.sampled, State.tuned, if_neg (ne_true_of_eq_false hlater), if_pos hstep]
  exact ⟨hstep, rfl, hlater, rfl, rfl, rfl⟩

/-- Every sample leaves the state of its domain to the lock, and is not followed by a first one. -/
theorem State.sampled_st_first : let x := s.sampled k rawI origin corr cum
    x.st = (s.dom k).st ∧ x.first = false := by
  cases hfirst : (s.dom k).first with
  | true =>
    obtain ⟨hst, hnot, -⟩ := s.sampled_of_first k rawI origin corr cum hfirst
    exact ⟨hst, hnot⟩
  | false =>
    obtain hfar | hnear := Int.lt_or_le s.stepNs ((s.sampleErr k rawI origin corr).natAbs : Int)
    · obtain ⟨-, hst, hnot, -⟩ := s.sampled_of_far k rawI origin corr cum hfirst hfar
      exact ⟨hst, hnot⟩
    · obtain ⟨-, hst, hnot, -⟩ := s.sampled_of_near k rawI origin corr cum hfirst hnear
      exact ⟨hst, hnot⟩

/-! ## The servo (R439, R440) -/

/-- The domain after a sample, locked by the eighth good one in a row. -/
theorem State.servo_dom : let x := s.sampled k rawI origin corr cum
    ∃ raw, (s.servo k rawI origin corr cum).dom k =
      if (s.dom k).st = .acquire ∧ 8 ≤ x.good then x.enter .locked raw else x := by
  intro x
  obtain ⟨v, hservo, hdom, -⟩ := s.servo_eq k rawI origin corr cum
  refine ⟨v.raw, ?_⟩
  rw [hservo]
  split
  · next hlock =>
    have hne : (v.dom k).st ≠ .locked := by
      rw [hdom, (s.sampled_st_first k rawI origin corr cum).1, hlock.1]
      decide
    rw [State.setDom_dom hne, hdom]
  · exact hdom

theorem State.servo_noted : let u := (s.servo k rawI origin corr cum).dom k
    u.lastE = lastE (s.sampleErr k rawI origin corr) ∧ u.lastRaw = rawI ∧ u.first = false := by
  obtain ⟨raw, hu⟩ := s.servo_dom k rawI origin corr cum
  rw [hu]
  split
  · exact ⟨rfl, rfl, rfl⟩
  · exact ⟨rfl, rfl, (s.sampled_st_first k rawI origin corr cum).2⟩

theorem State.servo_of_first (hfirst : (s.dom k).first = true) : let u := (s.servo k rawI origin corr cum).dom k
    u.st = (s.dom k).st ∧ u.good = 0 ∧ u.Within s.rateLim := by
  obtain ⟨raw, hu⟩ := s.servo_dom k rawI origin corr cum
  obtain ⟨hst, -, hgood, hwithin⟩ := s.sampled_of_first k rawI origin corr cum hfirst
  rw [hu, hgood, if_neg (by simp)]
  exact ⟨hst, hgood, hwithin⟩

theorem State.servo_of_near (hst : (s.dom k).st = .acquire ∨ (s.dom k).st = .locked) (hlater : (s.dom k).first = false)
    (hnear : ((s.sampleErr k rawI origin corr).natAbs : Int) ≤ s.stepNs) : let u := (s.servo k rawI origin corr cum).dom k
    let good := if ((s.sampleErr k rawI origin corr).natAbs : Int) ≤ s.lockNs then (s.dom k).good + 1 else 0
    u.Within s.rateLim ∧ (s.servo k rawI origin corr cum).time.ofs = s.time.ofs ∧
      (u.st = .locked ↔ (s.dom k).st = .locked ∨ 8 ≤ good) ∧ ((s.dom k).st = .locked → u.good = good) := by
  obtain ⟨raw, hu⟩ := s.servo_dom k rawI origin corr cum
  obtain ⟨v, hservo, -, -, hofs, -⟩ := s.servo_eq k rawI origin corr cum
  obtain ⟨hstay, hkept, -, hgood, hwithin⟩ := s.sampled_of_near k rawI origin corr cum hlater hnear
  intro u good
  have hmt : (s.servo k rawI origin corr cum).time.ofs = s.time.ofs := by
    rw [hservo]
    exact (OnDoms.ite (v.setDom_onDoms k .locked) (.refl v)).mtOfs.trans (hofs hstay)
  by_cases hlock : (s.dom k).st = .acquire ∧ 8 ≤ good
  · rw [if_pos (by rwa [hgood])] at hu
    refine ⟨?_, hmt, ?_, ?_⟩ <;> simp only [u, hu]
    · exact hwithin
    · exact ⟨fun _ => .inr hlock.2, fun _ => rfl⟩
    · intro hlocked
      simp [hlock.1] at hlocked
  · rw [if_neg (by rwa [hgood])] at hu
    refine ⟨?_, hmt, ?_, ?_⟩ <;> simp only [u, hu]
    · exact hwithin
    · rw [hkept]
      exact ⟨.inl, fun h => h.elim id fun heighth => hst.elim (fun hacq => absurd ⟨hacq, heighth⟩ hlock) id⟩
    · exact fun _ => hgood

theorem State.servo_of_far (hlater : (s.dom k).first = false)
    (hfar : s.stepNs < ((s.sampleErr k rawI origin corr).natAbs : Int)) : let u := (s.servo k rawI origin corr cum).dom k
    u.st = (s.dom k).st ∧ u.ofs = ofs96 ((s.dom k).ofs + s.sampleErr k rawI origin corr * 2 ^ 32) ∧ u.rate = (s.dom k).rate ∧
      u.good = 0 ∧ ((s.dom k).st = .locked →
        ∃ m l, (s.servo k rawI origin corr cum).asy.held = s.asy.held ++ m :: l ∧ m.src = srcDom k ∧ m.kind = 0x59) := by
  obtain ⟨raw, hu⟩ := s.servo_dom k rawI origin corr cum
  obtain ⟨v, hservo, -, -, -, hmark⟩ := s.servo_eq k rawI origin corr cum
  obtain ⟨hstep, hst, -, hofs, hrate, hgood⟩ := s.sampled_of_far k rawI origin corr cum hlater hfar
  have hopen : ¬ ((s.dom k).st = .acquire ∧ 8 ≤ (s.sampled k rawI origin corr cum).good) := by simp [hgood]
  rw [if_neg hopen] at hu hservo
  rw [hu, hservo]
  exact ⟨hst, hofs, hrate, hgood, hmark hstep⟩

/-! ## A Sync (R438, R440) -/

/-- The domain as the sample of a Sync finds it: acquisition has begun (Table 10.1). -/
def State.opened : State :=
  if (s.dom k).st = .listen ∨ (s.dom k).st = .holdover ∨ (s.dom k).st = .lost then s.setDom k .acquire else s

/-- What a Sync leaves that the domain takes. -/
def State.synced (log : Int) : State := ((s.opened k).servo k rawI origin corr cum).modDom k fun d => { d with syncLog := log }

theorem State.opened_onDoms : OnDoms s (s.opened k) := .ite (s.setDom_onDoms k _) (.refl s)

theorem State.opened_of_tracking (h : (s.dom k).st = .acquire ∨ (s.dom k).st = .locked) : s.opened k = s := by
  refine if_neg ?_
  obtain h | h := h <;> simp [h]

theorem State.opened_dom (h : (s.dom k).st = .listen ∨ (s.dom k).st = .holdover ∨ (s.dom k).st = .lost) :
    (s.opened k).dom k = (s.dom k).enter .acquire s.raw := by
  have hne : (s.dom k).st ≠ .acquire := by obtain h | h | h := h <;> simp [h]
  rw [State.opened, if_pos h, State.setDom_dom hne]

/-- The error of the sample is the same whether it begins acquisition or not. -/
theorem State.opened_sampleErr : (s.opened k).sampleErr k rawI origin corr = s.sampleErr k rawI origin corr := by
  by_cases h : (s.dom k).st = .listen ∨ (s.dom k).st = .holdover ∨ (s.dom k).st = .lost
  · rw [State.sampleErr, State.syncTime, s.opened_dom k h, (s.opened_onDoms k).plant]
    rfl
  · rw [State.opened, if_neg h]

theorem State.synced_dom (log : Int) : (s.synced k rawI origin corr cum log).dom k =
    { ((s.opened k).servo k rawI origin corr cum).dom k with syncLog := log } := State.modDom_dom_same ..

theorem State.synced_asy (log : Int) :
    (s.synced k rawI origin corr cum log).asy = ((s.opened k).servo k rawI origin corr cum).asy := State.modDom_asy ..

theorem State.synced_mtOfs (log : Int) :
    (s.synced k rawI origin corr cum log).time.ofs = ((s.opened k).servo k rawI origin corr cum).time.ofs :=
  (State.modDom_onDoms ..).mtOfs

end

end Sys2Proof.Machine
end

section
/-! O47: Syncs, Announces, timeouts, peer delay and links as commands (10 R438 to R440, R449). -/

namespace Sys2Proof.Machine

section
variable {s : State} {t k : Nat}

theorem does_of_effect {f : State → State} {w : State} (h : f (s.before t) = w) : s.does t f = .next (ends s t w) := by
  rw [does_eq, h]

/-! ## Syncs (R438 to R440) -/

/-- A Sync of interval `log` that domain `k` does not take. -/
def State.IgnoresSync (b : State) (k : Nat) (log : Int) : Prop :=
  b.fenced srcTimeUnit = true ∨ (b.dom k).st = .off ∨ (b.dom k).capable = false ∨ log < -7 ∨ 0 < log ∨
    ((b.dom k).st = .listen ∧ (b.dom k).announced = false)

theorem State.ignoresSync_iff (b : State) (k : Nat) (log : Int) : b.IgnoresSync k log ↔
    b.fenced srcTimeUnit ∨ (b.dom k).st = .off ∨ ¬ (b.dom k).capable ∨ log < -7 ∨ 0 < log ∨
      ((b.dom k).st = .listen ∧ ¬ (b.dom k).announced) := by
  simp only [State.IgnoresSync, Bool.not_eq_true]

theorem execGptpSyncReceived_none {log : Int} (hidle : (s.before t).IgnoresSync k log) (rawI origin : Nat) (corr cum : Int) :
    exec (.gptpSyncReceived t k rawI origin corr cum log) s = .next (ends s t (s.before t)) := by
  show execGptpSyncReceived t k rawI origin corr cum log s = _
  exact does_of_effect (if_pos ((State.ignoresSync_iff ..).mp hidle))

theorem execGptpSyncReceived_taken {log : Int} (htaken : ¬ (s.before t).IgnoresSync k log) (rawI origin : Nat) (corr cum : Int) :
    exec (.gptpSyncReceived t k rawI origin corr cum log) s =
      .next (ends s t ((s.before t).synced k rawI origin corr cum log)) := by
  show execGptpSyncReceived t k rawI origin corr cum log s = _
  exact does_of_effect (if_neg (mt (State.ignoresSync_iff ..).mpr htaken))

/-! ## Announces (R440, Table 10.3A) -/

/-- The domain with the grandmaster of an Announce. -/
def Domain.announcedBy (d : Domain) (gm : Nat) : Domain := { d with gmid := gm, announced := true }

/-- What an Announce does that its domain takes: another grandmaster restarts acquisition in ACQUIRE and LOCKED. -/
def State.announces (b : State) (k gm : Nat) : State :=
  let v := b.modDom k fun d => d.announcedBy gm
  if (b.dom k).gmid = gm ∨ ¬ (b.dom k).announced then v
  else if (b.dom k).st = .locked then v.setDom k .acquire
  else if (b.dom k).st = .acquire then v.modDom k fun d => { d with first := true, good := 0 }
  else v

theorem execAnnounceReceived_taken {gm : Nat} (hfree : (s.before t).fenced srcTimeUnit = false)
    (hon : ((s.before t).dom k).st ≠ .off) :
    exec (.announceReceived t k gm) s = .next (ends s t ((s.before t).announces k gm)) := by
  have htakes : ¬ ((s.before t).fenced srcTimeUnit = true ∨ ((s.before t).dom k).st = .off) := by simp [hfree, hon]
  show execAnnounceReceived t k gm s = _
  exact does_of_effect (if_neg htakes)

theorem State.announces_dom_of_same {b : State} {gm : Nat} (hsame : (b.dom k).gmid = gm ∨ (b.dom k).announced = false ∨
    ((b.dom k).st ≠ .acquire ∧ (b.dom k).st ≠ .locked)) : (b.announces k gm).dom k = (b.dom k).announcedBy gm := by
  have hstay : b.announces k gm = b.modDom k fun d => d.announcedBy gm := by
    unfold State.announces
    dsimp only
    split
    · rfl
    · next hnew =>
      obtain ⟨hacq, hlocked⟩ : (b.dom k).st ≠ .acquire ∧ (b.dom k).st ≠ .locked := by simp_all
      rw [if_neg hlocked, if_neg hacq]
  rw [hstay, State.modDom_dom_same]

theorem State.announces_dom_of_new {b : State} {gm : Nat} (htracks : (b.dom k).st = .acquire ∨ (b.dom k).st = .locked)
    (hknown : (b.dom k).announced = true) (hnew : (b.dom k).gmid ≠ gm) : let u := (b.announces k gm).dom k
    u.gmid = gm ∧ u.announced = true ∧ u.st = .acquire ∧ u.first = true ∧ u.good = 0 := by
  let v := b.modDom k fun d => d.announcedBy gm
  have hv : v.dom k = (b.dom k).announcedBy gm := b.modDom_dom_same k _
  have hother : ¬ ((b.dom k).gmid = gm ∨ ¬ (b.dom k).announced) := by simp [hknown, hnew]
  obtain hacq | hlocked := htracks
  · have hrestart : b.announces k gm = v.modDom k fun d => { d with first := true, good := 0 } := by
      rw [State.announces, if_neg hother, if_neg (by simp [hacq]), if_pos hacq]
    rw [hrestart, State.modDom_dom_same, hv]
    exact ⟨rfl, rfl, hacq, rfl, rfl⟩
  · have hrestart : b.announces k gm = v.setDom k .acquire := by rw [State.announces, if_neg hother, if_pos hlocked]
    have hne : (v.dom k).st ≠ .acquire := by
      rw [hv]
      exact fun h => DomState.noConfusion (hlocked.symm.trans h)
    rw [hrestart, State.setDom_dom hne, hv]
    exact ⟨rfl, rfl, rfl, rfl, rfl⟩

theorem execAnnounceReceived_none {gm : Nat} (h : (s.before t).fenced srcTimeUnit = true ∨ ((s.before t).dom k).st = .off) :
    exec (.announceReceived t k gm) s = .next (ends s t (s.before t)) := by
  show execAnnounceReceived t k gm s = _
  exact does_of_effect (if_pos h)

/-! ## Loss (R440) -/

theorem execSyncReceiptTimeout_over (h : (s.before t).syncOver k = true) :
    exec (.syncReceiptTimeout t k) s = .next (ends s t ((s.before t).loseDom k)) := by
  show execSyncReceiptTimeout t k s = _
  exact does_of_effect (if_pos h)

theorem execSyncReceiptTimeout_none (h : (s.before t).syncOver k = false) :
    exec (.syncReceiptTimeout t k) s = .next (ends s t (s.before t)) := by
  show execSyncReceiptTimeout t k s = _
  exact does_of_effect (if_neg (ne_true_of_eq_false h))

theorem execAnnounceReceiptTimeout_eq :
    exec (.announceReceiptTimeout t k) s = .next (ends s t ((s.before t).loseDom k)) := by
  show execAnnounceReceiptTimeout t k s = _
  exact does_of_effect rfl

theorem execHoldoverExpiry_over (hst : ((s.before t).dom k).st = .holdover)
    (hover : (s.before t).holdS * 1000000000 ≤ (s.before t).raw - ((s.before t).dom k).enteredAt) :
    exec (.holdoverExpiry t k) s = .next (ends s t ((s.before t).setDom k .lost)) := by
  show execHoldoverExpiry t k s = _
  exact does_of_effect (if_pos ⟨hst, hover⟩)

theorem execHoldoverExpiry_none (hst : ((s.before t).dom k).st ≠ .holdover) :
    exec (.holdoverExpiry t k) s = .next (ends s t (s.before t)) := by
  show execHoldoverExpiry t k s = _
  exact does_of_effect (if_neg fun h => hst h.1)

/-! ## Peer delay (R449) -/

/-- The port asks: its Pdelay_Req leaves, and the next interval begins. -/
def State.asks (s : State) (k : Nat) : State :=
  (s.emitGptp k (.gptp k 0 (s.ptpDomain k) (s.plant k).pdSeq)).modPlant k fun p =>
    { p with pdSeq := (p.pdSeq + 1) % 2 ^ 16, pdAt := some s.raw }

theorem execPdelayReqInterval_due (hon : (s.before t).domOn k = true) (hup : (s.before t).plantUp k = true)
    (hfree : (s.before t).fenced srcTimeUnit = false) (hdue : (s.before t).pdelayDue k = true) :
    exec (.pdelayReqInterval t k) s = .next (ends s t ((s.before t).asks k)) := by
  show execPdelayReqInterval t k s = _
  exact does_of_effect (if_pos ⟨hon, hup, ne_true_of_eq_false hfree, hdue⟩)

theorem State.asks_out (s : State) (k : Nat) : (s.asks k).out = (s.emitGptp k (.gptp k 0 (s.ptpDomain k) (s.plant k).pdSeq)).out :=
  State.modPlant_out ..

theorem State.asks_plant (s : State) (k : Nat) :
    (s.asks k).plant k = { s.plant k with pdSeq := ((s.plant k).pdSeq + 1) % 2 ^ 16, pdAt := some s.raw } := by
  rw [State.asks, State.modPlant_plant_same, State.emitGptp_eq]
  rfl

theorem State.asks_eq (s : State) (k : Nat) : s.asks k = { s with time := (s.asks k).time, out := (s.asks k).out } := by
  rw [State.asks_out, State.asks, State.modPlant_onTime, State.emitGptp_eq]

/-- The port answers a request: its Pdelay_Resp and the follow-up leave. -/
def State.answers (s : State) (k seq : Nat) : State :=
  (s.emitGptp k (.gptp k 1 (s.ptpDomain k) seq)).emitGptp k (.gptp k 2 (s.ptpDomain k) seq)

theorem execPdelayReqReceived_own {frame : List Byte} (hon : (s.before t).domOn k = true) (hup : (s.before t).plantUp k = true)
    (hfree : (s.before t).fenced srcTimeUnit = false) (hown : byteAt frame 18 = (s.before t).ptpDomain k) :
    exec (.pdelayReqReceived t k frame) s =
      .next (ends s t ((s.before t).answers k (256 * byteAt frame 44 + byteAt frame 45))) := by
  show execPdelayReqReceived t k frame s = _
  exact does_of_effect (if_pos ⟨hon, hup, ne_true_of_eq_false hfree, hown⟩)

theorem execPdelayReqReceived_foreign {frame : List Byte} (hforeign : byteAt frame 18 ≠ (s.before t).ptpDomain k) :
    exec (.pdelayReqReceived t k frame) s = .next (ends s t (s.before t)) := by
  show execPdelayReqReceived t k frame s = _
  exact does_of_effect (if_neg fun h => hforeign h.2.2.2)

theorem State.answers_spec (s : State) (k seq : Nat) : s.answers k seq = { s with out := (s.answers k seq).out } ∧
    .gptp k 1 (s.ptpDomain k) seq ∈ (s.answers k seq).out ∧ .gptp k 2 (s.ptpDomain k) seq ∈ (s.answers k seq).out := by
  refine ⟨?_, State.subset_emitGptp _ _ _ (State.mem_emitGptp ..), State.mem_emitGptp ..⟩
  rw [State.answers, State.emitGptp_eq, State.emitGptp_eq]

theorem State.answers_of_unsent {s : State} {k : Nat} (h : (s.plant k).sentAt ≠ some s.core) (seq : Nat) :
    (s.answers k seq).out = .gptp k 2 (s.ptpDomain k) seq :: .gptp k 1 (s.ptpDomain k) seq :: s.out := by
  rw [State.answers, State.emitGptp_of_unsent h]
  exact congrArg State.out (State.emitGptp_of_unsent (s := s.emit _) h _)

/-- What a Pdelay_Resp leaves: the port's rate ratio, and its delay before asCapable is looked at. -/
def State.measuredPeer (s : State) (k mld : Nat) (nrr : Int) : State :=
  (s.modPlant k fun p => { p with nrr := nrr }).modDom k fun d => { d with mld := mld }

theorem State.measuredPeer_dom (s : State) (k mld : Nat) (nrr : Int) :
    (s.measuredPeer k mld nrr).dom k = { s.dom k with mld := mld } := by
  rw [State.measuredPeer, State.modDom_dom_same, State.modPlant_dom]

theorem State.measuredPeer_plant (s : State) (k mld : Nat) (nrr : Int) :
    (s.measuredPeer k mld nrr).plant k = { s.plant k with nrr := nrr } := by
  rw [State.measuredPeer, (State.modDom_onDoms ..).plant, State.modPlant_plant_same]

theorem State.measuredPeer_force (s : State) (k mld : Nat) (nrr : Int) (off : Nat) :
    (s.measuredPeer k mld nrr).force off = s.force off := by
  rw [State.measuredPeer, (State.modDom_onDoms ..).force, State.modPlant_force]

theorem State.measuredPeer_raw (s : State) (k mld : Nat) (nrr : Int) : (s.measuredPeer k mld nrr).raw = s.raw := by
  rw [State.measuredPeer, (State.modDom_onDoms ..).raw, State.modPlant_raw]

theorem State.measuredPeer_asy (s : State) (k mld : Nat) (nrr : Int) : (s.measuredPeer k mld nrr).asy = s.asy := by
  rw [State.measuredPeer, State.modDom_asy, State.modPlant_asy]

theorem execPdelayResponseReceived_on {mld : Nat} {nrr : Int} {ok : Bool} (hon : (s.before t).domOn k = true)
    (hfree : (s.before t).fenced srcTimeUnit = false) :
    exec (.pdelayResponseReceived t k mld nrr ok) s = .next (ends s t (((s.before t).measuredPeer k mld nrr).setCapable k
      (ok && decide (mld ≤ 16 * bits ((s.before t).force (0x0C0100 + 0x20 * k)) 11 0)))) := by
  show execPdelayResponseReceived t k mld nrr ok s = _
  refine does_of_effect ?_
  refine (if_pos (by simp [hon, hfree])).trans ?_
  rw [← State.measuredPeer_force _ k mld nrr]
  rfl

theorem execPlantPortLinkChange_up :
    exec (.plantPortLinkChange t k true) s = .next (ends s t ((s.before t).modPlant k fun p => { p with up := true })) := by
  show execPlantPortLinkChange t k true s = _
  exact does_of_effect rfl

theorem execPlantPortLinkChange_down :
    exec (.plantPortLinkChange t k false) s =
      .next (ends s t (((s.before t).modPlant k fun p => { p with up := false }).setCapable k false)) := by
  show execPlantPortLinkChange t k false s = _
  exact does_of_effect rfl

end

/-- Settles O47: the Sync by the sample of the servo, the other events of a domain and of its port each by its own rule. -/
theorem domainsAreSteeredHeldAndLost : Obligations.DomainsAreSteeredHeldAndLost := by
  constructor
  · intro s t k rawI origin corr cum log b d e idle within
    refine ⟨fun hidle => execGptpSyncReceived_none hidle rawI origin corr cum, fun htaken => ?_⟩
    have hlim : (b.opened k).rateLim = b.rateLim := (b.opened_onDoms k).rateLim
    obtain ⟨hlastE, hlastRaw, hfirst⟩ := (b.opened k).servo_noted k rawI origin corr cum
    rw [State.opened_sampleErr] at hlastE
    refine ⟨_, execGptpSyncReceived_taken htaken rawI origin corr cum, ?_⟩
    simp only [within, State.synced_dom, State.synced_asy, State.synced_mtOfs]
    refine ⟨hlastE, hlastRaw, trivial, hfirst, fun hst => ?opens, fun hst hfirst => ?first, fun hst hlater hnear => ?near,
      fun hst hlater hfar => ?far⟩
    case opens =>
      have hdom := b.opened_dom k hst
      obtain ⟨hst', hgood, hwithin⟩ := (b.opened k).servo_of_first k rawI origin corr cum (by rw [hdom]; rfl)
      rw [hlim] at hwithin
      rw [hdom] at hst'
      exact ⟨hst', hgood, hwithin⟩
    case first =>
      rw [b.opened_of_tracking k hst]
      exact b.servo_of_first k rawI origin corr cum hfirst
    case near =>
      rw [b.opened_of_tracking k hst]
      exact b.servo_of_near k rawI origin corr cum hst hlater hnear
    case far =>
      rw [b.opened_of_tracking k hst]
      exact b.servo_of_far k rawI origin corr cum hlater hfar
  · intro s t k b d lost
    have hlose : lost (b.loseDom k) := b.loseDom_loses k
    refine ⟨fun gm hfree hon => ?announce, fun gm hnot => execAnnounceReceived_none hnot,
      fun hover => ⟨_, execSyncReceiptTimeout_over hover, hlose⟩, fun hnot => execSyncReceiptTimeout_none hnot,
      ⟨_, execAnnounceReceiptTimeout_eq, hlose⟩, fun hst hover => ?expiry, fun hst => execHoldoverExpiry_none hst,
      fun hon hup hfree hdue => ?asks, fun frame hon hup hfree hown => ?answers,
      fun frame hforeign => execPdelayReqReceived_foreign hforeign, fun mld nrr ok hon hfree => ?peer, fun up => ?link⟩
    case announce =>
      refine ⟨_, execAnnounceReceived_taken hfree hon, ?_⟩
      by_cases hsame : d.gmid = gm ∨ d.announced = false ∨ (d.st ≠ .acquire ∧ d.st ≠ .locked)
      · rw [State.announces_dom_of_same hsame]
        exact ⟨rfl, rfl, fun htracks hknown hnew => by simp_all, fun _ => ⟨rfl, rfl⟩⟩
      · obtain ⟨hnew, hknown, htracks⟩ : d.gmid ≠ gm ∧ d.announced = true ∧ (d.st = .acquire ∨ d.st = .locked) := by
          simpa only [not_or, Decidable.not_and_iff_not_or_not, ne_eq, Decidable.not_not, Bool.not_eq_false] using hsame
        obtain ⟨hgm, hann, hrestarts⟩ := State.announces_dom_of_new htracks hknown hnew
        exact ⟨hgm, hann, fun _ _ _ => hrestarts, fun h => absurd h hsame⟩
    case expiry =>
      have hne : (b.dom k).st ≠ .lost := fun h => DomState.noConfusion (hst.symm.trans h)
      exact ⟨_, execHoldoverExpiry_over hst hover, by rw [State.setDom_dom hne]; rfl⟩
    case asks =>
      refine ⟨_, execPdelayReqInterval_due hon hup hfree hdue, ?_, fun hunsent => ?_, ?_, ?_, ?_⟩
      · rw [State.asks_out]
        exact State.mem_emitGptp ..
      · rw [State.asks_out, State.emitGptp_of_unsent hunsent]
        rfl
      · rw [State.asks_plant]
      · rw [State.asks_plant]
      · exact b.asks_eq k
    case answers =>
      obtain ⟨hout, hresp, hfollow⟩ := b.answers_spec k (256 * byteAt frame 44 + byteAt frame 45)
      exact ⟨_, execPdelayReqReceived_own hon hup hfree hown, hout, hresp, hfollow, fun hunsent => State.answers_of_unsent hunsent _⟩
    case peer =>
      let v := b.measuredPeer k mld nrr
      have hdom : v.dom k = { d with mld := mld } := b.measuredPeer_dom ..
      obtain ⟨hcap, hmld, hkeeps, hloses, hrest⟩ :=
        v.setCapable_spec k (ok && decide (mld ≤ 16 * bits (b.force (0x0C0100 + 0x20 * k)) 11 0))
      refine ⟨_, execPdelayResponseReceived_on hon hfree, ?_, ?_, hcap, ?_, ?_⟩
      · rw [hrest.plant, State.measuredPeer_plant]
      · rw [hmld, hdom]
      · rw [hcap]
        exact fun h => (hkeeps h).trans (congrArg Domain.st hdom :)
      · rw [hcap]
        exact fun h => (hloses h).of_same (congrArg Domain.st hdom :) (b.measuredPeer_raw ..) (b.measuredPeer_asy ..)
    case link =>
      cases up with
      | true => exact ⟨_, execPlantPortLinkChange_up, by rw [State.modPlant_plant_same], fun _ => State.modPlant_dom .., nofun⟩
      | false =>
        let v := b.modPlant k fun p => { p with up := false }
        have hdom : v.dom k = d := b.modPlant_dom ..
        obtain ⟨hcap, -, -, hloses, hrest⟩ := v.setCapable_spec k false
        refine ⟨_, execPlantPortLinkChange_down, ?_, nofun, fun _ => ⟨hcap, ?_⟩⟩
        · rw [hrest.plant, State.modPlant_plant_same]
        · exact (hloses rfl).of_same (congrArg Domain.st hdom) (b.modPlant_raw ..) (b.modPlant_asy ..)

end Sys2Proof.Machine
end

section
/-! O48 to O50: what a change of one encoder port or of one latch input leaves alone, and the capture ring (11 R493, R494). -/

namespace Sys2Proof.Machine

/-! ## What the desk leaves of ports and latches -/

theorem Desk.port {b w : State} (h : Desk b w) (p : Nat) : w.port p = b.port p := by rw [State.port, h.fbp]; rfl

theorem Desk.latch {b w : State} (h : Desk b w) (n : Nat) : w.latch n = b.latch n := by rw [State.latch, h.lat]; rfl

@[simp] theorem State.emit_port (s : State) (o : Out) (p : Nat) : (s.emit o).port p = s.port p := rfl

/-! ## One port changes -/

/-- `w` is `b` but for port `p` and for marks and fences, which only grow. -/
structure OnPort (p : Nat) (b w : State) : Prop where
  others : ∀ q, q ≠ p → w.port q = b.port q
  rest : w = { b with fbp := w.fbp, asy := w.asy }
  grows : Grows b w

theorem OnPort.refl (p : Nat) (b : State) : OnPort p b b := ⟨fun _ _ => rfl, rfl, .refl b⟩

theorem OnPort.trans {p : Nat} {a b c : State} (h : OnPort p a b) (g : OnPort p b c) : OnPort p a c where
  others q hq := (g.others q hq).trans (h.others q hq)
  rest := by rw [g.rest, h.rest]
  grows := h.grows.trans g.grows

theorem OnPort.ite {p : Nat} {b v w : State} {c : Prop} [Decidable c] (h : OnPort p b v) (g : OnPort p b w) :
    OnPort p b (if c then v else w) := by
  split
  · exact h
  · exact g

theorem State.modPort_onPort (s : State) (p : Nat) (f : FbPort → FbPort) : OnPort p s (s.modPort p f) :=
  ⟨fun _ hq => State.modPort_port_ne _ _ _ hq, rfl, .of_asy rfl⟩

theorem State.raise_onPort (s : State) (p src kind addr : Nat) (detail : List Byte) : OnPort p s (s.raise src kind addr detail) :=
  ⟨fun _ _ => rfl, rfl, (State.raise_records ..).toGrows⟩

/-- A change of port `p` and then a mark. -/
theorem State.modPort_raise_port (s : State) (p : Nat) (f : FbPort → FbPort) (src kind addr : Nat) (detail : List Byte) :
    ((s.modPort p f).raise src kind addr detail).port p = f (s.port p) := by
  rw [(State.raise_Desk ..).port, State.modPort_port_same]

/-- A port with a line fault, outside its amplitude window or overloaded is invalid (R462). -/
theorem State.portValid_of_wire {s : State} {p : Nat} (h : (s.port p).wire = true) : s.portValid p = false := by
  simp [State.portValid, h]

theorem State.portValid_of_ampl {s : State} {p : Nat} (h : (s.port p).ampl = true) : s.portValid p = false := by
  simp [State.portValid, h]

theorem State.ampl_of_portValid {s : State} {p : Nat} (h : s.portValid p = true) : (s.port p).ampl = false := by
  simp only [State.portValid, Bool.and_eq_true, Bool.not_eq_true'] at h
  exact h.1.1.2

/-! ## The capture ring -/

theorem State.capture_Desk (s : State) (e : List Byte) : Desk s (s.capture e) := by
  have hput : Desk s ((s.putEntry 28 e).putIndex 28 true) :=
    ((State.putEntry_writes ..).trans (State.putIndex_writes ..)).desk
  have hdrop : ∀ h d, Desk s (({ s with host := h } : State).ringDrops 28 1 |>.raiseOnce (srcRing 28) 0x2C 28 d) := fun h d =>
    (show Desk s { s with host := h } from rfl).trans
      ((Desk.of_desk (State.ringDrops_desk ..)).trans (.of_desk (State.raiseOnce_desk ..)))
  unfold State.capture
  split
  · split
    · exact hput
    · exact hdrop _ _
  · exact .refl s

/-- An enabled ring with room takes an entry of a host engine in service. -/
theorem State.mem_capture_out {s : State} (hon : (s.ringOf 28).on = true) (hroom : s.room 28 1 = true)
    (hfree : s.fenced srcHostEngine = false) (e : List Byte) : .ring 28 (s.ringOf 28).own e ∈ (s.capture e).out := by
  have hentry : .ring 28 (s.ringOf 28).own e ∈ (s.putEntry 28 e).out := by
    rw [State.putEntry, State.emitHost, hfree]
    exact List.mem_cons_self
  rw [State.capture, if_pos hon, if_pos hroom]
  exact (State.putIndex_writes ..).out hentry

end Sys2Proof.Machine
end

section
/-! O48: quadrature counts, the index and line faults (11 R461, R467 to R471, R496, R497). -/

namespace Sys2Proof.Machine

/-! ## Counts (R461, R480) -/

theorem FbPort.divide_eq (g : FbPort) (num den n : Int) :
    g.divide num den n = { g with acc := (g.divide num den n).acc, backlog := (g.divide num den n).backlog } := by
  unfold FbPort.divide
  split <;> rfl

/-- A port that takes `n` counts: CNT and what tells directions, with `eve` for what the sample found. -/
def FbPort.counted (g : FbPort) (n : Int) (eve : Option (Nat × BitVec 32 × Bool × Bool)) : FbPort :=
  { g with cnt := g.cnt + BitVec.ofInt 32 n, up := g.up || decide (0 < n), down := g.down || decide (n < 0), eve := eve }

/-- The backlog of the divided output within its limit (R480). -/
def FbPort.limited (g : FbPort) : FbPort :=
  { g with backlog := clampI g.backlog (-255) 255, divLost := g.divLost || decide (255 < g.backlog.natAbs) }

/-- What a count does: the port counts, the divided output follows where it is on, and a first loss of its edges is marked. -/
theorem State.count_eq (s : State) (p : Nat) (n : Int) : ∃ eve, ∃ marks : Bool,
    let u := (s.port p).counted n eve
    let x := (if bit (s.force (fbOff p 0x10)) 31 then
      u.divide (bits (s.force (fbOff p 0x0C)) 31 16) (bits (s.force (fbOff p 0x0C)) 15 0) n else u).limited
    s.count p n = if marks then (s.modPort p fun _ => x).raise (srcPort p) 0x24 0 [] else s.modPort p fun _ => x :=
  ⟨_, _, rfl⟩

/-- A count moves CNT, what tells directions and the divided output, and no flag of the count. -/
theorem State.count_port (s : State) (p : Nat) (n : Int) : let g := s.port p; let u := (s.count p n).port p
    u = { g with cnt := g.cnt + BitVec.ofInt 32 n, up := u.up, down := u.down, eve := u.eve, acc := u.acc, backlog := u.backlog
                 divLost := u.divLost } := by
  intro g u
  obtain ⟨eve, marks, hcount⟩ := s.count_eq p n
  have hport : u = (if bit (s.force (fbOff p 0x10)) 31 then
      (g.counted n eve).divide (bits (s.force (fbOff p 0x0C)) 31 16) (bits (s.force (fbOff p 0x0C)) 15 0) n
      else g.counted n eve).limited := by
    simp only [u, hcount]
    split
    · exact State.modPort_raise_port ..
    · exact State.modPort_port_same ..
  rw [hport]
  split
  · rw [FbPort.divide_eq]
    rfl
  · rfl

theorem State.count_cnt (s : State) (p : Nat) (n : Int) : ((s.count p n).port p).cnt = (s.port p).cnt + BitVec.ofInt 32 n :=
  (congrArg FbPort.cnt (s.count_port p n) :)

theorem State.count_onPort (s : State) (p : Nat) (n : Int) : OnPort p s (s.count p n) := by
  obtain ⟨eve, marks, hcount⟩ := s.count_eq p n
  rw [hcount]
  exact .ite ((State.modPort_onPort ..).trans (State.raise_onPort ..)) (State.modPort_onPort ..)

section
variable {s : State} {t p : Nat}

theorem execQuadratureCount_counted {up : Bool} (hmode : (s.before t).portMode p = 1) (hvalid : (s.before t).portValid p = true) :
    exec (.quadratureCount t p up) s =
      .next (ends s t ((s.before t).count p (if up = (s.before t).portInv p then -1 else 1))) := by
  show execQuadratureCount t p up s = _
  exact does_of_effect (if_pos ⟨hmode, hvalid⟩)

theorem execQuadratureCount_none {up : Bool} (hinvalid : (s.before t).portValid p = false) :
    exec (.quadratureCount t p up) s = .next (ends s t (s.before t)) := by
  show execQuadratureCount t p up s = _
  exact does_of_effect (if_neg fun h => ne_true_of_eq_false hinvalid h.2)

/-- One count one way or the other. -/
theorem add_ofInt_one (cnt : BitVec 32) (c : Prop) [Decidable c] :
    cnt + BitVec.ofInt 32 (if c then -1 else 1) = if c then cnt - 1 else cnt + 1 := by
  split
  · rw [BitVec.sub_eq_add_neg]
    rfl
  · rfl

/-! ## Both lines at once (R468) -/

/-- A port that has counted an illegal transition. -/
def FbPort.countedIllegal (g : FbPort) : FbPort := { g with illegal := true, illcnt := min 0xFFFF (g.illcnt + 1) }

/-- What ILLEGAL_TRANSITION does to a quadrature port: the flag and its count, and a mark, once in a major cycle where
the flag stood already. -/
def State.countIllegal (s : State) (p : Nat) : State :=
  let v := s.modPort p FbPort.countedIllegal
  if !(s.port p).illegal then
    let v := v.raise (srcPort p) 0x20 0 []
    { v with asy := { v.asy with once := (srcPort p, 0x20) :: v.asy.once } }
  else v.raiseOnce (srcPort p) 0x20 0 []

theorem execIllegalTransition_counted (hmode : (s.before t).portMode p = 1) :
    exec (.illegalTransition t p) s = .next (ends s t ((s.before t).countIllegal p)) := by
  show execIllegalTransition t p s = _
  exact does_of_effect (if_neg (not_not_intro hmode))

theorem State.countIllegal_Desk (s : State) (p : Nat) : Desk (s.modPort p FbPort.countedIllegal) (s.countIllegal p) := by
  unfold State.countIllegal
  dsimp only
  split
  · exact (State.raise_Desk ..).trans (show Desk _ { State.raise _ _ _ _ _ with asy := _ } from rfl)
  · exact .of_desk (State.raiseOnce_desk ..)

theorem State.countIllegal_port (s : State) (p : Nat) : (s.countIllegal p).port p = (s.port p).countedIllegal := by
  rw [(s.countIllegal_Desk p).port, State.modPort_port_same]

theorem State.countIllegal_held {s : State} {p : Nat} (hfirst : (s.port p).illegal = false) :
    ∃ m, (s.countIllegal p).asy.held = s.asy.held ++ [m] ∧ m.src = srcPort p ∧ m.kind = 0x20 := by
  rw [State.countIllegal, hfirst]
  exact State.raise_held ..

/-! ## The index (R470, R471, R483, R494) -/

/-- The time of an index: that of its sample less the filter (R470). -/
def State.indexMt (s : State) (p : Nat) : Nat := toU 64 ((s.mt : Int) - 5 * max 1 (bits (s.force (fbOff p 0)) 23 20))

/-- The count an index takes: CNT with what its own sample still counts (R496). -/
def State.indexCnt (s : State) (p : Nat) : BitVec 32 := (s.port p).cnt + BitVec.ofInt 32 (s.countsNow p)

/-- A port that has taken an index with the count `cnt`. -/
def FbPort.indexed (g : FbPort) (cnt : BitVec 32) : FbPort :=
  { g with idx := cnt, idxSeen := true, firstTaken := true, seq := (g.seq + 1) % 256 }

/-- The index entry that port `p` posts in the present sample. -/
def State.indexBytes (s : State) (p : Nat) : List Byte :=
  indexEntry p (decide (bits (s.force (fbOff p 0)) 19 18 = 2)) (s.indexMt p) (s.indexCnt p) (s.port p).seq

/-- What an index of port `p` does: the port takes it, its entry goes to the capture ring, and a divided output set for it
gives its pulse (R471, R483, R494). -/
def State.takesIndex (s : State) (p : Nat) : State :=
  let v := (s.modPort p fun g => g.indexed (s.indexCnt p)).capture (s.indexBytes p)
  let w := s.force (fbOff p 0x10)
  if bit w 31 && bit w 30 then v.emit (.index p (max 1 (bits w 23 16))) else v

/-- Port `p` ignores an index in the present sample: its count is or becomes invalid, its index is off, or it has taken the first. -/
def State.IgnoresIndex (s : State) (p : Nat) : Prop :=
  let z := bits (s.force (fbOff p 0)) 19 18
  s.portValid p = false ∨ s.spoilsNow p = true ∨ z = 0 ∨ (z = 2 ∧ (s.port p).firstTaken = true)

theorem State.ignoresIndex_iff (s : State) (p : Nat) : s.IgnoresIndex p ↔
    ¬ s.portValid p ∨ s.spoilsNow p ∨ bits (s.force (fbOff p 0)) 19 18 = 0 ∨
      (bits (s.force (fbOff p 0)) 19 18 = 2 ∧ (s.port p).firstTaken = true) := by
  simp only [State.IgnoresIndex, Bool.not_eq_true]

theorem execIndexEdge_none (hignores : (s.before t).IgnoresIndex p) :
    exec (.indexEdge t p) s = .next (ends s t (s.before t)) := by
  show execIndexEdge t p s = _
  exact does_of_effect (if_pos ((State.ignoresIndex_iff ..).mp hignores))

theorem execIndexEdge_taken (htakes : ¬ (s.before t).IgnoresIndex p) :
    exec (.indexEdge t p) s = .next (ends s t ((s.before t).takesIndex p)) := by
  show execIndexEdge t p s = _
  exact does_of_effect (if_neg (mt (State.ignoresIndex_iff ..).mpr htakes))

theorem State.takesIndex_port (s : State) (p : Nat) : (s.takesIndex p).port p = (s.port p).indexed (s.indexCnt p) := by
  have hcaptured : ((s.modPort p fun g => g.indexed (s.indexCnt p)).capture (s.indexBytes p)).port p =
      (s.port p).indexed (s.indexCnt p) := by
    rw [(State.capture_Desk ..).port, State.modPort_port_same]
  unfold State.takesIndex
  dsimp only
  split <;> exact hcaptured

theorem State.mem_takesIndex_out {s : State} (hon : (s.ringOf 28).on = true) (hroom : s.room 28 1 = true)
    (hfree : s.fenced srcHostEngine = false) (p : Nat) : .ring 28 (s.ringOf 28).own (s.indexBytes p) ∈ (s.takesIndex p).out := by
  have hcaptured := State.mem_capture_out (s := s.modPort p fun g => g.indexed (s.indexCnt p)) hon hroom hfree (s.indexBytes p)
  unfold State.takesIndex
  dsimp only
  split
  · exact List.mem_cons_of_mem _ hcaptured
  · exact hcaptured

/-! ## Line faults (R469) -/

/-- What a line fault does: the flag, which makes the count invalid, and its mark. -/
def State.faultLine (s : State) (p : Nat) : State :=
  ((s.modPort p fun g => { g with wire := true }).spoilPort p).raise (srcPort p) 0x21 0 []

theorem execFbpWire_first (hmode : (s.before t).portMode p = 1) (hwire : ((s.before t).port p).wire = false) :
    exec (.fbpWire t p) s = .next (ends s t ((s.before t).faultLine p)) := by
  show execFbpWire t p s = _
  exact does_of_effect (if_neg (by simp [hmode, hwire]))

theorem State.faultLine_wire (s : State) (p : Nat) : ((s.faultLine p).port p).wire = true := by
  rw [State.faultLine, State.spoilPort, State.modPort_raise_port, State.modPort_port_same]

theorem State.faultLine_held (s : State) (p : Nat) :
    ∃ m, (s.faultLine p).asy.held = s.asy.held ++ [m] ∧ m.src = srcPort p ∧ m.kind = 0x21 := State.raise_held ..

end

/-- Settles O48: each event of a quadrature port by what its command does to the port, to the marks and to the capture ring. -/
theorem quadratureIsCounted : Obligations.QuadratureIsCounted := by
  intro s t p b g
  refine ⟨fun up hmode hvalid => ?count, fun up hinvalid => execQuadratureCount_none hinvalid, fun hmode => ?illegal,
    ⟨fun hvalid hstays hz hfirst => ?index, fun hignores => execIndexEdge_none hignores⟩, fun hmode hwire => ?wire⟩
  case count =>
    have hon := b.count_onPort p (if up = b.portInv p then -1 else 1)
    have hcnt := b.count_cnt p (if up = b.portInv p then -1 else 1)
    exact ⟨_, execQuadratureCount_counted hmode hvalid, hcnt.trans (add_ofInt_one ..), hon.others, hon.rest⟩
  case illegal =>
    exact ⟨_, execIllegalTransition_counted hmode, b.countIllegal_port p, State.countIllegal_held⟩
  case index =>
    have htakes : ¬ b.IgnoresIndex p := by
      rintro (h | h | h | ⟨htwo, htaken⟩)
      · exact ne_true_of_eq_false h hvalid
      · exact ne_true_of_eq_false hstays h
      · exact hz h
      · exact ne_true_of_eq_false (hfirst htwo) htaken
    exact ⟨_, execIndexEdge_taken htakes, b.takesIndex_port p,
      fun hon hroom hfree => ⟨b.indexMt p, State.mem_takesIndex_out hon hroom hfree p⟩⟩
  case wire =>
    exact ⟨_, execFbpWire_first hmode hwire, b.faultLine_wire p, State.portValid_of_wire (b.faultLine_wire p), b.faultLine_held p⟩

end Sys2Proof.Machine
end

section
/-! O49: sine/cosine pairs, speed windows and the divided output (11 R472 to R482). -/

namespace Sys2Proof.Machine

/-! ## The flags of a sine/cosine port (R473, R474) -/

theorem State.setAmpl_onPort (s : State) (p : Nat) : OnPort p s (s.setAmpl p) :=
  ((State.modPort_onPort ..).trans (State.modPort_onPort ..)).trans (State.raise_onPort ..)

theorem State.setAmpl_port (s : State) (p : Nat) :
    (s.setAmpl p).port p = { s.port p with ampl := true, angle := none, invalidIn := true } := by
  rw [State.setAmpl, State.spoilPort, State.modPort_raise_port, State.modPort_port_same]

/-- AMPL makes the count invalid and takes the angle reference. -/
theorem State.setAmpl_flags (s : State) (p : Nat) :
    ((s.setAmpl p).port p).ampl = true ∧ ((s.setAmpl p).port p).angle = none ∧ (s.setAmpl p).portValid p = false := by
  have hampl : ((s.setAmpl p).port p).ampl = true := by rw [s.setAmpl_port p]
  exact ⟨hampl, by rw [s.setAmpl_port p], State.portValid_of_ampl hampl⟩

theorem State.setAmpl_held (s : State) (p : Nat) :
    ∃ m, (s.setAmpl p).asy.held = s.asy.held ++ [m] ∧ m.src = srcPort p ∧ m.kind = 0x23 := State.raise_held ..

/-- The mark of AMPL is among the new ones since `b`. -/
theorem State.setAmpl_new {b v : State} (h : Grows b v) (p : Nat) :
    ∃ m ∈ (v.setAmpl p).asy.held.drop b.asy.held.length, m.src = srcPort p ∧ m.kind = 0x23 := by
  let u := (v.modPort p fun g => { g with ampl := true, angle := none }).spoilPort p
  have hu : Grows b u := h.trans (.of_asy rfl)
  exact hu.raise_new (.refl (v.setAmpl p))

theorem State.setOverspeed_onPort (s : State) (p : Nat) : OnPort p s (s.setOverspeed p) :=
  .ite (.refl p s) ((State.modPort_onPort ..).trans (State.raise_onPort ..))

theorem State.setOverspeed_port (s : State) (p : Nat) : (s.setOverspeed p).port p = { s.port p with overspeed := true } := by
  unfold State.setOverspeed
  split
  · next h => rw [← h]
  · exact State.modPort_raise_port ..

theorem State.setOverspeed_held {s : State} {p : Nat} (hclear : (s.port p).overspeed = false) :
    ∃ m, (s.setOverspeed p).asy.held = s.asy.held ++ [m] ∧ m.src = srcPort p ∧ m.kind = 0x22 := by
  rw [State.setOverspeed, hclear]
  exact State.raise_held ..

/-! ## Pairs (R472 to R475) -/

/-- The angle of a pair, and the state once a pair of zeros has drawn its own. -/
def State.converted (s : State) (sin cos : Int) : Nat × State :=
  if sin = 0 ∧ cos = 0 then (toU 10 s.draw.1, s.draw.2) else (angleOf sin cos, s)

/-- How many pairs in a row, of two at most, have left the amplitude window with this one. -/
def FbPort.failed (g : FbPort) (pass : Bool) : Nat := if pass then 0 else min 2 (g.ampFails + 1)

/-- The port once a pair is tested: without a reference, only a pair that passes becomes one. -/
def FbPort.tested (g : FbPort) (ang : Nat) (pass : Bool) : FbPort :=
  { g with ampFails := g.failed pass, angle := if g.angle.isSome ∨ pass then (if g.ampl then none else some ang) else none }

/-- The step difference from the reference of a port, 0 without one. -/
def FbPort.stepFrom (g : FbPort) (ang : Nat) : Int :=
  match g.angle with
  | some k => stepDiff ang k
  | none => 0

/-- A valid port moves by a step difference, and a large one is overspeed. -/
def State.moves (s : State) (p : Nat) (d : Int) : State :=
  let v := if d = 0 then s else s.count p (if s.portInv p then -d else d)
  if 384 < d.natAbs then v.setOverspeed p else v

/-- What a pair of angle `ang` does to a sine/cosine port: a valid one moves, and AMPL sets by the second pair that fails. -/
def State.takesPair (s : State) (p ang : Nat) (pass : Bool) : State :=
  let v := s.modPort p fun g => g.tested ang pass
  let fails := (v.port p).ampFails
  if s.portValid p then
    (let u := v.moves p ((s.port p).stepFrom ang)
     if fails = 2 then u.setAmpl p else u)
  else if fails = 2 ∧ (s.port p).ampl = false then v.setAmpl p
  else v

/-- A pair of zeros draws its angle, which moves the count of free values alone; another pair has its own. -/
theorem execSincosSample_taken {s : State} {t p : Nat} (sin cos : Int) (hmode : (s.before t).portMode p = 2) :
    ∃ ang n, ((sin ≠ 0 ∨ cos ≠ 0) → ang = angleOf sin cos) ∧ exec (.sincosSample t p sin cos) s =
      .next (ends s t (({ s.before t with free := n } : State).takesPair p ang (ampOk ((s.before t).force (fbOff p 8)) sin cos))) := by
  let b := s.before t
  have htaken : exec (.sincosSample t p sin cos) s = .next (ends s t
      ((b.converted sin cos).2.takesPair p (b.converted sin cos).1 (ampOk (b.force (fbOff p 8)) sin cos))) := by
    show execSincosSample t p sin cos s = _
    exact does_of_effect (if_neg (not_not_intro hmode))
  rw [htaken]
  by_cases hzero : sin = 0 ∧ cos = 0
  · refine ⟨toU 10 b.draw.1, b.free + 1, fun h => ?_, ?_⟩
    · exact h.elim (absurd hzero.1) (absurd hzero.2)
    · rw [State.converted, if_pos hzero]
      rfl
  · refine ⟨angleOf sin cos, b.free, fun _ => rfl, ?_⟩
    rw [State.converted, if_neg hzero]

theorem execSincosSample_none {s : State} {t p : Nat} (hmode : (s.before t).portMode p ≠ 2) (sin cos : Int) :
    exec (.sincosSample t p sin cos) s = .next (ends s t (s.before t)) := by
  show execSincosSample t p sin cos s = _
  exact does_of_effect (if_pos hmode)

section
variable (s : State) (p ang : Nat) (pass : Bool)

theorem State.moves_onPort (d : Int) : OnPort p s (s.moves p d) := by
  have hcount : OnPort p s (if d = 0 then s else s.count p (if s.portInv p then -d else d)) := .ite (.refl p s) (s.count_onPort p _)
  exact .ite (hcount.trans (State.setOverspeed_onPort ..)) hcount

/-- A step difference moves CNT and may set OVERSPEED; the reference and the amplitude stay. -/
theorem State.moves_port (d : Int) : let g := s.port p; let u := (s.moves p d).port p
    u.cnt = g.cnt + BitVec.ofInt 32 (if s.portInv p then -d else d) ∧ (384 < d.natAbs → u.overspeed = true) ∧
      u.ampFails = g.ampFails ∧ u.angle = g.angle := by
  intro g u
  let v := if d = 0 then s else s.count p (if s.portInv p then -d else d)
  have hv : (v.port p).cnt = g.cnt + BitVec.ofInt 32 (if s.portInv p then -d else d) ∧ (v.port p).ampFails = g.ampFails ∧
      (v.port p).angle = g.angle := by
    by_cases hd : d = 0
    · simp [v, g, hd]
    · have hport := s.count_port p (if s.portInv p then -d else d)
      simp only [v, if_neg hd]
      exact ⟨s.count_cnt p _, (congrArg FbPort.ampFails hport :), (congrArg FbPort.angle hport :)⟩
  by_cases hfast : 384 < d.natAbs
  · have hu : u = { v.port p with overspeed := true } := by
      rw [← State.setOverspeed_port]
      exact congrArg (State.port · p) (if_pos hfast)
    rw [hu]
    exact ⟨hv.1, fun _ => rfl, hv.2⟩
  · have hu : u = v.port p := congrArg (State.port · p) (if_neg hfast)
    rw [hu]
    exact ⟨hv.1, fun h => absurd h hfast, hv.2⟩

/-- What a pair leaves before AMPL is looked at. -/
def State.pairMoves : State :=
  let v := s.modPort p fun g => g.tested ang pass
  if s.portValid p then v.moves p ((s.port p).stepFrom ang) else v

/-- AMPL sets by the second failing pair in a row, whether the count is valid or not: a valid port does not have it set. -/
theorem State.takesPair_eq : s.takesPair p ang pass =
    if (s.port p).failed pass = 2 ∧ (s.port p).ampl = false then (s.pairMoves p ang pass).setAmpl p else s.pairMoves p ang pass := by
  have hfails : ((s.modPort p fun g => g.tested ang pass).port p).ampFails = (s.port p).failed pass :=
    (congrArg FbPort.ampFails (State.modPort_port_same ..) :)
  unfold State.takesPair State.pairMoves
  dsimp only
  rw [hfails]
  cases hvalid : s.portValid p with
  | true => simp [State.ampl_of_portValid hvalid]
  | false => simp

theorem State.pairMoves_onPort : OnPort p s (s.pairMoves p ang pass) :=
  .ite ((State.modPort_onPort ..).trans (State.moves_onPort ..)) (State.modPort_onPort ..)

theorem State.takesPair_onPort : OnPort p s (s.takesPair p ang pass) := by
  rw [State.takesPair_eq]
  exact .ite ((s.pairMoves_onPort p ang pass).trans (State.setAmpl_onPort ..)) (s.pairMoves_onPort p ang pass)

theorem State.pairMoves_port_of_invalid (h : s.portValid p = false) :
    (s.pairMoves p ang pass).port p = (s.port p).tested ang pass := by
  have hstays : s.pairMoves p ang pass = s.modPort p fun g => g.tested ang pass := if_neg (ne_true_of_eq_false h)
  rw [hstays, State.modPort_port_same]

theorem State.pairMoves_port_of_valid (h : s.portValid p = true) : let d := (s.port p).stepFrom ang
    let u := (s.pairMoves p ang pass).port p
    u.cnt = (s.port p).cnt + BitVec.ofInt 32 (if s.portInv p then -d else d) ∧ (384 < d.natAbs → u.overspeed = true) ∧
      u.ampFails = (s.port p).failed pass ∧ u.angle = ((s.port p).tested ang pass).angle := by
  have hmoves := (s.modPort p fun g => g.tested ang pass).moves_port p ((s.port p).stepFrom ang)
  rw [State.modPort_port_same] at hmoves
  rw [State.pairMoves, h]
  exact hmoves

/-- The amplitude test and the reference of a pair do not rest on the count. -/
theorem State.pairMoves_tested : let u := (s.pairMoves p ang pass).port p
    u.ampFails = (s.port p).failed pass ∧ u.angle = ((s.port p).tested ang pass).angle := by
  cases hvalid : s.portValid p with
  | true => exact (s.pairMoves_port_of_valid p ang pass hvalid).2.2
  | false =>
    rw [s.pairMoves_port_of_invalid p ang pass hvalid]
    exact ⟨rfl, rfl⟩

/-- AMPL changes neither the count, nor the failures, nor OVERSPEED. -/
theorem State.takesPair_port : let u := (s.takesPair p ang pass).port p; let v := (s.pairMoves p ang pass).port p
    u.cnt = v.cnt ∧ u.ampFails = v.ampFails ∧ u.overspeed = v.overspeed := by
  rw [State.takesPair_eq]
  split
  · rw [State.setAmpl_port]
    exact ⟨rfl, rfl, rfl⟩
  · exact ⟨rfl, rfl, rfl⟩

theorem State.takesPair_ampFails : ((s.takesPair p ang pass).port p).ampFails = (s.port p).failed pass :=
  (s.takesPair_port p ang pass).2.1.trans (s.pairMoves_tested p ang pass).1

/-- A pair counts nothing at an invalid port, and nothing without a reference. -/
theorem State.takesPair_cnt_of_unreferenced (h : s.portValid p = false ∨ (s.port p).angle = none) :
    ((s.takesPair p ang pass).port p).cnt = (s.port p).cnt := by
  refine (s.takesPair_port p ang pass).1.trans ?_
  cases hvalid : s.portValid p with
  | false =>
    rw [s.pairMoves_port_of_invalid p ang pass hvalid]
    rfl
  | true =>
    have hangle : (s.port p).angle = none := h.resolve_left (by simp [hvalid])
    have hstep : (s.port p).stepFrom ang = 0 := by rw [FbPort.stepFrom, hangle]
    rw [(s.pairMoves_port_of_valid p ang pass hvalid).1, hstep]
    simp

theorem State.takesPair_of_referenced {k : Nat} (hvalid : s.portValid p = true) (hangle : (s.port p).angle = some k) :
    let u := (s.takesPair p ang pass).port p; let d := stepDiff ang k
    u.cnt = (s.port p).cnt + BitVec.ofInt 32 (if s.portInv p then -d else d) ∧ (384 < d.natAbs → u.overspeed = true) := by
  obtain ⟨hcnt, -, hover⟩ := s.takesPair_port p ang pass
  obtain ⟨hmoved, hfast, -⟩ := s.pairMoves_port_of_valid p ang pass hvalid
  have hstep : (s.port p).stepFrom ang = stepDiff ang k := by rw [FbPort.stepFrom, hangle]
  rw [hstep] at hmoved hfast
  exact ⟨hcnt.trans hmoved, fun h => hover.trans (hfast h)⟩

theorem State.takesPair_of_failing (hfails : (s.port p).failed pass = 2) (hclear : (s.port p).ampl = false) :
    let w := s.takesPair p ang pass
    (w.port p).ampl = true ∧ (w.port p).angle = none ∧ w.portValid p = false ∧
      ∃ m ∈ w.asy.held.drop s.asy.held.length, m.src = srcPort p ∧ m.kind = 0x23 := by
  have hset : s.takesPair p ang pass = (s.pairMoves p ang pass).setAmpl p := by rw [State.takesPair_eq, if_pos ⟨hfails, hclear⟩]
  rw [hset]
  obtain ⟨hampl, hangle, hinvalid⟩ := (s.pairMoves p ang pass).setAmpl_flags p
  exact ⟨hampl, hangle, hinvalid, State.setAmpl_new (s.pairMoves_onPort p ang pass).grows p⟩

/-- A pair at a port without AMPL becomes its reference: the first one must pass (R475). -/
theorem State.takesPair_angle (hfails : (s.port p).failed pass ≠ 2) (hclear : (s.port p).ampl = false)
    (href : (s.port p).angle ≠ none ∨ pass = true) : ((s.takesPair p ang pass).port p).angle = some ang := by
  have hkeeps : s.takesPair p ang pass = s.pairMoves p ang pass := by rw [State.takesPair_eq, if_neg fun h => hfails h.1]
  rw [hkeeps, (s.pairMoves_tested p ang pass).2]
  have hbecomes : (s.port p).angle.isSome = true ∨ pass = true := href.imp_left Option.isSome_iff_ne_none.mpr
  exact (if_pos hbecomes).trans (if_neg (ne_true_of_eq_false hclear))

end

section
variable {s : State} {t p : Nat}

/-! ## Flags that come as events (R473, R474) -/

theorem execFbpAmpl_first (hmode : (s.before t).portMode p = 2) (hclear : ((s.before t).port p).ampl = false) :
    exec (.fbpAmpl t p) s = .next (ends s t ((s.before t).setAmpl p)) := by
  show execFbpAmpl t p s = _
  exact does_of_effect (if_neg (by simp [hmode, hclear]))

theorem execFbpAmpl_none (hmode : (s.before t).portMode p ≠ 2) : exec (.fbpAmpl t p) s = .next (ends s t (s.before t)) := by
  show execFbpAmpl t p s = _
  exact does_of_effect (if_pos (.inl hmode))

theorem execFbpOverspeed_sincos (hmode : (s.before t).portMode p = 2) :
    exec (.fbpOverspeed t p) s = .next (ends s t ((s.before t).setOverspeed p)) := by
  show execFbpOverspeed t p s = _
  exact does_of_effect (if_neg (not_not_intro hmode))

theorem execFbpOverspeed_none (hmode : (s.before t).portMode p ≠ 2) :
    exec (.fbpOverspeed t p) s = .next (ends s t (s.before t)) := by
  show execFbpOverspeed t p s = _
  exact does_of_effect (if_pos hmode)

/-! ## Speed windows (R476 to R479) -/

/-- The net counts of the window that ends: none of a window in which the count was invalid (R477, R479). -/
def State.netCounts (s : State) (p : Nat) : Int :=
  if s.portValid p && !(s.port p).invalidIn then ((s.countedBefore p).1 - (s.port p).winStart).toInt else 0

/-- A port whose window has ended, and what the present sample has counted begins the next. -/
def State.windowEnded (s : State) (p : Nat) : FbPort :=
  let g := s.port p
  let x := s.countedBefore p
  let rest := (g.cnt - x.1).toInt
  { g with net := s.netCounts p, spd := satW 32 (roundDiv (s.netCounts p * 2 ^ 20) (s.speedWin p)),
           dirchg := s.portValid p && !g.invalidIn && x.2.1 && x.2.2, winStart := x.1, up := decide (0 < rest),
           down := decide (rest < 0), invalidIn := !(s.portValid p), winEnd := some s.granuleNo }

theorem execSpeedWindowEnd_due (hmode : (s.before t).portMode p ≠ 0) (hdue : (s.before t).windowDue p = true) :
    exec (.speedWindowEnd t p) s = .next (ends s t ((s.before t).modPort p fun _ => (s.before t).windowEnded p)) := by
  show execSpeedWindowEnd t p s = _
  exact does_of_effect (if_neg (by simp [hmode, hdue]))

theorem execSpeedWindowEnd_none (h : (s.before t).portMode p = 0 ∨ (s.before t).windowDue p = false) :
    exec (.speedWindowEnd t p) s = .next (ends s t (s.before t)) := by
  show execSpeedWindowEnd t p s = _
  exact does_of_effect (if_pos (h.imp_right ne_true_of_eq_false))

/-! ## The divided output (R481) -/

/-- The quadrature state of the divided output after one edge toward an empty backlog. -/
def State.dividedState (s : State) (p : Nat) : Nat :=
  ((s.port p).outState + (if decide (0 < (s.port p).backlog) != bit (s.force (fbOff p 0x10)) 29 then 1 else 3)) % 4

/-- A port whose divided output has given one edge. -/
def State.edgeGiven (s : State) (p : Nat) : FbPort :=
  let g := s.port p
  { g with backlog := if decide (0 < g.backlog) then g.backlog - 1 else g.backlog + 1, outState := s.dividedState p, edgeAt := s.now }

/-- The divided output of a port gives one edge. -/
def State.givesEdge (s : State) (p : Nat) : State := (s.modPort p fun _ => s.edgeGiven p).emit (.divided p (s.dividedState p))

theorem execDividedOutputEdge_due (hon : bit ((s.before t).force (fbOff p 0x10)) 31 = true) (hvalid : (s.before t).portValid p = true)
    (hopen : ((s.before t).port p).backlog ≠ 0)
    (hdue : ((s.before t).port p).edgeAt + 20 * max 2 (bits ((s.before t).force (fbOff p 0x10)) 3 0) ≤ (s.before t).now) :
    exec (.dividedOutputEdge t p) s = .next (ends s t ((s.before t).givesEdge p)) := by
  show execDividedOutputEdge t p s = _
  refine does_of_effect (if_neg ?_)
  rintro (h | h | h | h)
  · exact ne_true_of_eq_false h hon
  · exact h hvalid
  · exact hopen h
  · exact Nat.not_lt.mpr hdue h

theorem execDividedOutputEdge_none (hempty : ((s.before t).port p).backlog = 0) :
    exec (.dividedOutputEdge t p) s = .next (ends s t (s.before t)) := by
  show execDividedOutputEdge t p s = _
  exact does_of_effect (if_pos (.inr (.inr (.inl hempty))))

/-- One edge takes one from what the divided output is behind. -/
theorem State.edgeGiven_backlog (hopen : (s.port p).backlog ≠ 0) :
    (s.edgeGiven p).backlog.natAbs + 1 = (s.port p).backlog.natAbs := by
  unfold State.edgeGiven
  by_cases hfwd : 0 < (s.port p).backlog
  · simp only [hfwd, decide_true, if_true]
    omega
  · simp only [hfwd, decide_false, Bool.false_eq_true, if_false]
    omega

end

/-- Settles O49: pairs by their angle and their amplitude, and the flags, the windows and the divided output each by its own rule. -/
theorem sineCosineAndSpeedAreMeasured : Obligations.SineCosineAndSpeedAreMeasured := by
  intro s t p b g
  refine ⟨fun sin cos hmode => ?pair, fun hmode hclear => ?ampl, fun hmode hclear => ?overspeed,
    fun hmode => ⟨execFbpOverspeed_none hmode, execFbpAmpl_none hmode, execSincosSample_none hmode⟩,
    fun hmode hdue => ?window, execSpeedWindowEnd_none, fun hon hvalid hopen hdue => ?edge, execDividedOutputEdge_none⟩
  case pair =>
    intro pass fails valid
    obtain ⟨ang, n, hvector, hpair⟩ := execSincosSample_taken sin cos hmode
    let v : State := { b with free := n }
    refine ⟨v.takesPair p ang pass, hpair, v.takesPair_ampFails p ang pass, (v.takesPair_onPort p ang pass).others,
      fun k hvalid hangle hne => ?_, v.takesPair_cnt_of_unreferenced p ang pass, v.takesPair_of_failing p ang pass,
      fun hfails hclear hne href => ?_, fun hfails hclear href => ?_⟩
    · rw [← hvector hne]
      exact v.takesPair_of_referenced p ang pass hvalid hangle
    · rw [← hvector hne]
      exact v.takesPair_angle p ang pass hfails hclear href
    · rw [v.takesPair_angle p ang pass hfails hclear href]
      exact Option.some_ne_none ang
  case ampl =>
    obtain ⟨hampl, hangle, hinvalid⟩ := b.setAmpl_flags p
    exact ⟨_, execFbpAmpl_first hmode hclear, hampl, hangle, hinvalid, b.setAmpl_held p⟩
  case overspeed =>
    exact ⟨_, execFbpOverspeed_sincos hmode, b.setOverspeed_port p, State.setOverspeed_held hclear⟩
  case window =>
    refine ⟨_, execSpeedWindowEnd_due hmode hdue, ?_⟩
    rw [State.modPort_port_same]
    exact ⟨rfl, rfl, rfl, rfl, rfl, rfl, rfl⟩
  case edge =>
    have hport : (b.givesEdge p).port p = b.edgeGiven p := b.modPort_port_same p fun _ => b.edgeGiven p
    refine ⟨_, execDividedOutputEdge_due hon hvalid hopen hdue, ?_⟩
    rw [hport]
    exact ⟨State.edgeGiven_backlog hopen, rfl, rfl⟩

end Sys2Proof.Machine
end

section
/-! O50: latch inputs (11 R488 to R494, R501). -/

namespace Sys2Proof.Machine

/-! ## Edges (R488 to R490) -/

/-- A latch input after a level change that `cfg` is set for: a selected edge is an event, or is skipped within the dead time. -/
def Latch.edged (l : Latch) (cfg mt now : Nat) : Latch :=
  if edgeSelected (bits cfg 29 28) (!l.high) then
    (if now < l.deadUntil then { l with high := !l.high, skipped := (l.skipped + 1) % 2 ^ 16, skipSeen := true }
     else { l with high := !l.high, events := (l.events + 1) % 2 ^ 16, deadUntil := now + 400 * max 2 (bits cfg 17 10), skipSeen := false,
                   queue := l.queue ++ [⟨mt, l.high, l.skipSeen⟩] })
  else { l with high := !l.high }

section
variable (l : Latch) {cfg mt now : Nat}

theorem Latch.edged_of_unselected (h : edgeSelected (bits cfg 29 28) (!l.high) = false) :
    l.edged cfg mt now = { l with high := !l.high } := if_neg (ne_true_of_eq_false h)

theorem Latch.edged_of_dead (h : edgeSelected (bits cfg 29 28) (!l.high) = true) (hdead : now < l.deadUntil) :
    l.edged cfg mt now = { l with high := !l.high, skipped := (l.skipped + 1) % 2 ^ 16, skipSeen := true } :=
  (if_pos h).trans (if_pos hdead)

theorem Latch.edged_of_event (h : edgeSelected (bits cfg 29 28) (!l.high) = true) (hfree : l.deadUntil ≤ now) :
    l.edged cfg mt now =
      { l with high := !l.high, events := (l.events + 1) % 2 ^ 16, deadUntil := now + 400 * max 2 (bits cfg 17 10), skipSeen := false
               queue := l.queue ++ [⟨mt, l.high, l.skipSeen⟩] } :=
  (if_pos h).trans (if_neg (Nat.not_lt.mpr hfree))

theorem Latch.edged_high : (l.edged cfg mt now).high = !l.high := by
  unfold Latch.edged
  split
  · split <;> rfl
  · rfl

end

section
variable {s : State} {t n : Nat}

theorem execLatchEdge_taken (hup : (s.before t).up = true) (hon : bit ((s.before t).force (latOff n 0)) 31 = true) : let b := s.before t
    exec (.latchEdge t n) s = .next (ends s t (b.modLatch n fun l => l.edged (b.force (latOff n 0)) b.mt b.now)) := by
  intro b
  show execLatchEdge t n s = _
  refine does_of_effect ((if_neg (by simp [hup, hon])).trans ?_)
  simp only [Latch.edged, Bool.not_not, State.modLatch]
  rfl

theorem execLatchEdge_none (h : (s.before t).up = false ∨ bit ((s.before t).force (latOff n 0)) 31 = false) :
    exec (.latchEdge t n) s = .next (ends s t (s.before t)) := by
  show execLatchEdge t n s = _
  exact does_of_effect (if_pos (h.imp_left ne_true_of_eq_false))

end

/-! ## Events that are ready (R491, R492) -/

section
variable {s : State} {n : Nat}

theorem State.latchReady_of_empty (h : (s.latch n).queue = []) : s.latchReady n = none := by
  rw [State.latchReady, h]

theorem State.latchReady_of_noAxis {e : LatchEv} {rest : List LatchEv} (hqueue : (s.latch n).queue = e :: rest)
    (haxis : 568 ≤ bits (s.force (latOff n 0)) 9 0) : s.latchReady n = some (e, 0, 3) := by
  simp [State.latchReady, hqueue, haxis]

theorem State.latchReady_of_network {e : LatchEv} {rest : List LatchEv} (hqueue : (s.latch n).queue = e :: rest)
    (haxis : bits (s.force (latOff n 0)) 9 0 < 512) (hset : s.configured (bits (s.force (latOff n 0)) 9 0) = true) :
    s.latchReady n = (latchPos (SMap.get [] s.samples (bits (s.force (latOff n 0)) 9 0)) (toS 32 (s.force (latOff n 4))) e.mt).map
      fun x => (e, x) := by
  have hnear : ¬ 568 ≤ bits (s.force (latOff n 0)) 9 0 := by omega
  simp [State.latchReady, hqueue, haxis, hset, hnear]

end

/-- What makes an event of an input ready is its own queue, the set-up and the samples. -/
theorem State.latchReady_congr {b w : State} {n : Nat} (hlatch : w.latch n = b.latch n) (hregs : w.regs = b.regs)
    (hsamples : w.samples = b.samples) : w.latchReady n = b.latchReady n := by
  have hforce : w.force = b.force := by
    funext off
    rw [State.force, hregs]
    rfl
  have hset : w.configured = b.configured := by
    funext a
    rw [State.configured, State.configured, State.axMask, State.axMask, State.portMode, State.portMode, hforce]
  rw [State.latchReady, State.latchReady, hlatch, hforce, hset, hsamples]

/-! ## The post of one event (R493, R494) -/

/-- A latch input whose oldest event has been posted. -/
def Latch.popped (l : Latch) : Latch := { l with queue := l.queue.tail, seq := (l.seq + 1) % 256 }

/-- The capture-ring entry of an event of input `n`, with its position and POS_STATE. -/
def State.latchBytes (s : State) (n : Nat) (e : LatchEv) (pos : Int) (st : Nat) : List Byte :=
  latchEntry n e (if 568 ≤ bits (s.force (latOff n 0)) 9 0 then 0xFFFF else bits (s.force (latOff n 0)) 9 0) pos st (s.latch n).seq

theorem State.latchPost_of_ready {s : State} {n st : Nat} {e : LatchEv} {pos : Int} (h : s.latchReady n = some (e, pos, st)) :
    s.latchPost n = (s.modLatch n Latch.popped).capture (s.latchBytes n e pos st) := by
  rw [State.latchPost, h]
  rfl

theorem State.latchPost_Desk (s : State) (n : Nat) : Desk { s with lat := (s.latchPost n).lat } (s.latchPost n) := by
  cases hready : s.latchReady n with
  | none =>
    rw [State.latchPost, hready]
    exact .refl s
  | some x =>
    have hpost := (s.modLatch n Latch.popped).capture_Desk (s.latchBytes n x.1 x.2.1 x.2.2)
    rw [State.latchPost_of_ready hready, hpost.lat]
    exact hpost

theorem State.latchPost_latch_ne (s : State) {n i : Nat} (hi : i ≠ n) : (s.latchPost n).latch i = s.latch i := by
  cases hready : s.latchReady n with
  | none => rw [State.latchPost, hready]
  | some x => rw [State.latchPost_of_ready hready, (State.capture_Desk ..).latch, State.modLatch_latch_ne _ _ _ hi]

theorem State.latchPost_latch_of_ready {s : State} {n : Nat} (h : (s.latchReady n).isSome = true) :
    (s.latchPost n).latch n = (s.latch n).popped := by
  obtain ⟨x, hx⟩ := Option.isSome_iff_exists.mp h
  rw [State.latchPost_of_ready hx, (State.capture_Desk ..).latch, State.modLatch_latch_same]

/-- The post of one input does not change what is ready at another. -/
theorem State.latchPost_latchReady_ne (s : State) {n i : Nat} (hi : i ≠ n) : (s.latchPost n).latchReady i = s.latchReady i :=
  State.latchReady_congr (s.latchPost_latch_ne hi) (s.latchPost_Desk n).regs (s.latchPost_Desk n).samples

/-! ## The posts of several inputs (R501) -/

theorem State.latchPosts_of_not_mem (l : List Nat) {n : Nat} (hn : n ∉ l) (s : State) :
    (l.foldl State.latchPost s).latch n = s.latch n ∧ (l.foldl State.latchPost s).latchReady n = s.latchReady n := by
  induction l generalizing s with
  | nil => exact ⟨rfl, rfl⟩
  | cons j r ih =>
    have hnj : n ≠ j := fun h => hn (h ▸ List.mem_cons_self)
    obtain ⟨hlatch, hready⟩ := ih (fun h => hn (List.mem_cons_of_mem j h)) (s.latchPost j)
    exact ⟨hlatch.trans (s.latchPost_latch_ne hnj), hready.trans (s.latchPost_latchReady_ne hnj)⟩

/-- Each input of a list without repeats posts its event, whatever those before it posted. -/
theorem State.latchPosts_of_mem {l : List Nat} (hl : l.Nodup) {i : Nat} (hi : i ∈ l) (s : State)
    (hready : (s.latchReady i).isSome = true) : (l.foldl State.latchPost s).latch i = (s.latch i).popped := by
  induction l generalizing s with
  | nil => exact absurd hi List.not_mem_nil
  | cons j r ih =>
    obtain ⟨hj, hr⟩ := List.nodup_cons.mp hl
    rw [List.foldl_cons]
    obtain rfl | hir := List.mem_cons.mp hi
    · rw [(State.latchPosts_of_not_mem r hj _).1, State.latchPost_latch_of_ready hready]
    · have hij : i ≠ j := fun h => hj (h ▸ hir)
      rw [ih hr hir (s.latchPost j) (by rwa [s.latchPost_latchReady_ne hij]), s.latchPost_latch_ne hij]

/-- Input `i` has an event ready of the stamp `mt`. -/
def State.stampedAt (s : State) (mt i : Nat) : Bool := (s.latchReady i).any fun x => decide (x.1.mt = mt)

theorem State.mem_latchFirst (s : State) (n mt i : Nat) : i ∈ s.latchFirst n mt ↔ i < n ∧ s.stampedAt mt i = true := by
  rw [State.latchFirst, List.mem_filter, List.mem_range, State.stampedAt]
  cases s.latchReady i <;> rfl

theorem State.latchFirst_nodup (s : State) (n mt : Nat) : (s.latchFirst n mt).Nodup := List.nodup_range.filter _

theorem State.not_mem_latchFirst_of_le (s : State) {n i : Nat} (mt : Nat) (h : n ≤ i) : i ∉ s.latchFirst n mt :=
  fun hi => Nat.not_lt.mpr h ((s.mem_latchFirst n mt i).mp hi).1

/-- What LATCH_ENTRY_POST leaves at an input whose oldest event of stamp `mt` is ready. -/
def State.latchPosted (s : State) (n mt : Nat) : State := ((s.latchFirst n mt).foldl State.latchPost s).latchPost n

section
variable {s : State} {n : Nat} (mt : Nat)

theorem State.latchPosted_latch_same (hready : (s.latchReady n).isSome = true) :
    (s.latchPosted n mt).latch n = (s.latch n).popped := by
  obtain ⟨hlatch, hkept⟩ := State.latchPosts_of_not_mem _ (s.not_mem_latchFirst_of_le mt (Nat.le_refl n)) s
  rw [State.latchPosted, State.latchPost_latch_of_ready (by rwa [hkept]), hlatch]

theorem State.latchPosted_latch_above {i : Nat} (hi : n < i) : (s.latchPosted n mt).latch i = s.latch i := by
  rw [State.latchPosted, State.latchPost_latch_ne _ (Nat.ne_of_gt hi),
    (State.latchPosts_of_not_mem _ (s.not_mem_latchFirst_of_le mt (Nat.le_of_lt hi)) s).1]

theorem State.latchPosted_queue_below {i : Nat} (hi : i < n) : ((s.latchPosted n mt).latch i).queue =
    if s.stampedAt mt i then (s.latch i).queue.tail else (s.latch i).queue := by
  rw [State.latchPosted, State.latchPost_latch_ne _ (Nat.ne_of_lt hi)]
  split
  · next hstamped =>
    have hmem : i ∈ s.latchFirst n mt := (s.mem_latchFirst n mt i).mpr ⟨hi, hstamped⟩
    have hready : (s.latchReady i).isSome = true := Option.isSome_of_any hstamped
    rw [State.latchPosts_of_mem (s.latchFirst_nodup n mt) hmem s hready]
    rfl
  · next hother =>
    have hmem : i ∉ s.latchFirst n mt := fun h => hother ((s.mem_latchFirst n mt i).mp h).2
    rw [(State.latchPosts_of_not_mem _ hmem s).1]

/-- With no lower input of the same stamp the entry goes to the ring as it stands. -/
theorem State.mem_latchPosted_out {e : LatchEv} {pos : Int} {st : Nat} (hready : s.latchReady n = some (e, pos, st))
    (halone : ∀ i < n, s.stampedAt mt i = false) (hon : (s.ringOf 28).on = true) (hroom : s.room 28 1 = true)
    (hfree : s.fenced srcHostEngine = false) : .ring 28 (s.ringOf 28).own (s.latchBytes n e pos st) ∈ (s.latchPosted n mt).out := by
  have hnone : s.latchFirst n mt = [] := by
    refine List.eq_nil_iff_forall_not_mem.mpr fun i hi => ?_
    obtain ⟨hlow, hstamped⟩ := (s.mem_latchFirst n mt i).mp hi
    exact ne_true_of_eq_false (halone i hlow) hstamped
  rw [State.latchPosted, hnone, List.foldl_nil, State.latchPost_of_ready hready]
  exact State.mem_capture_out (s := s.modLatch n Latch.popped) hon hroom hfree _

end

theorem execLatchEntryPost_ready {s : State} {t n st : Nat} {e : LatchEv} {pos : Int}
    (h : (s.before t).latchReady n = some (e, pos, st)) :
    exec (.latchEntryPost t n) s = .next (ends s t ((s.before t).latchPosted n e.mt)) := by
  show execLatchEntryPost t n s = _
  refine does_of_effect ?_
  rw [h]
  rfl

theorem execLatchEntryPost_none {s : State} {t n : Nat} (h : (s.before t).latchReady n = none) :
    exec (.latchEntryPost t n) s = .next (ends s t (s.before t)) := by
  show execLatchEntryPost t n s = _
  refine does_of_effect ?_
  rw [h]

end Sys2Proof.Machine
end

section
/-! O50: encoder supplies (11 R484 to R487), and latch inputs and supplies as commands. -/

namespace Sys2Proof.Machine

/-! ## Overload (R485, R486) -/

theorem State.supplyOff_port (s : State) (p : Nat) : (s.supplyOff p).port p =
    { s.port p with supOn := false, settled := false, offAt := s.now, ma := 0, invalidIn := true } := by
  rw [State.supplyOff, State.emit_port, State.spoilPort, State.modPort_port_same, State.modPort_port_same]

theorem State.supplyOff_port_ne (s : State) {p q : Nat} (hq : q ≠ p) : (s.supplyOff p).port q = s.port q := by
  rw [State.supplyOff, State.emit_port, State.spoilPort, State.modPort_port_ne _ _ _ hq, State.modPort_port_ne _ _ _ hq]

theorem State.supplyOvl_port (s : State) (p : Nat) : (s.supplyOvl p).port p =
    { s.port p with supOn := false, settled := false, offAt := s.now, ma := 0, invalidIn := true, supOvl := true } := by
  rw [State.supplyOvl, State.modPort_raise_port, State.supplyOff_port]

theorem State.supplyOvl_port_ne (s : State) {p q : Nat} (hq : q ≠ p) : (s.supplyOvl p).port q = s.port q := by
  rw [State.supplyOvl, (State.raise_Desk ..).port, State.modPort_port_ne _ _ _ hq, s.supplyOff_port_ne hq]

/-- From `b` to `w` the supply of port `p` has gone off for overload. -/
def SwitchedOff (b w : State) (p : Nat) : Prop :=
  (w.port p).supOn = false ∧ (w.port p).supOvl = true ∧ (w.port p).offAt = b.now ∧ w.out = .supply p false :: b.out ∧
    ∃ m, w.asy.held = b.asy.held ++ [m] ∧ m.src = srcPort p ∧ m.kind = 0x25

theorem State.supplyOvl_switchedOff (s : State) (p : Nat) : SwitchedOff s (s.supplyOvl p) p := by
  have hout : (s.supplyOvl p).out = .supply p false :: s.out := by
    rw [State.supplyOvl, State.raise, State.addMark_out]
    rfl
  rw [SwitchedOff, State.supplyOvl_port]
  exact ⟨rfl, rfl, rfl, hout, State.raise_held ..⟩

section
variable {s : State} {t p : Nat}

theorem execEncSupplyOvl_on (hon : ((s.before t).port p).supOn = true) :
    exec (.encSupplyOvl t p) s = .next (ends s t ((s.before t).supplyOvl p)) := by
  show execEncSupplyOvl t p s = _
  exact does_of_effect (if_pos hon)

theorem execEncSupplyOvl_none (hoff : ((s.before t).port p).supOn = false) :
    exec (.encSupplyOvl t p) s = .next (ends s t (s.before t)) := by
  show execEncSupplyOvl t p s = _
  exact does_of_effect (if_neg (ne_true_of_eq_false hoff))

/-- The supply of the highest number that is on. -/
def State.highestOn (s : State) : Option Nat := (List.range 8).reverse.find? fun p => (s.port p).supOn

theorem State.highestOn_eq_some {s : State} (hp : p < 8) (hon : (s.port p).supOn = true)
    (habove : ∀ q, p < q → q < 8 → (s.port q).supOn = false) : s.highestOn = some p := by
  refine List.find?_eq_some_iff_getElem.mpr ⟨hon, 7 - p, by simp; omega, by simp; omega, fun j hj => ?_⟩
  have hoff := habove (7 - j) (by omega) (by omega)
  simpa using hoff

theorem State.highestOn_eq_none {s : State} (h : ∀ q, q < 8 → (s.port q).supOn = false) : s.highestOn = none :=
  List.find?_eq_none.mpr fun q hq => ne_true_of_eq_false (h q (List.mem_range.mp (List.mem_reverse.mp hq)))

/-- A supply has gone off for the total overload within the last millisecond. -/
def State.totalAgain (s : State) : Bool :=
  match s.pw.supTotalAt with
  | some x => decide (s.now < x + 4000000)
  | none => false

theorem State.totalAgain_of_some {s : State} {x : Nat} (h : s.pw.supTotalAt = some x) (hsoon : s.now < x + 4000000) :
    s.totalAgain = true := by
  simpa [State.totalAgain, h] using hsoon

theorem State.totalAgain_of_late {s : State} (h : ∀ x, s.pw.supTotalAt = some x → x + 4000000 ≤ s.now) : s.totalAgain = false := by
  unfold State.totalAgain
  split
  · next x hx => exact decide_eq_false (Nat.not_lt.mpr (h x hx))
  · rfl

/-- The total overload takes supply `p` and notes its time. -/
def State.totalOvl (s : State) (p : Nat) : State := { s.supplyOvl p with pw := { s.pw with supTotalAt := some s.now } }

theorem State.withPower_port (s : State) (x : Power) (q : Nat) : ({ s with pw := x } : State).port q = s.port q := rfl

theorem State.totalOvl_port (s : State) (p q : Nat) : (s.totalOvl p).port q = (s.supplyOvl p).port q := by
  unfold State.totalOvl
  exact (s.supplyOvl p).withPower_port _ q

theorem State.totalOvl_switchedOff (s : State) (p : Nat) : SwitchedOff s (s.totalOvl p) p := by
  rw [SwitchedOff, State.totalOvl_port]
  exact s.supplyOvl_switchedOff p

theorem execEncSupplyTotalOvl_taken (hp : (s.before t).highestOn = some p) (hlate : (s.before t).totalAgain = false) :
    exec (.encSupplyTotalOvl t) s = .next (ends s t ((s.before t).totalOvl p)) := by
  show execEncSupplyTotalOvl t s = _
  refine does_of_effect ?_
  rw [show (List.range 8).reverse.find? (fun p => ((s.before t).port p).supOn) = some p from hp]
  exact if_neg (ne_true_of_eq_false hlate)

theorem execEncSupplyTotalOvl_none (h : (s.before t).highestOn = none ∨ (s.before t).totalAgain = true) :
    exec (.encSupplyTotalOvl t) s = .next (ends s t (s.before t)) := by
  show execEncSupplyTotalOvl t s = _
  refine does_of_effect ?_
  cases hhighest : (s.before t).highestOn with
  | none => rw [show (List.range 8).reverse.find? (fun p => ((s.before t).port p).supOn) = none from hhighest]
  | some p =>
    have hagain : (s.before t).totalAgain = true := h.resolve_left (by simp [hhighest])
    rw [show (List.range 8).reverse.find? (fun p => ((s.before t).port p).supOn) = some p from hhighest]
    exact if_pos hagain

/-! ## Restart and settling (R487) -/

theorem execEncSupplyRestart_due (hset : (s.before t).portSup p = true) (hoff : ((s.before t).port p).supOn = false)
    (hclear : ((s.before t).port p).supOvl = false) (hdue : ((s.before t).port p).offAt + 400000000 ≤ (s.before t).now) :
    exec (.encSupplyRestart t p) s = .next (ends s t ((s.before t).supplyOn p)) := by
  show execEncSupplyRestart t p s = _
  exact does_of_effect (if_pos ⟨hset, hoff, hclear, hdue⟩)

theorem execEncSupplyRestart_none (hearly : (s.before t).now < ((s.before t).port p).offAt + 400000000) :
    exec (.encSupplyRestart t p) s = .next (ends s t (s.before t)) := by
  show execEncSupplyRestart t p s = _
  exact does_of_effect (if_neg fun h => Nat.not_lt.mpr h.2.2.2 hearly)

theorem State.supplyOn_port (s : State) (p : Nat) : (s.supplyOn p).port p =
    { s.port p with supOn := true, settled := decide (bits (s.force (fbOff p 0)) 11 8 = 0), onAt := s.now, ma := toU 16 s.draw.1 } := by
  rw [State.supplyOn, State.emit_port, State.modPort_port_same]
  rfl

theorem execEncSupplySettled_due (hon : ((s.before t).port p).supOn = true)
    (hdue : ((s.before t).port p).onAt + bits ((s.before t).force (fbOff p 0)) 11 8 * 40000000 ≤ (s.before t).now) :
    exec (.encSupplySettled t p) s = .next (ends s t ((s.before t).modPort p fun g => { g with settled := true })) := by
  show execEncSupplySettled t p s = _
  exact does_of_effect (if_pos ⟨hon, hdue⟩)

end

/-- Settles O50: level changes and posts of a latch input, and the switching of a supply, each by what its command leaves. -/
theorem latchesRecordAndSuppliesSwitch : Obligations.LatchesRecordAndSuppliesSwitch := by
  constructor
  · intro s t n b l cfg
    refine ⟨fun hup hon => ?edge, execLatchEdge_none, execLatchEntryPost_none, State.latchReady_of_empty,
      fun e rest hqueue haxis => State.latchReady_of_noAxis hqueue haxis,
      fun e rest hqueue haxis hset => State.latchReady_of_network hqueue haxis hset, fun e pos st hready => ?post⟩
    case edge =>
      refine ⟨_, execLatchEdge_taken hup hon, rfl, ?_, fun i hi => State.modLatch_latch_ne _ _ _ hi, ?_⟩
      · rw [State.modLatch_latch_same, Latch.edged_high]
      · rw [State.modLatch_latch_same]
        refine ⟨fun hnot => l.edged_of_unselected hnot, fun hsel hfree => ?_, fun hsel hdead => ?_⟩
        · rw [l.edged_of_event hsel hfree]
          exact ⟨rfl, rfl, rfl⟩
        · rw [l.edged_of_dead hsel hdead]
          exact ⟨rfl, rfl, rfl⟩
    case post =>
      have hown : (b.latchPosted n e.mt).latch n = l.popped := State.latchPosted_latch_same e.mt (by rw [hready]; rfl)
      refine ⟨_, execLatchEntryPost_ready hready, ?_, ?_, fun i hi => State.latchPosted_queue_below e.mt hi,
        fun i hi => State.latchPosted_latch_above e.mt hi,
        fun halone hon hroom hfree => State.mem_latchPosted_out e.mt hready halone hon hroom hfree⟩
      · rw [hown]
        rfl
      · rw [hown]
        rfl
  · intro s t p b g off
    refine ⟨fun hon => ⟨_, execEncSupplyOvl_on hon, b.supplyOvl_switchedOff p⟩, execEncSupplyOvl_none,
      fun hp hon habove hlate => ?total, fun hnone => execEncSupplyTotalOvl_none (hnone.imp State.highestOn_eq_none ?again),
      fun hset hoff hclear hdue => ?restart, execEncSupplyRestart_none, fun hon hdue => ?settled⟩
    case total =>
      exact ⟨_, execEncSupplyTotalOvl_taken (State.highestOn_eq_some hp hon habove) (State.totalAgain_of_late hlate),
        b.totalOvl_switchedOff p, fun q hq => (b.totalOvl_port p q).trans (b.supplyOvl_port_ne hq), rfl⟩
    case again =>
      rintro ⟨x, hx, hsoon⟩
      exact State.totalAgain_of_some hx hsoon
    case restart =>
      refine ⟨_, execEncSupplyRestart_due hset hoff hclear hdue, ?_, ?_, rfl⟩
      · rw [State.supplyOn_port]
      · rw [State.supplyOn_port]
    case settled =>
      exact ⟨_, execEncSupplySettled_due hon hdue, State.modPort_port_same .., rfl⟩

end Sys2Proof.Machine
end

section
/-! The block as a whole (00; 17; 18; 20): what the step leaves of the queue, the time, the NV pages, the supplies, the TAP and the
safety outputs, from one statement of what each command may do to them. -/

namespace Sys2Proof.Machine

/-! ## The queue and the time -/

/-- The outcome is a next state with the queue of `s` and the later of its time and `t`. -/
def Completes (s : State) (t : Nat) : Host.Outcome State Fault Refusal → Prop
  | .next w => w.pending = s.pending ∧ w.now = max s.now t
  | _ => False

theorem Completes.next {s : State} {t : Nat} {o : Host.Outcome State Fault Refusal} (h : Completes s t o) :
    ∃ w, o = .next w ∧ w.pending = s.pending ∧ w.now = max s.now t := by
  cases o with
  | next w => exact ⟨w, rfl, h⟩
  | fault r => exact h.elim
  | refused r => exact h.elim

/-- Every meaning is an effect within the one frame (`State.does`), which sets the queue and the time. -/
theorem exec_completes (c : Instr) (s : State) : Completes s c.time (exec c s) := by
  cases c <;> exact ⟨rfl, rfl⟩

/-- Settles O1: by the definition of the step. -/
theorem stepRunsTheFrontCommand : Obligations.StepRunsTheFrontCommand := by
  intro c q s hq
  unfold step
  rw [hq]

/-- Settles O2: by the definition of the step. -/
theorem anEmptyQueueIdles : Obligations.AnEmptyQueueIdles := by
  intro s hq
  unfold step
  rw [hq]

/-- Settles O3: whatever the effect, the frame of a meaning keeps the queue and takes the later time. -/
theorem everyCommandCompletes : Obligations.EveryCommandCompletes := by
  intro c s
  exact (exec_completes c s).next

/-- Settles O4, by induction on the queue. -/
theorem theQueueDrains : Obligations.TheQueueDrains := by
  intro s
  generalize hq : s.pending = q
  induction q generalizing s with
  | nil => exact ⟨s, .zero s, hq, rfl⟩
  | cons c r ih =>
    obtain ⟨w, hw, hpending, hnow⟩ := everyCommandCompletes c { s with pending := r }
    obtain ⟨v, hsteps, hempty, htime⟩ := ih w hpending
    have hstep : step s = .next w := (stepRunsTheFrontCommand c r s hq).trans hw
    refine ⟨v, .succ hstep hsteps, hempty, ?_⟩
    rw [htime, hnow]
    rfl

/-- Settles O5: the time of the front command is the latest so far, and every command behind it is no earlier. -/
theorem stepKeepsTheOrderOfCommands : Obligations.StepKeepsTheOrderOfCommands := by
  rintro s w ⟨hsorted, hlater⟩ hstep
  cases hq : s.pending with
  | nil =>
    obtain rfl : s = w := Host.Outcome.next.inj ((anEmptyQueueIdles s hq).symm.trans hstep)
    exact ⟨⟨hsorted, hlater⟩, by simp⟩
  | cons c r =>
    rw [hq, List.pairwise_cons] at hsorted
    obtain ⟨hfront, hrest⟩ := hsorted
    obtain ⟨v, hv, hpending, hnow⟩ := everyCommandCompletes c { s with pending := r }
    obtain rfl : v = w := Host.Outcome.next.inj (hv.symm.trans ((stepRunsTheFrontCommand c r s hq).symm.trans hstep))
    have htime : v.now = c.time := by
      rw [hnow]
      exact Nat.max_eq_right (hlater c (hq ▸ List.mem_cons_self))
    have hr : v.pending = r := hpending
    refine ⟨⟨by rw [hr]; exact hrest, fun d hd => ?_⟩, fun d hd => ?_⟩
    · rw [htime]
      exact hfront d (hr ▸ hd)
    · obtain rfl : c = d := by simpa using hd
      exact htime

/-! ## The NV pages, the supplies, the TAP and the safety outputs -/

/-- What a command may do to the NV pages, the supplies, the TAP and the safety outputs: most leave them alone but for opening
outputs; the supervisor's may reset the device, the TAP's load the TAP, a page write that is done writes its page, and
SAFETY_TICK switches outputs. -/
inductive Leaves : Instr → State → State → Prop where
  | shuts {c : Instr} {s w : State} (h : Shuts s w) : Leaves c s w
  | resets {c : Instr} {s w : State} (hc : c.isSupervisor = true) (h : Resets s w) : Leaves c s w
  | tap {c : Instr} {s w : State} {x : Tap} {r : Bool} (hc : c.isTap = true)
      (h : w.nv = s.nv ∧ w.saf = s.saf ∧ w.pw = s.pw ∧ w.tap = x ∧ w.tapReset = r) : Leaves c s w
  | written {t : Nat} {s w : State} (h : Written s w) : Leaves (.nvPageWriteDone t) s w
  | keeps {c : Instr} {s w : State} (hc : c.isSafetyTick = true) (h : Keeps s w) : Leaves c s w

/-- Every command is one of these. -/
theorem exec_leaves {s w : State} : ∀ c : Instr, exec c s = .next w → Leaves c s w
  | .nop .., hs => .shuts (.of_guarded (execNop_guarded (hs := hs)))
  | .fence .., hs => .shuts (.of_guarded (execFence_guarded (hs := hs)))
  | .mode .., hs => .shuts (.of_guarded (execMode_guarded (hs := hs)))
  | .moveAbs .., hs => .shuts (.of_guarded (execMoveAbs_guarded (hs := hs)))
  | .moveRel .., hs => .shuts (.of_guarded (execMoveRel_guarded (hs := hs)))
  | .jog .., hs => .shuts (.of_guarded (execJog_guarded (hs := hs)))
  | .stop .., hs => .shuts (.of_guarded (execStop_guarded (hs := hs)))
  | .limits .., hs => .shuts (.of_guarded (execLimits_guarded (hs := hs)))
  | .follow .., hs => .shuts (.of_guarded (execFollow_guarded (hs := hs)))
  | .gear .., hs => .shuts (.of_guarded (execGear_guarded (hs := hs)))
  | .camEngage .., hs => .shuts (.of_guarded (execCamEngage_guarded (hs := hs)))
  | .camDisengage .., hs => .shuts (.of_guarded (execCamDisengage_guarded (hs := hs)))
  | .groupMove .., hs => .shuts (.of_guarded (execGroupMove_guarded (hs := hs)))
  | .phaseIn .., hs => .shuts (.of_guarded (execPhaseIn_guarded (hs := hs)))
  | .setc .., hs => .shuts (.of_guarded (execSetc_guarded (hs := hs)))
  | .loadset .., hs => .shuts (.of_guarded (execLoadset_guarded (hs := hs)))
  | .swapset .., hs => .shuts (.of_guarded (execSwapset_guarded (hs := hs)))
  | .terrace .., hs => .shuts (.of_guarded (execTerrace_guarded (hs := hs)))
  | .filter .., hs => .shuts (.of_guarded (execFilter_guarded (hs := hs)))
  | .learn .., hs => .shuts (.of_guarded (execLearn_guarded (hs := hs)))
  | .resample .., hs => .shuts (.of_guarded (execResample_guarded (hs := hs)))
  | .couple .., hs => .shuts (.of_guarded (execCouple_guarded (hs := hs)))
  | .ident .., hs => .shuts (.of_guarded (execIdent_guarded (hs := hs)))
  | .camLoad .., hs => .shuts (.of_guarded (execCamLoad_guarded (hs := hs)))
  | .axisCfg .., hs => .shuts (.of_guarded (execAxisCfg_guarded (hs := hs)))
  | .nodeMgmtUnmute .., hs => .shuts (.of_guarded (execNodeMgmtUnmute_guarded (hs := hs)))
  | .timeStep .., hs => .shuts (.of_guarded (execTimeStep_guarded (hs := hs)))
  | .timeSelect .., hs => .shuts (.of_guarded (execTimeSelect_guarded (hs := hs)))
  | .nvWrite .., hs => .shuts (.of_guarded (execNvWrite_guarded (hs := hs)))
  | .nvRead .., hs => .shuts (.of_guarded (execNvRead_guarded (hs := hs)))
  | .safetyLoad .., hs => .shuts (.of_guarded (execSafetyLoad_guarded (hs := hs)))
  | .safetyConfirm .., hs => .shuts (.of_guarded (execSafetyConfirm_guarded (hs := hs)))
  | .inject .., hs => .shuts (.of_guarded (execInject_guarded (hs := hs)))
  | .unfence .., hs => .shuts (.of_guarded (execUnfence_guarded (hs := hs)))
  | .clearLedger .., hs => .shuts (.of_guarded (execClearLedger_guarded (hs := hs)))
  | .clearFlags .., hs => .shuts (.of_guarded (execClearFlags_guarded (hs := hs)))
  | .trace .., hs => .shuts (.of_guarded (execTrace_guarded (hs := hs)))
  | .descriptorAccepted .., hs => .shuts (.of_guarded (execDescriptorAccepted_guarded (hs := hs)))
  | .atPhaseTimeout .., hs => .shuts (.of_guarded (execAtPhaseTimeout_guarded (hs := hs)))
  | .netSegCommit .., hs => .shuts (.of_guarded (execNetSegCommit_guarded (hs := hs)))
  | .fbpCommit .., hs => .shuts (.of_guarded (execFbpCommit_guarded (hs := hs)))
  | .pulCommit .., hs => .shuts (.of_guarded (execPulCommit_guarded (hs := hs)))
  | .adcCommit .., hs => .shuts (.of_guarded (execAdcCommit_guarded (hs := hs)))
  | .hstCommit .., hs => .shuts (.of_guarded (execHstCommit_guarded (hs := hs)))
  | .asyCommit .., hs => .shuts (.of_guarded (execAsyCommit_guarded (hs := hs)))
  | .glbCommitGo .., hs => .shuts (.of_guarded (execGlbCommitGo_guarded (hs := hs)))
  | .glbCommitAll .., hs => .shuts (.of_guarded (execGlbCommitAll_guarded (hs := hs)))
  | .glbCommitDiscard .., hs => .shuts (.of_guarded (execGlbCommitDiscard_guarded (hs := hs)))
  | .hstRingEnable .., hs => .shuts (.of_guarded (execHstRingEnable_guarded (hs := hs)))
  | .hstRingDisable .., hs => .shuts (.of_guarded (execHstRingDisable_guarded (hs := hs)))
  | .twnEnable .., hs => .shuts (.of_guarded (execTwnEnable_guarded (hs := hs)))
  | .twnRepair .., hs => .shuts (.of_guarded (execTwnRepair_guarded (hs := hs)))
  | .timMtLoRead .., hs => .shuts (.of_guarded (execTimMtLoRead_guarded (hs := hs)))
  | .adcPopLoRead .., hs => .shuts (.of_guarded (execAdcPopLoRead_guarded (hs := hs)))
  | .pulEcntLoRead .., hs => .shuts (.of_guarded (execPulEcntLoRead_guarded (hs := hs)))
  | .debugWindowRead .., hs => .shuts (.of_guarded (execDebugWindowRead_guarded (hs := hs)))
  | .debugWindowWrite .., hs => .shuts (.of_guarded (execDebugWindowWrite_guarded (hs := hs)))
  | .registerWrite .., hs => .shuts (.of_guarded (execRegisterWrite_guarded (hs := hs)))
  | .unsupportedRequest .., hs => .shuts (.of_guarded (execUnsupportedRequest_guarded (hs := hs)))
  | .bypass .., hs => .tap rfl (execBypass_tap (hs := hs))
  | .samplePreload .., hs => .tap rfl (execSamplePreload_tap (hs := hs))
  | .extest .., hs => .tap rfl (execExtest_tap (hs := hs))
  | .tapReset .., hs => .tap rfl (execTapReset_tap (hs := hs))
  | .resetRelease .., hs => .resets rfl (execResetRelease_resets (hs := hs))
  | .railGood .., hs => .resets rfl (execRailGood_resets (hs := hs))
  | .railTimeout .., hs => .resets rfl (execRailTimeout_resets (hs := hs))
  | .railRetry .., hs => .resets rfl (execRailRetry_resets (hs := hs))
  | .railFail .., hs => .resets rfl (execRailFail_resets (hs := hs))
  | .railFailShutdown .., hs => .resets rfl (execRailFailShutdown_resets (hs := hs))
  | .supplyNvw .., hs => .resets rfl (execSupplyNvw_resets (hs := hs))
  | .supplyHold .., hs => .resets rfl (execSupplyHold_resets (hs := hs))
  | .vrstCrossed .., hs => .resets rfl (execVrstCrossed_resets (hs := hs))
  | .vaonMinCrossed .., hs => .resets rfl (execVaonMinCrossed_resets (hs := hs))
  | .vsuvCrossed .., hs => .resets rfl (execVsuvCrossed_resets (hs := hs))
  | .supplyConditionEnd .., hs => .resets rfl (execSupplyConditionEnd_resets (hs := hs))
  | .tempHigh .., hs => .resets rfl (execTempHigh_resets (hs := hs))
  | .tempShutdown .., hs => .resets rfl (execTempShutdown_resets (hs := hs))
  | .thermalRailOff .., hs => .resets rfl (execThermalRailOff_resets (hs := hs))
  | .thermalRestart .., hs => .resets rfl (execThermalRestart_resets (hs := hs))
  | .pllLockLoss .., hs => .resets rfl (execPllLockLoss_resets (hs := hs))
  | .tdCheck .., hs => .resets rfl (execTdCheck_resets (hs := hs))
  | .bootStart .., hs => .resets rfl (execBootStart_resets (hs := hs))
  | .bootComplete .., hs => .shuts (.of_guarded (execBootComplete_guarded (hs := hs)))
  | .refReady .., hs => .shuts (.of_guarded (execRefReady_guarded (hs := hs)))
  | .perst .., hs => .resets rfl (execPerst_resets (hs := hs))
  | .flitCrcError .., hs => .shuts (.of_guarded (execFlitCrcError_guarded (hs := hs)))
  | .linkDown .., hs => .shuts (execLinkDown_shuts (hs := hs))
  | .nvPageWriteDone .., hs => .written (execNvPageWriteDone_written (hs := hs))
  | .nvTimeout .., hs => .shuts (.of_guarded (execNvTimeout_guarded (hs := hs)))
  | .ledgerPersistence .., hs => .shuts (.of_guarded (execLedgerPersistence_guarded (hs := hs)))
  | .eccCorr .., hs => .shuts (.of_guarded (execEccCorr_guarded (hs := hs)))
  | .eccDouble .., hs => .shuts (.of_guarded (execEccDouble_guarded (hs := hs)))
  | .parity .., hs => .shuts (.of_guarded (execParity_guarded (hs := hs)))
  | .fabricTimeout .., hs => .shuts (.of_guarded (execFabricTimeout_guarded (hs := hs)))
  | .readyStall .., hs => .shuts (.of_guarded (execReadyStall_guarded (hs := hs)))
  | .jobWatchdog .., hs => .shuts (.of_guarded (execJobWatchdog_guarded (hs := hs)))
  | .reissuePoint .., hs => .shuts (.of_guarded (execReissuePoint_guarded (hs := hs)))
  | .hammerSlow .., hs => .shuts (.of_guarded (execHammerSlow_guarded (hs := hs)))
  | .softLimit .., hs => .shuts (.of_guarded (execSoftLimit_guarded (hs := hs)))
  | .preemptStop .., hs => .shuts (.of_guarded (execPreemptStop_guarded (hs := hs)))
  | .softJobComplete .., hs => .shuts (.of_guarded (execSoftJobComplete_guarded (hs := hs)))
  | .asbMoveLanded .., hs => .shuts (.of_guarded (execAsbMoveLanded_guarded (hs := hs)))
  | .unfenceCheckDone .., hs => .shuts (.of_guarded (execUnfenceCheckDone_guarded (hs := hs)))
  | .reportClose .., hs => .shuts (.of_guarded (execReportClose_guarded (hs := hs)))
  | .reportLost .., hs => .shuts (.of_guarded (execReportLost_guarded (hs := hs)))
  | .nodeLost .., hs => .shuts (.of_guarded (execNodeLost_guarded (hs := hs)))
  | .jobComplete .., hs => .shuts (.of_guarded (execJobComplete_guarded (hs := hs)))
  | .pourPoint .., hs => .shuts (.of_guarded (execPourPoint_guarded (hs := hs)))
  | .slotTransmit .., hs => .shuts (.of_guarded (execSlotTransmit_guarded (hs := hs)))
  | .rpReceived .., hs => .shuts (.of_guarded (execRpReceived_guarded (hs := hs)))
  | .receiveOverlap .., hs => .shuts (.of_guarded (execReceiveOverlap_guarded (hs := hs)))
  | .nodeMuted .., hs => .shuts (.of_guarded (execNodeMuted_guarded (hs := hs)))
  | .sfReceived .., hs => .shuts (.of_guarded (execSfReceived_guarded (hs := hs)))
  | .syReturn .., hs => .shuts (.of_guarded (execSyReturn_guarded (hs := hs)))
  | .channelLost .., hs => .shuts (.of_guarded (execChannelLost_guarded (hs := hs)))
  | .ringHealed .., hs => .shuts (.of_guarded (execRingHealed_guarded (hs := hs)))
  | .delayAdoption .., hs => .shuts (.of_guarded (execDelayAdoption_guarded (hs := hs)))
  | .portLinkChange .., hs => .shuts (.of_guarded (execPortLinkChange_guarded (hs := hs)))
  | .listenEnd .., hs => .shuts (.of_guarded (execListenEnd_guarded (hs := hs)))
  | .csReceived .., hs => .shuts (.of_guarded (execCsReceived_guarded (hs := hs)))
  | .csPhaseEnd .., hs => .shuts (.of_guarded (execCsPhaseEnd_guarded (hs := hs)))
  | .scheduleStart .., hs => .shuts (.of_guarded (execScheduleStart_guarded (hs := hs)))
  | .syReceived .., hs => .shuts (.of_guarded (execSyReceived_guarded (hs := hs)))
  | .inAnswer .., hs => .shuts (.of_guarded (execInAnswer_guarded (hs := hs)))
  | .lcClaim .., hs => .shuts (.of_guarded (execLcClaim_guarded (hs := hs)))
  | .mgAnswer .., hs => .shuts (.of_guarded (execMgAnswer_guarded (hs := hs)))
  | .mgmtRequestTimeout .., hs => .shuts (.of_guarded (execMgmtRequestTimeout_guarded (hs := hs)))
  | .nodeNotFound .., hs => .shuts (.of_guarded (execNodeNotFound_guarded (hs := hs)))
  | .latecomerWithdrawn .., hs => .shuts (.of_guarded (execLatecomerWithdrawn_guarded (hs := hs)))
  | .majorCycleBoundary .., hs => .shuts (.of_guarded (execMajorCycleBoundary_guarded (hs := hs)))
  | .masterInterval .., hs => .shuts (.of_guarded (execMasterInterval_guarded (hs := hs)))
  | .poll .., hs => .shuts (.of_guarded (execPoll_guarded (hs := hs)))
  | .hostHbTimeout .., hs => .shuts (.of_guarded (execHostHbTimeout_guarded (hs := hs)))
  | .cyclePoint .., hs => .shuts (.of_guarded (execCyclePoint_guarded (hs := hs)))
  | .pcieLinkDown .., hs => .shuts (.of_guarded (execPcieLinkDown_guarded (hs := hs)))
  | .pcieLinkUp .., hs => .shuts (.of_guarded (execPcieLinkUp_guarded (hs := hs)))
  | .plantFrameSend .., hs => .shuts (.of_guarded (execPlantFrameSend_guarded (hs := hs)))
  | .plantFrameReceived .., hs => .shuts (.of_guarded (execPlantFrameReceived_guarded (hs := hs)))
  | .gptpSyncReceived .., hs => .shuts (.of_guarded (execGptpSyncReceived_guarded (hs := hs)))
  | .announceReceived .., hs => .shuts (.of_guarded (execAnnounceReceived_guarded (hs := hs)))
  | .pdelayReqInterval .., hs => .shuts (.of_guarded (execPdelayReqInterval_guarded (hs := hs)))
  | .pdelayResponseReceived .., hs => .shuts (.of_guarded (execPdelayResponseReceived_guarded (hs := hs)))
  | .pdelayReqReceived .., hs => .shuts (.of_guarded (execPdelayReqReceived_guarded (hs := hs)))
  | .syncReceiptTimeout .., hs => .shuts (.of_guarded (execSyncReceiptTimeout_guarded (hs := hs)))
  | .announceReceiptTimeout .., hs => .shuts (.of_guarded (execAnnounceReceiptTimeout_guarded (hs := hs)))
  | .holdoverExpiry .., hs => .shuts (.of_guarded (execHoldoverExpiry_guarded (hs := hs)))
  | .illegalTransition .., hs => .shuts (.of_guarded (execIllegalTransition_guarded (hs := hs)))
  | .indexEdge .., hs => .shuts (.of_guarded (execIndexEdge_guarded (hs := hs)))
  | .fbpWire .., hs => .shuts (.of_guarded (execFbpWire_guarded (hs := hs)))
  | .fbpAmpl .., hs => .shuts (.of_guarded (execFbpAmpl_guarded (hs := hs)))
  | .fbpOverspeed .., hs => .shuts (.of_guarded (execFbpOverspeed_guarded (hs := hs)))
  | .speedWindowEnd .., hs => .shuts (.of_guarded (execSpeedWindowEnd_guarded (hs := hs)))
  | .encSupplyOvl .., hs => .shuts (.of_guarded (execEncSupplyOvl_guarded (hs := hs)))
  | .encSupplyTotalOvl .., hs => .shuts (.of_guarded (execEncSupplyTotalOvl_guarded (hs := hs)))
  | .encSupplyRestart .., hs => .shuts (.of_guarded (execEncSupplyRestart_guarded (hs := hs)))
  | .encSupplySettled .., hs => .shuts (.of_guarded (execEncSupplySettled_guarded (hs := hs)))
  | .latchEdge .., hs => .shuts (.of_guarded (execLatchEdge_guarded (hs := hs)))
  | .latchEntryPost .., hs => .shuts (.of_guarded (execLatchEntryPost_guarded (hs := hs)))
  | .stepBoundary .., hs => .shuts (.of_guarded (execStepBoundary_guarded (hs := hs)))
  | .pulHalt .., hs => .shuts (.of_guarded (execPulHalt_guarded (hs := hs)))
  | .pulParity .., hs => .shuts (.of_guarded (execPulParity_guarded (hs := hs)))
  | .adcSequenceStart .., hs => .shuts (.of_guarded (execAdcSequenceStart_guarded (hs := hs)))
  | .adcConversionComplete .., hs => .shuts (.of_guarded (execAdcConversionComplete_guarded (hs := hs)))
  | .twinHbReceived .., hs => .shuts (.of_guarded (execTwinHbReceived_guarded (hs := hs)))
  | .tagReceived .., hs => .shuts (.of_guarded (execTagReceived_guarded (hs := hs)))
  | .cplReceived .., hs => .shuts (.of_guarded (execCplReceived_guarded (hs := hs)))
  | .useReceived .., hs => .shuts (.of_guarded (execUseReceived_guarded (hs := hs)))
  | .mstReceived .., hs => .shuts (.of_guarded (execMstReceived_guarded (hs := hs)))
  | .digReceived .., hs => .shuts (.of_guarded (execDigReceived_guarded (hs := hs)))
  | .outReceived .., hs => .shuts (.of_guarded (execOutReceived_guarded (hs := hs)))
  | .evtReceived .., hs => .shuts (.of_guarded (execEvtReceived_guarded (hs := hs)))
  | .blkReceived .., hs => .shuts (.of_guarded (execBlkReceived_guarded (hs := hs)))
  | .reqReceived .., hs => .shuts (.of_guarded (execReqReceived_guarded (hs := hs)))
  | .twinLaneDown .., hs => .shuts (.of_guarded (execTwinLaneDown_guarded (hs := hs)))
  | .twinLaneUp .., hs => .shuts (.of_guarded (execTwinLaneUp_guarded (hs := hs)))
  | .twinLinkLost .., hs => .shuts (.of_guarded (execTwinLinkLost_guarded (hs := hs)))
  | .pairingStart .., hs => .shuts (.of_guarded (execPairingStart_guarded (hs := hs)))
  | .changeover .., hs => .shuts (.of_guarded (execChangeover_guarded (hs := hs)))
  | .twinDualLeader .., hs => .shuts (.of_guarded (execTwinDualLeader_guarded (hs := hs)))
  | .markRelease .., hs => .shuts (.of_guarded (execMarkRelease_guarded (hs := hs)))
  | .safetyTick .., hs => .keeps rfl (execSafetyTick_keeps (hs := hs))
  | .tickTimeout .., hs => .shuts (execTickTimeout_shuts (hs := hs))
  | .peerSnapshot .., hs => .shuts (execPeerSnapshot_shuts (hs := hs))
  | .resultCompare .., hs => .shuts (execResultCompare_shuts (hs := hs))
  | .peerSilent .., hs => .shuts (execPeerSilent_shuts (hs := hs))
  | .selftestFail .., hs => .shuts (execSelftestFail_shuts (hs := hs))
  | .testPulseEnd .., hs => .shuts (.of_guarded (execTestPulseEnd_guarded (hs := hs)))
  | .safDiscrepancy .., hs => .shuts (.of_guarded (execSafDiscrepancy_guarded (hs := hs)))
  | .stop1DelayExpiry .., hs => .shuts (.of_guarded (execStop1DelayExpiry_guarded (hs := hs)))
  | .outputReadbackCheck .., hs => .shuts (execOutputReadbackCheck_shuts (hs := hs))
  | .safOverload .., hs => .shuts (execSafOverload_shuts (hs := hs))
  | .feedbackTimeout .., hs => .shuts (execFeedbackTimeout_shuts (hs := hs))
  | .safConnLost .., hs => .shuts (.of_guarded (execSafConnLost_guarded (hs := hs)))
  | .singleTimeExpiry .., hs => .shuts (.of_guarded (execSingleTimeExpiry_guarded (hs := hs)))
  | .safetyChannelPowerUp .., hs => .shuts (.of_guarded (execSafetyChannelPowerUp_guarded (hs := hs)))
  | .safetyInputSample .., hs => .shuts (.of_guarded (execSafetyInputSample_guarded (hs := hs)))
  | .quadratureCount .., hs => .shuts (.of_guarded (execQuadratureCount_guarded (hs := hs)))
  | .sincosSample .., hs => .shuts (.of_guarded (execSincosSample_guarded (hs := hs)))
  | .rateMultiplierCarry .., hs => .shuts (.of_guarded (execRateMultiplierCarry_guarded (hs := hs)))
  | .dividedOutputEdge .., hs => .shuts (.of_guarded (execDividedOutputEdge_guarded (hs := hs)))
  | .ctReceived .., hs => .shuts (.of_guarded (execCtReceived_guarded (hs := hs)))
  | .plantPortLinkChange .., hs => .shuts (.of_guarded (execPlantPortLinkChange_guarded (hs := hs)))
  | .powerDomainUp .., hs => .shuts (.of_guarded (execPowerDomainUp_guarded (hs := hs)))
  | .abandonedRunStop .., hs => .shuts (.of_guarded (execAbandonedRunStop_guarded (hs := hs)))
  | .temperatureConditionEnd .., hs => .resets rfl (execTemperatureConditionEnd_resets (hs := hs))
  | .msiXVectorUnmask .., hs => .shuts (.of_guarded (execMsiXVectorUnmask_guarded (hs := hs)))
  | .nvPageReadDone .., hs => .shuts (.of_guarded (execNvPageReadDone_guarded (hs := hs)))

/-- The commands that do not close an output: every one but SAFETY_TICK. -/
theorem Leaves.closed {c : Instr} {s w : State} (h : Leaves c s w) (hc : c.isSafetyTick = false) (k : Nat)
    (hon : w.saf.closed k = true) : s.saf.closed k = true := by
  cases h with
  | shuts h => exact h.closed k hon
  | resets _ h => exact h.closed k hon
  | tap _ h =>
    obtain ⟨-, hsaf, -⟩ := h
    rwa [hsaf] at hon
  | written h => exact (congrArg (fun x => x.2.2.2 k) h.rest).symm.trans hon
  | keeps hc' h => exact absurd hc' (ne_true_of_eq_false hc)

/-- A page that no transfer in progress is at stays. -/
theorem Leaves.page {c : Instr} {s w : State} (h : Leaves c s w) {p : Nat} (hp : ∀ j, s.nv.job = some j → j.pageOf ≠ p) :
    w.nv.page p = s.nv.page p := by
  cases h with
  | shuts h => rw [Nv.page, h.pages, Nv.page]
  | resets _ h => exact h.page p hp
  | tap _ h => rw [h.1]
  | written h => exact h.page p hp
  | keeps _ h => rw [Nv.page, show w.nv.pages = s.nv.pages from congrArg (fun x => x.2.1) h, Nv.page]

theorem Leaves.wf {c : Instr} {s w : State} (h : Leaves c s w) (hwf : s.nv.wf = true) : w.nv.wf = true := by
  cases h with
  | shuts h => exact Nv.wf_pages h.pages hwf
  | resets _ h =>
    obtain hsame | hreset := h.pages
    · exact Nv.wf_pages hsame hwf
    · exact Nv.wf_pages hreset (Nv.wf_afterReset _ hwf)
  | tap _ h => rwa [h.1]
  | written h =>
    obtain hsame | ⟨p, bytes, hput⟩ := h.pages
    · exact Nv.wf_pages hsame hwf
    · exact Nv.wf_pages hput (Nv.wf_putPage _ _ _ hwf)
  | keeps _ h => exact Nv.wf_pages (congrArg (fun x => x.2.1) h) hwf

theorem Leaves.steady {c : Instr} {s w : State} (h : Leaves c s w) (hc : c.isSupervisor = false) :
    w.pw.steady = s.pw.steady := by
  cases h with
  | shuts h => exact h.steady
  | resets hc' h => exact absurd hc' (ne_true_of_eq_false hc)
  | tap _ h => rw [h.2.2.1]
  | written h => exact congrArg (fun x => x.1) h.rest
  | keeps _ h => exact congrArg (fun x => x.1) h

theorem Leaves.tap_eq {c : Instr} {s w : State} (h : Leaves c s w) (hc : c.isTap = false) :
    w.tap = s.tap ∧ w.tapReset = s.tapReset := by
  cases h with
  | shuts h => exact ⟨h.tap, h.tapReset⟩
  | resets _ h => exact ⟨h.tap, h.tapReset⟩
  | tap hc' h => exact absurd hc' (ne_true_of_eq_false hc)
  | written h => exact ⟨congrArg (fun x => x.2.1) h.rest, congrArg (fun x => x.2.2.1) h.rest⟩
  | keeps _ h => exact ⟨congrArg (fun x => x.2.2.1) h, congrArg (fun x => x.2.2.2) h⟩

/-- Settles O7: no other command closes an output, by what each of them leaves. -/
theorem onlyTheSafetyTickClosesAnOutput : Obligations.OnlyTheSafetyTickClosesAnOutput := by
  intro c s w hexec hc k hon
  exact (exec_leaves c hexec).closed hc k hon

/-- Settles O8, by what each command leaves of the pages. -/
theorem onlyThePageInProgressChanges : Obligations.OnlyThePageInProgressChanges := by
  intro c s w p hexec hp
  exact (exec_leaves c hexec).page hp

/-- Settles O9: pages are changed by page writes alone, each of which keeps the canonical form. -/
theorem stepKeepsTheNvStoreCanonical : Obligations.StepKeepsTheNvStoreCanonical := by
  intro s w hwf hstep
  cases hq : s.pending with
  | nil =>
    obtain rfl : s = w := Host.Outcome.next.inj ((anEmptyQueueIdles s hq).symm.trans hstep)
    exact hwf
  | cons c r =>
    have hexec : exec c { s with pending := r } = .next w := (stepRunsTheFrontCommand c r s hq).symm.trans hstep
    exact (exec_leaves c hexec).wf hwf

/-- Settles O10, by what each command leaves of the supplies. -/
theorem onlyTheSupervisorChangesTheSupplies : Obligations.OnlyTheSupervisorChangesTheSupplies := by
  intro c s w hexec hc
  exact (exec_leaves c hexec).steady hc

/-- Settles O11: the TAP's commands by their definitions, the others by what they leave of the TAP. -/
theorem tapInstructionsLoadTheTap : Obligations.TapInstructionsLoadTheTap :=
  ⟨fun _ _ => ⟨rfl, rfl, rfl, rfl⟩, fun c _ _ hexec hc => (exec_leaves c hexec).tap_eq hc⟩

end Sys2Proof.Machine
end

section
/-! O54 and O55: LOCKOUT of a safety channel (17 R663, R667, R669, R670). -/

namespace Sys2Proof.Machine

theorem State.modCh_ch_same (s : State) (chB : Bool) (f : SafCh → SafCh) : (s.modCh chB f).ch chB = f (s.ch chB) := by
  rw [State.modCh_ch, if_pos rfl]

theorem State.modCh_ch_other (s : State) (chB : Bool) (f : SafCh → SafCh) : (s.modCh chB f).ch (!chB) = s.ch (!chB) := by
  rw [State.modCh_ch, if_neg (by cases chB <;> decide)]

theorem State.modCh_outs (s : State) (chB : Bool) (f : SafCh → SafCh) : (s.modCh chB f).saf.outs = s.saf.outs := by
  cases chB <;> rfl

theorem State.modCh_safOut (s : State) (chB : Bool) (f : SafCh → SafCh) (k : Nat) : (s.modCh chB f).safOut k = s.safOut k := by
  rw [State.safOut, State.modCh_outs, State.safOut]

/-- From `b` to `w` a channel has entered LOCKOUT: with its cause and its two marks, every output off and wanted no longer, and the
other channel where it was. -/
def LocksOut (chB : Bool) (cause : Nat) (b w : State) : Prop :=
  (w.ch chB).st = .lockout ∧ w.saf.cause = cause ∧
    (∀ k, k < 8 → (w.safOut k).on = false ∧ (w.safOut k).want = false) ∧ (∀ k, (w.safOut k).locked = (b.safOut k).locked) ∧
    (w.ch (!chB)).st = (b.ch (!chB)).st ∧ ∃ m n, w.asy.held = b.asy.held ++ [m, n] ∧ m.src = srcSaf chB ∧ m.kind = 0xC0 ∧
      n.src = srcSaf chB ∧ n.kind = 0xC1

theorem State.lockout_locksOut {s : State} {chB : Bool} (cause : Nat) (hst : (s.ch chB).st ≠ .lockout) :
    LocksOut chB cause s (s.lockout chB cause) := by
  obtain ⟨-, hch, hother, hcause, hoff, hlocked, hmarks⟩ := s.lockout_spec chB cause hst
  exact ⟨by rw [hch], hcause, hoff, hlocked, by rw [hother], hmarks⟩

theorem State.lockoutRun_locksOut {s : State} {chB : Bool} (cause : Nat) (hrun : (s.ch chB).st = .run) :
    LocksOut chB cause s (s.lockoutRun chB cause) := by
  rw [State.lockoutRun, if_pos hrun]
  exact State.lockout_locksOut cause (by simp [hrun])

/-- What the channel noted before it locked out does not matter. -/
theorem LocksOut.of_modCh {s w : State} {chB : Bool} {cause : Nat} {f : SafCh → SafCh} (h : LocksOut chB cause (s.modCh chB f) w) :
    LocksOut chB cause s w := by
  obtain ⟨hst, hcause, hoff, hlocked, hother, hmarks⟩ := h
  refine ⟨hst, hcause, hoff, fun k => ?_, ?_, hmarks⟩
  · rw [hlocked, State.modCh_safOut]
  · rw [hother, State.modCh_ch_other]

section
variable {s : State} {t : Nat} {chB : Bool}

/-! ## The comparison of results (R667) -/

/-- A channel compares the results that come: both channels are in RUN, and it has not compared any in this cycle. -/
def State.Compares (b : State) (chB : Bool) : Prop :=
  (b.ch chB).st = .run ∧ (b.ch (!chB)).st = .run ∧ (b.ch chB).gotRes = false

theorem execResultCompare_none (h : ¬ (s.before t).Compares chB) (same : Bool) :
    exec (.resultCompare t chB same) s = .next (ends s t (s.before t)) := by
  show execResultCompare t chB same s = _
  refine does_of_effect (if_pos ?_)
  simpa [State.Compares, Classical.or_iff_not_imp_left] using h

theorem execResultCompare_compares (h : (s.before t).Compares chB) (same : Bool) :
    exec (.resultCompare t chB same) s = .next (ends s t (if same then (s.before t).modCh chB fun c => { c with gotRes := true }
      else (s.before t).lockoutRun chB 1)) := by
  show execResultCompare t chB same s = _
  obtain ⟨hrun, hpeer, hres⟩ := h
  exact does_of_effect (if_neg (by simp [hrun, hpeer, hres]))

/-! ## A silent peer (R667) -/

theorem State.peerLate_iff {s : State} : s.peerLate chB = true ↔
    ((s.ch chB).gotSnap = false ∧ s.saf.tickRaw + 100000 ≤ s.raw) ∨
      ((s.ch chB).gotRes = false ∧ s.saf.tickRaw + 350000 ≤ s.raw) := by
  simp [State.peerLate]

theorem execPeerSilent_late (hlate : (s.before t).peerLate chB = true) :
    exec (.peerSilent t chB) s = .next (ends s t ((s.before t).lockoutRun chB 2)) := by
  show execPeerSilent t chB s = _
  exact does_of_effect (if_pos hlate)

theorem execPeerSilent_none (h : ((s.before t).ch chB).st ≠ .run ∨ ¬ (s.before t).peerLate chB = true) :
    exec (.peerSilent t chB) s = .next (ends s t (s.before t)) := by
  show execPeerSilent t chB s = _
  refine does_of_effect ?_
  obtain hst | hlate := h
  · rw [State.lockoutRun, if_neg hst, ite_self]
  · exact if_neg hlate

/-! ## Silence of the spine (R663) -/

/-- The last tick that a channel heard is 600 µs old, or it has discarded two. -/
def State.NoTick (b : State) (chB : Bool) : Prop :=
  (b.ch chB).lastTick = none ∨ (∃ r, (b.ch chB).lastTick = some r ∧ r + 600000 ≤ b.raw) ∨ 2 ≤ (b.ch chB).discards

theorem State.noTick_iff {s : State} : s.NoTick chB ↔
    ((match (s.ch chB).lastTick with | some r => decide (r + 600000 ≤ s.raw) | none => true) = true ∨ 2 ≤ (s.ch chB).discards) := by
  unfold State.NoTick
  cases (s.ch chB).lastTick with
  | none => simp
  | some r => simp

theorem execTickTimeout_silent (h : (s.before t).NoTick chB) :
    exec (.tickTimeout t chB) s =
      .next (ends s t (((s.before t).modCh chB fun c => { c with tickOk := false }).lockoutRun chB 3)) := by
  show execTickTimeout t chB s = _
  exact does_of_effect (if_pos (State.noTick_iff.mp h))

theorem execTickTimeout_none (h : ¬ (s.before t).NoTick chB) :
    exec (.tickTimeout t chB) s = .next (ends s t (s.before t)) := by
  show execTickTimeout t chB s = _
  exact does_of_effect (if_neg (mt State.noTick_iff.mpr h))

/-! ## The self-test (R670) -/

theorem execSelftestFail_powered (h : ((s.before t).ch chB).powered = true) :
    exec (.selftestFail t chB) s =
      .next (ends s t (((s.before t).modCh chB fun c => { c with selftest := true }).lockout chB 4)) := by
  show execSelftestFail t chB s = _
  exact does_of_effect (if_pos h)

theorem execSelftestFail_none (h : ((s.before t).ch chB).powered = false) :
    exec (.selftestFail t chB) s = .next (ends s t (s.before t)) := by
  show execSelftestFail t chB s = _
  exact does_of_effect (if_neg (ne_true_of_eq_false h))

end

/-- Settles O54: both ways into LOCKOUT, by what LOCKOUT leaves of the channel and its cause. -/
theorem aMismatchOrASilentPeerLocksOut : Obligations.AMismatchOrASilentPeerLocksOut := by
  intro s t chB b c hrun
  refine ⟨fun hpeer hres => ?mismatch, fun hlate => ?silent⟩
  case mismatch =>
    obtain ⟨hst, hcause, -⟩ := State.lockoutRun_locksOut (s := b) 1 hrun
    exact ⟨_, execResultCompare_compares ⟨hrun, hpeer, hres⟩ false, hst, hcause⟩
  case silent =>
    obtain ⟨hst, hcause, -⟩ := State.lockoutRun_locksOut (s := b) 2 hrun
    exact ⟨_, execPeerSilent_late (State.peerLate_iff.mpr hlate), hst, hcause⟩

/-- Settles O55: each command either locks the channel out, by what LOCKOUT leaves, or notes what it found. -/
theorem channelsLockOut : Obligations.ChannelsLockOut := by
  intro s t chB b c out compares late noTick
  have hlockout : ∀ f : SafCh → SafCh, (f c).st = c.st → c.st ≠ .lockout → ∀ cause,
      out ((b.modCh chB f).lockout chB cause) cause ∧
        ((b.modCh chB f).lockout chB cause).ch chB = { f c with st := .lockout } := by
    intro f hf hst cause
    have hch : (b.modCh chB f).ch chB = f c := b.modCh_ch_same chB f
    have hst' : ((b.modCh chB f).ch chB).st ≠ .lockout := by rwa [hch, hf]
    obtain ⟨-, hlocked, -⟩ := (b.modCh chB f).lockout_spec chB cause hst'
    exact ⟨(State.lockout_locksOut cause hst').of_modCh, by rw [hlocked, hch]⟩
  refine ⟨fun h => execResultCompare_compares h true,
    fun h => ⟨_, execResultCompare_compares h false, State.lockoutRun_locksOut 1 h.1⟩,
    fun same h => execResultCompare_none h same,
    fun hrun hlate => ⟨_, execPeerSilent_late (State.peerLate_iff.mpr hlate), State.lockoutRun_locksOut 2 hrun⟩,
    fun h => execPeerSilent_none (h.imp id (mt State.peerLate_iff.mp)), fun hrun hsilent => ?_, fun hnot hsilent => ?_,
    execTickTimeout_none, fun hpowered hst => ?_, fun hpowered hst => ?_, execSelftestFail_none⟩
  · have hch := b.modCh_ch_same chB fun c => { c with tickOk := false }
    refine ⟨_, execTickTimeout_silent hsilent, ?_⟩
    rw [State.lockoutRun, if_pos (by rw [hch]; exact hrun)]
    obtain ⟨hout, hch⟩ := hlockout (fun c => { c with tickOk := false }) rfl (by rw [hrun]; decide) 3
    exact ⟨hout, by rw [hch]⟩
  · have hch := b.modCh_ch_same chB fun c => { c with tickOk := false }
    rw [execTickTimeout_silent hsilent, State.lockoutRun, if_neg (by rw [hch]; exact hnot)]
  · obtain ⟨hout, hch⟩ := hlockout (fun c => { c with selftest := true }) rfl hst 4
    exact ⟨_, execSelftestFail_powered hpowered, hout, by rw [hch]⟩
  · have hch := b.modCh_ch_same chB fun c => { c with selftest := true }
    rw [execSelftestFail_powered hpowered, State.lockout, if_pos (by rw [hch]; exact hst)]

end Sys2Proof.Machine
end

section
/-! O57: outputs and pairs that are found wrong (17 R679, R688 to R690, R693). -/

namespace Sys2Proof.Machine

/-! ## Marks that both channels raise -/

theorem State.safBoth_saf (s : State) (kind x : Nat) : (s.safBoth kind x).saf = s.saf := by
  obtain ⟨a, h⟩ := s.safBoth_only kind x
  rw [h]

/-- Each channel in RUN raises the mark. -/
theorem State.safBoth_new (s : State) (kind x : Nat) {c : Bool} (hrun : (s.ch c).st = .run) :
    ∃ m ∈ (s.safBoth kind x).asy.held.drop s.asy.held.length, m.src = srcSaf c ∧ m.kind = kind := by
  have hfirst : Grows s (if s.saf.a.st = .run then s.safMark false kind x 0 else s) :=
    .ite (s.raise_records ..).toGrows (.refl s)
  cases c with
  | false =>
    rw [State.safBoth, if_pos (show s.saf.a.st = .run from hrun)]
    exact (Grows.refl s).raise_new (.ite (State.raise_records ..).toGrows (.refl _))
  | true =>
    have hb : (if s.saf.a.st = .run then s.safMark false kind x 0 else s).saf.b.st = .run := by
      split <;> exact hrun
    rw [State.safBoth, if_pos hb]
    exact hfirst.raise_new (.refl _)

/-! ## An output that is found wrong -/

/-- From `b` to `w` output `k` has become LOCKED: it is off, nothing else of the machine but the marks changes, and each channel in
RUN has raised one. -/
def LocksOutput (k kind : Nat) (b w : State) : Prop :=
  (w.safOut k).locked = true ∧ (w.safOut k).on = false ∧ (w.safOut k).want = false ∧
    (∀ j, j ≠ k → w.safOut j = b.safOut j) ∧ w = { b with out := w.out, saf := w.saf, asy := w.asy } ∧
    ∀ x, (b.ch x).st = .run → ∃ m ∈ w.asy.held.drop b.asy.held.length, m.src = srcSaf x ∧ m.kind = kind

theorem State.OutsOf.asy {b v : State} (h : b.OutsOf v) : v.asy = b.asy := by
  obtain ⟨o, l, rfl⟩ := h
  rfl

theorem State.OutsOf.ch {b v : State} (h : b.OutsOf v) (x : Bool) : v.ch x = b.ch x := by
  obtain ⟨o, l, rfl⟩ := h
  rfl

/-- The marks of an output that has gone off and is LOCKED. -/
theorem State.OutsOf.locksOutput {b v : State} (h : b.OutsOf v) {k : Nat} (kind : Nat) (hlocked : (v.safOut k).locked = true)
    (hon : (v.safOut k).on = false) (hwant : (v.safOut k).want = false) (hother : ∀ j, j ≠ k → v.safOut j = b.safOut j) :
    LocksOutput k kind b (v.safBoth kind k) := by
  have hout : ∀ j, (v.safBoth kind k).safOut j = v.safOut j := fun j => by rw [State.safOut, State.safBoth_saf, State.safOut]
  refine ⟨by rw [hout, hlocked], by rw [hout, hon], by rw [hout, hwant], fun j hj => by rw [hout, hother j hj], ?_,
    fun x hrun => ?_⟩
  · obtain ⟨a, ha⟩ := v.safBoth_only kind k
    obtain ⟨o, l, rfl⟩ := h
    rw [ha]
  · rw [← h.asy]
    exact v.safBoth_new kind k (by rw [h.ch, hrun])

theorem State.lockOut_locksOutput (s : State) (k kind : Nat) : LocksOutput k kind s ((s.lockOut k).safBoth kind k) := by
  obtain ⟨houts, hon, hwant, hlocked, -, hother⟩ := s.lockOut_spec k
  exact houts.locksOutput kind hlocked hon hwant hother

/-! ## The commands -/

/-- What OUTPUT_READBACK_CHECK asks of the readings of output `k` (R689). -/
def State.misread (s : State) (k : Nat) (mvA mvB mvSafe : Int) : Bool :=
  let o := s.safOut k
  let low := decide (mvA < 5000 ∧ mvB < 5000)
  let top := decide (mvSafe - 3000 < mvA ∧ mvSafe - 3000 < mvB)
  if o.on then
    (if o.testing && decide (s.raw < s.saf.tickRaw + 300000) then decide (250000 ≤ s.raw - s.saf.tickRaw) && !low
     else decide (2000000 < s.raw - o.changedAt) && !top)
  else decide (20000000 < s.raw - o.changedAt) && !low

/-- A reading is wrong: an output that is off, or under its test pulse, is not below 5 V, one that is on is not near VSAFE. -/
theorem State.misread_iff {s : State} {k : Nat} {mvA mvB mvSafe : Int} {pulsing : Bool}
    (hp : ((s.safOut k).testing && decide (s.raw < s.saf.tickRaw + 300000)) = pulsing) :
    s.misread k mvA mvB mvSafe = true ↔
      ((s.safOut k).on = false ∧ 20000000 < s.raw - (s.safOut k).changedAt ∧ (5000 ≤ mvA ∨ 5000 ≤ mvB)) ∨
      ((s.safOut k).on = true ∧ pulsing = false ∧ 2000000 < s.raw - (s.safOut k).changedAt ∧
        (mvA ≤ mvSafe - 3000 ∨ mvB ≤ mvSafe - 3000)) ∨
      ((s.safOut k).on = true ∧ pulsing = true ∧ 250000 ≤ s.raw - s.saf.tickRaw ∧ (5000 ≤ mvA ∨ 5000 ≤ mvB)) := by
  have hlow : (!decide (mvA < 5000 ∧ mvB < 5000)) = true ↔ (5000 ≤ mvA ∨ 5000 ≤ mvB) := by simp
  have htop : (!decide (mvSafe - 3000 < mvA ∧ mvSafe - 3000 < mvB)) = true ↔ (mvA ≤ mvSafe - 3000 ∨ mvB ≤ mvSafe - 3000) := by
    simp
  rw [State.misread, hp]
  cases (s.safOut k).on with
  | false => simp only [Bool.false_eq_true, if_false, Bool.and_eq_true, decide_eq_true_eq, hlow]; simp
  | true =>
    cases pulsing with
    | false => simp only [Bool.false_eq_true, if_true, if_false, Bool.and_eq_true, decide_eq_true_eq, htop]; simp
    | true => simp only [if_true, Bool.and_eq_true, decide_eq_true_eq, hlow]; simp

section
variable {s : State} {t k : Nat}

theorem execOutputReadbackCheck_wrong {mvA mvB mvSafe : Int} (hbad : (s.before t).misread k mvA mvB mvSafe = true)
    (hused : (s.before t).outUsed k = true) (hlocked : ((s.before t).safOut k).locked = false) :
    exec (.outputReadbackCheck t k mvA mvB mvSafe) s = .next (ends s t (((s.before t).lockOut k).safBoth 0xC5 k)) := by
  show execOutputReadbackCheck t k mvA mvB mvSafe s = _
  exact does_of_effect (if_pos ⟨hbad, hused, ne_true_of_eq_false hlocked⟩)

theorem execOutputReadbackCheck_none {mvA mvB mvSafe : Int} (h : ¬ (s.before t).misread k mvA mvB mvSafe = true ∨
    (s.before t).outUsed k = false ∨ ((s.before t).safOut k).locked = true) :
    exec (.outputReadbackCheck t k mvA mvB mvSafe) s = .next (ends s t (s.before t)) := by
  show execOutputReadbackCheck t k mvA mvB mvSafe s = _
  refine does_of_effect (if_neg ?_)
  rintro ⟨hbad, hused, hlocked⟩
  obtain hgood | hunused | hfound := h
  · exact hgood hbad
  · exact absurd hused (ne_true_of_eq_false hunused)
  · exact hlocked hfound

/-- An output that is overloaded is LOCKED, with its OVL. -/
def State.overloaded (s : State) (k : Nat) : State := (s.lockOut k).modOut k fun o => { o with ovl := true }

theorem execSafOverload_on (hon : ((s.before t).safOut k).on = true) :
    exec (.safOverload t k) s = .next (ends s t (((s.before t).overloaded k).safBoth 0xC6 k)) := by
  show execSafOverload t k s = _
  exact does_of_effect (if_pos hon)

theorem execSafOverload_off (hoff : ((s.before t).safOut k).on = false) :
    exec (.safOverload t k) s = .next (ends s t (s.before t)) := by
  show execSafOverload t k s = _
  exact does_of_effect (if_neg (ne_true_of_eq_false hoff))

theorem State.overloaded_safOut (s : State) (k : Nat) : (s.overloaded k).safOut k = { (s.lockOut k).safOut k with ovl := true } := by
  rw [State.overloaded, State.modOut_safOut_same]

theorem State.overloaded_locksOutput (s : State) (k : Nat) : LocksOutput k 0xC6 s ((s.overloaded k).safBoth 0xC6 k) := by
  obtain ⟨houts, hon, hwant, hlocked, -, hother⟩ := s.lockOut_spec k
  have houts' : s.OutsOf (s.overloaded k) := houts.trans (State.modOut_only ..)
  refine houts'.locksOutput 0xC6 ?_ ?_ ?_ fun j hj => ?_
  · rw [s.overloaded_safOut, hlocked]
  · rw [s.overloaded_safOut, hon]
  · rw [s.overloaded_safOut, hwant]
  · rw [State.overloaded, State.modOut_safOut_ne _ _ _ hj, hother j hj]

theorem execFeedbackTimeout_due (hmon : bit ((s.before t).outWord k) 30 = true) (hlocked : ((s.before t).safOut k).locked = false)
    (hdue : (s.before t).feedbackDue k = true) :
    exec (.feedbackTimeout t k) s = .next (ends s t (((s.before t).lockOut k).safBoth 0xC7 k)) := by
  show execFeedbackTimeout t k s = _
  exact does_of_effect (if_pos ⟨hmon, ne_true_of_eq_false hlocked, hdue⟩)

theorem execFeedbackTimeout_none (h : bit ((s.before t).outWord k) 30 = false ∨ ((s.before t).safOut k).locked = true ∨
    ¬ (s.before t).feedbackDue k = true) : exec (.feedbackTimeout t k) s = .next (ends s t (s.before t)) := by
  show execFeedbackTimeout t k s = _
  refine does_of_effect (if_neg ?_)
  rintro ⟨hmon, hlocked, hdue⟩
  obtain hunmon | hfound | hearly := h
  · exact absurd hmon (ne_true_of_eq_false hunmon)
  · exact hlocked hfound
  · exact hearly hdue

/-! ## A pair that disagrees too long (R679) -/

theorem execSafDiscrepancy_past {p f : Nat} (hsince : ((s.before t).safPair p).discSince = some f)
    (hst : ((s.before t).safPair p).st ≠ .fault) (hpast : (s.before t).tDisc p < (s.before t).saf.tickRaw - f) :
    exec (.safDiscrepancy t p) s = .next (ends s t (((s.before t).pairFault p).safBoth 0xC3 p)) := by
  show execSafDiscrepancy t p s = _
  refine does_of_effect ?_
  simp only [hsince]
  exact if_pos ⟨hst, hpast⟩

theorem execSafDiscrepancy_none {p : Nat} (h : ((s.before t).safPair p).st = .fault ∨
    ∀ f, ((s.before t).safPair p).discSince = some f → (s.before t).saf.tickRaw - f ≤ (s.before t).tDisc p) :
    exec (.safDiscrepancy t p) s = .next (ends s t (s.before t)) := by
  show execSafDiscrepancy t p s = _
  refine does_of_effect ?_
  dsimp only
  split
  · next f hf =>
    refine if_neg ?_
    rintro ⟨hst, hpast⟩
    exact absurd (h.resolve_left hst f hf) (Nat.not_le.mpr hpast)
  · rfl

end

theorem State.modPair_safPair_same (s : State) (p : Nat) (f : SafPair → SafPair) : (s.modPair p f).safPair p = f (s.safPair p) :=
  SMap.get_put_same ..

theorem State.modPair_safPair_ne (s : State) {p q : Nat} (f : SafPair → SafPair) (hq : q ≠ p) :
    (s.modPair p f).safPair q = s.safPair q := SMap.get_put_ne _ _ _ hq

theorem State.pairFault_safPair (s : State) (p : Nat) : (s.pairFault p).safPair p = { s.safPair p with st := .fault } :=
  s.modPair_safPair_same p _

/-- Settles O57: every check that finds an output wrong locks it, with the marks of the channels in RUN, and a pair goes to FAULT
alone. -/
theorem outputsAndPairsAreWatched : Obligations.OutputsAndPairsAreWatched := by
  intro s t k b o lock pulsing due
  have hdue : b.feedbackDue k = true ↔ due := decide_eq_true_iff
  refine ⟨?readback, fun hon => ⟨_, execSafOverload_on hon, b.overloaded_locksOutput k, ?ovl⟩, execSafOverload_off,
    fun hmon hlocked h => ⟨_, execFeedbackTimeout_due hmon hlocked (hdue.mpr h), b.lockOut_locksOutput k 0xC7⟩,
    fun h => execFeedbackTimeout_none (h.imp_right (Or.imp_right (mt hdue.mp))), fun p f hsince hst hpast => ?pair,
    fun p => execSafDiscrepancy_none⟩
  case readback =>
    intro mvA mvB mvS bad
    have hbad : b.misread k mvA mvB mvS = true ↔ bad := State.misread_iff rfl
    exact ⟨fun h hused hlocked => ⟨_, execOutputReadbackCheck_wrong (hbad.mpr h) hused hlocked, b.lockOut_locksOutput k 0xC5⟩,
      fun h => execOutputReadbackCheck_none (h.imp_left (mt hbad.mp))⟩
  case ovl => rw [State.safOut, State.safBoth_saf, ← State.safOut, State.overloaded_safOut]
  case pair =>
    refine ⟨_, execSafDiscrepancy_past hsince hst hpast, ?_, ?_, fun x hrun => (b.pairFault p).safBoth_new 0xC3 p hrun⟩
    · rw [State.safPair, State.safBoth_saf, ← State.safPair, State.pairFault_safPair]
    · rw [State.safBoth_saf]
      rfl

end Sys2Proof.Machine
end

section
/-! O53: the filters of the safety inputs, their test pulses, and the power-up of a channel (17 R674 to R677, R699, R715). -/

namespace Sys2Proof.Machine

/-- What a sparse map holds after the entries of a list have been changed, each by what it held. -/
theorem SMap.get_foldl_put {α : Type} [DecidableEq α] (d : α) (g : Nat → α → α) {l : List Nat} (hnodup : l.Nodup) (m : SMap α)
    (j : Nat) : SMap.get d (l.foldl (fun m i => SMap.put d m i (g i (SMap.get d m i))) m) j =
      if j ∈ l then g j (SMap.get d m j) else SMap.get d m j := by
  induction l generalizing m with
  | nil => simp
  | cons a r ih =>
    obtain ⟨ha, hr⟩ := List.nodup_cons.mp hnodup
    rw [List.foldl_cons, ih hr, SMap.get_put]
    by_cases hj : j = a
    · subst hj
      simp [ha]
    · simp [hj]

/-! ## Samples (R674, R675, R677) -/

theorem InFilt.advance_same {f : InFilt} {lv : Bool} (h : lv = f.level) (n core : Nat) :
    f.advance n lv core = { f with count := 0 } := if_pos h

theorem InFilt.advance_last {f : InFilt} {lv : Bool} (h : lv ≠ f.level) {n : Nat} (hn : n ≤ f.count + 1) (core : Nat) :
    f.advance n lv core = { f with level := lv, count := 0, movedAt := some core } := (if_neg h).trans (if_pos hn)

theorem InFilt.advance_counts {f : InFilt} {lv : Bool} (h : lv ≠ f.level) {n : Nat} (hn : f.count + 1 < n) (core : Nat) :
    f.advance n lv core = { f with count := f.count + 1 } := (if_neg h).trans (if_neg (Nat.not_le.mpr hn))

/-- The time since the test pulse of input `i` began. -/
def State.sinceTest (s : State) (c : SafCh) (i : Nat) : Option Nat := (s.testSource i).bind fun tp => c.sincePulse tp s.raw

theorem State.sampleInput_eq (s : State) (c : SafCh) (i : Nat) (lv : Bool) : s.sampleInput c i lv =
    match s.sinceTest c i with
    | some d =>
      if d ≤ s.testW + 100000 then
        (if 150000 ≤ d ∧ d ≤ s.testW ∧ ¬ lv then { SMap.get {} c.inputs i with lowSeen := true } else SMap.get {} c.inputs i)
      else (SMap.get {} c.inputs i).advance (s.filtLen i) lv s.core
    | none => (SMap.get {} c.inputs i).advance (s.filtLen i) lv s.core := by
  unfold State.sampleInput State.sinceTest
  cases s.testSource i <;> rfl

/-- Outside the test pulse and its 100 µs the sample goes to the filter. -/
theorem State.sampleInput_clear {s : State} {c : SafCh} {i : Nat}
    (h : ((s.sinceTest c i).any fun d => decide (d ≤ s.testW + 100000)) = false) (lv : Bool) :
    s.sampleInput c i lv = (SMap.get {} c.inputs i).advance (s.filtLen i) lv s.core := by
  rw [State.sampleInput_eq]
  cases hsince : s.sinceTest c i with
  | none => rfl
  | some d =>
    rw [hsince] at h
    exact if_neg (by simpa using h)

/-- Within them it counts for the test alone. -/
theorem State.sampleInput_covered {s : State} {c : SafCh} {i : Nat}
    (h : ((s.sinceTest c i).any fun d => decide (d ≤ s.testW + 100000)) = true) (lv : Bool) :
    s.sampleInput c i lv = { SMap.get {} c.inputs i with lowSeen := (SMap.get {} c.inputs i).lowSeen ||
      (((s.sinceTest c i).any fun d => decide (150000 ≤ d ∧ d ≤ s.testW)) && !lv) } := by
  rw [State.sampleInput_eq]
  cases hsince : s.sinceTest c i with
  | none => rw [hsince] at h; simp at h
  | some d =>
    rw [hsince] at h
    have hd : d ≤ s.testW + 100000 := by simpa using h
    show (if d ≤ s.testW + 100000 then _ else _) = _
    rw [if_pos hd]
    by_cases hlow : 150000 ≤ d ∧ d ≤ s.testW ∧ ¬ lv = true
    · obtain ⟨hfrom, hto, hlv⟩ := hlow
      simp [hfrom, hto, hlv]
    · have hnone : (((some d).any fun d => decide (150000 ≤ d ∧ d ≤ s.testW)) && !lv) = false := by
        simpa using hlow
      rw [if_neg hlow, hnone, Bool.or_false]

/-- What a channel's filters hold after it has sampled every input. -/
def State.sampleAll (s : State) (c : SafCh) (levels : Nat) : SMap InFilt :=
  (List.range 16).foldl (fun m i => SMap.put {} m i (s.sampleInput c i (bit levels i))) c.inputs

theorem State.sampleAll_get (s : State) (c : SafCh) (levels : Nat) {i : Nat} (hi : i < 16) :
    SMap.get {} (s.sampleAll c levels) i = s.sampleInput c i (bit levels i) := by
  have h := SMap.get_foldl_put ({} : InFilt) (fun i _ => s.sampleInput c i (bit levels i)) List.nodup_range c.inputs i (l := List.range 16)
  rwa [if_pos (List.mem_range.mpr hi)] at h

section
variable {s : State} {t : Nat} {chB : Bool}

theorem execSafetyInputSample_powered (h : ((s.before t).ch chB).powered = true) (levels : Nat) :
    exec (.safetyInputSample t chB levels) s = .next (ends s t ((s.before t).modCh chB fun _ =>
      { (s.before t).ch chB with inputs := (s.before t).sampleAll ((s.before t).ch chB) levels })) := by
  show execSafetyInputSample t chB levels s = _
  exact does_of_effect (if_neg (by simp [h]))

theorem execSafetyInputSample_none (h : ((s.before t).ch chB).powered = false) (levels : Nat) :
    exec (.safetyInputSample t chB levels) s = .next (ends s t (s.before t)) := by
  show execSafetyInputSample t chB levels s = _
  exact does_of_effect (if_pos (by simp [h]))

/-! ## The end of a test pulse (R677) -/

/-- A test pulse of source `tp` has run its W, and its test is still open. -/
def State.testOver (s : State) (c : SafCh) (tp : Nat) : Prop :=
  (SMap.get (0, false) c.pulses tp).2 = true ∧ ((c.sincePulse tp s.raw).any fun d => decide (s.testW ≤ d)) = true

/-- The inputs that source `tp` tests in used pairs. -/
def State.testedBy (s : State) (tp : Nat) : List Nat :=
  (List.range 16).filter fun i => decide (s.testSource i = some tp) && s.pairUsed (i / 2)

/-- A filter whose test pulse is over. -/
def InFilt.tested (f : InFilt) : InFilt := { f with testBad := !f.lowSeen, lowSeen := false }

/-- The test of source `tp` is closed, with what each tested input read. -/
def State.closeTest (s : State) (chB : Bool) (tp : Nat) : State :=
  s.modCh chB fun c => { c with
    pulses := SMap.put (0, false) c.pulses tp ((SMap.get (0, false) c.pulses tp).1, false),
    inputs := (s.testedBy tp).foldl (fun m i => SMap.put {} m i (SMap.get {} m i).tested) c.inputs }

/-- The pairs of failed inputs go to FAULT, each with its mark. -/
def State.failTests (s : State) (chB : Bool) (l : List Nat) : State :=
  l.foldl (fun s i => (s.modPair (i / 2) fun p => { p with st := .fault }).safMark chB 0xC2 i 0) s

theorem execTestPulseEnd_over {tp : Nat} (h : (s.before t).testOver ((s.before t).ch chB) tp) :
    exec (.testPulseEnd t chB tp) s = .next (ends s t (((s.before t).closeTest chB tp).failTests chB
      (((s.before t).testedBy tp).filter fun i => !(SMap.get {} ((s.before t).ch chB).inputs i).lowSeen))) := by
  show execTestPulseEnd t chB tp s = _
  obtain ⟨hopen, hpast⟩ := h
  exact does_of_effect (if_neg (by simp [hopen, hpast]))

theorem execTestPulseEnd_none {tp : Nat} (h : ¬ (s.before t).testOver ((s.before t).ch chB) tp) :
    exec (.testPulseEnd t chB tp) s = .next (ends s t (s.before t)) := by
  show execTestPulseEnd t chB tp s = _
  refine does_of_effect (if_pos ?_)
  simpa [State.testOver, Classical.or_iff_not_imp_left] using h

theorem State.mem_testedBy {s : State} {tp i : Nat} :
    i ∈ s.testedBy tp ↔ i < 16 ∧ s.testSource i = some tp ∧ s.pairUsed (i / 2) = true := by
  simp [State.testedBy]

theorem State.closeTest_ch (s : State) (chB : Bool) (tp : Nat) : (s.closeTest chB tp).ch chB =
    { s.ch chB with
      pulses := SMap.put (0, false) (s.ch chB).pulses tp ((SMap.get (0, false) (s.ch chB).pulses tp).1, false),
      inputs := (s.testedBy tp).foldl (fun m i => SMap.put {} m i (SMap.get {} m i).tested) (s.ch chB).inputs } :=
  s.modCh_ch_same chB _

theorem State.closeTest_input (s : State) (chB : Bool) (tp i : Nat) : SMap.get {} ((s.closeTest chB tp).ch chB).inputs i =
    if i ∈ s.testedBy tp then (SMap.get {} (s.ch chB).inputs i).tested else SMap.get {} (s.ch chB).inputs i := by
  rw [State.closeTest_ch]
  exact SMap.get_foldl_put {} (fun _ => InFilt.tested) (List.nodup_range.filter _) _ i

end

/-- `w` is `s` but for the pairs and the marks. -/
def State.PairsOf (s w : State) : Prop := ∃ p a, w = { s with asy := a, saf := { s.saf with pairs := p } }

theorem State.PairsOf.trans {a b c : State} (h : a.PairsOf b) (g : b.PairsOf c) : a.PairsOf c := by
  obtain ⟨p, x, rfl⟩ := h
  obtain ⟨q, y, rfl⟩ := g
  exact ⟨q, y, rfl⟩

theorem State.PairsOf.ch {s w : State} (h : s.PairsOf w) (c : Bool) : w.ch c = s.ch c := by
  obtain ⟨p, a, rfl⟩ := h
  rfl

theorem State.PairsOf.outs {s w : State} (h : s.PairsOf w) : w.saf.outs = s.saf.outs := by
  obtain ⟨p, a, rfl⟩ := h
  rfl

theorem State.failTests_cons (s : State) (chB : Bool) (i : Nat) (l : List Nat) : s.failTests chB (i :: l) =
    ((s.modPair (i / 2) fun p => { p with st := .fault }).safMark chB 0xC2 i 0).failTests chB l := rfl

theorem State.failTests_only (s : State) (chB : Bool) (l : List Nat) : s.PairsOf (s.failTests chB l) := by
  induction l generalizing s with
  | nil => exact ⟨_, _, rfl⟩
  | cons i r ih =>
    rw [State.failTests_cons]
    exact State.PairsOf.trans ⟨_, _, rfl⟩ (ih _)

theorem State.failTest_grows (s : State) (chB : Bool) (i : Nat) :
    Grows s ((s.modPair (i / 2) fun p => { p with st := .fault }).safMark chB 0xC2 i 0) :=
  have hpair : Grows s (s.modPair (i / 2) fun p => { p with st := .fault }) := .of_asy rfl
  hpair.trans (State.raise_records ..).toGrows

theorem State.failTests_grows (s : State) (chB : Bool) (l : List Nat) : Grows s (s.failTests chB l) :=
  .foldl (fun s i => s.failTest_grows chB i) l s

/-- A pair in FAULT stays there. -/
theorem State.failTests_fault (s : State) (chB : Bool) (l : List Nat) {p : Nat} (hp : (s.safPair p).st = .fault) :
    ((s.failTests chB l).safPair p).st = .fault := by
  induction l generalizing s with
  | nil => exact hp
  | cons i r ih =>
    rw [State.failTests_cons]
    refine ih _ ?_
    show ((s.modPair (i / 2) fun p => { p with st := .fault }).safPair p).st = .fault
    by_cases hpi : p = i / 2
    · rw [hpi, State.modPair_safPair_same]
    · rw [State.modPair_safPair_ne _ _ hpi, hp]

/-- The pair of a failed input goes to FAULT with its mark. -/
theorem State.failTests_spec (s : State) (chB : Bool) {l : List Nat} {i : Nat} (hi : i ∈ l) :
    ((s.failTests chB l).safPair (i / 2)).st = .fault ∧
      ∃ m ∈ (s.failTests chB l).asy.held.drop s.asy.held.length, m.src = srcSaf chB ∧ m.kind = 0xC2 := by
  obtain ⟨before, after, rfl⟩ := List.append_of_mem hi
  have happ : s.failTests chB (before ++ i :: after) = (((s.failTests chB before).modPair (i / 2) fun p =>
      { p with st := .fault }).safMark chB 0xC2 i 0).failTests chB after := by
    rw [State.failTests, List.foldl_append]
    rfl
  rw [happ]
  refine ⟨State.failTests_fault _ chB after ?_, ?_⟩
  · show (((s.failTests chB before).modPair (i / 2) fun p => { p with st := .fault }).safPair (i / 2)).st = .fault
    rw [State.modPair_safPair_same]
  · have hbefore : Grows s ((s.failTests chB before).modPair (i / 2) fun p => { p with st := .fault }) :=
      (s.failTests_grows chB before).trans (.of_asy rfl)
    exact hbefore.raise_new (addr := 0) (detail := [BitVec.ofNat 8 i, BitVec.ofNat 8 0]) (State.failTests_grows _ chB after)

/-! ## Power-up (R699) -/

/-- A channel comes up OFF, as a domain of its own. -/
def State.channelUp (s : State) (chB : Bool) : State :=
  { s.modCh chB fun c => { linkDown := c.linkDown, powered := true } with
    pw := { s.pw with domains := if s.pw.domains.contains (1 + b2n chB) then s.pw.domains else s.pw.domains ++ [1 + b2n chB] } }

/-- What a channel makes of the parameter set it reads at its power-up. -/
def State.readsSps (s : State) (chB : Bool) : Option (List Byte × Nat) → State
  | some (b, x) => s.modSaf fun g => if g.loaded.isSome then g else { g with sps := some b, checkForce := x }
  | none => s.safMark chB 0xCE 0 0

section
variable {s : State} {t : Nat} {chB : Bool}

theorem execSafetyChannelPowerUp_up (hunpowered : ((s.before t).ch chB).powered = false) (hvsuv : (s.before t).pw.vsuv = false)
    (hrail : (s.before t).pw.railsGood.contains (if chB then .vsb else .vsa) = true) :
    exec (.safetyChannelPowerUp t chB) s = .next (ends s t (((s.before t).channelUp chB).readsSps chB
      (if (s.before t).nvFenced then none else (s.before t).nv.spsStored))) := by
  show execSafetyChannelPowerUp t chB s = _
  refine does_of_effect ((if_neg ?_).trans rfl)
  rintro (h | h | h)
  · exact absurd h (ne_true_of_eq_false hunpowered)
  · exact absurd h (ne_true_of_eq_false hvsuv)
  · exact h hrail

theorem execSafetyChannelPowerUp_none (h : ((s.before t).ch chB).powered = true ∨ (s.before t).pw.vsuv = true ∨
    (s.before t).pw.railsGood.contains (if chB then .vsb else .vsa) = false) :
    exec (.safetyChannelPowerUp t chB) s = .next (ends s t (s.before t)) := by
  show execSafetyChannelPowerUp t chB s = _
  exact does_of_effect (if_pos (h.imp_right (Or.imp_right ne_true_of_eq_false)))

end

/-- What is read of the set changes no channel and no output. -/
theorem State.readsSps_apart (s : State) (chB c : Bool) (x : Option (List Byte × Nat)) :
    (s.readsSps chB x).ch c = s.ch c ∧ (s.readsSps chB x).saf.outs = s.saf.outs ∧ (s.readsSps chB x).pw = s.pw ∧
      (s.saf.loaded.isSome = true → (s.readsSps chB x).saf.sps = s.saf.sps) := by
  cases x with
  | none => exact ⟨rfl, rfl, rfl, fun _ => rfl⟩
  | some x =>
    by_cases hloaded : s.saf.loaded.isSome = true
    · have hsame : (s.readsSps chB (some x)).saf = s.saf := if_pos hloaded
      exact ⟨by rw [State.ch, hsame, State.ch], by rw [hsame], rfl, fun _ => by rw [hsame]⟩
    · have hset : (s.readsSps chB (some x)).saf = { s.saf with sps := some x.1, checkForce := x.2 } := if_neg hloaded
      refine ⟨?_, by rw [hset], rfl, fun h => absurd h hloaded⟩
      rw [State.ch, hset]
      rfl

theorem State.readsSps_stored {s : State} (chB : Bool) (x : List Byte × Nat) (hloaded : s.saf.loaded = none) :
    (s.readsSps chB (some x)).saf.sps = some x.1 ∧ (s.readsSps chB (some x)).saf.checkForce = x.2 := by
  have hset : (s.readsSps chB (some x)).saf = { s.saf with sps := some x.1, checkForce := x.2 } := if_neg (by simp [hloaded])
  rw [hset]
  exact ⟨rfl, rfl⟩

theorem State.channelUp_ch (s : State) (chB : Bool) : (s.channelUp chB).ch chB = { linkDown := (s.ch chB).linkDown, powered := true } := by
  cases chB <;> rfl

theorem State.channelUp_other (s : State) (chB : Bool) : (s.channelUp chB).ch (!chB) = s.ch (!chB) := by
  cases chB <;> rfl

theorem State.channelUp_saf (s : State) (chB : Bool) :
    (s.channelUp chB).saf.outs = s.saf.outs ∧ (s.channelUp chB).saf.loaded = s.saf.loaded ∧ (s.channelUp chB).saf.sps = s.saf.sps := by
  cases chB <;> exact ⟨rfl, rfl, rfl⟩

theorem State.channelUp_domain (s : State) (chB : Bool) : (s.channelUp chB).pw.domains.contains (1 + b2n chB) = true := by
  show (if s.pw.domains.contains (1 + b2n chB) then s.pw.domains else s.pw.domains ++ [1 + b2n chB]).contains (1 + b2n chB) = true
  split
  · assumption
  · simp

/-- Settles O53: a sample by the filter's own cases, the end of a test pulse by what it does to each input, and power-up by what
the channel reads. -/
theorem safetyInputsAreFilteredAndTested : Obligations.SafetyInputsAreFilteredAndTested := by
  intro s t chB b c
  refine ⟨fun levels h => execSafetyInputSample_none h levels, fun levels h => ?sample, fun tp => ?pulse,
    execSafetyChannelPowerUp_none, fun hunpowered hvsuv hrail => ?up⟩
  case sample =>
    have hch : (b.modCh chB fun _ => { c with inputs := b.sampleAll c levels }).ch chB = { c with inputs := b.sampleAll c levels } :=
      b.modCh_ch_same chB _
    refine ⟨_, execSafetyInputSample_powered h levels, by rw [hch], fun i hi => ?_⟩
    intro f f' since covered
    have hf' : f' = b.sampleInput c i (bit levels i) := by
      show SMap.get {} (SafCh.inputs _) i = _
      rw [hch]
      exact b.sampleAll_get c levels hi
    refine ⟨fun hcov => ?_, fun hclear hsame => ?_, fun hclear hne hn => ?_, fun hclear hne hn => ?_⟩
    · rw [hf', State.sampleInput_covered hcov]
      rfl
    · rw [hf', State.sampleInput_clear hclear, InFilt.advance_same hsame]
    · rw [hf', State.sampleInput_clear hclear, InFilt.advance_last hne hn]
    · rw [hf', State.sampleInput_clear hclear, InFilt.advance_counts hne hn]
  case pulse =>
    intro x elapsed
    refine ⟨fun h => execTestPulseEnd_none ?_, fun hopen h => ?_⟩
    · rintro ⟨hopen, hpast⟩
      exact h.elim (ne_false_of_eq_true hopen) (ne_false_of_eq_true hpast)
    · let bad := (b.testedBy tp).filter fun i => !(SMap.get {} c.inputs i).lowSeen
      have honly := (b.closeTest chB tp).failTests_only chB bad
      refine ⟨_, execTestPulseEnd_over ⟨hopen, h⟩, ?_, ?_, ?_, fun i hi => ?_⟩
      · rw [honly.ch, State.closeTest_ch]
        exact SMap.get_put_same ..
      · rw [honly.outs]
        exact b.modCh_outs chB _
      · rw [honly.ch]
        exact b.modCh_ch_other chB _
      · intro f f'
        have hf' : f' = if i ∈ b.testedBy tp then f.tested else f := by
          show SMap.get {} (SafCh.inputs _) i = _
          rw [honly.ch]
          exact b.closeTest_input chB tp i
        refine ⟨fun hsource hused => ?_, fun hnot => ?_⟩
        · have hmem : i ∈ b.testedBy tp := State.mem_testedBy.mpr ⟨hi, hsource, hused⟩
          refine ⟨by rw [hf', if_pos hmem]; rfl, fun hlow => ?_⟩
          exact (b.closeTest chB tp).failTests_spec chB (List.mem_filter.mpr ⟨hmem, by simpa using hlow⟩)
        · rw [hf', if_neg]
          intro hmem
          obtain ⟨-, hsource, hused⟩ := State.mem_testedBy.mp hmem
          exact hnot.elim (absurd hsource) (ne_false_of_eq_true hused)
  case up =>
    obtain ⟨houts, hloaded, hsps⟩ := b.channelUp_saf chB
    have happart := fun c => (b.channelUp chB).readsSps_apart chB c (if b.nvFenced then none else b.nv.spsStored)
    obtain ⟨hch, houts', hpw, hkeeps⟩ := happart chB
    obtain ⟨hother, -⟩ := happart (!chB)
    refine ⟨_, execSafetyChannelPowerUp_up hunpowered hvsuv hrail, by rw [hch, b.channelUp_ch], by rw [hother, b.channelUp_other],
      by rw [houts', houts], by rw [hpw, b.channelUp_domain], fun h => ?_, fun x h hfree hstored => ?_, fun h => ?_⟩
    · rw [hkeeps (by rw [hloaded, h]), hsps]
    · rw [if_neg (ne_true_of_eq_false hfree), hstored]
      exact State.readsSps_stored chB x (by rw [hloaded, h])
    · have hnone : (if b.nvFenced then none else b.nv.spsStored) = none := by
        obtain h | h := h
        · rw [if_pos h]
        · rw [h, ite_self]
      rw [hnone]
      exact ⟨hsps, (b.channelUp chB).raise_held ..⟩

end Sys2Proof.Machine
end

section
/-! O56: the evaluation of a snapshot and the expiry of STOP1 (17 R666, R685, R687). -/

namespace Sys2Proof.Machine

/-! ## What the evaluation leaves alone -/

/-- `w` is `s` but for what an evaluation works on: the pairs, the functions, the outputs, its marks and disagreements, and what was
sent. -/
def State.EvalOf (s w : State) : Prop :=
  ∃ o p f l m d, w = { s with out := o, saf := { s.saf with pairs := p, fns := f, outs := l, marks := m, disagree := d } }

theorem State.EvalOf.refl (s : State) : s.EvalOf s := ⟨_, _, _, _, _, _, rfl⟩

theorem State.EvalOf.trans {a b c : State} (h : a.EvalOf b) (g : b.EvalOf c) : a.EvalOf c := by
  obtain ⟨o, p, f, l, m, d, rfl⟩ := h
  obtain ⟨o', p', f', l', m', d', rfl⟩ := g
  exact ⟨_, _, _, _, _, _, rfl⟩

theorem State.EvalOf.ite {b v w : State} {c : Prop} [Decidable c] (h : b.EvalOf v) (g : b.EvalOf w) : b.EvalOf (if c then v else w) := by
  split
  · exact h
  · exact g

theorem State.EvalOf.foldl {α : Type} {f : State → α → State} (step : ∀ (s : State) (x : α), s.EvalOf (f s x)) (l : List α) (b : State) :
    b.EvalOf (l.foldl f b) :=
  List.foldlRecOn l f (State.EvalOf.refl b) fun s h x _ => h.trans (step s x)

theorem State.EvalOf.of_outsOf {s w : State} (h : s.OutsOf w) : s.EvalOf w := by
  obtain ⟨o, l, rfl⟩ := h
  exact ⟨_, _, _, _, _, _, rfl⟩

theorem State.modPair_evalOf (s : State) (p : Nat) (f : SafPair → SafPair) : s.EvalOf (s.modPair p f) := ⟨_, _, _, _, _, _, rfl⟩

theorem State.modFn_evalOf (s : State) (i : Nat) (f : SafFn → SafFn) : s.EvalOf (s.modFn i f) := ⟨_, _, _, _, _, _, rfl⟩

theorem State.modOut_evalOf (s : State) (k : Nat) (f : SafOut → SafOut) : s.EvalOf (s.modOut k f) := ⟨_, _, _, _, _, _, rfl⟩

theorem State.evalMark_evalOf (s : State) (src kind x : Nat) : s.EvalOf (s.evalMark src kind x) := ⟨_, _, _, _, _, _, rfl⟩

theorem State.lockOut_evalOf (s : State) (k : Nat) : s.EvalOf (s.lockOut k) := .of_outsOf (s.lockOut_spec k).1

theorem State.judgeDiffer_evalOf (s : State) (x : Nat) : s.EvalOf (s.judgeDiffer x) := by
  unfold State.judgeDiffer
  extract_lets v
  have hv : s.EvalOf v := .ite (.refl s) (State.EvalOf.trans ⟨_, _, _, _, _, _, rfl⟩ (State.evalMark_evalOf _ _ _ _))
  exact .ite (.ite (hv.trans (v.modPair_evalOf _ _)) (hv.trans (v.lockOut_evalOf _))) ⟨_, _, _, _, _, _, rfl⟩

theorem State.evalPair_evalOf (s : State) (p : Nat) : s.EvalOf (s.evalPair p) := by
  unfold State.evalPair
  extract_lets single ra rb x since past v w bad rest
  have hv : s.EvalOf v := s.modPair_evalOf _ _
  have hw : s.EvalOf w := .ite ((hv.trans (v.modPair_evalOf _ _)).trans (State.evalMark_evalOf _ _ _ _)) hv
  exact hw.trans (w.modPair_evalOf _ _)

theorem State.fnDemand_evalOf (s : State) (f : Nat) : s.EvalOf (s.fnDemand f) :=
  (s.modFn_evalOf _ _).trans (State.evalMark_evalOf _ _ _ _)

theorem State.fnDelay_evalOf (s : State) (f : Nat) : s.EvalOf (s.fnDelay f) := by
  unfold State.fnDelay
  extract_lets v w
  have hw : s.EvalOf w := (s.modFn_evalOf _ _).trans (.foldl (fun s _ => s.evalMark_evalOf _ _ _) _ _)
  exact .ite (hw.trans (w.fnDemand_evalOf f)) hw

theorem State.evalFn_evalOf (s : State) (f : Nat) : s.EvalOf (s.evalFn f) := by
  unfold State.evalFn
  extract_lets run x v
  have hv : s.EvalOf v := s.modFn_evalOf _ _
  split
  · exact .ite (hv.trans (v.modFn_evalOf _ _)) hv
  · exact .ite hv (.ite (hv.trans (v.fnDelay_evalOf f)) (hv.trans (v.fnDemand_evalOf f)))
  · exact .ite (hv.trans (v.fnDemand_evalOf f)) (hv.trans (v.modFn_evalOf _ _))

/-- `w` is `s` but for the outputs, the evaluation's marks and what was sent. -/
def State.OutEvalOf (s w : State) : Prop :=
  ∃ o l m, w = { s with out := o, saf := { s.saf with outs := l, marks := m } }

theorem State.OutEvalOf.trans {a b c : State} (h : a.OutEvalOf b) (g : b.OutEvalOf c) : a.OutEvalOf c := by
  obtain ⟨o, l, m, rfl⟩ := h
  obtain ⟨o', l', m', rfl⟩ := g
  exact ⟨_, _, _, rfl⟩

theorem State.OutEvalOf.evalOf {s w : State} (h : s.OutEvalOf w) : s.EvalOf w := by
  obtain ⟨o, l, m, rfl⟩ := h
  exact ⟨_, _, _, _, _, _, rfl⟩

/-- A change of output `k` in the evaluation leaves the other outputs alone. -/
structure State.OnOut (k : Nat) (s w : State) : Prop where
  only : s.OutEvalOf w
  other : ∀ j, j ≠ k → w.safOut j = s.safOut j

theorem State.OnOut.refl (k : Nat) (s : State) : State.OnOut k s s := ⟨⟨_, _, _, rfl⟩, fun _ _ => rfl⟩

theorem State.OnOut.trans {k : Nat} {a b c : State} (h : State.OnOut k a b) (g : State.OnOut k b c) : State.OnOut k a c :=
  ⟨h.only.trans g.only, fun j hj => (g.other j hj).trans (h.other j hj)⟩

theorem State.OnOut.ite {k : Nat} {b v w : State} {c : Prop} [Decidable c] (h : State.OnOut k b v) (g : State.OnOut k b w) :
    State.OnOut k b (if c then v else w) := by
  split
  · exact h
  · exact g

theorem State.modOut_onOut (s : State) (k : Nat) (f : SafOut → SafOut) : State.OnOut k s (s.modOut k f) :=
  ⟨⟨_, _, _, rfl⟩, fun _ hj => s.modOut_safOut_ne k f hj⟩

theorem State.evalLock_onOut (s : State) (k kind : Nat) : State.OnOut k s (s.evalLock k kind) := by
  obtain ⟨⟨o, l, hl⟩, -, -, -, -, hother⟩ := s.lockOut_spec k
  refine ⟨?_, hother⟩
  unfold State.evalLock
  rw [hl]
  exact ⟨_, _, _, rfl⟩

/-- An output that is LOCKED in the evaluation is wanted no longer. -/
theorem State.evalLock_want (s : State) (k kind : Nat) : ((s.evalLock k kind).safOut k).want = false := by
  obtain ⟨-, -, hwant, -⟩ := s.lockOut_spec k
  exact hwant

/-- Output `k` is fit to be wanted: it is not LOCKED, and no used function that names it is in DEMAND. -/
def State.MayClose (s : State) (k : Nat) : Prop :=
  (s.safOut k).locked = false ∧ ∀ f, f < 16 → s.fnUsed f = true → bit (s.fnByte f 2) k = true → (s.safFn f).st ≠ .demand

theorem State.OnOut.fns {k : Nat} {s w : State} (h : State.OnOut k s w) (f : Nat) :
    w.fnUsed f = s.fnUsed f ∧ (∀ i, w.fnByte f i = s.fnByte f i) ∧ w.safFn f = s.safFn f := by
  obtain ⟨o, l, m, rfl⟩ := h.only
  exact ⟨rfl, fun _ => rfl, rfl⟩

theorem State.OnOut.mayClose {j k : Nat} {s w : State} (h : State.OnOut j s w) (hk : k ≠ j) (hs : s.MayClose k) : w.MayClose k := by
  refine ⟨by rw [h.other k hk]; exact hs.1, fun f hf hused hbit => ?_⟩
  obtain ⟨hfused, hbyte, hfn⟩ := h.fns f
  rw [hfn]
  exact hs.2 f hf (hfused ▸ hused) (hbyte 2 ▸ hbit)

/-- The used functions that name output `k`. -/
def State.fnsOf (s : State) (k : Nat) : List Nat := (List.range 16).filter fun f => s.fnUsed f && bit (s.fnByte f 2) k

/-- Some used function names output `k`, none of them is in DEMAND, and it is not LOCKED. -/
def State.wants (s : State) (k : Nat) : Bool :=
  !(s.fnsOf k).isEmpty && ((s.fnsOf k).all fun f => decide ((s.safFn f).st ≠ .demand)) && !(s.safOut k).locked

theorem State.wants_mayClose {s : State} {k : Nat} (h : s.wants k = true) : s.MayClose k := by
  simp only [State.wants, State.fnsOf, Bool.and_eq_true, Bool.not_eq_true', List.all_eq_true, List.mem_filter, List.mem_range,
    decide_eq_true_eq] at h
  obtain ⟨⟨-, hfns⟩, hlocked⟩ := h
  exact ⟨hlocked, fun f hf hused hbit => hfns f ⟨hf, hused, hbit⟩⟩

/-- The evaluation of one output: it is LOCKED for what it reads, and otherwise wanted where it may be. -/
theorem State.evalOut_spec (s : State) (k : Nat) :
    State.OnOut k s (s.evalOut k) ∧ (((s.evalOut k).safOut k).want = true → (s.evalOut k).MayClose k) := by
  unfold State.evalOut
  extract_lets mon v1 v2 v3 fns want
  have h1 : State.OnOut k s v1 := .ite (s.evalLock_onOut k _) (.refl k s)
  have h2 : State.OnOut k s v2 := .ite (h1.trans (v1.evalLock_onOut k _)) h1
  have h3 : State.OnOut k s v3 := .ite (h2.trans (v2.modOut_onOut k _)) h2
  split
  · exact ⟨h3.trans (v3.evalLock_onOut k _), fun hwant => absurd hwant (by rw [State.evalLock_want]; decide)⟩
  · have hset := v3.modOut_onOut k fun o => { o with want := want }
    refine ⟨h3.trans hset, fun hwant => ?_⟩
    rw [State.modOut_safOut_same] at hwant
    obtain ⟨hlocked, hfns⟩ := State.wants_mayClose (s := v3) hwant
    refine ⟨by rw [State.modOut_safOut_same]; exact hlocked, fun f hf hused hbit => ?_⟩
    obtain ⟨hfused, hbyte, hfn⟩ := hset.fns f
    rw [hfn]
    exact hfns f hf (hfused ▸ hused) (hbyte 2 ▸ hbit)

/-- Of the outputs evaluated, those that are wanted may be closed. -/
theorem State.evalOuts_spec (l : List Nat) (s : State) : s.OutEvalOf (l.foldl State.evalOut s) ∧
    ∀ k, k ∈ l ∨ ((s.safOut k).want = true → s.MayClose k) →
      ((l.foldl State.evalOut s).safOut k).want = true → (l.foldl State.evalOut s).MayClose k := by
  induction l generalizing s with
  | nil => exact ⟨⟨_, _, _, rfl⟩, fun k h => h.resolve_left (by simp)⟩
  | cons a r ih =>
    obtain ⟨hon, hspec⟩ := s.evalOut_spec a
    obtain ⟨honly, hrest⟩ := ih (s.evalOut a)
    refine ⟨hon.only.trans honly, fun k h => hrest k ?_⟩
    by_cases hk : k = a
    · subst hk
      exact .inr hspec
    · obtain h | h := h
      · exact .inl ((List.mem_cons.mp h).resolve_left hk)
      · exact .inr fun hwant => hon.mayClose hk (h (by rwa [hon.other k hk] at hwant))

/-! ## PEER_SNAPSHOT (R666) -/

/-- The evaluation from its start to the functions. -/
def State.evalStart (s : State) : State :=
  let v := (List.range 24).foldl State.judgeDiffer (s.modSaf fun g => { g with evaluated := true, marks := [] })
  let v := ((List.range 8).filter v.pairUsed).foldl State.evalPair v
  ((List.range 16).filter v.fnUsed).foldl State.evalFn v

theorem State.evaluate_eq (s : State) : s.evaluate = ((List.range 8).filter s.evalStart.outUsed).foldl State.evalOut s.evalStart := rfl

theorem State.evalStart_evalOf (s : State) : (s.modSaf fun g => { g with evaluated := true, marks := [] }).EvalOf s.evalStart :=
  State.EvalOf.trans (.trans (.foldl State.judgeDiffer_evalOf _ _) (.foldl State.evalPair_evalOf _ _)) (.foldl State.evalFn_evalOf _ _)

theorem State.EvalOf.ch {s w : State} (h : s.EvalOf w) (c : Bool) : w.ch c = s.ch c := by
  obtain ⟨o, p, f, l, m, d, rfl⟩ := h
  rfl

theorem State.EvalOf.evaluated {s w : State} (h : s.EvalOf w) : w.saf.evaluated = s.saf.evaluated := by
  obtain ⟨o, p, f, l, m, d, rfl⟩ := h
  rfl

theorem State.EvalOf.outUsed {s w : State} (h : s.EvalOf w) (k : Nat) : w.outUsed k = s.outUsed k := by
  obtain ⟨o, p, f, l, m, d, rfl⟩ := h
  rfl

theorem State.evaluate_spec (s : State) : (s.modSaf fun g => { g with evaluated := true, marks := [] }).EvalOf s.evaluate ∧
    ∀ k, k < 8 → s.evaluate.outUsed k = true → (s.evaluate.safOut k).want = true → s.evaluate.MayClose k := by
  rw [s.evaluate_eq]
  obtain ⟨honly, houts⟩ := State.evalOuts_spec ((List.range 8).filter s.evalStart.outUsed) s.evalStart
  refine ⟨s.evalStart_evalOf.trans honly.evalOf, fun k hk hused hwant => houts k (.inl ?_) hwant⟩
  rw [honly.evalOf.outUsed] at hused
  simp [hk, hused]

/-- The marks of an evaluation change the assay unit alone. -/
theorem State.raiseEval_only (s : State) (chB : Bool) : ∃ a, s.raiseEval chB = { s with asy := a } := by
  unfold State.raiseEval
  generalize s.saf.marks = l
  induction l generalizing s with
  | nil => exact ⟨_, rfl⟩
  | cons m r ih =>
    rw [List.foldl_cons]
    have hone : ∃ a, (if m.1 = 0 then s.safMark chB m.2.1 m.2.2 0 else s.raise m.1 m.2.1 0 [BitVec.ofNat 8 m.2.2]) = { s with asy := a } := by
      split
      · exact ⟨_, rfl⟩
      · exact ⟨_, rfl⟩
    obtain ⟨a, ha⟩ := hone
    obtain ⟨a', ha'⟩ := ih { s with asy := a }
    rw [ha]
    exact ⟨a', ha'⟩

section
variable {s : State} {t : Nat} {chB : Bool}

theorem execPeerSnapshot_none (h : ((s.before t).ch chB).st ≠ .run ∨ ((s.before t).ch (!chB)).st = .off ∨
    ((s.before t).ch chB).gotSnap = true) : exec (.peerSnapshot t chB) s = .next (ends s t (s.before t)) := by
  show execPeerSnapshot t chB s = _
  exact does_of_effect (if_pos h)

/-- The other channel's snapshot has come. -/
def State.snapCame (s : State) (chB : Bool) : State := s.modCh chB fun c => { c with gotSnap := true }

theorem execPeerSnapshot_taken (hrun : ((s.before t).ch chB).st = .run) (hpeer : ((s.before t).ch (!chB)).st ≠ .off)
    (hsnap : ((s.before t).ch chB).gotSnap = false) :
    exec (.peerSnapshot t chB) s = .next (ends s t (State.raiseEval (if ((s.before t).snapCame chB).saf.evaluated
      then (s.before t).snapCame chB else ((s.before t).snapCame chB).evaluate) chB)) := by
  show execPeerSnapshot t chB s = _
  exact does_of_effect (if_neg (by simp [hrun, hpeer, hsnap]))

end

theorem State.snapCame_evaluated (s : State) (chB : Bool) : (s.snapCame chB).saf.evaluated = s.saf.evaluated := by
  cases chB <;> rfl

/-! ## The expiry of STOP1 (R685) -/

/-- Outputs are wanted no longer. -/
def State.unwant (s : State) (l : List Nat) : State := l.foldl (fun s k => s.modOut k fun o => { o with want := false }) s

theorem State.unwant_safOut (s : State) (l : List Nat) (k : Nat) :
    (s.unwant l).safOut k = if k ∈ l then { s.safOut k with want := false } else s.safOut k := by
  induction l generalizing s with
  | nil => simp [State.unwant]
  | cons a r ih =>
    show ((s.modOut a fun o => { o with want := false }).unwant r).safOut k = _
    rw [ih, State.modOut_safOut]
    by_cases hk : k = a
    · subst hk
      simp
    · simp [hk]

theorem State.unwant_fns (s : State) (l : List Nat) : (s.unwant l).saf.fns = s.saf.fns := by
  induction l generalizing s with
  | nil => rfl
  | cons a r ih => exact ih _

/-- The function is in DEMAND, with the marks of the channels in RUN. -/
def State.expires (s : State) (fn : Nat) : State :=
  (s.modFn fn fun x => { x with st := .demand, left := 0, expired := true }).safBoth 0xCB 0

theorem State.expires_saf (s : State) (fn : Nat) :
    (s.expires fn).saf = (s.modFn fn fun x => { x with st := .demand, left := 0, expired := true }).saf := State.safBoth_saf ..

theorem State.expires_safOut (s : State) (fn k : Nat) : (s.expires fn).safOut k = s.safOut k := by
  rw [State.safOut, State.expires_saf]
  rfl

section
variable {s : State} {t fn : Nat}

theorem execStop1DelayExpiry_due (hst : ((s.before t).safFn fn).st = .delay) (hleft : ((s.before t).safFn fn).left ≤ 1)
    (heval : (s.before t).saf.evaluated = false) :
    exec (.stop1DelayExpiry t fn) s = .next (ends s t (((s.before t).expires fn).unwant
      ((List.range 8).filter fun k => bit (((s.before t).expires fn).fnByte fn 2) k))) := by
  show execStop1DelayExpiry t fn s = _
  exact does_of_effect (if_pos ⟨hst, hleft, heval⟩)

theorem execStop1DelayExpiry_none (h : ((s.before t).safFn fn).st ≠ .delay ∨ 1 < ((s.before t).safFn fn).left ∨
    (s.before t).saf.evaluated = true) : exec (.stop1DelayExpiry t fn) s = .next (ends s t (s.before t)) := by
  show execStop1DelayExpiry t fn s = _
  refine does_of_effect (if_neg ?_)
  rintro ⟨hst, hleft, heval⟩
  obtain hnot | hlate | hdone := h
  · exact hnot hst
  · exact absurd hleft (Nat.not_le.mpr hlate)
  · exact absurd hdone (ne_true_of_eq_false heval)

end

end Sys2Proof.Machine
end

section
/-! O56: the safety tick (17 R663, R665, R687, R691, R715), stage by stage: the channels hear it, the results of the cycle that ends are
applied and the next cycle begins, the channels take their snapshots, and channels enter RUN. -/

namespace Sys2Proof.Machine

/-! ## What the stages leave alone -/

/-- What a cycle of the island is known by. -/
def Safety.cycle (g : Safety) : Nat × Nat × Nat × Nat × Nat × Bool × Option (List Byte) :=
  (g.sentRaw, g.tickRaw, g.tickMt, g.prevMt, g.cycles, g.evaluated, g.sps)

/-- `w` is `s` but for the island within its cycle, the marks and what was sent, which stays sent. -/
structure State.InCycle (s w : State) : Prop where
  only : ∃ o g a, w = { s with out := o, saf := g, asy := a }
  out : s.out ⊆ w.out
  cycle : w.saf.cycle = s.saf.cycle

/-- The same, and no output is switched. -/
structure State.Quiet (s w : State) : Prop extends s.InCycle w where
  outs : w.saf.outs = s.saf.outs

theorem State.InCycle.refl (s : State) : s.InCycle s := ⟨⟨_, _, _, rfl⟩, fun _ h => h, rfl⟩

theorem State.InCycle.trans {a b c : State} (h : a.InCycle b) (g : b.InCycle c) : a.InCycle c := by
  refine ⟨?_, fun _ hx => g.out (h.out hx), g.cycle.trans h.cycle⟩
  obtain ⟨o, x, y, rfl⟩ := h.only
  obtain ⟨o', x', y', rfl⟩ := g.only
  exact ⟨_, _, _, rfl⟩

theorem State.InCycle.ite {b v w : State} {c : Prop} [Decidable c] (h : b.InCycle v) (g : b.InCycle w) : b.InCycle (if c then v else w) := by
  split
  · exact h
  · exact g

theorem State.InCycle.foldl {α : Type} {f : State → α → State} (step : ∀ (s : State) (x : α), s.InCycle (f s x)) (l : List α) (b : State) :
    b.InCycle (l.foldl f b) :=
  List.foldlRecOn l f (State.InCycle.refl b) fun s h x _ => h.trans (step s x)

theorem State.Quiet.refl (s : State) : s.Quiet s := ⟨.refl s, rfl⟩

theorem State.Quiet.trans {a b c : State} (h : a.Quiet b) (g : b.Quiet c) : a.Quiet c :=
  ⟨h.toInCycle.trans g.toInCycle, g.outs.trans h.outs⟩

theorem State.Quiet.ite {b v w : State} {c : Prop} [Decidable c] (h : b.Quiet v) (g : b.Quiet w) : b.Quiet (if c then v else w) := by
  split
  · exact h
  · exact g

theorem State.Quiet.foldl {α : Type} {f : State → α → State} (step : ∀ (s : State) (x : α), s.Quiet (f s x)) (l : List α) (b : State) :
    b.Quiet (l.foldl f b) :=
  List.foldlRecOn l f (State.Quiet.refl b) fun s h x _ => h.trans (step s x)

theorem State.InCycle.raw {s w : State} (h : s.InCycle w) : w.raw = s.raw := by
  obtain ⟨o, g, a, rfl⟩ := h.only
  rfl

theorem State.InCycle.mt {s w : State} (h : s.InCycle w) : w.mt = s.mt := by
  obtain ⟨o, g, a, rfl⟩ := h.only
  rfl

theorem State.InCycle.core {s w : State} (h : s.InCycle w) : w.core = s.core := by
  obtain ⟨o, g, a, rfl⟩ := h.only
  rfl

theorem State.InCycle.sps {s w : State} (h : s.InCycle w) : w.saf.sps = s.saf.sps :=
  congrArg (fun x => x.2.2.2.2.2.2) h.cycle

theorem State.Quiet.safOut {s w : State} (h : s.Quiet w) (k : Nat) : w.safOut k = s.safOut k := by
  rw [State.safOut, h.outs, State.safOut]

theorem State.modCh_quiet (s : State) (chB : Bool) (f : SafCh → SafCh) : s.Quiet (s.modCh chB f) := by
  cases chB <;> exact ⟨⟨⟨_, _, _, rfl⟩, fun _ h => h, rfl⟩, rfl⟩

theorem State.safMark_quiet (s : State) (chB : Bool) (kind x y : Nat) : s.Quiet (s.safMark chB kind x y) :=
  ⟨⟨⟨_, _, _, rfl⟩, fun _ h => h, rfl⟩, rfl⟩

theorem State.modConn_quiet (s : State) (c : Nat) (f : SafConn → SafConn) : s.Quiet (s.modConn c f) :=
  ⟨⟨⟨_, _, _, rfl⟩, fun _ h => h, rfl⟩, rfl⟩

theorem State.modFn_quiet (s : State) (i : Nat) (f : SafFn → SafFn) : s.Quiet (s.modFn i f) :=
  ⟨⟨⟨_, _, _, rfl⟩, fun _ h => h, rfl⟩, rfl⟩

theorem State.modPair_quiet (s : State) (p : Nat) (f : SafPair → SafPair) : s.Quiet (s.modPair p f) :=
  ⟨⟨⟨_, _, _, rfl⟩, fun _ h => h, rfl⟩, rfl⟩

theorem State.emit_quiet (s : State) (o : Out) : s.Quiet (s.emit o) :=
  ⟨⟨⟨_, _, _, rfl⟩, fun _ h => List.mem_cons_of_mem _ h, rfl⟩, rfl⟩

theorem State.safBoth_quiet (s : State) (kind x : Nat) : s.Quiet (s.safBoth kind x) :=
  have first : s.Quiet (if s.saf.a.st = .run then s.safMark false kind x 0 else s) := .ite (s.safMark_quiet _ _ _ _) (.refl s)
  first.trans (.ite (State.safMark_quiet _ _ _ _ _) (.refl _))

theorem State.setCh_quiet (s : State) (chB : Bool) (st : ChSt) : s.Quiet (s.setCh chB st) :=
  .ite (.refl s) ((s.modCh_quiet _ _).trans (State.safMark_quiet _ _ _ _ _))

theorem State.modOut_inCycle (s : State) (k : Nat) (f : SafOut → SafOut) : s.InCycle (s.modOut k f) := ⟨⟨_, _, _, rfl⟩, fun _ h => h, rfl⟩

theorem State.switchOut_inCycle (s : State) (k : Nat) (on : Bool) : s.InCycle (s.switchOut k on) :=
  .ite (.refl s) (((s.modOut_inCycle k _).trans (State.emit_quiet _ _).toInCycle).trans (State.emit_quiet _ _).toInCycle)

theorem State.outsOff_inCycle (s : State) : s.InCycle s.outsOff :=
  .foldl (fun s k => (s.switchOut_inCycle k false).trans (State.modOut_inCycle _ _ _)) _ _

theorem State.lockout_inCycle (s : State) (chB : Bool) (cause : Nat) : s.InCycle (s.lockout chB cause) := by
  have hcause : s.InCycle ((s.setCh chB .lockout).modSaf fun g => { g with cause := cause }) :=
    (s.setCh_quiet chB .lockout).toInCycle.trans ⟨⟨_, _, _, rfl⟩, fun _ h => h, rfl⟩
  exact .ite (.refl s) ((hcause.trans (State.outsOff_inCycle _)).trans (State.safMark_quiet _ _ _ _ _).toInCycle)

/-! ## A channel that changes its state -/

theorem State.safMark_ch (s : State) (chB : Bool) (kind x y : Nat) (c : Bool) : (s.safMark chB kind x y).ch c = s.ch c := rfl

theorem State.setCh_ch_same (s : State) (chB : Bool) (st : ChSt) : (s.setCh chB st).ch chB = { s.ch chB with st := st } := by
  unfold State.setCh
  split
  · next h => rw [← h]
  · rw [State.safMark_ch, State.modCh_ch_same]

theorem State.setCh_ch_other (s : State) (chB : Bool) (st : ChSt) : (s.setCh chB st).ch (!chB) = s.ch (!chB) := by
  unfold State.setCh
  split
  · rfl
  · rw [State.safMark_ch, State.modCh_ch_other]

/-- The state of a channel that has entered LOCKOUT, if it was not there. -/
theorem State.lockout_ch (s : State) (chB : Bool) (cause : Nat) :
    (s.lockout chB cause).ch chB = { s.ch chB with st := .lockout } ∧ (s.lockout chB cause).ch (!chB) = s.ch (!chB) := by
  by_cases hst : (s.ch chB).st = .lockout
  · rw [State.lockout, if_pos hst, ← hst]
    exact ⟨rfl, rfl⟩
  · obtain ⟨-, hch, hother, -⟩ := s.lockout_spec chB cause hst
    exact ⟨hch, hother⟩

/-- No output goes on when a channel locks out. -/
theorem State.lockout_on (s : State) (chB : Bool) (cause : Nat) {k : Nat} (hon : ((s.lockout chB cause).safOut k).on = true) :
    (s.safOut k).on = true := (s.lockout_shuts chB cause).closed k hon

/-! ## The tick is heard (R663) -/

/-- A channel that has measured a tick. -/
def SafCh.heard (c : SafCh) (raw : Nat) (sps : Bool) : SafCh :=
  { c with lastTick := some raw, tickOk := c.tickFits raw, discards := if c.tickFits raw then 0 else c.discards + 1,
           ticks := if c.tickFits raw ∧ sps then min 2 (c.ticks + 1) else c.ticks }

theorem State.hearTick_deaf {s : State} {chB : Bool} (h : (s.ch chB).hears = false) : s.hearTick chB = s := if_pos (by simp [h])

theorem State.hearTick_eq {s : State} {chB : Bool} (h : (s.ch chB).hears = true) : s.hearTick chB =
    if 2 ≤ ((s.ch chB).heard s.raw s.saf.sps.isSome).discards then
      (s.modCh chB fun c => c.heard s.raw s.saf.sps.isSome).lockoutRun chB 3
    else s.modCh chB fun c => c.heard s.raw s.saf.sps.isSome := by
  have hch := s.modCh_ch_same chB fun c => c.heard s.raw s.saf.sps.isSome
  have heq : s.hearTick chB = if 2 ≤ ((s.modCh chB fun c => c.heard s.raw s.saf.sps.isSome).ch chB).discards then
      (s.modCh chB fun c => c.heard s.raw s.saf.sps.isSome).lockoutRun chB 3
    else s.modCh chB fun c => c.heard s.raw s.saf.sps.isSome := by
    cases chB <;> exact if_neg (by simp [h])
  rw [heq, hch]

/-- A tick that fits is counted, and nothing else happens. -/
theorem State.hearTick_fits {s : State} {chB : Bool} (h : (s.ch chB).hears = true) (hfits : (s.ch chB).tickFits s.raw = true) :
    s.hearTick chB = s.modCh chB fun c => c.heard s.raw s.saf.sps.isSome := by
  rw [State.hearTick_eq h]
  exact if_neg (by simp [SafCh.heard, hfits])

/-- A channel that hears a tick notes it; its second discarded tick locks it out of RUN. -/
theorem State.hearTick_ch {s : State} {chB : Bool} (h : (s.ch chB).hears = true) :
    ∃ st, (s.hearTick chB).ch chB = { (s.ch chB).heard s.raw s.saf.sps.isSome with st := st } ∧
      ((s.ch chB).tickFits s.raw = true → st = (s.ch chB).st) ∧
      ((s.ch chB).tickFits s.raw = false → 1 ≤ (s.ch chB).discards → (s.ch chB).st = .run → st = .lockout) := by
  have hch := s.modCh_ch_same chB fun c => c.heard s.raw s.saf.sps.isSome
  cases hfits : (s.ch chB).tickFits s.raw with
  | true =>
    rw [State.hearTick_fits h hfits, hch]
    exact ⟨_, rfl, fun _ => rfl, by simp⟩
  | false =>
    rw [State.hearTick_eq h]
    by_cases hsecond : 2 ≤ ((s.ch chB).heard s.raw s.saf.sps.isSome).discards
    · rw [if_pos hsecond]
      unfold State.lockoutRun
      split
      · exact ⟨.lockout, by rw [(State.lockout_ch _ _ _).1, hch], by simp, fun _ _ _ => rfl⟩
      · next hrun => exact ⟨_, hch, by simp, fun _ _ hst => absurd (by rw [hch]; exact hst) hrun⟩
    · rw [if_neg hsecond, hch]
      refine ⟨_, rfl, by simp, fun _ hdiscards _ => absurd ?_ hsecond⟩
      simp [SafCh.heard, hfits, hdiscards]

theorem State.hearTick_other (s : State) (chB : Bool) : (s.hearTick chB).ch (!chB) = s.ch (!chB) := by
  have hch := s.modCh_ch_other chB fun c => c.heard s.raw s.saf.sps.isSome
  cases h : (s.ch chB).hears with
  | false => rw [State.hearTick_deaf h]
  | true =>
    rw [State.hearTick_eq h]
    unfold State.lockoutRun
    split
    · split
      · rw [(State.lockout_ch _ _ _).2, hch]
      · exact hch
    · exact hch

theorem State.hearTick_inCycle (s : State) (chB : Bool) : s.InCycle (s.hearTick chB) := by
  have hmod : s.InCycle (s.modCh chB fun c => c.heard s.raw s.saf.sps.isSome) := (s.modCh_quiet chB _).toInCycle
  cases h : (s.ch chB).hears with
  | false => rw [State.hearTick_deaf h]; exact .refl s
  | true =>
    rw [State.hearTick_eq h]
    exact .ite (.ite (hmod.trans (State.lockout_inCycle _ _ _)) hmod) hmod

/-- Both channels have heard a tick. -/
def State.bothHear (s : State) : State := (s.hearTick false).hearTick true

theorem State.bothHear_inCycle (s : State) : s.InCycle s.bothHear := (s.hearTick_inCycle false).trans (State.hearTick_inCycle _ true)

/-- What both channels have heard, for either. -/
theorem State.bothHear_ch (s : State) (x : Bool) :
    ((s.ch x).hears = false → s.bothHear.ch x = s.ch x) ∧
    ((s.ch x).hears = true → ∃ st, s.bothHear.ch x = { (s.ch x).heard s.raw s.saf.sps.isSome with st := st } ∧
      ((s.ch x).tickFits s.raw = true → st = (s.ch x).st) ∧
      ((s.ch x).tickFits s.raw = false → 1 ≤ (s.ch x).discards → (s.ch x).st = .run → st = .lockout)) := by
  have hin := s.hearTick_inCycle false
  cases x with
  | false =>
    have hch : s.bothHear.ch false = (s.hearTick false).ch false := (s.hearTick false).hearTick_other true
    rw [hch]
    exact ⟨fun h => by rw [State.hearTick_deaf h], State.hearTick_ch⟩
  | true =>
    have hch : (s.hearTick false).ch true = s.ch true := s.hearTick_other false
    refine ⟨fun h => ?_, fun h => ?_⟩
    · rw [State.bothHear, State.hearTick_deaf (by rw [hch, h]), hch]
    · have hspec := State.hearTick_ch (s := s.hearTick false) (chB := true) (by rw [hch, h])
      rwa [hch, hin.raw, hin.sps] at hspec

/-- No output goes on when a tick is heard. -/
theorem State.bothHear_on (s : State) {k : Nat} (hon : (s.bothHear.safOut k).on = true) : (s.safOut k).on = true :=
  ((s.hearTick_shuts false).trans (State.hearTick_shuts _ true)).closed k hon

/-- The channel accepts the tick. -/
def State.accepts (s : State) (x : Bool) : Bool := (s.ch x).hears && (s.ch x).tickFits s.raw

theorem State.bothHear_accepted (s : State) (x : Bool) :
    ((s.bothHear.ch x).hears && (s.bothHear.ch x).tickOk) = s.accepts x := by
  obtain ⟨hdeaf, hhears⟩ := s.bothHear_ch x
  cases h : (s.ch x).hears with
  | false => rw [hdeaf h, State.accepts, h, Bool.false_and, Bool.false_and]
  | true =>
    obtain ⟨st, hch, -⟩ := hhears h
    rw [hch]
    rfl

/-- Where both channels accept the tick, no output is switched and both stay in their states. -/
theorem State.bothHear_of_accepts {s : State} (ha : s.accepts false = true) (hb : s.accepts true = true) :
    s.Quiet s.bothHear ∧ s.bothHear.safRun = s.safRun := by
  obtain ⟨hhearsA, hfitsA⟩ := Bool.and_eq_true_iff.mp ha
  obtain ⟨hhearsB, hfitsB⟩ := Bool.and_eq_true_iff.mp hb
  have hin := s.hearTick_inCycle false
  have hch : (s.hearTick false).ch true = s.ch true := s.hearTick_other false
  have h1 := State.hearTick_fits hhearsA hfitsA
  have h2 := State.hearTick_fits (s := s.hearTick false) (chB := true) (by rw [hch, hhearsB]) (by rw [hch, hin.raw, hfitsB])
  rw [State.bothHear, h2, h1]
  exact ⟨(s.modCh_quiet _ _).trans (State.modCh_quiet _ _ _), rfl⟩

/-! ## The results are applied (R663, R687, R688) -/

/-- The results of the cycle that ends are applied to every output. -/
def State.switchAll (s : State) (both : Bool) (n : Nat) (l : List Nat) : State := l.foldl (fun s k => s.applyOut both n k) s

/-- Output `k` goes as it was wanted: not if it is LOCKED or a channel is not in RUN, and on only at a tick that both accept. -/
def State.goesOn (s : State) (both : Bool) (k : Nat) : Bool :=
  (s.safOut k).want && !(s.safOut k).locked && s.safRun && ((s.safOut k).on || both)

/-- One output is switched, its test pulse and what was sent apart. -/
theorem State.applyOut_spec (s : State) (both : Bool) (n k : Nat) : s.InCycle (s.applyOut both n k) ∧
    (∀ x, (s.applyOut both n k).ch x = s.ch x) ∧ ((s.applyOut both n k).safOut k).on = s.goesOn both k ∧
    ∀ j, j ≠ k → (s.applyOut both n k).safOut j = s.safOut j := by
  obtain ⟨houts, hon, -, -, -, hother⟩ := s.switchOut_spec k (s.goesOn both k)
  have hin := s.switchOut_inCycle k (s.goesOn both k)
  unfold State.applyOut
  extract_lets o v useB
  change s.OutsOf v at houts
  change (v.safOut k).on = _ at hon
  change ∀ j, j ≠ k → v.safOut j = s.safOut j at hother
  change s.InCycle v at hin
  clear_value v
  split
  · refine ⟨?_, houts.ch, ?_, fun j hj => ?_⟩
    · have htests : v.InCycle (v.modOut k fun o => { o with testing := true }) := v.modOut_inCycle k _
      exact (hin.trans htests).trans ⟨⟨_, _, _, rfl⟩, fun _ h => List.mem_cons_of_mem _ h, rfl⟩
    · show (((v.modOut k fun o => { o with testing := true }).safOut k)).on = _
      rw [State.modOut_safOut_same, hon]
    · show (v.modOut k fun o => { o with testing := true }).safOut j = _
      rw [State.modOut_safOut_ne _ _ _ hj, hother j hj]
  · refine ⟨hin.trans (v.modOut_inCycle k _), houts.ch, ?_, fun j hj => ?_⟩
    · rw [State.modOut_safOut_same, hon]
    · rw [State.modOut_safOut_ne _ _ _ hj, hother j hj]

theorem State.switchAll_spec (s : State) (both : Bool) (n : Nat) {l : List Nat} (hnodup : l.Nodup) : s.InCycle (s.switchAll both n l) ∧
    (∀ x, (s.switchAll both n l).ch x = s.ch x) ∧
    ∀ k, ((s.switchAll both n l).safOut k).on = if k ∈ l then s.goesOn both k else (s.safOut k).on := by
  induction l generalizing s with
  | nil => exact ⟨.refl s, fun _ => rfl, fun k => by simp [State.switchAll]⟩
  | cons a r ih =>
    obtain ⟨ha, hr⟩ := List.nodup_cons.mp hnodup
    obtain ⟨hin, hch, hon, hother⟩ := s.applyOut_spec both n a
    obtain ⟨hin', hch', hon'⟩ := ih (s.applyOut both n a) hr
    refine ⟨hin.trans hin', fun x => (hch' x).trans (hch x), fun k => (hon' k).trans ?_⟩
    by_cases hk : k = a
    · subst hk
      simp [ha, hon]
    · have hgoes : (s.applyOut both n a).goesOn both k = s.goesOn both k := by
        rw [State.goesOn, hother k hk, State.safRun, show (s.applyOut both n a).saf.a = s.saf.a from hch false,
          show (s.applyOut both n a).saf.b = s.saf.b from hch true]
        rfl
      simp [hk, hgoes, hother k hk]

/-! ## Test pulses (R676, R677) -/

/-- The pulses of a channel are noted, which moves no level of its inputs. -/
def SafCh.Pulsed (c d : SafCh) : Prop := (∃ p i, d = { c with pulses := p, inputs := i }) ∧ ∀ core, d.levels core = c.levels core

theorem SafCh.Pulsed.refl (c : SafCh) : c.Pulsed c := ⟨⟨_, _, rfl⟩, fun _ => rfl⟩

theorem SafCh.Pulsed.trans {a b c : SafCh} (h : a.Pulsed b) (g : b.Pulsed c) : a.Pulsed c := by
  refine ⟨?_, fun core => (g.2 core).trans (h.2 core)⟩
  obtain ⟨p, i, rfl⟩ := h.1
  obtain ⟨p', i', rfl⟩ := g.1
  exact ⟨_, _, rfl⟩

/-- The tests of a source begin: its inputs have not yet read low. -/
def State.beginTests (s : State) (tp : Nat) (m : SMap InFilt) : SMap InFilt :=
  (List.range 16).foldl (fun m i => if s.testSource i = some tp then SMap.put {} m i { SMap.get {} m i with lowSeen := false } else m) m

theorem State.beginTests_seen (s : State) (tp : Nat) (m : SMap InFilt) (j core : Nat) :
    (SMap.get {} (s.beginTests tp m) j).seen core = (SMap.get {} m j).seen core := by
  unfold State.beginTests
  refine List.foldlRecOn (motive := fun m' : SMap InFilt => InFilt.seen (SMap.get {} m' j) core = (SMap.get {} m j).seen core) _ _ rfl fun m' h i _ => ?_
  dsimp only
  split
  · rw [SMap.get_put]
    split
    · next hj => rw [← h, hj]; rfl
    · exact h
  · exact h

/-- A channel notes the pulse of a source. -/
def State.notePulse (s : State) (tp : Nat) (c : SafCh) : SafCh :=
  { c with pulses := SMap.put (0, false) c.pulses tp (s.raw + 1, true), inputs := s.beginTests tp c.inputs }

theorem State.notePulse_pulsed (s : State) (tp : Nat) (c : SafCh) : c.Pulsed (s.notePulse tp c) := by
  refine ⟨⟨_, _, rfl⟩, fun core => ?_⟩
  unfold SafCh.levels State.notePulse
  simp only [State.beginTests_seen]

theorem State.startPulse_spec (s : State) (tp : Nat) : s.Quiet (s.startPulse tp) ∧ ∀ x, (s.ch x).Pulsed ((s.startPulse tp).ch x) := by
  unfold State.startPulse
  split
  · have hquiet : s.Quiet ((s.modCh false (s.notePulse tp)).modCh true ((s.modCh false (s.notePulse tp)).notePulse tp)) :=
      (s.modCh_quiet _ _).trans (State.modCh_quiet _ _ _)
    refine ⟨hquiet.trans (State.emit_quiet _ _), fun x => ?_⟩
    cases x with
    | false => exact s.notePulse_pulsed tp _
    | true => exact State.notePulse_pulsed _ tp _
  · exact ⟨.refl s, fun x => .refl _⟩

theorem State.startPulses_spec (l : List Nat) (s : State) :
    s.Quiet (l.foldl (fun s tp => s.startPulse tp) s) ∧ ∀ x, (s.ch x).Pulsed ((l.foldl (fun s tp => s.startPulse tp) s).ch x) := by
  induction l generalizing s with
  | nil => exact ⟨.refl s, fun _ => .refl _⟩
  | cons a r ih =>
    obtain ⟨hquiet, hch⟩ := s.startPulse_spec a
    obtain ⟨hquiet', hch'⟩ := ih (s.startPulse a)
    exact ⟨hquiet.trans hquiet', fun x => (hch x).trans (hch' x)⟩

/-! ## The next cycle begins (R665, R701) -/

/-- The open rings, as bits. -/
def State.openRings (s : State) : Nat := (List.range 8).foldl (fun acc k => acc + (if (s.seg k).ringOpen then 2 ^ k else 0)) 0

/-- A cycle begins at this tick. -/
def State.openCycle (s : State) : State :=
  s.modSaf fun g => { g with prevMt := g.tickMt, tickMt := s.mt, tickRaw := s.raw, openPrev := g.openNow, openNow := s.openRings,
                             cycles := (g.cycles + 1) % 2 ^ 16, evaluated := false, marks := [] }

theorem State.releaseUnits_only (s : State) : ∃ l, s.releaseUnits = { s with saf := { s.saf with conns := l } } := by
  unfold State.releaseUnits
  generalize (List.range 32).filter s.connUsed = l
  induction l generalizing s with
  | nil => exact ⟨_, rfl⟩
  | cons c r ih =>
    rw [List.foldl_cons]
    have hone : ∀ b : Bool, ∃ l, (if b then s.modConn c fun x => { x with txSeq := (x.txSeq + 1) % 2 ^ 16 } else s) =
        { s with saf := { s.saf with conns := l } } := by
      intro b
      cases b <;> exact ⟨_, rfl⟩
    dsimp only
    obtain ⟨l, hl⟩ := hone (s.sendsUnit (bits (s.connFld c 0 1) 2 0) false || s.sendsUnit (bits (s.connFld c 0 1) 2 0) true)
    rw [hl]
    obtain ⟨l', hl'⟩ := ih (State.modConn { s with saf := { s.saf with conns := l } } c fun x =>
      { x with unitA := State.copyOf { s with saf := { s.saf with conns := l } } false c,
               unitB := State.copyOf { s with saf := { s.saf with conns := l } } true c })
    exact ⟨l', hl'⟩

/-- The cycle that begins at `s` is open in `v`: it has its times and its number, no channel has changed and no output is switched. -/
structure State.Opened (s v : State) : Prop where
  only : ∃ o g a, v = { s with out := o, saf := g, asy := a }
  out : v.out = s.out
  cycle : v.saf.cycle = (s.saf.sentRaw, s.raw, s.mt, s.saf.tickMt, (s.saf.cycles + 1) % 2 ^ 16, false, s.saf.sps)
  ch : ∀ x, v.ch x = s.ch x
  outs : v.saf.outs = s.saf.outs

theorem State.openCycle_opened (s : State) : s.Opened s.openCycle.releaseUnits := by
  obtain ⟨l, hl⟩ := s.openCycle.releaseUnits_only
  rw [hl]
  exact ⟨⟨_, _, _, rfl⟩, rfl, rfl, fun _ => rfl, rfl⟩

/-- The source pulses that are due in cycle `n`. -/
def State.startPulses (s : State) (n : Nat) : State := ((List.range 4).filter (s.pulseDue n)).foldl (fun s tp => s.startPulse tp) s

/-- From the ticks heard to the units released: the results are applied and the cycle begins. -/
def State.switchesOver (s : State) (both : Bool) : State :=
  ((s.switchAll both (safCycle s.mt) (List.range 8)).startPulses (safCycle s.mt)).openCycle.releaseUnits

theorem State.switchesOver_spec (s : State) (both : Bool) :
    (∃ o g a, s.switchesOver both = { s with out := o, saf := g, asy := a }) ∧ s.out ⊆ (s.switchesOver both).out ∧
    (s.switchesOver both).saf.cycle =
      (s.saf.sentRaw, s.raw, s.mt, s.saf.tickMt, (s.saf.cycles + 1) % 2 ^ 16, false, s.saf.sps) ∧
    (∀ x, (s.ch x).Pulsed ((s.switchesOver both).ch x)) ∧
    ∀ k, ((s.switchesOver both).safOut k).on = if k < 8 then s.goesOn both k else (s.safOut k).on := by
  obtain ⟨hin, hch, hon⟩ := s.switchAll_spec both (safCycle s.mt) List.nodup_range (l := List.range 8)
  obtain ⟨hquiet, hpulsed⟩ := State.startPulses_spec _ (s.switchAll both (safCycle s.mt) (List.range 8))
  have hopened := ((s.switchAll both (safCycle s.mt) (List.range 8)).startPulses (safCycle s.mt)).openCycle_opened
  have hall := hin.trans hquiet.toInCycle
  refine ⟨?_, ?_, hopened.cycle.trans ?_, fun x => ?_, fun k => ?_⟩
  · obtain ⟨o, g, a, hy⟩ := hall.only
    obtain ⟨o', g', a', hv⟩ := hopened.only
    refine ⟨o', g', a', hv.trans ?_⟩
    rw [State.startPulses, hy]
  · rw [State.switchesOver, hopened.out]
    exact hall.out
  · have hcycle := hall.cycle
    simp only [Safety.cycle, Prod.mk.injEq] at hcycle
    obtain ⟨hsent, -, htickMt, -, hcycles, -, hsps⟩ := hcycle
    rw [State.startPulses, hsent, hall.raw, hall.mt, htickMt, hcycles, hsps]
  · rw [State.switchesOver, hopened.ch, ← hch x]
    exact hpulsed x
  · rw [State.safOut, State.switchesOver, hopened.outs, ← State.safOut, State.startPulses, hquiet.safOut, hon]
    simp only [List.mem_range]

/-! ## The snapshots (R665, R706, R707) -/

/-- A channel that accepts the tick takes its snapshot. -/
def State.snapsOne (s : State) (x ok : Bool) (fb low high : Nat) : State :=
  if ok then s.modCh x fun c => c.snapshot s.core fb low high else s

theorem State.snapsOne_quiet (s : State) (x ok : Bool) (fb low high : Nat) : s.Quiet (s.snapsOne x ok fb low high) :=
  .ite (s.modCh_quiet _ _) (.refl s)

theorem State.snapsOne_ch (s : State) (x ok : Bool) (fb low high : Nat) :
    (s.snapsOne x ok fb low high).ch x = (if ok then (s.ch x).snapshot s.core fb low high else s.ch x) ∧
      (s.snapsOne x ok fb low high).ch (!x) = s.ch (!x) := by
  unfold State.snapsOne
  cases ok with
  | false => exact ⟨rfl, rfl⟩
  | true =>
    simp only [if_true]
    exact ⟨s.modCh_ch_same x _, s.modCh_ch_other x _⟩

/-- `w` is `s` but for connections and marks. -/
def State.ConnsOf (s w : State) : Prop := ∃ a l, w = { s with asy := a, saf := { s.saf with conns := l } }

theorem State.ConnsOf.trans {a b c : State} (h : a.ConnsOf b) (g : b.ConnsOf c) : a.ConnsOf c := by
  obtain ⟨x, l, rfl⟩ := h
  obtain ⟨x', l', rfl⟩ := g
  exact ⟨_, _, rfl⟩

theorem State.ConnsOf.refl (s : State) : s.ConnsOf s := ⟨_, _, rfl⟩

theorem State.ConnsOf.ite {b v w : State} {c : Prop} [Decidable c] (h : b.ConnsOf v) (g : b.ConnsOf w) : b.ConnsOf (if c then v else w) := by
  split
  · exact h
  · exact g

theorem State.ConnsOf.quiet {s w : State} (h : s.ConnsOf w) : s.Quiet w := by
  obtain ⟨a, l, rfl⟩ := h
  exact ⟨⟨⟨_, _, _, rfl⟩, fun _ h => h, rfl⟩, rfl⟩

theorem State.ConnsOf.ch {s w : State} (h : s.ConnsOf w) (x : Bool) : w.ch x = s.ch x := by
  obtain ⟨a, l, rfl⟩ := h
  rfl

theorem State.modConn_connsOf (s : State) (c : Nat) (f : SafConn → SafConn) : s.ConnsOf (s.modConn c f) := ⟨_, _, rfl⟩

theorem State.safBoth_connsOf (s : State) (kind x : Nat) : s.ConnsOf (s.safBoth kind x) := by
  obtain ⟨a, h⟩ := s.safBoth_only kind x
  exact ⟨a, _, h⟩

theorem State.connSnapshot_connsOf (s : State) (c : Nat) : s.ConnsOf (s.connSnapshot c) := by
  unfold State.connSnapshot
  extract_lets v x begins w y z
  have hv : s.ConnsOf v := .ite (s.modConn_connsOf c _) (.refl s)
  have hw : s.ConnsOf w := by
    unfold w
    split
    · exact hv.trans (v.modConn_connsOf c _)
    · exact hv
  have hy : s.ConnsOf y := .ite (hw.trans (w.safBoth_connsOf _ c)) hw
  exact .ite ((hy.trans (y.modConn_connsOf c _)).trans (State.safBoth_connsOf _ _ c)) hy

theorem State.connSnapshots_connsOf (s : State) (l : List Nat) : s.ConnsOf (l.foldl State.connSnapshot s) :=
  List.foldlRecOn l _ (State.ConnsOf.refl s) fun s h c _ => h.trans (s.connSnapshot_connsOf c)

/-- The snapshots of the channels that accept the tick, and of the connections. -/
def State.snaps (s : State) (okA okB : Bool) (fa fb la lb ha hb : Nat) : State :=
  let v := (s.snapsOne false okA fa la ha).snapsOne true okB fb lb hb
  ((List.range 32).filter v.connUsed).foldl State.connSnapshot v

theorem State.snaps_spec (s : State) (okA okB : Bool) (fa fb la lb ha hb : Nat) : let v := s.snaps okA okB fa fb la lb ha hb
    s.Quiet v ∧ (v.ch false = if okA then (s.ch false).snapshot s.core fa la ha else s.ch false) ∧
      v.ch true = if okB then (s.ch true).snapshot s.core fb lb hb else s.ch true := by
  have hA := s.snapsOne_quiet false okA fa la ha
  have hB := (s.snapsOne false okA fa la ha).snapsOne_quiet true okB fb lb hb
  obtain ⟨hchA, hotherA⟩ := s.snapsOne_ch false okA fa la ha
  obtain ⟨hchB, hotherB⟩ := (s.snapsOne false okA fa la ha).snapsOne_ch true okB fb lb hb
  have hconns := State.connSnapshots_connsOf ((s.snapsOne false okA fa la ha).snapsOne true okB fb lb hb)
    ((List.range 32).filter ((s.snapsOne false okA fa la ha).snapsOne true okB fb lb hb).connUsed)
  refine ⟨(hA.trans hB).trans hconns.quiet, ?_, ?_⟩
  · exact (hconns.ch false).trans (hotherB.trans hchA)
  · refine (hconns.ch true).trans (hchB.trans ?_)
    rw [show (s.snapsOne false okA fa la ha).ch true = s.ch true from hotherA, hA.core]

/-! ## Leaving LOCKOUT and entering RUN (R671, R672) -/

theorem State.seeAck_spec (s : State) : s.Quiet s.seeAck ∧ ∀ x, s.seeAck.ch x = s.ch x := by
  unfold State.seeAck
  split
  · exact ⟨⟨⟨⟨_, _, _, rfl⟩, fun _ h => h, rfl⟩, rfl⟩, fun _ => rfl⟩
  · split
    · exact ⟨⟨⟨⟨_, _, _, rfl⟩, fun _ h => h, rfl⟩, rfl⟩, fun _ => rfl⟩
    · exact ⟨⟨⟨⟨_, _, _, rfl⟩, fun _ h => h, rfl⟩, rfl⟩, fun _ => rfl⟩

/-- `w` is `s` but for functions and pairs. -/
def State.FnsOf (s w : State) : Prop := ∃ f p, w = { s with saf := { s.saf with fns := f, pairs := p } }

theorem State.FnsOf.trans {a b c : State} (h : a.FnsOf b) (g : b.FnsOf c) : a.FnsOf c := by
  obtain ⟨f, p, rfl⟩ := h
  obtain ⟨f', p', rfl⟩ := g
  exact ⟨_, _, rfl⟩

theorem State.startFns_fnsOf (s : State) : s.FnsOf s.startFns := by
  have hfns : s.FnsOf ((List.range 16).foldl (fun s f => s.modFn f fun _ => {}) s) :=
    List.foldlRecOn (motive := s.FnsOf) _ _ ⟨_, _, rfl⟩ fun v h f _ => h.trans ⟨_, _, rfl⟩
  exact List.foldlRecOn (motive := s.FnsOf) _ _ hfns fun v h p _ => h.trans ⟨_, _, rfl⟩

theorem State.startFns_quiet (s : State) : s.Quiet s.startFns := by
  obtain ⟨f, p, h⟩ := s.startFns_fnsOf
  rw [h]
  exact ⟨⟨⟨_, _, _, rfl⟩, fun _ h => h, rfl⟩, rfl⟩

theorem State.startFns_ch (s : State) (x : Bool) : s.startFns.ch x = s.ch x := by
  obtain ⟨f, p, h⟩ := s.startFns_fnsOf
  rw [h]
  rfl

/-- Channels leave LOCKOUT together, both clean and neither in RUN. -/
theorem State.leaveLockout_spec (s : State) : s.Quiet s.leaveLockout ∧
    (s.leaveLockout = s ∨ (∀ x, (s.ch x).clean = true ∧ (s.ch x).st ≠ .run) ∧
      ∀ x, s.leaveLockout.ch x = { s.ch x with st := if s.saf.sps.isSome then .run else .off }) := by
  unfold State.leaveLockout
  split
  · next h =>
    obtain ⟨-, hrunA, hrunB, -, hcleanA, hcleanB⟩ := h
    extract_lets st
    refine ⟨((s.setCh_quiet _ _).trans (State.setCh_quiet _ _ _)).trans (State.startFns_quiet _), .inr ⟨fun x => ?_, fun x => ?_⟩⟩
    · cases x
      · exact ⟨hcleanA, hrunA⟩
      · exact ⟨hcleanB, hrunB⟩
    · rw [State.startFns_ch]
      have hA : (s.setCh false st).ch true = s.ch true := s.setCh_ch_other false st
      have hB : ((s.setCh false st).setCh true st).ch false = (s.setCh false st).ch false := State.setCh_ch_other _ true st
      cases x
      · rw [hB, State.setCh_ch_same]
      · rw [State.setCh_ch_same, hA]
  · exact ⟨.refl s, .inl rfl⟩

/-- A channel that enters RUN, or LOCKOUT for its self-test, was OFF; the other stays, and no output goes on. -/
theorem State.enterRun_spec (s : State) (x : Bool) : s.InCycle (s.enterRun x) ∧ (s.enterRun x).ch (!x) = s.ch (!x) ∧
    (∃ st, (s.enterRun x).ch x = { s.ch x with st := st } ∧
      ((s.ch x).st = .off → s.saf.sps.isSome = true → 2 ≤ (s.ch x).ticks → (s.ch x).selftest = false → st = .run)) ∧
    (∀ k, ((s.enterRun x).safOut k).on = true → (s.safOut k).on = true) ∧ ((s.ch x).st ≠ .off → s.enterRun x = s) := by
  unfold State.enterRun
  extract_lets c
  split
  · next h =>
    obtain ⟨hoff, hsps, hticks⟩ := h
    split
    · next hselftest =>
      obtain ⟨hch, hother⟩ := s.lockout_ch x 4
      exact ⟨s.lockout_inCycle x 4, hother, ⟨_, hch, fun _ _ _ hclean => absurd hselftest (ne_true_of_eq_false hclean)⟩,
        fun k => s.lockout_on x 4, fun hnot => absurd hoff hnot⟩
    · refine ⟨((s.setCh_quiet x _).trans (State.startFns_quiet _)).toInCycle, ?_, ⟨.run, ?_, fun _ _ _ _ => rfl⟩, fun k hon => ?_,
        fun hnot => absurd hoff hnot⟩
      · rw [State.startFns_ch, State.setCh_ch_other]
      · rw [State.startFns_ch, State.setCh_ch_same]
      · rwa [((s.setCh_quiet x .run).trans (State.startFns_quiet _)).safOut] at hon
  · next h =>
    exact ⟨.refl s, rfl, ⟨_, rfl, fun hoff hsps hticks _ => absurd ⟨hoff, hsps, hticks⟩ h⟩, fun _ => id, fun _ => rfl⟩

/-- A channel may enter RUN at a tick that it accepts. -/
def State.mayEnter (s : State) (x ok : Bool) : State := if ok then s.enterRun x else s

theorem State.mayEnter_spec (s : State) (x ok : Bool) : s.InCycle (s.mayEnter x ok) ∧ (s.mayEnter x ok).ch (!x) = s.ch (!x) ∧
    (∃ st, (s.mayEnter x ok).ch x = { s.ch x with st := st } ∧ ((s.ch x).st ≠ .off → st = (s.ch x).st) ∧
      (ok = true → (s.ch x).st = .off → s.saf.sps.isSome = true → 2 ≤ (s.ch x).ticks → (s.ch x).selftest = false → st = .run)) ∧
    (∀ k, ((s.mayEnter x ok).safOut k).on = true → (s.safOut k).on = true) ∧ ((s.ch x).st ≠ .off → s.mayEnter x ok = s) := by
  unfold State.mayEnter
  cases ok with
  | false => exact ⟨.refl s, rfl, ⟨_, rfl, fun _ => rfl, fun h => absurd h (by decide)⟩, fun _ => id, fun _ => rfl⟩
  | true =>
    obtain ⟨hin, hother, ⟨st, hch, hruns⟩, hon, hsame⟩ := s.enterRun_spec x
    simp only [if_true]
    refine ⟨hin, hother, ⟨st, hch, fun hnot => ?_, fun _ => hruns⟩, hon, hsame⟩
    rw [hsame hnot] at hch
    exact (congrArg SafCh.st hch).symm

/-- The channels leave LOCKOUT where they may, and enter RUN at a tick that they accept. -/
def State.entersRun (s : State) (okA okB : Bool) : State := (s.seeAck.leaveLockout.mayEnter false okA).mayEnter true okB

/-- What becomes of a channel that leaves LOCKOUT, or not. -/
theorem State.released_ch (s : State) (x : Bool) : ∃ st, s.seeAck.leaveLockout.ch x = { s.ch x with st := st } ∧
    ((s.ch x).clean = false ∨ (s.ch x).st = .run → st = (s.ch x).st) ∧
    ((s.ch x).st = .off → s.saf.sps.isSome = true → st = .off ∨ st = .run) := by
  obtain ⟨hquiet, hch⟩ := s.seeAck_spec
  obtain ⟨-, hsame | ⟨hboth, hleft⟩⟩ := s.seeAck.leaveLockout_spec
  · rw [hsame, hch]
    exact ⟨_, rfl, fun _ => rfl, fun h _ => .inl h⟩
  · obtain ⟨hclean, hnot⟩ := hboth x
    rw [hch] at hclean hnot
    refine ⟨_, (hleft x).trans (by rw [hch]), fun h => ?_, fun _ hsps => .inr ?_⟩
    · exact (h.elim (ne_false_of_eq_true hclean) hnot).elim
    · rw [hquiet.sps, hsps]
      rfl

theorem State.entersRun_spec (s : State) (ok : Bool → Bool) : s.InCycle (s.entersRun (ok false) (ok true)) ∧
    (∀ k, ((s.entersRun (ok false) (ok true)).safOut k).on = true → (s.safOut k).on = true) ∧
    (s.safRun = true → (s.entersRun (ok false) (ok true)).saf.outs = s.saf.outs) ∧
    ∀ x, ∃ st, (s.entersRun (ok false) (ok true)).ch x = { s.ch x with st := st } ∧
      ((s.ch x).clean = false → (s.ch x).st ≠ .off → st = (s.ch x).st) ∧
      (ok x = true → (s.ch x).st = .off → s.saf.sps.isSome = true → 2 ≤ (s.ch x).ticks → (s.ch x).selftest = false → st = .run) := by
  have hquiet := s.seeAck_spec.1.trans s.seeAck.leaveLockout_spec.1
  obtain ⟨hinA, hotherA, ⟨stA, hchA, hkeepA, hrunA⟩, honA, hsameA⟩ := s.seeAck.leaveLockout.mayEnter_spec false (ok false)
  obtain ⟨hinB, hotherB, ⟨stB, hchB, hkeepB, hrunB⟩, honB, hsameB⟩ :=
    (s.seeAck.leaveLockout.mayEnter false (ok false)).mayEnter_spec true (ok true)
  have hB : (s.seeAck.leaveLockout.mayEnter false (ok false)).ch true = s.seeAck.leaveLockout.ch true := hotherA
  have hsps : s.seeAck.leaveLockout.saf.sps = s.saf.sps := hquiet.sps
  rw [hB] at hchB hkeepB hrunB hsameB
  rw [hinA.sps] at hrunB
  have hentered : ∀ x, ∃ st, (s.entersRun (ok false) (ok true)).ch x = { s.seeAck.leaveLockout.ch x with st := st } ∧
      ((s.seeAck.leaveLockout.ch x).st ≠ .off → st = (s.seeAck.leaveLockout.ch x).st) ∧
      (ok x = true → (s.seeAck.leaveLockout.ch x).st = .off → s.saf.sps.isSome = true →
        2 ≤ (s.seeAck.leaveLockout.ch x).ticks → (s.seeAck.leaveLockout.ch x).selftest = false → st = .run) := by
    intro x
    cases x with
    | false => exact ⟨stA, (show _ = _ from hotherB).trans hchA, hkeepA, hsps ▸ hrunA⟩
    | true => exact ⟨stB, hchB, hkeepB, hsps ▸ hrunB⟩
  refine ⟨(hquiet.toInCycle.trans hinA).trans hinB, fun k hon => ?_, fun hrun => ?_, fun x => ?_⟩
  · rw [← hquiet.safOut]
    exact honA k (honB k hon)
  · obtain ⟨ha, hb⟩ := Bool.and_eq_true_iff.mp hrun
    obtain ⟨st, hch, hkeep, -⟩ := s.released_ch false
    obtain ⟨st', hch', hkeep', -⟩ := s.released_ch true
    have hstA : (s.seeAck.leaveLockout.ch false).st = .run := by rw [hch]; exact (hkeep (.inr (of_decide_eq_true ha))).trans (of_decide_eq_true ha)
    have hstB : (s.seeAck.leaveLockout.ch true).st = .run := by rw [hch']; exact (hkeep' (.inr (of_decide_eq_true hb))).trans (of_decide_eq_true hb)
    rw [State.entersRun, hsameB (by rw [hstB]; decide), hsameA (by rw [hstA]; decide), hquiet.outs]
  · obtain ⟨st, hch, hkeep, hoff⟩ := s.released_ch x
    obtain ⟨st', hch', hkeep', hruns⟩ := hentered x
    rw [hch] at hch' hkeep' hruns
    refine ⟨st', hch', fun hdirty hnot => ?_, fun hok hst hset hticks hselftest => ?_⟩
    · have hsame := hkeep (.inl hdirty)
      exact (hkeep' (by rw [hsame]; exact hnot)).trans hsame
    · obtain h | h := hoff hst hset
      · exact hruns hok h hset hticks hselftest
      · exact (hkeep' (by simp [h])).trans h

end Sys2Proof.Machine
end

section
/-! O56: the tick as a whole, from what its stages leave, with the evaluation and the expiry of STOP1. -/

namespace Sys2Proof.Machine

/-- The spine has sent a tick, and both channels have heard it. -/
def State.tickHeard (s : State) : State := (s.tickSent.emit (.tick s.mt)).bothHear

/-- What a tick makes of the state in which the channels have heard it: nothing where both discard it. -/
def State.ticked (h : State) (ok : Bool → Bool) (fa fb la lb ha hb : Nat) : State :=
  if !ok false ∧ !ok true then h
  else ((h.switchesOver (ok false && ok true)).snaps (ok false) (ok true) fa fb la lb ha hb).entersRun (ok false) (ok true)

section
variable {s : State} {t : Nat}

theorem execSafetyTick_none (h : (s.before t).up = false ∨ (s.before t).tickDue = false) (fa fb la lb ha hb : Nat) :
    exec (.safetyTick t fa fb la lb ha hb) s = .next (ends s t (s.before t)) := by
  show execSafetyTick t fa fb la lb ha hb s = _
  refine does_of_effect (if_pos ?_)
  obtain h | h := h <;> simp [h]

theorem execSafetyTick_due (hup : (s.before t).up = true) (hdue : (s.before t).tickDue = true) (fa fb la lb ha hb : Nat) :
    exec (.safetyTick t fa fb la lb ha hb) s =
      .next (ends s t ((s.before t).tickHeard.ticked (s.before t).accepts fa fb la lb ha hb)) := by
  have hok : (s.before t).accepts = fun x => ((s.before t).tickHeard.ch x).hears && ((s.before t).tickHeard.ch x).tickOk :=
    funext fun x => (((s.before t).tickSent.emit (.tick (s.before t).mt)).bothHear_accepted x).symm
  show execSafetyTick t fa fb la lb ha hb s = _
  rw [hok]
  exact does_of_effect (if_neg (by simp [hup, hdue]))

end

/-- After a tick that a channel accepts the next cycle is open. -/
theorem State.ticked_cycle (h : State) {ok : Bool → Bool} (hok : ok false = true ∨ ok true = true) (fa fb la lb ha hb : Nat) :
    (h.ticked ok fa fb la lb ha hb).saf.cycle =
      (h.saf.sentRaw, h.raw, h.mt, h.saf.tickMt, (h.saf.cycles + 1) % 2 ^ 16, false, h.saf.sps) := by
  obtain ⟨-, -, hcycle, -, -⟩ := h.switchesOver_spec (ok false && ok true)
  obtain ⟨hquiet, -⟩ := (h.switchesOver (ok false && ok true)).snaps_spec (ok false) (ok true) fa fb la lb ha hb
  obtain ⟨hin, -⟩ := State.entersRun_spec ((h.switchesOver (ok false && ok true)).snaps (ok false) (ok true) fa fb la lb ha hb) ok
  rw [State.ticked, if_neg (by obtain h | h := hok <;> simp [h])]
  exact hin.cycle.trans (hquiet.cycle.trans hcycle)

theorem State.ticked_of_discarded (h : State) {ok : Bool → Bool} (hA : ok false = false) (hB : ok true = false) (fa fb la lb ha hb : Nat) :
    h.ticked ok fa fb la lb ha hb = h := if_pos (by simp [hA, hB])

theorem State.ticked_out (h : State) (ok : Bool → Bool) (fa fb la lb ha hb : Nat) : h.out ⊆ (h.ticked ok fa fb la lb ha hb).out := by
  obtain ⟨-, hout, -⟩ := h.switchesOver_spec (ok false && ok true)
  obtain ⟨hquiet, -⟩ := (h.switchesOver (ok false && ok true)).snaps_spec (ok false) (ok true) fa fb la lb ha hb
  obtain ⟨hin, -⟩ := State.entersRun_spec ((h.switchesOver (ok false && ok true)).snaps (ok false) (ok true) fa fb la lb ha hb) ok
  unfold State.ticked
  split
  · exact fun _ hx => hx
  · exact fun _ hx => hin.out (hquiet.out (hout hx))

theorem SafCh.Pulsed.snapshot {c d : SafCh} (h : c.Pulsed d) (core fb low high : Nat) :
    ∃ p i, d.snapshot core fb low high = { c.snapshot core fb low high with pulses := p, inputs := i } := by
  obtain ⟨⟨p, i, rfl⟩, hlevels⟩ := h
  refine ⟨p, i, ?_⟩
  rw [SafCh.snapshot, hlevels]
  rfl

/-- What a tick makes of a channel: its snapshot where it accepts, its pulses, and its state. -/
theorem State.ticked_ch (h : State) (ok : Bool → Bool) (fa fb la lb ha hb : Nat) (x : Bool) : ∃ st p i,
    (h.ticked ok fa fb la lb ha hb).ch x =
      { (if ok x then (h.ch x).snapshot h.core (if x then fb else fa) (if x then lb else la) (if x then hb else ha) else h.ch x) with
        pulses := p, inputs := i, st := st } ∧
    ((h.ch x).clean = false → (h.ch x).st ≠ .off → st = (h.ch x).st) ∧
    (ok x = true → (h.ch x).st = .off → h.saf.sps.isSome = true → 2 ≤ (h.ch x).ticks → (h.ch x).selftest = false → st = .run) := by
  obtain ⟨honly, -, hcycle, hpulsed, -⟩ := h.switchesOver_spec (ok false && ok true)
  obtain ⟨hquiet, hA, hB⟩ := (h.switchesOver (ok false && ok true)).snaps_spec (ok false) (ok true) fa fb la lb ha hb
  obtain ⟨-, -, -, hch⟩ := State.entersRun_spec ((h.switchesOver (ok false && ok true)).snaps (ok false) (ok true) fa fb la lb ha hb) ok
  have hcore : (h.switchesOver (ok false && ok true)).core = h.core := by
    obtain ⟨o, g, a, hv⟩ := honly
    rw [hv]
    rfl
  have hsps : ((h.switchesOver (ok false && ok true)).snaps (ok false) (ok true) fa fb la lb ha hb).saf.sps = h.saf.sps :=
    hquiet.sps.trans (congrArg (fun x => x.2.2.2.2.2.2) hcycle)
  have hsnap : ((h.switchesOver (ok false && ok true)).snaps (ok false) (ok true) fa fb la lb ha hb).ch x =
      if ok x then ((h.switchesOver (ok false && ok true)).ch x).snapshot h.core (if x then fb else fa) (if x then lb else la)
        (if x then hb else ha) else (h.switchesOver (ok false && ok true)).ch x := by
    rw [← hcore]
    cases x
    · exact hA
    · exact hB
  obtain ⟨p, i, hpi⟩ : ∃ p i, ((h.switchesOver (ok false && ok true)).snaps (ok false) (ok true) fa fb la lb ha hb).ch x =
      { (if ok x then (h.ch x).snapshot h.core (if x then fb else fa) (if x then lb else la) (if x then hb else ha) else h.ch x) with
        pulses := p, inputs := i } := by
    rw [hsnap]
    cases ok x with
    | true => exact (hpulsed x).snapshot _ _ _ _
    | false => exact (hpulsed x).1
  obtain ⟨st, hst, hkeep, hruns⟩ := hch x
  have hfields : ((if ok x then (h.ch x).snapshot h.core (if x then fb else fa) (if x then lb else la) (if x then hb else ha)
      else h.ch x).clean = (h.ch x).clean) ∧
      (if ok x then (h.ch x).snapshot h.core (if x then fb else fa) (if x then lb else la) (if x then hb else ha) else h.ch x).st =
        (h.ch x).st ∧
      (if ok x then (h.ch x).snapshot h.core (if x then fb else fa) (if x then lb else la) (if x then hb else ha) else h.ch x).ticks =
        (h.ch x).ticks ∧
      (if ok x then (h.ch x).snapshot h.core (if x then fb else fa) (if x then lb else la) (if x then hb else ha) else h.ch x).selftest =
        (h.ch x).selftest := by
    cases ok x <;> exact ⟨rfl, rfl, rfl, rfl⟩
  obtain ⟨hclean, hstate, hticks, hselftest⟩ := hfields
  rw [hpi] at hst hkeep hruns
  rw [hsps] at hruns
  by_cases hnone : (!ok false) = true ∧ (!ok true) = true
  · have hx : ok x = false := by
      cases x
      · exact by simpa using hnone.1
      · exact by simpa using hnone.2
    rw [State.ticked, if_pos hnone, hx]
    exact ⟨_, _, _, rfl, fun _ _ => rfl, fun h => absurd h (by decide)⟩
  · rw [State.ticked, if_neg hnone]
    refine ⟨st, p, i, hst, fun hdirty hnot => ?_, fun hok hoff hset htwo htest => ?_⟩
    · exact (hkeep (hclean.trans hdirty) (hstate ▸ hnot)).trans hstate
    · exact hruns hok (hstate.trans hoff) hset (hticks ▸ htwo) (hselftest.trans htest)

/-- Where both channels accept the tick, an output goes as it was wanted. -/
theorem State.ticked_on_of_both (h : State) {ok : Bool → Bool} (hA : ok false = true) (hB : ok true = true) (fa fb la lb ha hb : Nat)
    {k : Nat} (hk : k < 8) :
    ((h.ticked ok fa fb la lb ha hb).safOut k).on = ((h.safOut k).want && !(h.safOut k).locked && h.safRun) := by
  obtain ⟨-, -, -, hpulsed, hon⟩ := h.switchesOver_spec (ok false && ok true)
  obtain ⟨hquiet, hchA, hchB⟩ := (h.switchesOver (ok false && ok true)).snaps_spec (ok false) (ok true) fa fb la lb ha hb
  obtain ⟨-, hnot, houts, -⟩ := State.entersRun_spec ((h.switchesOver (ok false && ok true)).snaps (ok false) (ok true) fa fb la lb ha hb) ok
  have hgoes : ((h.switchesOver (ok false && ok true)).safOut k).on = ((h.safOut k).want && !(h.safOut k).locked && h.safRun) := by
    rw [hon, if_pos hk, State.goesOn, hA, hB, Bool.and_self, Bool.or_true, Bool.and_true]
  rw [State.ticked, if_neg (by simp [hA]), ← hgoes, ← hquiet.safOut]
  cases hrun : h.safRun with
  | true =>
    have hruns : ((h.switchesOver (ok false && ok true)).snaps (ok false) (ok true) fa fb la lb ha hb).safRun = true := by
      refine .trans ?_ hrun
      obtain ⟨⟨_, _, hpA⟩, -⟩ := hpulsed false
      obtain ⟨⟨_, _, hpB⟩, -⟩ := hpulsed true
      have hstA : ((h.switchesOver (ok false && ok true)).snaps (ok false) (ok true) fa fb la lb ha hb).saf.a.st = h.saf.a.st := by
        show SafCh.st (State.ch _ false) = (h.ch false).st
        rw [hchA, if_pos hA, hpA]
        rfl
      have hstB : ((h.switchesOver (ok false && ok true)).snaps (ok false) (ok true) fa fb la lb ha hb).saf.b.st = h.saf.b.st := by
        show SafCh.st (State.ch _ true) = (h.ch true).st
        rw [hchB, if_pos hB, hpB]
        rfl
      rw [State.safRun, hstA, hstB, State.safRun]
    rw [State.safOut, houts hruns, ← State.safOut]
  | false =>
    have hoff : (((h.switchesOver (ok false && ok true)).snaps (ok false) (ok true) fa fb la lb ha hb).safOut k).on = false := by
      rw [hquiet.safOut, hgoes, hrun, Bool.and_false]
    rw [hoff]
    exact Bool.eq_false_iff.mpr fun h => absurd (hnot k h) (by simp [hoff])

/-- A tick that a channel discards switches no output on. -/
theorem State.ticked_on_of_one (h : State) {ok : Bool → Bool} (hone : ok false = false ∨ ok true = false) (fa fb la lb ha hb : Nat)
    {k : Nat} (hon : ((h.ticked ok fa fb la lb ha hb).safOut k).on = true) : (h.safOut k).on = true := by
  obtain ⟨-, -, -, -, hgoes⟩ := h.switchesOver_spec (ok false && ok true)
  obtain ⟨hquiet, -⟩ := (h.switchesOver (ok false && ok true)).snaps_spec (ok false) (ok true) fa fb la lb ha hb
  obtain ⟨-, hnot, -⟩ := State.entersRun_spec ((h.switchesOver (ok false && ok true)).snaps (ok false) (ok true) fa fb la lb ha hb) ok
  have hboth : (ok false && ok true) = false := by
    obtain h | h := hone <;> simp [h]
  unfold State.ticked at hon
  split at hon
  · exact hon
  · have hstill := hnot k hon
    rw [hquiet.safOut, hgoes] at hstill
    split at hstill
    · rw [State.goesOn, hboth, Bool.or_false] at hstill
      exact (Bool.and_eq_true_iff.mp hstill).2
    · exact hstill

/-! ## The tick from the state in which it is sent -/

/-- The tick has been sent, and no channel has heard it. -/
def State.tickOut (s : State) : State := s.tickSent.emit (.tick s.mt)

/-- What a channel that hears the tick is afterwards. -/
theorem State.tickHeard_ch (b : State) (x : Bool) :
    ((b.ch x).hears = false → b.tickHeard.ch x = b.ch x) ∧
    ((b.ch x).hears = true → ∃ st, b.tickHeard.ch x = { (b.ch x).heard b.raw b.saf.sps.isSome with st := st } ∧
      ((b.ch x).tickFits b.raw = true → st = (b.ch x).st) ∧
      ((b.ch x).tickFits b.raw = false → 1 ≤ (b.ch x).discards → (b.ch x).st = .run → st = .lockout)) :=
  b.tickOut.bothHear_ch x

theorem State.tickHeard_inCycle (b : State) : b.tickOut.InCycle b.tickHeard := b.tickOut.bothHear_inCycle

theorem State.tickHeard_out (b : State) : .tick b.mt ∈ b.tickHeard.out := b.tickHeard_inCycle.out List.mem_cons_self

theorem State.tickHeard_of_accepts {b : State} (hA : b.accepts false = true) (hB : b.accepts true = true) (k : Nat) :
    b.tickHeard.safOut k = b.safOut k ∧ b.tickHeard.safRun = b.safRun := by
  obtain ⟨hquiet, hrun⟩ := State.bothHear_of_accepts (s := b.tickOut) hA hB
  exact ⟨hquiet.safOut k, hrun⟩

theorem State.tickHeard_on {b : State} {k : Nat} (hon : (b.tickHeard.safOut k).on = true) : (b.safOut k).on = true :=
  b.tickOut.bothHear_on hon

/-- The cycle after a tick that a channel accepts. -/
theorem State.tickHeard_cycle (b : State) :
    b.tickHeard.saf.sentRaw = b.raw ∧ b.tickHeard.saf.tickRaw = b.saf.tickRaw ∧ b.tickHeard.saf.tickMt = b.saf.tickMt ∧
      b.tickHeard.saf.cycles = b.saf.cycles ∧ b.tickHeard.saf.sps = b.saf.sps := by
  have h := b.tickHeard_inCycle.cycle
  simp only [Safety.cycle, Prod.mk.injEq] at h
  obtain ⟨hsent, htickRaw, htickMt, -, hcycles, -, hsps⟩ := h
  exact ⟨hsent, htickRaw, htickMt, hcycles, hsps⟩

/-- A channel after the whole tick. -/
structure State.AfterTick (b : State) (x : Bool) (fb : Nat) (d : SafCh) : Prop where
  measured : (b.ch x).hears = true → d.lastTick = some b.raw ∧ d.tickOk = b.accepts x
  deaf : (b.ch x).hears = false → d.lastTick = (b.ch x).lastTick
  lockout : (b.ch x).hears = true → b.accepts x = false → 1 ≤ (b.ch x).discards → (b.ch x).st = .run → d.st = .lockout
  snapshot : b.accepts x = true → d.snap = (b.ch x).levels b.core ∧ d.prevSnap = (b.ch x).snap ∧ d.snapFb = fb ∧ d.gotSnap = false ∧
    d.gotRes = false ∧ ((b.ch x).st = .off → b.saf.sps.isSome = true → 1 ≤ (b.ch x).ticks → (b.ch x).selftest = false → d.st = .run)

theorem State.tick_ch (b : State) (fa fb la lb ha hb : Nat) (x : Bool) :
    b.AfterTick x (if x then fb else fa) ((b.tickHeard.ticked b.accepts fa fb la lb ha hb).ch x) := by
  obtain ⟨hdeaf, hhears⟩ := b.tickHeard_ch x
  obtain ⟨st, p, i, hw, hkeep, hruns⟩ := b.tickHeard.ticked_ch b.accepts fa fb la lb ha hb x
  obtain ⟨-, -, -, -, hsps⟩ := b.tickHeard_cycle
  have hcore : b.tickHeard.core = b.core := b.tickHeard_inCycle.core
  rw [hw]
  refine ⟨fun h => ?_, fun h => ?_, fun h hdiscarded hdiscards hrun => ?_, fun hok => ?_⟩
  · obtain ⟨st', hch, -⟩ := hhears h
    rw [hch]
    have hfits : b.accepts x = (b.ch x).tickFits b.raw := by rw [State.accepts, h, Bool.true_and]
    rw [hfits]
    split <;> exact ⟨rfl, rfl⟩
  · rw [hdeaf h]
    split <;> rfl
  · obtain ⟨st', hch, -, hlockout⟩ := hhears h
    have hfits : (b.ch x).tickFits b.raw = false := by rw [← hdiscarded, State.accepts, h, Bool.true_and]
    have hst : (b.tickHeard.ch x).st = .lockout := by
      rw [hch]
      exact hlockout hfits hdiscards hrun
    refine (hkeep ?_ (by rw [hst]; decide)).trans hst
    rw [hch]
    simp [SafCh.clean, SafCh.heard, hfits]
  · obtain ⟨h, hfits⟩ := Bool.and_eq_true_iff.mp hok
    obtain ⟨st', hch, hsame, -⟩ := hhears h
    rw [if_pos hok, hcore, hch]
    refine ⟨rfl, rfl, rfl, rfl, rfl, fun hoff hset hticks htest => hruns hok ?_ (hsps ▸ hset) ?_ ?_⟩
    · rw [hch]
      exact (hsame hfits).trans hoff
    · rw [hch]
      simp only [SafCh.heard, hfits, hset, and_self, if_true]
      omega
    · rw [hch]
      exact htest

section
variable {s : State} {t : Nat}

/-- The clause of a tick that is sent. -/
theorem execSafetyTick_sent (hup : (s.before t).up = true) (hdue : (s.before t).tickDue = true) (fa fb la lb ha hb : Nat) :
    let b := s.before t
    ∃ w, exec (.safetyTick t fa fb la lb ha hb) s = .next (ends s t w) ∧ .tick b.mt ∈ w.out ∧ w.saf.sentRaw = b.raw ∧
      (∀ x, b.AfterTick x (if x then fb else fa) (w.ch x)) ∧
      (b.accepts false = true ∨ b.accepts true = true → w.saf.tickRaw = b.raw ∧ w.saf.tickMt = b.mt ∧ w.saf.prevMt = b.saf.tickMt ∧
        w.saf.cycles = (b.saf.cycles + 1) % 2 ^ 16 ∧ w.saf.evaluated = false) ∧
      (b.accepts false = true → b.accepts true = true → ∀ k, k < 8 →
        (w.safOut k).on = ((b.safOut k).want && !(b.safOut k).locked && b.safRun)) ∧
      (b.accepts false = false ∨ b.accepts true = false → ∀ k, (w.safOut k).on = true → (b.safOut k).on = true) ∧
      (b.accepts false = false → b.accepts true = false → w.saf.tickRaw = b.saf.tickRaw ∧ w.saf.cycles = b.saf.cycles) := by
  intro b
  obtain ⟨hsent, htickRaw, htickMt, hcycles, -⟩ := b.tickHeard_cycle
  refine ⟨_, execSafetyTick_due hup hdue fa fb la lb ha hb, State.ticked_out _ _ _ _ _ _ _ _ b.tickHeard_out, ?_,
    b.tick_ch fa fb la lb ha hb, fun hok => ?_, fun hA hB k hk => ?_, fun hone k hon => ?_, fun hA hB => ?_⟩
  · by_cases hok : b.accepts false = true ∨ b.accepts true = true
    · have hcycle := b.tickHeard.ticked_cycle hok fa fb la lb ha hb
      exact (congrArg Prod.fst hcycle).trans hsent
    · rw [not_or, Bool.not_eq_true, Bool.not_eq_true] at hok
      rw [b.tickHeard.ticked_of_discarded hok.1 hok.2]
      exact hsent
  · have hcycle := b.tickHeard.ticked_cycle hok fa fb la lb ha hb
    have hraw : b.tickHeard.raw = b.raw := b.tickHeard_inCycle.raw
    have hmt : b.tickHeard.mt = b.mt := b.tickHeard_inCycle.mt
    simp only [Safety.cycle, Prod.mk.injEq, hraw, hmt, htickMt, hcycles] at hcycle
    obtain ⟨-, h1, h2, h3, h4, h5, -⟩ := hcycle
    exact ⟨h1, h2, h3, h4, h5⟩
  · obtain ⟨hout, hrun⟩ := State.tickHeard_of_accepts hA hB k
    rw [State.ticked_on_of_both _ hA hB _ _ _ _ _ _ hk, hout, hrun]
  · exact State.tickHeard_on (State.ticked_on_of_one _ hone _ _ _ _ _ _ hon)
  · rw [b.tickHeard.ticked_of_discarded hA hB]
    exact ⟨htickRaw, hcycles⟩

/-- The clause of a snapshot that is taken. -/
theorem execPeerSnapshot_evaluates {chB : Bool} (hrun : ((s.before t).ch chB).st = .run) (hpeer : ((s.before t).ch (!chB)).st ≠ .off)
    (hsnap : ((s.before t).ch chB).gotSnap = false) : let b := s.before t
    ∃ w, exec (.peerSnapshot t chB) s = .next (ends s t w) ∧ w.saf.evaluated = true ∧ (w.ch chB).gotSnap = true ∧
      w.ch (!chB) = b.ch (!chB) ∧
      (b.saf.evaluated = true → w = { b.modCh chB fun c => { c with gotSnap := true } with asy := w.asy }) ∧
      (b.saf.evaluated = false → ∀ k, k < 8 → w.outUsed k = true → (w.safOut k).want = true → w.MayClose k) := by
  intro b
  refine ⟨_, execPeerSnapshot_taken hrun hpeer hsnap, ?_⟩
  have hsame : (b.snapCame chB).ch chB = { b.ch chB with gotSnap := true } := b.modCh_ch_same chB _
  have hother : (b.snapCame chB).ch (!chB) = b.ch (!chB) := b.modCh_ch_other chB _
  have hdone : (b.snapCame chB).saf.evaluated = b.saf.evaluated := b.snapCame_evaluated chB
  cases heval : b.saf.evaluated with
  | true =>
    rw [show State.saf (State.snapCame b chB) = (b.snapCame chB).saf from rfl, hdone, heval, if_pos rfl]
    obtain ⟨a, ha⟩ := (b.snapCame chB).raiseEval_only chB
    rw [ha]
    refine ⟨hdone.trans heval, ?_, hother, fun _ => rfl, fun h => absurd h (by decide)⟩
    show ((b.snapCame chB).ch chB).gotSnap = true
    rw [hsame]
  | false =>
    rw [hdone, heval, if_neg (by decide)]
    obtain ⟨honly, hmay⟩ := (b.snapCame chB).evaluate_spec
    obtain ⟨a, ha⟩ := (b.snapCame chB).evaluate.raiseEval_only chB
    rw [ha]
    refine ⟨honly.evaluated, ?_, (honly.ch (!chB)).trans hother, fun h => absurd h (by decide), fun _ => hmay⟩
    show ((b.snapCame chB).evaluate.ch chB).gotSnap = true
    rw [honly.ch]
    show ((b.snapCame chB).ch chB).gotSnap = true
    rw [hsame]

/-- The clause of a delay of STOP1 that expires. -/
theorem execStop1DelayExpiry_demands {fn : Nat} (hst : ((s.before t).safFn fn).st = .delay) (hleft : ((s.before t).safFn fn).left ≤ 1)
    (heval : (s.before t).saf.evaluated = false) : let b := s.before t
    ∃ w, exec (.stop1DelayExpiry t fn) s = .next (ends s t w) ∧
      w.safFn fn = { b.safFn fn with st := .demand, left := 0, expired := true } ∧
      (∀ k, k < 8 → bit (b.fnByte fn 2) k = true → (w.safOut k).want = false) ∧ ∀ k, (w.safOut k).on = (b.safOut k).on := by
  intro b
  have hsaf := b.expires_saf fn
  have hbyte : (b.expires fn).fnByte fn 2 = b.fnByte fn 2 := by
    rw [State.fnByte, State.spsFld, hsaf]
    rfl
  refine ⟨_, execStop1DelayExpiry_due hst hleft heval, ?_, fun k hk hbit => ?_, fun k => ?_⟩
  · rw [State.safFn, State.unwant_fns, show State.saf (State.expires b fn) = _ from hsaf]
    exact SMap.get_put_same ..
  · rw [State.unwant_safOut, if_pos]
    rw [List.mem_filter, List.mem_range]
    exact ⟨hk, (congrArg (bit · k) hbyte).trans hbit⟩
  · rw [State.unwant_safOut]
    split
    · show ((b.expires fn).safOut k).on = _
      rw [b.expires_safOut]
    · exact congrArg SafOut.on (b.expires_safOut fn k)

end

/-- Settles O56: the tick in its stages, the evaluation once, and the expiry of STOP1. -/
theorem theSafetyCycleSwitchesOutputs : Obligations.TheSafetyCycleSwitchesOutputs := by
  unfold Obligations.TheSafetyCycleSwitchesOutputs
  intro s t b
  refine ⟨fun fa fb la lb ha hb h => execSafetyTick_none h fa fb la lb ha hb, ?sent, fun chB h => execPeerSnapshot_none h,
    fun chB hrun hpeer hsnap => execPeerSnapshot_evaluates hrun hpeer hsnap, fun fn => ⟨?_, execStop1DelayExpiry_none⟩⟩
  case sent =>
    intro fa fb la lb ha hb hup hdue ok
    obtain ⟨w, hw, hout, hsent, hch, hrest⟩ := execSafetyTick_sent hup hdue fa fb la lb ha hb
    exact ⟨w, hw, hout, hsent, fun x => ⟨(hch x).measured, (hch x).deaf, (hch x).lockout, (hch x).snapshot⟩, hrest⟩
  · exact fun hst hleft heval => execStop1DelayExpiry_demands hst hleft heval

end Sys2Proof.Machine
end

section
/-! O58: safe units (17 R702 to R707, R709). What a copy of a unit does to its connection is stated apart from its way through the
frame's checks. -/

namespace Sys2Proof.Machine

/-! ## Connections -/

theorem State.modConn_safConn (s : State) (c : Nat) (f : SafConn → SafConn) : (s.modConn c f).safConn c = f (s.safConn c) :=
  SMap.get_put_same ..

/-- How far a copy's SEQ is ahead of the SEQ accepted. -/
def SafConn.ahead (x : SafConn) (seq : Nat) : Nat :=
  match x.rxSeq with
  | some r => (seq + 2 ^ 16 - r) % 2 ^ 16
  | none => 1

theorem State.connBad_connsOf (s : State) (c : Nat) (chB : Bool) : s.ConnsOf (s.connBad c chB) := by
  unfold State.connBad
  exact .ite ⟨_, _, rfl⟩ ⟨_, _, rfl⟩

theorem State.connBad_safConn (s : State) (c : Nat) (chB : Bool) :
    (s.connBad c chB).safConn c = { s.safConn c with bad := ((s.safConn c).bad + 1) % 256 } := by
  unfold State.connBad
  extract_lets v key
  have hv : v.safConn c = { s.safConn c with bad := ((s.safConn c).bad + 1) % 256 } := s.modConn_safConn c _
  split
  · exact hv
  · exact hv

/-- The channel's own copy is noted. -/
def SafConn.noted (x : SafConn) (chB : Bool) (u : List Byte) : SafConn := if chB then { x with gotB := u } else { x with gotA := u }

theorem SafConn.noted_agrees (x : SafConn) (chB : Bool) (u : List Byte) :
    (x.noted chB u).gotA ≠ [] ∧ (x.noted chB u).gotA = (x.noted chB u).gotB ↔ u ≠ [] ∧ (if chB then x.gotA else x.gotB) = u := by
  cases chB with
  | false =>
    show u ≠ [] ∧ u = x.gotB ↔ u ≠ [] ∧ x.gotB = u
    rw [eq_comm (a := u) (b := x.gotB)]
  | true =>
    show x.gotA ≠ [] ∧ x.gotA = u ↔ u ≠ [] ∧ x.gotA = u
    constructor
    · rintro ⟨h, rfl⟩
      exact ⟨h, rfl⟩
    · rintro ⟨h, rfl⟩
      exact ⟨h, rfl⟩

/-- A copy that passes its checks has a body. -/
theorem State.unitOk_body {s : State} {c : Nat} {chB : Bool} {p : List Byte} (h : s.unitOk c chB p = true) : unitBody chB (p.take 28) ≠ [] := by
  unfold State.unitOk at h
  rw [Bool.and_eq_true, Bool.and_eq_true] at h
  obtain ⟨⟨-, hbit⟩, -⟩ := h
  cases p with
  | nil => exact absurd hbit (by decide)
  | cons a r => cases chB <;> simp [unitBody]

/-- What a channel's copy of a node's unit does to its connection. -/
theorem State.takeUnit_spec (s : State) (c : Nat) (chB : Bool) (p : List Byte) :
    let x := s.safConn c; let u := unitBody chB (p.take 28); let w := s.takeUnit c chB p
    s.ConnsOf w ∧
      (s.unitOk c chB p = false → w.safConn c = { x with bad := (x.bad + 1) % 256 }) ∧
      (s.unitOk c chB p = true → x.ahead (fld p 2 2) = 0 → w.safConn c = x) ∧
      (s.unitOk c chB p = true → 255 < x.ahead (fld p 2 2) → w.safConn c = { x with bad := (x.bad + 1) % 256 }) ∧
      (s.unitOk c chB p = true → 0 < x.ahead (fld p 2 2) → x.ahead (fld p 2 2) ≤ 255 →
        ((if chB then x.gotA else x.gotB) = u →
          (w.safConn c).accepted = some (u, false) ∧ (w.safConn c).rxSeq = some (fld u 2 2) ∧ (w.safConn c).rxMt = fld u 4 8) ∧
        ((if chB then x.gotA else x.gotB) ≠ u → w.safConn c = x.noted chB u)) := by
  intro x u w
  have hw : w = if (!s.unitOk c chB p) = true then s.connBad c chB else if x.ahead (fld p 2 2) = 0 then s
      else if 255 < x.ahead (fld p 2 2) then s.connBad c chB
      else if ((s.modConn c fun x => x.noted chB u).safConn c).gotA ≠ [] ∧ ((s.modConn c fun x => x.noted chB u).safConn c).gotA =
        ((s.modConn c fun x => x.noted chB u).safConn c).gotB then (s.modConn c fun x => x.noted chB u).acceptUnit c u false
      else s.modConn c fun x => x.noted chB u := rfl
  clear_value w
  have hnoted := s.modConn_safConn c fun x => x.noted chB u
  rw [hnoted] at hw
  have hagrees := (s.safConn c).noted_agrees chB u
  refine ⟨?_, fun hbad => ?_, fun hok hsame => ?_, fun hok hfar => ?_, fun hok hnew hnear => ⟨fun hagree => ?_, fun hdiffer => ?_⟩⟩
  · rw [hw]
    exact .ite (s.connBad_connsOf c chB) (.ite (.refl s) (.ite (s.connBad_connsOf c chB) (.ite ⟨_, _, rfl⟩ ⟨_, _, rfl⟩)))
  · rw [hw, if_pos (by simp [hbad]), s.connBad_safConn]
  · rw [hw, if_neg (by simp [hok]), if_pos hsame]
  · rw [hw, if_neg (by simp [hok]), if_neg (by omega), if_pos hfar, s.connBad_safConn]
  · rw [hw, if_neg (by simp [hok]), if_neg (by omega), if_neg (by omega), if_pos (hagrees.mpr ⟨State.unitOk_body hok, hagree⟩), State.acceptUnit,
      State.modConn_safConn]
    exact ⟨rfl, rfl, rfl⟩
  · rw [hw, if_neg (by simp [hok]), if_neg (by omega), if_neg (by omega), if_neg fun h => hdiffer (hagrees.mp h).2]
    exact hnoted

/-! ## The frame's checks (R347, R354, R703) -/

/-- The copy passes R347 in the slot of entry `e` of segment cycle `cyc`. -/
def State.sfOk (s : State) (k cyc e : Nat) (chB : Bool) (start : Nat) (f : List Byte) : Bool :=
  s.copyOk k cyc e chB start f && decide (byteAt f 1 = schSender (s.sched k e)) && decide (f.length = 42) &&
    !(if chB then (s.node k (schSender (s.sched k e))).badB else (s.node k (schSender (s.sched k e))).badA)

theorem State.sfOk_iff (s : State) (k cyc e : Nat) (chB : Bool) (start : Nat) (f : List Byte) : s.sfOk k cyc e chB start f = true ↔
    s.copyOk k cyc e chB start f = true ∧ byteAt f 1 = schSender (s.sched k e) ∧ f.length = 42 ∧
      (if chB then (s.node k (schSender (s.sched k e))).badB else (s.node k (schSender (s.sched k e))).badA) = false := by
  simp only [State.sfOk, Bool.and_eq_true, decide_eq_true_eq, Bool.not_eq_true', and_assoc]

/-- The node is heard on the channel. -/
def State.noteOn (s : State) (k j : Nat) (chB : Bool) : State :=
  if chB then s.modNode k j fun d => { d with onB := true } else s.modNode k j fun d => { d with onA := true }

theorem State.noteOn_node (s : State) (k j : Nat) (chB : Bool) : (s.noteOn k j chB).node k j =
    if chB then { s.node k j with onB := true } else { s.node k j with onA := true } := by
  unfold State.noteOn
  cases chB
  · simp only [Bool.false_eq_true, if_false]
    exact s.modNode_node_same k j _
  · simp only [if_true]
    exact s.modNode_node_same k j _

theorem State.noteOn_saf (s : State) (k j : Nat) (chB : Bool) : (s.noteOn k j chB).saf = s.saf := by
  cases chB <;> rfl

/-- A good copy at its channel. -/
def State.deliver (s : State) (k e : Nat) (chB : Bool) (p : List Byte) : State :=
  if (s.ch chB).st = .off ∨ (s.ch chB).linkDown = true then s
  else if schSender (s.sched k e) = 0 then
    match s.connAt k e with
    | some c => if s.following ∧ fld p 28 4 = unitCheck chB (s.connFld c 4 4) (p.take 28) then
        s.modConn c fun x => { x with txSeq := fld p 2 2 } else s
    | none => s
  else
    match s.connOf k (schSender (s.sched k e)) with
    | some c => s.takeUnit c chB p
    | none => s

theorem State.deliver_connsOf (s : State) (k e : Nat) (chB : Bool) (p : List Byte) : s.ConnsOf (s.deliver k e chB p) := by
  unfold State.deliver
  refine .ite (.refl s) (.ite ?_ ?_)
  · split
    · exact .ite ⟨_, _, rfl⟩ (.refl s)
    · exact .refl s
  · split
    · exact (s.takeUnit_spec _ chB p).1
    · exact .refl s

/-- A safe-frame copy in its slot. -/
def State.sfHeard (s : State) (k cyc e : Nat) (chB : Bool) (start : Nat) (f : List Byte) : State :=
  if s.sfOk k cyc e chB start f then (s.noteOn k (schSender (s.sched k e)) chB).deliver k e chB (payloadOf f)
  else s.badCopy k (schSender (s.sched k e)) chB

theorem State.noteOn_deliver (s : State) (k e : Nat) (chB : Bool) (p : List Byte) : (s.noteOn k (schSender (s.sched k e)) chB).deliver k e chB p =
    let v := s.noteOn k (schSender (s.sched k e)) chB
    if (s.ch chB).st = .off ∨ (s.ch chB).linkDown = true then v
    else if schSender (s.sched k e) = 0 then
      match s.connAt k e with
      | some c => if s.following ∧ fld p 28 4 = unitCheck chB (s.connFld c 4 4) (p.take 28) then
          v.modConn c fun x => { x with txSeq := fld p 2 2 } else v
      | none => v
    else
      match s.connOf k (schSender (s.sched k e)) with
      | some c => v.takeUnit c chB p
      | none => v := by
  cases chB <;> rfl

section
variable {s : State} {t seg : Nat} {chB : Bool} {start : Nat} {frame : List Byte} {cyc e : Nat}

theorem execSfReceived_heard (hrun : (s.before t).segRuns seg = true) (hhears : (s.before t).hears seg chB = true)
    (hslot : ((s.before t).entryAt seg chB start fun w => decide (schType w = 4)) = some (cyc, e)) :
    ∃ o, exec (.sfReceived t seg chB start frame) s = .next (ends s t (((s.before t).withOut o).sfHeard seg cyc e chB start frame)) := by
  obtain ⟨o, ho⟩ := (s.before t).passOn_only seg chB frame
  refine ⟨o, ?_⟩
  show execSfReceived t seg chB start frame s = _
  refine does_of_effect ?_
  dsimp only
  rw [ho]
  have hruns : ((s.before t).withOut o).segRuns seg = true := hrun
  have hslots : (((s.before t).withOut o).entryAt seg chB start fun w => decide (schType w = 4)) = some (cyc, e) := hslot
  rw [if_neg (by rw [hruns, State.withOut_hears, hhears]; decide), hslots, State.sfHeard, State.noteOn_deliver]
  cases chB <;> rfl

theorem execSfReceived_none (h : (s.before t).segRuns seg = false ∨ (s.before t).hears seg chB = false ∨
    ((s.before t).entryAt seg chB start fun w => decide (schType w = 4)) = none) :
    exec (.sfReceived t seg chB start frame) s = .next (ends s t ((s.before t).passOn seg chB frame)) := by
  obtain ⟨o, ho⟩ := (s.before t).passOn_only seg chB frame
  show execSfReceived t seg chB start frame s = _
  refine does_of_effect ?_
  dsimp only
  rw [ho]
  by_cases hdeaf : (s.before t).segRuns seg = true ∧ (s.before t).hears seg chB = true
  · obtain ⟨hrun, hhears⟩ := hdeaf
    have hnone : ((s.before t).entryAt seg chB start fun w => decide (schType w = 4)) = none := by simpa [hrun, hhears] using h
    have hslots : (((s.before t).withOut o).entryAt seg chB start fun w => decide (schType w = 4)) = none := hnone
    rw [hslots, ite_self]
  · have hdeaf' : (!((s.before t).withOut o).segRuns seg || !((s.before t).withOut o).hears seg chB) = true := by
      show (!(s.before t).segRuns seg || !(s.before t).hears seg chB) = true
      rw [not_and_or, Bool.not_eq_true, Bool.not_eq_true] at hdeaf
      obtain h | h := hdeaf <;> simp [h]
    rw [if_pos hdeaf']

end

/-- A bad copy is counted. -/
theorem State.badCopy_node (s : State) {k j : Nat} (chB : Bool) (h1 : 1 ≤ j) (h40 : j ≤ 40) : (s.badCopy k j chB).node k j =
    if chB then { s.node k j with bBad := ((s.node k j).bBad + 1) % 256 } else { s.node k j with aBad := ((s.node k j).aBad + 1) % 256 } := by
  rw [State.badCopy, if_pos ⟨h1, h40⟩, State.modNode_node_same]

theorem State.badCopy_saf (s : State) (k j : Nat) (chB : Bool) : (s.badCopy k j chB).saf = s.saf := by
  unfold State.badCopy
  split <;> rfl

/-- What a safe-frame copy in its slot does: a bad one is counted, a good one is noted and goes to its channel. -/
theorem State.sfHeard_spec (s : State) (k cyc e : Nat) (chB : Bool) (start : Nat) (f : List Byte) :
    let j := schSender (s.sched k e); let p := payloadOf f; let w := s.sfHeard k cyc e chB start f
    w.saf.outs = s.saf.outs ∧
      (s.sfOk k cyc e chB start f = false → w.saf = s.saf ∧ (1 ≤ j → j ≤ 40 → w.node k j =
        if chB then { s.node k j with bBad := ((s.node k j).bBad + 1) % 256 } else { s.node k j with aBad := ((s.node k j).aBad + 1) % 256 })) ∧
      (s.sfOk k cyc e chB start f = true →
        w.node k j = (if chB then { s.node k j with onB := true } else { s.node k j with onA := true }) ∧
        ((s.ch chB).st = .off ∨ (s.ch chB).linkDown = true → w.saf = s.saf) ∧
        ((s.ch chB).st ≠ .off → (s.ch chB).linkDown = false →
          (∀ c, j = 0 → s.following = true → s.connAt k e = some c → fld p 28 4 = unitCheck chB (s.connFld c 4 4) (p.take 28) →
            w.safConn c = { s.safConn c with txSeq := fld p 2 2 }) ∧
          (j ≠ 0 → s.connOf k j = none → w.saf = s.saf) ∧
          (∀ c, j ≠ 0 → s.connOf k j = some c → w = (s.noteOn k j chB).takeUnit c chB p))) := by
  intro j p w
  cases hok : s.sfOk k cyc e chB start f with
  | false =>
    have hw : w = s.badCopy k j chB := if_neg (by simp [hok])
    rw [hw]
    exact ⟨congrArg Safety.outs (s.badCopy_saf k j chB), fun _ => ⟨s.badCopy_saf k j chB, fun h1 h40 => s.badCopy_node chB h1 h40⟩,
      fun h => absurd h (by decide)⟩
  | true =>
    have hw : w = (s.noteOn k j chB).deliver k e chB p := if_pos hok
    obtain ⟨a, l, hconns⟩ := (s.noteOn k j chB).deliver_connsOf k e chB p
    have hsaf := s.noteOn_saf k j chB
    refine ⟨?_, fun h => absurd h (by decide), fun _ => ⟨?_, fun hdead => ?_, fun hlive hup => ?_⟩⟩
    · rw [hw, hconns]
      show (s.noteOn k j chB).saf.outs = _
      rw [hsaf]
    · rw [hw, hconns]
      exact s.noteOn_node k j chB
    · rw [hw, s.noteOn_deliver]
      dsimp only
      rw [if_pos hdead, hsaf]
    · have hon : w = if j = 0 then
          match s.connAt k e with
          | some c => if s.following ∧ fld p 28 4 = unitCheck chB (s.connFld c 4 4) (p.take 28) then
              (s.noteOn k j chB).modConn c fun x => { x with txSeq := fld p 2 2 } else s.noteOn k j chB
          | none => s.noteOn k j chB
        else
          match s.connOf k j with
          | some c => (s.noteOn k j chB).takeUnit c chB p
          | none => s.noteOn k j chB := by
        rw [hw, s.noteOn_deliver]
        exact if_neg (by simp [hlive, hup])
      refine ⟨fun c hj hfollows hconn hcheck => ?_, fun hj hconn => ?_, fun c hj hconn => ?_⟩
      · rw [hon, if_pos hj, hconn]
        dsimp only
        rw [if_pos ⟨hfollows, hcheck⟩, State.modConn_safConn, State.safConn, hsaf, State.safConn]
      · rw [hon, if_neg hj, hconn, ← hsaf]
      · rw [hon, if_neg hj, hconn]

/-! ## What ends (R706, R707) -/

section
variable {s : State} {t c : Nat}

theorem execSafConnLost_lost (hused : (s.before t).connUsed c = true) (hst : ((s.before t).safConn c).st ≠ .lost)
    (hold : ((s.before t).safConn c).rxMt + (s.before t).connWd c < (s.before t).saf.tickMt) :
    ∃ w, exec (.safConnLost t c) s = .next (ends s t w) ∧
      w.safConn c = { (s.before t).safConn c with st := .lost, bits := 0 } ∧ w.saf.outs = (s.before t).saf.outs := by
  have hsaf := ((s.before t).modConn c fun x => { x with st := .lost, bits := 0 }).safBoth_saf 0xC8 c
  refine ⟨((s.before t).modConn c fun x => { x with st := .lost, bits := 0 }).safBoth 0xC8 c, ?_, ?_, ?_⟩
  · show execSafConnLost t c s = _
    exact does_of_effect (if_pos ⟨hused, hst, hold⟩)
  · rw [State.safConn, hsaf]
    exact (s.before t).modConn_safConn c _
  · rw [hsaf]
    rfl

theorem execSafConnLost_none (h : (s.before t).connUsed c = false ∨ ((s.before t).safConn c).st = .lost ∨
    (s.before t).saf.tickMt ≤ ((s.before t).safConn c).rxMt + (s.before t).connWd c) :
    exec (.safConnLost t c) s = .next (ends s t (s.before t)) := by
  show execSafConnLost t c s = _
  refine does_of_effect (if_neg ?_)
  rintro ⟨hused, hst, hold⟩
  obtain hnot | hlost | hyoung := h
  · exact absurd hused (ne_true_of_eq_false hnot)
  · exact hst hlost
  · exact absurd hold (Nat.not_lt.mpr hyoung)

theorem execSingleTimeExpiry_over (hst : ((s.before t).safConn c).st = .single) (hrefused : (s.before t).singleRefused c = true) :
    ∃ w, exec (.singleTimeExpiry t c) s = .next (ends s t w) ∧
      w.safConn c = { (s.before t).safConn c with singleOver := true } ∧ w = { s.before t with saf := w.saf } := by
  refine ⟨(s.before t).modConn c fun x => { x with singleOver := true }, ?_, (s.before t).modConn_safConn c _, rfl⟩
  show execSingleTimeExpiry t c s = _
  exact does_of_effect (if_pos ⟨hst, hrefused⟩)

theorem execSingleTimeExpiry_none (h : ((s.before t).safConn c).st ≠ .single ∨ (s.before t).singleRefused c = false) :
    exec (.singleTimeExpiry t c) s = .next (ends s t (s.before t)) := by
  show execSingleTimeExpiry t c s = _
  refine does_of_effect (if_neg ?_)
  rintro ⟨hst, hrefused⟩
  exact h.elim (· hst) fun h => absurd hrefused (ne_true_of_eq_false h)

end

/-- Settles O58: the frame's checks, then the unit's, then the two copies. -/
theorem safeUnitsAreAcceptedInPairs : Obligations.SafeUnitsAreAcceptedInPairs := by
  unfold Obligations.SafeUnitsAreAcceptedInPairs
  intro s t c b x
  refine ⟨?heard, ?unheard, execSafConnLost_lost, execSafConnLost_none, execSingleTimeExpiry_over, execSingleTimeExpiry_none⟩
  case heard =>
    intro seg chB start frame cyc e j d p u good takes ahead hrun hhears hslot
    obtain ⟨o, hexec⟩ := execSfReceived_heard (frame := frame) hrun hhears hslot
    obtain ⟨houts, hbad, hgood⟩ := (b.withOut o).sfHeard_spec seg cyc e chB start frame
    have hok : good ↔ (b.withOut o).sfOk seg cyc e chB start frame = true := (b.sfOk_iff seg cyc e chB start frame).symm
    refine ⟨_, hexec, houts, fun h => hbad (Bool.eq_false_iff.mpr fun h' => h (hok.mpr h')), fun h => (hgood (hok.mp h)).1, fun h hdead => ?_,
      fun h htakes => ?_, fun h htakes => ?_, fun h htakes hj hconn => ?_⟩
    · obtain ⟨-, hkeep, -⟩ := hgood (hok.mp h)
      refine hkeep ?_
      show (b.ch chB).st = .off ∨ (b.ch chB).linkDown = true
      rwa [not_and_or, not_not, Bool.not_eq_false] at hdead
    · obtain ⟨-, -, hlive⟩ := hgood (hok.mp h)
      exact (hlive htakes.1 htakes.2).1 c
    · obtain ⟨-, -, hlive⟩ := hgood (hok.mp h)
      exact (hlive htakes.1 htakes.2).2.1
    · obtain ⟨-, -, hlive⟩ := hgood (hok.mp h)
      have hw := (hlive htakes.1 htakes.2).2.2 c hj hconn
      have hsaf : ((b.withOut o).noteOn seg j chB).saf = b.saf := (b.withOut o).noteOn_saf seg j chB
      have hx : ((b.withOut o).noteOn seg j chB).safConn c = x := by
        rw [State.safConn, hsaf]
        rfl
      have hunit : ((b.withOut o).noteOn seg j chB).unitOk c chB p = b.unitOk c chB p := by
        cases chB <;> rfl
      obtain ⟨-, h1, h2, h3, h4⟩ := ((b.withOut o).noteOn seg j chB).takeUnit_spec c chB p
      rw [hx, hunit] at h1 h2 h3 h4
      rw [hw]
      refine ⟨h1, h2, h3, fun hunit' hnew hnear hsame => (h4 hunit' hnew hnear).1 hsame, fun hunit' hnew hnear hdiffer => ?_⟩
      exact (h4 hunit' hnew hnear).2 hdiffer
  case unheard =>
    intro seg chB start frame h
    refine ⟨_, execSfReceived_none h, ?_, fun hrole => State.passOn_of_not_follower hrole ..⟩
    obtain ⟨o, ho⟩ := b.passOn_only seg chB frame
    rw [ho]
    rfl

end Sys2Proof.Machine
end

section
/-! O51: step-pulse channels (12 R502 to R516). What a carry, a boundary and a HALT leave of a channel, each stated once. -/

namespace Sys2Proof.Machine

/-! ## The carry (R506) -/

/-- A channel after the carry of the clock of `now`, where one is due. -/
def StepCh.taken (v : StepCh) (cfg now : Nat) : StepCh :=
  if v.carryDue now then
    { v with e := v.stepped, carriedAt := fbClock now + 1, ab := (v.ab + (if decide (v.down = bit cfg 29) then 1 else 3)) % 4 }
  else v

/-- What an emitted step looks like outside. -/
def StepCh.pulse (v : StepCh) (cfg now ch : Nat) : Out :=
  let up := decide (v.down = bit cfg 29)
  if bits cfg 31 30 = 2 then .quad ch ((v.ab + (if up then 1 else 3)) % 4) else .step ch up (fbClock now + 1) (bits cfg 15 8) (bit cfg 28)

section
variable {s : State} {ch : Nat}

theorem State.takeCarry_due (h : (s.stepCh ch).carryDue s.now = true) : s.takeCarry ch =
    (s.modStep ch fun v => v.taken (s.force (pulOff ch 0)) s.now).emit ((s.stepCh ch).pulse (s.force (pulOff ch 0)) s.now ch) := by
  have htaken : (s.stepCh ch).taken (s.force (pulOff ch 0)) s.now = _ := if_pos h
  unfold State.takeCarry
  rw [State.modStep, htaken]
  exact if_pos h

theorem State.takeCarry_none (h : (s.stepCh ch).carryDue s.now = false) : s.takeCarry ch = s := if_neg (by simp [h])

end

/-- `w` is `s` but for the step channels and what was sent. -/
def State.Steps (s w : State) : Prop := ∃ l o, w = { s with pul := l, out := o }

theorem State.takeCarry_steps (s : State) (ch : Nat) : s.Steps (s.takeCarry ch) := by
  cases h : (s.stepCh ch).carryDue s.now with
  | true => rw [State.takeCarry_due h]; exact ⟨_, _, rfl⟩
  | false => rw [State.takeCarry_none h]; exact ⟨_, _, rfl⟩

theorem State.takeCarry_stepCh (s : State) (ch : Nat) :
    (s.takeCarry ch).stepCh ch = (s.stepCh ch).taken (s.force (pulOff ch 0)) s.now ∧
      ∀ k, k ≠ ch → (s.takeCarry ch).stepCh k = s.stepCh k := by
  cases h : (s.stepCh ch).carryDue s.now with
  | true =>
    rw [State.takeCarry_due h]
    exact ⟨s.modStep_stepCh_same ch _, fun k hk => s.modStep_stepCh_ne ch _ hk⟩
  | false =>
    rw [State.takeCarry_none h, StepCh.taken, if_neg (by simp [h])]
    exact ⟨rfl, fun _ _ => rfl⟩

theorem StepCh.taken_e (v : StepCh) (cfg now : Nat) : (v.taken cfg now).e = if v.carryDue now then v.stepped else v.e := by
  unfold StepCh.taken
  split <;> rfl

/-- The carry moves the count, the times of carries and the edges alone. -/
theorem StepCh.taken_only (v : StepCh) (cfg now : Nat) :
    ∃ n m, v.taken cfg now = { v with e := if v.carryDue now then v.stepped else v.e, carriedAt := n, ab := m } := by
  unfold StepCh.taken
  split <;> exact ⟨_, _, rfl⟩

/-- The carry of a clock is taken once. -/
theorem StepCh.taken_carryDue (v : StepCh) (cfg now : Nat) : (v.taken cfg now).carryDue now = false := by
  unfold StepCh.taken
  split
  · simp [StepCh.carryDue]
  · next h => exact Bool.eq_false_iff.mpr h

/-- Away from the ends of the count a step moves it by one. -/
theorem StepCh.stepped_of_inside {v : StepCh} (hlow : -(2 ^ 63) < v.e) (hhigh : v.e < 2 ^ 63 - 1) :
    v.stepped = if v.down then v.e - 1 else v.e + 1 := by
  rw [StepCh.stepped, satW_eq, clampI]
  split <;> omega

theorem execRateMultiplierCarry_eq (s : State) (t ch : Nat) :
    exec (.rateMultiplierCarry t ch) s = .next (ends s t ((s.before t).takeCarry ch)) := by
  show execRateMultiplierCarry t ch s = _
  exact does_of_effect rfl

/-! ## The boundary (R502, R505 to R511, R513) -/

/-- A channel at the start of a segment cycle, its last carry taken and its counts kept. -/
def State.cycleStart (s : State) (ch : Nat) : StepCh :=
  let c := (s.stepCh ch).taken (s.force (pulOff ch 0)) s.now
  { c with e0 := c.e, e1 := c.e0, boundAt := fbClock s.now + 1, driversOff := s.following || (c.driversOff && s.fenced (srcStep ch)) }

/-- What drives the channel in the segment cycle that starts. -/
def State.nextDrive (s : State) (ch : Nat) (c : StepCh) : StepCh :=
  let cfg := s.force (pulOff ch 0)
  let clocks := clocksOf (s.segL (bits cfg 2 0))
  if s.following then { c with acc := 0, accAt := s.now, w := 0 }
  else if s.haltsNow ch && !s.fenced (srcStep ch) then c
  else if s.stepOpen (512 + ch) then
    { c with acc := c.accNow s.now, accAt := s.now, w := 0, driversOff := c.driversOff || s.fenced (srcStep ch) }
  else if s.fenced (srcStep ch) then c.rateMode cfg clocks (s.vStar (512 + ch)) s.now
  else
    match c.target with
    | some x => c.land cfg clocks x s.now
    | none => c

/-- The segment cycle starts. -/
def State.cycleBegins (s : State) (ch : Nat) : State :=
  let c := s.cycleStart ch
  let n := s.nextDrive ch c
  let v := (((s.takeCarry ch).pushSample (512 + ch) s.mt (some (c.e * 65536))).modStep ch fun _ => n).turnDir ch c.down
  if n.rateLim && !c.rateLim then v.raise (srcStep ch) 0x26 0 [] else v

section
variable {s : State} {t ch : Nat}

theorem execStepBoundary_none (h : bits ((s.before t).force (pulOff ch 0)) 31 30 = 0 ∨ (s.before t).boundaryDue ch = false) :
    exec (.stepBoundary t ch) s = .next (ends s t (s.before t)) := by
  show execStepBoundary t ch s = _
  refine does_of_effect (if_pos ?_)
  obtain h | h := h
  · exact .inl h
  · exact .inr (by simp [h])

theorem execStepBoundary_begins (hmode : bits ((s.before t).force (pulOff ch 0)) 31 30 ≠ 0) (hdue : (s.before t).boundaryDue ch = true) :
    exec (.stepBoundary t ch) s = .next (ends s t ((s.before t).cycleBegins ch)) := by
  obtain ⟨l, o, h⟩ := (s.before t).takeCarry_steps ch
  have htaken := ((s.before t).takeCarry_stepCh ch).1
  show execStepBoundary t ch s = _
  refine does_of_effect ((if_neg (by simp [hmode, hdue])).trans ?_)
  dsimp only
  rw [State.cycleBegins, State.cycleStart, htaken, h]
  rfl

end

theorem State.turnDir_pul (s : State) (ch : Nat) (was : Bool) : (s.turnDir ch was).pul = s.pul := by
  unfold State.turnDir
  dsimp only
  split <;> rfl

/-- The channels after a boundary. -/
theorem State.cycleBegins_stepCh (s : State) (ch : Nat) :
    (s.cycleBegins ch).stepCh ch = s.nextDrive ch (s.cycleStart ch) ∧ ∀ k, k ≠ ch → (s.cycleBegins ch).stepCh k = s.stepCh k := by
  have hpul : (s.cycleBegins ch).pul = (((s.takeCarry ch).pushSample (512 + ch) s.mt (some ((s.cycleStart ch).e * 65536))).modStep ch
      fun _ => s.nextDrive ch (s.cycleStart ch)).pul := by
    unfold State.cycleBegins
    dsimp only
    split
    · exact (State.raise_Desk ..).pul.trans (State.turnDir_pul ..)
    · exact State.turnDir_pul ..
  refine ⟨?_, fun k hk => ?_⟩
  · rw [State.stepCh, hpul]
    exact State.modStep_stepCh_same ..
  · rw [State.stepCh, hpul]
    exact (State.modStep_stepCh_ne _ ch _ hk).trans ((s.takeCarry_stepCh ch).2 k hk)

/-- What drives the channel is no business of its counts. -/
theorem State.nextDrive_counts (s : State) (ch : Nat) (c : StepCh) : (s.nextDrive ch c).e = c.e ∧ (s.nextDrive ch c).e0 = c.e0 ∧
    (s.nextDrive ch c).e1 = c.e1 ∧ (s.nextDrive ch c).boundAt = c.boundAt := by
  unfold State.nextDrive
  extract_lets cfg clocks
  split
  · exact ⟨rfl, rfl, rfl, rfl⟩
  split
  · exact ⟨rfl, rfl, rfl, rfl⟩
  split
  · exact ⟨rfl, rfl, rfl, rfl⟩
  split
  · exact ⟨rfl, rfl, rfl, rfl⟩
  split <;> exact ⟨rfl, rfl, rfl, rfl⟩

section
variable {s : State} {ch : Nat}

theorem State.nextDrive_following (h : s.following = true) (c : StepCh) :
    s.nextDrive ch c = { c with acc := 0, accAt := s.now, w := 0 } := if_pos h

/-- A HALT of the same clock discards the computation (R515). -/
theorem State.nextDrive_halted (hleads : s.following = false) (hhalts : s.haltsNow ch = true) (hfit : s.fenced (srcStep ch) = false)
    (c : StepCh) : s.nextDrive ch c = c := by
  rw [State.nextDrive, if_neg (by simp [hleads]), if_pos (by simp [hhalts, hfit])]

theorem State.nextDrive_open (hleads : s.following = false) (hruns : s.haltsNow ch = false ∨ s.fenced (srcStep ch) = true)
    (hopen : s.stepOpen (512 + ch) = true) (c : StepCh) : (s.nextDrive ch c).w = 0 := by
  have hnot : ¬ (s.haltsNow ch && !s.fenced (srcStep ch)) = true := by
    obtain h | h := hruns <;> simp [h]
  rw [State.nextDrive, if_neg (by simp [hleads]), if_neg hnot, if_pos hopen]

theorem State.nextDrive_fenced (hleads : s.following = false) (hclosed : s.stepOpen (512 + ch) = false)
    (hfenced : s.fenced (srcStep ch) = true) (c : StepCh) : s.nextDrive ch c =
      c.rateMode (s.force (pulOff ch 0)) (clocksOf (s.segL (bits (s.force (pulOff ch 0)) 2 0))) (s.vStar (512 + ch)) s.now := by
  rw [State.nextDrive, if_neg (by simp [hleads]), if_neg (by simp [hfenced]), if_neg (by simp [hclosed]), if_pos hfenced]

theorem State.nextDrive_lands (hleads : s.following = false) (hruns : s.haltsNow ch = false) (hclosed : s.stepOpen (512 + ch) = false)
    (hfit : s.fenced (srcStep ch) = false) {c : StepCh} {x : Int} (htarget : c.target = some x) : s.nextDrive ch c =
      c.land (s.force (pulOff ch 0)) (clocksOf (s.segL (bits (s.force (pulOff ch 0)) 2 0))) x s.now := by
  rw [State.nextDrive, if_neg (by simp [hleads]), if_neg (by simp [hruns]), if_neg (by simp [hclosed]), if_neg (by simp [hfit]), htarget]

/-- The channel at the start of a segment cycle, from the channel before it. -/
theorem State.cycleStart_eq (s : State) (ch : Nat) : ∃ n m d, s.cycleStart ch =
    { s.stepCh ch with
      e := if (s.stepCh ch).carryDue s.now then (s.stepCh ch).stepped else (s.stepCh ch).e
      e0 := if (s.stepCh ch).carryDue s.now then (s.stepCh ch).stepped else (s.stepCh ch).e
      e1 := (s.stepCh ch).e0, boundAt := fbClock s.now + 1, carriedAt := n, ab := m, driversOff := d } ∧
    (s.following = true → d = true) := by
  obtain ⟨n, m, h⟩ := (s.stepCh ch).taken_only (s.force (pulOff ch 0)) s.now
  rw [State.cycleStart, h]
  exact ⟨n, m, _, rfl, fun h => by rw [h, Bool.true_or]⟩

end

/-- The direction of a landing is that of the target. -/
theorem StepCh.land_spec (v : StepCh) (cfg clocks : Nat) (x : Int) (now : Nat) : let z := v.land cfg clocks x now
    z.w ≤ wMax cfg ∧ (v.e < x → z.down = false) ∧ (x < v.e → z.down = true) ∧ (x = v.e → z.down = v.down) := by
  refine ⟨Nat.min_le_right _ _, fun h => ?_, fun h => ?_, fun h => ?_⟩
  · exact if_pos (by omega)
  · exact (if_neg (by omega)).trans (if_pos (by omega))
  · exact (if_neg (by omega)).trans (if_neg (by omega))

/-! ## HALT (R512) -/

/-- A channel that a HALT cuts. -/
def StepCh.cut (c : StepCh) (now : Nat) : StepCh :=
  { c with w := 0, acc := 0, accAt := now, target := some c.e, halted := c.halted || decide (c.w ≠ 0) }

/-- The channel is cut, and its axis takes the emitted count. -/
def State.cutStep (s : State) (ch : Nat) (e : Int) : State :=
  (s.modStep ch fun c => c.cut s.now).modAxis (512 + ch) fun ax => { ax with mo := ax.mo.setGen ⟨e * 2 ^ 48, 0, 0⟩ }

theorem State.cutStep_spec (s : State) (ch : Nat) (e : Int) : (s.cutStep ch e).asy = s.asy ∧
    (s.cutStep ch e).stepCh ch = (s.stepCh ch).cut s.now ∧ ((s.cutStep ch e).axis (512 + ch)).mo.p = e * 2 ^ 48 ∧
    ((s.cutStep ch e).axis (512 + ch)).mo.v = 0 := by
  have hax := State.modAxis_axis_same (s.modStep ch fun c => c.cut s.now) (512 + ch) fun ax =>
    { ax with mo := ax.mo.setGen ⟨e * 2 ^ 48, 0, 0⟩ }
  refine ⟨rfl, s.modStep_stepCh_same ch fun c => c.cut s.now, ?_, ?_⟩
  · rw [State.cutStep, hax]
    rfl
  · rw [State.cutStep, hax]
    rfl

theorem State.haltCut_eq (s : State) (ch : Nat) : s.haltCut ch =
    let v := (s.takeCarry ch).cutStep ch ((s.takeCarry ch).stepCh ch).e
    if ((s.takeCarry ch).stepCh ch).w ≠ 0 then v.raise (srcStep ch) 0x27 0 [] else v := by
  unfold State.haltCut
  extract_lets v c moving w x y
  have hw : w = v.modStep ch fun c => c.cut v.now := by
    show v.modStep ch _ = v.modStep ch _
    rw [State.modStep, State.modStep]
    rfl
  have hx : x = v.cutStep ch (v.stepCh ch).e := by
    show State.modAxis w _ _ = _
    rw [hw]
    rfl
  rw [hx]
  show _ = if (v.stepCh ch).w ≠ 0 then (v.cutStep ch (v.stepCh ch).e).raise (srcStep ch) 0x27 0 [] else v.cutStep ch (v.stepCh ch).e
  by_cases hmoving : (v.stepCh ch).w = 0
  · simp [moving, c, hmoving]
  · simp [moving, c, hmoving]

/-- A HALT takes the carry of its clock, stops the pulses and leaves the axis where they ended. -/
theorem State.haltCut_spec (s : State) (ch : Nat) : let c := (s.stepCh ch).taken (s.force (pulOff ch 0)) s.now
    Grows s (s.haltCut ch) ∧ (s.haltCut ch).stepCh ch = c.cut s.now ∧ ((s.haltCut ch).axis (512 + ch)).mo.p = c.e * 2 ^ 48 ∧
      ((s.haltCut ch).axis (512 + ch)).mo.v = 0 := by
  intro c
  obtain ⟨l, o, h⟩ := s.takeCarry_steps ch
  have hc : (s.takeCarry ch).stepCh ch = c := (s.takeCarry_stepCh ch).1
  have hnow : (s.takeCarry ch).now = s.now := by rw [h]
  obtain ⟨hasy, hstep, hp, hv⟩ := (s.takeCarry ch).cutStep_spec ch ((s.takeCarry ch).stepCh ch).e
  rw [hc] at hstep hp hv hasy
  rw [hnow] at hstep
  have hgrows : Grows s ((s.takeCarry ch).cutStep ch c.e) := .of_asy (by rw [hasy, h])
  rw [s.haltCut_eq, hc]
  dsimp only
  split
  · have hdesk := State.raise_Desk ((s.takeCarry ch).cutStep ch c.e) (srcStep ch) 0x27 0 []
    rw [hdesk.stepCh, hdesk.axis]
    exact ⟨hgrows.trans (State.raise_records ..).toGrows, hstep, hp, hv⟩
  · exact ⟨hgrows, hstep, hp, hv⟩

section
variable {s : State} {t ch : Nat}

theorem execPulHalt_none (h : bits ((s.before t).force (pulOff ch 0)) 31 30 = 0 ∨ (s.before t).fenced (srcStep ch) = true) :
    exec (.pulHalt t ch) s = .next (ends s t (s.before t)) := by
  show execPulHalt t ch s = _
  exact does_of_effect (if_pos h)

theorem execPulHalt_cuts (hmode : bits ((s.before t).force (pulOff ch 0)) 31 30 ≠ 0) (hfit : (s.before t).fenced (srcStep ch) = false) :
    exec (.pulHalt t ch) s = .next (ends s t ((s.before t).haltCut ch)) := by
  show execPulHalt t ch s = _
  exact does_of_effect (if_neg (by simp [hmode, hfit]))

end

/-! ## Parity (R513, R516) -/

theorem State.failUnfence_pul (s : State) (src : Nat) : (s.failUnfence src).pul = s.pul :=
  List.foldlRecOn (motive := fun w : State => w.pul = s.pul) _ _ rfl fun v h c _ => ((v.finish_Desk c.2 stFailedHw (zeros 8)).pul).trans h

theorem State.fence_pul (s : State) (src reason : Nat) : (s.fence src reason).pul = s.pul := by
  unfold State.fence
  split <;> rfl

theorem State.fenceAnew_pul (s : State) (src reason : Nat) : (s.fenceAnew src reason).pul = s.pul := by
  unfold State.fenceAnew State.refence
  split
  · dsimp only
    split <;> exact s.failUnfence_pul src
  · exact (State.fence_pul ..).trans (s.failUnfence_pul src)

/-- The registers of the channel are at fault. -/
def State.stepFails (s : State) (ch : Nat) : State :=
  let d := s.draw
  ((d.2.modStep ch fun c => { c with parity := true, driversOff := c.driversOff || decide (c.w = 0) }).raise (srcStep ch) 0x28 (toU 32 d.1)
    [3, 0, 0xFF, 0xFF]).fenceAnew (srcStep ch) 1

theorem State.stepFails_spec (s : State) (ch : Nat) : ((s.stepFails ch).stepCh ch).parity = true ∧
    ((s.stepFails ch).stepCh ch).e = (s.stepCh ch).e ∧ (s.stepFails ch).fenced (srcStep ch) = true ∧
    ∀ b : State, Grows b s → ∃ m ∈ (s.stepFails ch).asy.held.drop b.asy.held.length, m.src = srcStep ch ∧ m.kind = 0x28 := by
  have hpul : (s.stepFails ch).pul =
      (s.modStep ch fun c => { c with parity := true, driversOff := c.driversOff || decide (c.w = 0) }).pul :=
    (State.fenceAnew_pul ..).trans (State.raise_Desk ..).pul
  have hstep := s.modStep_stepCh_same ch fun c => { c with parity := true, driversOff := c.driversOff || decide (c.w = 0) }
  have hch : (s.stepFails ch).stepCh ch =
      { s.stepCh ch with parity := true, driversOff := (s.stepCh ch).driversOff || decide ((s.stepCh ch).w = 0) } := by
    rw [State.stepCh, hpul]
    exact hstep
  refine ⟨by rw [hch], by rw [hch], State.fenceAnew_fenced _ _ _, fun b hb => ?_⟩
  have hfails : Grows b (s.draw.2.modStep ch fun c => { c with parity := true, driversOff := c.driversOff || decide (c.w = 0) }) :=
    hb.trans (.of_asy rfl)
  exact hfails.raise_new (State.fenceAnew_grows _ _ _)

theorem execPulParity_fails {s : State} {t ch : Nat} (hfit : (s.before t).fenced (srcStep ch) = false) : let b := s.before t
    exec (.pulParity t ch) s = .next (ends s t ((if b.haltsNow ch = true ∧ bits (b.force (pulOff ch 0)) 31 30 ≠ 0 then b.haltCut ch
      else b).stepFails ch)) := by
  intro b
  show execPulParity t ch s = _
  exact does_of_effect (if_neg (by simp [hfit]))

/-- Settles O51: a carry, a boundary, a HALT and a parity error, each from what it leaves of the channel. -/
theorem stepPulsesFollowTheirTarget : Obligations.StepPulsesFollowTheirTarget := by
  unfold Obligations.StepPulsesFollowTheirTarget
  intro s t c b v cfg e up atStart
  refine ⟨fun hdue => ?carries, fun hnone => ?_, StepCh.stepped_of_inside, fun hmode hdue => ?begins, execStepBoundary_none, execPulHalt_none,
    fun hmode hfit => ?halts, fun hfit => ?fails⟩
  case carries =>
    obtain ⟨hstep, hother⟩ := b.takeCarry_stepCh c
    refine ⟨_, execRateMultiplierCarry_eq s t c, hstep.trans (if_pos hdue), ?_, ?_, hother⟩
    · rw [show (s.before t).takeCarry c = _ from State.takeCarry_due hdue]
      rfl
    · rw [show ((s.before t).takeCarry c).stepCh c = _ from hstep]
      exact StepCh.taken_carryDue _ _ _
  case begins =>
    obtain ⟨hstep, hother⟩ := b.cycleBegins_stepCh c
    obtain ⟨n, m, d, hstart, hoff⟩ := b.cycleStart_eq c
    obtain ⟨he, he0, he1, hbound⟩ := b.nextDrive_counts c (b.cycleStart c)
    refine ⟨_, execStepBoundary_begins hmode hdue, ?_⟩
    change (b.cycleBegins c).stepCh c = _ at hstep
    generalize (s.before t).cycleBegins c = w at hstep hother
    rw [hstart] at hstep he he0 he1 hbound
    rw [← hstep] at he he0 he1 hbound
    refine ⟨⟨he, he0, he1, hother⟩, hbound, fun hfollows => ?_, fun hleads hhalts hfit => ?_, fun hleads hruns hopen => ?_,
      fun hleads hclosed hfenced => ?_, fun x hleads hruns hclosed hfit htarget => ?_⟩
    · rw [hstep, State.nextDrive_following hfollows]
      exact ⟨rfl, rfl, hoff hfollows⟩
    · rw [hstep, State.nextDrive_halted hleads hhalts hfit]
      exact ⟨rfl, rfl⟩
    · rw [hstep, State.nextDrive_open hleads hruns hopen]
    · intro vs
      rw [hstep, State.nextDrive_fenced hleads hclosed hfenced]
      refine ⟨rfl, fun hneg => if_pos hneg, fun hpos => (if_neg (Int.not_lt.mpr hpos.le)).trans (if_pos hpos), rfl⟩
    · intro z
      have htarget' : StepCh.target { v with
          e := e, e0 := e, e1 := v.e0, boundAt := fbClock b.now + 1, carriedAt := n, ab := m, driversOff := d } = some x := htarget
      have hland := State.nextDrive_lands hleads hruns hclosed hfit htarget'
      rw [hstep, show State.nextDrive _ c _ = _ from hland]
      obtain ⟨hmax, hup, hdown, hsame⟩ := StepCh.land_spec { v with
          e := e, e0 := e, e1 := v.e0, boundAt := fbClock b.now + 1, carriedAt := n, ab := m, driversOff := d } cfg
        (clocksOf (b.segL (bits cfg 2 0))) x b.now
      exact ⟨rfl, rfl, rfl, rfl, hmax, hup, hdown, hsame⟩
  case halts =>
    obtain ⟨-, hstep, hp, hv⟩ := b.haltCut_spec c
    obtain ⟨n, m, htaken⟩ := v.taken_only cfg b.now
    change (b.haltCut c).stepCh c = (v.taken cfg b.now).cut b.now at hstep
    change ((b.haltCut c).axis (512 + c)).mo.p = (v.taken cfg b.now).e * 2 ^ 48 at hp
    rw [htaken] at hstep hp
    refine ⟨b.haltCut c, execPulHalt_cuts hmode hfit, ?_⟩
    rw [hstep]
    refine ⟨rfl, rfl, rfl, hp, hv, fun hmoving => ?_⟩
    show (v.halted || decide (v.w ≠ 0)) = true
    simp [hmoving]
  case fails =>
    refine ⟨_, execPulParity_fails hfit, ?_⟩
    by_cases hhalts : b.haltsNow c = true ∧ bits (b.force (pulOff c 0)) 31 30 ≠ 0
    · rw [if_pos hhalts]
      obtain ⟨hparity, -, hfenced, hmark⟩ := (b.haltCut c).stepFails_spec c
      exact ⟨hparity, fun h => absurd hhalts.1 (ne_true_of_eq_false h), hfenced, hmark b (b.haltCut_spec c).1⟩
    · rw [if_neg hhalts]
      obtain ⟨hparity, he, hfenced, hmark⟩ := b.stepFails_spec c
      exact ⟨hparity, fun _ => he, hfenced, hmark b (.refl b)⟩
  · rw [execRateMultiplierCarry_eq, State.takeCarry_none hnone]

end Sys2Proof.Machine
end

section
/-! O52: conversions (13 R522 to R532): a conversion's result, where it is stored, and the entry that follows. -/

namespace Sys2Proof.Machine

/-! ## A sequence starts (R522 to R524) -/

section
variable {s : State} {t c : Nat}

theorem execAdcSequenceStart_none (h : ((s.before t).conv c).busy = true ∨ (s.before t).trigDue ((s.before t).force (adcOff c 0)) = false) :
    exec (.adcSequenceStart t c) s = .next (ends s t (s.before t)) := by
  show execAdcSequenceStart t c s = _
  refine does_of_effect (if_pos ?_)
  obtain h | h := h
  · exact .inr (.inr h)
  · exact .inr (.inl (by simp [h]))

/-- A converter that starts a sequence. -/
def Conv.begin (v : Conv) (b : State) (c ctl : Nat) : Conv :=
  { v with slotAt := b.now, busy := true, entry := 0, seq := if v.started then (v.seq + 1) % 16 else v.seq, started := true,
           slotReady := b.an.ready, ctl := ctl, seqs := b.seqSet c (bits ctl 21 16) }

theorem execAdcSequenceStart_starts (hup : (s.before t).up = true) (htrig : (s.before t).trigDue ((s.before t).force (adcOff c 0)) = true)
    (hidle : ((s.before t).conv c).busy = false) : exec (.adcSequenceStart t c) s =
      .next (ends s t ((s.before t).modConv c fun v => v.begin (s.before t) c ((s.before t).force (adcOff c 0)))) := by
  show execAdcSequenceStart t c s = _
  exact does_of_effect (if_neg (by simp [hup, htrig, hidle]))

end

/-! ## The result word and the newest value (R526 to R530, R536) -/

/-- The channel of the entry in progress. -/
def Conv.chan (v : Conv) : Nat := bits (SMap.get seqReset v.seqs v.entry) 12 8

/-- The code is out of range, and the reference was ready. -/
def Conv.past (v : Conv) (code : Int) : Bool := v.slotReady && decide (code < -32768 ∨ 32767 < code)

/-- The code as it counts. -/
def Conv.code (v : Conv) (code : Int) : Int := if v.slotReady then clampI code (-32768) 32767 else 0

/-- The result word of the entry in progress. -/
def Conv.word (v : Conv) (code : Int) : Nat := resultWord (v.past code) (!v.slotReady) v.entry v.chan v.seq (v.code code)

theorem State.newest_spec (s : State) (c chan word : Nat) (use : Bool) (code : Int) : ∃ a, s.newest c chan word use code = { s with an := a } ∧
    a.ovr = s.an.ovr ∧ (c = 0 ∨ SMap.get (0, 0) s.an.lastBy chan ≠ (s.now / 50 + 1, 0) → SMap.get 0 a.last chan = word) := by
  unfold State.newest
  extract_lets clk by0 core a a' a''
  have hlast : SMap.get 0 a''.last chan = word ∧ a''.ovr = s.an.ovr := by
    have hput : SMap.get 0 a'.last chan = word := SMap.get_put_same ..
    unfold a''
    split <;> exact ⟨hput, rfl⟩
  split
  · next h =>
    exact ⟨_, rfl, rfl, fun hfirst => (hfirst.elim (fun h0 => absurd h.1 (by omega)) fun hne => absurd h.2 hne)⟩
  · exact ⟨_, rfl, hlast.2, fun _ => hlast.1⟩

/-- The first code out of range of a channel is flagged and marked. -/
def State.noteOvr (s : State) (c chan : Nat) : State :=
  ({ s with an := { s.an with ovr := s.an.ovr ++ [chan] } } : State).raise (srcConv c) 0x29 0 [BitVec.ofNat 8 chan, BitVec.ofNat 8 c]

theorem State.noteOvr_spec (s : State) (c chan : Nat) : (s.noteOvr c chan).host = s.host ∧ (s.noteOvr c chan).regs = s.regs ∧
    (∀ q, (s.noteOvr c chan).fenced q = s.fenced q) ∧ (s.noteOvr c chan).adc = s.adc ∧ (s.noteOvr c chan).an.last = s.an.last ∧
    (s.noteOvr c chan).an.ovr = s.an.ovr ++ [chan] :=
  ⟨rfl, rfl, fun _ => State.addMark_fenced .., rfl, rfl, rfl⟩

/-- The result has its word, and its channel the newest value. -/
def State.worded (s : State) (c : Nat) (code : Int) : State :=
  (s.modConv c fun v => { v with res := SMap.put 0 v.res v.entry ((s.conv c).word code) }).newest c (s.conv c).chan ((s.conv c).word code)
    (s.conv c).slotReady ((s.conv c).code code)

/-- A result has its word, and its channel the newest value and the flag of a code out of range. -/
def State.resulted (s : State) (c : Nat) (code : Int) : State :=
  if (s.conv c).past code && !(s.worded c code).an.ovr.contains (s.conv c).chan then (s.worded c code).noteOvr c (s.conv c).chan
  else s.worded c code

/-- What a result leaves: the host and the registers as they are, the converter but for its word, and the newest value. -/
structure State.Resulted (s : State) (c : Nat) (code : Int) (w : State) : Prop where
  host : w.host = s.host
  regs : w.regs = s.regs
  fenced : ∀ q, w.fenced q = s.fenced q
  conv : w.conv c = { s.conv c with res := SMap.put 0 (s.conv c).res (s.conv c).entry ((s.conv c).word code) }
  newest : c = 0 ∨ SMap.get (0, 0) s.an.lastBy (s.conv c).chan ≠ (s.now / 50 + 1, 0) →
    SMap.get 0 w.an.last (s.conv c).chan = (s.conv c).word code

theorem State.worded_resulted (s : State) (c : Nat) (code : Int) : s.Resulted c code (s.worded c code) := by
  obtain ⟨a, hw, -, hlast⟩ := (s.modConv c fun v => { v with res := SMap.put 0 v.res v.entry ((s.conv c).word code) }).newest_spec c (s.conv c).chan
    ((s.conv c).word code) (s.conv c).slotReady ((s.conv c).code code)
  rw [State.worded, hw]
  exact ⟨rfl, rfl, fun _ => rfl, s.modConv_conv_same c fun v => { v with res := SMap.put 0 v.res v.entry ((s.conv c).word code) }, hlast⟩

theorem State.resulted_spec (s : State) (c : Nat) (code : Int) : s.Resulted c code (s.resulted c code) ∧
    ((s.conv c).past code = true → (s.conv c).chan ∈ (s.resulted c code).an.ovr) := by
  have hw := s.worded_resulted c code
  obtain ⟨hhost, hregs, hfenced, hadc, hlast, hovr⟩ := (s.worded c code).noteOvr_spec c (s.conv c).chan
  unfold State.resulted
  split
  · refine ⟨⟨hhost.trans hw.host, hregs.trans hw.regs, fun q => (hfenced q).trans (hw.fenced q), ?_, fun h => ?_⟩, fun _ => ?_⟩
    · rw [State.conv, hadc]
      exact hw.conv
    · rw [hlast]
      exact hw.newest h
    · rw [hovr]
      exact List.mem_append_right _ List.mem_cons_self
  · next h =>
    refine ⟨hw, fun hpast => ?_⟩
    rw [hpast, Bool.true_and, Bool.not_eq_true', Bool.not_eq_false] at h
    simpa using h

/-! ## Where a result is stored (R531, R532) -/

/-- `w` is `s` for the entry in progress of converter `c`. -/
structure State.SameEntry (c : Nat) (s w : State) : Prop where
  res : (w.conv c).res = (s.conv c).res
  entry : (w.conv c).entry = (s.conv c).entry
  an : w.an = s.an

theorem State.SameEntry.of_desk {c : Nat} {s w : State} (h : Desk s w) : State.SameEntry c s w := by
  have hconv : w.conv c = s.conv c := by rw [State.conv, h.adc, State.conv]
  exact ⟨by rw [hconv], by rw [hconv], h.an⟩

theorem State.SameEntry.trans {c : Nat} {a b d : State} (h : State.SameEntry c a b) (g : State.SameEntry c b d) : State.SameEntry c a d :=
  ⟨g.res.trans h.res, g.entry.trans h.entry, g.an.trans h.an⟩

theorem State.SameEntry.modConv {c : Nat} (s : State) {f : Conv → Conv} (hres : (f (s.conv c)).res = (s.conv c).res)
    (hentry : (f (s.conv c)).entry = (s.conv c).entry) : State.SameEntry c s (s.modConv c f) := by
  have hconv := s.modConv_conv_same c f
  exact ⟨by rw [hconv, hres], by rw [hconv, hentry], rfl⟩

theorem State.adcDrop_sameEntry (s : State) (c : Nat) : State.SameEntry c s (s.adcDrop c) :=
  (State.SameEntry.modConv s rfl rfl).trans (.of_desk (.of_desk (State.raiseOnce_desk ..)))

theorem State.ringWrite_sameEntry (s : State) (c word mt : Nat) : State.SameEntry c s (s.ringWrite c word mt) := by
  unfold State.ringWrite
  extract_lets v r x y w
  split
  · exact .modConv s rfl rfl
  · split
    · exact s.adcDrop_sameEntry c
    · have hx : x.res = (s.conv c).res ∧ x.entry = (s.conv c).entry := by
        unfold x r
        split <;> exact ⟨rfl, rfl⟩
      have hw : State.SameEntry c s w := .modConv s hx.1 hx.2
      split
      · exact hw.trans (.of_desk (State.raise_Desk ..))
      · exact hw

/-- With room and no length pending the entry is written at the write index. -/
theorem State.ringWrite_room {s : State} {c : Nat} (hgood : (s.conv c).ringBad = false) (hlen : (s.conv c).lenPend = false)
    (hroom : (s.conv c).fill < (s.conv c).len) (word mt : Nat) : s.ringWrite c word mt = s.modConv c fun v =>
      { v with buf := SMap.put (0, 0) v.buf v.wp (word, mt), wp := (v.wp + 1) % v.len, fill := v.fill + 1 } := by
  unfold State.ringWrite
  extract_lets v r x y w
  rw [if_neg (by simp [v, hgood]), if_neg (Nat.not_le.mpr hroom)]
  have hr : r = (v, 0, false) := if_neg (by simp [v, hlen])
  have hx : x = s.conv c := congrArg Prod.fst hr
  rw [if_neg (by rw [hr]; simp)]
  show s.modConv c (fun _ => { x with buf := SMap.put (0, 0) x.buf x.wp (word, mt), wp := (x.wp + 1) % x.len, fill := x.fill + 1 }) = _
  rw [hx]
  rfl

/-- The result goes to the ring that the converter's setting names. -/
def State.stored (s : State) (c word stamp : Nat) : State :=
  if bit (s.conv c).ctl 26 = false then s
  else if bit (s.conv c).ctl 25 = false then s.ringWrite c word stamp
  else if ¬ (s.ringOf (26 + c)).on ∨ s.room (26 + c) 1 = true then s.post (26 + c) (leBytes 4 word ++ leBytes 4 stamp)
  else (s.post (26 + c) (leBytes 4 word ++ leBytes 4 stamp)).adcDrop c

theorem State.stored_sameEntry (s : State) (c word stamp : Nat) : State.SameEntry c s (s.stored c word stamp) := by
  have hpost : State.SameEntry c s (s.post (26 + c) (leBytes 4 word ++ leBytes 4 stamp)) := .of_desk (.of_desk (State.post_desk ..))
  unfold State.stored
  split
  · exact .of_desk (.refl s)
  split
  · exact s.ringWrite_sameEntry c word stamp
  split
  · exact hpost
  · exact hpost.trans (State.adcDrop_sameEntry _ c)

/-- An enabled ring with room takes an entry of a host engine in service. -/
theorem State.mem_post_out {s : State} {r : Nat} (hon : (s.ringOf r).on = true) (hroom : s.room r 1 = true)
    (hfree : s.fenced srcHostEngine = false) (e : List Byte) : .ring r (s.ringOf r).own e ∈ (s.post r e).out := by
  have hentry : .ring r (s.ringOf r).own e ∈ (s.putEntry r e).out := by
    rw [State.putEntry, State.emitHost, hfree]
    exact List.mem_cons_self
  rw [State.post, if_pos hon, if_pos hroom]
  exact (State.putIndex_writes ..).out hentry

/-! ## A conversion (R526 to R530) -/

/-- The entry that follows. -/
def Conv.follows (v : Conv) (b : State) (ctl entry : Nat) : Conv :=
  { v with busy := !decide (bits ctl 21 16 ≤ entry + 1), entry := if decide (bits ctl 21 16 ≤ entry + 1) then 0 else v.entry + 1,
           slotReady := b.an.ready, slotAt := b.now }

theorem execAdcConversionComplete_eq (s : State) (t c : Nat) (code : Int) :
    exec (.adcConversionComplete t c code) s = .next (ends s t ((s.before t).convert c code)) := by
  show execAdcConversionComplete t c code s = _
  exact does_of_effect rfl

section
variable {s : State} {c : Nat}

theorem State.convert_none (h : (s.conv c).busy = false ∨ s.slotOver c = false) (code : Int) : s.convert c code = s := by
  refine if_pos ?_
  obtain h | h := h
  · exact .inr (.inl h)
  · exact .inr (.inr (by simp [h]))

theorem State.convert_runs (hup : s.up = true) (hbusy : (s.conv c).busy = true) (hover : s.slotOver c = true) (code : Int) :
    s.convert c code = let w := (s.resulted c code).stored c ((s.conv c).word code) (toU 32 ((s.mt : Int) - 250))
      w.modConv c fun v => v.follows w (s.conv c).ctl (s.conv c).entry := by
  have hctl : ((s.resulted c code).conv c).ctl = (s.conv c).ctl := by rw [(s.resulted_spec c code).1.conv]
  unfold State.convert
  extract_lets v w chan ready ovr code' word stamp v1 v2 first an v3 v4 v5 last x
  rw [if_neg (by simp [v, hup, hbusy, hover])]
  have hword : word = v.word code := rfl
  have h2 : v2 = s.worded c code := by
    unfold v2 v1
    rw [hword]
    rfl
  have h4 : v4 = s.resulted c code := by
    have hfirst : first = (v.past code && !v2.an.ovr.contains v.chan) := rfl
    rw [State.resulted, ← h2, show s.conv c = v from rfl, ← hfirst]
    unfold v4 v3
    split <;> rfl
  have h5 : v5 = x := by
    unfold v5 x State.stored
    rw [h4, hctl]
    rfl
  rw [h5]
  rfl

/-- What a conversion leaves: its word, the entry that follows, the newest value and the flag. -/
theorem State.convert_spec (hup : s.up = true) (hbusy : (s.conv c).busy = true) (hover : s.slotOver c = true) (code : Int) :
    let v := s.conv c; let w := s.convert c code
    SMap.get 0 (w.conv c).res v.entry = v.word code ∧
      (v.entry + 1 < bits v.ctl 21 16 → (w.conv c).busy = true ∧ (w.conv c).entry = v.entry + 1) ∧
      (bits v.ctl 21 16 ≤ v.entry + 1 → (w.conv c).busy = false ∧ (w.conv c).entry = 0) ∧
      (c = 0 ∨ SMap.get (0, 0) s.an.lastBy v.chan ≠ (s.now / 50 + 1, 0) → SMap.get 0 w.an.last v.chan = v.word code) ∧
      (v.past code = true → v.chan ∈ w.an.ovr) := by
  intro v w
  obtain ⟨hresulted, hpast⟩ := s.resulted_spec c code
  obtain ⟨hres, hentry, han⟩ := (s.resulted c code).stored_sameEntry c (v.word code) (toU 32 ((s.mt : Int) - 250))
  have hw : w = _ := State.convert_runs hup hbusy hover code
  have hconv := State.modConv_conv_same ((s.resulted c code).stored c (v.word code) (toU 32 ((s.mt : Int) - 250))) c fun x =>
    x.follows ((s.resulted c code).stored c (v.word code) (toU 32 ((s.mt : Int) - 250))) v.ctl v.entry
  rw [hresulted.conv] at hres hentry
  rw [hw]
  dsimp only
  rw [hconv, show State.an (State.modConv _ _ _) = _ from han]
  refine ⟨?_, fun hmore => ?_, fun hlast => ?_, hresulted.newest, hpast⟩
  · show SMap.get 0 (State.conv _ c).res v.entry = _
    rw [hres]
    exact SMap.get_put_same ..
  · have hnot : ¬ bits v.ctl 21 16 ≤ v.entry + 1 := Nat.not_le.mpr hmore
    rw [Conv.follows, hentry]
    simp [hnot, v]
  · rw [Conv.follows]
    simp [hlast]

/-- With room in the on-chip ring the result is written there. -/
theorem State.convert_on_chip (hup : s.up = true) (hbusy : (s.conv c).busy = true) (hover : s.slotOver c = true)
    (hstore : bit (s.conv c).ctl 26 = true) (hchip : bit (s.conv c).ctl 25 = false) (hgood : (s.conv c).ringBad = false)
    (hlen : (s.conv c).lenPend = false) (hroom : (s.conv c).fill < (s.conv c).len) (code : Int) : let v := s.conv c; let w := s.convert c code
    SMap.get (0, 0) (w.conv c).buf v.wp = (v.word code, toU 32 ((s.mt : Int) - 250)) ∧ (w.conv c).fill = v.fill + 1 ∧
      (w.conv c).wp = (v.wp + 1) % v.len := by
  intro v w
  have hconv := (s.resulted_spec c code).1.conv
  have hstored : (s.resulted c code).stored c (v.word code) (toU 32 ((s.mt : Int) - 250)) = (s.resulted c code).modConv c fun x =>
      { x with buf := SMap.put (0, 0) x.buf x.wp (v.word code, toU 32 ((s.mt : Int) - 250)), wp := (x.wp + 1) % x.len, fill := x.fill + 1 } := by
    rw [State.stored, hconv, if_neg (by simp [hstore]), if_pos hchip]
    exact State.ringWrite_room (by rw [hconv]; exact hgood) (by rw [hconv]; exact hlen) (by rw [hconv]; exact hroom) _ _
  have hw : w = _ := State.convert_runs hup hbusy hover code
  rw [hw, hstored]
  dsimp only
  rw [State.modConv_conv_same, State.modConv_conv_same, hconv]
  exact ⟨SMap.get_put_same .., rfl, rfl⟩

/-- With room in the host's ring the result is posted there. -/
theorem State.convert_posted (hup : s.up = true) (hbusy : (s.conv c).busy = true) (hover : s.slotOver c = true)
    (hon : (s.ringOf (26 + c)).on = true) (hroom : s.room (26 + c) 1 = true) (hstore : bit (s.conv c).ctl 26 = true)
    (hhost : bit (s.conv c).ctl 25 = true) (hfree : s.fenced srcHostEngine = false) (code : Int) :
    .ring (26 + c) (s.ringOf (26 + c)).own (leBytes 4 ((s.conv c).word code) ++ leBytes 4 (toU 32 ((s.mt : Int) - 250))) ∈
      (s.convert c code).out := by
  have hw := (s.resulted_spec c code).1
  have hring : (s.resulted c code).ringOf (26 + c) = s.ringOf (26 + c) := by rw [State.ringOf, hw.host, State.ringOf]
  have hroom' : (s.resulted c code).room (26 + c) 1 = true := by
    rw [← hroom, State.room, State.ringSize, State.force, hring, hw.regs]
    rfl
  have hpost := State.mem_post_out (s := s.resulted c code) (by rw [hring, hon]) hroom' (by rw [hw.fenced, hfree])
    (leBytes 4 ((s.conv c).word code) ++ leBytes 4 (toU 32 ((s.mt : Int) - 250)))
  rw [hring] at hpost
  rw [State.convert_runs hup hbusy hover code]
  dsimp only
  rw [State.stored, hw.conv, if_neg (by simp [hstore]), if_neg (by simp [hhost]), if_pos (.inr hroom')]
  exact hpost

end

/-- Settles O52: a sequence's start, and a conversion with the rings its result goes to. -/
theorem conversionsGiveTheirResults : Obligations.ConversionsGiveTheirResults := by
  unfold Obligations.ConversionsGiveTheirResults
  intro s t c b v ctl
  refine ⟨fun hup htrig hidle => ?starts, execAdcSequenceStart_none, fun h code => ?_, ?converts⟩
  case starts =>
    have hconv := b.modConv_conv_same c fun v => v.begin b c ctl
    refine ⟨_, execAdcSequenceStart_starts hup htrig hidle, ?_⟩
    rw [show State.conv _ c = _ from hconv]
    exact ⟨rfl, rfl, rfl, rfl, rfl, rfl, rfl⟩
  case converts =>
    intro code hup hbusy hover chan past word stamp
    obtain ⟨hres, hmore, hlast, hnewest, hpast⟩ := State.convert_spec hup hbusy hover code
    refine ⟨_, execAdcConversionComplete_eq s t c code, hres, hmore, hlast, hnewest, hpast, fun hstore hchip hgood hlen hroom => ?_,
      fun hon hroom hstore hhost hfree => State.convert_posted hup hbusy hover hon hroom hstore hhost hfree code⟩
    exact State.convert_on_chip hup hbusy hover hstore hchip hgood hlen hroom code
  · rw [execAdcConversionComplete_eq, State.convert_none h]

end Sys2Proof.Machine
end

section
/-! O36: TWN_CTL (15 R582, R590, R592). -/

namespace Sys2Proof.Machine

/-! ## A write to TWN_CTL -/

/-- TWN_CTL has no STICKY field, and REPAIR is its one PULSE bit. -/
theorem State.regWrite_twnCtl (s : State) (v : Nat) :
    s.regWrite 0x0F0000 v = if bit v 1 then (s.twnWrite v).twnRepair else s.twnWrite v := rfl

section
variable {s : State}

theorem State.twnWrite_locked (hoff : bit (s.force 0x0F0000) 0 = false) (hruns : s.setup = false) :
    s.twnWrite 1 = s.lockedWrite 0x0F0000 1 0x31 :=
  (if_neg (by rw [hoff]; decide)).trans (if_pos (by simp [hruns]))

theorem State.twnWrite_refused {k : Nat} (hoff : bit (s.force 0x0F0000) 0 = false) (hsetup : s.setup = true)
    (hwindow : s.noWindow = some k) : s.twnWrite 1 =
      ({ s with tw := { s.tw with enRej := true } }).raise srcLocked 0x18 0x0F0000 (leBytes 4 1 ++ [0x31, BitVec.ofNat 8 k]) := by
  refine (if_neg (by rw [hoff]; decide)).trans ((if_neg (by simp [hsetup])).trans ((if_pos (by decide)).trans ?_))
  rw [hwindow]

theorem State.twnWrite_enabled (hoff : bit (s.force 0x0F0000) 0 = false) (hsetup : s.setup = true) (hwindow : s.noWindow = none) :
    s.twnWrite 1 = ({ s with tw := { s.tw with rank := b2n s.tw.ball, enAt := s.now } }).setForce 0x0F0000 1 := by
  refine (if_neg (by rw [hoff]; decide)).trans ((if_neg (by simp [hsetup])).trans ((if_pos (by decide)).trans ?_))
  rw [hwindow]

theorem State.twnWrite_same {v : Nat} (h : bit v 0 = bit (s.force 0x0F0000) 0) : s.twnWrite v = s := if_pos h

theorem State.lockedWrite_spec (s : State) (off v b : Nat) : (s.lockedWrite off v b).regs.force = s.regs.force ∧
    (s.lockedWrite off v b).regs.lockedCount = (s.regs.lockedCount + 1) % 2 ^ 16 ∧ (s.lockedWrite off v b).tw = s.tw := by
  unfold State.lockedWrite
  dsimp only
  split <;> exact ⟨rfl, rfl, rfl⟩

end

/-- Settles O36: EN is judged where it was 0, and REPAIR leaves it. -/
theorem theTwinIsEnabledAndRepaired : Obligations.TheTwinIsEnabledAndRepaired := by
  unfold Obligations.TheTwinIsEnabledAndRepaired
  intro s t b
  have henable : ∀ ball, exec (.twnEnable t ball) s = .next (ends s t (State.twnWrite { b with tw := { b.tw with ball := ball } } 1)) := fun ball => by
    show execTwnEnable t ball s = _
    exact does_of_effect rfl
  refine ⟨?enabled, ?refused, fun ball hoff hruns => ?_, ?_⟩
  case enabled =>
    intro ball c hoff hsetup hwindow
    have hwrite := State.twnWrite_enabled (s := c) hoff hsetup hwindow
    refine ⟨_, henable ball, ?_⟩
    rw [show State.twnWrite _ 1 = _ from hwrite]
    exact ⟨State.setForce_force_same _ _ _, rfl, rfl⟩
  case refused =>
    intro ball k c hoff hsetup hwindow
    have hwrite := State.twnWrite_refused (s := c) hoff hsetup hwindow
    refine ⟨_, henable ball, ?_⟩
    rw [show State.twnWrite _ 1 = _ from hwrite]
    obtain ⟨m, hheld, -, hkind⟩ := State.raise_held { c with tw := { c.tw with enRej := true } } srcLocked 0x18 0x0F0000
      (leBytes 4 1 ++ [0x31, BitVec.ofNat 8 k])
    exact ⟨rfl, rfl, m, hheld, hkind⟩
  · have hwrite := State.twnWrite_locked (s := { b with tw := { b.tw with ball := ball } }) hoff hruns
    obtain ⟨hforce, hcount, htw⟩ := State.lockedWrite_spec { b with tw := { b.tw with ball := ball } } 0x0F0000 1 0x31
    refine ⟨_, henable ball, ?_⟩
    rw [hwrite]
    refine ⟨?_, htw, hcount⟩
    rw [State.force, hforce]
    rfl
  · have hbits : ∀ en : Bool, bit (2 + b2n en) 0 = en ∧ bit (2 + b2n en) 1 = true := by decide
    obtain ⟨hen, hrepair⟩ := hbits (bit (b.force 0x0F0000) 0)
    have hwrite : b.regWrite 0x0F0000 (2 + b2n (bit (b.force 0x0F0000) 0)) = b.twnRepair := by
      rw [State.regWrite_twnCtl, if_pos hrepair, State.twnWrite_same hen]
    refine ⟨b.twnRepair, ?_, rfl, rfl, rfl, rfl, rfl, rfl⟩
    show execTwnRepair t s = _
    exact does_of_effect hwrite

end Sys2Proof.Machine
end

section
/-! O18: marks are recorded and released (16 R621, R622, R624, R627, R629, R631). -/

namespace Sys2Proof.Machine

/-! ## What writing to the host leaves of the assay unit -/

theorem State.emitHost_asy (s : State) (o : Out) : (s.emitHost o).asy = s.asy := by
  unfold State.emitHost
  split <;> rfl

theorem State.sendMsi_asy (s : State) (vec : Nat) : (s.sendMsi vec).asy = s.asy := by
  unfold State.sendMsi
  split
  · rfl
  · exact s.emitHost_asy _

theorem State.ringMsi_asy (s : State) (r : Nat) : (s.ringMsi r).asy = s.asy := by
  unfold State.ringMsi
  split
  · split
    · rfl
    · exact State.sendMsi_asy _ _
  · rfl

theorem State.putEntry_asy (s : State) (r : Nat) (e : List Byte) : (s.putEntry r e).asy = s.asy := s.emitHost_asy _

theorem State.putIndex_asy (s : State) (r : Nat) (msg : Bool) : (s.putIndex r msg).asy = s.asy := by
  unfold State.putIndex
  dsimp only
  split
  · exact (State.ringMsi_asy _ r).trans (s.emitHost_asy _)
  · exact s.emitHost_asy _

/-- A ring that is off or has room takes an entry without a mark. -/
theorem State.post_asy {s : State} {r : Nat} (hroom : (s.ringOf r).on = true → s.room r 1 = true) (e : List Byte) :
    (s.post r e).asy = s.asy := by
  unfold State.post
  split
  · next hon =>
    rw [if_pos (hroom hon)]
    exact (State.putIndex_asy _ r true).trans (s.putEntry_asy r e)
  · rfl

/-- A message to the twin takes an armed checker with it, and leaves the rest of the assay unit. -/
theorem State.sendTwin_asy (s : State) (type seg tag minor : Nat) (payload : List Byte) :
    ∃ l, (s.sendTwin type seg tag minor payload).asy = { s.asy with armed := l } := by
  unfold State.sendTwin
  split
  · exact ⟨_, rfl⟩
  · exact ⟨_, rfl⟩

theorem State.mirror_asy {s : State} (hroom : (s.ringOf 24).on = true → s.room 24 1 = true) (m : Mark) :
    ∃ l, (s.mirror m).asy = { s.asy with armed := l } := by
  unfold State.mirror
  split
  · exact ⟨_, rfl⟩
  · have hpost := State.post_asy hroom (markBytes m)
    dsimp only
    split
    · obtain ⟨l, hl⟩ := (s.post 24 (markBytes m)).sendTwin_asy 0x8 0xFF (tagOf m.cyc) 0 (markBytes m)
      exact ⟨l, by rw [hl, hpost]⟩
    · exact ⟨s.asy.armed, by rw [hpost]⟩

/-! ## Raising (R621, R622, R624, R629) -/

/-- The sources after a mark. -/
theorem State.raise_src (s : State) (src kind addr : Nat) (detail : List Byte) :
    (s.raise src kind addr detail).src src =
      { s.src src with sticky := true, lastKind := kind, count := ((s.src src).count + 1) % 2 ^ 16 } ∧
    ∀ x, x ≠ src → (s.raise src kind addr detail).src x = s.src x :=
  ⟨SMap.get_put_same .., fun _ hx => SMap.get_put_ne _ _ _ hx⟩

/-! ## Release (R627, R631) -/

/-- Within the limit of the cycle a ledger in service takes the mark at its next place. -/
theorem State.ledgerWrite_room {s : State} (hfit : s.fenced (srcCode 4 0x006) = false) (hroom : s.asy.written < 64) (m : Mark) :
    ∃ f g n u, s.ledgerWrite m = { s with asy := { s.asy with
      written := n, ff := f, ffe := g, ledger := SMap.put [] s.asy.ledger s.asy.next (markBytes m), next := (s.asy.next + 1) % 64,
      cnt := min 64 (s.asy.cnt + 1), unpersisted := u } } := by
  refine ⟨_, _, _, _, (if_neg fun h => ?_).trans (if_neg (by simp [hfit]))⟩
  exact absurd h.1 (Nat.not_le.mpr hroom)

/-- The release of a mark whose reaction has been taken, to a ledger in service and an event ring that is off or has room. -/
theorem State.releaseMark_written {s : State} {m : Mark} {code : Nat} (happlied : m.applied = true) (hshown : s.withholds m.kind code = false)
    (hfit : s.fenced (srcCode 4 0x006) = false) (hroom : s.asy.written < 64) (hring : (s.ringOf 24).on = true → s.room 24 1 = true) :
    ∃ f g n u l, (s.releaseMark m code).asy = { s.asy with
      written := n, ff := f, ffe := g, ledger := SMap.put [] s.asy.ledger s.asy.next (markBytes { m with react := code, withheld := false }),
      next := (s.asy.next + 1) % 64, cnt := min 64 (s.asy.cnt + 1), unpersisted := u, armed := l } := by
  obtain ⟨f, g, n, u, hwrite⟩ := State.ledgerWrite_room hfit hroom { m with react := code, withheld := false }
  obtain ⟨l, hmirror⟩ := State.mirror_asy (s := s.ledgerWrite { m with react := code, withheld := false }) (by rw [hwrite]; exact hring)
    { m with react := code, withheld := false }
  refine ⟨f, g, n, u, l, ?_⟩
  have hkept : s.markDropped { m with react := code, withheld := false } = false := by
    rw [State.markDropped, decide_eq_false_iff_not]
    exact fun h => absurd h.1 (Nat.not_le.mpr hroom)
  unfold State.releaseMark
  rw [hshown]
  simp only [Bool.false_eq_true, if_false]
  rw [if_pos happlied, hkept, if_neg (by decide), hmirror, hwrite]

section
variable {s : State} {t : Nat}

theorem execMarkRelease_none (h : ∀ m ∈ (s.before t).asy.held, (s.before t).mt < m.mt + 4000) :
    exec (.markRelease t) s = .next (ends s t (s.before t)) := by
  have hdue : ((s.before t).asy.held.filter fun m => decide (m.mt + 4000 ≤ (s.before t).mt)) = [] := by
    rw [List.filter_eq_nil_iff]
    exact fun m hm => by simp [h m hm]
  have hheld : ((s.before t).asy.held.filter fun m => !decide (m.mt + 4000 ≤ (s.before t).mt)) = (s.before t).asy.held := by
    rw [List.filter_eq_self]
    exact fun m hm => by simp [h m hm]
  have hmarks : (if (s.before t).fenced srcAssay then [] else (s.before t).dueMarks) = [] := by
    rw [State.dueMarks, hdue, List.foldl_nil, ite_self]
  show execMarkRelease t s = _
  refine does_of_effect ?_
  dsimp only
  rw [hmarks, hheld]
  rfl

/-- One mark is due, and nothing else is held. -/
theorem execMarkRelease_one {m : Mark} (hheld : (s.before t).asy.held = [m]) (hdue : m.mt + 4000 ≤ (s.before t).mt)
    (happlied : m.applied = true) (hfree : (s.before t).fenced srcAssay = false) : exec (.markRelease t) s =
      .next (ends s t (State.releaseMark { s.before t with asy := { (s.before t).asy with held := [] } } m m.react)) := by
  have hmarks : (if (s.before t).fenced srcAssay then [] else (s.before t).dueMarks) = [m] := by
    rw [State.dueMarks, hheld, hfree]
    simp [hdue, insertMark]
  have hrest : ((s.before t).asy.held.filter fun m => !decide (m.mt + 4000 ≤ (s.before t).mt)) = [] := by
    rw [hheld]
    simp [hdue]
  have hcode : (s.before t).clockCode [m] m = m.react := by
    simp [State.clockCode, State.releaseCode, happlied]
  show execMarkRelease t s = _
  refine does_of_effect ?_
  dsimp only
  rw [hmarks, hrest, List.map_singleton, hcode]
  rfl

end

/-- Settles O18: the mark as it is raised, and the release of one or of none. -/
theorem marksAreRecordedAndReleased : Obligations.MarksAreRecordedAndReleased := by
  unfold Obligations.MarksAreRecordedAndReleased
  refine ⟨fun s src kind addr detail => ?raises, fun s t => ⟨fun m hheld hdue happlied hfree hroom hfit hshown hring => ?_, execMarkRelease_none⟩⟩
  case raises =>
    obtain ⟨hsrc, hother⟩ := s.raise_src src kind addr detail
    refine ⟨_, rfl, rfl, rfl, rfl, rfl, rfl, rfl, rfl, rfl, rfl, rfl, rfl, ?_⟩
    rw [hsrc]
    exact ⟨rfl, rfl, rfl, rfl, hother⟩
  · refine ⟨_, execMarkRelease_one hheld hdue happlied hfree, ?_⟩
    obtain ⟨f, g, n, u, l, hasy⟩ := State.releaseMark_written (s := { s.before t with asy := { (s.before t).asy with held := [] } }) happlied
      (code := m.react) hshown hfit hroom hring
    rw [hasy]
    exact ⟨rfl, SMap.get_put_same [] (s.before t).asy.ledger (s.before t).asy.next (markBytes { m with withheld := false }), rfl, rfl⟩

end Sys2Proof.Machine
end

section
/-! O19: errors are reported (16 R625, R648; 01 R6, R8, R9, R20, R21, R44, R51). -/

namespace Sys2Proof.Machine

/-! ## Marks raised at detection -/

/-- A mark raised in `v` stands first behind those of `v` in all that grows from there. -/
theorem Grows.raiseDone_first {v w : State} {src kind addr react : Nat} {detail : List Byte}
    (h : Grows (v.raiseDone src kind addr react detail) w) :
    ∃ m l, w.asy.held = v.asy.held ++ m :: l ∧ m.src = src ∧ m.kind = kind ∧ m.addr = addr ∧ m.detail = detail := by
  obtain ⟨m, hm, hsrc, hkind, haddr, -, hdetail, -⟩ := State.addMark_held v src kind addr react detail true
  obtain ⟨l, hl⟩ := h.held
  refine ⟨m, l, ?_, hsrc, hkind, haddr, hdetail⟩
  rw [← hl, State.raiseDone, hm, List.append_assoc]
  rfl

theorem execEccCorr_eq (s : State) (t src addr syn bt ax : Nat) :
    exec (.eccCorr t src addr syn bt ax) s = .next (ends s t ((s.before t).raise src 0x01 addr (eccDetail src syn bt ax))) := by
  show execEccCorr t src addr syn bt ax s = _
  exact does_of_effect rfl

/-! ## The fence of a hammer (R20, R21, R51) -/

/-- The fence of a hammer, which may take its bench with it. -/
theorem State.fenceHammer_grows (s : State) (h reason kind : Nat) :
    Grows s (s.fenceHammer h reason kind) ∧ (s.fenceHammer h reason kind).fenced (srcHammer h) = true := by
  unfold State.fenceHammer
  split
  · next hfenced =>
    have hgrows : Grows s (s.refence (srcHammer h) reason).postReady :=
      (s.refence_grows ..).trans (State.postReady_writes _).records.toGrows
    exact ⟨hgrows, hgrows.fenced _ hfenced⟩
  · extract_lets traced anew lost cleared k
    have hanew : Grows s anew := .trans (.ite (.refl s) (s.traceHammer_traced ..).poolOnly.grows) (State.fenceAnew_grows ..)
    have hcleared : Grows anew cleared := (anew.loseRun_poolOnly h).grows.trans (State.modHammer_poolOnly ..).grows
    have hrest : Grows cleared (if ((List.range 8).all fun i => cleared.fenced (srcHammer (8 * k + i))) = true
        then cleared.fenceBench k 8 kind else cleared.recheck (valleyOf k)) :=
      .ite (cleared.fenceBench_grows k 8 kind).1 (cleared.recheck_reacts _).toGrows
    exact ⟨hanew.trans (hcleared.trans hrest), (hcleared.trans hrest).fenced _ (State.fenceAnew_fenced ..)⟩

theorem srcLevel_srcHammer {h : Nat} (hh : h < 128) : srcLevel (srcHammer h) = 1 ∧ srcIdx (srcHammer h) = h := by
  unfold srcLevel srcIdx srcHammer srcCode
  omega

/-- A mark at a hammer and the hammer's fence. -/
def State.failHammer (s : State) (h kind addr react reason : Nat) (detail : List Byte) : State :=
  ((s.raiseDone (srcHammer h) kind addr react detail).fenceHammer h reason kind).postReady

theorem State.failHammer_spec (s : State) (h kind addr react reason : Nat) (detail : List Byte) :
    (s.failHammer h kind addr react reason detail).fenced (srcHammer h) = true ∧ ∃ m l,
      (s.failHammer h kind addr react reason detail).asy.held = s.asy.held ++ m :: l ∧ m.src = srcHammer h ∧ m.kind = kind ∧
        m.addr = addr ∧ m.detail = detail := by
  obtain ⟨hgrows, hfenced⟩ := (s.raiseDone (srcHammer h) kind addr react detail).fenceHammer_grows h reason kind
  have hposted := (State.postReady_writes ((s.raiseDone (srcHammer h) kind addr react detail).fenceHammer h reason kind)).records.toGrows
  have hall : Grows (s.raiseDone (srcHammer h) kind addr react detail) (s.failHammer h kind addr react reason detail) := hgrows.trans hposted
  exact ⟨hposted.fenced _ hfenced, hall.raiseDone_first⟩

section
variable {s : State} {t h : Nat}

theorem execEccDouble_hammer (hh : h < 128) (hyields : (s.before t).yields h = false) (addr syn obj : Nat) :
    exec (.eccDouble t (srcHammer h) addr syn obj) s =
      .next (ends s t ((s.before t).failHammer h 0x02 addr 2 2 (eccDetail (srcHammer h) syn 0xFF obj))) := by
  obtain ⟨hlevel, hidx⟩ := srcLevel_srcHammer hh
  show execEccDouble t (srcHammer h) addr syn obj s = _
  refine does_of_effect ?_
  dsimp only
  rw [if_pos hlevel, hidx, hyields]
  rfl

theorem execParity_hammer (hh : h < 128) (hyields : (s.before t).yields h = false) (addr : Nat) :
    exec (.parity t (srcHammer h) addr) s =
      .next (ends s t ((s.before t).failHammer h 0x03 addr 2 1 ((s.before t).parityJob (srcHammer h)))) := by
  obtain ⟨hlevel, hidx⟩ := srcLevel_srcHammer hh
  show execParity t (srcHammer h) addr s = _
  refine does_of_effect ?_
  dsimp only
  rw [if_pos hlevel, hidx, hyields]
  rfl

end

/-! ## Retransmissions (R6, R8) -/

/-- A retransmission of a link is counted, which disarms its checker. -/
def State.retransmits (s : State) (link : Nat) : State :=
  ({ s with pw := { s.pw with retrans := SMap.put 0 s.pw.retrans link (SMap.get 0 s.pw.retrans link + 1) } } : State).disarm (srcCode 5 link)

theorem execFlitCrcError_eq (s : State) (t link : Nat) : exec (.flitCrcError t link) s =
    .next (ends s t (if 16 < SMap.get 0 (s.before t).pw.retrans link + 1 then ((s.before t).retransmits link).raiseOnce (srcCode 5 link) 0x10 0 []
      else (s.before t).retransmits link)) := by
  show execFlitCrcError t link s = _
  exact does_of_effect rfl

theorem State.raiseOnce_asy (s : State) (src kind addr : Nat) (detail : List Byte) :
    ∃ a, s.raiseOnce src kind addr detail = { s with asy := a } := by
  unfold State.raiseOnce
  split <;> exact ⟨_, rfl⟩

theorem State.raiseOnce_first {s : State} {src kind : Nat} (h : (src, kind) ∉ s.asy.once) (addr : Nat) (detail : List Byte) :
    ∃ m, (s.raiseOnce src kind addr detail).asy.held = s.asy.held ++ [m] ∧ m.src = src ∧ m.kind = kind := by
  rw [State.raiseOnce, if_neg (by simpa using h)]
  exact s.raise_held src kind addr detail

/-- The clause of a flit error. -/
theorem execFlitCrcError_spec (s : State) (t link : Nat) : let b := s.before t
    ∃ w, exec (.flitCrcError t link) s = .next (ends s t w) ∧ w = { b with pw := w.pw, asy := w.asy } ∧
      SMap.get 0 w.pw.retrans link = SMap.get 0 b.pw.retrans link + 1 ∧
      (SMap.get 0 b.pw.retrans link < 16 → w.asy.held = b.asy.held) ∧
      (SMap.get 0 b.pw.retrans link = 16 → (srcCode 5 link, 0x10) ∉ b.asy.once →
        ∃ m, w.asy.held = b.asy.held ++ [m] ∧ m.src = srcCode 5 link ∧ m.kind = 0x10) := by
  intro b
  have hcount : SMap.get 0 (b.retransmits link).pw.retrans link = SMap.get 0 b.pw.retrans link + 1 :=
    SMap.get_put_same 0 b.pw.retrans link (SMap.get 0 b.pw.retrans link + 1)
  refine ⟨_, execFlitCrcError_eq s t link, ?_⟩
  split
  · next hmany =>
    obtain ⟨a, ha⟩ := (b.retransmits link).raiseOnce_asy (srcCode 5 link) 0x10 0 []
    refine ⟨by rw [ha]; rfl, by rw [ha]; exact hcount, fun hfew => ?_, fun _ honce => ?_⟩
    · change 16 < SMap.get 0 b.pw.retrans link + 1 at hmany
      omega
    · exact State.raiseOnce_first (s := b.retransmits link) honce 0 []
  · next hfew =>
    refine ⟨rfl, hcount, fun _ => rfl, fun h => ?_⟩
    change ¬ 16 < SMap.get 0 b.pw.retrans link + 1 at hfew
    omega

/-! ## Links that go down (R7, R9, R44) -/

theorem State.takeReaction_zero (s : State) (src kind addr : Nat) (detail : List Byte) : s.takeReaction src kind addr 0 detail = s := by
  unfold State.takeReaction
  rw [if_neg (by simp [State.withholds])]
  rfl

theorem State.axisStops_pw (s : State) (l : List Nat) (src kind : Nat) : (s.axisStops l src kind).pw = s.pw := by
  refine List.foldlRecOn (motive := fun w : State => w.pw = s.pw) _ _ rfl fun v h a _ => ?_
  unfold State.axisStop
  split <;> exact h

theorem State.holdAxes_pw (s : State) (src kind : Nat) : (s.holdAxes src kind).pw = s.pw := by
  refine (State.axisStops_pw _ _ src kind).trans ?_
  refine List.foldlRecOn (motive := fun w : State => w.pw = s.pw) _ _ rfl fun v h k _ => ?_
  exact List.foldlRecOn (motive := fun w : State => w.pw = s.pw) _ _ h fun v h a _ => h

theorem State.setMode_linksDown (s : State) (m : DevMode) : (s.setMode m).pw.linksDown = s.pw.linksDown := by
  unfold State.setMode
  split <;> rfl

theorem State.safeHold_linksDown (s : State) (src kind : Nat) : (s.safeHold src kind).pw.linksDown = s.pw.linksDown := by
  unfold State.safeHold
  extract_lets due a v
  have hhold : (((v.holdAxes src kind).setMode .safeHold).tellTwin .safeHold).pw.linksDown = v.pw.linksDown := by
    rw [(State.tellTwin_writes ..).desk.pw, State.setMode_linksDown, State.holdAxes_pw]
  split
  · rfl
  · rfl
  · rfl
  · rw [(State.notReady_writes ..).desk.pw]
  · exact hhold

theorem State.takeReaction_hold_linksDown (s : State) (src kind addr : Nat) (detail : List Byte) :
    (s.takeReaction src kind addr 8 detail).pw.linksDown = s.pw.linksDown := by
  unfold State.takeReaction
  split
  · split
    · rfl
    · rw [(State.notReady_writes ..).desk.pw]
  · rw [if_neg (by decide), if_neg (by decide), if_pos rfl, State.safeHold_linksDown]

theorem State.lockout_grows (s : State) (chB : Bool) (cause : Nat) : Grows s (s.lockout chB cause) := by
  have hset : Grows s (s.setCh chB .lockout) := by
    refine .ite (.refl s) (.trans ?_ (State.raise_records ..).toGrows)
    cases chB <;> exact .of_asy rfl
  have hcause : Grows s ((s.setCh chB .lockout).modSaf fun g => { g with cause := cause }) := hset.trans (.of_asy rfl)
  have hoff : ∀ v : State, Grows v v.outsOff := fun v => .of_asy (by
    obtain ⟨⟨o, l, h⟩, -⟩ := v.outsOff_spec
    rw [h])
  exact .ite (.refl s) ((hcause.trans (hoff _)).trans (State.raise_records ..).toGrows)

theorem State.safLinkDown_grows (s : State) (chB : Bool) : Grows s (s.safLinkDown chB) := by
  have hmod : Grows s (s.modCh chB fun c => { c with linkDown := true }) := by
    cases chB <;> exact .of_asy rfl
  exact .ite (hmod.trans (State.lockout_grows ..)) hmod

/-- The island's side of a link is down: the links that are down stay, and a powered channel is locked out. -/
theorem State.safLinkDown_spec (s : State) (chB : Bool) : (s.safLinkDown chB).pw = s.pw ∧
    ((s.ch chB).powered = true → ((s.safLinkDown chB).ch chB).st = .lockout) := by
  have hch := s.modCh_ch_same chB fun c => { c with linkDown := true }
  have hpw : (s.modCh chB fun c => { c with linkDown := true }).pw = s.pw := by cases chB <;> rfl
  unfold State.safLinkDown
  dsimp only
  rw [hch]
  split
  · obtain ⟨o, g, a, h⟩ := (State.lockout_inCycle (s.modCh chB fun c => { c with linkDown := true }) chB 5).only
    refine ⟨by rw [h]; exact hpw, fun _ => ?_⟩
    rw [(State.lockout_ch ..).1]
  · next hoff => exact ⟨hpw, fun h => absurd h hoff⟩

theorem State.failUnfence_pw (s : State) (src : Nat) : (s.failUnfence src).pw = s.pw :=
  List.foldlRecOn (motive := fun w : State => w.pw = s.pw) _ _ rfl fun v h c _ => ((v.finish_Desk c.2 stFailedHw (zeros 8)).pw).trans h

theorem State.fence_pw (s : State) (src reason : Nat) : (s.fence src reason).pw = s.pw := by
  unfold State.fence
  split <;> rfl

theorem State.fenceAnew_pw (s : State) (src reason : Nat) : (s.fenceAnew src reason).pw = s.pw := by
  unfold State.fenceAnew State.refence
  split
  · dsimp only
    split <;> exact s.failUnfence_pw src
  · exact (State.fence_pw ..).trans (s.failUnfence_pw src)

/-- The transfer ends with the store. -/
def State.nvEnd (s : State) (j : NvJob) : State :=
  match j with
  | .write id .. => s.finish id stFailedHw (zeros 8)
  | .read id .. => s.finish id stFailedHw (zeros 8)
  | .snapshot id .. => s.finish id stFailedHw (zeros 8)
  | .confirm id .. => s.finish id stFailedHw (zeros 8)
  | .ledger .. => s

theorem State.nvEnd_writes (s : State) (j : NvJob) : Writes s (s.nvEnd j) := by
  cases j with
  | ledger => exact .refl s
  | write => exact s.finish_writes ..
  | read => exact s.finish_writes ..
  | snapshot => exact s.finish_writes ..
  | confirm => exact s.finish_writes ..

theorem State.nvFail_spec (s : State) : Grows s s.nvFail ∧ s.nvFail.pw = s.pw := by
  have hmod : Grows s (s.modNv fun v => { v with job := none, waiting := [] }) := .of_asy rfl
  have hends : Writes (s.modNv fun v => { v with job := none, waiting := [] }) s.nvFail :=
    .trans (.foldl State.nvEnd_writes _ _) (State.postReady_writes _)
  exact ⟨hmod.trans hends.records.toGrows, hends.desk.pw⟩

/-- A link is recorded as down. -/
def State.linkLost (s : State) (link : Nat) : State :=
  (s.modPw fun p => { p with linksDown := p.linksDown ++ [link] }).liveOn (srcCode 5 link) 0x11

/-- The reaction to a link that is down, and its mark. -/
def State.linkMarked (s : State) (link : Nat) : State :=
  let code := if link = 0 then 8 else 0
  ((s.linkLost link).raiseDone (srcCode 5 link) 0x11 0 (if (s.linkLost link).withholds 0x11 code then 0 else code) []).takeReaction
    (srcCode 5 link) 0x11 0 code []

/-- What depends on the link. -/
def State.linkActs (s : State) (link : Nat) : State :=
  if link = 1 then s.safLinkDown false
  else if link = 2 then s.safLinkDown true
  else if link = 3 then (s.fenceAnew srcNv 15).nvFail
  else s

theorem execLinkDown_lost {s : State} {t link : Nat} (h : link ∉ (s.before t).pw.linksDown) :
    exec (.linkDown t link) s = .next (ends s t (((s.before t).linkMarked link).linkActs link).postReady) := by
  show execLinkDown t link s = _
  exact does_of_effect (if_neg (by simpa using h))

theorem State.linkMarked_spec (s : State) (link : Nat) : link ∈ (s.linkMarked link).pw.linksDown ∧
    (link ≠ 0 → (s.linkMarked link).saf = s.saf) ∧ ∀ w, Grows (s.linkMarked link) w →
      ∃ m l, w.asy.held = s.asy.held ++ m :: l ∧ m.src = srcCode 5 link ∧ m.kind = 0x11 := by
  have hin : link ∈ (s.linkLost link).pw.linksDown := List.mem_append_right _ List.mem_cons_self
  unfold State.linkMarked
  refine ⟨?_, fun hlink => ?_, fun w hw => ?_⟩
  · by_cases hmain : link = 0
    · subst hmain
      simp only [if_true]
      rw [State.takeReaction_hold_linksDown]
      exact hin
    · simp only [if_neg hmain]
      rw [State.takeReaction_zero]
      exact hin
  · simp only [if_neg hlink]
    rw [State.takeReaction_zero]
    rfl
  · obtain ⟨m, l, hheld, hsrc, hkind, -⟩ := ((State.takeReaction_reacts ..).toGrows.trans hw).raiseDone_first
    exact ⟨m, l, hheld, hsrc, hkind⟩

theorem State.linkActs_spec (s : State) (link : Nat) : Grows s (s.linkActs link) ∧ (s.linkActs link).pw = s.pw ∧
    (link = 1 → s.saf.a.powered = true → (s.linkActs link).saf.a.st = .lockout) ∧
    (link = 2 → s.saf.b.powered = true → (s.linkActs link).saf.b.st = .lockout) ∧
    (link = 3 → (s.linkActs link).fenced srcNv = true) := by
  unfold State.linkActs
  split
  · next h =>
    obtain ⟨hpw, hlocks⟩ := s.safLinkDown_spec false
    exact ⟨s.safLinkDown_grows false, hpw, fun _ => hlocks, by omega, by omega⟩
  split
  · next h =>
    obtain ⟨hpw, hlocks⟩ := s.safLinkDown_spec true
    exact ⟨s.safLinkDown_grows true, hpw, by omega, fun _ => hlocks, by omega⟩
  split
  · next h1 h2 h =>
    obtain ⟨hgrows, hpw⟩ := (s.fenceAnew srcNv 15).nvFail_spec
    exact ⟨(s.fenceAnew_grows srcNv 15).trans hgrows, hpw.trans (s.fenceAnew_pw srcNv 15), fun h => absurd h h1, fun h => absurd h h2,
      fun _ => hgrows.fenced _ (s.fenceAnew_fenced srcNv 15)⟩
  · next h1 h2 h3 => exact ⟨.refl s, rfl, fun h => absurd h h1, fun h => absurd h h2, fun h => absurd h h3⟩

/-- Settles O19: each error from the mark it raises and from what it fences or locks. -/
theorem errorsAreReported : Obligations.ErrorsAreReported := by
  unfold Obligations.ErrorsAreReported
  intro s t b
  refine ⟨execEccCorr_eq s t, fun hm addr syn obj hh _ hyields => ⟨_, execEccDouble_hammer hh hyields addr syn obj, ?double⟩,
    fun hm addr hh _ hyields => ⟨_, execParity_hammer hh hyields addr, ?parity⟩, fun link _ => execFlitCrcError_spec s t link,
    fun link _ hdown => ⟨_, execLinkDown_lost hdown, ?link⟩⟩
  case double => exact State.failHammer_spec ..
  case parity =>
    obtain ⟨hfenced, m, l, hheld, hsrc, hkind, haddr, -⟩ :=
      (s.before t).failHammer_spec hm 0x03 addr 2 1 ((s.before t).parityJob (srcHammer hm))
    exact ⟨hfenced, m, l, hheld, hsrc, hkind, haddr⟩
  case link =>
    obtain ⟨hin, hsaf, hmark⟩ := (s.before t).linkMarked_spec link
    obtain ⟨hgrows, hpw, hA, hB, hnv⟩ := ((s.before t).linkMarked link).linkActs_spec link
    have hposted := State.postReady_writes (((s.before t).linkMarked link).linkActs link)
    refine ⟨?_, hmark _ (hgrows.trans hposted.records.toGrows), fun h hpowered => ?_, fun h hpowered => ?_, fun h => ?_⟩
    · rw [hposted.desk.pw, hpw]
      exact hin
    · rw [hposted.desk.saf]
      exact hA h (by rw [hsaf (by omega)]; exact hpowered)
    · rw [hposted.desk.saf]
      exact hB h (by rw [hsaf (by omega)]; exact hpowered)
    · exact hposted.records.fenced _ (hnv h)

end Sys2Proof.Machine
end

section
/-! O20: the descriptors of the assay unit (16 R634, R645 to R650, R803). -/

namespace Sys2Proof.Machine

/-! ## What the completions leave of the assay unit -/

/-- From `b` to `w` completions are posted: the assay unit stays but for armed checkers, which stay too at a device that does not lead,
and the device leads as before. -/
structure TellsOnly (b w : State) : Prop where
  role : w.tw.role = b.tw.role
  pair : w.tw.pair = b.tw.pair
  asy : ∃ l, w.asy = { b.asy with armed := l }
  armed : b.leads = false → w.asy.armed = b.asy.armed

theorem TellsOnly.leads {b w : State} (h : TellsOnly b w) : w.leads = b.leads := by
  rw [State.leads, h.role, h.pair, State.leads]

theorem TellsOnly.of_asy {b w : State} (hasy : w.asy = b.asy) (hrole : w.tw.role = b.tw.role) (hpair : w.tw.pair = b.tw.pair) :
    TellsOnly b w := ⟨hrole, hpair, ⟨_, hasy⟩, fun _ => by rw [hasy]⟩

theorem TellsOnly.refl (b : State) : TellsOnly b b := .of_asy rfl rfl rfl

theorem TellsOnly.trans {a b c : State} (h : TellsOnly a b) (g : TellsOnly b c) : TellsOnly a c := by
  refine ⟨g.role.trans h.role, g.pair.trans h.pair, ?_, fun hleads => (g.armed (h.leads.trans hleads)).trans (h.armed hleads)⟩
  obtain ⟨l, hl⟩ := h.asy
  obtain ⟨l', hl'⟩ := g.asy
  exact ⟨l', by rw [hl', hl]⟩

theorem TellsOnly.ite {b v w : State} {c : Prop} [Decidable c] (h : TellsOnly b v) (g : TellsOnly b w) : TellsOnly b (if c then v else w) := by
  split
  · exact h
  · exact g

theorem State.modEntry_tellsOnly (s : State) (id : Nat) (f : Entry → Entry) : TellsOnly s (s.modEntry id f) := .of_asy rfl rfl rfl

theorem State.emitHost_tw (s : State) (o : Out) : (s.emitHost o).tw = s.tw := by
  unfold State.emitHost
  split <;> rfl

theorem State.sendMsi_tw (s : State) (vec : Nat) : (s.sendMsi vec).tw = s.tw := by
  unfold State.sendMsi
  split
  · rfl
  · exact s.emitHost_tw _

theorem State.ringMsi_tw (s : State) (r : Nat) : (s.ringMsi r).tw = s.tw := by
  unfold State.ringMsi
  split
  · split
    · rfl
    · exact State.sendMsi_tw _ _
  · rfl

theorem State.putIndex_tw (s : State) (r : Nat) (msg : Bool) : (s.putIndex r msg).tw = s.tw := by
  unfold State.putIndex
  dsimp only
  split
  · exact (State.ringMsi_tw _ r).trans (s.emitHost_tw _)
  · exact s.emitHost_tw _

theorem State.putEntry_tw (s : State) (r : Nat) (e : List Byte) : (s.putEntry r e).tw = s.tw := s.emitHost_tw _

/-- An entry and its index change neither the assay unit nor the twin. -/
theorem State.putPosted_tellsOnly (s : State) (r : Nat) (e : List Byte) (msg : Bool) : TellsOnly s ((s.putEntry r e).putIndex r msg) := by
  have htw : ((s.putEntry r e).putIndex r msg).tw = s.tw := (State.putIndex_tw _ r msg).trans (s.putEntry_tw r e)
  exact .of_asy ((State.putIndex_asy _ r msg).trans (s.putEntry_asy r e)) (by rw [htw]) (by rw [htw])

theorem State.sendTwin_tw (s : State) (type seg tag minor : Nat) (payload : List Byte) :
    (s.sendTwin type seg tag minor payload).tw = s.tw := by
  unfold State.sendTwin
  split <;> rfl

/-- A message to the twin is a leader's. -/
theorem State.sendTwin_tellsOnly {s : State} (hleads : s.leads = true) (type seg tag minor : Nat) (payload : List Byte) :
    TellsOnly s (s.sendTwin type seg tag minor payload) := by
  have htw := s.sendTwin_tw type seg tag minor payload
  exact ⟨by rw [htw], by rw [htw], s.sendTwin_asy type seg tag minor payload, fun h => absurd hleads (ne_true_of_eq_false h)⟩

theorem State.keepDefine_tellsOnly (s : State) (e : Entry) : TellsOnly s (s.keepDefine e) := by
  unfold State.keepDefine
  split
  · split
    · exact .ite (.of_asy rfl rfl rfl) (.refl s)
    · exact .of_asy rfl rfl rfl
  · exact .refl s

theorem State.postCpl_tellsOnly (s : State) (e : Entry) (rec_ : List Byte) : TellsOnly s (s.postCpl e rec_) := by
  have hring : TellsOnly s (if (s.ringOf (8 + e.ring)).on then (s.putEntry (8 + e.ring) rec_).putIndex (8 + e.ring) e.irq else s) :=
    .ite (s.putPosted_tellsOnly _ _ _) (.refl s)
  unfold State.postCpl
  extract_lets v
  change TellsOnly s v at hring
  clear_value v
  split
  · next h => exact hring.trans (State.sendTwin_tellsOnly (Bool.and_eq_true_iff.mp h).1 _ _ _ _ _)
  · exact hring.trans (.of_asy rfl rfl rfl)

theorem postLoop_tellsOnly (s : State) (blocked : List Nat) (kept l : List Entry) : TellsOnly s (postLoop s blocked kept l) := by
  induction l generalizing s blocked kept with
  | nil => exact .of_asy rfl rfl rfl
  | cons e r ih =>
    unfold postLoop
    split
    · exact ih ..
    · split
      · exact ((s.postCpl_tellsOnly e _).trans (State.keepDefine_tellsOnly _ e)).trans (ih ..)
      · exact ih ..

theorem State.postReady_tellsOnly (s : State) : TellsOnly s s.postReady := by
  refine (postLoop_tellsOnly s [] [] s.host.acc).trans ?_
  exact List.foldlRecOn (motive := fun w : State => TellsOnly (postLoop s [] [] s.host.acc) w) _ _ (.refl _) fun v h r _ =>
    h.trans (.ite (.of_asy rfl rfl rfl) (.refl v))

/-- A descriptor's end and the completions that are due. -/
theorem State.finish_posted_tellsOnly (s : State) (id status : Nat) (res : List Byte) : TellsOnly s (s.finish id status res).postReady :=
  (s.modEntry_tellsOnly ..).trans (State.postReady_tellsOnly _)

theorem State.finish_posted_desk (s : State) (id status : Nat) (res : List Byte) : Desk s (s.finish id status res).postReady :=
  (s.finish_Desk ..).trans (State.postReady_Desk _)

/-! ## CLEAR_LEDGER, INJECT and UNFENCE as commands -/

section
variable {s : State} {t : Nat} {h : DHdr}

theorem execClearLedger_clears (ht : Taken (s.before t) h .clearLedger) : let b := s.before t
    ∃ w, exec (.clearLedger t h) s = .next (ends s t w) ∧ Desk b w ∧ w.asy.ledger = [] ∧ w.asy.cnt = 0 ∧
      w.asy.next = 0 ∧ w.asy.ff = none ∧ w.asy.ffe = none := by
  intro b
  refine ⟨_, exec_taken (f := fxClearLedger) rfl ht, ?_⟩
  unfold fxClearLedger
  extract_lets n src a
  obtain ⟨l, hl⟩ := (State.finish_posted_tellsOnly { b.cmdTaken h .clearLedger with asy := { a with
    ledger := [], next := 0, cnt := 0, unpersisted := 0, ff := none, ffe := none, src := src.filter fun x => decide (x.2 ≠ ({} : SrcSt)) } }
    (b.cmdEntry h .clearLedger).id stDone (leBytes 2 n ++ zeros 6)).asy
  refine ⟨Desk.trans ?_ (State.finish_posted_desk _ _ _ _), ?_⟩
  · exact rfl
  rw [hl]
  exact ⟨rfl, rfl, rfl, rfl, rfl⟩

theorem execInject_arms {double : Bool} {src : Nat} (ht : Taken (s.before t) h (.inject double src))
    (hmode : (s.before t).pw.mode = .commission ∨ (s.before t).pw.mode = .idle) (hsafe : safetySrc src = false) (harmable : armable src = true)
    (hfree : ∀ x ∈ (s.before t).asy.armed, x.1 ≠ src) : let b := s.before t
    ∃ w, exec (.inject t h double src) s = .next (ends s t w) ∧ Desk b w ∧
      (b.leads = false → w.asy.armed = b.asy.armed ++ [(src, double)]) := by
  intro b
  refine ⟨_, exec_taken (f := fxInject double src) rfl ht, ?_⟩
  have heffect : fxInject double src (b.cmdCtx h (.inject double src)) (b.cmdEntry h (.inject double src)) (b.cmdTaken h (.inject double src)) =
      ({ b.cmdTaken h (.inject double src) with asy := { b.asy with armed := b.asy.armed ++ [(src, double)] } } : State).finish
        (b.cmdEntry h (.inject double src)).id stDone (1 :: zeros 7) := by
    have hnot : ¬ (b.pw.mode ≠ .commission ∧ b.pw.mode ≠ .idle) := fun h => hmode.elim h.1 h.2
    refine (if_neg hnot).trans ((if_neg (by simp [hsafe])).trans ((if_neg (by simp [harmable])).trans (if_neg ?_)))
    rw [List.any_eq_true]
    rintro ⟨x, hx, hsrc⟩
    exact hfree x hx (of_decide_eq_true hsrc)
  rw [show fxInject double src _ _ _ = _ from heffect]
  have hdesk : Desk b { b.cmdTaken h (.inject double src) with asy := { b.asy with armed := b.asy.armed ++ [(src, double)] } } := rfl
  refine ⟨hdesk.trans (State.finish_posted_desk _ _ _ _), fun hleads => ?_⟩
  exact (State.finish_posted_tellsOnly _ _ _ _).armed hleads

theorem execUnfence_waits {src : Nat} (ht : Taken (s.before t) h (.unfence src)) (hreset : (s.before t).pw.mode ≠ .reset)
    (hboot : (s.before t).pw.mode ≠ .boot) (hhold : (s.before t).pw.mode ≠ .safeHold) (hfenceable : fenceable src = true)
    (hlevel : srcLevel src ≠ 6) (hfenced : (s.before t).fenced src = true) (hfree : ∀ c ∈ (s.before t).pool.checks, c.1 ≠ src) :
    let b := s.before t
    ∃ w, exec (.unfence t h src) s = .next (ends s t w) ∧
      Desk { b with pool := { b.pool with checks := b.pool.checks ++ [(src, b.host.nextId)] } } w := by
  intro b
  refine ⟨_, exec_taken (f := fxUnfence src) rfl ht, ?_⟩
  have heffect : fxUnfence src (b.cmdCtx h (.unfence src)) (b.cmdEntry h (.unfence src)) (b.cmdTaken h (.unfence src)) =
      (b.cmdTaken h (.unfence src)).modPool fun p => { p with checks := p.checks ++ [(src, b.host.nextId)] } := by
    have hnot : ¬ (b.pw.mode = .reset ∨ b.pw.mode = .boot ∨ b.pw.mode = .safeHold) := fun h =>
      h.elim hreset fun h => h.elim hboot hhold
    have hunfenceable : (b.cmdTaken h (.unfence src)).unfenceable src = true := by
      have hfenced' : (b.cmdTaken h (.unfence src)).fenced src = true := hfenced
      rw [State.unfenceable, hfenced', Bool.true_or]
    have hnone : ¬ (b.pool.checks.any fun c => decide (c.1 = src)) = true := by
      rw [List.any_eq_true]
      rintro ⟨c, hc, hsrc⟩
      exact hfree c hc (of_decide_eq_true hsrc)
    refine (if_neg hnot).trans ((if_neg (by simp [hfenceable])).trans ((if_neg ?_).trans (if_neg hlevel)))
    rintro (h | h)
    · exact absurd hunfenceable (by simpa using h)
    · exact hnone h
  rw [show fxUnfence src _ _ _ = _ from heffect]
  refine Desk.trans ?_ (State.postReady_Desk _)
  exact rfl

/-- The checks of an element are over, and it rejoins at the boundary if all passed. -/
def State.checksOver (s : State) (src : Nat) (ok : Bool) : State :=
  s.modPool fun p => { p with
    checks := p.checks.filter fun c => decide (c.1 ≠ src), rejoin := if ok then p.rejoin ++ [src] else p.rejoin }

theorem execUnfenceCheckDone_ends {src id : Nat} (ok : Bool)
    (hfind : (s.before t).pool.checks.find? (fun c => decide (c.1 = src)) = some (src, id)) : let b := s.before t
    ∃ w, exec (.unfenceCheckDone t src ok) s = .next (ends s t w) ∧
      Desk { b with pool := { b.pool with checks := b.pool.checks.filter (fun c => decide (c.1 ≠ src)),
                                          rejoin := if ok then b.pool.rejoin ++ [src] else b.pool.rejoin } } w := by
  intro b
  refine ⟨((b.checksOver src ok).finish id (if ok then stDone else stFailedHw) (zeros 8)).postReady, ?_,
    State.finish_posted_desk _ _ _ _⟩
  show execUnfenceCheckDone t src ok s = _
  refine does_of_effect ?_
  dsimp only
  rw [hfind]
  rfl

end

/-- Settles O20: each descriptor from its effect, and the end of the checks. -/
theorem assayDescriptorsAct : Obligations.AssayDescriptorsAct := by
  unfold Obligations.AssayDescriptorsAct
  intro s t h b
  exact ⟨fun ht => execClearLedger_clears ht, fun double src ht hmode hsafe harmable hfree => execInject_arms ht hmode hsafe harmable hfree,
    fun src ht hreset hboot hhold hfenceable hlevel hfenced hfree => execUnfence_waits ht hreset hboot hhold hfenceable hlevel hfenced hfree,
    fun src id ok hfind => execUnfenceCheckDone_ends ok hfind⟩

end Sys2Proof.Machine
end

section
/-! O17: the safety parameter set (17 R671, R698, R699; 18 R747), over what queues and ends a transfer of the NV store leaves. -/

namespace Sys2Proof.Machine

/-! ## Transfers in turn (18 R724, R742) -/

/-- From `s` to `w` transfers are queued, begin or end: the pages stay, and nothing but the store's transfers and descriptors' records
changes. -/
structure State.Transfers (s w : State) : Prop where
  only : ∃ v h, w = { s with nv := v, host := h }
  pages : w.nv.pages = s.nv.pages
  ledgerPage : w.nv.ledgerPage = s.nv.ledgerPage
  suspect : w.nv.suspect = s.nv.suspect
  suspectAddr : w.nv.suspectAddr = s.nv.suspectAddr

theorem State.Transfers.trans {a b c : State} (h : a.Transfers b) (g : b.Transfers c) : a.Transfers c := by
  refine ⟨?_, g.pages.trans h.pages, g.ledgerPage.trans h.ledgerPage, g.suspect.trans h.suspect, g.suspectAddr.trans h.suspectAddr⟩
  obtain ⟨v, x, rfl⟩ := h.only
  obtain ⟨v', x', rfl⟩ := g.only
  exact ⟨_, _, rfl⟩

theorem State.Transfers.refl (s : State) : s.Transfers s := ⟨⟨_, _, rfl⟩, rfl, rfl, rfl, rfl⟩

theorem State.Transfers.page {s w : State} (h : s.Transfers w) (q : Nat) : w.nv.page q = s.nv.page q := by rw [Nv.page, h.pages, Nv.page]

theorem State.finish_transfers (s : State) (id status : Nat) (res : List Byte) : s.Transfers (s.finish id status res) :=
  ⟨⟨_, _, rfl⟩, rfl, rfl, rfl, rfl⟩

theorem State.nvNext_transfers (n : Nat) (s : State) : s.Transfers (State.nvNext n s) := by
  induction n generalizing s with
  | zero => exact .refl s
  | succ n ih =>
    unfold State.nvNext
    split
    · exact .refl s
    split
    · exact ⟨⟨_, _, rfl⟩, rfl, rfl, rfl, rfl⟩
    split
    · exact .refl s
    · next j r _ =>
      have hr : s.Transfers (s.modNv fun v => { v with waiting := r }) := ⟨⟨_, _, rfl⟩, rfl, rfl, rfl, rfl⟩
      dsimp only
      split
      · refine hr.trans (.trans ?_ (ih _))
        cases j with
        | write => exact State.finish_transfers ..
        | confirm => exact State.finish_transfers ..
        | read => exact .refl _
        | snapshot => exact .refl _
        | ledger => exact .refl _
      · exact hr.trans ⟨⟨_, _, rfl⟩, rfl, rfl, rfl, rfl⟩

/-- A transfer behind those that wait. -/
def State.nvWait (s : State) (j : NvJob) : State := s.modNv fun v => { v with waiting := v.waiting ++ [j] }

/-- No transfer is in progress. -/
def State.nvDone (s : State) : State := s.modNv fun v => { v with job := none }

theorem State.nvWait_transfers (s : State) (j : NvJob) : s.Transfers (s.nvWait j) := ⟨⟨_, _, rfl⟩, rfl, rfl, rfl, rfl⟩

theorem State.nvDone_transfers (s : State) : s.Transfers s.nvDone := ⟨⟨_, _, rfl⟩, rfl, rfl, rfl, rfl⟩

theorem State.nvQueue_transfers (s : State) (j : NvJob) : s.Transfers (s.nvQueue j) :=
  (s.nvWait_transfers j).trans (State.nvNext_transfers _ _)

theorem State.nvFree_transfers (s : State) : s.Transfers s.nvFree := s.nvDone_transfers.trans (State.nvNext_transfers _ _)

theorem State.nvGoOn_transfers (s : State) (j : NvJob) : s.Transfers (s.nvGoOn j) := by
  unfold State.nvGoOn
  split
  · exact (s.nvWait_transfers j).trans (State.nvFree_transfers _)
  · exact ⟨⟨_, _, rfl⟩, rfl, rfl, rfl, rfl⟩

/-- With one transfer waiting and none in progress, it begins. -/
theorem State.nvNext_one {s : State} {j : NvJob} {n : Nat} (hidle : s.nv.job = none) (hone : s.nv.waiting = [j])
    (hfree : s.nvBarred = false ∨ j.writes = false ∨ j.isLedger = true) :
    State.nvNext (n + 1) s = s.modNv fun v => { v with job := some j, waiting := [], startedAt := s.now } := by
  have hnot : ¬ s.nv.job.isSome = true := by rw [hidle]; decide
  rw [State.nvNext, if_neg hnot, hone]
  cases hledger : j.isLedger with
  | true =>
    rw [List.find?_cons_of_pos hledger]
    have herase : s.nv.waiting.erase j = [] := by rw [hone, List.erase_cons_head]
    exact congrArg (fun l => s.modNv fun v => { v with job := some j, waiting := l, startedAt := s.now }) herase
  | false =>
    have hbar : ((s.modNv fun v => { v with waiting := [] }).nvBarred && j.writes) = false := by
      have hsame : (s.modNv fun v => { v with waiting := [] }).nvBarred = s.nvBarred := rfl
      obtain h | h | h := hfree
      · rw [hsame, h, Bool.false_and]
      · rw [h, Bool.and_false]
      · rw [hledger] at h
        exact absurd h (by decide)
    rw [List.find?_cons_of_neg (by simp [hledger]), List.find?_nil]
    dsimp only
    rw [hbar]
    rfl

/-- A transfer that may begin now does, with nothing in its way. -/
theorem State.nvQueue_begins {s : State} {j : NvJob} (hidle : s.nv.job = none) (hnone : s.nv.waiting = [])
    (hfree : s.nvBarred = false ∨ j.writes = false ∨ j.isLedger = true) :
    s.nvQueue j = { s with nv := { s.nv with job := some j, startedAt := s.now } } := by
  have hone : (s.nvWait j).nv.waiting = [j] := by
    show s.nv.waiting ++ [j] = _
    rw [hnone, List.nil_append]
  refine (State.nvNext_one (s := s.nvWait j) hidle hone hfree).trans ?_
  show { s with nv := { s.nv with job := some j, waiting := [], startedAt := s.now } } = _
  rw [← hnone]

/-- A transfer waits for the one in progress. -/
theorem State.nvQueue_waits {s : State} {j : NvJob} (hbusy : s.nv.job.isSome = true) :
    s.nvQueue j = { s with nv := { s.nv with waiting := s.nv.waiting ++ [j] } } := by
  show State.nvNext ((s.nv.waiting ++ [j]).length + 1) _ = _
  rw [State.nvNext]
  exact if_pos hbusy

/-- With none waiting the store is idle once a transfer is over. -/
theorem State.nvFree_idle {s : State} (hnone : s.nv.waiting = []) : s.nvFree = s.nvDone := by
  show State.nvNext (s.nv.waiting.length + 1) s.nvDone = _
  have hnot : ¬ s.nvDone.nv.job.isSome = true := Bool.false_ne_true
  have hw : s.nvDone.nv.waiting = [] := hnone
  rw [State.nvNext, if_neg hnot, hw]
  rfl

/-- With none waiting a transfer goes on. -/
theorem State.nvGoOn_goes {s : State} (hnone : s.nv.waiting = []) (j : NvJob) :
    s.nvGoOn j = { s with nv := { s.nv with job := some j, startedAt := s.now } } := by
  refine if_neg fun h => ?_
  rw [hnone] at h
  exact absurd h.1 (by decide)

/-! ## SAFETY_LOAD (17 R698) -/

/-- The store takes a set without fault: it waits for its check value, and none is in force. -/
def State.spsTaken (s : State) (data : List Byte) : State :=
  s.modSaf fun g =>
    { g with loaded := some data, checkLoaded := crc32c data, sps := none, checkForce := 0, pairs := [], fns := [], conns := [],
             disagree := [], ackSince := none, ack := false, ackOwed := false,
             a := { g.a with ticks := 0 }, b := { g.b with ticks := 0 } }

/-- Both channels go to OFF. -/
def State.channelsOff (s : State) : State := (s.setCh false .off).setCh true .off

theorem State.channelsOff_quiet (s : State) : s.Quiet s.channelsOff := (s.setCh_quiet _ _).trans (State.setCh_quiet _ _ _)

theorem State.channelsOff_st (s : State) : s.channelsOff.saf.a.st = .off ∧ s.channelsOff.saf.b.st = .off :=
  ⟨congrArg SafCh.st ((State.setCh_ch_other (s.setCh false .off) true .off).trans (s.setCh_ch_same false .off)),
    congrArg SafCh.st (State.setCh_ch_same (s.setCh false .off) true .off)⟩

theorem State.setCh_set (s : State) (chB : Bool) (st : ChSt) :
    (s.setCh chB st).saf.loaded = s.saf.loaded ∧ (s.setCh chB st).saf.checkLoaded = s.saf.checkLoaded := by
  unfold State.setCh
  split
  · exact ⟨rfl, rfl⟩
  · cases chB <;> exact ⟨rfl, rfl⟩

theorem State.unwant_inCycle (s : State) (l : List Nat) : s.InCycle (s.unwant l) := .foldl (fun s k => s.modOut_inCycle k _) l s

theorem State.unwant_set (s : State) (l : List Nat) :
    (s.unwant l).saf.loaded = s.saf.loaded ∧ (s.unwant l).saf.checkLoaded = s.saf.checkLoaded :=
  List.foldlRecOn (motive := fun w : State => w.saf.loaded = s.saf.loaded ∧ w.saf.checkLoaded = s.saf.checkLoaded) l _ ⟨rfl, rfl⟩
    fun _ h _ _ => h

/-- A set without fault is loaded. -/
def State.spsLoaded (s : State) (data : List Byte) : State :=
  ((((s.spsTaken data).unwant (List.range 8)).channelsOff).safMark false 0xCD 0 0).safMark true 0xCD 0 0

theorem State.spsLoaded_inCycle (s : State) (data : List Byte) : (s.spsTaken data).InCycle (s.spsLoaded data) :=
  ((((s.spsTaken data).unwant_inCycle _).trans (State.channelsOff_quiet _).toInCycle).trans (State.safMark_quiet ..).toInCycle).trans
    (State.safMark_quiet ..).toInCycle

theorem State.spsLoaded_desk (s : State) (data : List Byte) : Desk { s with saf := (s.spsLoaded data).saf } (s.spsLoaded data) := by
  obtain ⟨o, g, a, h⟩ := (s.spsLoaded_inCycle data).only
  rw [h]
  rfl

theorem State.spsLoaded_set (s : State) (data : List Byte) :
    (s.spsLoaded data).saf.loaded = some data ∧ (s.spsLoaded data).saf.checkLoaded = crc32c data := by
  have hoff := State.setCh_set ((s.spsTaken data).unwant (List.range 8)) false .off
  have hoff' := State.setCh_set (((s.spsTaken data).unwant (List.range 8)).setCh false .off) true .off
  have hwant := State.unwant_set (s.spsTaken data) (List.range 8)
  exact ⟨hoff'.1.trans (hoff.1.trans hwant.1), hoff'.2.trans (hoff.2.trans hwant.2)⟩

theorem State.spsLoaded_st (s : State) (data : List Byte) : (s.spsLoaded data).saf.a.st = .off ∧ (s.spsLoaded data).saf.b.st = .off :=
  State.channelsOff_st ((s.spsTaken data).unwant (List.range 8))

theorem State.spsLoaded_want (s : State) (data : List Byte) {k : Nat} (hk : k < 8) : ((s.spsLoaded data).safOut k).want = false := by
  have hquiet : ((s.spsTaken data).unwant (List.range 8)).Quiet (s.spsLoaded data) :=
    ((State.channelsOff_quiet _).trans (State.safMark_quiet ..)).trans (State.safMark_quiet ..)
  rw [hquiet.safOut, State.unwant_safOut, if_pos (List.mem_range.mpr hk)]

section
variable {s : State} {t : Nat} {h : DHdr}

theorem execSafetyLoad_loads {data : List Byte} (ht : Taken (s.before t) h (.safetyLoad data)) (hmode : (s.before t).pw.mode = .commission)
    (hrange : leastOf (spsRange data) = none) (hincons : leastOf (spsIncons data) = none) : let b := s.before t
    ∃ w, exec (.safetyLoad t h data) s = .next (ends s t w) ∧ Desk { b with saf := w.saf } w ∧ w.saf.loaded = some data ∧
      w.saf.checkLoaded = crc32c data ∧ w.saf.sps = none ∧ w.saf.a.st = .off ∧ w.saf.b.st = .off ∧
      ∀ k < 8, (w.safOut k).want = false := by
  intro b
  refine ⟨_, exec_taken (f := fxSafetyLoad data) rfl ht, ?_⟩
  generalize hv : (b.cmdTaken h (.safetyLoad data)) = v
  have hvb : Desk b v := hv ▸ b.cmdTaken_Desk h (.safetyLoad data)
  have heffect : fxSafetyLoad data (b.cmdCtx h (.safetyLoad data)) (b.cmdEntry h (.safetyLoad data)) v =
      (v.spsLoaded data).finish (b.cmdEntry h (.safetyLoad data)).id stDone (leBytes 4 (crc32c data) ++ zeros 4) := by
    unfold fxSafetyLoad
    rw [if_neg (not_not_intro (hvb.pw ▸ hmode : v.pw.mode = .commission)), hrange, hincons]
    rfl
  rw [heffect]
  have hend := State.finish_posted_desk (v.spsLoaded data) (b.cmdEntry h (.safetyLoad data)).id stDone (leBytes 4 (crc32c data) ++ zeros 4)
  have hset := v.spsLoaded_set data
  have hst := v.spsLoaded_st data
  refine ⟨?_, ?_, ?_, ?_, ?_, ?_, fun k hk => ?_⟩
  · rw [hend.saf]
    refine Desk.trans ?_ ((v.spsLoaded_desk data).trans hend)
    rw [show v = _ from hvb]
    exact rfl
  · rw [hend.saf]; exact hset.1
  · rw [hend.saf]; exact hset.2
  · rw [hend.saf]; exact (v.spsLoaded_inCycle data).sps
  · rw [hend.saf]; exact hst.1
  · rw [hend.saf]; exact hst.2
  · rw [State.safOut, hend.saf]; exact v.spsLoaded_want data hk

/-! ## SAFETY_CONFIRM (17 R671, R699; 18 R747) -/

theorem execSafetyLoad_rejects {data : List Byte} (ht : Taken (s.before t) h (.safetyLoad data))
    (hmode : (s.before t).pw.mode ≠ .commission) :
    ∃ w, exec (.safetyLoad t h data) s = .next (ends s t w) ∧ Desk (s.before t) w := by
  refine ⟨_, exec_taken (f := fxSafetyLoad data) rfl ht, ?_⟩
  unfold fxSafetyLoad
  rw [if_pos (show ((s.before t).cmdTaken h (.safetyLoad data)).pw.mode ≠ .commission from hmode)]
  exact ((s.before t).cmdTaken_Desk ..).trans (State.finish_posted_desk ..)

theorem execSafetyConfirm_writes {check : Nat} {sps : List Byte} (ht : Taken (s.before t) h (.safetyConfirm check))
    (hmode : (s.before t).pw.mode = .commission) (hloaded : (s.before t).saf.loaded = some sps)
    (hcheck : check = (s.before t).saf.checkLoaded) (hbar : (s.before t).nvBarred = false) (hfence : (s.before t).nvFenced = false)
    (hidle : (s.before t).nv.job = none) (hnone : (s.before t).nv.waiting = []) : let b := s.before t
    ∃ w, exec (.safetyConfirm t h check) s = .next (ends s t w) ∧ w.saf = b.saf ∧
      w.nv.job = some (.confirm b.host.nextId (spsPage (match b.nv.spsNewer with | some c => 1 - c | none => 0))
        (b.nv.spsBytes sps check) check) := by
  intro b
  refine ⟨_, exec_taken (f := fxSafetyConfirm check) rfl ht, ?_⟩
  have heffect : fxSafetyConfirm check (b.cmdCtx h (.safetyConfirm check)) (b.cmdEntry h (.safetyConfirm check))
      (b.cmdTaken h (.safetyConfirm check)) = (b.cmdTaken h (.safetyConfirm check)).nvQueue
        (.confirm b.host.nextId (spsPage (match b.nv.spsNewer with | some c => 1 - c | none => 0)) (b.nv.spsBytes sps check) check) := by
    unfold fxSafetyConfirm
    rw [if_neg (not_not_intro (show (b.cmdTaken h (.safetyConfirm check)).pw.mode = .commission from hmode)),
      show (b.cmdTaken h (.safetyConfirm check)).saf.loaded = some sps from hloaded]
    have hbar' : ¬ (b.cmdTaken h (.safetyConfirm check)).nvBarred = true := by
      rw [show (b.cmdTaken h (.safetyConfirm check)).nvBarred = false from hbar]
      decide
    have hfence' : ¬ (b.cmdTaken h (.safetyConfirm check)).nvFenced = true := by
      rw [show (b.cmdTaken h (.safetyConfirm check)).nvFenced = false from hfence]
      decide
    exact (if_neg (not_not_intro hcheck)).trans ((if_neg hbar').trans ((if_neg hfence').trans rfl))
  rw [heffect, State.nvQueue_begins (s := b.cmdTaken h (.safetyConfirm check)) hidle hnone (.inl hbar)]
  exact ⟨(State.postReady_Desk _).saf, congrArg Nv.job (State.postReady_Desk _).nv⟩

theorem execSafetyConfirm_rejects {check : Nat} {sps : List Byte} (ht : Taken (s.before t) h (.safetyConfirm check))
    (hloaded : (s.before t).saf.loaded = some sps)
    (hnot : (s.before t).pw.mode ≠ .commission ∨ check ≠ (s.before t).saf.checkLoaded) :
    ∃ w, exec (.safetyConfirm t h check) s = .next (ends s t w) ∧ Desk (s.before t) w := by
  refine ⟨_, exec_taken (f := fxSafetyConfirm check) rfl ht, ?_⟩
  refine ((s.before t).cmdTaken_Desk h (.safetyConfirm check)).trans (Desk.trans ?_ (State.postReady_Desk _))
  unfold fxSafetyConfirm
  split
  · exact State.finish_Desk ..
  · next hmode =>
    rw [show ((s.before t).cmdTaken h (.safetyConfirm check)).saf.loaded = some sps from hloaded]
    dsimp only
    rw [if_pos (show check ≠ ((s.before t).cmdTaken h (.safetyConfirm check)).saf.checkLoaded from hnot.resolve_left hmode)]
    exact State.finish_Desk ..

/-- The acknowledgement is owed to the channels. -/
def State.ackComes (s : State) : State := s.modSaf fun g => { g with ackOwed := true }

theorem execSafetyConfirm_acknowledges {check : Nat} (ht : Taken (s.before t) h (.safetyConfirm check))
    (hmode : (s.before t).pw.mode = .commission) (hnone : (s.before t).saf.loaded = none) (hsps : (s.before t).saf.sps.isSome = true)
    (hinput : (s.before t).ackInput = none) (hcheck : check = (s.before t).saf.checkForce) : let b := s.before t
    ∃ w, exec (.safetyConfirm t h check) s = .next (ends s t w) ∧ Desk { b with saf := { b.saf with ackOwed := true } } w := by
  intro b
  refine ⟨_, exec_taken (f := fxSafetyConfirm check) rfl ht, ?_⟩
  have heffect : fxSafetyConfirm check (b.cmdCtx h (.safetyConfirm check)) (b.cmdEntry h (.safetyConfirm check))
      (b.cmdTaken h (.safetyConfirm check)) = (b.cmdTaken h (.safetyConfirm check)).ackComes.finish
        (b.cmdEntry h (.safetyConfirm check)).id stDone (zeros 8) := by
    unfold fxSafetyConfirm
    rw [if_neg (not_not_intro (show (b.cmdTaken h (.safetyConfirm check)).pw.mode = .commission from hmode)),
      show (b.cmdTaken h (.safetyConfirm check)).saf.loaded = none from hnone]
    exact if_pos ⟨hsps, hinput, hcheck⟩
  rw [heffect]
  refine Desk.trans ?_ (State.finish_posted_desk _ _ _ _)
  exact rfl

/-! ## The set in force (17 R699) -/

theorem State.confirmSps_loaded {s : State} {check : Nat} {sps : List Byte} (hloaded : s.saf.loaded = some sps)
    (hcheck : s.saf.checkLoaded = check) : (s.confirmSps check).saf.sps = some sps ∧ (s.confirmSps check).saf.loaded = none ∧
      (s.confirmSps check).saf.checkForce = check ∧ (s.confirmSps check).nv = s.nv := by
  have hwaits : s.saf.loaded.isSome = true ∧ s.saf.checkLoaded = check := ⟨by rw [hloaded]; rfl, hcheck⟩
  unfold State.confirmSps
  rw [if_pos hwaits]
  exact ⟨hloaded, rfl, rfl, rfl⟩

theorem State.Transfers.saf {s w : State} (h : s.Transfers w) : w.saf = s.saf := by
  obtain ⟨v, x, rfl⟩ := h.only
  rfl

theorem execNvPageWriteDone_confirms {id p check : Nat} {rest sps : List Byte}
    (hjob : (s.before t).nv.job = some (.confirm id p rest check)) (hlast : rest.drop 1024 = [])
    (hloaded : (s.before t).saf.loaded = some sps) (hcheck : (s.before t).saf.checkLoaded = check) :
    ∃ w, exec (.nvPageWriteDone t) s = .next (ends s t w) ∧ w.saf.sps = some sps ∧ w.saf.loaded = none ∧ w.saf.checkForce = check := by
  have hspec := State.confirmSps_loaded (s := (s.before t).modNv fun v => v.putPage p (rest.take 1024)) hloaded hcheck
  refine ⟨((((s.before t).modNv fun v => v.putPage p (rest.take 1024)).confirmSps check).finish id stDone (zeros 8)).nvFree.postReady, ?_, ?_⟩
  · show execNvPageWriteDone t s = _
    refine does_of_effect ?_
    rw [hjob]
    dsimp only
    rw [hlast]
    rfl
  · obtain ⟨hsps, hgone, hforce, -⟩ := hspec
    rw [(State.postReady_Desk _).saf, (State.nvFree_transfers _).saf]
    exact ⟨hsps, hgone, hforce⟩

end

/-- Settles O17: each descriptor from its effect, and the last page of a confirmed set. -/
theorem safetyParametersAreLoadedAndConfirmed : Obligations.SafetyParametersAreLoadedAndConfirmed := by
  unfold Obligations.SafetyParametersAreLoadedAndConfirmed
  intro s t h b
  exact ⟨fun data ht hmode hrange hincons => execSafetyLoad_loads ht hmode hrange hincons,
    fun data ht hmode => execSafetyLoad_rejects ht hmode,
    fun check sps ht hmode hloaded hcheck hbar hfence hidle hnone =>
      execSafetyConfirm_writes ht hmode hloaded hcheck hbar hfence hidle hnone,
    fun check sps ht hloaded hnot => execSafetyConfirm_rejects ht hloaded hnot,
    fun check ht hmode hnone hsps hinput hcheck => execSafetyConfirm_acknowledges ht hmode hnone hsps hinput hcheck,
    fun id p rest check sps hjob hlast _ hloaded hcheck => execNvPageWriteDone_confirms hjob hlast hloaded hcheck⟩

end Sys2Proof.Machine
end

section
/-! O16: transfers of the NV store, page by page (18 R724, R742, R745; 01 R38; 16 R635). -/

namespace Sys2Proof.Machine

/-! ## A transfer is queued (18 R742) -/

/-- A transfer begins where none is in progress, and waits its turn otherwise. -/
def State.nvQueued (s : State) (j : NvJob) : State :=
  if s.nv.job.isSome then { s with nv := { s.nv with waiting := s.nv.waiting ++ [j] } }
  else { s with nv := { s.nv with job := some j, startedAt := s.now } }

theorem State.nvQueue_queued {s : State} {j : NvJob} (hturn : s.nv.waiting = [] ∨ s.nv.job.isSome = true)
    (hfree : s.nvBarred = false ∨ j.writes = false ∨ j.isLedger = true) : s.nvQueue j = s.nvQueued j := by
  unfold State.nvQueued
  split
  · next hbusy => exact State.nvQueue_waits hbusy
  · next hidle =>
    exact State.nvQueue_begins (Option.not_isSome_iff_eq_none.mp hidle) (hturn.resolve_right hidle) hfree

theorem Desk.nvQueued {b v : State} (h : Desk b v) (j : NvJob) : Desk (b.nvQueued j) (v.nvQueued j) := by
  rw [show v = _ from h]
  unfold State.nvQueued
  split <;> exact rfl

section
variable {s : State} {t : Nat} {h : DHdr} {addr buf len : Nat} {data : List Byte}

/-- A transfer that a descriptor queues, at its end. -/
theorem Desk.nvQueue_posted {b v : State} {j : NvJob} (hb : Desk b v) (hturn : b.nv.waiting = [] ∨ b.nv.job.isSome = true)
    (hfree : b.nvBarred = false ∨ j.writes = false) : Desk (b.nvQueued j) (v.nvQueue j).postReady := by
  have hturn' : v.nv.waiting = [] ∨ v.nv.job.isSome = true := by rw [hb.nv]; exact hturn
  have hbar : v.nvBarred = b.nvBarred := by rw [show v = _ from hb]; rfl
  have hfree' : v.nvBarred = false ∨ j.writes = false ∨ j.isLedger = true := by rw [hbar]; exact hfree.imp_right .inl
  rw [State.nvQueue_queued hturn' hfree']
  exact (hb.nvQueued j).trans (State.postReady_Desk _)

/-! ## NV_WRITE (18 R742, R743, R745) -/

/-- NV_WRITE of what the store accepts in its mode: it queues the bytes, of the table or of the host. -/
theorem fxNvWrite_queues {c : Ctx} {e : Entry} {v : State} {area : NvArea} (hfence : v.nvFenced = false) (hrange : nvRange addr buf len = none)
    (harea : areaOf addr = some area) (hwritable : area.writable = true) (hmode : area.inMode v.pw.mode = true) (hbar : v.nvBarred = false)
    (hlen : 0 < len) :
    (snapAxis addr buf = none → fxNvWrite addr buf len data c e v = v.nvQueue (.write e.id (addr / 1024) (padTo len data) 0)) ∧
    (∀ a, snapAxis addr buf = some a → (v.axis a).ln.master.isSome = true →
      fxNvWrite addr buf len data c e v = v.nvQueue (.write e.id (addr / 1024) (snapBytes a c.n (v.axis a).ln) 0)) := by
  have hlen' : len ≠ 0 := Nat.pos_iff_ne_zero.mp hlen
  constructor
  · intro hsnap
    unfold fxNvWrite
    simp [hfence, hrange, harea, hwritable, hmode, hsnap, hbar, hlen']
  · intro a hsnap hmaster
    unfold fxNvWrite
    simp only [hfence, hrange, harea, hwritable, hmode, hsnap, hbar, hlen', Option.getD_some, Option.map_some]
    generalize (v.axis a).ln = g at hmaster
    obtain ⟨m⟩ := g
    cases m with
    | none => exact absurd hmaster Bool.false_ne_true
    | some m => rfl

/-- NV_WRITE that transfers nothing. -/
theorem fxNvWrite_idle {c : Ctx} {e : Entry} {v : State}
    (hnot : v.nvFenced = true ∨ nvRange addr buf len ≠ none ∨ v.nvBarred = true ∨ len = 0) :
    Desk v (fxNvWrite addr buf len data c e v) := by
  unfold fxNvWrite
  split
  · exact State.finish_Desk ..
  next hfence =>
  split
  · exact State.finish_Desk ..
  next hrange =>
  dsimp only
  split
  · exact State.finish_Desk ..
  split
  · exact State.finish_Desk ..
  split
  · exact State.finish_Desk ..
  split
  · exact State.finish_Desk ..
  next hbar =>
  split
  · exact State.finish_Desk ..
  next hlen =>
  exact absurd hnot (by simp [hfence, hrange, hbar, hlen])

theorem execNvWrite_queues {area : NvArea} (hturn : (s.before t).nv.waiting = [] ∨ (s.before t).nv.job.isSome = true)
    (ht : Taken (s.before t) h (.nvWrite addr buf len data)) (hfence : (s.before t).nvFenced = false) (hrange : nvRange addr buf len = none)
    (harea : areaOf addr = some area) (hwritable : area.writable = true) (hmode : area.inMode (s.before t).pw.mode = true)
    (hbar : (s.before t).nvBarred = false) (hlen : 0 < len) : let b := s.before t
    (snapAxis addr buf = none → ∃ w, exec (.nvWrite t h addr buf len data) s = .next (ends s t w) ∧
      Desk (b.nvQueued (.write b.host.nextId (addr / 1024) (padTo len data) 0)) w) ∧
    (∀ a, snapAxis addr buf = some a → (b.axis a).ln.master.isSome = true →
      ∃ w, exec (.nvWrite t h addr buf len data) s = .next (ends s t w) ∧
        Desk (b.nvQueued (.write b.host.nextId (addr / 1024)
          (snapBytes a (b.cmdCtx h (.nvWrite addr buf len data)).n (b.axis a).ln) 0)) w) := by
  intro b
  have hexec := exec_taken (i := .nvWrite t h addr buf len data) (f := fxNvWrite addr buf len data) rfl ht
  have hdesk : Desk b (b.cmdTaken h (.nvWrite addr buf len data)) := State.cmdTaken_Desk ..
  have heffect := fxNvWrite_queues (data := data) (v := b.cmdTaken h (.nvWrite addr buf len data))
    (c := b.cmdCtx h (.nvWrite addr buf len data)) (e := b.cmdEntry h (.nvWrite addr buf len data)) hfence hrange harea hwritable hmode
    hbar hlen
  refine ⟨fun hsnap => ⟨_, hexec, ?_⟩, fun a hsnap hmaster => ⟨_, hexec, ?_⟩⟩
  · rw [show fxNvWrite addr buf len data _ _ _ = _ from heffect.1 hsnap]
    exact hdesk.nvQueue_posted hturn (.inl hbar)
  · rw [show fxNvWrite addr buf len data _ _ _ = _ from heffect.2 a hsnap hmaster]
    exact hdesk.nvQueue_posted hturn (.inl hbar)

theorem execNvWrite_idle (ht : Taken (s.before t) h (.nvWrite addr buf len data))
    (hnot : (s.before t).nvFenced = true ∨ nvRange addr buf len ≠ none ∨ (s.before t).nvBarred = true ∨ len = 0) :
    ∃ w, exec (.nvWrite t h addr buf len data) s = .next (ends s t w) ∧ Desk (s.before t) w :=
  ⟨_, exec_taken (f := fxNvWrite addr buf len data) rfl ht, (State.cmdTaken_Desk ..).trans
    ((fxNvWrite_idle (v := (s.before t).cmdTaken h (.nvWrite addr buf len data)) hnot).trans (State.postReady_Desk _))⟩

/-! ## NV_READ (18 R742, R743, R745) -/

theorem fxNvRead_queues {c : Ctx} {e : Entry} {v : State} (hfence : v.nvFenced = false) (hrange : nvRange addr buf len = none)
    (hlen : 0 < len) :
    (snapAxis addr buf = none → fxNvRead addr buf len c e v = v.nvQueue (.read e.id (addr / 1024) (len / 1024) buf 0)) ∧
    (∀ a, snapAxis addr buf = some a → v.pw.mode = .commission ∨ v.pw.mode = .idle ∨ v.pw.mode = .armed →
      snapOk a (v.axis a).ln (v.nv.readPages (addr / 1024) 9) = true →
      fxNvRead addr buf len c e v = v.nvQueue (.snapshot e.id a (addr / 1024) 9 [])) := by
  have hlen' : len ≠ 0 := Nat.pos_iff_ne_zero.mp hlen
  constructor
  · intro hsnap
    unfold fxNvRead
    simp [hfence, hrange, hsnap, hlen']
  · intro a hsnap hmode hok
    have hmode' : ¬ (v.pw.mode ≠ .commission ∧ v.pw.mode ≠ .idle ∧ v.pw.mode ≠ .armed) := by tauto
    unfold fxNvRead
    simp only [hfence, hrange, hsnap]
    exact (if_neg Bool.false_ne_true).trans ((if_neg hmode').trans (if_neg (by simp [hok])))

theorem fxNvRead_idle {c : Ctx} {e : Entry} {v : State}
    (hnot : v.nvFenced = true ∨ nvRange addr buf len ≠ none ∨ (len = 0 ∧ snapAxis addr buf = none)) :
    Desk v (fxNvRead addr buf len c e v) := by
  unfold fxNvRead
  split
  · exact State.finish_Desk ..
  next hfence =>
  split
  · exact State.finish_Desk ..
  next hrange =>
  obtain ⟨hlen, hsnap⟩ : len = 0 ∧ snapAxis addr buf = none := by simpa [hfence, hrange] using hnot
  rw [hsnap]
  dsimp only
  rw [if_pos hlen]
  exact State.finish_Desk ..

theorem execNvRead_queues (hturn : (s.before t).nv.waiting = [] ∨ (s.before t).nv.job.isSome = true)
    (ht : Taken (s.before t) h (.nvRead addr buf len)) (hfence : (s.before t).nvFenced = false) (hrange : nvRange addr buf len = none)
    (hlen : 0 < len) : let b := s.before t
    (snapAxis addr buf = none → ∃ w, exec (.nvRead t h addr buf len) s = .next (ends s t w) ∧
      Desk (b.nvQueued (.read b.host.nextId (addr / 1024) (len / 1024) buf 0)) w) ∧
    (∀ a, snapAxis addr buf = some a → b.pw.mode = .commission ∨ b.pw.mode = .idle ∨ b.pw.mode = .armed →
      snapOk a (b.axis a).ln (b.nv.readPages (addr / 1024) 9) = true → ∃ w, exec (.nvRead t h addr buf len) s = .next (ends s t w) ∧
        Desk (b.nvQueued (.snapshot b.host.nextId a (addr / 1024) 9 [])) w) := by
  intro b
  have hexec := exec_taken (i := .nvRead t h addr buf len) (f := fxNvRead addr buf len) rfl ht
  have hdesk : Desk b (b.cmdTaken h (.nvRead addr buf len)) := State.cmdTaken_Desk ..
  have heffect := fxNvRead_queues (v := b.cmdTaken h (.nvRead addr buf len)) (c := b.cmdCtx h (.nvRead addr buf len))
    (e := b.cmdEntry h (.nvRead addr buf len)) hfence hrange hlen
  refine ⟨fun hsnap => ⟨_, hexec, ?_⟩, fun a hsnap hmode hok => ⟨_, hexec, ?_⟩⟩
  · rw [show fxNvRead addr buf len _ _ _ = _ from heffect.1 hsnap]
    exact hdesk.nvQueue_posted hturn (.inr rfl)
  · rw [show fxNvRead addr buf len _ _ _ = _ from heffect.2 a hsnap hmode hok]
    exact hdesk.nvQueue_posted hturn (.inr rfl)

theorem execNvRead_idle (ht : Taken (s.before t) h (.nvRead addr buf len))
    (hnot : (s.before t).nvFenced = true ∨ nvRange addr buf len ≠ none ∨ (len = 0 ∧ snapAxis addr buf = none)) :
    ∃ w, exec (.nvRead t h addr buf len) s = .next (ends s t w) ∧ Desk (s.before t) w :=
  ⟨_, exec_taken (f := fxNvRead addr buf len) rfl ht, (State.cmdTaken_Desk ..).trans
    ((fxNvRead_idle (v := (s.before t).cmdTaken h (.nvRead addr buf len)) hnot).trans (State.postReady_Desk _))⟩

end

/-! ## A page is written (18 R724, R742) -/

/-- The page in progress is written. -/
def State.pageWritten (s : State) (p : Nat) (bytes : List Byte) : State := s.modNv fun v => v.putPage p bytes

theorem State.Transfers.pageWritten {s w : State} {p : Nat} {bytes : List Byte} (h : (s.pageWritten p bytes).Transfers w) :
    w.nv.page p = padTo 1024 bytes ∧ ∀ q, q ≠ p → w.nv.page q = s.nv.page q := by
  have hpage := fun q => (h.page q).trans (s.nv.putPage_page p bytes q)
  exact ⟨(hpage p).trans (if_pos rfl), fun q hq => (hpage q).trans (if_neg hq)⟩

section
variable {s : State} {t : Nat}

theorem execNvPageWriteDone_write {id p done : Nat} {rest : List Byte} (hjob : (s.before t).nv.job = some (.write id p rest done)) :
    let b := s.before t
    ∃ w, exec (.nvPageWriteDone t) s = .next (ends s t w) ∧
    w.nv.page p = padTo 1024 (rest.take 1024) ∧ (∀ q, q ≠ p → w.nv.page q = b.nv.page q) ∧
    (rest.drop 1024 ≠ [] → b.nvBarred = false → b.nv.waiting = [] →
      w.nv.job = some (.write id (p + 1) (rest.drop 1024) (done + 1024)) ∧ w.nv.startedAt = b.now) ∧
    (rest.drop 1024 = [] ∨ b.nvBarred = true → b.nv.waiting = [] → w.nv.job = none) := by
  intro b
  generalize hv : b.pageWritten p (rest.take 1024) = v
  have hwaiting : v.nv.waiting = b.nv.waiting := hv ▸ rfl
  have hbarred : v.nvBarred = b.nvBarred := hv ▸ rfl
  have hnow : v.now = b.now := hv ▸ rfl
  have hexec : ∀ w, (if (rest.drop 1024).isEmpty then (v.finish id stDone (zeros 8)).nvFree.postReady
      else if v.nvBarred then (v.finish id stDeferred (leBytes 4 (done + 1024) ++ zeros 4)).nvFree.postReady
      else (v.nvGoOn (.write id (p + 1) (rest.drop 1024) (done + 1024))).postReady) = w →
      exec (.nvPageWriteDone t) s = .next (ends s t w) := by
    intro w hw
    show execNvPageWriteDone t s = _
    refine does_of_effect ?_
    rw [hjob, ← hw, ← hv]
    rfl
  have hfreed : ∀ status res, v.Transfers (v.finish id status res).nvFree := fun status res =>
    (v.finish_transfers ..).trans (State.nvFree_transfers _)
  have hidle : ∀ status res, b.nv.waiting = [] → (v.finish id status res).nvFree.nv.job = none := fun status res hnone => by
    rw [State.nvFree_idle (s := v.finish id status res) (hwaiting.trans hnone)]
    rfl
  have hpages : ∀ {u : State}, v.Transfers u → u.nv.page p = padTo 1024 (rest.take 1024) ∧ ∀ q, q ≠ p → u.nv.page q = b.nv.page q := by
    intro u hu
    rw [← hv] at hu
    exact hu.pageWritten
  by_cases hlast : rest.drop 1024 = []
  · refine ⟨_, hexec _ (if_pos (by rw [hlast]; rfl)), ?_⟩
    rw [(State.postReady_Desk _).nv]
    exact ⟨(hpages (hfreed _ _)).1, (hpages (hfreed _ _)).2, fun h => absurd hlast h, fun _ => hidle _ _⟩
  have hmore : ¬ (rest.drop 1024).isEmpty = true := by rw [List.isEmpty_iff]; exact hlast
  by_cases hbar : b.nvBarred = true
  · refine ⟨_, hexec _ ((if_neg hmore).trans (if_pos (hbarred.trans hbar))), ?_⟩
    rw [(State.postReady_Desk _).nv]
    exact ⟨(hpages (hfreed _ _)).1, (hpages (hfreed _ _)).2, fun _ h => absurd hbar (by rw [h]; decide), fun _ => hidle _ _⟩
  · refine ⟨_, hexec _ ((if_neg hmore).trans (if_neg (by rw [hbarred]; exact hbar))), ?_⟩
    rw [(State.postReady_Desk _).nv]
    refine ⟨(hpages (v.nvGoOn_transfers _)).1, (hpages (v.nvGoOn_transfers _)).2, fun _ _ hnone => ?_, fun h => absurd h (by simp [hlast, hbar])⟩
    rw [State.nvGoOn_goes (hwaiting.trans hnone)]
    exact ⟨rfl, hnow⟩

theorem execNvPageWriteDone_ledger {p : Nat} {pg : List Byte} {rest : List (List Byte)}
    (hjob : (s.before t).nv.job = some (.ledger p (pg :: rest))) : let b := s.before t
    ∃ w, exec (.nvPageWriteDone t) s = .next (ends s t w) ∧
    w.nv.page (0x814000 / 1024 + p) = padTo 1024 pg ∧ (∀ q, q ≠ 0x814000 / 1024 + p → w.nv.page q = b.nv.page q) ∧
    w.nv.ledgerPage = (p + 1) % 8 := by
  intro b
  generalize hv : ((b.pageWritten (0x814000 / 1024 + p) pg).modNv fun v => { v with ledgerPage := (p + 1) % 8 }) = v
  have hledger : v.nv.ledgerPage = (p + 1) % 8 := hv ▸ rfl
  have hexec : ∀ w, (if rest.isEmpty then v.nvFree.postReady else (v.nvGoOn (.ledger ((p + 1) % 8) rest)).postReady) = w →
      exec (.nvPageWriteDone t) s = .next (ends s t w) := by
    intro w hw
    show execNvPageWriteDone t s = _
    refine does_of_effect ?_
    rw [hjob, ← hw, ← hv]
    rfl
  have hpages : ∀ {u : State}, v.Transfers u → u.nv.page (0x814000 / 1024 + p) = padTo 1024 pg ∧
      (∀ q, q ≠ 0x814000 / 1024 + p → u.nv.page q = b.nv.page q) ∧ u.nv.ledgerPage = (p + 1) % 8 := by
    intro u hu
    have hpage : ∀ q, u.nv.page q = (b.pageWritten (0x814000 / 1024 + p) pg).nv.page q := fun q => (hu.page q).trans (hv ▸ rfl)
    have hwritten := (State.Transfers.refl (b.pageWritten (0x814000 / 1024 + p) pg)).pageWritten
    exact ⟨(hpage _).trans hwritten.1, fun q hq => (hpage q).trans (hwritten.2 q hq), hu.ledgerPage.trans hledger⟩
  by_cases hlast : rest.isEmpty = true
  · refine ⟨_, hexec _ (if_pos hlast), ?_⟩
    rw [(State.postReady_Desk _).nv]
    exact hpages v.nvFree_transfers
  · refine ⟨_, hexec _ (if_neg hlast), ?_⟩
    rw [(State.postReady_Desk _).nv]
    exact hpages (v.nvGoOn_transfers _)

/-! ## A page is read (18 R742, R745) -/

theorem State.Transfers.out {s w : State} (h : s.Transfers w) : w.out = s.out := by
  obtain ⟨v, x, rfl⟩ := h.only
  rfl

theorem State.Transfers.axis {s w : State} (h : s.Transfers w) (a : Nat) : w.axis a = s.axis a := by
  obtain ⟨v, x, rfl⟩ := h.only
  rfl

theorem State.Transfers.asy {s w : State} (h : s.Transfers w) : w.asy = s.asy := by
  obtain ⟨v, x, rfl⟩ := h.only
  rfl

theorem execNvPageReadDone_read {id p left buf done : Nat} (hjob : (s.before t).nv.job = some (.read id p left buf done))
    (hhost : (s.before t).fenced srcHostEngine = false) : let b := s.before t
    ∃ w, exec (.nvPageReadDone t) s = .next (ends s t w) ∧
    .hostWrite (buf + done) (b.nv.page p) ∈ w.out ∧ (∀ q, w.nv.page q = b.nv.page q) ∧
    (1 < left → b.nv.waiting = [] → w.nv.job = some (.read id (p + 1) (left - 1) buf (done + 1024))) ∧
    (left ≤ 1 → b.nv.waiting = [] → w.nv.job = none) := by
  intro b
  generalize hv : b.emit (.hostWrite (buf + done) (b.nv.page p)) = v
  have hemit : b.emitHost (.hostWrite (buf + done) (b.nv.page p)) = v := by
    rw [State.emitHost, hhost, ← hv]
    rfl
  have hnv : v.nv = b.nv := hv ▸ rfl
  have hout : .hostWrite (buf + done) (b.nv.page p) ∈ v.out := hv ▸ List.mem_cons_self
  have hexec : ∀ w, (if left ≤ 1 then (v.finish id stDone (leBytes 4 (done + 1024) ++ zeros 4)).nvFree.postReady
      else (v.nvGoOn (.read id (p + 1) (left - 1) buf (done + 1024))).postReady) = w →
      exec (.nvPageReadDone t) s = .next (ends s t w) := by
    intro w hw
    show execNvPageReadDone t s = _
    refine does_of_effect ?_
    rw [hjob, ← hw, ← hemit]
  have hread : ∀ {u : State}, v.Transfers u → .hostWrite (buf + done) (b.nv.page p) ∈ u.postReady.out ∧
      ∀ q, u.postReady.nv.page q = b.nv.page q := by
    intro u hu
    refine ⟨u.postReady_writes.out (hu.out ▸ hout), fun q => ?_⟩
    rw [(State.postReady_Desk _).nv, hu.page, hnv]
  by_cases hlast : left ≤ 1
  · have hfreed := (v.finish_transfers id stDone (leBytes 4 (done + 1024) ++ zeros 4)).trans (State.nvFree_transfers _)
    refine ⟨_, hexec _ (if_pos hlast), (hread hfreed).1, (hread hfreed).2, fun h => absurd hlast (Nat.not_le.mpr h), fun _ hnone => ?_⟩
    rw [(State.postReady_Desk _).nv, State.nvFree_idle (s := v.finish ..) ((congrArg Nv.waiting hnv).trans hnone)]
    rfl
  · refine ⟨_, hexec _ (if_neg hlast), (hread (v.nvGoOn_transfers _)).1, (hread (v.nvGoOn_transfers _)).2, fun _ hnone => ?_,
      fun h => absurd h hlast⟩
    rw [(State.postReady_Desk _).nv, State.nvGoOn_goes ((congrArg Nv.waiting hnv).trans hnone)]

theorem execNvPageReadDone_snapshot {id a p : Nat} {got : List Byte} (hjob : (s.before t).nv.job = some (.snapshot id a p 1 got)) :
    let b := s.before t
    ∃ w, exec (.nvPageReadDone t) s = .next (ends s t w) ∧
    (w.axis a).ln = { (b.axis a).ln with bins := snapBins (b.axis a).ln.log2n (got ++ b.nv.page p) } ∧
    (∀ x, x ≠ a → w.axis x = b.axis x) ∧ ∀ q, w.nv.page q = b.nv.page q := by
  intro b
  generalize hv : (b.modAxis a fun ax => { ax with ln := { ax.ln with bins := snapBins ax.ln.log2n (got ++ b.nv.page p) } }) = v
  have hsame : v.axis a = { b.axis a with ln := { (b.axis a).ln with bins := snapBins (b.axis a).ln.log2n (got ++ b.nv.page p) } } := by
    rw [← hv, State.modAxis_axis_same]
  have hother : ∀ x, x ≠ a → v.axis x = b.axis x := fun x hx => by rw [← hv, State.modAxis_axis_ne _ _ _ hx]
  have hnv : v.nv = b.nv := hv ▸ rfl
  have hfreed := (v.finish_transfers id stDone (leBytes 4 (got ++ b.nv.page p).length ++ zeros 4)).trans (State.nvFree_transfers _)
  refine ⟨(v.finish id stDone (leBytes 4 (got ++ b.nv.page p).length ++ zeros 4)).nvFree.postReady, ?_, ?_, fun x hx => ?_, fun q => ?_⟩
  · show execNvPageReadDone t s = _
    refine does_of_effect ?_
    rw [hjob, ← hv]
    rfl
  · rw [(State.postReady_Desk _).axis, hfreed.axis, hsame]
  · rw [(State.postReady_Desk _).axis, hfreed.axis, hother x hx]
  · rw [(State.postReady_Desk _).nv, hfreed.page, hnv]

/-! ## A write that is not confirmed (01 R38) -/

/-- The page that a transfer was writing is suspect. -/
def State.pageSuspect (s : State) (j : NvJob) : State :=
  s.modNv fun v => { v with suspect := min 255 (v.suspect + 1), suspectAddr := 1024 * j.pageOf }

/-- A transfer whose page is suspect ends. -/
def State.nvGivesUp (s : State) : NvJob → State
  | .write id .. => s.finish id stFailedHw (zeros 8)
  | .confirm id .. => s.finish id stFailedHw (zeros 8)
  | _ => s

theorem State.nvGivesUp_transfers (s : State) (j : NvJob) : s.Transfers (s.nvGivesUp j) := by
  cases j with
  | write => exact s.finish_transfers ..
  | confirm => exact s.finish_transfers ..
  | read => exact .refl s
  | snapshot => exact .refl s
  | ledger => exact .refl s

theorem execNvTimeout_late {j : NvJob} (hjob : (s.before t).nv.job = some j) (hwrites : j.writes = true)
    (hlate : (s.before t).nv.startedAt + 4000000 ≤ (s.before t).now) : let b := s.before t
    ∃ w, exec (.nvTimeout t) s = .next (ends s t w) ∧
    w.nv.suspect = min 255 (b.nv.suspect + 1) ∧ w.nv.suspectAddr = 1024 * j.pageOf ∧ (∀ q, w.nv.page q = b.nv.page q) ∧
    ∃ m l, w.asy.held = b.asy.held ++ m :: l ∧ m.src = srcNv ∧ m.kind = 0x13 := by
  intro b
  generalize hu : b.pageSuspect j = u
  generalize hv : u.raise srcNv 0x13 0 [] = v
  have hunv : u.nv = { b.nv with suspect := min 255 (b.nv.suspect + 1), suspectAddr := 1024 * j.pageOf } := hu ▸ rfl
  have hvnv : v.nv = u.nv := hv ▸ (u.raise_Desk _ _ _ _).nv
  have htrans : v.Transfers (v.nvGivesUp j).nvFree := (v.nvGivesUp_transfers j).trans (State.nvFree_transfers _)
  refine ⟨(v.nvGivesUp j).nvFree.postReady, ?_, ?_, ?_, fun q => ?_, ?_⟩
  · show execNvTimeout t s = _
    refine does_of_effect ?_
    rw [hjob, ← hv, ← hu]
    exact if_pos ⟨hwrites, hlate⟩
  · rw [(State.postReady_Desk _).nv, htrans.suspect, hvnv, hunv]
  · rw [(State.postReady_Desk _).nv, htrans.suspectAddr, hvnv, hunv]
  · rw [(State.postReady_Desk _).nv, htrans.page, hvnv, hunv]
    rfl
  · obtain ⟨m, hheld, hsrc, hkind⟩ := u.raise_held srcNv 0x13 0 []
    refine ⟨m, [], ?_, hsrc, hkind⟩
    rw [(State.postReady_writes _).held, htrans.asy, ← hv, hheld, ← hu]
    rfl

theorem execNvTimeout_early {j : NvJob} (hjob : (s.before t).nv.job = some j)
    (hearly : (s.before t).now < (s.before t).nv.startedAt + 4000000) : exec (.nvTimeout t) s = .next (ends s t (s.before t)) := by
  show execNvTimeout t s = _
  refine does_of_effect ?_
  rw [hjob]
  exact if_neg fun h => absurd h.2 (Nat.not_le.mpr hearly)

/-! ## Persistence of the ledger (16 R635, 18 R748) -/

/-- Persistence is no longer due, and no mark waits for it. -/
def State.persisted (s : State) : State := { s with asy := { s.asy with persistDue := false, unpersisted := 0 } }

/-- Persistence is queued before all that waits, and turns nothing away. -/
theorem State.nvQueue_ledger (s : State) {j : NvJob} (hledger : j.isLedger = true) : ∃ v, s.nvQueue j = { s with nv := v } := by
  show ∃ v, State.nvNext (_ + 1) (s.nvWait j) = _
  rw [State.nvNext]
  split
  · exact ⟨_, rfl⟩
  · split
    · exact ⟨_, rfl⟩
    · next hnone =>
      exact absurd hledger (List.find?_eq_none.mp hnone j (List.mem_append_right _ List.mem_cons_self))

theorem execLedgerPersistence_writes (hdue : (s.before t).asy.persistDue = true) (hfence : (s.before t).nvFenced = false)
    (hledger : (s.before t).fenced (srcCode 4 0x006) = false) (hsome : 0 < min (s.before t).asy.unpersisted (s.before t).asy.cnt) :
    let b := s.before t
    let pages := ledgerPages 3 (b.asy.newest (min b.asy.unpersisted b.asy.cnt))
    ∃ w, exec (.ledgerPersistence t) s = .next (ends s t w) ∧
      w = { b with nv := w.nv, asy := { b.asy with persistDue := false, unpersisted := 0 } } ∧ w.nv.pages = b.nv.pages ∧
      (b.nv.job = none → b.nv.waiting = [] → w.nv.job = some (.ledger b.nv.ledgerPage pages) ∧ w.nv.startedAt = b.now) ∧
      (b.nv.job.isSome = true → w.nv.job = b.nv.job ∧ w.nv.waiting = b.nv.waiting ++ [.ledger b.nv.ledgerPage pages]) := by
  intro b pages
  refine ⟨b.persisted.nvQueue (.ledger b.nv.ledgerPage pages), ?_, ?_, ?_, fun hidle hnone => ?_, fun hbusy => ?_⟩
  · show execLedgerPersistence t s = _
    have hwaits : ¬ (!b.asy.persistDue) = true := by rw [hdue]; decide
    refine does_of_effect ((if_neg hwaits).trans (if_neg ?_))
    rintro (h | h | h)
    · exact absurd (hfence.symm.trans h) Bool.false_ne_true
    · exact absurd (hledger.symm.trans h) Bool.false_ne_true
    · have hlen : (b.asy.newest (min b.asy.unpersisted b.asy.cnt)).length = 0 := List.length_eq_zero_iff.mpr (List.isEmpty_iff.mp h)
      rw [Assay.newest, List.length_map, List.length_range] at hlen
      exact absurd hlen (Nat.pos_iff_ne_zero.mp hsome)
  · obtain ⟨v, hv⟩ := b.persisted.nvQueue_ledger (j := .ledger b.nv.ledgerPage pages) rfl
    rw [hv]
    rfl
  · exact (State.nvQueue_transfers _ _).pages
  · rw [State.nvQueue_begins (s := b.persisted) hidle hnone (.inr (.inr rfl))]
    exact ⟨rfl, rfl⟩
  · rw [State.nvQueue_waits (s := b.persisted) hbusy]
    exact ⟨rfl, rfl⟩

theorem execLedgerPersistence_idle (hdue : (s.before t).asy.persistDue = false) :
    exec (.ledgerPersistence t) s = .next (ends s t (s.before t)) := by
  show execLedgerPersistence t s = _
  refine does_of_effect (if_pos ?_)
  rw [hdue]
  rfl

end

/-- Settles O16: the descriptors queue their pages, and each command of a transfer from its effect. -/
theorem nvTransfersRunPageByPage : Obligations.NvTransfersRunPageByPage := by
  unfold Obligations.NvTransfersRunPageByPage
  refine ⟨?queued, fun s t => ?pages⟩
  case queued =>
    intro s t h addr buf len data b queued hturn
    exact ⟨fun area ht hfence hrange harea hwritable hmode hbar hlen =>
        execNvWrite_queues hturn ht hfence hrange harea hwritable hmode hbar hlen,
      fun ht hnot => execNvWrite_idle ht hnot, fun ht hfence hrange hlen => execNvRead_queues hturn ht hfence hrange hlen,
      fun ht hnot => execNvRead_idle ht hnot⟩
  case pages =>
    exact ⟨fun id p rest done hjob => execNvPageWriteDone_write hjob, fun p pg rest hjob => execNvPageWriteDone_ledger hjob,
      fun id p left buf done hjob hhost => execNvPageReadDone_read hjob hhost, fun id a p got hjob => execNvPageReadDone_snapshot hjob,
      fun j hjob hwrites hlate => execNvTimeout_late hjob hwrites hlate, fun j hjob hearly => execNvTimeout_early hjob hearly,
      fun hdue hfence hledger hsome => execLedgerPersistence_writes hdue hfence hledger hsome,
      fun hdue => execLedgerPersistence_idle hdue⟩

end Sys2Proof.Machine
end

section
/-! O21: a fenced host engine writes no completion (14 R559, R563; 01 R44). -/

namespace Sys2Proof.Machine

/-- What a step put out. -/
def outsOf : Host.Outcome State Fault Refusal → List Out
  | .next w => w.out
  | .fault _ => []
  | .refused _ => []

/-- The machine after reset with CPL0 on and the host engine fenced. -/
def hostEngineFenced : State :=
  { host := { rings := [(8, { on := true })] }, asy := { src := [(srcHostEngine, { fenced := true })] } }

/-- A NOP on CMD0 for no axis. -/
def nopHeader : DHdr := ⟨0, 0, false, 0xFFFF⟩

theorem nop_hostEngineFenced_outs : outsOf (exec (.nop 0 nopHeader) hostEngineFenced) = [] := by rfl

/-- Refutes O21: what the host engine produces while it is fenced is discarded (01 R44), so the record of a NOP with nothing else open
does not reach a completion ring that is on. -/
theorem not_checksComeFirstAndNopTellsTheTime : ¬ Obligations.ChecksComeFirstAndNopTellsTheTime := by
  unfold Obligations.ChecksComeFirstAndNopTellsTheTime
  rintro ⟨-, hnop⟩
  obtain ⟨w, hexec, -, hclaim⟩ := hnop hostEngineFenced 0 nopHeader ⟨rfl, rfl, rfl⟩ rfl
  obtain ⟨hmem, -, -⟩ := hclaim rfl rfl rfl
  have hout : w.out = [] := (congrArg outsOf hexec).symm.trans nop_hostEngineFenced_outs
  rw [hout] at hmem
  exact absurd hmem List.not_mem_nil

end Sys2Proof.Machine
end

section
/-! O31: the statement speaks of every ring number, and the registers of number 2040 are those of the trace (14 R551, 03 Table 03.11). -/

namespace Sys2Proof.Machine

/-- How many trace records the machine a step leaves has dropped. -/
def traceDropOf : Host.Outcome State Fault Refusal → Nat
  | .next w => w.pool.traceDrop
  | .fault _ => 0
  | .refused _ => 0

/-- The link is up, one trace record is dropped, and TRACE_EN of SCH_TRACE_CTL is staged, with what lets ring number 2040 pass its
checks. -/
def traceStaged : State :=
  { host := { linkUp := true }, pool := { traceDrop := 1 },
    regs := { stage := [(ringOff 2040 0, 0), (ringOff 2040 8, 4), (0x020010, 2 ^ 31)] } }

theorem ringOff_traceCtl : ringOff 2040 0x10 = 0x020010 := by rfl

theorem hstRingEnable_traceStaged : traceDropOf (exec (.hstRingEnable 0 2040) traceStaged) = 0 := by rfl

/-- Refutes O31: ENABLE of ring number 2040, which the statement does not exclude, puts SCH_TRACE_CTL into force, and the count of dropped
trace records starts again, though nothing but registers, rings and outputs may change. -/
theorem not_ringsAndDoorbellsAreServed : ¬ Obligations.RingsAndDoorbellsAreServed := by
  unfold Obligations.RingsAndDoorbellsAreServed
  rintro ⟨hrings, -⟩
  obtain ⟨-, -, henable, -⟩ := hrings traceStaged 0 2040
  obtain ⟨w, hexec, honly, -⟩ := henable rfl rfl
  have hkept : w.pool = (traceStaged.before 0).pool := by rw [honly]
  have hcleared : w.pool.traceDrop = 0 := (congrArg traceDropOf hexec).symm.trans hstRingEnable_traceStaged
  rw [hkept] at hcleared
  exact absurd hcleared (by decide)

end Sys2Proof.Machine
end

section
/-! O33: the PCIe link and the frames of the plant ports (14 R545, R570, R571, R575; 10 R451). -/

namespace Sys2Proof.Machine

/-! ## What writing to the host changes (14 R544, R573) -/

/-- From `s` to `w` nothing but the host interface and the outputs changes. -/
def State.HostOnly (s w : State) : Prop := ∃ o h, w = { s with out := o, host := h }

theorem State.HostOnly.refl (s : State) : s.HostOnly s := ⟨_, _, rfl⟩

theorem State.HostOnly.trans {a b c : State} (h : a.HostOnly b) (g : b.HostOnly c) : a.HostOnly c := by
  obtain ⟨o, x, rfl⟩ := h
  obtain ⟨o', x', rfl⟩ := g
  exact ⟨_, _, rfl⟩

theorem State.HostOnly.ite {b v w : State} {c : Prop} [Decidable c] (h : b.HostOnly v) (g : b.HostOnly w) :
    b.HostOnly (if c then v else w) := by
  split
  · exact h
  · exact g

theorem State.HostOnly.eq {s w : State} (h : s.HostOnly w) : w = { s with host := w.host, out := w.out } := by
  obtain ⟨o, x, rfl⟩ := h
  rfl

theorem State.emitHost_hostOnly (s : State) (o : Out) : s.HostOnly (s.emitHost o) := .ite (.refl s) ⟨_, _, rfl⟩

theorem State.modRing_hostOnly (s : State) (r : Nat) (f : Ring → Ring) : s.HostOnly (s.modRing r f) := ⟨_, _, rfl⟩

theorem State.statusWrite_hostOnly (s : State) (off : Nat) (bs : List Byte) : s.HostOnly (s.statusWrite off bs) :=
  .ite (s.emitHost_hostOnly _) (.refl s)

theorem State.sendMsi_hostOnly (s : State) (vec : Nat) : s.HostOnly (s.sendMsi vec) := .ite ⟨_, _, rfl⟩ (s.emitHost_hostOnly _)

theorem State.ringMsi_hostOnly (s : State) (r : Nat) : s.HostOnly (s.ringMsi r) :=
  .ite (.ite (s.modRing_hostOnly r _) ((s.modRing_hostOnly r _).trans (State.sendMsi_hostOnly _ _))) (.refl s)

theorem State.putEntry_hostOnly (s : State) (r : Nat) (e : List Byte) : s.HostOnly (s.putEntry r e) :=
  (s.emitHost_hostOnly _).trans (State.modRing_hostOnly _ r _)

theorem State.putIndex_hostOnly (s : State) (r : Nat) (msg : Bool) : s.HostOnly (s.putIndex r msg) :=
  (s.emitHost_hostOnly _).trans (.ite (State.ringMsi_hostOnly _ r) (.refl _))

theorem State.statusWrite_writes (s : State) (off : Nat) (bs : List Byte) : Writes s (s.statusWrite off bs) :=
  .ite (s.emitHost_writes _) (.refl s)

/-! ## Rings that an operation leaves (14 R544, R573) -/

theorem State.emitHost_host (s : State) (o : Out) : (s.emitHost o).host = s.host := by
  unfold State.emitHost
  split <;> rfl

theorem State.statusWrite_host (s : State) (off : Nat) (bs : List Byte) : (s.statusWrite off bs).host = s.host := by
  unfold State.statusWrite
  split
  · exact s.emitHost_host _
  · rfl

theorem State.emitHost_ringOf (s : State) (o : Out) (q : Nat) : (s.emitHost o).ringOf q = s.ringOf q := by
  rw [State.ringOf, s.emitHost_host, State.ringOf]

theorem State.statusWrite_ringOf (s : State) (off : Nat) (bs : List Byte) (q : Nat) : (s.statusWrite off bs).ringOf q = s.ringOf q := by
  rw [State.ringOf, s.statusWrite_host, State.ringOf]

theorem State.modPlant_host (s : State) (p : Nat) (f : PlantPort → PlantPort) : (s.modPlant p f).host = s.host := by
  unfold State.modPlant
  split <;> rfl

theorem State.raiseOnce_host (s : State) (src kind addr : Nat) (detail : List Byte) : (s.raiseOnce src kind addr detail).host = s.host := by
  unfold State.raiseOnce
  split <;> rfl

theorem State.raiseOnce_out (s : State) (src kind addr : Nat) (detail : List Byte) : (s.raiseOnce src kind addr detail).out = s.out := by
  unfold State.raiseOnce
  split <;> rfl

/-- A message changes no index. -/
theorem State.ringMsi_own (s : State) (r q : Nat) : ((s.ringMsi r).ringOf q).own = (s.ringOf q).own := by
  have hring : ∀ f : Ring → Ring, (∀ g : Ring, (f g).own = g.own) → ((s.modRing r f).ringOf q).own = (s.ringOf q).own := by
    intro f hf
    by_cases hq : q = r
    · rw [hq, State.modRing_ringOf_same, hf]
    · rw [State.modRing_ringOf_ne _ _ _ hq]
  have hmsi : ∀ (v : State) (vec : Nat), ((v.sendMsi vec).ringOf q) = v.ringOf q := by
    intro v vec
    unfold State.sendMsi
    split
    · rfl
    · exact v.emitHost_ringOf _ q
  unfold State.ringMsi
  split
  · split
    · exact hring _ fun _ => rfl
    · rw [hmsi]
      exact hring _ fun _ => rfl
  · rfl

/-- An entry posted moves the index of its ring. -/
theorem State.post_own {s : State} {r : Nat} (hon : (s.ringOf r).on = true) (hroom : s.room r 1 = true) (e : List Byte) :
    ((s.post r e).ringOf r).own = ((s.ringOf r).own + 1) % 2 ^ 32 := by
  have hput : ((s.putEntry r e).ringOf r).own = ((s.ringOf r).own + 1) % 2 ^ 32 := by
    rw [State.putEntry, State.modRing_ringOf_same, State.emitHost_ringOf]
  have hindex : (((s.putEntry r e).putIndex r true).ringOf r).own = ((s.putEntry r e).ringOf r).own :=
    (State.ringMsi_own _ r r).trans (congrArg Ring.own (State.emitHost_ringOf _ _ r))
  rw [State.post, if_pos hon, if_pos hroom, hindex, hput]

theorem State.post_hostOnly {s : State} {r : Nat} (hroom : s.room r 1 = true) (e : List Byte) : s.HostOnly (s.post r e) := by
  unfold State.post
  rw [if_pos hroom]
  exact .ite ((s.putEntry_hostOnly r e).trans (State.putIndex_hostOnly _ r true)) (.refl s)

/-! ## The link (14 R545, R575) -/

/-- A ring without the link. -/
def Ring.unlinked (g : Ring) : Ring := { g with on := false, disabling := false, fetched := 0, withheld := false }

/-- Rings without the link. -/
def State.ringsUnlinked (s : State) (l : List Nat) : State := l.foldl (fun s r => s.modRing r Ring.unlinked) s

theorem State.ringsUnlinked_off (s : State) (l : List Nat) {r : Nat} (hr : r ∈ l) : ((s.ringsUnlinked l).ringOf r).on = false := by
  have hkept : ∀ (l : List Nat) (v : State), (v.ringOf r).on = false → ((v.ringsUnlinked l).ringOf r).on = false := by
    intro l
    induction l with
    | nil => exact fun _ h => h
    | cons q l ih =>
      intro v h
      refine ih (v.modRing q Ring.unlinked) ?_
      by_cases hq : r = q
      · rw [hq, State.modRing_ringOf_same]
        rfl
      · rw [State.modRing_ringOf_ne _ _ _ hq, h]
  induction l generalizing s with
  | nil => exact absurd hr List.not_mem_nil
  | cons q l ih =>
    by_cases hq : r ∈ l
    · exact ih (s.modRing q Ring.unlinked) hq
    · obtain rfl : r = q := (List.mem_cons.mp hr).resolve_right hq
      exact hkept l _ (by rw [State.modRing_ringOf_same]; rfl)

theorem State.ringsUnlinked_keeps (s : State) (l : List Nat) :
    (s.ringsUnlinked l).host.linkUp = s.host.linkUp ∧ (s.ringsUnlinked l).host.acc = s.host.acc ∧ (s.ringsUnlinked l).asy = s.asy :=
  List.foldlRecOn (motive := fun w : State => w.host.linkUp = s.host.linkUp ∧ w.host.acc = s.host.acc ∧ w.asy = s.asy) l _
    ⟨rfl, rfl, rfl⟩ fun _ h _ _ => h

theorem State.dropDomain_keeps (s : State) (d : Nat) (needed : Bool) :
    (s.dropDomain d needed).host = s.host ∧ (s.dropDomain d needed).asy = s.asy := by
  unfold State.dropDomain
  split <;> exact ⟨rfl, rfl⟩

/-- The link is down: its speed and width are none. -/
def State.pcieLost (s : State) : State := { s with host := { s.host with linkUp := false, speed := 0, width := 0 } }

/-- The link has trained. -/
def State.pcieTrained (s : State) (speed width : Nat) : State :=
  { s with host := { s.host with linkUp := true, speed := speed, width := width } }.liveOff srcPcie 0x32

theorem State.pcieTrained_spec (b : State) (speed width : Nat) : let w := b.pcieTrained speed width
    w.host.linkUp = true ∧ w.host.speed = speed ∧ w.host.width = width ∧ (∀ r, w.ringOf r = b.ringOf r) ∧
      w = { b with host := w.host, asy := w.asy } :=
  ⟨rfl, rfl, rfl, fun _ => rfl, rfl⟩

/-- The loss of the link takes every ring off, and the domain of the plant ports where nothing needs it. -/
def State.pcieOff (s : State) : State :=
  (s.pcieLost.ringsUnlinked (List.range 33)).dropDomain 13 (s.pcieLost.ringsUnlinked (List.range 33)).plantNeeded

theorem State.pcieOff_keeps (b : State) :
    b.pcieOff.host.linkUp = false ∧ b.pcieOff.host.acc = b.host.acc ∧ b.pcieOff.asy = b.asy ∧ ∀ r < 33, (b.pcieOff.ringOf r).on = false := by
  obtain ⟨hlink, hacc, hasy⟩ := b.pcieLost.ringsUnlinked_keeps (List.range 33)
  have hoff := fun r (hr : r < 33) => b.pcieLost.ringsUnlinked_off (List.range 33) (List.mem_range.mpr hr)
  unfold State.pcieOff
  generalize b.pcieLost.ringsUnlinked (List.range 33) = v at *
  obtain ⟨hhost, hasy'⟩ := v.dropDomain_keeps 13 v.plantNeeded
  rw [hhost, hasy']
  refine ⟨hlink, hacc, hasy, fun r hr => ?_⟩
  rw [State.ringOf, hhost]
  exact hoff r hr

theorem State.pcieOff_spec (b : State) : let w := (b.pcieOff.liveOn srcPcie 0x32).raise srcPcie 0x32 0 []
    w.host.linkUp = false ∧ (∀ r < 33, (w.ringOf r).on = false) ∧ w.host.acc = b.host.acc ∧
      ∃ m, w.asy.held = b.asy.held ++ [m] ∧ m.src = srcPcie ∧ m.kind = 0x32 := by
  obtain ⟨hlink, hacc, hasy, hoff⟩ := b.pcieOff_keeps
  generalize b.pcieOff = v at *
  obtain ⟨m, hheld, hsrc, hkind⟩ := (v.liveOn srcPcie 0x32).raise_held srcPcie 0x32 0 []
  refine ⟨hlink, hoff, hacc, m, ?_, hsrc, hkind⟩
  rw [hheld, ← hasy]
  rfl

section
variable {s : State} {t : Nat}

theorem execPcieLinkDown_down (hup : (s.before t).host.linkUp = true) : let b := s.before t
    ∃ w, exec (.pcieLinkDown t) s = .next (ends s t w) ∧ w.host.linkUp = false ∧ (∀ r < 33, (w.ringOf r).on = false) ∧
    w.host.acc = b.host.acc ∧ ∃ m, w.asy.held = b.asy.held ++ [m] ∧ m.src = srcPcie ∧ m.kind = 0x32 := by
  refine ⟨((s.before t).pcieOff.liveOn srcPcie 0x32).raise srcPcie 0x32 0 [], ?_, (s.before t).pcieOff_spec⟩
  show execPcieLinkDown t s = _
  have hlinked : ¬ (!(s.before t).host.linkUp) = true := by rw [hup]; decide
  exact does_of_effect (if_neg hlinked)

theorem execPcieLinkUp_up (speed width : Nat) : let b := s.before t
    ∃ w, exec (.pcieLinkUp t speed width) s = .next (ends s t w) ∧ w.host.linkUp = true ∧ w.host.speed = speed ∧
    w.host.width = width ∧ (∀ r, w.ringOf r = b.ringOf r) ∧ w = { b with host := w.host, asy := w.asy } := by
  refine ⟨(s.before t).pcieTrained speed width, ?_, (s.before t).pcieTrained_spec speed width⟩
  show execPcieLinkUp t speed width s = _
  exact does_of_effect rfl

/-! ## Frames to a plant port (14 R570; 10 R453) -/

/-- A time stamp is dropped with a mark, or entered between two writes to the status page. -/
theorem State.txStamp_cases (s : State) (p ident : Nat) (notSent : Bool) {P : State → Prop}
    (dropped : ∀ f src kind addr detail, P ((s.modPlant p f).raiseOnce src kind addr detail))
    (entered : ∀ off bs f off' bs', P (((s.statusWrite off bs).modPlant p f).statusWrite off' bs')) : P (s.txStamp p ident notSent) := by
  unfold State.txStamp
  dsimp only
  split
  · exact dropped ..
  · exact entered ..

theorem State.txStamp_host (s : State) (p ident : Nat) (notSent : Bool) : (s.txStamp p ident notSent).host = s.host := by
  refine s.txStamp_cases (P := fun w => w.host = s.host) p ident notSent (fun f src kind addr detail => ?_) fun off bs f off' bs' => ?_
  · rw [State.raiseOnce_host, State.modPlant_host]
  · rw [State.statusWrite_host, State.modPlant_host, State.statusWrite_host]

theorem State.txStamp_out (s : State) (p ident : Nat) (notSent : Bool) : s.out ⊆ (s.txStamp p ident notSent).out := by
  refine s.txStamp_cases (P := fun w => s.out ⊆ w.out) p ident notSent (fun f src kind addr detail => ?_) fun off bs f off' bs' => ?_
  · rw [State.raiseOnce_out, State.modPlant_out]
    exact List.Subset.refl _
  · intro o ho
    refine (State.statusWrite_writes ..).out ?_
    rw [State.modPlant_out]
    exact (s.statusWrite_writes _ _).out ho

/-- The index of PTXp passes an entry, and nothing else of the ring changes. -/
theorem State.ptxPass_ringOf (s : State) (p : Nat) :
    (s.ptxPass p).ringOf (29 + p) = { s.ringOf (29 + p) with own := ((s.ringOf (29 + p)).own + 1) % 2 ^ 32 } :=
  (State.statusWrite_ringOf ..).trans (s.modRing_ringOf_same ..)

/-- What becomes of a frame of allowed length: it is sent with its port up, and its time stamp follows where it is asked for. -/
def State.ptxSent (s : State) (port ident len : Nat) (tsReq : Bool) (frame : List Byte) : State :=
  if s.plantUp port then
    (let v := (s.emit (.plant port (padTo (max 60 len) (frame.take len)))).modPlant port fun q => { q with sentAt := some s.core }
     if tsReq then v.txStamp port ident false else v)
  else if tsReq then s.txStamp port ident true
  else s

theorem State.ptxSent_host (s : State) (port ident len : Nat) (tsReq : Bool) (frame : List Byte) :
    (s.ptxSent port ident len tsReq frame).host = s.host := by
  unfold State.ptxSent
  split
  · dsimp only
    split
    · rw [State.txStamp_host, State.modPlant_host]
      rfl
    · rw [State.modPlant_host]
      rfl
  · split
    · exact s.txStamp_host ..
    · rfl

theorem State.mem_ptxSent_out {s : State} {port : Nat} (hup : s.plantUp port = true) (ident len : Nat) (tsReq : Bool) (frame : List Byte) :
    .plant port (padTo (max 60 len) (frame.take len)) ∈ (s.ptxSent port ident len tsReq frame).out := by
  rw [State.ptxSent, if_pos hup]
  generalize hv : ((s.emit (.plant port (padTo (max 60 len) (frame.take len)))).modPlant port
    fun q => { q with sentAt := some s.core }) = v
  have hmem : .plant port (padTo (max 60 len) (frame.take len)) ∈ v.out := by
    rw [← hv, State.modPlant_out]
    exact List.mem_cons_self
  dsimp only
  split
  · exact v.txStamp_out _ _ _ hmem
  · exact hmem

/-- A frame of no allowed length is counted. -/
def State.ptxDrop (s : State) (port : Nat) : State := s.modRing (29 + port) fun g => { g with drop := (g.drop + 1) % 2 ^ 32 }

theorem execPlantFrameSend_passes {port ident len : Nat} {tsReq : Bool} {frame : List Byte} (hon : ((s.before t).ringOf (29 + port)).on = true)
    (hentry : ((s.before t).ringOf (29 + port)).host ≠ ((s.before t).ringOf (29 + port)).own) (hlink : (s.before t).host.linkUp = true) :
    let b := s.before t
    ∃ w, exec (.plantFrameSend t port ident len tsReq frame) s = .next (ends s t w) ∧
      (w.ringOf (29 + port)).own = ((b.ringOf (29 + port)).own + 1) % 2 ^ 32 ∧
      (14 ≤ len → len ≤ 1514 → b.plantUp port = true → .plant port (padTo (max 60 len) (frame.take len)) ∈ w.out) ∧
      (len < 14 ∨ 1514 < len → (w.ringOf (29 + port)).drop = ((b.ringOf (29 + port)).drop + 1) % 2 ^ 32) := by
  intro b
  have hpasses : ¬ ((!(b.ringOf (29 + port)).on) = true ∨ (b.ringOf (29 + port)).host = (b.ringOf (29 + port)).own ∨ ¬ b.host.linkUp = true) := by
    rintro (h | h | h)
    · rw [hon] at h
      exact absurd h (by decide)
    · exact hentry h
    · exact h hlink
  by_cases hlen : len < 14 ∨ 1514 < len
  · refine ⟨(b.ptxDrop port).ptxPass port, ?_, ?_, fun hlow hhigh => absurd hlen (by omega), fun _ => ?_⟩
    · show execPlantFrameSend t port ident len tsReq frame s = _
      refine does_of_effect ((if_neg hpasses).trans ?_)
      rw [if_pos hlen]
      rfl
    · rw [State.ptxPass_ringOf, State.ptxDrop, State.modRing_ringOf_same]
    · rw [State.ptxPass_ringOf, State.ptxDrop, State.modRing_ringOf_same]
  · refine ⟨(b.ptxSent port ident len tsReq frame).ptxPass port, ?_, ?_, fun _ _ hup => ?_, fun h => absurd h hlen⟩
    · show execPlantFrameSend t port ident len tsReq frame s = _
      refine does_of_effect ((if_neg hpasses).trans ?_)
      rw [if_neg hlen]
      rfl
    · rw [State.ptxPass_ringOf, State.ringOf, State.ptxSent_host]
      rfl
    · exact (State.statusWrite_writes ..).out (State.mem_ptxSent_out hup ..)

/-! ## Frames from a plant port (14 R571; 10 R451) -/

theorem execPlantFrameReceived_posts {port stamp : Nat} {frame : List Byte} (hon : ((s.before t).ringOf (31 + port)).on = true)
    (hgptp : gptpFrame frame = false) (hlen : frame.length ≤ 1514) (hroom : (s.before t).room (31 + port) 1 = true)
    (hfree : (s.before t).fenced srcHostEngine = false) : let b := s.before t
    ∃ w, exec (.plantFrameReceived t port stamp true frame) s = .next (ends s t w) ∧ w = { b with host := w.host, out := w.out } ∧
      .ring (31 + port) (b.ringOf (31 + port)).own (leBytes 2 frame.length ++ leBytes 1 port ++ [0] ++
        leBytes 8 (mtAt b.time.ofs b.time.rate b.time.r0 stamp) ++ zeros 4 ++ padTo 2032 frame) ∈ w.out ∧
      (w.ringOf (31 + port)).own = ((b.ringOf (31 + port)).own + 1) % 2 ^ 32 := by
  intro b
  have hgoes : ¬ ((!true) = true ∨ gptpFrame frame = true ∨ ¬ (b.ringOf (31 + port)).on = true) := by
    rintro (h | h | h)
    · exact absurd h (by decide)
    · rw [hgptp] at h
      exact absurd h (by decide)
    · exact h hon
  refine ⟨b.post (31 + port) (leBytes 2 frame.length ++ leBytes 1 port ++ [0] ++
        leBytes 8 (mtAt b.time.ofs b.time.rate b.time.r0 stamp) ++ zeros 4 ++ padTo 2032 frame), ?_,
    (State.post_hostOnly hroom _).eq, State.mem_post_out hon hroom hfree _, State.post_own hon hroom _⟩
  show execPlantFrameReceived t port stamp true frame s = _
  exact does_of_effect ((if_neg hgoes).trans (if_neg (Nat.not_lt.mpr hlen)))

theorem execPlantFrameReceived_discards {port stamp : Nat} {fcsOk : Bool} {frame : List Byte} (hnot : fcsOk = false ∨ gptpFrame frame = true) :
    exec (.plantFrameReceived t port stamp fcsOk frame) s = .next (ends s t (s.before t)) := by
  show execPlantFrameReceived t port stamp fcsOk frame s = _
  refine does_of_effect (if_pos ?_)
  obtain rfl | h := hnot
  · exact .inl rfl
  · exact .inr (.inl h)

end

/-- Settles O33: the link from its two commands, a frame sent and a frame received each from its effect. -/
theorem theLinkAndThePlantPortsAct : Obligations.TheLinkAndThePlantPortsAct := by
  unfold Obligations.TheLinkAndThePlantPortsAct
  intro s t b
  exact ⟨fun hup => execPcieLinkDown_down hup, fun speed width => execPcieLinkUp_up speed width,
    fun port ident len tsReq frame hon hentry hlink => execPlantFrameSend_passes hon hentry hlink,
    fun port stamp frame hon hgptp hlen hroom hfree => execPlantFrameReceived_posts hon hgptp hlen hroom hfree,
    fun port stamp frame => execPlantFrameReceived_discards (.inl rfl),
    fun port stamp frame hgptp => execPlantFrameReceived_discards (.inr hgptp)⟩

end Sys2Proof.Machine
end

section
/-! O32: descriptors are accepted, and cycle points send their messages (14 R550, R556 to R563; 08 R373 to R376). -/

namespace Sys2Proof.Machine

/-! ## Completions with one descriptor open (14 R563, R90) -/

/-- With no DISABLE of a completion ring waiting, none goes off. -/
theorem State.cplDisables_idle {s : State} (hidle : ∀ q < 8, (s.ringOf (q + 8)).disabling = false) : s.cplDisables = s := by
  refine List.foldlRecOn (motive := fun w => w = s) (List.range 8) _ rfl fun w hw q hq => ?_
  rw [hw]
  refine if_neg fun h => ?_
  rw [hidle q (List.mem_range.mp hq)] at h
  exact absurd h.1 (by decide)

/-- A descriptor that waits alone posts nothing. -/
theorem State.postReady_waits {s : State} {e : Entry} (hacc : s.host.acc = [e]) (hrec : s.recordOf e = none)
    (hidle : ∀ q < 8, (s.ringOf (q + 8)).disabling = false) : s.postReady = s := by
  have hloop : postLoop s [] [] s.host.acc = s := by
    rw [hacc]
    unfold postLoop
    rw [hrec]
    show { s with host := { s.host with acc := [e] } } = s
    rw [← hacc]
  rw [State.postReady, hloop, State.cplDisables_idle hidle]

/-- A completion posted to a ring that is on is written there, at the ring's index. -/
theorem State.mem_postCpl_out {s : State} {e : Entry} (hon : (s.ringOf (8 + e.ring)).on = true) (hfree : s.fenced srcHostEngine = false)
    (rec_ : List Byte) : .ring (8 + e.ring) (s.ringOf (8 + e.ring)).own rec_ ∈ (s.postCpl e rec_).out := by
  have hentry : .ring (8 + e.ring) (s.ringOf (8 + e.ring)).own rec_ ∈ (s.putEntry (8 + e.ring) rec_).out := by
    rw [State.putEntry, State.emitHost, hfree]
    exact List.mem_cons_self
  have hindex := (State.putIndex_writes (s.putEntry (8 + e.ring) rec_) (8 + e.ring) e.irq).out hentry
  unfold State.postCpl
  rw [if_pos hon]
  dsimp only
  split
  · exact (State.sendTwin_writes ..).out hindex
  · exact hindex

/-- A descriptor that is over alone posts its record. -/
theorem State.mem_postReady_out {s : State} {e : Entry} {rec_ : List Byte} (hacc : s.host.acc = [e]) (hrec : s.recordOf e = some rec_)
    (hon : (s.ringOf (8 + e.ring)).on = true) (hfree : s.fenced srcHostEngine = false) :
    .ring (8 + e.ring) (s.ringOf (8 + e.ring)).own rec_ ∈ s.postReady.out := by
  have hloop : postLoop s [] [] s.host.acc =
      { (s.postCpl e rec_).keepDefine e with host := { ((s.postCpl e rec_).keepDefine e).host with acc := [] } } := by
    rw [hacc]
    unfold postLoop
    rw [hrec]
    rfl
  have hposted := (State.keepDefine_writes (s.postCpl e rec_) e).out (State.mem_postCpl_out hon hfree rec_)
  rw [State.postReady, hloop]
  exact (Writes.foldl State.cplDisable_writes _ _).out hposted

/-! ## Acceptance (14 R550, R556 to R562) -/

theorem State.sendTag_alone {s : State} (halone : s.tw.role = .alone) (e : Entry) (status n m : Nat) : s.sendTag e status n m = s := by
  refine if_neg fun h => ?_
  rw [State.leads, halone] at h
  exact absurd h (by simp)

theorem State.postsLeaders_alone {s : State} (halone : s.tw.role = .alone) : s.postsLeaders = false := by
  rw [State.postsLeaders, halone]
  rfl

theorem State.tagNew_alone {s : State} (halone : s.tw.role = .alone) (e : Entry) : s.tagNew e = s := by
  unfold State.tagNew
  split
  · exact State.sendTag_alone halone ..
  · rfl

theorem State.matchTags_alone {s : State} (halone : s.tw.role = .alone) : s.matchTags = s := by
  refine if_neg ?_
  rw [State.postsLeaders_alone halone]
  decide

/-- The index of a command ring passes a descriptor. -/
def State.cmdPassed (s : State) (r n : Nat) : State :=
  let v := s.modRing r fun g => { g with own := (g.own + n) % 2 ^ 32, fetched := g.fetched - 1 }
  v.statusWrite (ringStatusOff r) (leBytes 4 (v.ringOf r).own)

/-- A descriptor enters the record. -/
def State.entered (s : State) (e : Entry) : State :=
  { s with host := { s.host with nextId := s.host.nextId + 1, acc := s.host.acc ++ [e] } }

theorem State.cmdPassed_hostOnly (s : State) (r n : Nat) : s.HostOnly (s.cmdPassed r n) :=
  (s.modRing_hostOnly r _).trans (State.statusWrite_hostOnly _ _ _)

theorem State.cmdPassed_host (s : State) (r n : Nat) :
    (s.cmdPassed r n).host.acc = s.host.acc ∧ (s.cmdPassed r n).host.nextId = s.host.nextId := by
  unfold State.cmdPassed
  rw [State.statusWrite_host]
  exact ⟨rfl, rfl⟩

theorem State.cmdPassed_ringOf_same (s : State) (r n : Nat) :
    (s.cmdPassed r n).ringOf r = { s.ringOf r with own := ((s.ringOf r).own + n) % 2 ^ 32, fetched := (s.ringOf r).fetched - 1 } :=
  (State.statusWrite_ringOf ..).trans (s.modRing_ringOf_same ..)

theorem State.cmdPassed_ringOf_ne (s : State) {r q : Nat} (hq : q ≠ r) (n : Nat) : (s.cmdPassed r n).ringOf q = s.ringOf q :=
  (State.statusWrite_ringOf ..).trans (s.modRing_ringOf_ne _ _ hq)

theorem State.entered_hostOnly (s : State) (e : Entry) : s.HostOnly (s.entered e) := ⟨_, _, rfl⟩

theorem State.HostOnly.tw {s w : State} (h : s.HostOnly w) : w.tw = s.tw := by
  obtain ⟨o, x, rfl⟩ := h
  rfl

theorem State.HostOnly.fenced {s w : State} (h : s.HostOnly w) (c : Nat) : w.fenced c = s.fenced c := by
  obtain ⟨o, x, rfl⟩ := h
  rfl

/-- A descriptor that passes its checks at a device alone enters the record, waits there, and changes nothing else. -/
theorem State.admitEntry_posted {b : State} {r : Nat} {bs buf : List Byte} (hr : r < 8)
    (hbar : b.acceptBar bs (b.newEntry r bs buf).op (b.newEntry r bs buf).tgt (b.newEntry r bs buf).seg = none) (hacc : b.host.acc = [])
    (halone : b.tw.role = .alone) (hidle : ∀ q < 8, (b.ringOf (q + 8)).disabling = false) :
    (b.admitEntry r bs buf).postReady = (b.cmdPassed r (descrLen bs)).entered (b.newEntry r bs buf) := by
  generalize hv : (b.cmdPassed r (descrLen bs)).entered (b.newEntry r bs buf) = v
  have honly : b.HostOnly v := hv ▸ (b.cmdPassed_hostOnly r _).trans (State.entered_hostOnly _ _)
  have halone' : v.tw.role = .alone := by rw [honly.tw, halone]
  have hadmit : b.admitEntry r bs buf = v := by
    have htaken : b.admitEntry r bs buf = (v.tagNew (b.newEntry r bs buf)).matchTags := by
      unfold State.admitEntry
      dsimp only
      rw [hbar, ← hv]
      rfl
    rw [htaken, State.tagNew_alone halone', State.matchTags_alone halone']
  have hone : v.host.acc = [b.newEntry r bs buf] := by
    rw [← hv]
    show (b.cmdPassed r (descrLen bs)).host.acc ++ _ = _
    rw [(b.cmdPassed_host r _).1, hacc, List.nil_append]
  have hwaits : v.recordOf (b.newEntry r bs buf) = none := by
    rw [State.recordOf, State.postsLeaders_alone halone']
    rfl
  rw [hadmit]
  refine State.postReady_waits hone hwaits fun q hq => ?_
  rw [← hv]
  show ((b.cmdPassed r (descrLen bs)).ringOf (q + 8)).disabling = false
  rw [State.cmdPassed_ringOf_ne _ (by omega), hidle q hq]

section
variable {s : State} {t : Nat}

theorem execDescriptorAccepted_enters {r : Nat} {bytes buf : List Byte} : let b := s.before t
    let bs := padTo (32 * descrLen bytes) bytes; let e := b.newEntry r bs buf
    r < 8 → b.up = true → b.fenced srcHostEngine = false → b.mayFetch r (descrLen bs) = true → b.acceptBar bs e.op e.tgt e.seg = none →
    b.host.acc = [] → b.tw.role = .alone → (∀ q < 8, (b.ringOf (q + 8)).disabling = false) →
    ∃ w, exec (.descriptorAccepted t r bytes buf) s = .next (ends s t w) ∧ w = { b with host := w.host, out := w.out } ∧
      w.host.acc = [e] ∧ w.host.nextId = b.host.nextId + 1 ∧ (w.ringOf r).own = ((b.ringOf r).own + descrLen bs) % 2 ^ 32 ∧
      e.prog = .waiting ∧ e.id = b.host.nextId ∧ e.pos = (b.ringOf r).own ∧ ∀ q, q ≠ r → w.ringOf q = b.ringOf q := by
  intro b bs e hr hup hfree hmay hbar hacc halone hidle
  refine ⟨(b.cmdPassed r (descrLen bs)).entered e, ?_, ((b.cmdPassed_hostOnly r _).trans (State.entered_hostOnly _ _)).eq, ?_, ?_, ?_,
    rfl, rfl, rfl, fun q hq => b.cmdPassed_ringOf_ne hq _⟩
  · show execDescriptorAccepted t r bytes buf s = _
    have hfetch : (b.up && !b.fenced srcHostEngine && decide (r < 8) && b.mayFetch r (descrLen bs)) = true := by
      simp [hup, hfree, hr, hmay]
    exact does_of_effect ((if_pos hfetch).trans (State.admitEntry_posted hr hbar hacc halone hidle))
  · show (b.cmdPassed r (descrLen bs)).host.acc ++ [e] = [e]
    rw [(b.cmdPassed_host r _).1, hacc, List.nil_append]
  · exact congrArg (· + 1) (b.cmdPassed_host r _).2
  · exact congrArg Ring.own (b.cmdPassed_ringOf_same r _)

theorem execDescriptorAccepted_idle {r : Nat} {bytes buf : List Byte}
    (hmay : (s.before t).mayFetch r (descrLen (padTo (32 * descrLen bytes) bytes)) = false) :
    exec (.descriptorAccepted t r bytes buf) s = .next (ends s t (s.before t)) := by
  show execDescriptorAccepted t r bytes buf s = _
  refine does_of_effect (if_neg ?_)
  rw [hmay, Bool.and_false]
  decide

/-! ## A phase that is not passed (14 R562) -/

/-- A waiting descriptor that is turned away as late. -/
def Entry.late (e : Entry) (n : Nat) : Entry := { e with prog := .done stRejLate n 0 (zeros 8) }

theorem State.reject_late {b : State} {e : Entry} (hacc : b.host.acc = [e]) (hwaits : e.prog = .waiting) :
    (b.reject e stRejLate).host.acc = [e.late b.cyc] := by
  show b.host.acc.map _ = _
  rw [hacc]
  simp [Entry.late, hwaits, Progress.isDone, Entry.applied]

theorem execAtPhaseTimeout_late {r p : Nat} {e : Entry} (hacc : (s.before t).host.acc = [e]) (hring : e.ring = r) (hdue : e.due = .phase p)
    (hwaits : e.prog = .waiting) (hlate : 65536 ≤ ((s.before t).cyc + 2 ^ 40 - e.accN) % 2 ^ 40) (halone : (s.before t).tw.role = .alone)
    (hon : ((s.before t).ringOf (8 + r)).on = true) (hfree : (s.before t).fenced srcHostEngine = false) : let b := s.before t
    ∃ w, exec (.atPhaseTimeout t r e.pos) s = .next (ends s t w) ∧ Desk b w ∧ w.host.acc = [] ∧
      .ring (8 + r) (b.ringOf (8 + r)).own (cplRecord e 0x05 b.cyc 0 (zeros 8)) ∈ w.out := by
  intro b
  subst hring
  have hone := State.reject_late (b := b) hacc hwaits
  have hrec : (b.reject e stRejLate).recordOf (e.late b.cyc) = some (cplRecord e 0x05 b.cyc 0 (zeros 8)) := by
    rw [State.recordOf, State.postsLeaders_alone (s := b.reject e stRejLate) halone]
    rfl
  refine ⟨(b.reject e stRejLate).postReady, ?_, State.finish_posted_desk .., State.postReady_acc_of_single _ _ _ hone hrec,
    State.mem_postReady_out (e := e.late b.cyc) hone hrec hon hfree⟩
  show execAtPhaseTimeout t e.ring e.pos s = _
  refine does_of_effect ?_
  have hfind : b.host.acc.find? (fun x => decide (x.ring = e.ring ∧ x.pos = e.pos)) = some e := by
    rw [hacc]
    exact List.find?_cons_of_pos (by simp)
  rw [hfind]
  dsimp only
  rw [hdue, hwaits]
  dsimp only
  rw [if_pos hlate, State.sendTag_alone (s := b.reject e stRejLate) halone]

theorem execAtPhaseTimeout_idle {r pos : Nat}
    (hearly : ∀ e ∈ (s.before t).host.acc, e.ring = r → e.pos = pos → ((s.before t).cyc + 2 ^ 40 - e.accN) % 2 ^ 40 < 65536) :
    exec (.atPhaseTimeout t r pos) s = .next (ends s t (s.before t)) := by
  show execAtPhaseTimeout t r pos s = _
  refine does_of_effect ?_
  split
  · rfl
  next e hfind =>
  obtain ⟨hring, hpos⟩ : e.ring = r ∧ e.pos = pos :=
    of_decide_eq_true (List.find?_some (p := fun x : Entry => decide (x.ring = r ∧ x.pos = pos)) hfind)
  split
  · exact if_neg (Nat.not_le.mpr (hearly e (List.mem_of_find?_eq_some hfind) hring hpos))
  · rfl

/-! ## Cycle points (08 R373 to R376) -/

/-- A point that fires counts, and holds its vector's granule unless another point of it is still to fire. -/
def State.cpCounted (s : State) (k : Nat) : State :=
  { s with host := { s.host with cpCount := SMap.put 0 s.host.cpCount k ((SMap.get 0 s.host.cpCount k + 1) % 2 ^ 16),
                                 cpFired := SMap.put 0 s.host.cpFired k (s.granuleNo + 1),
                                 cpLast := if s.cpAwaits k then s.host.cpLast else SMap.put 0 s.host.cpLast (s.cpVec k) (s.granuleNo + 1) } }

/-- The word of a point that fires. -/
def State.cpWord (s : State) (k : Nat) : List Byte :=
  leBytes 3 (tagOf s.cyc) ++ [0] ++ leBytes 2 s.gran ++ leBytes 2 ((SMap.get 0 s.host.cpCount k + 1) % 2 ^ 16)

/-- The word of a point that fires is written. -/
def State.cpWritten (s : State) (k : Nat) : State := (s.cpCounted k).statusWrite (0x100 + 8 * k) (s.cpWord k)

theorem State.cpWritten_hostOnly (b : State) (k : Nat) : b.HostOnly (b.cpWritten k) :=
  State.HostOnly.trans ⟨_, _, rfl⟩ (State.statusWrite_hostOnly (b.cpCounted k) _ _)

theorem State.cpWritten_host (b : State) (k : Nat) : (b.cpWritten k).host = (b.cpCounted k).host := State.statusWrite_host ..

theorem State.mem_cpWritten_out {b : State} (hlink : b.host.linkUp = true) (hfree : b.fenced srcHostEngine = false) (k : Nat) :
    .status (0x100 + 8 * k) (b.cpWord k) ∈ (b.cpWritten k).out := by
  have hlink' : (b.cpCounted k).host.linkUp = true := hlink
  have hfree' : ¬ (b.cpCounted k).fenced srcHostEngine = true := by
    show ¬ b.fenced srcHostEngine = true
    rw [hfree]
    decide
  rw [State.cpWritten, State.statusWrite, if_pos hlink', State.emitHost, if_neg hfree']
  exact List.mem_cons_self

theorem State.sendMsi_cpCount (s : State) (vec : Nat) : (s.sendMsi vec).host.cpCount = s.host.cpCount := by
  unfold State.sendMsi
  split
  · rfl
  · rw [State.emitHost_host]

theorem State.mem_sendMsi_out {s : State} {vec : Nat} (hfree : s.fenced srcHostEngine = false) (hmask : vec ∉ s.host.msiMasked) :
    .msi vec ∈ (s.sendMsi vec).out := by
  have hclear : ¬ s.host.msiMasked.contains vec = true := by rw [List.contains_iff_mem]; exact hmask
  have hfree' : ¬ s.fenced srcHostEngine = true := by rw [hfree]; decide
  rw [State.sendMsi, if_neg hclear, State.emitHost, if_neg hfree']
  exact List.mem_cons_self

theorem State.mem_sendMsi_pending {s : State} {vec : Nat} (hmask : vec ∈ s.host.msiMasked) : vec ∈ (s.sendMsi vec).host.msiPending := by
  rw [State.sendMsi, if_pos (List.contains_iff_mem.mpr hmask)]
  show vec ∈ (if s.host.msiPending.contains vec then s.host.msiPending else vec :: s.host.msiPending)
  split
  · next h => exact List.contains_iff_mem.mp h
  · exact List.mem_cons_self

/-- What a point that fires makes of the state. -/
def State.cpActs (s : State) (k : Nat) : State :=
  if decide (SMap.get 0 s.host.cpLast (s.cpVec k) = s.granuleNo + 1) || s.cpAwaits k then s.cpWritten k
  else (s.cpWritten k).sendMsi (s.cpVec k)

theorem State.cpActs_hostOnly (b : State) (k : Nat) : b.HostOnly (b.cpActs k) :=
  .ite (b.cpWritten_hostOnly k) ((b.cpWritten_hostOnly k).trans (State.sendMsi_hostOnly _ _))

theorem State.cpActs_spec (b : State) (k : Nat) : let w := b.cpActs k
    SMap.get 0 w.host.cpCount k = (SMap.get 0 b.host.cpCount k + 1) % 2 ^ 16 ∧ (b.cpWritten k).out ⊆ w.out := by
  have hcount : SMap.get 0 (b.cpWritten k).host.cpCount k = (SMap.get 0 b.host.cpCount k + 1) % 2 ^ 16 := by
    rw [b.cpWritten_host]
    exact SMap.get_put_same ..
  unfold State.cpActs
  split
  · exact ⟨hcount, fun _ h => h⟩
  · exact ⟨by rw [State.sendMsi_cpCount]; exact hcount, (State.sendMsi_writes _ _).out⟩

theorem State.cpActs_sends {b : State} {k : Nat} (hfirst : SMap.get 0 b.host.cpLast (b.cpVec k) ≠ b.granuleNo + 1)
    (hlast : b.cpAwaits k = false) : b.cpActs k = (b.cpWritten k).sendMsi (b.cpVec k) :=
  if_neg (by simp [hfirst, hlast])

theorem execCyclePoint_fires {k : Nat} (hfires : (s.before t).cpFires k = true) : let b := s.before t
    let vec := bits (b.force (cpOff k)) 29 25; let n := (SMap.get 0 b.host.cpCount k + 1) % 2 ^ 16
    ∃ w, exec (.cyclePoint t k) s = .next (ends s t w) ∧ w = { b with host := w.host, out := w.out } ∧
      SMap.get 0 w.host.cpCount k = n ∧
      (b.host.linkUp = true → b.fenced srcHostEngine = false →
        .status (0x100 + 8 * k) (leBytes 3 (tagOf b.cyc) ++ [0] ++ leBytes 2 b.gran ++ leBytes 2 n) ∈ w.out) ∧
      (SMap.get 0 b.host.cpLast vec ≠ b.granuleNo + 1 → b.cpAwaits k = false → b.fenced srcHostEngine = false → vec ∉ b.host.msiMasked →
        .msi vec ∈ w.out) ∧
      (SMap.get 0 b.host.cpLast vec ≠ b.granuleNo + 1 → b.cpAwaits k = false → vec ∈ b.host.msiMasked → vec ∈ w.host.msiPending) := by
  intro b vec n
  have hmask : (b.cpWritten k).host.msiMasked = b.host.msiMasked := by
    rw [b.cpWritten_host]
    rfl
  refine ⟨b.cpActs k, ?_, (b.cpActs_hostOnly k).eq, (b.cpActs_spec k).1, fun hlink hfree => ?_, fun hfirst hlast hfree hclear => ?_,
    fun hfirst hlast hmasked => ?_⟩
  · show execCyclePoint t k s = _
    exact does_of_effect (if_pos hfires)
  · exact (b.cpActs_spec k).2 (State.mem_cpWritten_out hlink hfree k)
  · rw [State.cpActs_sends hfirst hlast]
    exact State.mem_sendMsi_out (((b.cpWritten_hostOnly k).fenced _).trans hfree) (by rw [hmask]; exact hclear)
  · rw [State.cpActs_sends hfirst hlast]
    exact State.mem_sendMsi_pending (by rw [hmask]; exact hmasked)

theorem execCyclePoint_idle {k : Nat} (hnot : (s.before t).cpFires k = false) :
    exec (.cyclePoint t k) s = .next (ends s t (s.before t)) := by
  show execCyclePoint t k s = _
  refine does_of_effect (if_neg ?_)
  rw [hnot]
  decide

/-! ## The end of a mask (08 R376) -/

/-- A vector is masked no longer, and its message no longer waits. -/
def State.unmasked (s : State) (vec : Nat) : State :=
  { s with host := { s.host with msiMasked := s.host.msiMasked.filter fun v => decide (v ≠ vec),
                                 msiPending := s.host.msiPending.filter fun v => decide (v ≠ vec) } }

/-- What the end of a mask makes of the state. -/
def State.unmaskSent (s : State) (vec : Nat) : State :=
  if s.host.msiPending.contains vec then (s.unmasked vec).emitHost (.msi vec) else s.unmasked vec

theorem State.unmaskSent_host (b : State) (vec : Nat) : (b.unmaskSent vec).host = (b.unmasked vec).host := by
  unfold State.unmaskSent
  split
  · exact State.emitHost_host _ _
  · rfl

theorem State.unmaskSent_hostOnly (b : State) (vec : Nat) : b.HostOnly (b.unmaskSent vec) :=
  have h : b.HostOnly (b.unmasked vec) := ⟨_, _, rfl⟩
  .ite (h.trans (State.emitHost_hostOnly _ _)) h

theorem execMsiXVectorUnmask_sends (vec : Nat) : let b := s.before t
    ∃ w, exec (.msiXVectorUnmask t vec) s = .next (ends s t w) ∧ w = { b with host := w.host, out := w.out } ∧
    vec ∉ w.host.msiMasked ∧ vec ∉ w.host.msiPending ∧ (vec ∈ b.host.msiPending → b.fenced srcHostEngine = false → w.out = .msi vec :: b.out) ∧
    (vec ∉ b.host.msiPending → w.out = b.out) ∧ ∀ v, v ≠ vec → (v ∈ w.host.msiMasked ↔ v ∈ b.host.msiMasked) := by
  intro b
  have hmem : ∀ (l : List Nat) (v : Nat), (v ∈ l.filter fun v => decide (v ≠ vec)) ↔ v ∈ l ∧ v ≠ vec := fun l v => by
    rw [List.mem_filter, decide_eq_true_iff]
  refine ⟨b.unmaskSent vec, ?_, (b.unmaskSent_hostOnly vec).eq, ?_, ?_, fun hpending hfree => ?_, fun hnone => ?_, fun v hv => ?_⟩
  · show execMsiXVectorUnmask t vec s = _
    exact does_of_effect rfl
  · rw [b.unmaskSent_host]
    exact fun h => ((hmem _ _).mp h).2 rfl
  · rw [b.unmaskSent_host]
    exact fun h => ((hmem _ _).mp h).2 rfl
  · have hfree' : ¬ (b.unmasked vec).fenced srcHostEngine = true := by
      show ¬ b.fenced srcHostEngine = true
      rw [hfree]
      decide
    rw [State.unmaskSent, if_pos (List.contains_iff_mem.mpr hpending), State.emitHost, if_neg hfree']
    rfl
  · have hnone' : ¬ b.host.msiPending.contains vec = true := by rw [List.contains_iff_mem]; exact hnone
    rw [State.unmaskSent, if_neg hnone']
    rfl
  · rw [b.unmaskSent_host]
    exact (hmem _ _).trans (and_iff_left hv)

end

/-- Settles O32: each command from its effect; a device alone with one descriptor open posts no other. -/
theorem descriptorsAreAcceptedAndMessagesSent : Obligations.DescriptorsAreAcceptedAndMessagesSent := by
  unfold Obligations.DescriptorsAreAcceptedAndMessagesSent
  refine ⟨fun s t r => ⟨fun bytes buf => execDescriptorAccepted_enters, fun bytes buf hmay => execDescriptorAccepted_idle hmay,
    fun e p hacc hring hdue hwaits hlate halone hon hfree => execAtPhaseTimeout_late hacc hring hdue hwaits hlate halone hon hfree,
    fun pos hearly => execAtPhaseTimeout_idle hearly⟩, fun s t => ⟨fun k hfires => execCyclePoint_fires hfires,
    fun k hnot => execCyclePoint_idle hnot, fun vec => execMsiXVectorUnmask_sends vec⟩⟩

end Sys2Proof.Machine
end

section
/-! O12: the sequence of the rails (18 R721; 01 R37). -/

namespace Sys2Proof.Machine

/-! ## What the supervisor's own steps change (18 R721, R730, Table 18.7) -/

theorem State.setMode_mode (s : State) (m : DevMode) : (s.setMode m).pw.mode = m := by
  unfold State.setMode
  split
  · assumption
  · rfl

theorem State.setMode_pw (s : State) (m : DevMode) :
    ∃ x p c, (s.setMode m).pw = { s.pw with mode := x, prev := p, changes := c } := by
  unfold State.setMode
  split <;> exact ⟨_, _, _, rfl⟩

theorem State.setMode_only (s : State) (m : DevMode) : ∃ p, s.setMode m = { s with pw := p } := by
  unfold State.setMode
  split <;> exact ⟨_, rfl⟩

/-- Domains that come up are all that changes of the supervisor. -/
theorem Power.domainsUp_only (p : Power) (l : List Nat) : ∃ d, l.foldl Power.domainUp p = { p with domains := d } :=
  List.foldlRecOn (motive := fun q : Power => ∃ d, q = { p with domains := d }) l _ ⟨_, rfl⟩ fun q h d _ => by
    obtain ⟨x, rfl⟩ := h
    exact ⟨_, rfl⟩

theorem State.powerUp_pw (s : State) : ∃ d, s.powerUp.pw = { s.pw with domains := d } := by
  obtain ⟨d, hd⟩ := s.pw.domainsUp_only railDomains
  refine ⟨d, ?_⟩
  unfold State.powerUp
  dsimp only
  split
  · exact hd
  · exact hd

theorem State.mayBoot_pw (s : State) :
    ∃ x p c d, s.mayBoot.pw = { s.pw with mode := x, prev := p, changes := c, domains := d } := by
  obtain ⟨d, hd⟩ := s.powerUp_pw
  unfold State.mayBoot
  split
  · obtain ⟨x, p, c, h⟩ := s.powerUp.setMode_pw .boot
    exact ⟨x, p, c, d, by rw [h, hd]⟩
  · split
    · exact ⟨_, _, _, d, hd⟩
    · exact ⟨_, _, _, _, rfl⟩

/-- With its rails and VIN good, and VHOLD over, the package goes from RESET to BOOT. -/
theorem State.mayBoot_mode {s : State} (hmode : s.pw.mode = .reset) (hrails : s.pw.sequenced = true) (hhold : s.pw.hold = false)
    (hvrst : s.pw.vrst = false) : s.mayBoot.pw.mode = .boot := by
  rw [State.mayBoot, if_pos ⟨hmode, hrails, by rw [hhold]; decide, by rw [hvrst]; decide⟩]
  exact State.setMode_mode ..

/-! ## RAIL_GOOD (18 R721) -/

/-- A rail is good, and the next of the sequence is enabled. -/
def State.railUp (s : State) (x : Rail) (next : Option Rail) : State :=
  s.modPw fun p => { p.setRail x true with enabling := match next with | some y => some (y, s.now) | none => none }

theorem State.railUp_next (b : State) (x y : Rail) : let w := b.railUp x (some y)
    w = { b with pw := { b.pw with railsGood := w.pw.railsGood, enabling := some (y, b.now) } } ∧
      w.pw.railsGood = b.pw.railsGood.filter (fun r => decide (r ≠ x)) ++ [x] := ⟨rfl, rfl⟩

/-- VCORE is good, and the package may boot. -/
def State.coreUp (s : State) : State := ((s.railUp .vcore none).modPw fun p => { p with attempts := 0 }).mayBoot

theorem State.railUp_sequenced {b : State} (hvio : Rail.vio ∈ b.pw.railsGood) (hvafe : Rail.vafe ∈ b.pw.railsGood)
    (hv1p0 : Rail.v1p0 ∈ b.pw.railsGood) : (b.railUp .vcore none).pw.sequenced = true := by
  have hkept : ∀ r : Rail, r ≠ .vcore → r ∈ b.pw.railsGood → r ∈ (b.railUp .vcore none).pw.railsGood := fun r hr h =>
    List.mem_append_left _ (List.mem_filter.mpr ⟨h, decide_eq_true hr⟩)
  have hcore : Rail.vcore ∈ (b.railUp .vcore none).pw.railsGood := List.mem_append_right _ List.mem_cons_self
  simp only [Power.sequenced, railOrder, List.all_cons, List.all_nil, Bool.and_true, Bool.and_eq_true, List.contains_iff_mem]
  exact ⟨hkept _ (by decide) hvio, hkept _ (by decide) hvafe, hkept _ (by decide) hv1p0, hcore⟩

theorem State.coreUp_spec (b : State) : Rail.vcore ∈ b.coreUp.pw.railsGood ∧ b.coreUp.pw.enabling = none ∧ b.coreUp.pw.attempts = 0 ∧
    (b.pw.mode = .reset → Rail.vio ∈ b.pw.railsGood → Rail.vafe ∈ b.pw.railsGood → Rail.v1p0 ∈ b.pw.railsGood →
      b.pw.hold = false → b.pw.vrst = false → b.coreUp.pw.mode = .boot) := by
  obtain ⟨x, p, c, d, h⟩ := ((b.railUp .vcore none).modPw fun p => { p with attempts := 0 }).mayBoot_pw
  refine ⟨?_, ?_, ?_, fun hmode hvio hvafe hv1p0 hhold hvrst => ?_⟩
  · rw [State.coreUp, h]
    exact List.mem_append_right _ List.mem_cons_self
  · rw [State.coreUp, h]
    rfl
  · rw [State.coreUp, h]
    rfl
  · exact State.mayBoot_mode (s := (b.railUp .vcore none).modPw fun p => { p with attempts := 0 }) hmode
      (State.railUp_sequenced hvio hvafe hv1p0) hhold hvrst

section
variable {s : State} {t : Nat}

theorem execRailGood_next {code since : Nat} {y : Rail} (hin : railOrder.contains (Rail.ofCode code) = true)
    (hcore : Rail.ofCode code ≠ .vcore) (hnext : (Rail.ofCode code).next = some y)
    (henabling : (s.before t).pw.enabling = some (Rail.ofCode code, since)) :
    exec (.railGood t code) s = .next (ends s t ((s.before t).railUp (Rail.ofCode code) (some y))) := by
  show execRailGood t code s = _
  refine does_of_effect ((if_pos hin).trans ?_)
  rw [henabling]
  refine (if_neg (not_not_intro rfl)).trans ((if_neg hcore).trans ?_)
  rw [hnext]
  rfl

theorem execRailGood_core {since : Nat} (henabling : (s.before t).pw.enabling = some (.vcore, since)) : let b := s.before t
    ∃ w, exec (.railGood t 4) s = .next (ends s t w) ∧
    Rail.vcore ∈ w.pw.railsGood ∧ w.pw.enabling = none ∧ w.pw.attempts = 0 ∧
    (b.pw.mode = .reset → Rail.vio ∈ b.pw.railsGood → Rail.vafe ∈ b.pw.railsGood → Rail.v1p0 ∈ b.pw.railsGood →
      b.pw.hold = false → b.pw.vrst = false → w.pw.mode = .boot) := by
  refine ⟨(s.before t).coreUp, ?_, (s.before t).coreUp_spec⟩
  show execRailGood t 4 s = _
  refine does_of_effect ((if_pos (by decide)).trans ?_)
  rw [henabling]
  rfl

/-! ## RAIL_TIMEOUT (18 R721; 01 R37) -/

/-- An attempt has failed: the rails of the sequence go off. -/
def State.railFailed (s : State) : State :=
  s.modPw fun p => { p with railsGood := p.railsGood.filter fun r => !railOrder.contains r, enabling := none
                            attempts := p.attempts + 1, failedAt := s.now }

theorem State.stayReset_last {b : State} (hlast : 2 ≤ b.pw.attempts) : let w := b.railFailed.stayReset
    w = { b with pw := w.pw } ∧ w.pw.mode = .reset ∧ w.pw.enabling = none ∧
      w.pw.attempts = b.pw.attempts + 1 ∧ w.pw.railsGood = b.pw.railsGood.filter fun r => !railOrder.contains r := by
  have hstays : b.railFailed.stayReset =
      (b.railFailed.setMode .reset).modPw fun p => { p with domains := p.domains.filter fun d => decide (d < 3) } :=
    if_pos (Nat.succ_le_succ hlast)
  obtain ⟨q, hq⟩ := b.railFailed.setMode_only .reset
  obtain ⟨x, p, c, hpw⟩ := b.railFailed.setMode_pw .reset
  have hmode := b.railFailed.setMode_mode .reset
  intro w
  have hw : w = (b.railFailed.setMode .reset).modPw fun p => { p with domains := p.domains.filter fun d => decide (d < 3) } := hstays
  clear_value w
  subst hw
  refine ⟨?_, hmode, ?_, ?_, ?_⟩
  · rw [hq]
    rfl
  · exact (congrArg Power.enabling hpw).trans rfl
  · exact (congrArg Power.attempts hpw).trans rfl
  · exact (congrArg Power.railsGood hpw).trans rfl

theorem execRailTimeout_fails {code since : Nat} (henabling : (s.before t).pw.enabling = some (Rail.ofCode code, since))
    (hlate : since + 8000000 ≤ (s.before t).now) :
    exec (.railTimeout t code) s = .next (ends s t (s.before t).railFailed.stayReset) := by
  show execRailTimeout t code s = _
  refine does_of_effect ?_
  rw [henabling]
  exact if_pos ⟨rfl, hlate⟩

theorem execRailTimeout_again {code since : Nat} (henabling : (s.before t).pw.enabling = some (Rail.ofCode code, since))
    (hlate : since + 8000000 ≤ (s.before t).now) (hfew : (s.before t).pw.attempts < 2) :
    exec (.railTimeout t code) s = .next (ends s t (s.before t).railFailed) := by
  have hmore : ¬ 3 ≤ (s.before t).railFailed.pw.attempts := by
    show ¬ 3 ≤ (s.before t).pw.attempts + 1
    omega
  rw [execRailTimeout_fails henabling hlate, State.stayReset, if_neg hmore]

/-! ## Sequencing starts (18 R721; 01 R37) -/

theorem execResetRelease_sequences (hmay : (s.before t).maySequence = true) (hfirst : (s.before t).pw.attempts = 0) :
    exec (.resetRelease t) s = .next (ends s t (s.before t).sequence) := by
  show execResetRelease t s = _
  exact does_of_effect (if_pos (by rw [hmay, hfirst]; decide))

theorem execRailRetry_sequences (hmay : (s.before t).maySequence = true) (hfailed : 1 ≤ (s.before t).pw.attempts)
    (hfew : (s.before t).pw.attempts < 3) (hlate : (s.before t).pw.failedAt + 400000000 ≤ (s.before t).now) :
    exec (.railRetry t) s = .next (ends s t (s.before t).sequence) := by
  show execRailRetry t s = _
  exact does_of_effect (if_pos (by rw [hmay, decide_eq_true ⟨hfailed, hfew⟩, decide_eq_true hlate]; rfl))

theorem execRailRetry_idle (hmany : 3 ≤ (s.before t).pw.attempts) : exec (.railRetry t) s = .next (ends s t (s.before t)) := by
  have hnot : ¬ (s.before t).pw.attempts < 3 := Nat.not_lt.mpr hmany
  show execRailRetry t s = _
  exact does_of_effect (if_neg (by rw [decide_eq_false fun h => hnot h.2, Bool.and_false, Bool.false_and]; decide))

end

/-- Settles O12: each rail of the sequence by one lemma, the last by what lets the package boot. -/
theorem railsComeUpInOrder : Obligations.RailsComeUpInOrder := by
  unfold Obligations.RailsComeUpInOrder
  intro s t b
  exact ⟨fun hmay hfirst => execResetRelease_sequences hmay hfirst,
    fun since henabling => ⟨_, execRailGood_next (code := 1) rfl (by decide) rfl henabling, b.railUp_next .vio .vafe⟩,
    fun since henabling => ⟨_, execRailGood_next (code := 2) rfl (by decide) rfl henabling, b.railUp_next .vafe .v1p0⟩,
    fun since henabling => ⟨_, execRailGood_next (code := 3) rfl (by decide) rfl henabling, b.railUp_next .v1p0 .vcore⟩,
    fun since henabling => execRailGood_core henabling,
    fun r since henabling hlate hfew => execRailTimeout_again henabling hlate hfew,
    fun r since henabling hlate hlast => ⟨_, execRailTimeout_fails henabling hlate, State.stayReset_last hlast⟩,
    fun hmay hfailed hfew hlate => execRailRetry_sequences hmay hfailed hfew hlate, fun hmany => execRailRetry_idle hmany⟩

end Sys2Proof.Machine
end

section
/-! O13: RESET and its causes (18 R722, R726, R731; 01 R40). -/

namespace Sys2Proof.Machine

/-! ## The state after RESET (18 R726, R729) -/

/-- The machine in RESET with what it put out: of `s` it keeps the queue and the time, PD_AON, the store's pages, the first faults, the
safety channels and the TAP. -/
def State.inReset (s : State) (o : List Out) (cause : ResetCause) (rail : Nat) : State :=
  { pending := s.pending, now := s.now, free := s.free, out := o, time := { lockAt := s.time.lockAt }
    pw := s.pw.inReset cause rail, nv := s.nv.afterReset, tw := { ball := s.tw.ball }
    asy := { ff := s.asy.ff, ffe := s.asy.ffe }, saf := s.saf, tap := s.tap, tapReset := s.tapReset }

theorem State.resetFor_inReset {b : State} (hmode : b.pw.mode ≠ .reset) (cause : ResetCause) (rail : Nat) :
    ∃ o, b.resetFor cause rail = b.inReset o cause rail := by
  obtain ⟨o, ho⟩ : ∃ o, (List.range 8).foldl (fun s p => if (s.port p).supOn then s.emit (.supply p false) else s) b = { b with out := o } := by
    refine List.foldlRecOn (motive := fun w : State => ∃ o, w = { b with out := o }) (List.range 8) _ ⟨_, rfl⟩ fun w h p _ => ?_
    obtain ⟨o, rfl⟩ := h
    split <;> exact ⟨_, rfl⟩
  refine ⟨o, ?_⟩
  rw [State.resetFor, if_neg hmode, State.enterReset, ho]
  rfl

/-- Where only PD_AON, the assay unit and the safety channels differ from RESET, the spine is cleared. -/
theorem State.inReset_cleared (b : State) (o : List Out) (cause : ResetCause) (rail : Nat) {p : Power} (hp : p.mode = .reset) (a : Assay)
    (g : Safety) : Safety.Cleared b { b.inReset o cause rail with pw := p, asy := a, saf := g } :=
  ⟨hp, rfl, rfl, rfl, rfl, rfl, rfl, rfl, rfl, rfl, rfl, rfl, rfl, rfl, rfl, rfl, rfl, rfl, rfl, rfl⟩

/-- RESET of a device that is in another mode. -/
theorem State.resetFor_cleared {b : State} (hmode : b.pw.mode ≠ .reset) (cause : ResetCause) (rail : Nat) : let w := b.resetFor cause rail
    Safety.Cleared b w ∧ w.pw.cause = cause ∧ w.pw.causeRail = rail ∧ w.saf = b.saf := by
  obtain ⟨o, ho⟩ := State.resetFor_inReset hmode cause rail
  rw [ho]
  exact ⟨b.inReset_cleared o cause rail rfl _ _, rfl, rfl, rfl⟩

/-! ## The causes -/

/-- A clock is lost. -/
theorem State.clockReset_spec {b : State} (hmode : b.pw.mode ≠ .reset) : let w := b.resetFor .clock 0
    Safety.Cleared b w ∧ w.pw.cause = .clock ∧ w.saf = b.saf := by
  obtain ⟨hcleared, hcause, -, hsaf⟩ := State.resetFor_cleared hmode .clock 0
  exact ⟨hcleared, hcause, hsaf⟩

/-- VIN has fallen through VRST. -/
def State.vrstReset (s : State) : State :=
  (s.resetFor .vrst 0).modPw fun p =>
    { p with vrst := true, enabling := none, railsGood := p.railsGood.filter fun r => !railOrder.contains r }

theorem State.vrstReset_spec {b : State} (hmode : b.pw.mode ≠ .reset) : let w := b.vrstReset
    Safety.Cleared b w ∧ w.pw.cause = .vrst ∧ w.pw.vrst = true ∧ w.saf = b.saf := by
  obtain ⟨o, ho⟩ := State.resetFor_inReset hmode .vrst 0
  rw [State.vrstReset, ho]
  exact ⟨b.inReset_cleared o .vrst 0 rfl _ _, rfl, rfl, rfl⟩

/-- What is left of the supervisor once VAON has fallen through its minimum. -/
def Power.aonLost (p : Power) : Power :=
  { mode := .reset, hold := p.hold, nvw := p.nvw, vrst := true, vaonMin := true, vsuv := p.vsuv
    railsGood := p.railsGood.filter fun r => decide (r = .vsa ∨ r = .vsb)
    domains := p.domains.filter fun d => decide (d = 1 ∨ d = 2), refclk := p.refclk, perst := p.perst }

/-- VAON has fallen through its minimum. -/
def State.vaonReset (s : State) : State :=
  { s.resetFor .powerOn 0 with pw := (s.resetFor .powerOn 0).pw.aonLost, asy := {} }

theorem State.vaonReset_spec {b : State} (hmode : b.pw.mode ≠ .reset) : let w := b.vaonReset
    Safety.Cleared b w ∧ w.pw.cause = .powerOn ∧ w.pw.vaonMin = true ∧ w.asy = {} ∧ w.saf = b.saf := by
  obtain ⟨o, ho⟩ := State.resetFor_inReset hmode .powerOn 0
  rw [State.vaonReset, ho]
  exact ⟨b.inReset_cleared o .powerOn 0 rfl _ _, rfl, rfl, rfl, rfl⟩

/-- A rail has failed. -/
def State.railReset (s : State) (r : Rail) : State := (s.modPw fun p => p.setRail r false).resetFor .rail r.index

theorem State.railReset_spec {b : State} (hmode : b.pw.mode ≠ .reset) (r : Rail) : let w := b.railReset r
    Safety.Cleared b w ∧ w.pw.cause = .rail ∧ w.pw.causeRail = r.index ∧ w.saf = b.saf :=
  State.resetFor_cleared (b := b.modPw fun p => p.setRail r false) hmode .rail r.index

/-- The rails go off after VIO or VAFE has failed. -/
def State.shutdownReset (s : State) (rail : Nat) : State :=
  (s.resetFor .rail (Rail.ofCode rail).index).modPw fun p => { p with attempts := 1, failedAt := s.now, railLost := none }

theorem State.shutdownReset_spec {b : State} (hmode : b.pw.mode ≠ .reset) (rail : Nat) : let w := b.shutdownReset rail
    Safety.Cleared b w ∧ w.pw.cause = .rail ∧ w.pw.attempts = 1 ∧ w.pw.railLost = none ∧ w.saf = b.saf := by
  obtain ⟨o, ho⟩ := State.resetFor_inReset hmode .rail (Rail.ofCode rail).index
  rw [State.shutdownReset, ho]
  exact ⟨b.inReset_cleared o .rail _ rfl _ _, rfl, rfl, rfl, rfl⟩

/-- The rails go off after a thermal shutdown. -/
def State.thermalReset (s : State) : State :=
  (s.safReset.resetFor .thermal 0).modPw fun p =>
    { p with shutAt := none, enabling := none, railsGood := p.railsGood.filter fun r => decide (r = .vaon)
             domains := p.domains.filter fun d => decide (d = 0) }

theorem State.thermalReset_spec {b : State} (hmode : b.pw.mode ≠ .reset) : let w := b.thermalReset
    Safety.Cleared b w ∧ w.pw.cause = .thermal ∧ w.pw.shutAt = none ∧ ∀ k, (w.safOut k).on = false := by
  obtain ⟨x, g, hsaf, houts, -, -⟩ := b.safReset_only
  obtain ⟨o, ho⟩ := State.resetFor_inReset (b := { b with out := x, saf := g }) hmode .thermal 0
  rw [State.thermalReset, hsaf, ho]
  refine ⟨b.inReset_cleared o .thermal 0 rfl _ _, rfl, rfl, fun k => ?_⟩
  show (SMap.get {} g.outs k).on = false
  rw [houts, SMap.get_nil]

/-! ## The commands -/

section
variable {s : State} {t : Nat}

theorem execRailFail_next {code : Nat} (hcore : Rail.ofCode code = .vcore ∨ Rail.ofCode code = .v1p0)
    (hgood : (s.before t).pw.sequenced = true) :
    exec (.railFail t code) s = .next (ends s t ((s.before t).railReset (Rail.ofCode code))) := by
  have hin : railOrder.contains (Rail.ofCode code) = true := by
    obtain h | h := hcore <;> rw [h] <;> rfl
  have hmem : (s.before t).pw.railsGood.contains (Rail.ofCode code) = true := by
    exact List.all_eq_true.mp hgood _ (List.contains_iff_mem.mp hin)
  show execRailFail t code s = _
  refine does_of_effect ((if_neg (by rw [hmem]; decide)).trans ((if_neg (by rw [hgood, Bool.not_true, Bool.and_false]; decide)).trans ?_))
  obtain h | h := hcore <;> rw [h] <;> rfl

theorem execPllLockLoss_next {pll : Nat} (hlocked : pll + 2 ∈ (s.before t).pw.plls) :
    exec (.pllLockLoss t pll) s = .next (ends s t ((s.before t).resetFor .clock 0)) := by
  show execPllLockLoss t pll s = _
  exact does_of_effect (if_pos (List.contains_iff_mem.mpr hlocked))

theorem execTdCheck_next (hdue : (s.before t).tdDue = true) :
    exec (.tdCheck t false) s = .next (ends s t ((s.before t).resetFor .clock 0)) := by
  show execTdCheck t false s = _
  exact does_of_effect ((if_neg (by rw [hdue]; decide)).trans (if_neg (by decide)))

theorem execRailFailShutdown_next {since : Nat} (rail : Nat) (hlost : (s.before t).pw.railLost = some since)
    (hlate : since + 4000000 ≤ (s.before t).now) :
    exec (.railFailShutdown t rail) s = .next (ends s t ((s.before t).shutdownReset rail)) := by
  show execRailFailShutdown t rail s = _
  refine does_of_effect ?_
  rw [hlost]
  exact if_pos hlate

theorem execThermalRailOff_next {since : Nat} (hshut : (s.before t).pw.shutAt = some since)
    (hlate : since + 4000000 ≤ (s.before t).now) : exec (.thermalRailOff t) s = .next (ends s t (s.before t).thermalReset) := by
  show execThermalRailOff t s = _
  refine does_of_effect ?_
  rw [hshut]
  exact if_pos hlate

theorem execVrstCrossed_next : exec (.vrstCrossed t) s = .next (ends s t (s.before t).vrstReset) := by
  show execVrstCrossed t s = _
  exact does_of_effect rfl

theorem execVaonMinCrossed_next : exec (.vaonMinCrossed t) s = .next (ends s t (s.before t).vaonReset) := by
  show execVaonMinCrossed t s = _
  exact does_of_effect rfl

end

/-- Settles O13: each cause from its command and from what RESET leaves. -/
theorem resetClearsTheSpine : Obligations.ResetClearsTheSpine := by
  unfold Obligations.ResetClearsTheSpine
  intro s t b hb
  have hmode : (s.before t).pw.mode ≠ .reset := hb
  refine ⟨?_, ?_, fun pll hlocked => ?_, fun hdue => ?_, fun hgood => ?_, fun hgood => ?_, fun r since hlost hlate => ?_,
    fun since hshut hlate => ?_⟩
  · exact ⟨_, execVrstCrossed_next, State.vrstReset_spec hmode⟩
  · exact ⟨_, execVaonMinCrossed_next, State.vaonReset_spec hmode⟩
  · exact ⟨_, execPllLockLoss_next hlocked, State.clockReset_spec hmode⟩
  · exact ⟨_, execTdCheck_next hdue, State.clockReset_spec hmode⟩
  · exact ⟨_, execRailFail_next (code := 4) (.inl rfl) hgood, State.railReset_spec hmode (Rail.ofCode 4)⟩
  · exact ⟨_, execRailFail_next (code := 3) (.inr rfl) hgood, State.railReset_spec hmode (Rail.ofCode 3)⟩
  · exact ⟨_, execRailFailShutdown_next r hlost hlate, State.shutdownReset_spec hmode r⟩
  · exact ⟨_, execThermalRailOff_next hshut hlate, State.thermalReset_spec (b := s.before t) hmode⟩

end Sys2Proof.Machine
end

section
/-! O14: supply conditions and temperatures (18 R722, R724, R725, R727; 01 R40). -/

namespace Sys2Proof.Machine

/-! ## Entry to SAFE_HOLD at detection (16 R636, R641; 18 R736) -/

/-- From `s` to `w` the supervisor changes its mode at most, and the safety channels stay. -/
structure State.HoldsAt (s w : State) : Prop where
  pw : ∃ m p c, w.pw = { s.pw with mode := m, prev := p, changes := c }
  saf : w.saf = s.saf

theorem State.HoldsAt.refl (s : State) : s.HoldsAt s := ⟨⟨_, _, _, rfl⟩, rfl⟩

theorem State.HoldsAt.trans {a b c : State} (h : a.HoldsAt b) (g : b.HoldsAt c) : a.HoldsAt c := by
  obtain ⟨m, p, x, hpw⟩ := h.pw
  obtain ⟨m', p', x', hpw'⟩ := g.pw
  exact ⟨⟨m', p', x', by rw [hpw', hpw]⟩, g.saf.trans h.saf⟩

theorem Desk.holdsAt {b w : State} (h : Desk b w) : b.HoldsAt w := ⟨⟨_, _, _, h.pw⟩, h.saf⟩

theorem State.setMode_holdsAt (s : State) (m : DevMode) : s.HoldsAt (s.setMode m) := by
  obtain ⟨p, hp⟩ := s.setMode_only m
  exact ⟨s.setMode_pw m, by rw [hp]⟩

theorem State.axisStops_saf (s : State) (l : List Nat) (src kind : Nat) : (s.axisStops l src kind).saf = s.saf := by
  refine List.foldlRecOn (motive := fun w : State => w.saf = s.saf) _ _ rfl fun v h a _ => ?_
  unfold State.axisStop
  split <;> exact h

theorem State.holdAxes_saf (s : State) (src kind : Nat) : (s.holdAxes src kind).saf = s.saf := by
  refine (State.axisStops_saf _ _ src kind).trans ?_
  refine List.foldlRecOn (motive := fun w : State => w.saf = s.saf) _ _ rfl fun v h k _ => ?_
  exact List.foldlRecOn (motive := fun w : State => w.saf = s.saf) _ _ h fun v h a _ => h

theorem State.holdAxes_holdsAt (s : State) (src kind : Nat) : s.HoldsAt (s.holdAxes src kind) :=
  ⟨⟨_, _, _, s.holdAxes_pw src kind⟩, s.holdAxes_saf src kind⟩

/-- SAFE_HOLD is entered from the modes in which a set-up or a plant can be. -/
theorem State.safeHold_spec (s : State) (src kind : Nat) : s.HoldsAt (s.safeHold src kind) ∧
    (s.pw.mode = .commission ∨ s.pw.mode = .idle ∨ s.pw.mode = .run ∨ s.pw.mode = .degraded → (s.safeHold src kind).pw.mode = .safeHold) := by
  generalize hv : ({ s with asy := { s.asy with persistDue := s.asy.persistDue || bit (s.force 0x100000) 0 } } : State) = v
  have hsv : s.HoldsAt v := hv ▸ ⟨⟨_, _, _, rfl⟩, rfl⟩
  have hmode : v.pw.mode = s.pw.mode := hv ▸ rfl
  have hsafe : s.safeHold src kind = match v.pw.mode with
    | .reset => v
    | .boot => v
    | .safeHold => v
    | .follow => v.notReady (List.range 8)
    | _ => ((v.holdAxes src kind).setMode .safeHold).tellTwin .safeHold := by
    rw [← hv]
    rfl
  have hends : v.HoldsAt (((v.holdAxes src kind).setMode .safeHold).tellTwin .safeHold) ∧
      (((v.holdAxes src kind).setMode .safeHold).tellTwin .safeHold).pw.mode = .safeHold := by
    refine ⟨((v.holdAxes_holdsAt src kind).trans (State.setMode_holdsAt _ _)).trans (State.tellTwin_writes ..).desk.holdsAt, ?_⟩
    rw [(State.tellTwin_writes ..).desk.pw]
    exact State.setMode_mode ..
  rw [hsafe, ← hmode]
  cases v.pw.mode with
  | reset => exact ⟨hsv, fun h => absurd h (by decide)⟩
  | boot => exact ⟨hsv, fun h => absurd h (by decide)⟩
  | safeHold => exact ⟨hsv, fun h => absurd h (by decide)⟩
  | follow => exact ⟨hsv.trans (State.notReady_writes ..).desk.holdsAt, fun h => absurd h (by decide)⟩
  | commission => exact ⟨hsv.trans hends.1, fun _ => hends.2⟩
  | idle => exact ⟨hsv.trans hends.1, fun _ => hends.2⟩
  | armed => exact ⟨hsv.trans hends.1, fun _ => hends.2⟩
  | run => exact ⟨hsv.trans hends.1, fun _ => hends.2⟩
  | degraded => exact ⟨hsv.trans hends.1, fun _ => hends.2⟩

/-- The reaction SAFE_HOLD of a kind that is not shared by a pair. -/
theorem State.takeReaction_hold (s : State) (src : Nat) {kind : Nat} (hshared : sharedCause kind = false) (addr : Nat) (detail : List Byte) :
    s.HoldsAt (s.takeReaction src kind addr 8 detail) ∧
    (s.pw.mode = .commission ∨ s.pw.mode = .idle ∨ s.pw.mode = .run ∨ s.pw.mode = .degraded →
      (s.takeReaction src kind addr 8 detail).pw.mode = .safeHold) := by
  unfold State.takeReaction
  split
  · next hwithheld =>
    rw [hshared, if_neg Bool.false_ne_true]
    refine ⟨(State.notReady_writes ..).desk.holdsAt, fun h => ?_⟩
    have hand := (Bool.and_eq_true_iff.mp hwithheld).1
    have hfollow : s.pw.mode = .follow := of_decide_eq_true (Bool.and_eq_true_iff.mp hand).1
    rw [hfollow] at h
    exact absurd h (by decide)
  · rw [if_neg (by decide), if_neg (by decide), if_pos rfl]
    exact s.safeHold_spec src kind

/-- The kinds whose reaction is SAFE_HOLD: failed rails, a thermal shutdown, and VHOLD or VSUV (16 Table 16.4). -/
theorem State.raiseNow_hold (s : State) {kind : Nat} (hkind : kind = 0x12 ∨ kind = 0x15 ∨ kind = 0x17) (src addr : Nat) (detail : List Byte) :
    s.HoldsAt (s.raiseNow src kind addr detail) ∧ (s.pw.mode = .commission ∨ s.pw.mode = .idle ∨ s.pw.mode = .run ∨ s.pw.mode = .degraded →
      (s.raiseNow src kind addr detail).pw.mode = .safeHold) := by
  have hreact : s.reactOf kind = 8 := by obtain rfl | rfl | rfl := hkind <;> rfl
  have hcode : s.clocked (s.fallBack src (s.reactOf kind)) = 8 := by
    have hfall : s.fallBack src 8 = 8 := if_pos (.inl (by decide))
    rw [hreact, hfall]
    exact if_neg fun h => absurd h.1 (by decide)
  have hshared : sharedCause kind = false := by obtain rfl | rfl | rfl := hkind <;> rfl
  unfold State.raiseNow
  rw [hcode]
  dsimp only
  generalize hv : s.raiseDone src kind addr (if s.withholds kind 8 = true then 0 else 8) detail = v
  have hsv : s.HoldsAt v := hv ▸ ⟨⟨_, _, _, rfl⟩, rfl⟩
  have hmode : v.pw.mode = s.pw.mode := hv ▸ rfl
  obtain ⟨honly, hsafe⟩ := v.takeReaction_hold src hshared addr detail
  exact ⟨hsv.trans honly, fun h => hsafe (by rw [hmode]; exact h)⟩

/-! ## The supply conditions (18 R722, R724, R725, R727) -/

/-- VHOLD holds. -/
def State.holdSet (s : State) : State := (s.modPw fun p => { p with hold := true }).liveOn srcVin 0x17

theorem State.holdSet_raised (b : State) : let w := b.holdSet.raiseNow srcVin 0x17 0 []
    w.pw.hold = true ∧ (b.pw.mode = .commission ∨ b.pw.mode = .idle ∨ b.pw.mode = .run ∨ b.pw.mode = .degraded → w.pw.mode = .safeHold) := by
  obtain ⟨⟨⟨m, p, c, hpw⟩, -⟩, hmode⟩ := b.holdSet.raiseNow_hold (.inr (.inr rfl)) srcVin 0 []
  exact ⟨congrArg Power.hold hpw, hmode⟩

/-- A rail is not good any more. -/
def State.railGone (s : State) (r : Rail) : State := s.modPw fun p => p.setRail r false

/-- VIO or VAFE has failed. -/
def State.railLosing (s : State) (r : Rail) : State :=
  ((s.railGone r).raiseNow (srcRail r) 0x12 0 []).modPw fun p => { p with railLost := some s.now, causeRail := r.index }

theorem State.railLosing_spec (b : State) (r : Rail) : let w := b.railLosing r
    w.pw.railLost = some b.now ∧ w.pw.causeRail = r.index ∧ r ∉ w.pw.railsGood ∧
      (b.pw.mode = .commission ∨ b.pw.mode = .idle ∨ b.pw.mode = .run ∨ b.pw.mode = .degraded → w.pw.mode = .safeHold) := by
  obtain ⟨⟨⟨m, p, c, hpw⟩, -⟩, hmode⟩ := (b.railGone r).raiseNow_hold (.inl rfl) (srcRail r) 0 []
  refine ⟨rfl, rfl, ?_, hmode⟩
  show r ∉ ((b.railGone r).raiseNow (srcRail r) 0x12 0 []).pw.railsGood
  rw [congrArg Power.railsGood hpw]
  show r ∉ b.pw.railsGood.filter fun x => decide (x ≠ r)
  rw [List.mem_filter, decide_eq_true_iff]
  exact fun h => h.2 rfl

/-- VSAFE has failed. -/
def State.vsafeGone (s : State) : State :=
  (s.safReset.modPw fun p => { p with vsuv := true, domains := p.domains.filter fun d => decide (d ≠ 1 ∧ d ≠ 2) }).liveOn srcVsafe 0x17

theorem State.vsafeGone_raised (b : State) : let w := b.vsafeGone.raiseNow srcVsafe 0x17 0 []
    w.pw.vsuv = true ∧ 1 ∉ w.pw.domains ∧ 2 ∉ w.pw.domains ∧ (∀ k, (w.safOut k).on = false) ∧ w.saf.a.st = .off ∧ w.saf.b.st = .off ∧
      (b.pw.mode = .commission ∨ b.pw.mode = .idle ∨ b.pw.mode = .run ∨ b.pw.mode = .degraded → w.pw.mode = .safeHold) := by
  obtain ⟨o, g, hreset, houts, hoffa, hoffb⟩ := b.safReset_only
  obtain ⟨hsaf, hmode, hvsuv, hdomains⟩ : b.vsafeGone.saf = g ∧ b.vsafeGone.pw.mode = b.pw.mode ∧ b.vsafeGone.pw.vsuv = true ∧
      b.vsafeGone.pw.domains = b.pw.domains.filter fun d => decide (d ≠ 1 ∧ d ≠ 2) := by
    rw [State.vsafeGone, hreset]
    exact ⟨rfl, rfl, rfl, rfl⟩
  obtain ⟨⟨⟨m, p, c, hpw⟩, hkept⟩, hhold⟩ := b.vsafeGone.raiseNow_hold (.inr (.inr rfl)) srcVsafe 0 []
  generalize b.vsafeGone.raiseNow srcVsafe 0x17 0 [] = w at *
  generalize b.vsafeGone = v at *
  have hout : ∀ d, d ∈ w.pw.domains → d ≠ 1 ∧ d ≠ 2 := by
    intro d hd
    rw [hpw] at hd
    rw [show v.pw.domains = _ from hdomains] at hd
    exact of_decide_eq_true (List.mem_filter.mp hd).2
  refine ⟨?_, fun h => (hout 1 h).1 rfl, fun h => (hout 2 h).2 rfl, fun k => ?_, ?_, ?_, fun h => hhold (by rw [hmode]; exact h)⟩
  · rw [hpw]
    exact hvsuv
  · rw [State.safOut, hkept, hsaf, houts, SMap.get_nil]
  · rw [hkept, hsaf, hoffa]
  · rw [hkept, hsaf, hoffb]

/-- VHOLD is over. -/
def State.holdOver (s : State) : State := ((s.modPw fun p => { p with hold := false }).liveOff srcVin 0x17).mayBoot

theorem State.holdOver_hold (b : State) : b.holdOver.pw.hold = false := by
  obtain ⟨x, p, c, d, h⟩ := ((b.modPw fun p => { p with hold := false }).liveOff srcVin 0x17).mayBoot_pw
  exact congrArg Power.hold h

section
variable {s : State} {t : Nat}

theorem execSupplyNvw_raises (hnew : (s.before t).pw.nvw = false) : let b := s.before t
    exec (.supplyNvw t) s =
      .next (ends s t (({ b with pw := { b.pw with nvw := true, nvwAt := b.core + 1 } }.liveOn srcVin 0x16).raise srcVin 0x16 0 [])) := by
  show execSupplyNvw t s = _
  exact does_of_effect (if_neg (by rw [hnew]; decide))

theorem execSupplyHold_raises (hnew : (s.before t).pw.hold = false) :
    exec (.supplyHold t) s = .next (ends s t ((s.before t).holdSet.raiseNow srcVin 0x17 0 [])) := by
  show execSupplyHold t s = _
  exact does_of_effect (if_neg (by rw [hnew]; decide))

theorem execRailFail_loses {code : Nat} (hrail : Rail.ofCode code = .vio ∨ Rail.ofCode code = .vafe)
    (hgood : (s.before t).pw.sequenced = true) :
    exec (.railFail t code) s = .next (ends s t ((s.before t).railLosing (Rail.ofCode code))) := by
  have hin : railOrder.contains (Rail.ofCode code) = true := by
    obtain h | h := hrail <;> rw [h] <;> rfl
  have hmem : (s.before t).pw.railsGood.contains (Rail.ofCode code) = true :=
    List.all_eq_true.mp hgood _ (List.contains_iff_mem.mp hin)
  show execRailFail t code s = _
  refine does_of_effect ((if_neg (by rw [hmem]; decide)).trans ((if_neg (by rw [hgood, Bool.not_true, Bool.and_false]; decide)).trans ?_))
  obtain h | h := hrail <;> rw [h] <;> rfl

theorem execVsuvCrossed_raises (hnew : (s.before t).pw.vsuv = false) :
    exec (.vsuvCrossed t) s = .next (ends s t ((s.before t).vsafeGone.raiseNow srcVsafe 0x17 0 [])) := by
  show execVsuvCrossed t s = _
  exact does_of_effect (if_neg (by rw [hnew]; decide))

theorem execSupplyConditionEnd_nvw : exec (.supplyConditionEnd t 0) s =
    .next (ends s t (((s.before t).modPw fun p => { p with nvw := false }).liveOff srcVin 0x16)) := by
  show execSupplyConditionEnd t 0 s = _
  exact does_of_effect rfl

theorem execSupplyConditionEnd_hold : exec (.supplyConditionEnd t 1) s = .next (ends s t (s.before t).holdOver) := by
  show execSupplyConditionEnd t 1 s = _
  exact does_of_effect rfl

theorem execSupplyConditionEnd_vrst : exec (.supplyConditionEnd t 2) s =
    .next (ends s t ((s.before t).modPw fun p => { p with vrst := false, attempts := 0 })) := by
  show execSupplyConditionEnd t 2 s = _
  exact does_of_effect rfl

theorem execSupplyConditionEnd_vaonMin : exec (.supplyConditionEnd t 3) s =
    .next (ends s t ((s.before t).modPw fun p => { p with vaonMin := false })) := by
  show execSupplyConditionEnd t 3 s = _
  exact does_of_effect rfl

theorem execSupplyConditionEnd_vsuv : exec (.supplyConditionEnd t 4) s =
    .next (ends s t (((s.before t).modPw fun p => { p with vsuv := false }).liveOff srcVsafe 0x17)) := by
  show execSupplyConditionEnd t 4 s = _
  exact does_of_effect rfl

end

/-! ## Temperatures (01 R40) -/

/-- A junction has reached 140 degrees. -/
def State.dieShut (s : State) (die : Nat) : State :=
  (s.modPw fun p =>
    { p with shut := p.shut ++ [die], shutAt := match p.shutAt with | some x => some x | none => some s.now }).liveOn (srcTemp die) 0x15

theorem State.dieShut_raised (b : State) (die : Nat) : let w := (b.dieShut die).raiseNow (srcTemp die) 0x15 0 []
    w.pw.shut = b.pw.shut ++ [die] ∧ w.pw.shutAt = some (b.pw.shutAt.getD b.now) ∧
      (b.pw.mode = .commission ∨ b.pw.mode = .idle ∨ b.pw.mode = .run ∨ b.pw.mode = .degraded → w.pw.mode = .safeHold) := by
  obtain ⟨⟨⟨m, p, c, hpw⟩, -⟩, hmode⟩ := (b.dieShut die).raiseNow_hold (.inr (.inl rfl)) (srcTemp die) 0 []
  refine ⟨congrArg Power.shut hpw, (congrArg Power.shutAt hpw).trans ?_, hmode⟩
  show (match b.pw.shutAt with | some x => some x | none => some b.now) = _
  cases b.pw.shutAt <;> rfl

/-- A die is cool again. -/
def State.dieCool (s : State) (die : Nat) : State :=
  ((s.modPw fun p => { p with shut := p.shut.filter fun d => decide (d ≠ die),
                              hot := p.hot.filter fun d => decide (d ≠ die) }).liveOff (srcTemp die) 0x15).liveOff (srcTemp die) 0x14

/-- What THERMAL_RESTART makes of the state. -/
def State.dieRestart (s : State) (die : Nat) : State :=
  if (s.dieCool die).maySequence && decide ((s.dieCool die).pw.mode = .reset) && decide ((s.dieCool die).pw.cause = .thermal) &&
      decide ((s.dieCool die).pw.attempts < 3) then (s.dieCool die).sequence
  else s.dieCool die

theorem State.dieRestart_spec (b : State) (die : Nat) : let w := b.dieRestart die
    die ∉ w.pw.shut ∧ die ∉ w.pw.hot ∧
    (b.pw.mode = .reset → b.pw.cause = .thermal → b.pw.shut = [die] → b.pw.railsGood = [.vaon] → b.pw.enabling = none →
      b.pw.vrst = false → b.pw.attempts < 3 → w.pw.enabling = some (.vio, b.now)) ∧
    (b.pw.mode ≠ .reset → w.pw.enabling = b.pw.enabling) := by
  have hshut : die ∉ (b.dieCool die).pw.shut ∧ die ∉ (b.dieCool die).pw.hot :=
    ⟨fun h => (of_decide_eq_true (List.mem_filter.mp h).2) rfl, fun h => (of_decide_eq_true (List.mem_filter.mp h).2) rfl⟩
  have hsame : (b.dieRestart die).pw.shut = (b.dieCool die).pw.shut ∧ (b.dieRestart die).pw.hot = (b.dieCool die).pw.hot := by
    unfold State.dieRestart
    split <;> exact ⟨rfl, rfl⟩
  intro w
  refine ⟨hsame.1 ▸ hshut.1, hsame.2 ▸ hshut.2, fun hmode hcause hone hrails henabling hvrst hfew => ?_, fun hmode => ?_⟩
  · have hcool : (b.dieCool die).pw.shut = [] := by
      show b.pw.shut.filter _ = []
      rw [hone]
      simp
    have hmay : (b.dieCool die).maySequence = true := by
      have hnot : (b.dieCool die).pw.sequenced = false := by
        show railOrder.all b.pw.railsGood.contains = false
        rw [hrails]
        rfl
      have hmode' : (b.dieCool die).pw.mode = .reset := hmode
      have henabling' : (b.dieCool die).pw.enabling = none := henabling
      have hvrst' : (b.dieCool die).pw.vrst = false := hvrst
      rw [State.maySequence, hnot, hmode', henabling', hvrst', hcool]
      rfl
    have hgoes : b.dieRestart die = (b.dieCool die).sequence :=
      if_pos (by
        rw [hmay, show (b.dieCool die).pw.mode = .reset from hmode, show (b.dieCool die).pw.cause = .thermal from hcause,
          decide_eq_true (show (b.dieCool die).pw.attempts < 3 from hfew)]
        rfl)
    show (b.dieRestart die).pw.enabling = _
    rw [hgoes]
    rfl
  · have hstays : b.dieRestart die = b.dieCool die := by
      refine if_neg ?_
      rw [decide_eq_false (show ¬ (b.dieCool die).pw.mode = .reset from hmode), Bool.and_false, Bool.false_and, Bool.false_and]
      decide
    show (b.dieRestart die).pw.enabling = _
    rw [hstays]
    rfl

/-- A die is not hot any more. -/
def State.heatOver (s : State) (die : Nat) : State :=
  (s.modPw fun p => { p with hot := p.hot.filter fun d => decide (d ≠ die) }).liveOff (srcTemp die) 0x14

theorem State.liveOff_live (s : State) (src kind : Nat) : ∀ k ∈ ((s.liveOff src kind).src src).live, k ≠ kind := by
  intro k hk
  rw [State.liveOff, State.modSrc_src_same] at hk
  exact of_decide_eq_true (List.mem_filter.mp hk).2

section
variable {s : State} {t die : Nat}

theorem execTempHigh_raises (hnew : die ∉ (s.before t).pw.hot) : let b := s.before t
    exec (.tempHigh t die) s =
      .next (ends s t (({ b with pw := { b.pw with hot := b.pw.hot ++ [die] } }.liveOn (srcTemp die) 0x14).raise (srcTemp die) 0x14 0 [])) := by
  show execTempHigh t die s = _
  exact does_of_effect (if_neg (by rw [List.contains_iff_mem]; exact hnew))

theorem execTempShutdown_raises (hnew : die ∉ (s.before t).pw.shut) :
    exec (.tempShutdown t die) s = .next (ends s t (((s.before t).dieShut die).raiseNow (srcTemp die) 0x15 0 [])) := by
  show execTempShutdown t die s = _
  exact does_of_effect (if_neg (by rw [List.contains_iff_mem]; exact hnew))

theorem execThermalRestart_next : exec (.thermalRestart t die) s = .next (ends s t ((s.before t).dieRestart die)) := by
  show execThermalRestart t die s = _
  exact does_of_effect rfl

theorem execTemperatureConditionEnd_next :
    exec (.temperatureConditionEnd t die) s = .next (ends s t ((s.before t).heatOver die)) := by
  show execTemperatureConditionEnd t die s = _
  exact does_of_effect rfl

end

/-- Settles O14: each condition from its command, over what a mark with the reaction SAFE_HOLD does. -/
theorem suppliesAndTemperaturesAct : Obligations.SuppliesAndTemperaturesAct := by
  unfold Obligations.SuppliesAndTemperaturesAct
  refine ⟨fun s t => ⟨fun hnew => execSupplyNvw_raises hnew, fun hnew => ⟨_, execSupplyHold_raises hnew, (s.before t).holdSet_raised⟩,
    fun hgood => ⟨_, execRailFail_loses (code := 1) (.inl rfl) hgood, (s.before t).railLosing_spec (Rail.ofCode 1)⟩,
    fun hgood => ⟨_, execRailFail_loses (code := 2) (.inr rfl) hgood, (s.before t).railLosing_spec (Rail.ofCode 2)⟩,
    fun hnew => ⟨_, execVsuvCrossed_raises hnew, (s.before t).vsafeGone_raised⟩, ⟨_, execSupplyConditionEnd_nvw, rfl⟩,
    ⟨_, execSupplyConditionEnd_hold, (s.before t).holdOver_hold⟩, execSupplyConditionEnd_vrst, execSupplyConditionEnd_vaonMin,
    ⟨_, execSupplyConditionEnd_vsuv, rfl⟩⟩, fun s t die => ⟨fun hnew => execTempHigh_raises hnew,
    fun hnew => ⟨_, execTempShutdown_raises hnew, (s.before t).dieShut_raised die⟩,
    ⟨_, execThermalRestart_next, (s.before t).dieRestart_spec die⟩,
    ⟨_, execTemperatureConditionEnd_next, rfl, State.liveOff_live _ _ _⟩⟩⟩

end Sys2Proof.Machine
end

section
/-! O15: the package boots (18 R730, R731, R739, R740, R744; 13 R525; 17 R699). -/

namespace Sys2Proof.Machine

/-! ## What the entry to IDLE or COMMISSION leaves (18 R733, R734) -/

/-- The supervisor, the store and the level of the rank ball. -/
def State.stood (s : State) : Power × Nv × Bool := (s.pw, s.nv, s.tw.ball)

theorem State.stood_fold {α : Type} {f : State → α → State} (step : ∀ s x, (f s x).stood = s.stood) (l : List α) (s : State) :
    (l.foldl f s).stood = s.stood :=
  List.foldlRecOn (motive := fun w : State => w.stood = s.stood) l f rfl fun v h x _ => (step v x).trans h

theorem Desk.stood {b w : State} (h : Desk b w) (hball : w.tw.ball = b.tw.ball) : w.stood = b.stood := by
  rw [State.stood, h.pw, h.nv, hball, State.stood]

theorem State.postCpl_ball (s : State) (e : Entry) (rec_ : List Byte) : (s.postCpl e rec_).tw.ball = s.tw.ball := by
  have hring : (if (s.ringOf (8 + e.ring)).on then (s.putEntry (8 + e.ring) rec_).putIndex (8 + e.ring) e.irq else s).tw.ball = s.tw.ball := by
    split
    · exact congrArg Twin.ball ((State.putIndex_tw _ _ _).trans (s.putEntry_tw _ _))
    · rfl
  unfold State.postCpl
  dsimp only
  generalize (if (s.ringOf (8 + e.ring)).on then (s.putEntry (8 + e.ring) rec_).putIndex (8 + e.ring) e.irq else s) = v at *
  split
  · exact (congrArg Twin.ball (State.sendTwin_tw _ _ _ _ _ _)).trans hring
  · exact hring

theorem State.keepDefine_ball (s : State) (e : Entry) : (s.keepDefine e).tw.ball = s.tw.ball := by
  unfold State.keepDefine
  split
  · split
    · split <;> rfl
    · rfl
  · rfl

theorem postLoop_ball (s : State) (blocked : List Nat) (kept l : List Entry) : (postLoop s blocked kept l).tw.ball = s.tw.ball := by
  induction l generalizing s blocked kept with
  | nil => rfl
  | cons e r ih =>
    unfold postLoop
    split
    · exact ih ..
    · split
      · exact (ih ..).trans ((State.keepDefine_ball _ _).trans (s.postCpl_ball _ _))
      · exact ih ..

theorem State.cplDisables_ball (s : State) : s.cplDisables.tw.ball = s.tw.ball := by
  unfold State.cplDisables
  generalize List.range 8 = l
  refine List.foldlRecOn (motive := fun w : State => w.tw.ball = s.tw.ball) l _ rfl fun v h r _ => ?_
  unfold State.cplDisable
  split <;> exact h

theorem State.postReady_stood (s : State) : s.postReady.stood = s.stood := by
  refine s.postReady_Desk.stood ?_
  rw [State.postReady, State.cplDisables_ball, postLoop_ball]

theorem State.tellTwin_stood (s : State) (o : TwinOut) : (s.tellTwin o).stood = s.stood := by
  refine (s.tellTwin_writes o).desk.stood ?_
  unfold State.tellTwin
  split
  · exact congrArg Twin.ball (s.sendTwin_tw ..)
  · rfl

theorem State.finish_stood (s : State) (id status : Nat) (res : List Byte) : (s.finish id status res).stood = s.stood := rfl

theorem State.haltSeg_stood (s : State) (k : Nat) : (s.haltSeg k).stood = s.stood := by
  unfold State.haltSeg
  exact State.stood_fold (fun s _ => s.finish_stood ..) _ s

theorem State.endRun_stood (s : State) (h : Nat) (completes : Bool) : (s.endRun h completes).stood = s.stood := by
  unfold State.endRun
  split <;> rfl

theorem State.quietPool_stood (s : State) : s.quietPool.stood = s.stood :=
  State.stood_fold (f := fun s h => (s.endRun h false).modHammer h fun m => { m with resv := none, barred := [] })
    (fun s h => s.endRun_stood h false) _ _

theorem State.modIGroup_stood (s : State) (g : Nat) (f : IGroup → IGroup) : (s.modIGroup g f).stood = s.stood := by
  unfold State.modIGroup
  split <;> rfl

theorem State.endPath_stood (s : State) (g n m status : Nat) (x : IGroup) : (s.endPath g n m status x).stood = s.stood := by
  unfold State.endPath
  dsimp only
  refine (State.modIGroup_stood _ _ _).trans ?_
  refine (State.stood_fold (fun s _ => s.finish_stood ..) _ _).trans ?_
  split <;> rfl

theorem State.endIdent_stood (s : State) (a status reason : Nat) : (s.endIdent a status reason).stood = s.stood := by
  unfold State.endIdent State.identOver
  split
  · rfl
  · split
    · rfl
    · dsimp only
      split
      · rfl
      · exact State.tellTwin_stood _ _

theorem State.quietAxis_stood (s : State) (a : Nat) : (s.quietAxis a).stood = s.stood := by
  unfold State.quietAxis
  dsimp only
  refine (State.endIdent_stood _ _ _ _).trans ?_
  refine (State.stood_fold (fun s _ => s.finish_stood ..) _ _).trans ?_
  exact State.stood_fold (fun s _ => s.finish_stood ..) _ _

theorem State.leavePair_stood (s : State) : s.leavePair.stood = s.stood := rfl

theorem State.quiesce_stood (s : State) : s.quiesce.stood = s.stood := by
  unfold State.quiesce
  generalize List.range 8 = l
  dsimp only
  rw [State.postReady_stood, State.leavePair_stood, State.stood_fold (f := fun s (e : Nat × Axis) => s.quietAxis e.1)
    (fun s e => s.quietAxis_stood e.1), State.stood_fold (f := fun s (e : Nat × IGroup) => s.quietGroup e.1 e.2)
    (fun s e => s.endPath_stood ..), State.quietPool_stood, State.stood_fold State.haltSeg_stood]

/-- A port's supply that comes on leaves the supervisor and the store. -/
theorem State.supplyOn_stood (s : State) (p : Nat) : (s.supplyOn p).stood = s.stood := rfl

/-- BOOT ends in COMMISSION or IDLE, and the store stays. -/
theorem State.leaveBoot_stood {s : State} {m : DevMode} (hboot : s.pw.mode = .boot) (hm : m = .commission ∨ m = .idle) :
    (s.leaveBoot m).pw.mode = m ∧ (s.leaveBoot m).nv = s.nv ∧ (s.leaveBoot m).tw.ball = s.tw.ball := by
  have henter : s.enter m = (s.setMode m).quiesce := by
    have hnot : ¬ (s.pw.mode = .commission ∧ m ≠ .commission) := fun h => absurd (hboot.symm.trans h.1) (by decide)
    have hnot' : ¬ ((s.pw.mode = .commission ∨ s.pw.mode = .idle) ∧ m ≠ .commission ∧ m ≠ .idle) := fun h =>
      hm.elim (fun hc => h.2.1 hc) fun hi => h.2.2 hi
    unfold State.enter
    dsimp only
    rw [if_neg hnot, if_neg hnot']
    obtain rfl | rfl := hm <;> rfl
  have hstood : (s.leaveBoot m).stood = (s.setMode m).stood := by
    unfold State.leaveBoot
    rw [henter]
    refine (State.stood_fold (fun s p => ?_) _ _).trans (State.quiesce_stood _)
    split
    · exact s.supplyOn_stood p
    · rfl
  obtain ⟨p, hp⟩ := s.setMode_only m
  refine ⟨(congrArg (fun x => x.1.mode) hstood).trans (s.setMode_mode m), (congrArg (fun x => x.2.1) hstood).trans ?_,
    (congrArg (fun x => x.2.2) hstood).trans ?_⟩
  · show (s.setMode m).nv = s.nv
    rw [hp]
  · show (s.setMode m).tw.ball = s.tw.ball
    rw [hp]

/-! ## BOOT (18 R739 to R746) -/

/-- The level of the rank ball is taken. -/
def State.ballTaken (s : State) (ball : Bool) : State := { s with tw := { s.tw with ball := ball } }

theorem State.bootFail_spec {b : State} (hboot : b.pw.mode = .boot) (ball : Bool) : let w := (b.ballTaken ball).bootFail 1 0
    w.pw.mode = .commission ∧ w.nv.bootErr = 1 ∧ w.tw.ball = ball ∧ w.nv.pages = b.nv.pages := by
  have h := State.leaveBoot_stood (s := (b.ballTaken ball).modNv fun v =>
    { v with bootErr := 1, bootRec := 0, ledgerPage := if 1 = 4 then 0 else v.nextLedger }) hboot (.inl rfl)
  obtain ⟨hmode, hnv, hball⟩ := h
  exact ⟨hmode, (congrArg Nv.bootErr hnv).trans rfl, hball, (congrArg Nv.pages hnv).trans rfl⟩

/-- The cam library takes nothing of the store but the count of bad cams. -/
theorem State.loadCams_keeps (s : State) : s.loadCams.pw = s.pw ∧ s.loadCams.nv.bootErr = s.nv.bootErr ∧ s.loadCams.nv.pages = s.nv.pages := by
  unfold State.loadCams
  generalize List.range 256 = l
  refine List.foldlRecOn (motive := fun w : State => w.pw = s.pw ∧ w.nv.bootErr = s.nv.bootErr ∧ w.nv.pages = s.nv.pages)
    l State.loadCam ⟨rfl, rfl, rfl⟩ fun v h c _ => ?_
  unfold State.loadCam
  dsimp only
  split
  · exact h
  · split
    · exact h
    · exact h

/-- The next page of the ledger is found. -/
def State.ledgerFound (s : State) : State := s.modNv fun v => { v with ledgerPage := v.nextLedger }

theorem State.ledgerFound_keeps (s : State) :
    s.ledgerFound.pw = s.pw ∧ s.ledgerFound.nv.bootErr = s.nv.bootErr ∧ s.ledgerFound.nv.pages = s.nv.pages := ⟨rfl, rfl, rfl⟩

/-- The staging copies are given up, and the cams are loaded. -/
theorem State.cams_keep (s : State) : let w := s.discard.loadCams.ledgerFound
    w.pw = s.pw ∧ w.nv.bootErr = s.nv.bootErr ∧ w.nv.pages = s.nv.pages := by
  have hdiscard : s.discard.pw = s.pw ∧ s.discard.nv = s.nv := ⟨rfl, rfl⟩
  obtain ⟨hpw, herr, hpages⟩ := s.discard.loadCams_keeps
  obtain ⟨hpw', herr', hpages'⟩ := s.discard.loadCams.ledgerFound_keeps
  rw [hdiscard.1] at hpw
  rw [hdiscard.2] at herr hpages
  exact ⟨hpw'.trans hpw, herr'.trans herr, hpages'.trans hpages⟩

theorem State.leaveBoot_idle {b v : State} (hboot : b.pw.mode = .boot)
    (hkept : v.pw = b.pw ∧ v.nv.bootErr = b.nv.bootErr ∧ v.nv.pages = b.nv.pages) :
    (v.leaveBoot .idle).pw.mode = .idle ∧ (v.leaveBoot .idle).nv.bootErr = b.nv.bootErr ∧ (v.leaveBoot .idle).nv.pages = b.nv.pages := by
  obtain ⟨hpw, herr, hpages⟩ := hkept
  obtain ⟨hidle, hnv, -⟩ := State.leaveBoot_stood (s := v) (by rw [hpw]; exact hboot) (.inr rfl)
  rw [hnv]
  exact ⟨hidle, herr, hpages⟩

theorem Nv.imageHead_eq {v u : Nv} (h : v.pages = u.pages) (img : Bool) : v.imageHead img = u.imageHead img := by
  rw [Nv.imageHead, Nv.page, h, Nv.imageHead, Nv.page]

/-- The clocks are locked. -/
def State.clocksLocked (s : State) : State :=
  { s with time := { s.time with lockAt := s.now }, saf := { s.saf with offGrid := 0, sentCore := 0 },
           pw := { s.pw with plls := [2, 3, 4, 5, 6, 7] } }

/-- Both images are judged. -/
def Nv.judged (v : Nv) : Nv := { v with aValid := v.imageValid false, bValid := v.imageValid true }

/-- The image that boots is noted. -/
def Nv.chosen (v : Nv) : Nv :=
  match v.bootImage with
  | some b => { v with image := b2n b, gen := v.imageGen b }
  | none => v

theorem Nv.chosen_keeps (v : Nv) : v.chosen.aValid = v.aValid ∧ v.chosen.bValid = v.bValid ∧ v.chosen.pages = v.pages := by
  unfold Nv.chosen
  split <;> exact ⟨rfl, rfl, rfl⟩

theorem State.bootStart_spec (b : State) : let w := b.clocksLocked.modNv fun v => v.judged.chosen
    w.pw = { b.pw with plls := [2, 3, 4, 5, 6, 7] } ∧ w.time = { b.time with lockAt := b.now } ∧
    w.nv.aValid = b.nv.imageValid false ∧ w.nv.bValid = b.nv.imageValid true ∧ w.nv.pages = b.nv.pages := by
  obtain ⟨ha, hb, hpages⟩ := b.nv.judged.chosen_keeps
  exact ⟨rfl, rfl, ha, hb, hpages⟩

/-! ## The commands -/

section
variable {s : State} {t : Nat}

theorem execPowerDomainUp_adds {d : Nat} (hnew : d ∉ (s.before t).pw.domains) (hmode : (s.before t).pw.mode ≠ .reset) (hlow : 3 ≤ d)
    (hrail : d < 4 ∨ (8 ≤ d ∧ d < 11)) : let b := s.before t
    exec (.powerDomainUp t d) s = .next (ends s t { b with pw := { b.pw with domains := b.pw.domains ++ [d] } }) := by
  intro b
  have hnot : ¬ b.pw.domains.contains d = true := by rw [List.contains_iff_mem]; exact hnew
  have hdue : (if b.pw.mode = .reset ∨ b.pw.domains.contains d = true then false
      else if d = 0 then !b.pw.vaonMin
      else if d = 1 ∨ d = 2 then !b.pw.vsuv
      else if d = 12 then bit (b.force 0x0F0000) 0
      else if d = 13 then b.plantNeeded
      else if 4 ≤ d ∧ d < 8 then !b.fenced (srcValley (d - 4))
      else decide (d < 14)) = true := by
    rw [if_neg (fun h => h.elim hmode hnot), if_neg (by omega), if_neg (by omega), if_neg (by omega), if_neg (by omega), if_neg (by omega)]
    exact decide_eq_true (by omega)
  have hbuffer : ¬ (d = 11 ∧ (b.modPw fun p => p.domainUp d).refEn = true) := fun h => absurd h.1 (by omega)
  have hup : b.pw.domainUp d = { b.pw with domains := b.pw.domains ++ [d] } := by
    unfold Power.domainUp
    rw [if_neg hnot]
  show execPowerDomainUp t d s = _
  refine does_of_effect ?_
  dsimp only
  rw [show (if (s.before t).pw.mode = .reset ∨ (s.before t).pw.domains.contains d = true then false else _) = true from hdue,
    if_neg (by decide), if_neg hbuffer]
  exact congrArg (fun p => { b with pw := p }) hup

theorem execRefReady_ready (hen : (s.before t).refEn = true) (hdomain : 11 ∈ (s.before t).pw.domains)
    (hlate : (s.before t).an.refOnAt + 8000000 ≤ (s.before t).now) : let b := s.before t
    exec (.refReady t) s = .next (ends s t { b with an := { b.an with ready := true } }) := by
  show execRefReady t s = _
  exact does_of_effect (if_pos ⟨hen, List.contains_iff_mem.mpr hdomain, hlate⟩)

theorem execTdCheck_good (hdue : (s.before t).tdDue = true) : let b := s.before t
    exec (.tdCheck t true) s = .next (ends s t { b with pw := { b.pw with tdOk := true, tdAt := some b.now } }) := by
  show execTdCheck t true s = _
  exact does_of_effect ((if_neg (by rw [hdue]; decide)).trans (if_pos rfl))

theorem execTdCheck_early {ok : Bool} {a : Nat} (hlast : (s.before t).pw.tdAt = some a) (hearly : (s.before t).now < a + 4000000) :
    exec (.tdCheck t ok) s = .next (ends s t (s.before t)) := by
  have hnot : (s.before t).tdDue = false := by
    rw [State.tdDue, hlast]
    exact decide_eq_false (Nat.not_le.mpr hearly)
  show execTdCheck t ok s = _
  exact does_of_effect (if_pos (by rw [hnot]; rfl))

theorem execPerst_starts : let b := s.before t
    exec (.perst t) s = .next (ends s t { b with pw := { b.pw with perst := true, refclk := true } }) := by
  show execPerst t s = _
  exact does_of_effect rfl

theorem execBootStart_judges (hmode : (s.before t).pw.mode = .boot) (hplls : (s.before t).pw.plls = [])
    (hrails : (s.before t).pw.sequenced = true) (hfree : (s.before t).nvFenced = false) :
    exec (.bootStart t) s = .next (ends s t ((s.before t).clocksLocked.modNv fun v => v.judged.chosen)) := by
  have hgoes : ¬ ((s.before t).pw.mode ≠ .boot ∨ (s.before t).pw.plls ≠ [] ∨ ¬ (s.before t).pw.sequenced = true) := by
    rw [hmode, hplls, hrails]
    decide
  have hfree' : ¬ (s.before t).clocksLocked.nvFenced = true := by
    show ¬ (s.before t).nvFenced = true
    rw [hfree]
    decide
  show execBootStart t s = _
  exact does_of_effect ((if_neg hgoes).trans (if_neg hfree'))

/-- BOOT_COMPLETE in BOOT, with the store in service. -/
theorem execBootComplete_next {ball : Bool} (hmode : (s.before t).pw.mode = .boot) (hplls : (s.before t).pw.plls ≠ [])
    (hfree : (s.before t).nvFenced = false) : exec (.bootComplete t ball) s = .next (ends s t
      (match (s.before t).nv.bootImage with
        | none => ((s.before t).ballTaken ball).bootFail 1 0
        | some img =>
          match ((s.before t).ballTaken ball).applyRecords (((s.before t).nv.imageBody img).length / 8) ((s.before t).nv.imageBody img) 0 with
          | .inr e => ((s.before t).ballTaken ball).bootFail e.1 (if e.1 = 2 ∨ e.1 = 3 then e.2 else 0)
          | .inl w => w.discard.loadCams.ledgerFound.leaveBoot
              (if byteAt (w.discard.loadCams.ledgerFound.nv.imageHead img) 16 = 0 then .idle else .commission))) := by
  have hgoes : ¬ ((s.before t).pw.mode ≠ .boot ∨ (s.before t).pw.plls = []) := fun h => h.elim (fun h => h hmode) hplls
  have hfree' : ¬ ((s.before t).ballTaken ball).nvFenced = true := by
    show ¬ (s.before t).nvFenced = true
    rw [hfree]
    decide
  show execBootComplete t ball s = _
  exact does_of_effect ((if_neg hgoes).trans (if_neg hfree'))

theorem execBootComplete_fails {ball : Bool} (hmode : (s.before t).pw.mode = .boot) (hplls : (s.before t).pw.plls ≠ [])
    (hfree : (s.before t).nvFenced = false) (hnone : (s.before t).nv.bootImage = none) :
    exec (.bootComplete t ball) s = .next (ends s t (((s.before t).ballTaken ball).bootFail 1 0)) := by
  rw [execBootComplete_next hmode hplls hfree, hnone]

theorem execBootComplete_empty {ball img : Bool} (hmode : (s.before t).pw.mode = .boot) (hplls : (s.before t).pw.plls ≠ [])
    (hfree : (s.before t).nvFenced = false) (himage : (s.before t).nv.bootImage = some img) (hbody : (s.before t).nv.imageBody img = [])
    (hgoal : byteAt ((s.before t).nv.imageHead img) 16 = 0) :
    exec (.bootComplete t ball) s =
      .next (ends s t (((s.before t).ballTaken ball).discard.loadCams.ledgerFound.leaveBoot .idle)) := by
  have hhead : ((s.before t).ballTaken ball).discard.loadCams.ledgerFound.nv.imageHead img = (s.before t).nv.imageHead img :=
    Nv.imageHead_eq ((s.before t).ballTaken ball).cams_keep.2.2 img
  rw [execBootComplete_next hmode hplls hfree, himage]
  dsimp only
  rw [hbody]
  show Host.Outcome.next (ends s t (((s.before t).ballTaken ball).discard.loadCams.ledgerFound.leaveBoot _)) = _
  rw [hhead, if_pos hgoal]

end

/-- Settles O15: each command from its effect, over what the entry to COMMISSION or IDLE leaves. -/
theorem thePackageBoots : Obligations.ThePackageBoots := by
  unfold Obligations.ThePackageBoots
  exact fun s t => ⟨fun d hnew hmode hlow hrail => execPowerDomainUp_adds hnew hmode hlow hrail,
    fun hen hdomain hlate => execRefReady_ready hen hdomain hlate, execPerst_starts, fun hdue => execTdCheck_good hdue,
    fun ok a hlast hearly => execTdCheck_early hlast hearly,
    fun hmode hplls hrails hfree => ⟨_, execBootStart_judges hmode hplls hrails hfree, (s.before t).bootStart_spec⟩,
    fun ball hmode hplls hfree hnone => ⟨_, execBootComplete_fails hmode hplls hfree hnone, State.bootFail_spec hmode ball⟩,
    fun ball img hmode hplls hfree himage hbody hgoal => ⟨_, execBootComplete_empty hmode hplls hfree himage hbody hgoal,
      State.leaveBoot_idle (b := (s.before t).ballTaken ball) hmode ((s.before t).ballTaken ball).cams_keep⟩⟩

end Sys2Proof.Machine
end


section
/-! O35: register accesses (19 R758 to R763, R771, R777 to R779; 10 R436; 12 R503; 13 R531; 14 R543). -/

namespace Sys2Proof.Machine

/-! ## What a register write leaves of the register file -/

theorem State.setAmpl_regs (s : State) (p : Nat) : (s.setAmpl p).regs = s.regs := rfl

theorem State.clearPort_regs (s : State) (p mask : Nat) : (s.clearPort p mask).regs = s.regs := by
  show (if _ then State.setAmpl _ p else _ : State).regs = _
  split
  · exact State.setAmpl_regs _ _
  · rfl

/-- Of the register file `w` differs from `s` in the sign of a locked write alone. -/
def State.SeenOnly (s w : State) : Prop := ∃ seen, w.regs = { s.regs with lockedSeen := seen }

theorem State.SeenOnly.keeps {s w : State} (h : w.regs = s.regs) : s.SeenOnly w := ⟨s.regs.lockedSeen, h⟩

theorem State.SeenOnly.ite {s w z : State} {c : Prop} [Decidable c] (hw : s.SeenOnly w) (hz : s.SeenOnly z) :
    s.SeenOnly (if c then w else z) := by
  split
  · exact hw
  · exact hz

/-- The STICKY fields are no SET fields. -/
theorem State.stickyWrite_seenOnly (s : State) (off v : Nat) : s.SeenOnly (s.stickyWrite off v) := by
  have same : s.SeenOnly s := .keeps rfl
  refine .ite (.ite ⟨false, rfl⟩ same) (.ite (.ite (.keeps rfl) same) (.ite ?nodes (.ite ?ports (.ite ?steps (.ite ?converters
    (.ite ?overrange (.ite ?twin (.ite ?sources same))))))))
  case nodes => exact .ite (.keeps rfl) same
  case ports => exact .ite (.keeps (State.clearPort_regs _ _ _)) same
  case steps => exact .ite (.keeps rfl) same
  case converters => exact .keeps rfl
  case overrange => exact .keeps rfl
  case twin => exact .keeps rfl
  case sources => exact .ite (.keeps rfl) same

section
variable {s w : State}

theorem State.SeenOnly.force (h : s.SeenOnly w) (q : Nat) : w.force q = s.force q := by
  obtain ⟨seen, hregs⟩ := h
  rw [State.force, hregs]
  rfl

theorem State.SeenOnly.stage (h : s.SeenOnly w) (q : Nat) : w.stage q = s.stage q := by
  rw [State.stage, h.force]
  obtain ⟨seen, hregs⟩ := h
  rw [hregs]
  rfl

theorem State.SeenOnly.pend (h : s.SeenOnly w) : w.regs.pend = s.regs.pend := by
  obtain ⟨seen, hregs⟩ := h
  rw [hregs]

theorem State.SeenOnly.locked (h : s.SeenOnly w) :
    w.regs.lockedCount = s.regs.lockedCount ∧ w.regs.lockedAddr = s.regs.lockedAddr := by
  obtain ⟨seen, hregs⟩ := h
  rw [hregs]
  exact ⟨rfl, rfl⟩

end

/-! ## Writes of SET fields -/

/-- Copies that differ at one offset: the staging copy of `off` is `x` in `w`, and nothing else of the two copies changed. -/
def State.Staged (s w : State) (off x : Nat) : Prop :=
  w.stage off = x ∧ (∀ q, w.force q = s.force q) ∧ ∀ q, q ≠ off → w.stage q = s.stage q

theorem State.setStage_staged (s : State) (off x : Nat) : s.Staged (s.setStage off x) off x := by
  have hlookup : ∀ q, (s.setStage off x).regs.stage.lookup q = if q = off then some x else s.regs.stage.lookup q := fun q => by
    show (SMap.insert (SMap.erase s.regs.stage off) off x).lookup q = _
    rw [SMap.lookup_insert _ _ _ _ (by rw [SMap.lookup_erase, if_pos rfl]), SMap.lookup_erase]
    split <;> rfl
  refine ⟨?_, fun q => rfl, fun q hq => ?_⟩
  · rw [State.stage, SMap.get, hlookup, if_pos rfl]
  · rw [State.stage, SMap.get, hlookup, if_neg hq]
    rfl

section
variable {s : State} {off v : Nat}

/-- A SET field of a stopped staged block is staged, and its block is pending. -/
theorem State.setWrite_staged (hmask : (Reg.info off).2 ≠ 0) (hruns : s.offRuns off = false) (hcopies : unstaged (Reg.info off).1 = false)
    (hring : Reg.ring off = none) : s.Staged (s.setWrite off v) off (v &&& (Reg.info off).2) ∧
      (Reg.info off).1 ∈ (s.setWrite off v).regs.pend := by
  have hstaged := s.setStage_staged off (v &&& (Reg.info off).2)
  have hwrite : s.setWrite off v = if (Reg.ring off).isSome ∨ s.regs.pend.contains (Reg.info off).1
      then s.setStage off (v &&& (Reg.info off).2)
      else { s.setStage off (v &&& (Reg.info off).2) with
        regs := { (s.setStage off (v &&& (Reg.info off).2)).regs with pend := (Reg.info off).1 :: s.regs.pend } } :=
    (if_neg hmask).trans ((if_neg (by rw [hruns]; decide)).trans (if_neg (by rw [hcopies]; decide)))
  rw [hwrite, hring]
  split
  · next h =>
    have hpend : s.regs.pend.contains (Reg.info off).1 = true := h.resolve_left (by decide)
    exact ⟨hstaged, List.contains_iff_mem.mp hpend⟩
  · exact ⟨hstaged, List.mem_cons_self⟩

/-- A SET field of a block that runs takes no other value. -/
theorem State.setWrite_locked (hmask : (Reg.info off).2 ≠ 0) (hruns : s.offRuns off = true) (hcopies : unstaged (Reg.info off).1 = false)
    (hother : v &&& (Reg.info off).2 ≠ s.stage off) : s.setWrite off v = s.lockedWrite off v (Reg.info off).1 :=
  (if_neg hmask).trans ((if_pos hruns).trans (if_neg (by rw [hcopies]; exact hother)))

theorem State.lockedWrite_copies (s : State) (off v b : Nat) : (s.lockedWrite off v b).regs.stage = s.regs.stage ∧
    (s.lockedWrite off v b).regs.lockedAddr = off % 2 ^ 24 := by
  unfold State.lockedWrite
  dsimp only
  split <;> exact ⟨rfl, rfl⟩

theorem State.pulseWrite_none (hglb : off ≠ 0x24) (htwn : off ≠ 0x0F0000) (hcommit : Reg.commitOf off = none) (hring : Reg.ring off = none) :
    s.pulseWrite off v = s := by
  refine (if_neg hglb).trans ((if_neg htwn).trans ?_)
  rw [hcommit]
  dsimp only
  rw [hring]

/-- A write to a register without PULSE bits writes its SET and its STICKY fields. -/
theorem State.regWrite_noPulse (hglb : off ≠ 0x24) (htwn : off ≠ 0x0F0000) (hcommit : Reg.commitOf off = none) (hring : Reg.ring off = none) :
    s.regWrite off v = (s.setWrite off v).stickyWrite off v :=
  (State.pulseWrite_none hglb htwn hcommit hring).trans (congrArg (State.stickyWrite · off v) (if_neg htwn))

end

/-! ## The debug window -/

section
variable {s : State} {off v : Nat}

/-- A write through the window that no armed checker spoils. -/
theorem State.windowWrite_lookup (hmode : s.pw.mode = .commission) (hwindow : inWindow off = true) (haligned : off % 4 = 0)
    (harmed : s.armedFlip (srcBench (windowBench off)) = 0) (q : Nat) :
    (s.windowWrite off v).sram.lookup q = if q = off then some ⟨v, 0⟩ else s.sram.lookup q := by
  rw [State.windowWrite, if_pos ⟨hmode, hwindow, haligned⟩]
  show (SMap.insert (SMap.erase s.sram off) off _).lookup q = _
  rw [SMap.lookup_insert _ _ _ _ (by rw [SMap.lookup_erase, if_pos rfl]), SMap.lookup_erase, harmed]
  split <;> rfl

theorem State.windowRead_known (hmode : s.pw.mode = .commission) (hwindow : inWindow off = true) (haligned : off % 4 = 0)
    (hword : s.sram.lookup off = some ⟨v, 0⟩) : s.windowRead off 0 0 0 0 = { s with out := .read off v :: s.out } := by
  rw [State.windowRead, if_pos ⟨hmode, hwindow, haligned⟩, State.windowWord, hword]
  rfl

theorem State.windowRead_closed {e y i a : Nat} (hmode : s.pw.mode ≠ .commission) :
    s.windowRead off e y i a = { s with out := .read off 0 :: s.out } := if_neg fun h => hmode h.1

end

/-! ## Reads with a second half -/

section
variable (s : State) (c : Nat)

theorem State.modConv_emit_conv (f : Conv → Conv) (o : Out) : ((s.modConv c f).emit o).conv c = f (s.conv c) :=
  s.modConv_conv_same c f

theorem State.modStep_emit_stepCh (f : StepCh → StepCh) (o : Out) : ((s.modStep c f).emit o).stepCh c = f (s.stepCh c) ∧
    ∀ k, k ≠ c → ((s.modStep c f).emit o).stepCh k = s.stepCh k :=
  ⟨s.modStep_stepCh_same c f, fun _ hk => s.modStep_stepCh_ne c f hk⟩

/-- One entry of the on-chip ring is read, or the empty word. -/
def State.popLo (z : State) (c : Nat) : State :=
  let v := z.conv c
  if v.fill = 0 ∨ v.ringBad = true then
    (z.modConv c fun v => { v with popHi := 0 }).emit (.read (adcOff c 0x14) 0x01F00000)
  else
    let e := SMap.get (0, 0) v.buf v.rp
    (z.modConv c fun v => { v with popHi := e.2, rp := (v.rp + 1) % v.len, fill := v.fill - 1 }).emit (.read (adcOff c 0x14) e.1)

theorem State.popLo_empty (hfill : (s.conv c).fill = 0) : (s.popLo c).out = .read (adcOff c 0x14) 0x01F00000 :: s.out ∧
    (s.popLo c).conv c = { s.conv c with popHi := 0 } := by
  have hpop : s.popLo c = (s.modConv c fun v => { v with popHi := 0 }).emit (.read (adcOff c 0x14) 0x01F00000) := if_pos (.inl hfill)
  rw [hpop]
  exact ⟨rfl, State.modConv_emit_conv _ _ _ _⟩

theorem State.popLo_entry (hfill : (s.conv c).fill ≠ 0) (hring : (s.conv c).ringBad = false) :
    (s.popLo c).out = .read (adcOff c 0x14) (SMap.get (0, 0) (s.conv c).buf (s.conv c).rp).1 :: s.out ∧
    (s.popLo c).conv c = { s.conv c with
      popHi := (SMap.get (0, 0) (s.conv c).buf (s.conv c).rp).2, rp := ((s.conv c).rp + 1) % (s.conv c).len, fill := (s.conv c).fill - 1 } := by
  have hpop : s.popLo c = _ := if_neg (by rw [hring]; exact fun h => h.elim hfill Bool.false_ne_true)
  rw [hpop]
  exact ⟨rfl, State.modConv_emit_conv _ _ _ _⟩

end

/-- Settles O35: a SET field is staged or counted as locked, a read latches its second half, and the window is open in COMMISSION. -/
theorem registerAccessesAct : Obligations.RegisterAccessesAct := by
  unfold Obligations.RegisterAccessesAct
  intro s t b
  have hwrite : ∀ off v, off < 0x800000 → off % 4 = 0 → off ≠ 0x24 → off ≠ 0x0F0000 → Reg.commitOf off = none → Reg.ring off = none →
      exec (.registerWrite t off v) s = .next (ends s t ((b.setWrite off v.toNat).stickyWrite off v.toNat)) :=
    fun off v hbar haligned hglb htwn hcommit hring => by
      show execRegisterWrite t off v s = _
      have hwindow : ¬ inWindow off = true := by
        rw [inWindow, decide_eq_true_eq]
        exact fun h => absurd h.1 (Nat.not_le.mpr hbar)
      exact does_of_effect ((if_neg hwindow).trans ((if_pos haligned).trans (State.regWrite_noPulse hglb htwn hcommit hring)))
  have hinWindow : ∀ {off}, 0x800000 ≤ off → off < 0x1000000 → inWindow off = true := fun hlow hhigh => decide_eq_true ⟨hlow, hhigh⟩
  refine ⟨?stages, ?locks, ?time, ?steps, ?pops, ?window, ?closed, ?shows, ?hides, fun isRead off => ?_⟩
  case stages =>
    intro off v hbar haligned i hmask hruns hcopies hring hcommit hglb htwn
    have hseen := (b.setWrite off v.toNat).stickyWrite_seenOnly off v.toNat
    obtain ⟨⟨hstage, hforce, hothers⟩, hpend⟩ := State.setWrite_staged (v := v.toNat) hmask hruns hcopies hring
    refine ⟨_, hwrite off v hbar haligned hglb htwn hcommit hring, (hseen.stage off).trans hstage, ?_, fun q => (hseen.force q).trans (hforce q),
      fun q hq => (hseen.stage q).trans (hothers q hq)⟩
    rw [hseen.pend]
    exact hpend
  case locks =>
    intro off v hbar haligned i hmask hruns hcopies hring hcommit hglb htwn hother
    have hseen := (b.setWrite off v.toNat).stickyWrite_seenOnly off v.toNat
    have hlocked := State.setWrite_locked (v := v.toNat) hmask hruns hcopies hother
    obtain ⟨hforces, hcount, -⟩ := b.lockedWrite_spec off v.toNat (Reg.info off).1
    obtain ⟨hstages, haddr⟩ := b.lockedWrite_copies off v.toNat (Reg.info off).1
    have hforce : ∀ q, (b.setWrite off v.toNat).force q = b.force q := fun q => by rw [State.force, hlocked, hforces]; rfl
    refine ⟨_, hwrite off v hbar haligned hglb htwn hcommit hring, ?_, ?_, fun q => ⟨(hseen.force q).trans (hforce q), (hseen.stage q).trans ?_⟩⟩
    · rw [hseen.locked.1, hlocked, hcount]
    · rw [hseen.locked.2, hlocked, haddr]
      exact Nat.mod_eq_of_lt (by omega)
    · rw [State.stage, hforce, hlocked, hstages]
      rfl
  case time =>
    show execTimMtLoRead t s = _
    exact does_of_effect rfl
  case steps =>
    intro ch c e
    refine ⟨(b.modStep ch fun c => { c with ecntHi := e / 2 ^ 32 }).emit (.read (pulOff ch 0x0C) (e % 2 ^ 32)), ?_, rfl,
      b.modStep_emit_stepCh ch _ _⟩
    show execPulEcntLoRead t ch s = _
    exact does_of_effect rfl
  case pops =>
    intro c z v
    refine ⟨z.popLo c, ?_, z.popLo_empty c, z.popLo_entry c⟩
    show execAdcPopLoRead t c s = _
    exact does_of_effect rfl
  case window =>
    intro off v hmode hlow hhigh haligned harmed
    have hlookup := State.windowWrite_lookup (v := v.toNat) hmode (hinWindow hlow hhigh) haligned harmed
    refine ⟨b.windowWrite off v.toNat, ?_, (hlookup off).trans (if_pos rfl), fun q hq => (hlookup q).trans (if_neg hq), ?_⟩
    · show execDebugWindowWrite t off v s = _
      exact does_of_effect rfl
    · show execRegisterWrite t off v s = _
      exact does_of_effect (if_pos (hinWindow hlow hhigh))
  case closed =>
    intro off v hmode
    show execDebugWindowWrite t off v s = _
    exact does_of_effect (if_neg fun h => hmode h.1)
  case shows =>
    intro off v hmode hlow hhigh haligned hword
    show execDebugWindowRead t off 0 0 0 0 s = _
    exact does_of_effect (State.windowRead_known hmode (hinWindow hlow hhigh) haligned hword)
  case hides =>
    intro off e y i a hmode
    show execDebugWindowRead t off e y i a s = _
    exact does_of_effect (State.windowRead_closed hmode)
  · show execUnsupportedRequest t isRead off s = _
    exact does_of_effect rfl

end Sys2Proof.Machine
end


section
/-! O34: the blocks' own commits (19 R764, R765, R770) and the global ones (19 R766, R768, R769). -/

namespace Sys2Proof.Machine

/-! ## Staging copies that go into force -/

/-- The staging copies of a list of registers are written to the copy in force. -/
def State.forceStaged (s : State) (l : List Nat) : State := l.foldl (fun s off => s.setForce off (s.stage off)) s

theorem State.setForce_staged_stage (s : State) (off q : Nat) : (s.setForce off (s.stage off)).stage q = s.stage q := by
  by_cases hq : q = off
  · subst hq
    rw [State.stage, State.setForce_force_same]
    show SMap.get (SMap.get (s.force q) s.regs.stage q) s.regs.stage q = SMap.get (s.force q) s.regs.stage q
    unfold SMap.get
    split <;> rfl
  · rw [State.stage, State.setForce_force_ne _ _ _ hq]
    rfl

theorem State.forceStaged_spec (s : State) (l : List Nat) :
    (∀ q, (s.forceStaged l).force q = if q ∈ l then s.stage q else s.force q) ∧
    (s.forceStaged l).regs = { s.regs with force := (s.forceStaged l).regs.force } := by
  induction l generalizing s with
  | nil => exact ⟨fun q => (if_neg List.not_mem_nil).symm, rfl⟩
  | cons off l ih =>
    obtain ⟨hforce, hregs⟩ := ih (s.setForce off (s.stage off))
    refine ⟨fun q => (hforce q).trans ?_, hregs⟩
    rw [State.setForce_staged_stage]
    by_cases hl : q ∈ l
    · rw [if_pos hl, if_pos (List.mem_cons_of_mem _ hl)]
    · rw [if_neg hl]
      by_cases hq : q = off
      · rw [hq, if_pos List.mem_cons_self, State.setForce_force_same]
      · rw [if_neg (fun h => (List.mem_cons.mp h).elim hq hl), State.setForce_force_ne _ _ _ hq]

theorem State.applyOffs_regs (s : State) (l : List Nat) : (s.applyOffs l).regs =
    { (s.forceStaged l).regs with stage := (s.forceStaged l).regs.stage.filter fun e => !l.contains e.1 } := by
  unfold State.applyOffs
  dsimp only
  split <;> rfl

/-- `w` holds the staging copies of the blocks `bs` in force, and is without their pending bits. -/
structure State.Takes (s : State) (bs : List Nat) (w : State) : Prop where
  taken : ∀ q ∈ s.stagedOf bs, w.force q = s.stage q
  kept : ∀ q, q ∉ s.stagedOf bs → w.force q = s.force q
  pend : w.regs.pend = s.regs.pend.filter fun b => !bs.contains b

theorem State.Takes.not_mem_pend {s w : State} {bs : List Nat} (h : s.Takes bs w) {k : Nat} (hk : k ∈ bs) : k ∉ w.regs.pend := by
  rw [h.pend, List.mem_filter, List.contains_iff_mem.mpr hk]
  exact fun hmem => absurd hmem.2 (by decide)

theorem State.Takes.of_regs {s v w : State} {bs : List Nat} (h : s.Takes bs v) (hforce : w.regs.force = v.regs.force)
    (hpend : w.regs.pend = v.regs.pend) : s.Takes bs w where
  taken q hq := by rw [State.force, hforce]; exact h.taken q hq
  kept q hq := by rw [State.force, hforce]; exact h.kept q hq
  pend := hpend.trans h.pend

theorem State.takeBlocks_takes (s : State) (bs : List Nat) : s.Takes bs (s.takeBlocks bs) := by
  obtain ⟨hforce, hregs⟩ := s.forceStaged_spec (s.stagedOf bs)
  have happly := s.applyOffs_regs (s.stagedOf bs)
  have hall : ∀ q, (s.takeBlocks bs).force q = if q ∈ s.stagedOf bs then s.stage q else s.force q := fun q => by
    rw [← hforce q]
    show SMap.get _ (s.applyOffs (s.stagedOf bs)).regs.force q = _
    rw [happly]
    rfl
  refine ⟨fun q hq => (hall q).trans (if_pos hq), fun q hq => (hall q).trans (if_neg hq), ?_⟩
  show (s.applyOffs (s.stagedOf bs)).regs.pend.filter _ = _
  rw [happly, hregs]

theorem State.candidate_regs (s : State) (bs : List Nat) : (s.candidate bs).regs = (s.takeBlocks bs).regs := by
  unfold State.candidate
  refine List.foldlRecOn (motive := fun z : State => z.regs = (s.takeBlocks bs).regs) bs _ rfl fun z hz b _ => ?_
  split
  · exact hz
  · exact hz

theorem State.candidate_takes (s : State) (bs : List Nat) : s.Takes bs (s.candidate bs) :=
  (s.takeBlocks_takes bs).of_regs (congrArg Regs.force (s.candidate_regs bs)) (congrArg Regs.pend (s.candidate_regs bs))

/-! ## What follows a commit -/

theorem regs_ite {c : Prop} [Decidable c] {v w : State} {r : Regs} (hv : v.regs = r) (hw : w.regs = r) : (if c then v else w).regs = r := by
  split
  · exact hv
  · exact hw

theorem State.modDom_regs (s : State) (k : Nat) (f : Domain → Domain) : (s.modDom k f).regs = s.regs := by
  unfold State.modDom
  exact regs_ite rfl rfl

theorem State.domEnable_regs (s : State) (k : Nat) : (s.domEnable k).regs = s.regs := by
  have hset : ∀ st, (s.setDom k st).regs = s.regs := fun st => (State.setDom_onDoms s k st).desk.regs
  exact regs_ite (regs_ite (hset _) rfl) ((State.modDom_regs _ _ _).trans (hset _))

theorem State.dropDomain_regs (s : State) (d : Nat) (needed : Bool) : (s.dropDomain d needed).regs = s.regs := regs_ite rfl rfl

theorem State.timDone_regs (s : State) : s.timDone.regs = s.regs :=
  (State.dropDomain_regs _ _ _).trans ((State.domEnable_regs _ 1).trans (s.domEnable_regs 0))

theorem State.netDone_regs (old s : State) (k : Nat) : (old.netDone s k).regs = s.regs := by
  have hunfence : ∀ z : State, (z.unfence (srcSeg k)).regs = z.regs := fun z => (Desk.of_desk (z.unfence_desk _)).regs
  exact regs_ite (hunfence _) rfl

theorem State.pulDone_regs (old s : State) (c : Nat) : (old.pulDone s c).regs = s.regs := regs_ite rfl rfl

theorem State.supplyOn_regs (s : State) (p : Nat) : (s.supplyOn p).regs = s.regs := rfl

theorem State.supplyOff_regs (s : State) (p : Nat) : (s.supplyOff p).regs = s.regs := rfl

theorem State.fbpDone_regs (old s : State) (p : Nat) : (old.fbpDone s p).regs = s.regs :=
  regs_ite (State.supplyOn_regs _ p) (regs_ite (State.supplyOff_regs _ p) rfl)

theorem State.adcDone_regs (old s : State) (c : Nat) : (old.adcDone s c).regs = s.regs :=
  regs_ite rfl (regs_ite rfl (regs_ite rfl rfl))

/-- Of the register file what follows a commit reaches REASON of its block alone. -/
theorem State.blockDone_regs (old s : State) (b : Nat) :
    (old.blockDone s b).regs = { s.regs with reason := SMap.put 0 s.regs.reason b 0 } :=
  regs_ite (State.timDone_regs _) (regs_ite rfl (regs_ite (State.netDone_regs _ _ _) (regs_ite (State.pulDone_regs _ _ _)
    (regs_ite (State.fbpDone_regs _ _ _) (regs_ite (State.adcDone_regs _ _ _) rfl)))))

/-- What follows the commit of some blocks. -/
def State.blocksDone (old s : State) (bs : List Nat) : State := bs.foldl (fun x b => old.blockDone x b) s

theorem State.blocksDone_regs (old s : State) (bs : List Nat) :
    (old.blocksDone s bs).regs = { s.regs with reason := (old.blocksDone s bs).regs.reason } ∧
    ∀ k, k ∈ bs ∨ SMap.get 0 s.regs.reason k = 0 → SMap.get 0 (old.blocksDone s bs).regs.reason k = 0 := by
  induction bs generalizing s with
  | nil => exact ⟨rfl, fun k hk => hk.resolve_left List.not_mem_nil⟩
  | cons b bs ih =>
    obtain ⟨hregs, hreason⟩ := ih (old.blockDone s b)
    rw [State.blockDone_regs] at hregs hreason
    refine ⟨hregs, fun k hk => hreason k ?_⟩
    by_cases hb : k = b
    · exact .inr (by rw [hb]; exact SMap.get_put_same 0 s.regs.reason b 0)
    · exact hk.imp (fun h => (List.mem_cons.mp h).resolve_left hb) fun h => (SMap.get_put_ne 0 s.regs.reason 0 hb).trans h

/-! ## Commits -/

/-- `w` is what a commit of the blocks `bs` that no check refuses leaves of `s`. -/
structure State.Commits (s : State) (bs : List Nat) (w : State) : Prop where
  takes : s.Takes bs w
  reason : ∀ k ∈ bs, SMap.get 0 w.regs.reason k = 0
  status : w.regs.glbReason = 0

section
variable {s : State} {bs : List Nat} {glb : Nat → Nat → Nat × Nat} {shown : Nat} (hrole : s.tw.role ≠ .follower)
include hrole

theorem State.commitSet_passes (hpass : firstFailure s (s.candidate bs) bs = none) :
    s.commitSet bs glb shown = (s.blocksDone (s.candidate bs) bs).setGlb 0 0 shown := by
  unfold State.commitSet
  rw [if_neg hrole]
  dsimp only
  rw [hpass]
  rfl

theorem State.commitSet_commits (hpass : firstFailure s (s.candidate bs) bs = none) :
    s.Commits bs (s.commitSet bs glb shown) ∧ (s.commitSet bs glb shown).regs.glbBlock = shown := by
  rw [State.commitSet_passes hrole hpass]
  obtain ⟨hregs, hreason⟩ := s.blocksDone_regs (s.candidate bs) bs
  exact ⟨⟨(s.candidate_takes bs).of_regs (congrArg Regs.force hregs :) (congrArg Regs.pend hregs :), fun k hk => hreason k (.inl hk), rfl⟩, rfl⟩

theorem State.commitSet_fails {b r : Nat} {d : Option (Nat × Nat)} (hfail : firstFailure s (s.candidate bs) bs = some (b, r, d)) :
    ∃ reason sub, s.commitSet bs glb shown = (s.blockFailed b r).setGlb reason sub (d.elim b Prod.fst) := by
  unfold State.commitSet
  rw [if_neg hrole]
  dsimp only
  rw [hfail]
  cases d with
  | none => exact ⟨_, _, rfl⟩
  | some d => exact ⟨_, _, rfl⟩

end

theorem State.blockFailed_spec (s : State) (b c : Nat) : s.blockFailed b c =
    { s with regs := { s.regs with reason := SMap.put 0 s.regs.reason b c }, host := (s.blockFailed b c).host, segs := (s.blockFailed b c).segs } := by
  unfold State.blockFailed
  dsimp only
  split
  · rfl
  · split <;> rfl

/-! ## The COMMIT registers -/

/-- Some bit of the register at an offset is STICKY. -/
def Reg.hasSticky (off : Nat) : Bool :=
  decide (off = 0x2C ∨ off = 0x01000C ∨ (0x080000 ≤ off ∧ off < 0x090000 ∧ 0x504 ≤ (off - 0x080000) % 0x2000) ∨
    (0x0D0000 ≤ off ∧ off < 0x0D0200 ∧ (off - 0x0D0000) % 0x40 = 0x18) ∨ (0x0D8000 ≤ off ∧ off < 0x0D8200 ∧ (off - 0x0D8000) % 0x20 = 8) ∨
    off = 0x0E0008 ∨ off = 0x0E0408 ∨ off = 0x0E0804 ∨ off = 0x0F0004 ∨ (0x102000 ≤ off ∧ off < 0x10E000))

/-- The register at `off` holds the COMMIT field of block `blk` and nothing else. -/
def Reg.commits (blk off : Nat) : Bool :=
  decide (Reg.commitOf off = some blk ∧ (Reg.info off).2 = 0 ∧ off ≠ 0x24 ∧ off ≠ 0x0F0000 ∧ off < 2 ^ 24) && !Reg.hasSticky off

theorem ite_eq_of {α : Type} {c : Prop} [Decidable c] {v w s : α} (hv : c → v = s) (hw : ¬ c → w = s) : (if c then v else w) = s := by
  split
  · next h => exact hv h
  · next h => exact hw h

theorem State.stickyWrite_none (s : State) {off : Nat} (v : Nat) (h : Reg.hasSticky off = false) : s.stickyWrite off v = s := by
  have hoff := of_decide_eq_false h
  simp only [not_or, not_and] at hoff
  obtain ⟨hglb, hhost, hnet, hfbp, hpul, hadc0, hadc1, hovr, htwn, hsrc⟩ := hoff
  refine (if_neg hglb).trans ((if_neg hhost).trans (ite_eq_of (fun hin => if_neg fun hd => hnet hin.1 hin.2 hd.1) fun _ =>
    ite_eq_of (fun hin => if_neg (hfbp hin.1 hin.2)) fun _ => ite_eq_of (fun hin => if_neg (hpul hin.1 hin.2)) fun _ =>
    (if_neg fun hd => hd.elim hadc0 hadc1).trans ((if_neg hovr).trans ((if_neg htwn).trans (if_neg fun hin => hsrc hin.1 hin.2)))))

section
variable {s : State} {blk off : Nat}

theorem State.regWrite_commits (h : Reg.commits blk off = true) : s.regWrite off 1 = s.commitGo blk off := by
  obtain ⟨hcommit, hsticky⟩ := (Bool.and_eq_true _ _).mp h
  obtain ⟨hblock, hmask, hglb, htwn, -⟩ := of_decide_eq_true hcommit
  have hset : s.setWrite off 1 = s := if_pos hmask
  have hwrite : s.regWrite off 1 = s.pulseWrite off 1 := by
    unfold State.regWrite
    rw [if_neg htwn, hset]
    dsimp only
    rw [State.stickyWrite_none s 1 (by simpa using hsticky)]
  rw [hwrite]
  refine (if_neg hglb).trans ((if_neg htwn).trans ?_)
  rw [hblock]
  exact if_pos (by decide)

theorem State.lockedWrite_desk (hoff : off < 2 ^ 24) (v b : Nat) : Desk { s with regs := (s.lockedWrite off v b).regs } (s.lockedWrite off v b) ∧
    (s.lockedWrite off v b).regs = { s.regs with lockedSeen := true, lockedCount := (s.regs.lockedCount + 1) % 2 ^ 16, lockedAddr := off } := by
  have haddr : off % 2 ^ 24 = off := Nat.mod_eq_of_lt hoff
  unfold State.lockedWrite
  dsimp only
  rw [haddr]
  split
  · exact ⟨.refl _, rfl⟩
  · exact ⟨(State.raise_Desk _ _ _ _ _).trans rfl, rfl⟩

end

/-- `c` is the command that writes GO to the COMMIT register of block `blk`, at `off`. -/
def CommitsBlock (t : Nat) (c : Instr) (blk off : Nat) : Prop :=
  (∃ k, k < 8 ∧ c = .netSegCommit t k ∧ blk = 0x08 + k ∧ off = netOff k 0x0C) ∨
  (∃ p, p < 8 ∧ c = .fbpCommit t p ∧ blk = 0x20 + p ∧ off = fbOff p 0x14) ∨
  (∃ k, k < 16 ∧ c = .pulCommit t k ∧ blk = 0x10 + k ∧ off = pulOff k 4) ∨
  (∃ k, k < 2 ∧ c = .adcCommit t k ∧ blk = 0x28 + k ∧ off = adcOff k 4) ∨
  (c = .hstCommit t ∧ blk = 0x04 ∧ off = 0x010008) ∨ (c = .asyCommit t ∧ blk = 0x2A ∧ off = 0x100004)

theorem CommitsBlock.commits {t blk off : Nat} {c : Instr} (h : CommitsBlock t c blk off) : Reg.commits blk off = true := by
  have hnet : ∀ k < 8, Reg.commits (0x08 + k) (netOff k 0x0C) = true := by decide
  have hfbp : ∀ p < 8, Reg.commits (0x20 + p) (fbOff p 0x14) = true := by decide
  have hpul : ∀ k < 16, Reg.commits (0x10 + k) (pulOff k 4) = true := by decide
  have hadc : ∀ k < 2, Reg.commits (0x28 + k) (adcOff k 4) = true := by decide
  obtain ⟨k, hk, -, rfl, rfl⟩ | ⟨p, hp, -, rfl, rfl⟩ | ⟨k, hk, -, rfl, rfl⟩ | ⟨k, hk, -, rfl, rfl⟩ | ⟨-, rfl, rfl⟩ | ⟨-, rfl, rfl⟩ := h
  · exact hnet k hk
  · exact hfbp p hp
  · exact hpul k hk
  · exact hadc k hk
  · decide
  · decide

theorem CommitsBlock.exec {s : State} {t blk off : Nat} {c : Instr} (h : CommitsBlock t c blk off) :
    exec c s = .next (ends s t ((s.before t).commitGo blk off)) := by
  have hgo : (s.before t).regWrite off 1 = (s.before t).commitGo blk off := State.regWrite_commits h.commits
  rw [← hgo]
  obtain ⟨k, -, rfl, -, rfl⟩ | ⟨p, -, rfl, -, rfl⟩ | ⟨k, -, rfl, -, rfl⟩ | ⟨k, -, rfl, -, rfl⟩ | ⟨rfl, -, rfl⟩ | ⟨rfl, -, rfl⟩ := h
  · exact does_eq s t (State.regWrite · (netOff k 0x0C) 1)
  · exact does_eq s t (State.regWrite · (fbOff p 0x14) 1)
  · exact does_eq s t (State.regWrite · (pulOff k 4) 1)
  · exact does_eq s t (State.regWrite · (adcOff k 4) 1)
  · exact does_eq s t (State.regWrite · 0x010008 1)
  · exact does_eq s t (State.regWrite · 0x100004 1)

/-! ## The global commits -/

section
variable (s : State)

/-- The pending blocks, as ALL takes them. -/
def State.pendingBlocks : List Nat := (List.range 0x30).filter fun k => s.regs.pend.contains k

theorem State.glbAll_commits (hrole : s.tw.role ≠ .follower) (hstopped : ∀ k ∈ s.pendingBlocks, s.blockRuns k = false)
    (hpass : firstFailure s (s.candidate s.pendingBlocks) s.pendingBlocks = none) : s.Commits s.pendingBlocks s.glbAll := by
  have hfind : s.pendingBlocks.find? (fun k => s.blockRuns k) = none :=
    List.find?_eq_none.mpr fun k hk => by rw [hstopped k hk]; decide
  have hall : s.glbAll = s.commitSet s.pendingBlocks (fun _ r => (1, r)) 0 := by
    rw [State.pendingBlocks] at hfind ⊢
    simp only [State.glbAll, hfind]
  rw [hall]
  exact (State.commitSet_commits hrole hpass).1

theorem State.glbAll_runs (hruns : ∃ k < 0x30, k ∈ s.regs.pend ∧ s.blockRuns k = true) :
    ∃ k, s.glbAll = s.setGlb 2 0 k ∧ k ∈ s.regs.pend ∧ s.blockRuns k = true := by
  obtain ⟨k, hk, hpend, hrun⟩ := hruns
  have hmem : k ∈ s.pendingBlocks := List.mem_filter.mpr ⟨List.mem_range.mpr hk, List.contains_iff_mem.mpr hpend⟩
  obtain ⟨x, hx⟩ : ∃ x, s.pendingBlocks.find? (fun k => s.blockRuns k) = some x :=
    Option.isSome_iff_exists.mp (List.find?_isSome.mpr ⟨k, hmem, hrun⟩)
  refine ⟨x, ?_, List.contains_iff_mem.mp (List.mem_filter.mp (List.mem_of_find?_eq_some hx)).2, List.find?_some hx⟩
  rw [State.pendingBlocks] at hx
  simp only [State.glbAll, hx]

theorem State.glbGo_commits (hrole : s.tw.role ≠ .follower) (hsetup : s.setup = true)
    (hpass : firstFailure s (s.candidate [0x01, 0x02, 0x03]) [0x01, 0x02, 0x03] = none) : s.Commits [0x01, 0x02, 0x03] s.glbGo := by
  have hgo : s.glbGo = s.commitSet [0x01, 0x02, 0x03] (fun _ r => (r, 0)) 0x01 :=
    if_neg (by show ¬ (!s.setup) = true; rw [hsetup]; decide)
  rw [hgo]
  exact (State.commitSet_commits hrole hpass).1

theorem State.discard_stage (e : Nat × Nat) : e ∈ s.discard.regs.stage ↔ e ∈ s.regs.stage ∧ s.offRuns e.1 = true := List.mem_filter

theorem State.discard_pend (k : Nat) : k ∈ s.discard.regs.pend ↔ k ∈ s.regs.pend ∧ s.blockRuns k = true := List.mem_filter

theorem State.regWrite_go : s.regWrite 0x24 1 = s.glbGo := rfl

theorem State.regWrite_all : s.regWrite 0x24 2 = s.glbAll := rfl

theorem State.regWrite_discard : s.regWrite 0x24 4 = s.discard := rfl

end

/-- Settles O34: a commit is checked on the candidate that holds its staging copies, and puts all of them into force or none. -/
theorem commitsActAsOneSetOrFail : Obligations.CommitsActAsOneSetOrFail := by
  unfold Obligations.CommitsActAsOneSetOrFail
  refine ⟨?own, ?global⟩
  case own =>
    intro s t b c blk off hc hrole
    have hcommits : CommitsBlock t c blk off := hc
    have hoff : off < 2 ^ 24 := (of_decide_eq_true ((Bool.and_eq_true _ _).mp hcommits.commits).1).2.2.2.2
    have hstops : b.blockRuns blk = false → b.commitGo blk off = b.commitSet [blk] (fun _ r => (1, r)) blk :=
      fun hruns => if_neg (by rw [hruns]; decide)
    refine ⟨fun hruns => ?_, fun r d hruns hfail => ?_, fun hruns hpass => ?_⟩
    · have hlocked : b.commitGo blk off = b.lockedWrite off 1 blk := if_pos hruns
      exact ⟨_, hcommits.exec, by rw [hlocked]; exact State.lockedWrite_desk hoff 1 blk⟩
    · obtain ⟨reason, sub, hset⟩ := State.commitSet_fails (glb := fun _ r => (1, r)) (shown := blk) hrole hfail
      have hspec := b.blockFailed_spec blk r
      refine ⟨_, hcommits.exec, ?_⟩
      rw [hstops hruns, hset, hspec]
      refine ⟨fun q => rfl, SMap.get_put_same 0 b.regs.reason blk r, rfl, rfl, ?_⟩
      cases d with
      | none => rfl
      | some d => rfl
    · obtain ⟨hcommit, hshown⟩ := State.commitSet_commits (glb := fun _ r => (1, r)) (shown := blk) hrole hpass
      rw [← hstops hruns] at hcommit hshown
      exact ⟨_, hcommits.exec, hcommit.takes.taken, hcommit.takes.kept, hcommit.reason blk List.mem_cons_self,
        hcommit.takes.not_mem_pend List.mem_cons_self, hcommit.status, hshown⟩
  case global =>
    intro s t b hrole
    have hgo : exec (.glbCommitGo t) s = .next (ends s t b.glbGo) := does_of_effect (State.regWrite_go _)
    have hall : exec (.glbCommitAll t) s = .next (ends s t b.glbAll) := does_of_effect (State.regWrite_all _)
    have hdiscard : exec (.glbCommitDiscard t) s = .next (ends s t b.discard) := does_of_effect (State.regWrite_discard _)
    refine ⟨fun hsetup hpass => ?_, ?all, fun hruns => ?_, _, hdiscard, rfl, b.discard_stage, b.discard_pend⟩
    · have hcommit := b.glbGo_commits hrole hsetup hpass
      exact ⟨_, hgo, hcommit.takes.taken, fun k hk => ⟨hcommit.reason k hk, hcommit.takes.not_mem_pend hk⟩⟩
    case all =>
      intro bs hstopped hpass
      have hcommit := b.glbAll_commits hrole hstopped hpass
      exact ⟨_, hall, hcommit.takes.taken, fun k hk => ⟨hcommit.reason k hk, hcommit.takes.not_mem_pend hk⟩⟩
    · obtain ⟨k, hset, hpend, hrun⟩ := b.glbAll_runs hruns
      refine ⟨_, hall, ?_⟩
      rw [hset]
      exact ⟨rfl, hpend, hrun⟩

end Sys2Proof.Machine
end


section
/-! The twin link (15): what the messages to the twin and the completions that are posted leave of the twin's own state, lanes,
heartbeats and their loss. O59 rests on them. -/

namespace Sys2Proof.Machine

/-! ## The twin while completions are posted -/

/-- From `b` to `w` completions are posted: of the twin's state only completions of the leader's that wait go. -/
structure State.Posts (b w : State) : Prop where
  tw : w.tw = { b.tw with cpls := w.tw.cpls }
  cpls : w.tw.cpls ⊆ b.tw.cpls

theorem State.Posts.of_tw {b w : State} (h : w.tw = b.tw) : b.Posts w := ⟨by rw [h], by rw [h]; exact List.Subset.refl _⟩

theorem State.Posts.refl (b : State) : b.Posts b := .of_tw rfl

theorem State.Posts.trans {a b c : State} (h : a.Posts b) (g : b.Posts c) : a.Posts c :=
  ⟨by rw [g.tw, h.tw], List.Subset.trans g.cpls h.cpls⟩

theorem State.Posts.ite {b v w : State} {c : Prop} [Decidable c] (h : b.Posts v) (g : b.Posts w) : b.Posts (if c then v else w) := by
  split
  · exact h
  · exact g

theorem State.keepDefine_posts (s : State) (e : Entry) : s.Posts (s.keepDefine e) := by
  unfold State.keepDefine
  split
  · split
    · exact .ite (.of_tw rfl) (.refl s)
    · exact .of_tw rfl
  · exact .refl s

theorem State.postCpl_posts (s : State) (e : Entry) (rec_ : List Byte) : s.Posts (s.postCpl e rec_) := by
  have hring : s.Posts (if (s.ringOf (8 + e.ring)).on then (s.putEntry (8 + e.ring) rec_).putIndex (8 + e.ring) e.irq else s) :=
    .ite (.of_tw ((State.putIndex_tw _ _ _).trans (s.putEntry_tw _ _))) (.refl s)
  unfold State.postCpl
  extract_lets v
  change s.Posts v at hring
  clear_value v
  refine hring.trans (.ite (.of_tw (State.sendTwin_tw ..)) ⟨rfl, fun _ hc => (List.mem_filter.mp hc).1⟩)

theorem postLoop_posts (s : State) (blocked : List Nat) (kept l : List Entry) : s.Posts (postLoop s blocked kept l) := by
  induction l generalizing s blocked kept with
  | nil => exact .of_tw rfl
  | cons e r ih =>
    unfold postLoop
    split
    · exact ih ..
    · split
      · exact ((s.postCpl_posts e _).trans (State.keepDefine_posts _ e)).trans (ih ..)
      · exact ih ..

theorem State.cplDisables_posts (s : State) : s.Posts s.cplDisables :=
  List.foldlRecOn (motive := fun w : State => s.Posts w) _ _ (.refl s) fun v h _ _ => h.trans (.ite (.of_tw rfl) (.refl v))

theorem State.postReady_posts (s : State) : s.Posts s.postReady := (postLoop_posts s [] [] s.host.acc).trans (State.cplDisables_posts _)

/-! ## Segments of the twin -/

/-- From `s` to `w` the twin's view of its segments changes and nothing else of the machine. -/
def State.SegsOnly (s w : State) : Prop := ∃ m, w = { s with tw := { s.tw with segs := m } }

theorem State.SegsOnly.refl (s : State) : s.SegsOnly s := ⟨s.tw.segs, rfl⟩

theorem State.SegsOnly.trans {a b c : State} (h : a.SegsOnly b) (g : b.SegsOnly c) : a.SegsOnly c := by
  obtain ⟨m, rfl⟩ := h
  obtain ⟨m', rfl⟩ := g
  exact ⟨m', rfl⟩

theorem State.SegsOnly.ite {b v w : State} {c : Prop} [Decidable c] (h : b.SegsOnly v) (g : b.SegsOnly w) :
    b.SegsOnly (if c then v else w) := by
  split
  · exact h
  · exact g

theorem State.SegsOnly.foldl {α : Type} {f : State → α → State} (step : ∀ (s : State) x, s.SegsOnly (f s x)) (l : List α) (b : State) :
    b.SegsOnly (l.foldl f b) :=
  List.foldlRecOn (motive := fun w : State => b.SegsOnly w) l f (.refl b) fun s h x _ => h.trans (step s x)

theorem State.SegsOnly.eq {s w : State} (h : s.SegsOnly w) : w = { s with tw := { s.tw with segs := w.tw.segs } } := by
  obtain ⟨m, rfl⟩ := h
  rfl

theorem State.SegsOnly.segRuns {s w : State} (h : s.SegsOnly w) (k : Nat) : w.segRuns k = s.segRuns k := by
  obtain ⟨m, rfl⟩ := h
  rfl

theorem State.modTwSeg_segsOnly (s : State) (k : Nat) (f : TwinSeg → TwinSeg) : s.SegsOnly (s.modTwSeg k f) := ⟨_, rfl⟩

theorem State.startResync_segsOnly (s : State) (k : Nat) : s.SegsOnly (s.startResync k) := ⟨_, rfl⟩

theorem State.notReady_segsOnly (s : State) (l : List Nat) : s.SegsOnly (s.notReady l) := .foldl (fun s k => s.modTwSeg_segsOnly k _) l s

theorem State.startResync_twSeg (s : State) (k : Nat) : ((s.startResync k).twSeg k).st = .resync ∧
    ((s.startResync k).twSeg k).resyncs = ((s.twSeg k).resyncs + 1) % 2 ^ 16 := by
  rw [State.startResync, State.modTwSeg_twSeg_same]
  exact ⟨rfl, rfl⟩

theorem State.startResync_twSeg_ne (s : State) {k q : Nat} (hq : q ≠ k) : (s.startResync k).twSeg q = s.twSeg q :=
  State.modTwSeg_twSeg_ne _ _ _ hq

theorem State.notReady_twSeg (s : State) (l : List Nat) (k : Nat) (hk : k ∈ l ∨ (s.twSeg k).st = .notReady) :
    ((s.notReady l).twSeg k).st = .notReady := by
  induction l generalizing s with
  | nil => exact hk.resolve_left List.not_mem_nil
  | cons j l ih =>
    refine ih (s.modTwSeg j fun g => { g with st := .notReady }) ?_
    by_cases hj : k = j
    · rw [hj, State.modTwSeg_twSeg_same]
      exact .inr rfl
    · rw [State.modTwSeg_twSeg_ne _ _ _ hj]
      exact hk.imp_left fun h => (List.mem_cons.mp h).resolve_left hj

/-! ## A leader's view of its follower's segments (15 R589, Table 15.3) -/

/-- The view `g'` of a segment follows the state `st` that the follower tells of it, from the view `g`. -/
structure TwinSeg.Mirrors (g : TwinSeg) (st : Nat) (g' : TwinSeg) : Prop where
  notReady : st = 3 → g'.st = .notReady
  resync : st = 2 → g'.st = .resync ∧ (g.st ≠ .resync → g'.resyncs = (g.resyncs + 1) % 2 ^ 16)
  ready : st = 1 → g.st ≠ .resync → g'.st = .ready
  notPaired : st = 0 → g.st ≠ .resync → g'.st = .notPaired

section
variable (s : State) (k st : Nat)

theorem State.mirrorSeg_segsOnly : s.SegsOnly (s.mirrorSeg k st) :=
  .ite (.ite (.refl s) (s.startResync_segsOnly k)) (.ite (.ite (.refl s) (s.modTwSeg_segsOnly k _))
    (.ite (s.modTwSeg_segsOnly k _) (.ite (.refl s) (s.modTwSeg_segsOnly k _))))

theorem State.mirrorSeg_twSeg_ne {q : Nat} (hq : q ≠ k) : (s.mirrorSeg k st).twSeg q = s.twSeg q := by
  have hmod : ∀ f, (s.modTwSeg k f).twSeg q = s.twSeg q := fun f => State.modTwSeg_twSeg_ne _ _ _ hq
  unfold State.mirrorSeg
  dsimp only
  split
  · split
    · rfl
    · exact s.startResync_twSeg_ne hq
  · split
    · split
      · rfl
      · exact hmod _
    · split
      · exact hmod _
      · split
        · rfl
        · exact hmod _

theorem State.mirrorSeg_mirrors : (s.twSeg k).Mirrors st ((s.mirrorSeg k st).twSeg k) := by
  by_cases hold : (s.twSeg k).st = .resync
  · refine ⟨fun h => ?_, fun h => ?_, fun _ hne => absurd hold hne, fun _ hne => absurd hold hne⟩
    · subst h
      have hmirror : s.mirrorSeg k 3 = s.modTwSeg k fun g => { g with st := .notReady, units := [], batch := [] } := rfl
      rw [hmirror, State.modTwSeg_twSeg_same]
    · subst h
      have hmirror : s.mirrorSeg k 2 = s := if_pos hold
      rw [hmirror]
      exact ⟨hold, fun hne => absurd hold hne⟩
  · refine ⟨fun h => ?_, fun h => ?_, fun h _ => ?_, fun h _ => ?_⟩
    · subst h
      have hmirror : s.mirrorSeg k 3 = s.modTwSeg k fun g => { g with st := .notReady, units := [], batch := [] } := rfl
      rw [hmirror, State.modTwSeg_twSeg_same]
    · subst h
      have hmirror : s.mirrorSeg k 2 = s.startResync k := if_neg hold
      rw [hmirror]
      exact ⟨(s.startResync_twSeg k).1, fun _ => (s.startResync_twSeg k).2⟩
    · subst h
      have hmirror : s.mirrorSeg k 1 = s.modTwSeg k fun g => { g with st := .ready } := if_neg fun h => hold h.1
      rw [hmirror, State.modTwSeg_twSeg_same]
    · subst h
      have hmirror : s.mirrorSeg k 0 = s.modTwSeg k fun g => { g with st := .notPaired } := if_neg hold
      rw [hmirror, State.modTwSeg_twSeg_same]

end

/-- A leader's view of the running ones of some segments. -/
def State.mirrorSegs (s : State) (states : List Nat) (l : List Nat) : State :=
  l.foldl (fun s k => if s.segRuns k then s.mirrorSeg k (states.getD k 0) else s) s

theorem State.mirrorSegs_segsOnly (s : State) (states l : List Nat) : s.SegsOnly (s.mirrorSegs states l) :=
  .foldl (fun s k => .ite (s.mirrorSeg_segsOnly k _) (.refl s)) l s

theorem State.mirrorSegs_twSeg (s : State) (states : List Nat) {l : List Nat} (hl : l.Nodup) (k : Nat) :
    (k ∉ l → (s.mirrorSegs states l).twSeg k = s.twSeg k) ∧
    (k ∈ l → s.segRuns k = true → (s.twSeg k).Mirrors (states.getD k 0) ((s.mirrorSegs states l).twSeg k)) := by
  induction l generalizing s with
  | nil => exact ⟨fun _ => rfl, fun h => absurd h List.not_mem_nil⟩
  | cons j l ih =>
    obtain ⟨hj, hl⟩ := List.nodup_cons.mp hl
    obtain ⟨hout, hin⟩ := ih (if s.segRuns j then s.mirrorSeg j (states.getD j 0) else s) hl
    have hruns : (if s.segRuns j then s.mirrorSeg j (states.getD j 0) else s).segRuns k = s.segRuns k :=
      (State.SegsOnly.ite (s.mirrorSeg_segsOnly j _) (.refl s)).segRuns k
    have hother : k ≠ j → (if s.segRuns j then s.mirrorSeg j (states.getD j 0) else s).twSeg k = s.twSeg k := fun hne => by
      split
      · exact s.mirrorSeg_twSeg_ne j _ hne
      · rfl
    refine ⟨fun hk => ?_, fun hk hrun => ?_⟩
    · obtain ⟨hne, hk⟩ := not_or.mp fun h => hk (List.mem_cons.mpr h)
      exact (hout hk).trans (hother hne)
    · by_cases hkj : k = j
      · subst hkj
        show (s.twSeg k).Mirrors _ (State.twSeg (State.mirrorSegs _ states l) k)
        rw [hout hj, if_pos hrun]
        exact s.mirrorSeg_mirrors k _
      · have hmirrors := hin ((List.mem_cons.mp hk).resolve_left hkj) (hruns.trans hrun)
        rw [hother hkj] at hmirrors
        exact hmirrors

/-! ## DELTA values of the follower's place (15 R584) -/

section
variable (s : State) (k j : Nat) (d : Int)

theorem State.raiseOnce_tw (src kind addr : Nat) (detail : List Byte) : (s.raiseOnce src kind addr detail).tw = s.tw := by
  unfold State.raiseOnce
  split <;> rfl

theorem State.publish_tw : (s.publish k j).tw = s.tw := by
  unfold State.publish
  dsimp only
  split
  · rfl
  · split
    · rfl
    · exact s.raiseOnce_tw _ _ _ _

theorem State.publish_onSeg : OnSeg k s (s.publish k j) := by
  unfold State.publish
  dsimp only
  split
  · exact s.modNode_onSeg k j _
  · split
    · exact .refl k s
    · exact fun q _ => s.raiseOnce_seg _ _ _ _ q

theorem State.publish_deltas : ((s.publish k j).node k j).deltas = (s.node k j).deltas := by
  unfold State.publish
  dsimp only
  split
  · rw [State.modNode_node_same]
  · split
    · rfl
    · rw [State.node, State.raiseOnce_seg]
      rfl

theorem State.takeDelta_tw : (s.takeDelta k j d).tw = s.tw := by
  unfold State.takeDelta
  split
  · rfl
  · dsimp only
    split
    · exact State.publish_tw _ k j
    · rfl

theorem State.takeDelta_onSeg : OnSeg k s (s.takeDelta k j d) := by
  unfold State.takeDelta
  split
  · exact .refl k s
  · dsimp only
    split
    · exact (s.modNode_onSeg k j _).trans (State.publish_onSeg _ k j)
    · exact s.modNode_onSeg k j _

theorem State.takeDelta_deltas (hd : d ≠ -0x8000) (hring : (s.seg k).ringOpen = false) :
    ((s.takeDelta k j d).node k j).deltas = (d :: (s.node k j).deltas).take 8 := by
  unfold State.takeDelta
  rw [if_neg (by rw [hring]; simp [hd])]
  dsimp only
  split
  · rw [State.publish_deltas, State.modNode_node_same]
  · rw [State.modNode_node_same]

end

/-- DELTA values of the twin's place on some segments. -/
def State.takeDeltas (s : State) (deltas : List Int) (l : List Nat) : State :=
  l.foldl (fun s k => s.takeDelta k 62 (deltas.getD k (-0x8000))) s

theorem State.takeDeltas_tw (s : State) (deltas : List Int) (l : List Nat) : (s.takeDeltas deltas l).tw = s.tw :=
  List.foldlRecOn (motive := fun w : State => w.tw = s.tw) l _ rfl fun v h k _ => (v.takeDelta_tw k 62 _).trans h

theorem State.takeDeltas_seg (s : State) (deltas : List Int) {l : List Nat} (hl : l.Nodup) (k : Nat) :
    (k ∉ l → (s.takeDeltas deltas l).seg k = s.seg k) ∧
    (k ∈ l → deltas.getD k (-0x8000) ≠ -0x8000 → (s.seg k).ringOpen = false →
      ((s.takeDeltas deltas l).node k 62).deltas = (deltas.getD k (-0x8000) :: (s.node k 62).deltas).take 8) := by
  induction l generalizing s with
  | nil => exact ⟨fun _ => rfl, fun h => absurd h List.not_mem_nil⟩
  | cons j l ih =>
    obtain ⟨hj, hl⟩ := List.nodup_cons.mp hl
    obtain ⟨hout, hin⟩ := ih (s.takeDelta j 62 (deltas.getD j (-0x8000))) hl
    have hother : k ≠ j → (s.takeDelta j 62 (deltas.getD j (-0x8000))).seg k = s.seg k := s.takeDelta_onSeg j 62 _ k
    refine ⟨fun hk => ?_, fun hk hd hring => ?_⟩
    · obtain ⟨hne, hk⟩ := not_or.mp fun h => hk (List.mem_cons.mpr h)
      exact (hout hk).trans (hother hne)
    · by_cases hkj : k = j
      · subst hkj
        show (State.node (State.takeDeltas _ deltas l) k 62).deltas = _
        rw [State.node, hout hj]
        exact s.takeDelta_deltas k 62 _ hd hring
      · have hdeltas := hin ((List.mem_cons.mp hk).resolve_left hkj) hd (by rw [hother hkj]; exact hring)
        rw [State.node, State.node, hother hkj] at hdeltas
        exact hdeltas

end Sys2Proof.Machine
end


section
/-! The twin link (15): heartbeats, their loss, pairing, changeover and split brain, and O59. -/

namespace Sys2Proof.Machine

/-! ## Heartbeats (15 R589, Table 15.3) -/

section
variable (s : State) (pair : Nat) (states : List Nat) (deltas : List Int)

/-- The state of the pair that a leader takes from its follower. -/
def State.pairTold : Pair := if s.tw.pair = .unpaired then .unpaired else s.leaderPair pair

/-- The leader with the state of the pair that it was told, and its view of the segments. -/
def State.viewTold : State :=
  let v : State := { s with tw := { s.tw with pair := s.pairTold pair } }
  if s.pairTold pair = .unpaired then v else v.mirrorSegs states (List.range 8)

theorem State.hbOfFollower_eq : s.hbOfFollower pair states deltas =
    (s.viewTold pair states).takeDeltas deltas (s.viewTold pair states).running := rfl

theorem State.viewTold_segsOnly : State.SegsOnly { s with tw := { s.tw with pair := s.pairTold pair } } (s.viewTold pair states) :=
  .ite (.refl _) (State.mirrorSegs_segsOnly _ _ _)

theorem State.viewTold_running : (s.viewTold pair states).running = s.running :=
  List.filter_congr fun k _ => (s.viewTold_segsOnly pair states).segRuns k

theorem State.viewTold_tw : (s.viewTold pair states).tw =
    { s.tw with pair := s.pairTold pair, segs := (s.viewTold pair states).tw.segs } := by
  obtain ⟨m, hm⟩ := s.viewTold_segsOnly pair states
  rw [hm]

theorem State.hbOfFollower_tw : (s.hbOfFollower pair states deltas).tw =
    { s.tw with pair := s.pairTold pair, segs := (s.hbOfFollower pair states deltas).tw.segs } := by
  rw [State.hbOfFollower_eq, State.takeDeltas_tw]
  exact s.viewTold_tw pair states

theorem State.hbOfFollower_twSeg (k : Nat) : (s.hbOfFollower pair states deltas).twSeg k = (s.viewTold pair states).twSeg k := by
  rw [State.twSeg, State.hbOfFollower_eq, State.takeDeltas_tw]
  rfl

theorem State.running_nodup : s.running.Nodup := List.nodup_range.filter _

theorem State.mem_running {k : Nat} : k ∈ s.running ↔ k < 8 ∧ s.segRuns k = true := by
  rw [State.running, List.mem_filter, List.mem_range]

end

section
variable {s : State} {pair : Nat} {states : List Nat} {deltas : List Int}

theorem State.hbOfFollower_segs_of_unpaired (h : s.pairTold pair = .unpaired) :
    (s.hbOfFollower pair states deltas).tw.segs = s.tw.segs := by
  rw [State.hbOfFollower_eq, State.takeDeltas_tw, State.viewTold, if_pos h]

/-- A leader that pairs sees each running segment as its follower tells it. -/
theorem State.hbOfFollower_mirrors (h : s.pairTold pair ≠ .unpaired) {k : Nat} (hk : k ∈ s.running) :
    (s.twSeg k).Mirrors (states.getD k 0) ((s.hbOfFollower pair states deltas).twSeg k) := by
  obtain ⟨hlt, hruns⟩ := s.mem_running.mp hk
  rw [State.hbOfFollower_twSeg, State.viewTold, if_neg h]
  exact (State.mirrorSegs_twSeg { s with tw := { s.tw with pair := s.pairTold pair } } states List.nodup_range k).2
    (List.mem_range.mpr hlt) hruns

theorem State.hbOfFollower_deltas {k : Nat} (hk : k ∈ s.running) (hd : deltas.getD k (-0x8000) ≠ -0x8000)
    (hring : (s.seg k).ringOpen = false) : ((s.hbOfFollower pair states deltas).node k 62).deltas =
      (deltas.getD k (-0x8000) :: (s.node k 62).deltas).take 8 := by
  have hseg : (s.viewTold pair states).seg k = s.seg k := by
    obtain ⟨m, hm⟩ := s.viewTold_segsOnly pair states
    rw [hm]
    rfl
  rw [State.hbOfFollower_eq]
  have htaken := ((s.viewTold pair states).takeDeltas_seg deltas (s.viewTold pair states).running_nodup k).2
    (by rw [State.viewTold_running]; exact hk) hd (by rw [hseg]; exact hring)
  rw [htaken, State.node, hseg]
  rfl

end

/-- A heartbeat is recorded, and the loss of the link is over. -/
def State.hbHeard (s : State) (mode role rank pair : Nat) (states : List Nat) (deltas : List Int) : State :=
  { s with tw := { s.tw with hbAt := some s.now, linkLost := false, peerMode := mode, peerRole := role, peerRank := rank,
                             peerPair := pair, peerSegs := states, peerDeltas := deltas } }.liveOff srcTwin 0x61

/-- What a heartbeat makes of the device. -/
def State.hbTaken (s : State) (mode role rank pair : Nat) (states : List Nat) (deltas : List Int) : State :=
  let v := s.hbHeard mode role rank pair states deltas
  if s.tw.role = .leader ∧ role = 2 then v.hbOfFollower pair states deltas
  else if s.tw.role = .follower ∧ role = 1 then v.hbOfLeader mode
  else v

/-- The twin's state `y` holds a heartbeat of these words, taken at `now`. -/
structure Twin.Told (y : Twin) (now mode role rank pair : Nat) (states : List Nat) (deltas : List Int) : Prop where
  hbAt : y.hbAt = some now
  linkLost : y.linkLost = false
  peerMode : y.peerMode = mode
  peerRole : y.peerRole = role
  peerRank : y.peerRank = rank
  peerPair : y.peerPair = pair
  peerSegs : y.peerSegs = states
  peerDeltas : y.peerDeltas = deltas

section
variable (s : State) (mode role rank pair : Nat) (states : List Nat) (deltas : List Int)

theorem State.hbTaken_told : (s.hbTaken mode role rank pair states deltas).tw.Told s.now mode role rank pair states deltas ∧
    (s.hbTaken mode role rank pair states deltas).tw.role = s.tw.role := by
  unfold State.hbTaken
  dsimp only
  split
  · rw [State.hbOfFollower_tw]
    exact ⟨⟨rfl, rfl, rfl, rfl, rfl, rfl, rfl, rfl⟩, rfl⟩
  · split
    · have htw : ((s.hbHeard mode role rank pair states deltas).hbOfLeader mode).tw =
          { (s.hbHeard mode role rank pair states deltas).tw with heardNow := true, silent := 0 } := by
        unfold State.hbOfLeader
        dsimp only
        split <;> rfl
      rw [htw]
      exact ⟨⟨rfl, rfl, rfl, rfl, rfl, rfl, rfl, rfl⟩, rfl⟩
    · exact ⟨⟨rfl, rfl, rfl, rfl, rfl, rfl, rfl, rfl⟩, rfl⟩

/-- A follower hears its leader. -/
theorem State.hbTaken_follower (hfollows : s.tw.role = .follower) (hrole : role = 1) :
    let w := s.hbTaken mode role rank pair states deltas
    w.tw.heardNow = true ∧ w.tw.silent = 0 ∧ w.tw.pair = s.tw.pair ∧ (mode = 4 ∨ mode = 5 → w.pw.degradedFrom = DevMode.ofCode mode) := by
  intro w
  have hw : w = (s.hbHeard mode role rank pair states deltas).hbOfLeader mode :=
    (if_neg (by rw [hfollows]; simp)).trans (if_pos ⟨hfollows, hrole⟩)
  rw [hw, State.hbOfLeader]
  dsimp only
  split
  · exact ⟨rfl, rfl, rfl, fun _ => rfl⟩
  · next h => exact ⟨rfl, rfl, rfl, fun h' => absurd h' h⟩

theorem State.hbTaken_leader (hleads : s.tw.role = .leader) (hrole : role = 2) : s.hbTaken mode role rank pair states deltas =
    (s.hbHeard mode role rank pair states deltas).hbOfFollower pair states deltas := if_pos ⟨hleads, hrole⟩

end

/-! ## Loss of the link (15 R589) -/

/-- The link is lost, with its mark. -/
def State.hbLost (s : State) : State := ({ s with tw := { s.tw with linkLost := true } }.liveOn srcTwin 0x61).raise srcTwin 0x61 0 []

/-- The device with the link lost, before its pairing ends. -/
def State.linkDark (s : State) : State :=
  if s.hbLost.tw.role = .follower ∧ ¬ s.hbLost.changeDue then s.hbLost.notReady s.hbLost.running else s.hbLost

/-- What the loss of the link leaves. -/
def State.linkLostOf (s : State) : State := s.linkDark.unpair.postReady

section
variable (s : State)

theorem State.hbLost_tw : s.hbLost.tw = { s.tw with linkLost := true } := rfl

theorem State.hbLost_running : s.hbLost.running = s.running := rfl

theorem State.hbLost_changeDue : s.hbLost.changeDue = s.changeDue := rfl

theorem State.linkDark_segsOnly : s.hbLost.SegsOnly s.linkDark := by
  unfold State.linkDark
  exact .ite (State.notReady_segsOnly _ _) (.refl _)

theorem State.unpair_posted_tw : s.unpair.postReady.tw.linkLost = s.tw.linkLost ∧
    s.unpair.postReady.tw.pair = (if s.tw.pair = .unsynced then .unsynced else .unpaired) ∧
    s.unpair.postReady.tw.role = s.tw.role ∧ s.unpair.postReady.tw.segs = s.tw.segs := by
  rw [s.unpair.postReady_posts.tw]
  exact ⟨rfl, rfl, rfl, rfl⟩

theorem State.linkLostOf_tw : s.linkLostOf.tw.linkLost = true ∧
    s.linkLostOf.tw.pair = (if s.tw.pair = .unsynced then .unsynced else .unpaired) ∧ s.linkLostOf.tw.role = s.tw.role ∧
    s.linkLostOf.tw.segs = s.linkDark.tw.segs := by
  obtain ⟨hlost, hpair, hrole, hsegs⟩ := s.linkDark.unpair_posted_tw
  have hdark : s.linkDark.tw = { s.tw with linkLost := true, segs := s.linkDark.tw.segs } := by
    obtain ⟨m, hm⟩ := s.linkDark_segsOnly
    rw [hm]
    rfl
  rw [hdark] at hlost hpair hrole
  rw [State.linkLostOf, hlost, hpair, hrole, hsegs]
  exact ⟨rfl, rfl, rfl, rfl⟩

/-- Unless it changes over, a follower whose leader is silent is ready on no segment that runs. -/
theorem State.linkLostOf_notReady (hrole : s.tw.role = .follower) (hdue : s.changeDue = false) {k : Nat} (hk : k ∈ s.running) :
    (s.linkLostOf.twSeg k).st = .notReady := by
  have hdark : s.linkDark = s.hbLost.notReady s.hbLost.running :=
    if_pos ⟨hrole, by rw [State.hbLost_changeDue, hdue]; decide⟩
  obtain ⟨-, -, -, hsegs⟩ := s.linkLostOf_tw
  rw [State.twSeg, hsegs, hdark]
  exact s.hbLost.notReady_twSeg _ k (.inl hk)

theorem State.linkLostOf_mark : ∃ m ∈ s.linkLostOf.asy.held.drop s.asy.held.length, m.src = srcTwin ∧ m.kind = 0x61 := by
  have hdark : Writes s.hbLost s.linkDark := by
    unfold State.linkDark
    exact .ite (State.notReady_writes _ _) (.refl _)
  have hunpair : Writes s.linkDark s.linkDark.unpair := ⟨rfl, rfl, rfl, rfl, fun _ h => h⟩
  have hlive : Grows s ({ s with tw := { s.tw with linkLost := true } }.liveOn srcTwin 0x61) :=
    .trans (b := { s with tw := { s.tw with linkLost := true } }) (.of_asy rfl) (State.liveOn_records _ _ _).toGrows
  exact hlive.raise_new ((hdark.trans hunpair).trans (State.postReady_writes _)).records.toGrows

end

/-! ## Pairing (15 R590) -/

/-- From `b` to `w` the pair, the start of its pairing and the role stay. -/
def State.PairKept (b w : State) : Prop := w.tw.pair = b.tw.pair ∧ w.tw.pairAt = b.tw.pairAt ∧ w.tw.role = b.tw.role

theorem State.PairKept.refl (b : State) : b.PairKept b := ⟨rfl, rfl, rfl⟩

theorem State.PairKept.of_tw {b w : State} (h : w.tw = b.tw) : b.PairKept w := by rw [State.PairKept, h]; exact ⟨rfl, rfl, rfl⟩

theorem State.PairKept.trans {a b c : State} (h : a.PairKept b) (g : b.PairKept c) : a.PairKept c :=
  ⟨g.1.trans h.1, g.2.1.trans h.2.1, g.2.2.trans h.2.2⟩

theorem State.PairKept.foldl {α : Type} {f : State → α → State} (step : ∀ (s : State) x, s.PairKept (f s x)) (l : List α) (b : State) :
    b.PairKept (l.foldl f b) :=
  List.foldlRecOn (motive := fun w : State => b.PairKept w) l f (.refl b) fun s h x _ => h.trans (step s x)

theorem State.SegsOnly.pairKept {b w : State} (h : b.SegsOnly w) : b.PairKept w := by
  obtain ⟨m, rfl⟩ := h
  exact ⟨rfl, rfl, rfl⟩

section
variable (s : State)

theorem State.tellTwin_tw (o : TwinOut) : (s.tellTwin o).tw = s.tw := by
  unfold State.tellTwin
  split
  · exact s.sendTwin_tw _ _ _ _ _
  · rfl

theorem State.sendBlk_tw (x : TwinBlk) : (s.sendBlk x).tw = { s.tw with sent := s.tw.sent ++ [x] } := by
  unfold State.sendBlk
  dsimp only
  rw [State.sendTwin_tw]

theorem State.sendBlk_pairKept (x : TwinBlk) : s.PairKept (s.sendBlk x) := by
  rw [State.PairKept, State.sendBlk_tw]
  exact ⟨rfl, rfl, rfl⟩

theorem State.sendBytes_pairKept (seg unit n m : Nat) (bs : List Byte) : s.PairKept (s.sendBytes seg unit n m bs) :=
  .foldl (fun s _ => s.sendBlk_pairKept _) _ s

theorem State.sendTag_tw (e : Entry) (status n m : Nat) : (s.sendTag e status n m).tw = s.tw := by
  unfold State.sendTag
  split
  · exact State.sendTwin_tw _ _ _ _ _ _
  · rfl

theorem State.tagNew_tw (e : Entry) : (s.tagNew e).tw = s.tw := by
  unfold State.tagNew
  split
  · exact s.sendTag_tw _ _ _ _
  · rfl

/-- The leader's device as pairing begins. -/
def State.pairOpened : State := { s with tw := { s.tw with pair := .pairing, pairAt := s.now, sent := [] } }

theorem State.pairLead_kept : s.pairOpened.PairKept s.pairLead := by
  have htold : s.pairOpened.PairKept (s.pairOpened.tellTwin (.configCrc s.pairOpened.pairCrc)) := .of_tw (State.tellTwin_tw _ _)
  unfold State.pairLead
  extract_lets twin opened v2 v3 v4 v5
  have h2 : s.pairOpened.PairKept v2 := htold
  have h3 : v2.PairKept v3 := .foldl (fun s _ => s.sendBytes_pairKept _ _ _ _ _) _ _
  have h4 : v3.PairKept v4 := .foldl (fun s _ => .of_tw (s.tellTwin_tw _)) _ _
  have h5 : v4.PairKept v5 := by
    refine .foldl (fun s e => ?_) _ _
    split
    · exact .refl s
    · split
      · exact .of_tw (s.sendTag_tw _ _ _ _)
      · exact .of_tw (s.tagNew_tw e)
  have hsent := (h2.trans h3).trans (h4.trans h5)
  split
  · exact hsent.trans (State.startResync_segsOnly _ _).pairKept
  · exact hsent

theorem SMap.mem_of_lookup {α : Type} {m : SMap α} {k : Nat} {v : α} (h : m.lookup k = some v) : (k, v) ∈ m := by
  obtain ⟨l, r, rfl, -⟩ := List.lookup_eq_some_iff.mp h
  exact List.mem_append_right _ List.mem_cons_self

/-- The follower's device as pairing begins: no segment is paired. -/
def State.pairCleared : State :=
  let segs : SMap TwinSeg := s.tw.segs.map fun e => (e.1, { e.2 with st := .notPaired, covered := false })
  { s with tw := { s.tw with pair := .pairing, pairAt := s.now, tags := [], cpls := [], lastTag := [], cams := [],
                             mtStepped := false, segs := segs.filter fun e => decide (e.2 ≠ ({} : TwinSeg)) } }

theorem State.pairCleared_twSeg (k : Nat) : (s.pairCleared.twSeg k).st = .notPaired := by
  have hall : ∀ m : SMap TwinSeg, (∀ e ∈ m, e.2.st = .notPaired) → (SMap.get {} m k).st = .notPaired := fun m hm => by
    unfold SMap.get
    split
    · next v hv => exact hm (k, v) (SMap.mem_of_lookup hv)
    · rfl
  refine hall _ fun e he => ?_
  obtain ⟨x, -, rfl⟩ := List.mem_map.mp (List.mem_filter.mp he).1
  rfl

/-- With a segment that runs the follower waits for that one's resynchronisation. -/
theorem State.pairFollow_resyncs (hrole : s.tw.role = .follower) (hruns : s.running ≠ []) :
    s.pairCleared.SegsOnly s.pairFollow := by
  show s.pairCleared.SegsOnly s.pairCleared.pairNext
  obtain ⟨k, hk⟩ : ∃ k, s.pairCleared.running.find? (fun k => decide ((s.pairCleared.twSeg k).st = .resync) ||
      decide ((s.pairCleared.twSeg k).st = .notPaired)) = some k := by
    obtain ⟨k, l, hl⟩ := List.exists_cons_of_ne_nil hruns
    have hrunning : s.pairCleared.running = k :: l := hl
    refine Option.isSome_iff_exists.mp (List.find?_isSome.mpr ⟨k, by rw [hrunning]; exact List.mem_cons_self, ?_⟩)
    rw [s.pairCleared_twSeg k]
    decide
  unfold State.pairNext
  rw [if_neg (by intro h; exact h.elim (fun h => h hrole) fun h => h rfl), hk]
  exact .ite (State.startResync_segsOnly _ _) (.refl _)

end

end Sys2Proof.Machine
end


section
/-! O59: the twin's lanes, heartbeats, pairing, changeover and split brain (15 R584, R588 to R590, R609, R610, R613). -/

namespace Sys2Proof.Machine

/-! ## What a changeover changes of the twin and of the mode (15 R609 to R611) -/

/-- From `b` to `w` the twin stays but for its view of the segments, the mode stays, and marks and fences only grow. -/
structure State.Led (b w : State) : Prop where
  tw : w.tw = { b.tw with segs := w.tw.segs }
  pw : w.pw = b.pw
  grows : Grows b w

theorem State.Led.refl (b : State) : b.Led b := ⟨rfl, rfl, .refl b⟩

theorem State.Led.trans {a b c : State} (h : a.Led b) (g : b.Led c) : a.Led c :=
  ⟨by rw [g.tw, h.tw], g.pw.trans h.pw, h.grows.trans g.grows⟩

theorem State.Led.foldl {α : Type} {f : State → α → State} (step : ∀ (s : State) x, s.Led (f s x)) (l : List α) (b : State) :
    b.Led (l.foldl f b) :=
  List.foldlRecOn (motive := fun w : State => b.Led w) l f (.refl b) fun s h x _ => h.trans (step s x)

theorem State.Led.of_tw {b w : State} (htw : w.tw = b.tw) (hpw : w.pw = b.pw) (hgrows : Grows b w) : b.Led w := ⟨by rw [htw], hpw, hgrows⟩

section
variable (s : State) (k src kind : Nat)

theorem State.fence_only (reason : Nat) : ∃ a, s.fence src reason = { s with asy := a } := by
  unfold State.fence
  split
  · exact ⟨s.asy, rfl⟩
  · exact ⟨_, rfl⟩

theorem State.faultSegment_only : ∃ x, s.faultSegment k src kind = { s with axes := x } :=
  List.foldlRecOn (motive := fun w : State => ∃ x, w = { s with axes := x }) _ _ ⟨s.axes, rfl⟩ fun v h a _ => by
    obtain ⟨x, rfl⟩ := h
    exact ⟨_, rfl⟩

end

/-- What of a segment says that its full schedule runs. -/
def Segment.place (g : Segment) : RingSt × Bool × Bool := (g.ring, g.ringOpen, g.viaFollower)

theorem Segment.of_place {g : Segment} {r : RingSt} {o v : Bool} (h : g.place = (r, o, v)) :
    g.ring = r ∧ g.ringOpen = o ∧ g.viaFollower = v := by
  obtain ⟨hr, ho, hv⟩ := Prod.mk.inj h |>.imp_right Prod.mk.inj
  exact ⟨hr, ho, hv⟩

section
variable (s : State) (k : Nat)

theorem State.modSeg_place {f : Segment → Segment} (hf : ∀ g, (f g).place = g.place) (q : Nat) :
    ((s.modSeg k f).seg q).place = (s.seg q).place := by
  by_cases hq : q = k
  · rw [hq, State.modSeg_seg_same, hf]
  · rw [State.modSeg_seg_ne _ _ _ hq]

theorem State.segmentStop_led (src kind : Nat) : s.Led (s.segmentStop k src kind) ∧
    ∀ q, ((s.segmentStop k src kind).seg q).place = (s.seg q).place := by
  have hgrows := (s.segmentStop_reacts k src kind).toGrows
  unfold State.segmentStop
  extract_lets g v
  have hv : v.tw = s.tw ∧ v.pw = s.pw ∧ ∀ q, (v.seg q).place = (s.seg q).place := by
    unfold v
    split
    · obtain ⟨x, hx⟩ := s.faultSegment_only k src kind
      rw [hx]
      exact ⟨rfl, rfl, fun q => rfl⟩
    · exact ⟨rfl, rfl, s.modSeg_place k fun g => rfl⟩
  obtain ⟨a, ha⟩ := v.fence_only (srcSeg k) 13
  refine ⟨.of_tw ?_ ?_ hgrows, ?_⟩
  · rw [ha]
    exact hv.1
  · rw [ha]
    exact hv.2.1
  · rw [ha]
    exact hv.2.2

theorem State.openRing_pw : (s.openRing k).pw = s.pw := by
  unfold State.openRing
  split <;> rfl

theorem State.openRing_place : ((s.openRing k).seg k).place = ((s.seg k).ring, true, (s.seg k).viaFollower) := by
  have hapart := s.openRing_apart k
  rw [Segment.place, s.openRing_ringOpen k, show ((s.openRing k).seg k).ring = (s.seg k).ring from (congrArg Segment.ring hapart :),
    show ((s.openRing k).seg k).viaFollower = (s.seg k).viaFollower from (congrArg Segment.viaFollower hapart :)]

/-- A segment leads: its full schedule runs from this boundary, with the ring open. -/
theorem State.leadSeg_led : s.Led (s.leadSeg k) ∧ (∀ q, q ≠ k → ((s.leadSeg k).seg q).place = (s.seg q).place) ∧
    ((s.leadSeg k).seg k).place = (.running, true, true) := by
  unfold State.leadSeg
  extract_lets ready v1 v2 v3
  have h1 : s.Led v1 := .of_tw rfl rfl (.of_asy rfl)
  have h2 : v1.Led v2 := .of_tw (v1.openRing_tw k) (v1.openRing_pw k) (v1.openRing_records k).toGrows
  have h3 : v2.Led v3 ∧ ∀ q, (v3.seg q).place = (v2.seg q).place := by
    unfold v3
    split
    · exact ⟨.refl v2, fun _ => rfl⟩
    · exact v2.segmentStop_led k srcTwin 0x68
  have h4 : v3.Led (v3.modTwSeg k fun g => { g with st := .notPaired, covered := false, units := [], got := [], arrived := [], kept := [] }) :=
    ⟨rfl, rfl, .of_asy rfl⟩
  refine ⟨((h1.trans h2).trans h3.1).trans h4, fun q hq => ?_, ?_⟩
  · refine (h3.2 q).trans ?_
    rw [v1.openRing_onSeg k q hq, show v1.seg q = s.seg q from State.modSeg_seg_ne _ _ _ hq]
  · refine (h3.2 k).trans ((v1.openRing_place k).trans ?_)
    rw [show v1.seg k = _ from State.modSeg_seg_same _ _ _]

end

theorem State.leadSegs_led (s : State) {l : List Nat} (hl : l.Nodup) : s.Led (l.foldl State.leadSeg s) ∧
    ∀ k, (k ∉ l → ((l.foldl State.leadSeg s).seg k).place = (s.seg k).place) ∧
      (k ∈ l → ((l.foldl State.leadSeg s).seg k).place = (.running, true, true)) := by
  induction l generalizing s with
  | nil => exact ⟨.refl s, fun k => ⟨fun _ => rfl, fun h => absurd h List.not_mem_nil⟩⟩
  | cons j l ih =>
    obtain ⟨hj, hl⟩ := List.nodup_cons.mp hl
    obtain ⟨hled, hothers, hleads⟩ := s.leadSeg_led j
    obtain ⟨hrest, hplaces⟩ := ih (s.leadSeg j) hl
    refine ⟨hled.trans hrest, fun k => ⟨fun hk => ?_, fun hk => ?_⟩⟩
    · obtain ⟨hne, hk⟩ := not_or.mp fun h => hk (List.mem_cons.mpr h)
      exact ((hplaces k).1 hk).trans (hothers k hne)
    · by_cases hkl : k ∈ l
      · exact (hplaces k).2 hkl
      · have hkj : k = j := (List.mem_cons.mp hk).resolve_right hkl
        exact ((hplaces k).1 hkl).trans (by rw [hkj]; exact hleads)

/-! ## Changeover (15 R609 to R611) -/

theorem State.keepCpl_host (s : State) (e : Entry) : ∃ h, s.keepCpl e = { s with host := h } := by
  unfold State.keepCpl
  split
  · split
    · exact ⟨_, rfl⟩
    · exact ⟨s.host, rfl⟩
  · exact ⟨s.host, rfl⟩

theorem State.reaccept_led (s : State) (e : Entry) : s.Led (s.reaccept e) := by
  unfold State.reaccept
  have hmod : ∀ f, s.Led (s.modEntry e.id f) := fun f => .of_tw rfl rfl (.of_asy rfl)
  split
  · exact .refl s
  · dsimp only
    split
    · split
      · exact .of_tw rfl rfl (.of_asy rfl)
      · exact hmod _
    · exact hmod _

theorem State.reaccept_segs (s : State) (e : Entry) : (s.reaccept e).segs = s.segs := by
  unfold State.reaccept
  split
  · rfl
  · dsimp only
    split
    · split <;> rfl
    · rfl

section
variable (b : State)

/-- The follower with the completions of its leader's that have arrived. -/
def State.cplsKept : State := b.host.acc.foldl State.keepCpl b

theorem State.cplsKept_host : ∃ h, b.cplsKept = { b with host := h } :=
  List.foldlRecOn (motive := fun w : State => ∃ h, w = { b with host := h }) _ _ ⟨b.host, rfl⟩ fun v h e _ => by
    obtain ⟨h, rfl⟩ := h
    exact State.keepCpl_host { b with host := h } e

/-- The twin of a device that leads, with no pair left. -/
def Twin.leading (y : Twin) : Twin :=
  { y with role := .leader, pair := .unpaired, handover := none, silent := 0, tags := [], cpls := [], lastTag := [], sent := [] }

/-- The device leads, and no pair is left. -/
def State.roleTaken : State := { b with tw := b.tw.leading }

/-- The device takes the mode of its leader, or SAFE_HOLD. -/
def State.leaderModeTaken (hold : Bool) : State :=
  if hold then { ((b.holdAxes srcTwin 0x68).setMode .safeHold) with
    asy := { ((b.holdAxes srcTwin 0x68).setMode .safeHold).asy with
      persistDue := ((b.holdAxes srcTwin 0x68).setMode .safeHold).asy.persistDue || bit (((b.holdAxes srcTwin 0x68).setMode .safeHold).force 0x100000) 0 } }
  else b.setMode b.leaderMode

theorem State.holdAxes_only (src kind : Nat) : ∃ x, b.holdAxes src kind = { b with axes := x } := by
  have hfaults : ∃ x, (List.range 8).foldl (fun s k => (s.netAxes k).foldl (fun s a => s.modAxis a fun ax =>
      { ax with fault := true, heldOpen := true,
                faultBy := if ax.faultBy.contains (src, kind) then ax.faultBy else ax.faultBy ++ [(src, kind)] }) s) b = { b with axes := x } := by
    refine List.foldlRecOn (motive := fun w : State => ∃ x, w = { b with axes := x }) _ _ ⟨b.axes, rfl⟩ fun v h k _ => ?_
    refine List.foldlRecOn (motive := fun w : State => ∃ x, w = { b with axes := x }) _ _ h fun v h a _ => ?_
    obtain ⟨x, rfl⟩ := h
    exact ⟨_, rfl⟩
  refine List.foldlRecOn (motive := fun w : State => ∃ x, w = { b with axes := x }) _ _ hfaults fun v h a _ => ?_
  obtain ⟨x, rfl⟩ := h
  unfold State.axisStop
  split
  · exact ⟨x, rfl⟩
  · exact ⟨_, rfl⟩

theorem State.leaderModeTaken_spec (hold : Bool) : (b.leaderModeTaken hold).tw = b.tw ∧ (b.leaderModeTaken hold).segs = b.segs ∧
    (b.leaderModeTaken hold).pw.mode = (if hold then .safeHold else b.leaderMode) ∧ Grows b (b.leaderModeTaken hold) := by
  cases hold with
  | true =>
    obtain ⟨x, hx⟩ := b.holdAxes_only srcTwin 0x68
    obtain ⟨p, hp⟩ := (b.holdAxes srcTwin 0x68).setMode_only .safeHold
    have hmode := (b.holdAxes srcTwin 0x68).setMode_mode .safeHold
    rw [State.leaderModeTaken, if_pos rfl]
    rw [hp, hx] at hmode ⊢
    exact ⟨rfl, rfl, hmode, ⟨List.prefix_refl _, fun _ h => h⟩⟩
  | false =>
    obtain ⟨p, hp⟩ := b.setMode_only b.leaderMode
    have hmode := b.setMode_mode b.leaderMode
    rw [State.leaderModeTaken, if_neg (by decide)]
    rw [hp] at hmode ⊢
    exact ⟨rfl, rfl, hmode, .of_asy rfl⟩

/-- The device stays in SAFE_HOLD where the pair was out of step, or its leader was there. -/
def State.mustHold : Bool := decide (b.tw.pair = .unsynced) || decide (b.leaderMode = .safeHold)

/-- The segments that the follower has integrated. -/
def State.integratedSegs : List Nat := (List.range 8).filter fun k => decide ((b.seg k).ring = .integrated)

/-- The device as it leads, before its mark. -/
def State.takenOver : State :=
  b.cplsKept.integratedSegs.foldl State.leadSeg (b.cplsKept.roleTaken.leaderModeTaken b.cplsKept.mustHold)

theorem State.changeOver_eq : b.changeOver =
    ((b.takenOver.raise srcTwin 0x68 0 []).host.acc.foldl State.reaccept (b.takenOver.raise srcTwin 0x68 0 [])).postReady := rfl

theorem State.takenOver_spec : (∃ m, b.takenOver.tw = { b.tw.leading with segs := m }) ∧
    b.takenOver.pw.mode = (if b.tw.pair = .unsynced then .safeHold else b.leaderMode) ∧ Grows b b.takenOver ∧
    ∀ k, k < 8 → (b.seg k).ring = .integrated → (b.takenOver.seg k).place = (.running, true, true) := by
  obtain ⟨h, hkept⟩ := b.cplsKept_host
  obtain ⟨htw, hsegs, hmode, hgrows⟩ := b.cplsKept.roleTaken.leaderModeTaken_spec b.cplsKept.mustHold
  obtain ⟨hled, hplaces⟩ := (b.cplsKept.roleTaken.leaderModeTaken b.cplsKept.mustHold).leadSegs_led (l := b.cplsKept.integratedSegs)
    (List.nodup_range.filter _)
  have hbefore : Grows b b.cplsKept.roleTaken := by
    rw [hkept]
    exact .of_asy rfl
  refine ⟨⟨b.takenOver.tw.segs, ?_⟩, ?_, (hbefore.trans hgrows).trans hled.grows, fun k hk hring => (hplaces k).2 ?_⟩
  · have hleading : (b.cplsKept.roleTaken.leaderModeTaken b.cplsKept.mustHold).tw = b.tw.leading := htw.trans (by rw [hkept]; rfl)
    refine hled.tw.trans ?_
    rw [hleading]
    rfl
  · show b.takenOver.pw.mode = _
    rw [show b.takenOver.pw = _ from hled.pw, hmode, hkept]
    show (if b.mustHold = true then DevMode.safeHold else b.leaderMode) = _
    by_cases hpair : b.tw.pair = .unsynced
    · rw [if_pos hpair, if_pos (by rw [State.mustHold, decide_eq_true hpair]; rfl)]
    · rw [if_neg hpair]
      split
      · next hhold =>
        have hleader : b.leaderMode = .safeHold := by
          rw [State.mustHold, decide_eq_false hpair, Bool.false_or] at hhold
          exact of_decide_eq_true hhold
        exact hleader.symm
      · rfl
  · rw [hkept]
    exact List.mem_filter.mpr ⟨List.mem_range.mpr hk, decide_eq_true hring⟩

/-- The mark of the changeover, and the descriptors that are accepted anew. -/
def State.reaccepted (v : State) : State :=
  (v.raise srcTwin 0x68 0 []).host.acc.foldl State.reaccept (v.raise srcTwin 0x68 0 [])

theorem State.reaccepted_led (v : State) : (v.raise srcTwin 0x68 0 []).Led v.reaccepted ∧ v.reaccepted.segs = v.segs :=
  ⟨.foldl State.reaccept_led _ _, List.foldlRecOn (motive := fun w : State => w.segs = v.segs) _ _ rfl fun w h e _ => (w.reaccept_segs e).trans h⟩

/-- A leader without a pair has no completions of a leader's to post. -/
theorem State.postReady_leading {u : State} {y : Twin} {m : SMap TwinSeg} (hu : u.tw = { y.leading with segs := m }) :
    u.postReady.tw = { y.leading with segs := m } := by
  have hposted := u.postReady_posts
  have hcpls : u.postReady.tw.cpls = [] := List.subset_nil.mp (by
    have hsub := hposted.cpls
    rwa [hu] at hsub)
  rw [hposted.tw, hcpls, hu]
  rfl

theorem State.changeOver_tw : ∃ m, b.changeOver.tw = { b.tw.leading with segs := m } := by
  obtain ⟨⟨m, htw⟩, -⟩ := b.takenOver_spec
  have hled := b.takenOver.reaccepted_led.1.tw
  refine ⟨b.takenOver.reaccepted.tw.segs, State.postReady_leading (hled.trans ?_)⟩
  rw [State.raise, State.addMark_tw, htw]

/-- The follower is leader, with its mark. -/
theorem State.changeOver_spec : (∃ m ∈ b.changeOver.asy.held.drop b.asy.held.length, m.src = srcTwin ∧ m.kind = 0x68) ∧
    b.changeOver.pw.mode = (if b.tw.pair = .unsynced then .safeHold else b.leaderMode) ∧
    ∀ k, k < 8 → (b.seg k).ring = .integrated →
      (b.changeOver.seg k).ring = .running ∧ (b.changeOver.seg k).ringOpen = true ∧ (b.changeOver.seg k).viaFollower = true := by
  obtain ⟨-, hmode, hgrows, hplaces⟩ := b.takenOver_spec
  obtain ⟨hled, hsegs⟩ := b.takenOver.reaccepted_led
  have hover : b.changeOver = b.takenOver.reaccepted.postReady := b.changeOver_eq
  refine ⟨?_, ?_, fun k hk hring => ?_⟩
  · rw [hover]
    exact hgrows.raise_new (hled.grows.trans (State.postReady_writes _).records.toGrows)
  · rw [hover, (State.postReady_Desk _).pw, hled.pw]
    exact hmode
  · rw [hover, (State.postReady_Desk _).seg, State.seg, hsegs]
    exact Segment.of_place (hplaces k hk hring)

end

/-! ## The commands -/

section
variable {s : State} {t : Nat}

theorem execTwinHbReceived_hears {mode role rank pair : Nat} {segs : List Nat} {deltas : List Int} (hup : (s.before t).twinUp = true) :
    exec (.twinHbReceived t mode role rank pair segs deltas) s =
      .next (ends s t ((s.before t).hbTaken mode role rank pair segs deltas)) := by
  show execTwinHbReceived t mode role rank pair segs deltas s = _
  exact does_of_effect (if_neg (by rw [hup]; decide))

theorem execTwinLinkLost_loses (hon : bit ((s.before t).force 0x0F0000) 0 = true) (hheld : (s.before t).tw.linkLost = false)
    (hlate : (s.before t).tw.hbAt.getD (s.before t).tw.enAt + 1500000 ≤ (s.before t).now) :
    exec (.twinLinkLost t) s = .next (ends s t (s.before t).linkLostOf) := by
  show execTwinLinkLost t s = _
  exact does_of_effect (if_neg (by rw [hon, hheld, decide_eq_true hlate]; decide))

theorem execTwinLinkLost_holds (h : bit ((s.before t).force 0x0F0000) 0 = false ∨ (s.before t).tw.linkLost = true ∨
    ¬ (s.before t).tw.hbAt.getD (s.before t).tw.enAt + 1500000 ≤ (s.before t).now) :
    exec (.twinLinkLost t) s = .next (ends s t (s.before t)) := by
  show execTwinLinkLost t s = _
  refine does_of_effect (if_pos ?_)
  obtain hoff | hlost | hsoon := h
  · rw [hoff]
    rfl
  · rw [hlost, Bool.or_true]
    rfl
  · rw [decide_eq_false hsoon, Bool.not_false, Bool.or_true]

end

theorem State.hbHeard_running (b : State) (mode role rank pair : Nat) (segs : List Nat) (deltas : List Int) :
    (b.hbHeard mode role rank pair segs deltas).running = b.running := rfl

/-- A heartbeat as O59 states it. -/
theorem State.hbTaken_leader_spec (b : State) {role : Nat} (hleads : b.tw.role = .leader) (hrole : role = 2) (mode rank pair : Nat)
    (segs : List Nat) (deltas : List Int) : let x := b.tw; let w := b.hbTaken mode role rank pair segs deltas
    (x.pair = .unpaired → w.tw.pair = .unpaired ∧ w.tw.segs = x.segs) ∧
    (x.pair ≠ .unpaired → w.tw.pair = b.leaderPair pair) ∧
    (b.leaderPair pair ≠ .unpaired → x.pair ≠ .unpaired → ∀ k ∈ b.running, (b.twSeg k).Mirrors (segs.getD k 0) (w.twSeg k)) ∧
    (∀ k ∈ b.running, deltas.getD k (-0x8000) ≠ -0x8000 → (b.seg k).ringOpen = false →
      (w.node k 62).deltas = (deltas.getD k (-0x8000) :: (b.node k 62).deltas).take 8) := by
  intro x w
  have hw : w = (b.hbHeard mode role rank pair segs deltas).hbOfFollower pair segs deltas :=
    b.hbTaken_leader mode role rank pair segs deltas hleads hrole
  have hpair : w.tw.pair = (b.hbHeard mode role rank pair segs deltas).pairTold pair := by
    rw [hw, State.hbOfFollower_tw]
  have hunpaired : x.pair = .unpaired → (b.hbHeard mode role rank pair segs deltas).pairTold pair = .unpaired := fun h => if_pos h
  have hpaired : x.pair ≠ .unpaired → (b.hbHeard mode role rank pair segs deltas).pairTold pair = b.leaderPair pair := fun h => if_neg h
  refine ⟨fun h => ⟨hpair.trans (hunpaired h), ?_⟩, fun h => hpair.trans (hpaired h), fun htold h k hk => ?_, fun k hk hd hring => ?_⟩
  · rw [hw, State.hbOfFollower_segs_of_unpaired (hunpaired h)]
    rfl
  · have hmirrors := State.hbOfFollower_mirrors (s := b.hbHeard mode role rank pair segs deltas) (states := segs) (deltas := deltas)
      (by rw [hpaired h]; exact htold) (by rw [State.hbHeard_running]; exact hk)
    rw [hw]
    exact hmirrors
  · have hdeltas := State.hbOfFollower_deltas (s := b.hbHeard mode role rank pair segs deltas) (pair := pair) (states := segs)
      (by rw [State.hbHeard_running]; exact hk) hd hring
    rw [hw]
    exact hdeltas

theorem State.leaderPair_cases (s : State) (pair : Nat) : (pair = 2 ∨ pair = 3 → s.leaderPair pair = .paired) ∧
    (pair = 1 → s.leaderPair pair = .pairing) ∧
    (pair = 0 → s.leaderPair pair = if s.tw.pair = .pairing ∧ s.now < s.tw.pairAt + 1000000 then .pairing else .unpaired) ∧
    (1 ≤ pair → pair ≤ 3 → s.leaderPair pair ≠ .unpaired) := by
  have hpaired : pair = 2 ∨ pair = 3 → s.leaderPair pair = .paired := fun h => if_pos h
  have hpairing : pair = 1 → s.leaderPair pair = .pairing := fun h => by
    subst h
    rfl
  refine ⟨hpaired, hpairing, fun h => ?_, fun hlow hhigh => ?_⟩
  · subst h
    rfl
  · by_cases h : pair = 1
    · rw [hpairing h]
      decide
    · rw [hpaired (by omega)]
      decide

/-! ## Pairing and changeover as effects -/

section
variable (b : State)

/-- Pairing begins at the device that leads, or follows, its peer. -/
def State.pairStart : State :=
  if !b.mayPair then b
  else if b.tw.role = .leader ∧ b.tw.peerRole = 2 ∧ b.ringsIn .running = true then b.pairLead
  else if b.tw.role = .follower ∧ b.tw.peerRole = 1 ∧ b.ringsIn .integrated = true then b.pairFollow
  else b

/-- A changeover that is due. -/
def State.changeOverDue : State := if b.changeDue then b.changeOver else b

/-- The mark of a second leader, and the boundary at which the one of rank 1 steps down. -/
def State.stepsDown : State :=
  if b.tw.rank = 1 then
    { b.raise srcTwin 0x69 0 [] with tw := { b.tw with dual := true, handover := some ((b.cyc + 1) % 2 ^ 40) } }
  else b.raise srcTwin 0x69 0 []

/-- A device that leads beside another. -/
def State.meetsLeader : State :=
  if b.tw.role = .leader ∧ b.tw.peerRole = 1 ∧ b.tw.hbAt.isSome = true ∧ ¬ b.tw.linkLost ∧ ¬ b.running.isEmpty then b.stepsDown else b

theorem exec_pairingStart (s : State) (t : Nat) : exec (.pairingStart t) s = .next (ends s t (s.before t).pairStart) := does_eq s t State.pairStart

theorem exec_changeover (s : State) (t : Nat) : exec (.changeover t) s = .next (ends s t (s.before t).changeOverDue) :=
  does_eq s t State.changeOverDue

theorem exec_twinDualLeader (s : State) (t : Nat) : exec (.twinDualLeader t) s = .next (ends s t (s.before t).meetsLeader) :=
  does_eq s t State.meetsLeader

/-- The device leads its peer, and its own segments run. -/
def State.pairsAsLeader : Prop := b.tw.role = .leader ∧ b.tw.peerRole = 2 ∧ b.ringsIn .running = true

/-- The device follows its peer, and its own segments are integrated. -/
def State.pairsAsFollower : Prop := b.tw.role = .follower ∧ b.tw.peerRole = 1 ∧ b.ringsIn .integrated = true

theorem State.pairStart_idle (h : b.mayPair = false ∨ (¬ b.pairsAsLeader ∧ ¬ b.pairsAsFollower)) : b.pairStart = b := by
  by_cases hmay : b.mayPair = true
  · obtain ⟨hleads, hfollows⟩ := h.resolve_left (by rw [hmay]; decide)
    exact (if_neg (by rw [hmay]; decide)).trans ((if_neg hleads).trans (if_neg hfollows))
  · exact if_pos (by rw [Bool.eq_false_of_not_eq_true hmay]; rfl)

theorem State.pairStart_pairs (hmay : b.mayPair = true) (h : b.pairsAsLeader ∨ b.pairsAsFollower) :
    b.pairStart.tw.pair = .pairing ∧ b.pairStart.tw.pairAt = b.now ∧ b.pairStart.tw.role = b.tw.role ∧
      (b.tw.role = .follower → b.pairStart.tw.tags = [] ∧ b.pairStart.tw.cpls = []) := by
  have hbegins : ¬ (!b.mayPair) = true := by rw [hmay]; decide
  by_cases hleads : b.pairsAsLeader
  · obtain ⟨hpair, hat, hrole⟩ := b.pairLead_kept
    have hstart : b.pairStart = b.pairLead := (if_neg hbegins).trans (if_pos hleads)
    rw [hstart, hpair, hat, hrole]
    exact ⟨rfl, rfl, rfl, fun hfollows => absurd (hleads.1.symm.trans hfollows) (by decide)⟩
  · have hfollows := h.resolve_left hleads
    have hruns : b.running ≠ [] := fun hnil => by
      obtain ⟨-, -, hrings⟩ := hfollows
      rw [State.ringsIn, hnil] at hrings
      exact Bool.false_ne_true hrings
    obtain ⟨m, hm⟩ := b.pairFollow_resyncs hfollows.1 hruns
    have hstart : b.pairStart = b.pairFollow := (if_neg hbegins).trans ((if_neg hleads).trans (if_pos hfollows))
    rw [hstart, hm]
    exact ⟨rfl, rfl, rfl, fun _ => ⟨rfl, rfl⟩⟩

/-- Two leaders hear each other. -/
def State.twoLeaders : Prop :=
  b.tw.role = .leader ∧ b.tw.peerRole = 1 ∧ b.tw.hbAt.isSome = true ∧ b.tw.linkLost = false ∧ b.running ≠ []

theorem State.meetsLeader_two (h : b.twoLeaders) : b.meetsLeader = b.stepsDown := by
  obtain ⟨hleads, hpeer, hheard, hheld, hruns⟩ := h
  exact if_pos ⟨hleads, hpeer, hheard, by rw [hheld]; decide, fun h => hruns (List.isEmpty_iff.mp h)⟩

theorem State.meetsLeader_one (h : ¬ b.twoLeaders) : b.meetsLeader = b := by
  refine if_neg fun hpass => h ?_
  obtain ⟨hleads, hpeer, hheard, hheld, hruns⟩ := hpass
  exact ⟨hleads, hpeer, hheard, Bool.eq_false_of_not_eq_true hheld, fun hnil => hruns (by rw [hnil]; rfl)⟩

theorem State.stepsDown_spec : (∃ m, b.stepsDown.asy.held = b.asy.held ++ [m] ∧ m.src = srcTwin ∧ m.kind = 0x69) ∧
    (b.tw.rank = 1 → b.stepsDown.tw = { b.tw with dual := true, handover := some ((b.cyc + 1) % 2 ^ 40) }) ∧
    (b.tw.rank ≠ 1 → b.stepsDown.tw = b.tw) := by
  have hheld := b.raise_held srcTwin 0x69 0 []
  unfold State.stepsDown
  by_cases hrank : b.tw.rank = 1
  · rw [if_pos hrank]
    exact ⟨hheld, fun _ => rfl, fun h => absurd hrank h⟩
  · rw [if_neg hrank]
    exact ⟨hheld, fun h => absurd h hrank, fun _ => rfl⟩

end

/-- Settles O59: each command of the twin link by what it leaves of the pair. -/
theorem theTwinPairsAndChangesOver : Obligations.TheTwinPairsAndChangesOver := by
  unfold Obligations.TheTwinPairsAndChangesOver
  intro s t b x on late leads follows two
  refine ⟨fun lane hon hup => ?_, fun lane h => ?_, fun lane hon => ?_, fun lane hoff => ?_, ?heard, ?unheard, ?lost,
    execTwinLinkLost_holds, fun h => ?_, fun hmay h => ?_, fun hdue => ?_, fun hdue => ?_, fun htwo => ?_, fun hone => ?_⟩
  · show ∃ w m, execTwinLaneDown t lane s = _ ∧ _
    obtain ⟨m, hheld, hsrc, hkind⟩ := State.raise_held ({ b with tw := b.tw.setLane lane false }.liveOn (srcLane lane) 0x60) (srcLane lane) 0x60 0 []
    exact ⟨_, m, does_of_effect (if_pos (by rw [show bit (b.force 0x0F0000) 0 = true from hon, hup]; rfl)), rfl, hheld, hsrc, hkind⟩
  · show execTwinLaneDown t lane s = _
    refine does_of_effect (if_neg fun hand => ?_)
    obtain ⟨hon, hup⟩ := (Bool.and_eq_true _ _).mp hand
    exact h.elim (fun h => Bool.false_ne_true (h.symm.trans hon)) fun h => Bool.false_ne_true (h.symm.trans hup)
  · show ∃ w, execTwinLaneUp t lane s = _ ∧ _
    exact ⟨_, does_of_effect (if_pos hon), rfl, rfl⟩
  · show execTwinLaneUp t lane s = _
    exact does_of_effect (if_neg fun hon => Bool.false_ne_true (hoff.symm.trans hon))
  case heard =>
    intro mode role rank pair segs deltas hup
    obtain ⟨htold, hrole⟩ := b.hbTaken_told mode role rank pair segs deltas
    obtain ⟨hpaired, hpairing, hzero, hnot⟩ := b.leaderPair_cases pair
    refine ⟨_, execTwinHbReceived_hears hup, htold.hbAt, htold.linkLost, htold.peerMode, htold.peerRole, htold.peerRank, htold.peerPair,
      htold.peerSegs, htold.peerDeltas, hrole, b.hbTaken_follower mode role rank pair segs deltas, fun hleads htwo => ?_⟩
    obtain ⟨hun, hpair, hmirrors, hdeltas⟩ := b.hbTaken_leader_spec hleads htwo mode rank pair segs deltas
    refine ⟨hun, fun h h' => (hpair h).trans (hpaired h'), fun h h' => (hpair h).trans (hpairing h'), fun h h' => (hpair h).trans (hzero h'),
      fun h hlow hhigh k hk => ?_, hdeltas⟩
    have hk := hmirrors (hnot hlow hhigh) h k hk
    exact ⟨hk.notReady, hk.resync, hk.ready, hk.notPaired⟩
  case unheard =>
    intro mode role rank pair segs deltas hdown
    show execTwinHbReceived t mode role rank pair segs deltas s = _
    exact does_of_effect (if_pos (by rw [hdown]; rfl))
  case lost =>
    intro hon hheld hlate
    obtain ⟨hlost, hpair, hrole, -⟩ := (s.before t).linkLostOf_tw
    obtain ⟨m, hm, hsrc, hkind⟩ := (s.before t).linkLostOf_mark
    exact ⟨_, m, execTwinLinkLost_loses hon hheld hlate, hlost, hpair, hrole, hm, hsrc, hkind, fun hfollows hdue k hk =>
      (s.before t).linkLostOf_notReady hfollows hdue hk⟩
  · exact (exec_pairingStart s t).trans (by rw [State.pairStart_idle _ h])
  · exact ⟨_, exec_pairingStart s t, b.pairStart_pairs hmay h⟩
  · have hstays : b.changeOverDue = b := if_neg (by rw [hdue]; decide)
    exact (exec_changeover s t).trans (by rw [hstays])
  · have hchanges : b.changeOverDue = b.changeOver := if_pos hdue
    obtain ⟨y, hy⟩ := (s.before t).changeOver_tw
    obtain ⟨⟨m, hm, hsrc, hkind⟩, hmode, hplaces⟩ := (s.before t).changeOver_spec
    refine ⟨(s.before t).changeOver, m, (exec_changeover s t).trans (by rw [hchanges]), ?_⟩
    rw [hy]
    exact ⟨rfl, rfl, hm, hsrc, hkind, hmode, rfl, rfl, rfl, hplaces⟩
  · obtain ⟨⟨m, hm, hsrc, hkind⟩, hfirst, hsecond⟩ := b.stepsDown_spec
    exact ⟨_, m, (exec_twinDualLeader s t).trans (by rw [State.meetsLeader_two _ htwo]), hm, hsrc, hkind, hfirst, hsecond⟩
  · exact (exec_twinDualLeader s t).trans (by rw [State.meetsLeader_one _ hone])

end Sys2Proof.Machine
end


section
/-! Completions at a follower (15 R594, R595): what posting them leaves of the record, of the completions that wait and of the rings,
and how TAGs meet their descriptors. O60 rests on them. -/

namespace Sys2Proof.Machine

/-! ## Rings while completions are posted -/

/-- The two indices of a ring. -/
def Ring.indices (g : Ring) : Nat × Nat := (g.own, g.host)

section
variable (s : State) (r q : Nat)

theorem State.modRing_indices {f : Ring → Ring} (hf : ∀ g, (f g).indices = g.indices) :
    ((s.modRing r f).ringOf q).indices = (s.ringOf q).indices := by
  by_cases hq : q = r
  · rw [hq, State.modRing_ringOf_same, hf]
  · rw [State.modRing_ringOf_ne _ _ _ hq]

theorem State.sendMsi_ringOf (vec : Nat) : (s.sendMsi vec).ringOf q = s.ringOf q := by
  unfold State.sendMsi
  split
  · rfl
  · exact s.emitHost_ringOf _ q

theorem State.ringMsi_indices : ((s.ringMsi r).ringOf q).indices = (s.ringOf q).indices := by
  unfold State.ringMsi
  split
  · split
    · exact s.modRing_indices r q fun _ => rfl
    · rw [State.sendMsi_ringOf]
      exact s.modRing_indices r q fun _ => rfl
  · rfl

theorem State.putIndex_indices (msg : Bool) : ((s.putIndex r msg).ringOf q).indices = (s.ringOf q).indices := by
  have hstatus : ∀ o, ((s.emitHost o).ringOf q).indices = (s.ringOf q).indices := fun o => by rw [State.emitHost_ringOf]
  unfold State.putIndex
  dsimp only
  split
  · exact (State.ringMsi_indices _ r q).trans (hstatus _)
  · exact hstatus _

theorem State.putEntry_ringOf_ne (e : List Byte) (hq : q ≠ r) : (s.putEntry r e).ringOf q = s.ringOf q := by
  rw [State.putEntry, State.modRing_ringOf_ne _ _ _ hq, State.emitHost_ringOf]

theorem State.sendTwin_host (type seg tag minor : Nat) (payload : List Byte) : (s.sendTwin type seg tag minor payload).host = s.host := by
  unfold State.sendTwin
  split <;> rfl

theorem State.keepDefine_ringOf (e : Entry) : (s.keepDefine e).ringOf q = s.ringOf q := by
  unfold State.keepDefine
  split
  · split
    · split <;> rfl
    · rfl
  · rfl

end

/-! ## One completion is posted -/

/-- From `b` to `w` completions of the descriptors `l` are posted: completions of the leader's for other positions wait on, and the
indices of the rings of others stay. -/
structure State.PostsOf (l : List Entry) (b w : State) : Prop where
  cpls : ∀ c ∈ b.tw.cpls, (∀ e ∈ l, ¬ (c.1 = e.ring ∧ c.2.1 = e.pos)) → c ∈ w.tw.cpls
  rings : ∀ q, (∀ e ∈ l, 8 + e.ring ≠ q) → (w.ringOf q).indices = (b.ringOf q).indices

theorem State.PostsOf.of_host {l : List Entry} {b w : State} (htw : w.tw = b.tw) (hrings : ∀ q, (w.ringOf q).indices = (b.ringOf q).indices) :
    State.PostsOf l b w := ⟨fun _ hc _ => by rwa [htw], fun q _ => hrings q⟩

theorem State.PostsOf.cons {e : Entry} {l : List Entry} {a b c : State} (h : State.PostsOf [e] a b) (g : State.PostsOf l b c) :
    State.PostsOf (e :: l) a c where
  cpls x hx hl := g.cpls x (h.cpls x hx fun y hy => hl y (by rw [List.mem_singleton.mp hy]; exact List.mem_cons_self))
    fun y hy => hl y (List.mem_cons_of_mem _ hy)
  rings q hl := (g.rings q fun y hy => hl y (List.mem_cons_of_mem _ hy)).trans
    (h.rings q fun y hy => hl y (by rw [List.mem_singleton.mp hy]; exact List.mem_cons_self))

theorem State.PostsOf.skip {e : Entry} {l : List Entry} {b w : State} (h : State.PostsOf l b w) : State.PostsOf (e :: l) b w where
  cpls x hx hl := h.cpls x hx fun y hy => hl y (List.mem_cons_of_mem _ hy)
  rings q hl := h.rings q fun y hy => hl y (List.mem_cons_of_mem _ hy)

theorem State.PostsOf.then_same {l : List Entry} {a b c : State} (h : State.PostsOf l a b) (htw : c.tw = b.tw)
    (hrings : ∀ q, (c.ringOf q).indices = (b.ringOf q).indices) : State.PostsOf l a c where
  cpls x hx hl := by rw [htw]; exact h.cpls x hx hl
  rings q hl := (hrings q).trans (h.rings q hl)

theorem State.keepDefine_tw (s : State) (e : Entry) : (s.keepDefine e).tw = s.tw := by
  unfold State.keepDefine
  split
  · split
    · split <;> rfl
    · rfl
  · rfl

theorem State.postCpl_postsOf (s : State) (e : Entry) (rec_ : List Byte) : State.PostsOf [e] s (s.postCpl e rec_) := by
  unfold State.postCpl
  extract_lets v
  have hv : v.tw = s.tw ∧ ∀ q, 8 + e.ring ≠ q → (v.ringOf q).indices = (s.ringOf q).indices := by
    unfold v
    split
    · refine ⟨(State.putIndex_tw _ _ _).trans (s.putEntry_tw _ _), fun q hq => (State.putIndex_indices _ _ _ _).trans ?_⟩
      rw [State.putEntry_ringOf_ne _ _ _ _ (Ne.symm hq)]
    · exact ⟨rfl, fun _ _ => rfl⟩
  clear_value v
  have hone : ∀ {P : Entry → Prop}, (∀ y ∈ [e], P y) → P e := fun h => h e List.mem_cons_self
  split
  · refine ⟨fun c hc _ => ?_, fun q hq => ?_⟩
    · rw [State.sendTwin_tw, hv.1]
      exact hc
    · rw [State.ringOf, State.sendTwin_host]
      exact hv.2 q (hone hq)
  · refine ⟨fun c hc hne => List.mem_filter.mpr ⟨by rw [hv.1]; exact hc, decide_eq_true (hone hne)⟩, fun q hq => hv.2 q (hone hq)⟩

theorem postLoop_postsOf (s : State) (blocked : List Nat) (kept l : List Entry) : State.PostsOf l s (postLoop s blocked kept l) := by
  induction l generalizing s blocked kept with
  | nil => exact .of_host rfl fun _ => rfl
  | cons e r ih =>
    unfold postLoop
    split
    · exact (ih s blocked (e :: kept)).skip
    · split
      · next rec_ _ =>
        exact ((s.postCpl_postsOf e rec_).then_same (State.keepDefine_tw _ e)
          fun q => by rw [State.keepDefine_ringOf]).cons (ih ((s.postCpl e rec_).keepDefine e) blocked kept)
      · exact (ih s (e.ring :: blocked) (e :: kept)).skip

/-- The record of what is open loses descriptors alone. -/
theorem postLoop_acc (s : State) (blocked : List Nat) (kept l : List Entry) :
    ∀ x ∈ (postLoop s blocked kept l).host.acc, x ∈ kept ∨ x ∈ l := by
  induction l generalizing s blocked kept with
  | nil => exact fun x hx => .inl (List.mem_reverse.mp hx)
  | cons e r ih =>
    have hkeep : ∀ {x : Entry}, x ∈ e :: kept ∨ x ∈ r → x ∈ kept ∨ x ∈ e :: r := fun h => by
      obtain h | h := h
      · exact (List.mem_cons.mp h).elim (fun h => .inr (h ▸ List.mem_cons_self)) .inl
      · exact .inr (List.mem_cons_of_mem _ h)
    unfold postLoop
    split
    · exact fun x hx => hkeep (ih _ _ _ x hx)
    · split
      · exact fun x hx => (ih _ _ _ x hx).imp_right (List.mem_cons_of_mem _)
      · exact fun x hx => hkeep (ih _ _ _ x hx)

section
variable (s : State)

theorem State.cplDisables_rest : s.cplDisables.tw = s.tw ∧ s.cplDisables.host.acc = s.host.acc ∧
    ∀ q, (s.cplDisables.ringOf q).indices = (s.ringOf q).indices := by
  unfold State.cplDisables
  refine List.foldlRecOn (motive := fun w : State => w.tw = s.tw ∧ w.host.acc = s.host.acc ∧
    ∀ q, (w.ringOf q).indices = (s.ringOf q).indices) _ _ ⟨rfl, rfl, fun _ => rfl⟩ fun v h r _ => ?_
  unfold State.cplDisable
  split
  · have hring := fun q => v.modRing_indices (r + 8) q (f := fun g => { g with on := false, disabling := false }) fun _ => rfl
    exact ⟨h.1, h.2.1, fun q => (hring q).trans (h.2.2 q)⟩
  · exact h

theorem State.postReady_postsOf : State.PostsOf s.host.acc s s.postReady := by
  obtain ⟨htw, -, hrings⟩ := (postLoop s [] [] s.host.acc).cplDisables_rest
  exact (postLoop_postsOf s [] [] s.host.acc).then_same htw hrings

theorem State.mem_postReady_acc {x : Entry} (hx : x ∈ s.postReady.host.acc) : x ∈ s.host.acc := by
  obtain ⟨-, hacc, -⟩ := (postLoop s [] [] s.host.acc).cplDisables_rest
  rw [State.postReady, hacc] at hx
  exact (postLoop_acc _ _ _ _ x hx).resolve_left List.not_mem_nil

/-- The descriptor at the head of the record posts its completion first. -/
theorem State.mem_postReady_out_head {e : Entry} {r : List Entry} {rec_ : List Byte} (hacc : s.host.acc = e :: r)
    (hrec : s.recordOf e = some rec_) (hon : (s.ringOf (8 + e.ring)).on = true) (hfree : s.fenced srcHostEngine = false) :
    .ring (8 + e.ring) (s.ringOf (8 + e.ring)).own rec_ ∈ s.postReady.out := by
  have hloop : postLoop s [] [] s.host.acc = postLoop ((s.postCpl e rec_).keepDefine e) [] [] r := by
    rw [hacc, postLoop, hrec]
    rfl
  have hposted := (State.keepDefine_writes (s.postCpl e rec_) e).out (State.mem_postCpl_out hon hfree rec_)
  rw [State.postReady, hloop]
  exact (Writes.foldl State.cplDisable_writes _ _).out ((postLoop_writes _ _ _ _).out hposted)

end

/-! ## Descriptors and their TAGs (15 R594, R595) -/

/-- What a TAG is held against, and where. -/
def Entry.core (e : Entry) : Nat × Nat × Nat × Nat × Nat × Nat := (e.id, e.ring, e.pos, opcOf e.op, e.seq, e.crc)

/-- The first accepted descriptor at a position of a ring. -/
def State.heldAt (s : State) (r p : Nat) : Option Entry := s.host.acc.find? fun e => decide (e.ring = r ∧ e.pos = p)

/-- From `b` to `w` TAGs meet descriptors: no descriptor comes, goes or changes what a TAG is held against, and a pair may fall out of
step. -/
structure State.Meets (b w : State) : Prop where
  desk : Desk b w
  cores : w.host.acc.map Entry.core = b.host.acc.map Entry.core
  role : w.tw.role = b.tw.role
  lastTag : w.tw.lastTag = b.tw.lastTag
  unsynced : b.tw.pair = .unsynced → w.tw.pair = .unsynced

theorem State.Meets.refl (b : State) : b.Meets b := ⟨.refl b, rfl, rfl, rfl, id⟩

theorem State.Meets.trans {a b c : State} (h : a.Meets b) (g : b.Meets c) : a.Meets c :=
  ⟨h.desk.trans g.desk, g.cores.trans h.cores, g.role.trans h.role, g.lastTag.trans h.lastTag, fun hp => g.unsynced (h.unsynced hp)⟩

theorem find_map_core (l : List Entry) (r p : Nat) : (l.find? fun e => decide (e.ring = r ∧ e.pos = p)).map Entry.core =
    (l.map Entry.core).find? fun c => decide (c.2.1 = r ∧ c.2.2.1 = p) := by
  rw [List.find?_map]
  rfl

theorem State.Meets.at_core {b w : State} (h : b.Meets w) (r p : Nat) : (w.heldAt r p).map Entry.core = (b.heldAt r p).map Entry.core := by
  rw [State.heldAt, State.heldAt, find_map_core, find_map_core, h.cores]

theorem State.Meets.at_none {b w : State} (h : b.Meets w) {r p : Nat} : w.heldAt r p = none ↔ b.heldAt r p = none := by
  rw [← Option.map_eq_none_iff (f := Entry.core), h.at_core, Option.map_eq_none_iff]

section
variable (s : State)

theorem State.modEntry_cores (id : Nat) {f : Entry → Entry} (hf : ∀ e, (f e).core = e.core) :
    (s.modEntry id f).host.acc.map Entry.core = s.host.acc.map Entry.core := by
  show (s.host.acc.map fun e => if e.id = id then f e else e).map Entry.core = _
  rw [List.map_map]
  refine List.map_congr_left fun e _ => ?_
  show Entry.core (if e.id = id then f e else e) = e.core
  split
  · exact hf e
  · rfl

theorem State.modEntry_meets (id : Nat) {f : Entry → Entry} (hf : ∀ e, (f e).core = e.core) : s.Meets (s.modEntry id f) :=
  ⟨.of_desk (s.modEntry_desk id f), s.modEntry_cores id hf, rfl, rfl, fun h => h⟩

/-- A descriptor takes the leader's TAG. -/
def State.tagEntry (id tag minor status : Nat) : State := s.modEntry id fun e => { e with tagged := some (tag, minor, status) }

theorem State.tagEntry_meets (id tag minor status : Nat) : s.Meets (s.tagEntry id tag minor status) := s.modEntry_meets id fun _ => rfl

theorem State.finish_meets (id status : Nat) (res : List Byte) : s.Meets (s.finish id status res) :=
  s.modEntry_meets id fun e => by
    dsimp only
    split <;> rfl

/-- Every descriptor of a number holds a TAG. -/
def State.Tagged (id tag minor status : Nat) : Prop := ∀ e ∈ s.host.acc, e.id = id → e.tagged = some (tag, minor, status)

theorem State.tagEntry_tagged (id tag minor status : Nat) : (s.tagEntry id tag minor status).Tagged id tag minor status := by
  intro e he hid
  obtain ⟨y, -, rfl⟩ := List.mem_map.mp (show e ∈ s.host.acc.map _ from he)
  dsimp only at hid ⊢
  split
  · rfl
  · next hne =>
    rw [if_neg hne] at hid
    exact absurd hid hne

theorem State.cmdMismatch_tw : s.cmdMismatch.tw.pair = .unsynced ∧ s.cmdMismatch.tw.tags = s.tw.tags ∧
    s.cmdMismatch.tw.role = s.tw.role ∧ s.cmdMismatch.tw.lastTag = s.tw.lastTag ∧ s.cmdMismatch.host = s.host := by
  unfold State.cmdMismatch
  split
  · next h => exact ⟨h, rfl, rfl, rfl, rfl⟩
  · obtain ⟨m, hm⟩ := State.notReady_segsOnly { s with tw := { s.tw with cmdMis := true, pair := .unsynced } } (List.range 8)
    dsimp only
    rw [hm]
    exact ⟨rfl, rfl, rfl, rfl, rfl⟩

theorem State.cmdMismatch_desk : Desk s s.cmdMismatch := by
  unfold State.cmdMismatch
  split
  · exact .refl s
  · obtain ⟨m, hm⟩ := State.notReady_segsOnly { s with tw := { s.tw with cmdMis := true, pair := .unsynced } } (List.range 8)
    dsimp only
    rw [hm]
    exact Desk.trans (b := { s with tw := { s.tw with cmdMis := true, pair := .unsynced, segs := m } }) rfl (State.raise_Desk ..)

theorem State.cmdMismatch_meets : s.Meets s.cmdMismatch := by
  obtain ⟨hpair, -, hrole, hlast, hhost⟩ := s.cmdMismatch_tw
  exact ⟨s.cmdMismatch_desk, by rw [hhost], hrole, hlast, fun _ => hpair⟩

/-- A TAG no longer waits. -/
def State.untag (x : Tag) : State := { s with tw := { s.tw with tags := s.tw.tags.filter fun y => decide (y ≠ x) } }

theorem State.untag_meets (x : Tag) : s.Meets (s.untag x) := ⟨rfl, rfl, rfl, rfl, fun h => h⟩

/-- The leader's TAG on a descriptor, which ends it where the leader rejected it. -/
def State.tagBy (x : Tag) (id : Nat) : State :=
  if x.status = 0 then s.tagEntry id x.tag x.minor x.status else (s.tagEntry id x.tag x.minor x.status).finish id x.status (zeros 8)

theorem State.tagBy_meets (x : Tag) (id : Nat) : s.Meets (s.tagBy x id) := by
  unfold State.tagBy
  split
  · exact s.tagEntry_meets ..
  · exact (s.tagEntry_meets ..).trans (State.finish_meets ..)

theorem State.tagBy_tw (x : Tag) (id : Nat) : (s.tagBy x id).tw = s.tw := by
  unfold State.tagBy
  split <;> rfl

theorem State.finish_tagged {s : State} {id tag minor status : Nat} (h : s.Tagged id tag minor status) (n st : Nat) (res : List Byte) :
    (s.finish n st res).Tagged id tag minor status := by
  intro e he hid
  obtain ⟨y, hy, rfl⟩ := List.mem_map.mp (show e ∈ s.host.acc.map _ from he)
  have hsame : ∀ z : Entry, (if z.prog.isDone then z else { z with prog := .done st (z.applied s.cyc 0).1 (z.applied s.cyc 0).2 res }).id = z.id ∧
      (if z.prog.isDone then z else { z with prog := .done st (z.applied s.cyc 0).1 (z.applied s.cyc 0).2 res }).tagged = z.tagged := fun z => by
    split <;> exact ⟨rfl, rfl⟩
  dsimp only at hid ⊢
  split
  · next hn =>
    rw [if_pos hn] at hid
    exact (hsame y).2.trans (h y hy ((hsame y).1.symm.trans hid))
  · next hn =>
    rw [if_neg hn] at hid
    exact h y hy hid

theorem State.tagBy_tagged (x : Tag) (id : Nat) : (s.tagBy x id).Tagged id x.tag x.minor x.status := by
  unfold State.tagBy
  split
  · exact s.tagEntry_tagged _ _ _ _
  · exact State.finish_tagged (s.tagEntry_tagged _ _ _ _) _ _ _

end

/-! ## A TAG meets its descriptor -/

section
variable {s : State} {x : Tag} {e : Entry}

theorem State.matchTag_absent (h : s.heldAt x.ring x.pos = none) : s.matchTag x = s := by
  unfold State.matchTag
  rw [show s.host.acc.find? _ = none from h]

theorem State.matchTag_fits (h : s.heldAt x.ring x.pos = some e) (hfits : opcOf e.op = x.opc ∧ e.seq = x.seq ∧ e.crc = x.crc) :
    s.matchTag x = (s.untag x).tagBy x e.id := by
  unfold State.matchTag
  rw [show s.host.acc.find? _ = some e from h]
  exact if_pos hfits

theorem State.matchTag_differs (h : s.heldAt x.ring x.pos = some e) (hdiff : ¬ (opcOf e.op = x.opc ∧ e.seq = x.seq ∧ e.crc = x.crc)) :
    s.matchTag x = (s.untag x).cmdMismatch := by
  unfold State.matchTag
  rw [show s.host.acc.find? _ = some e from h]
  exact if_neg hdiff

theorem State.matchTag_cases (s : State) (x : Tag) : s.matchTag x = s ∧ s.heldAt x.ring x.pos = none ∨
    (∃ e, s.matchTag x = (s.untag x).tagBy x e.id ∧ s.heldAt x.ring x.pos = some e) ∨
    (∃ e, s.matchTag x = (s.untag x).cmdMismatch ∧ s.heldAt x.ring x.pos = some e) := by
  cases h : s.heldAt x.ring x.pos with
  | none => exact .inl ⟨State.matchTag_absent h, rfl⟩
  | some e =>
    by_cases hfits : opcOf e.op = x.opc ∧ e.seq = x.seq ∧ e.crc = x.crc
    · exact .inr (.inl ⟨e, State.matchTag_fits h hfits, rfl⟩)
    · exact .inr (.inr ⟨e, State.matchTag_differs h hfits, rfl⟩)

theorem State.matchTag_meets (s : State) (x : Tag) : s.Meets (s.matchTag x) := by
  obtain ⟨h, -⟩ | ⟨e, h, -⟩ | ⟨e, h, -⟩ := s.matchTag_cases x
  · rw [h]
    exact .refl s
  · rw [h]
    exact (s.untag_meets x).trans (State.tagBy_meets ..)
  · rw [h]
    exact (s.untag_meets x).trans (State.cmdMismatch_meets _)

/-- A TAG of a position where no descriptor stands waits on. -/
theorem State.matchTag_keeps (s : State) (x : Tag) {y : Tag} (hy : y ∈ s.tw.tags) (hnone : s.heldAt y.ring y.pos = none) :
    y ∈ (s.matchTag x).tw.tags := by
  have hother : ∀ {e}, s.heldAt x.ring x.pos = some e → y ∈ (s.untag x).tw.tags := fun hsome =>
    List.mem_filter.mpr ⟨hy, decide_eq_true fun hyx => by rw [← hyx, hnone] at hsome; cases hsome⟩
  obtain ⟨h, -⟩ | ⟨e, h, hsome⟩ | ⟨e, h, hsome⟩ := s.matchTag_cases x
  · rwa [h]
  · rw [h, State.tagBy_tw]
    exact hother hsome
  · obtain ⟨-, htags, -⟩ := (s.untag x).cmdMismatch_tw
    rw [h, htags]
    exact hother hsome

/-- TAGs meet their descriptors in turn. -/
def State.matchEach (s : State) (l : List Tag) : State := l.foldl State.matchTag s

theorem State.matchEach_meets (s : State) (l : List Tag) : s.Meets (s.matchEach l) :=
  List.foldlRecOn (motive := fun w : State => s.Meets w) l _ (.refl s) fun v h x _ => h.trans (v.matchTag_meets x)

theorem State.matchEach_keeps (s : State) (l : List Tag) {y : Tag} (hy : y ∈ s.tw.tags) (hnone : s.heldAt y.ring y.pos = none) :
    y ∈ (s.matchEach l).tw.tags := by
  have hboth := List.foldlRecOn (motive := fun w : State => s.Meets w ∧ y ∈ w.tw.tags) l State.matchTag ⟨.refl s, hy⟩
    fun v h x _ => ⟨h.1.trans (v.matchTag_meets x), v.matchTag_keeps x h.2 (h.1.at_none.mpr hnone)⟩
  exact hboth.2

/-- A descriptor that stands at a position still stands there when TAGs have met theirs. -/
theorem State.Meets.at_some {b w : State} (h : b.Meets w) {r p : Nat} (hsome : b.heldAt r p = some e) :
    ∃ e', w.heldAt r p = some e' ∧ e'.core = e.core := by
  have hcore := h.at_core r p
  rw [hsome] at hcore
  obtain ⟨e', he', hcore'⟩ := Option.map_eq_some_iff.mp hcore
  exact ⟨e', he', hcore'⟩

theorem Entry.core_fits {e e' : Entry} (h : e'.core = e.core) (x : Tag) :
    e'.id = e.id ∧ ((opcOf e'.op = x.opc ∧ e'.seq = x.seq ∧ e'.crc = x.crc) ↔ (opcOf e.op = x.opc ∧ e.seq = x.seq ∧ e.crc = x.crc)) := by
  simp only [Entry.core, Prod.mk.injEq] at h
  obtain ⟨hid, -, -, hopc, hseq, hcrc⟩ := h
  rw [hid, hopc, hseq, hcrc]
  exact ⟨rfl, Iff.rfl⟩

/-- What a TAG that has met its descriptor leaves. -/
structure State.Met (w : State) (x : Tag) (e : Entry) : Prop where
  gone : x ∉ w.tw.tags
  fits : opcOf e.op = x.opc ∧ e.seq = x.seq ∧ e.crc = x.crc → w.Tagged e.id x.tag x.minor x.status
  differs : ¬ (opcOf e.op = x.opc ∧ e.seq = x.seq ∧ e.crc = x.crc) → w.tw.pair = .unsynced

theorem State.matchTag_met {e' : Entry} (hsome : s.heldAt x.ring x.pos = some e') (hcore : e'.core = e.core) : (s.matchTag x).Met x e := by
  obtain ⟨hid, hfits⟩ := Entry.core_fits hcore x
  have hgone : x ∉ (s.untag x).tw.tags := fun h => of_decide_eq_true (List.mem_filter.mp h).2 rfl
  by_cases h : opcOf e.op = x.opc ∧ e.seq = x.seq ∧ e.crc = x.crc
  · rw [State.matchTag_fits hsome (hfits.mpr h), hid]
    exact ⟨by rw [State.tagBy_tw]; exact hgone, fun _ => State.tagBy_tagged _ _ _, fun h' => absurd h h'⟩
  · rw [State.matchTag_differs hsome fun h' => h (hfits.mp h')]
    obtain ⟨hpair, htags, -⟩ := (s.untag x).cmdMismatch_tw
    exact ⟨by rw [htags]; exact hgone, fun h' => absurd h' h, fun _ => hpair⟩

theorem State.Met.cmdMismatch (h : s.Met x e) : s.cmdMismatch.Met x e := by
  obtain ⟨hpair, htags, -, -, hhost⟩ := s.cmdMismatch_tw
  exact ⟨by rw [htags]; exact h.gone, fun hfits => by rw [State.Tagged, hhost]; exact h.fits hfits, fun _ => hpair⟩

theorem State.Tagged.posted {id tag minor status : Nat} (h : s.Tagged id tag minor status) : s.postReady.Tagged id tag minor status :=
  fun y hy => h y (s.mem_postReady_acc hy)

theorem State.Met.posted (h : s.Met x e) : s.postReady.Met x e := by
  have htw := s.postReady_posts.tw
  exact ⟨by rw [htw]; exact h.gone, fun hfits => (h.fits hfits).posted, fun hdiff => by rw [htw]; exact h.differs hdiff⟩

end

/-! ## TAG_RECEIVED -/

section
variable (b : State) (x : Tag)

/-- A TAG arrives, and is the newest of its ring. -/
def State.tagArrived : State :=
  { b with tw := { b.tw with tags := b.tw.tags ++ [x],
                             lastTag := SMap.insert (SMap.erase b.tw.lastTag x.ring) x.ring ((x.pos + 1) % 2 ^ 32) } }

/-- The TAGs have met their descriptors, and a position without a TAG has been noticed. -/
def State.tagsMet : State :=
  let v := b.matchEach b.tw.tags
  if v.tagSkipped then v.cmdMismatch else v

theorem State.tagsMet_meets : b.Meets b.tagsMet := by
  unfold State.tagsMet
  dsimp only
  split
  · exact (b.matchEach_meets _).trans (State.cmdMismatch_meets _)
  · exact b.matchEach_meets _

theorem State.tagsMet_keeps {y : Tag} (hy : y ∈ b.tw.tags) (hnone : b.heldAt y.ring y.pos = none) : y ∈ b.tagsMet.tw.tags := by
  unfold State.tagsMet
  dsimp only
  split
  · obtain ⟨-, htags, -⟩ := (b.matchEach b.tw.tags).cmdMismatch_tw
    rw [htags]
    exact b.matchEach_keeps _ hy hnone
  · exact b.matchEach_keeps _ hy hnone

theorem State.tagsMet_met {e : Entry} (hsome : b.heldAt x.ring x.pos = some e) : (b.tagArrived x).tagsMet.Met x e := by
  have hearlier := (b.tagArrived x).matchEach_meets b.tw.tags
  obtain ⟨e', hsome', hcore⟩ := hearlier.at_some (b := b.tagArrived x) hsome
  have hlast : (b.tagArrived x).matchEach (b.tagArrived x).tw.tags = ((b.tagArrived x).matchEach b.tw.tags).matchTag x := by
    show (b.tagArrived x).matchEach (b.tw.tags ++ [x]) = _
    rw [State.matchEach, List.foldl_append]
    rfl
  have hmet : ((b.tagArrived x).matchEach (b.tagArrived x).tw.tags).Met x e := by
    rw [hlast]
    exact State.matchTag_met hsome' hcore
  unfold State.tagsMet
  dsimp only
  split
  · exact hmet.cmdMismatch
  · exact hmet

theorem State.matchTags_eq (h : b.postsLeaders = true) : b.matchTags = b.tagsMet := if_pos h

theorem State.tagArrived_spec : Desk b (b.tagArrived x).tagsMet.postReady ∧ (b.tagArrived x).tagsMet.postReady.tw.role = b.tw.role ∧
    (b.tagArrived x).tagsMet.postReady.tw.lastTag.lookup x.ring = some ((x.pos + 1) % 2 ^ 32) ∧
    (b.heldAt x.ring x.pos = none → x ∈ (b.tagArrived x).tagsMet.postReady.tw.tags) ∧
    ∀ e, b.heldAt x.ring x.pos = some e → (b.tagArrived x).tagsMet.postReady.Met x e := by
  have hmeets := (b.tagArrived x).tagsMet_meets
  have htw := (b.tagArrived x).tagsMet.postReady_posts.tw
  refine ⟨Desk.trans (b := b.tagArrived x) rfl (hmeets.desk.trans (State.postReady_Desk _)), ?_, ?_, fun hnone => ?_,
    fun e hsome => (b.tagsMet_met x hsome).posted⟩
  · rw [htw]
    exact hmeets.role
  · rw [htw]
    show (b.tagArrived x).tagsMet.tw.lastTag.lookup x.ring = _
    rw [hmeets.lastTag]
    exact SMap.lookup_replace_same _ _ _
  · rw [htw]
    exact (b.tagArrived x).tagsMet_keeps (List.mem_append_right _ List.mem_cons_self) hnone

theorem State.retag_spec (e : Entry) : Desk b (b.retag e x).postReady ∧ (b.retag e x).postReady.tw.role = b.tw.role ∧
    (b.retag e x).postReady.tw.tags = b.tw.tags ∧ (b.retag e x).postReady.tw.lastTag = b.tw.lastTag ∧
    (b.retag e x).postReady.Tagged e.id x.tag x.minor x.status := by
  have hretag : b.retag e x = b.tagBy x e.id := rfl
  have htw : (b.tagBy x e.id).postReady.tw = { b.tw with cpls := (b.tagBy x e.id).postReady.tw.cpls } := by
    have hposted := (b.tagBy x e.id).postReady_posts.tw
    rwa [State.tagBy_tw] at hposted
  rw [hretag, htw]
  exact ⟨(b.tagBy_meets x e.id).desk.trans (State.postReady_Desk _), rfl, rfl, rfl, (b.tagBy_tagged x e.id).posted⟩

end

/-! ## CPL_RECEIVED -/

section
variable (b : State) (ring pos : Nat) (rec_ : List Byte)

/-- A completion of the leader's waits for its turn. -/
def State.cplArrived : State := { b with tw := { b.tw with cpls := b.tw.cpls ++ [(ring, pos, rec_)] } }

theorem State.cplArrived_spec : Desk b (b.cplArrived ring pos rec_).postReady ∧
    (b.cplArrived ring pos rec_).postReady.tw = { b.tw with cpls := (b.cplArrived ring pos rec_).postReady.tw.cpls } ∧
    (b.heldAt ring pos = none → (ring, pos, rec_) ∈ (b.cplArrived ring pos rec_).postReady.tw.cpls) := by
  refine ⟨Desk.trans (b := b.cplArrived ring pos rec_) rfl (State.postReady_Desk _), (b.cplArrived ring pos rec_).postReady_posts.tw,
    fun hnone => ?_⟩
  refine (b.cplArrived ring pos rec_).postReady_postsOf.cpls _ (List.mem_append_right _ List.mem_cons_self) fun e he heq => ?_
  have hother := List.find?_eq_none.mp hnone e he
  rw [decide_eq_true (show e.ring = ring ∧ e.pos = pos from ⟨heq.1.symm, heq.2.symm⟩)] at hother
  exact hother rfl

/-- The descriptor at the head of the record, once it has taken effect, posts the completion at once. -/
theorem State.cplArrived_out {e : Entry} {r : List Entry} (hears : b.postsLeaders = true) (hacc : b.host.acc = e :: r) (hring : e.ring = ring)
    (hpos : e.pos = pos) (haligned : opcLocal (opcOf e.op) = false) (hbegun : e.prog ≠ .waiting)
    (hnew : (b.tw.cpls.all fun c => decide (¬ (c.1 = ring ∧ c.2.1 = pos))) = true) (hon : (b.ringOf (8 + ring)).on = true)
    (hfree : b.fenced srcHostEngine = false) :
    .ring (8 + ring) (b.ringOf (8 + ring)).own rec_ ∈ (b.cplArrived ring pos rec_).postReady.out := by
  subst hring hpos
  have hfind : (b.tw.cpls ++ [(e.ring, e.pos, rec_)]).find? (fun c => decide (c.1 = e.ring ∧ c.2.1 = e.pos)) = some (e.ring, e.pos, rec_) := by
    have hnone : b.tw.cpls.find? (fun c => decide (c.1 = e.ring ∧ c.2.1 = e.pos)) = none :=
      List.find?_eq_none.mpr fun c hc => by
        rw [decide_eq_false (of_decide_eq_true (List.all_eq_true.mp hnew c hc))]
        decide
    rw [List.find?_append, hnone]
    simp
  have hrec : (b.cplArrived e.ring e.pos rec_).recordOf e = some rec_ := by
    unfold State.recordOf
    rw [if_pos (by rw [show (b.cplArrived e.ring e.pos rec_).postsLeaders = true from hears, haligned]; rfl)]
    dsimp only
    rw [if_neg (by rw [decide_eq_false hbegun]; exact Bool.false_ne_true),
      show (b.cplArrived e.ring e.pos rec_).tw.cpls.find? _ = _ from hfind]
    rfl
  exact State.mem_postReady_out_head (b.cplArrived e.ring e.pos rec_) (e := e) (r := r) hacc hrec hon hfree

end

end Sys2Proof.Machine
end


section
/-! Cycle data at a follower: USE, master values and digests (15 R596, R599, R601). O60 rests on them. -/

namespace Sys2Proof.Machine

/-! ## USE_RECEIVED (15 R599) -/

theorem SMap.get_foldl_put_last (m : SMap Int) {l : List (Nat × Int)} {a : Nat} {v : Int} (h : l.getLast? = some (a, v)) :
    SMap.get 0 (l.foldl (fun m v => SMap.put 0 m v.1 v.2) m) a = v := by
  obtain ⟨r, rfl⟩ := List.getLast?_eq_some_iff.mp h
  rw [List.foldl_append]
  exact SMap.get_put_same _ _ _ _

section
variable (b : State) (seg map : Nat) (recs : List (Nat × List Byte)) (xs es : List (Nat × Int))

/-- The inputs of a segment cycle and of its values. -/
def State.useKept : State :=
  (b.modSeg seg fun g => { g with use := some (map, recs) }).modTwSeg seg fun g =>
    { g with x := xs.foldl (fun m v => SMap.put 0 m v.1 v.2) g.x, e := es.foldl (fun m v => SMap.put 0 m v.1 v.2) g.e }

/-- The step axes follow the leader's. -/
def State.useTaken : State := es.foldl (fun s v => s.modStep (v.1 - 512) fun c => c.follow v.2) (b.useKept seg map recs xs es)

theorem State.useTaken_tw : (b.useTaken seg map recs xs es).tw = (b.useKept seg map recs xs es).tw :=
  List.foldlRecOn (motive := fun w : State => w.tw = (b.useKept seg map recs xs es).tw) es _ rfl fun _ h _ _ => h

theorem State.useTaken_segs : (b.useTaken seg map recs xs es).segs = (b.useKept seg map recs xs es).segs :=
  List.foldlRecOn (motive := fun w : State => w.segs = (b.useKept seg map recs xs es).segs) es _ rfl fun _ h _ _ => h

theorem State.useTaken_twSeg : (b.useTaken seg map recs xs es).twSeg seg =
    { b.twSeg seg with x := xs.foldl (fun m v => SMap.put 0 m v.1 v.2) (b.twSeg seg).x,
                       e := es.foldl (fun m v => SMap.put 0 m v.1 v.2) (b.twSeg seg).e } := by
  rw [State.twSeg, State.useTaken_tw]
  exact State.modTwSeg_twSeg_same _ _ _

theorem State.useTaken_spec : ((b.useTaken seg map recs xs es).seg seg).use = some (map, recs) ∧
    (b.useTaken seg map recs xs es).tw.pair = b.tw.pair ∧
    (∀ a v, xs.getLast? = some (a, v) → SMap.get 0 ((b.useTaken seg map recs xs es).twSeg seg).x a = v) ∧
    (∀ a v, es.getLast? = some (a, v) → SMap.get 0 ((b.useTaken seg map recs xs es).twSeg seg).e a = v ∧
      ((b.useTaken seg map recs xs es).stepCh (a - 512)).e0 = v) := by
  refine ⟨?_, ?_, fun a v hlast => ?_, fun a v hlast => ⟨?_, ?_⟩⟩
  · rw [State.seg, State.useTaken_segs]
    show ((b.modSeg seg fun g => { g with use := some (map, recs) }).seg seg).use = _
    rw [State.modSeg_seg_same]
  · rw [State.useTaken_tw]
    rfl
  · rw [State.useTaken_twSeg]
    exact SMap.get_foldl_put_last _ hlast
  · rw [State.useTaken_twSeg]
    exact SMap.get_foldl_put_last _ hlast
  · obtain ⟨r, rfl⟩ := List.getLast?_eq_some_iff.mp hlast
    rw [State.useTaken, List.foldl_append]
    show ((State.modStep _ (a - 512) fun c => c.follow v).stepCh (a - 512)).e0 = v
    rw [State.modStep_stepCh_same]
    rfl

end

/-! ## MST_RECEIVED (15 R596) -/

section
variable (s : State)

/-- Master values with the number of each. -/
def State.evalAll (l : List (MasterVal × Nat)) : State := l.foldl (fun s v => s.evalMaster (528 + v.2) v.1) s

theorem State.evalAll_evaluated {l : List (MasterVal × Nat)} (hl : (l.map Prod.snd).Nodup) (i : Nat) :
    ((∀ v, (v, i) ∉ l) → SMap.get ⟨0, false⟩ (s.evalAll l).evaluated (528 + i) = SMap.get ⟨0, false⟩ s.evaluated (528 + i)) ∧
    ∀ v, (v, i) ∈ l → SMap.get ⟨0, false⟩ (s.evalAll l).evaluated (528 + i) = v := by
  induction l generalizing s with
  | nil => exact ⟨fun _ => rfl, fun v hv => absurd hv List.not_mem_nil⟩
  | cons x l ih =>
    obtain ⟨hx, hl⟩ := List.nodup_cons.mp hl
    obtain ⟨hout, hin⟩ := ih (s.evalMaster (528 + x.2) x.1) hl
    refine ⟨fun hi => ?_, fun v hv => ?_⟩
    · have hne : 528 + i ≠ 528 + x.2 := fun h => hi x.1 (by
        rw [Nat.add_left_cancel h]
        exact List.mem_cons_self)
      exact (hout fun v hv => hi v (List.mem_cons_of_mem _ hv)).trans (SMap.get_put_ne _ _ _ hne)
    · obtain rfl | hv := List.mem_cons.mp hv
      · exact (hout fun v' hv' => hx (List.mem_map.mpr ⟨(v', i), hv', rfl⟩)).trans (SMap.get_put_same _ _ _ _)
      · exact hin v hv

theorem State.takeVals_evaluated {vals : List MasterVal} {i : Nat} {v : MasterVal} (h : vals[i]? = some v) :
    SMap.get ⟨0, false⟩ (s.takeVals vals).evaluated (528 + i) = v := by
  have hnodup : ((vals.zip (List.range vals.length)).map Prod.snd).Nodup := by
    rw [List.map_snd_zip (by rw [List.length_range])]
    exact List.nodup_range
  refine (s.evalAll_evaluated hnodup i).2 v (List.mem_of_getElem? (i := i) ?_)
  have hlt : i < vals.length := (List.getElem?_eq_some_iff.mp h).1
  exact List.getElem?_zip_eq_some.mpr ⟨h, List.getElem?_range hlt⟩

/-- The feedback axes stand where the leader's do. -/
def State.portsTold (vals : List MasterVal) (l : List Nat) : State :=
  l.foldl (fun s p => match vals[32 + p]? with
    | some v => s.modPort p fun g => { g with pos := v.pos }
    | none => s) s

theorem State.portsTold_spec (vals : List MasterVal) {l : List Nat} (hl : l.Nodup) (p : Nat) :
    (s.portsTold vals l).evaluated = s.evaluated ∧ (p ∉ l → (s.portsTold vals l).port p = s.port p) ∧
    ∀ v, p ∈ l → vals[32 + p]? = some v → ((s.portsTold vals l).port p).pos = v.pos := by
  induction l generalizing s with
  | nil => exact ⟨rfl, fun _ => rfl, fun _ h => absurd h List.not_mem_nil⟩
  | cons q l ih =>
    obtain ⟨hq, hl⟩ := List.nodup_cons.mp hl
    cases hval : vals[32 + q]? with
    | none =>
      have hstep : s.portsTold vals (q :: l) = s.portsTold vals l := by
        unfold State.portsTold
        rw [List.foldl_cons, hval]
      obtain ⟨heval, hout, hin⟩ := ih s hl
      rw [hstep]
      refine ⟨heval, fun hp => hout fun h => hp (List.mem_cons_of_mem _ h), fun v hp hv => ?_⟩
      have hne : p ≠ q := fun h => by
        rw [h, hval] at hv
        cases hv
      exact hin v ((List.mem_cons.mp hp).resolve_left hne) hv
    | some x =>
      have hstep : s.portsTold vals (q :: l) = (s.modPort q fun g => { g with pos := x.pos }).portsTold vals l := by
        unfold State.portsTold
        rw [List.foldl_cons, hval]
      obtain ⟨heval, hout, hin⟩ := ih (s.modPort q fun g => { g with pos := x.pos }) hl
      rw [hstep]
      refine ⟨heval, fun hp => ?_, fun v hp hv => ?_⟩
      · obtain ⟨hne, hp⟩ := not_or.mp fun h => hp (List.mem_cons.mpr h)
        exact (hout hp).trans (State.modPort_port_ne _ _ _ hne)
      · by_cases hpl : p ∈ l
        · exact hin v hpl hv
        · have hpq := (List.mem_cons.mp hp).resolve_right hpl
          subst hpq
          rw [hout hpl, State.modPort_port_same]
          rw [hval] at hv
          cases hv
          rfl

/-- The leader's master values are taken. -/
def State.mstTaken (vals : List MasterVal) : State :=
  let v := s.takeVals (vals.take 40)
  let v := virtualMasters.foldl (fun s a => s.runMaster s.cyc (s.gran / 250) a) v
  (((v.takeVals (vals.take 40)).portsTold (vals.take 40) fbPorts)).postReady

theorem State.mstTaken_spec (vals : List MasterVal) :
    (∀ i v, i < 40 → vals[i]? = some v → SMap.get ⟨0, false⟩ (s.mstTaken vals).evaluated (528 + i) = v) ∧
    ∀ p v, p < 8 → vals[32 + p]? = some v → ((s.mstTaken vals).port p).pos = v.pos := by
  unfold State.mstTaken
  extract_lets v1 v2
  clear_value v2
  have htake : ∀ {i : Nat} {v : MasterVal}, i < 40 → vals[i]? = some v → (vals.take 40)[i]? = some v := fun hi h => by
    rw [List.getElem?_take_of_lt hi]
    exact h
  have hports := fun p => (v2.takeVals (vals.take 40)).portsTold_spec (vals.take 40) (l := fbPorts) List.nodup_range p
  refine ⟨fun i v hi h => ?_, fun p v hp h => ?_⟩
  · rw [(State.postReady_Desk _).evaluated, (hports 0).1]
    exact v2.takeVals_evaluated (htake hi h)
  · rw [(State.postReady_Desk _).port]
    exact (hports p).2.2 v (List.mem_range.mpr hp) (htake (by omega) h)

end

/-! ## DIG_RECEIVED (15 R601) -/

section
variable (b : State) (seg tag minor dig : Nat)

/-- The leader's digest of a cycle arrives. -/
def State.digArrived : State := b.modTwSeg seg fun g => { g with peer := some (tag, minor, dig) }

/-- The digests of a cycle have been compared. -/
def State.digDone : State := (b.digArrived seg tag minor dig).modTwSeg seg fun g => { g with own := none, peer := none }

/-- The digests of a cycle differ. -/
def State.digDiffers : State :=
  let misrun := (b.twSeg seg).misrun
  let v := b.digDone seg tag minor dig
  let v := if misrun = 0 then v.raise srcTwin 0x65 0 [] else v
  let v := v.modTwSeg seg fun g => { g with misrun := min 3 (g.misrun + 1) }
  if 2 ≤ misrun then v.startResync seg else v

theorem State.digArrived_twSeg : (b.digArrived seg tag minor dig).twSeg seg = { b.twSeg seg with peer := some (tag, minor, dig) } :=
  State.modTwSeg_twSeg_same _ _ _

theorem State.digDone_twSeg : (b.digDone seg tag minor dig).twSeg seg = { b.twSeg seg with own := none, peer := none } := by
  rw [State.digDone, State.modTwSeg_twSeg_same, State.digArrived_twSeg]

/-- The device compares the digest that arrives with its own of the same cycle, `d`. -/
def State.DigestsMeet (d : Nat) : Prop :=
  b.tw.role = .follower ∧ (b.twSeg seg).st ≠ .resync ∧ ∃ n, (b.twSeg seg).own = some (n, minor, d) ∧ tagOf n = tag

variable {b seg tag minor}

theorem State.digestCompare_waits (h : ¬ ∃ d, b.DigestsMeet seg tag minor d) :
    (b.digArrived seg tag minor dig).digestCompare seg = b.digArrived seg tag minor dig := by
  have hseg := b.digArrived_twSeg seg tag minor dig
  unfold State.digestCompare
  rw [hseg]
  dsimp only
  cases hown : (b.twSeg seg).own with
  | none => rfl
  | some x =>
    obtain ⟨n, m, d⟩ := x
    refine if_pos (by_contra fun hne => h ⟨d, ?_⟩)
    obtain ⟨htag, hm, hrole, hst⟩ : tagOf n = tag ∧ m = minor ∧ (b.digArrived seg tag minor dig).tw.role = .follower ∧
        ¬ (b.twSeg seg).st = .resync := by simpa only [not_or, not_not, ne_eq] using hne
    exact ⟨hrole, hst, n, by rw [hown, hm], htag⟩

theorem State.digestCompare_judges {d : Nat} (h : b.DigestsMeet seg tag minor d) : (b.digArrived seg tag minor dig).digestCompare seg =
    if d = dig then (b.digDone seg tag minor dig).modTwSeg seg fun g => { g with misrun := 0 }
    else b.digDiffers seg tag minor dig := by
  obtain ⟨hrole, hst, n, hown, htag⟩ := h
  have hseg := b.digArrived_twSeg seg tag minor dig
  unfold State.digestCompare
  rw [hseg]
  dsimp only
  rw [hown]
  dsimp only
  refine if_neg ?_
  rintro (h | h | h | h)
  · exact h htag
  · exact h rfl
  · exact h hrole
  · exact hst h

theorem State.digDiffers_spec : let w := b.digDiffers seg tag minor dig; let misrun := (b.twSeg seg).misrun
    (w.twSeg seg).own = none ∧ (w.twSeg seg).peer = none ∧ (w.twSeg seg).misrun = min 3 (misrun + 1) ∧
    (misrun = 0 → ∃ y, w.asy.held = b.asy.held ++ [y] ∧ y.src = srcTwin ∧ y.kind = 0x65) ∧
    (2 ≤ misrun → (w.twSeg seg).st = .resync) := by
  have hdone := b.digDone_twSeg seg tag minor dig
  unfold State.digDiffers
  extract_lets misrun v1 v2 v3 w
  have h2 : v2.twSeg seg = v1.twSeg seg := by
    unfold v2
    split <;> rfl
  have h3 : v3.twSeg seg = { b.twSeg seg with own := none, peer := none, misrun := min 3 (misrun + 1) } := by
    show (v2.modTwSeg seg _).twSeg seg = _
    rw [State.modTwSeg_twSeg_same, h2, hdone]
  by_cases htwo : 2 ≤ misrun
  · have hw : w = v3.startResync seg := if_pos htwo
    rw [hw, State.startResync, State.modTwSeg_twSeg_same, h3]
    exact ⟨rfl, rfl, rfl, fun h => absurd h (by omega), fun _ => rfl⟩
  · have hw : w = v3 := if_neg htwo
    rw [hw, h3]
    refine ⟨rfl, rfl, rfl, fun hzero => ?_, fun h => absurd h htwo⟩
    have hraised : v2 = v1.raise srcTwin 0x65 0 [] := if_pos hzero
    obtain ⟨y, hy, hsrc, hkind⟩ := v1.raise_held srcTwin 0x65 0 []
    exact ⟨y, by rw [show v3.asy = v2.asy from rfl, hraised, hy]; rfl, hsrc, hkind⟩

end

end Sys2Proof.Machine
end


section
/-! The outcomes that a follower adopts from its leader (15 R590, R596, Table 15.4). O60 rests on them. -/

namespace Sys2Proof.Machine

/-! ## Faults that a hold raises (18 R736) -/

/-- From `b` to `w` axes fall into fault and the registers stay. -/
structure State.Faults (b w : State) : Prop where
  kept : ∀ a, (b.axis a).fault = true → (w.axis a).fault = true
  regs : w.regs = b.regs

theorem State.Faults.refl (b : State) : b.Faults b := ⟨fun _ h => h, rfl⟩

theorem State.Faults.trans {a b c : State} (h : a.Faults b) (g : b.Faults c) : a.Faults c :=
  ⟨fun x hx => g.kept x (h.kept x hx), g.regs.trans h.regs⟩

theorem State.Faults.foldl {α : Type} {f : State → α → State} (step : ∀ (s : State) x, s.Faults (f s x)) (l : List α) (b : State) :
    b.Faults (l.foldl f b) :=
  List.foldlRecOn (motive := fun w : State => b.Faults w) l f (.refl b) fun s h x _ => h.trans (step s x)

theorem State.Faults.netAxes {b w : State} (h : b.Faults w) (k : Nat) : w.netAxes k = b.netAxes k := by
  rw [State.netAxes, State.netAxes, State.axMask, State.axMask, State.force, State.force, h.regs]
  rfl

section
variable (s : State) (src kind : Nat)

/-- A hold on one axis. -/
def State.holdAxis (a : Nat) : State :=
  s.modAxis a fun ax =>
    { ax with fault := true, heldOpen := true,
              faultBy := if ax.faultBy.contains (src, kind) then ax.faultBy else ax.faultBy ++ [(src, kind)] }

theorem State.modAxis_faults (a : Nat) {f : Axis → Axis} (hf : ∀ x, x.fault = true → (f x).fault = true) : s.Faults (s.modAxis a f) := by
  refine ⟨fun q hq => ?_, rfl⟩
  by_cases hqa : q = a
  · rw [hqa, State.modAxis_axis_same]
    exact hf _ (hqa ▸ hq)
  · rw [State.modAxis_axis_ne _ _ _ hqa]
    exact hq

theorem State.holdAxis_faults (a : Nat) : s.Faults (s.holdAxis src kind a) ∧ ((s.holdAxis src kind a).axis a).fault = true :=
  ⟨s.modAxis_faults a fun _ _ => rfl, by rw [State.holdAxis, State.modAxis_axis_same]⟩

/-- A hold on some axes. -/
def State.holdEach (l : List Nat) : State := l.foldl (State.holdAxis · src kind) s

theorem State.holdEach_faults (l : List Nat) : s.Faults (s.holdEach src kind l) ∧ ∀ a ∈ l, ((s.holdEach src kind l).axis a).fault = true := by
  induction l generalizing s with
  | nil => exact ⟨.refl s, fun a h => absurd h List.not_mem_nil⟩
  | cons x l ih =>
    obtain ⟨hfirst, hfault⟩ := s.holdAxis_faults src kind x
    obtain ⟨hrest, hfaults⟩ := ih (s.holdAxis src kind x)
    refine ⟨hfirst.trans hrest, fun a ha => ?_⟩
    obtain rfl | ha := List.mem_cons.mp ha
    · exact hrest.kept a hfault
    · exact hfaults a ha

/-- A hold on the network axes of some segments. -/
def State.holdSegs (l : List Nat) : State := l.foldl (fun s k => s.holdEach src kind (s.netAxes k)) s

theorem State.holdSegs_faults (l : List Nat) : s.Faults (s.holdSegs src kind l) ∧
    ∀ k ∈ l, ∀ a ∈ s.netAxes k, ((s.holdSegs src kind l).axis a).fault = true := by
  induction l generalizing s with
  | nil => exact ⟨.refl s, fun k h => absurd h List.not_mem_nil⟩
  | cons x l ih =>
    obtain ⟨hfirst, hfault⟩ := s.holdEach_faults src kind (s.netAxes x)
    obtain ⟨hrest, hfaults⟩ := ih (s.holdEach src kind (s.netAxes x))
    refine ⟨hfirst.trans hrest, fun k hk a ha => ?_⟩
    by_cases hkl : k ∈ l
    · exact hfaults k hkl a (by rw [hfirst.netAxes]; exact ha)
    · have hkx := (List.mem_cons.mp hk).resolve_right hkl
      subst hkx
      exact hrest.kept a (hfault a ha)

theorem State.axisStop_fault {a : Nat} (ha : a < 560) : ((s.axisStop a src kind).axis a).fault = true := by
  rw [State.axisStop, if_neg (by omega), State.modAxis_axis_same]

theorem State.axisStop_faults (a : Nat) : s.Faults (s.axisStop a src kind) := by
  unfold State.axisStop
  split
  · exact .refl s
  · exact s.modAxis_faults a fun _ _ => rfl

theorem State.holdAxes_fault {k a : Nat} (hk : k < 8) (ha : a ∈ s.netAxes k) : ((s.holdAxes src kind).axis a).fault = true := by
  obtain ⟨-, hfaults⟩ := s.holdSegs_faults src kind (List.range 8)
  have hstops : (s.holdSegs src kind (List.range 8)).Faults (s.holdAxes src kind) :=
    .foldl (fun s a => s.axisStop_faults src kind a) _ _
  exact hstops.kept a (hfaults k (List.mem_range.mpr hk) a ha)

theorem State.axisStop_only (a : Nat) : ∃ x, s.axisStop a src kind = { s with axes := x } := by
  unfold State.axisStop
  split
  · exact ⟨s.axes, rfl⟩
  · exact ⟨_, rfl⟩

end

/-! ## Outcomes one by one (15 Table 15.4) -/

section
variable (b : State)

/-- A segment whose pairing is over with what had arrived. -/
theorem State.cfgMismatch_spec : b.cfgMismatch.tw.cfgMis = true ∧ b.cfgMismatch.tw.pairBlocked = true ∧ b.cfgMismatch.tw.pair = .unpaired ∧
    b.cfgMismatch.tw.role = b.tw.role ∧ ∃ m, b.cfgMismatch.asy.held = b.asy.held ++ [m] ∧ m.src = srcTwin ∧ m.kind = 0x62 := by
  unfold State.cfgMismatch
  extract_lets twin v
  have hcleared : v.SegsOnly ((List.range 8).foldl
      (fun s k => s.modTwSeg k fun g => { g with st := .notPaired, units := [], got := [], arrived := [] }) v) :=
    .foldl (fun s k => s.modTwSeg_segsOnly k _) _ _
  obtain ⟨x, hx⟩ := hcleared
  rw [hx]
  exact ⟨rfl, rfl, rfl, rfl, State.raise_held ..⟩

theorem State.degradeAs_spec (k : Nat) (half : Bool) : ((b.degradeAs k half).seg k).due = some half ∧
    (b.degradeAs k half).tw = b.tw := by
  unfold State.degradeAs
  extract_lets v1 v2 v3
  have h1 : (v1.seg k).due = some half := by
    show ((b.modSeg k _).seg k).due = _
    rw [State.modSeg_seg_same]
  have h2 : (v2.seg k).due = some half ∧ v2.tw = b.tw := by
    unfold v2
    split
    · obtain ⟨a, ha⟩ := v1.fence_only (srcSeg k) 14
      rw [ha]
      exact ⟨h1, rfl⟩
    · obtain ⟨a, ha⟩ := v1.fence_only (srcSeg k) 13
      rw [ha]
      exact ⟨h1, rfl⟩
  have h3 : v3.tw = v2.tw ∧ Desk v2 v3 := ⟨v2.tellTwin_tw _, (v2.tellTwin_writes _).desk⟩
  refine ⟨?_, h3.1.trans h2.2⟩
  show (v3.seg k).due = _
  rw [h3.2.seg]
  exact h2.1

theorem State.identOver_tw (a status reason : Nat) : (b.identOver a status reason).tw = b.tw := by
  unfold State.identOver
  split
  · rfl
  · split
    · rfl
    · exact State.tellTwin_tw _ _

theorem State.identOver_ident {a : Nat} {y : Ident} (hident : (b.axis a).ident = some y) (hopen : y.ended = false) (status reason : Nat) :
    ((b.identOver a status reason).axis a).ident = if y.full.isEmpty then none
      else some { y with ended := true, cap := none, k := (y.settle + y.blocks) * 4096 } := by
  unfold State.identOver
  rw [hident]
  dsimp only
  rw [if_neg (by rw [hopen]; decide)]
  rw [(State.tellTwin_writes _ _).desk.axis, State.modAxis_axis_same]

theorem State.statusWrite_tw (off : Nat) (bs : List Byte) : (b.statusWrite off bs).tw = b.tw := by
  unfold State.statusWrite
  split
  · exact b.emitHost_tw _
  · rfl

theorem State.takeIndices_spec (r p c : Nat) : (b.takeIndices r p c).tw = b.tw ∧
    (r < 8 → ((b.takeIndices r p c).ringOf r).indices = (c, p) ∧
      (b.takeIndices r p c).host.acc = b.host.acc.filter fun e => decide (e.ring ≠ r)) ∧
    (8 ≤ r → ((b.takeIndices r p c).ringOf r).indices = (p, c) ∧ (b.takeIndices r p c).host.acc = b.host.acc) := by
  by_cases hr : r < 8
  · rw [State.takeIndices, if_pos hr]
    extract_lets host v1 v2
    refine ⟨?_, fun _ => ⟨?_, ?_⟩, fun h => absurd hr (by omega)⟩
    · exact State.statusWrite_tw v2 _ _
    · rw [State.statusWrite_ringOf]
      show ((State.modRing _ r _).ringOf r).indices = _
      rw [State.modRing_ringOf_same]
      rfl
    · rw [State.statusWrite_host]
      rfl
  · rw [State.takeIndices, if_neg hr]
    refine ⟨State.statusWrite_tw _ _ _, fun h => absurd h hr, fun _ => ⟨?_, ?_⟩⟩
    · rw [State.statusWrite_ringOf, State.modRing_ringOf_same]
      rfl
    · rw [State.statusWrite_host]
      rfl

theorem State.adopt_role (o : TwinOut) : (b.adopt o).tw.role = b.tw.role := by
  cases o with
  | configCrc c =>
    unfold State.adopt
    dsimp only
    split
    · exact b.cfgMismatch_spec.2.2.2.1
    · rfl
  | degradeHalve k => exact congrArg Twin.role (b.degradeAs_spec k true).2
  | degradeStop k => exact congrArg Twin.role (b.degradeAs_spec k false).2
  | resampleSwap a => rfl
  | resampleAbort a => rfl
  | identEnd a reason => exact congrArg Twin.role (b.identOver_tw a _ reason)
  | axisFault a cause =>
    obtain ⟨x, hx⟩ := b.axisStop_only srcTwin cause a
    show (b.axisStop a srcTwin cause).tw.role = _
    rw [hx]
  | safeHold => rfl
  | handover n => rfl
  | ringIndices r p c => exact congrArg Twin.role (b.takeIndices_spec r p c).1

/-- An outcome of the leader's is adopted, and what it ends is posted. -/
def State.outTaken (o : TwinOut) : State := (b.adopt o).postReady

theorem State.outTaken_role (o : TwinOut) : (b.outTaken o).tw.role = b.tw.role := by
  rw [State.outTaken, (b.adopt o).postReady_posts.tw]
  exact b.adopt_role o

theorem State.outTaken_desk (o : TwinOut) : Desk (b.adopt o) (b.outTaken o) := State.postReady_Desk _

theorem State.outTaken_handover (n : Nat) : (b.outTaken (.handover n)).tw.handover = some n := by
  rw [State.outTaken, (b.adopt (.handover n)).postReady_posts.tw]
  rfl

theorem State.outTaken_mismatch {c : Nat} (hpairs : b.tw.pair = .pairing) (hdiff : c ≠ b.pairCrc) :
    let w := b.outTaken (.configCrc c)
    w.tw.cfgMis = true ∧ w.tw.pairBlocked = true ∧ w.tw.pair = .unpaired ∧
      ∃ m ∈ w.asy.held.drop b.asy.held.length, m.src = srcTwin ∧ m.kind = 0x62 := by
  have hadopt : b.adopt (.configCrc c) = b.cfgMismatch := if_pos ⟨hpairs, hdiff⟩
  obtain ⟨hmis, hblocked, hpair, -, m, hm, hsrc, hkind⟩ := b.cfgMismatch_spec
  dsimp only
  rw [State.outTaken, hadopt, b.cfgMismatch.postReady_posts.tw, b.cfgMismatch.postReady_writes.held, hm]
  exact ⟨hmis, hblocked, hpair, m, by rw [List.drop_left]; exact List.mem_cons_self, hsrc, hkind⟩

theorem State.outTaken_agrees {c : Nat} (h : b.tw.pair ≠ .pairing ∨ c = b.pairCrc) :
    (b.outTaken (.configCrc c)).tw.pair = b.tw.pair ∧ (b.outTaken (.configCrc c)).tw.cfgMis = b.tw.cfgMis := by
  have hadopt : b.adopt (.configCrc c) = b := if_neg fun h' => h.elim (fun hp => hp h'.1) h'.2
  rw [State.outTaken, hadopt, b.postReady_posts.tw]
  exact ⟨rfl, rfl⟩

theorem State.outTaken_degrade (k : Nat) : ((b.outTaken (.degradeHalve k)).seg k).due = some true ∧
    ((b.outTaken (.degradeStop k)).seg k).due = some false := by
  rw [(b.outTaken_desk _).seg, (b.outTaken_desk _).seg]
  exact ⟨(b.degradeAs_spec k true).1, (b.degradeAs_spec k false).1⟩

/-- The leader's word on a resampling is kept with it. -/
theorem State.outTaken_resample {a : Nat} {r : Resample} (h : (b.axis a).ln.resample = some r) :
    ((b.outTaken (.resampleSwap a)).axis a).ln.resample = some { r with told := some true } ∧
    ((b.outTaken (.resampleAbort a)).axis a).ln.resample = some { r with told := some false } := by
  have hmod : ∀ f, ((b.modAxis a f).axis a) = f (b.axis a) := fun f => State.modAxis_axis_same _ _ _
  rw [(b.outTaken_desk _).axis, (b.outTaken_desk _).axis]
  constructor
  · show ((b.modAxis a _).axis a).ln.resample = _
    rw [hmod, h]
  · show ((b.modAxis a _).axis a).ln.resample = _
    rw [hmod, h]

theorem State.outTaken_ident {a reason : Nat} {y : Ident} (hident : (b.axis a).ident = some y) (hopen : y.ended = false) :
    ((b.outTaken (.identEnd a reason)).axis a).ident = if y.full.isEmpty then none
      else some { y with ended := true, cap := none, k := (y.settle + y.blocks) * 4096 } := by
  rw [(b.outTaken_desk _).axis]
  exact State.identOver_ident b hident hopen _ _

theorem State.outTaken_fault {a : Nat} (cause : Nat) (ha : a < 560) : ((b.outTaken (.axisFault a cause)).axis a).fault = true := by
  rw [(b.outTaken_desk _).axis]
  exact b.axisStop_fault srcTwin cause ha

/-- The same machine with another state of the twin. -/
def State.withTwin (y : Twin) : State := { b with tw := y }

theorem State.withTwin_tw (y : Twin) : (b.withTwin y).tw = y := rfl

theorem State.withTwin_axis (y : Twin) (a : Nat) : (b.withTwin y).axis a = b.axis a := rfl

theorem State.adopt_safeHold : b.adopt .safeHold = (b.holdAxes srcTwin 0).withTwin { b.tw with peerMode := 7 } := by
  unfold State.adopt
  rfl

theorem State.outTaken_safeHold : (b.outTaken .safeHold).tw.peerMode = 7 ∧
    ∀ k, k < 8 → ∀ a ∈ b.netAxes k, ((b.outTaken .safeHold).axis a).fault = true := by
  refine ⟨?_, fun k hk a ha => ?_⟩
  · rw [State.outTaken, (b.adopt .safeHold).postReady_posts.tw, State.adopt_safeHold, State.withTwin_tw]
  · rw [(b.outTaken_desk _).axis, State.adopt_safeHold, State.withTwin_axis]
    exact b.holdAxes_fault srcTwin 0 hk ha

theorem State.outTaken_indices (r p c : Nat) : let w := b.outTaken (.ringIndices r p c)
    (r < 8 → (w.ringOf r).indices = (c, p) ∧ ∀ e ∈ w.host.acc, e.ring ≠ r) ∧
    (8 ≤ r → (∀ e ∈ b.host.acc, 8 + e.ring ≠ r) → (w.ringOf r).indices = (p, c)) := by
  have hadopt : b.adopt (.ringIndices r p c) = b.takeIndices r p c := rfl
  obtain ⟨-, hcmd, hother⟩ := b.takeIndices_spec r p c
  dsimp only
  rw [State.outTaken, hadopt]
  generalize b.takeIndices r p c = v at hcmd hother ⊢
  have hposts := v.postReady_postsOf.rings r
  refine ⟨fun hr => ?_, fun hr hacc => ?_⟩
  · obtain ⟨hindices, hacc⟩ := hcmd hr
    refine ⟨(hposts fun e _ => by omega).trans hindices, fun e he => ?_⟩
    have he := State.mem_postReady_acc _ he
    rw [hacc] at he
    exact of_decide_eq_true (List.mem_filter.mp he).2
  · obtain ⟨hindices, hsame⟩ := hother hr
    exact (hposts fun e he => hacc e (by rw [← hsame]; exact he)).trans hindices

end

end Sys2Proof.Machine
end


section
/-! O60: what a follower takes from its leader (15 R587, R590, R594, R596 to R599, R601; 01 R23). -/

namespace Sys2Proof.Machine

/-! ## EVT_RECEIVED (15 R598) -/

section
variable {b : State} {r : Nat} (e : List Byte)

theorem State.post_off (hoff : (b.ringOf r).on = false) : b.post r e = b := if_neg (by rw [hoff]; decide)

/-- A full ring drops an entry, which it counts. -/
theorem State.post_drops (hon : (b.ringOf r).on = true) (hfull : b.room r 1 = false) :
    ((b.post r e).ringOf r).own = (b.ringOf r).own ∧ ((b.post r e).ringOf r).drop = ((b.ringOf r).drop + 1) % 2 ^ 32 := by
  have hring : (b.post r e).ringOf r = { b.ringOf r with drop := ((b.ringOf r).drop + 1) % 2 ^ 32, dropNow := (b.ringOf r).dropNow + 1 } := by
    rw [State.post, if_pos hon, if_neg (by rw [hfull]; decide), State.ringDrop, State.ringDrops, State.ringOf, State.raiseOnce_host]
    exact b.modRing_ringOf_same r _
  rw [hring]
  exact ⟨rfl, rfl⟩

end

/-- A leader's mark for the event ring. -/
def State.evtTaken (b : State) (mark : List Byte) : State := if b.hearsLeader && b.following then b.post 24 (padTo 32 mark) else b

/-! ## BLK_RECEIVED (15 R587, R590) -/

section
variable (b : State)

theorem State.sendTwin_up (hup : b.twinUp = true) (type seg tag minor : Nat) (payload : List Byte) :
    (b.sendTwin type seg tag minor payload).out = .twin type seg tag minor payload (b.armedFlip 0xC000) :: b.out := by
  rw [State.sendTwin, if_neg (by rw [hup]; decide)]
  rfl

theorem State.takesBlk_iff (seg : Nat) : b.takesBlk seg = true ↔ b.hearsLeader = true ∨ (b.twinUp = true ∧ (b.twSeg seg).lost ≠ []) := by
  rw [State.takesBlk, Bool.or_eq_true, Bool.and_eq_true, Bool.not_eq_true', List.isEmpty_eq_false_iff]

theorem State.takesBlk_up {seg : Nat} (h : b.takesBlk seg = true) : b.twinUp = true :=
  ((b.takesBlk_iff seg).mp h).elim (fun h => ((Bool.and_eq_true _ _).mp h).1) And.left

/-- A piece with a bad CRC is counted and asked for again. -/
def State.blkRefused (seg tag minor off : Nat) : State :=
  ({ b with tw := { b.tw with crcErr := (b.tw.crcErr + 1) % 2 ^ 16 } }).sendTwin 0xA seg tag minor (leBytes 4 off)

theorem State.blkRefused_spec (hup : b.twinUp = true) (seg tag minor off : Nat) :
    (b.blkRefused seg tag minor off).tw = { b.tw with crcErr := (b.tw.crcErr + 1) % 2 ^ 16 } ∧
    (b.blkRefused seg tag minor off).out = .twin 0xA seg tag minor (leBytes 4 off) (b.armedFlip 0xC000) :: b.out :=
  ⟨State.sendTwin_tw _ _ _ _ _ _, State.sendTwin_up { b with tw := { b.tw with crcErr := (b.tw.crcErr + 1) % 2 ^ 16 } } hup _ _ _ _ _⟩

/-- A piece of a unit or of a cam table. -/
def State.blkTaken (seg unit tag minor off : Nat) (data : List Byte) : State :=
  if seg = 0xFF then b.blkCam unit tag minor off data else b.blkUnit seg unit tag minor off data

theorem State.blkTaken_only (seg unit tag minor off : Nat) (data : List Byte) :
    b.blkTaken seg unit tag minor off data =
      { b with tw := (b.blkTaken seg unit tag minor off data).tw, cams := (b.blkTaken seg unit tag minor off data).cams } := by
  unfold State.blkTaken
  split
  · unfold State.blkCam
    dsimp only
    split <;> rfl
  · rfl

theorem State.blkTaken_cam {seg : Nat} (hseg : seg = 0xFF) (unit tag minor off : Nat) (data : List Byte) :
    let w := b.blkTaken seg unit tag minor off data
    let c := unit % 2 ^ 16; let p := (SMap.get {} b.tw.cams c).add unit tag minor off data
    (p.whole = false → SMap.get {} w.tw.cams c = p ∧ w.cams = b.cams) ∧ (p.whole = true → w.cams.lookup c = some (camOf p.bytes)) := by
  intro w c p
  have hw : w = if p.whole then
      { b with cams := SMap.insert (SMap.erase b.cams c) c (camOf p.bytes), tw := { b.tw with cams := SMap.erase b.tw.cams c } }
    else { b with tw := { b.tw with cams := SMap.put {} b.tw.cams c p } } := if_pos hseg
  refine ⟨fun hpart => ?_, fun hwhole => ?_⟩
  · rw [hw, if_neg (by rw [hpart]; decide)]
    exact ⟨SMap.get_put_same _ _ _ _, rfl⟩
  · rw [hw, if_pos hwhole]
    exact SMap.lookup_replace_same _ _ _

theorem State.blkTaken_unit {seg : Nat} (hseg : seg ≠ 0xFF) (unit tag minor off : Nat) (data : List Byte) :
    let w := b.blkTaken seg unit tag minor off data
    let h := unit % 2 ^ 16; let p := (SMap.get {} (b.twSeg seg).got h).add unit tag minor off data
    w.cams = b.cams ∧ (p.whole = false → SMap.get {} (w.twSeg seg).got h = p ∧ (w.twSeg seg).arrived = (b.twSeg seg).arrived) ∧
      (p.whole = true → (w.twSeg seg).arrived = (b.twSeg seg).arrived ++
        [{ axes := identAxes seg unit, groups := identGroups unit, tag := tag, m := minor, bytes := p.bytes }]) := by
  intro w h p
  have hw : w = b.blkUnit seg unit tag minor off data := if_neg hseg
  have htw : w.twSeg seg = if p.whole then
      { b.twSeg seg with got := SMap.erase (b.twSeg seg).got h, arrived := (b.twSeg seg).arrived ++
          [{ axes := identAxes seg unit, groups := identGroups unit, tag := tag, m := minor, bytes := p.bytes }] }
    else { b.twSeg seg with got := SMap.put {} (b.twSeg seg).got h p } := by
    rw [hw, State.blkUnit, State.modTwSeg_twSeg_same]
  refine ⟨by rw [hw]; rfl, fun hpart => ?_, fun hwhole => ?_⟩
  · rw [htw, if_neg (by rw [hpart]; decide)]
    exact ⟨SMap.get_put_same _ _ _ _, rfl⟩
  · rw [htw, if_pos hwhole]

end

/-! ## REQ_RECEIVED (15 R587, 01 R23) -/

section
variable (b : State)

/-- One BLK is sent again, and counted. -/
def State.resend (x : TwinBlk) : State :=
  { (b.sendTwin 0x9 x.seg (tagOf x.n) x.m x.payload) with tw := { b.tw with resent := (b.tw.resent + 1) % 2 ^ 16 } }

/-- Some BLK are sent again. -/
def State.resendEach (l : List TwinBlk) : State := l.foldl State.resend b

theorem State.resendEach_spec (l : List TwinBlk) : (b.resendEach l).tw.sent = b.tw.sent ∧
    (b.resendEach l).tw.resent % 2 ^ 16 = (b.tw.resent + l.length) % 2 ^ 16 := by
  induction l generalizing b with
  | nil => exact ⟨rfl, rfl⟩
  | cons x l ih =>
    obtain ⟨hsent, hresent⟩ := ih (b.resend x)
    refine ⟨hsent, hresent.trans ?_⟩
    show ((b.tw.resent + 1) % 2 ^ 16 + l.length) % 2 ^ 16 = _
    rw [Nat.mod_add_mod, List.length_cons]
    congr 1
    omega

/-- From `b` to `w` BLK messages are sent and kept for a repeat. -/
def State.SendsOnly (b w : State) : Prop := ∃ o a l, w = { b with out := o, asy := a, tw := { b.tw with sent := l } }

theorem State.sendBlk_sends (x : TwinBlk) : b.SendsOnly (b.sendBlk x) := by
  unfold State.sendBlk State.sendTwin
  dsimp only
  split
  · exact ⟨_, _, _, rfl⟩
  · exact ⟨_, _, _, rfl⟩

theorem State.SendsOnly.trans {a b c : State} (h : a.SendsOnly b) (g : b.SendsOnly c) : a.SendsOnly c := by
  obtain ⟨o, y, l, rfl⟩ := h
  obtain ⟨o', y', l', rfl⟩ := g
  exact ⟨o', y', l', rfl⟩

/-- Some BLK are sent. -/
def State.sendEach (l : List TwinBlk) : State := l.foldl State.sendBlk b

theorem State.sendEach_spec (l : List TwinBlk) : b.SendsOnly (b.sendEach l) ∧ (b.sendEach l).tw.sent = b.tw.sent ++ l := by
  induction l generalizing b with
  | nil => exact ⟨⟨_, _, _, rfl⟩, (List.append_nil _).symm⟩
  | cons x l ih =>
    obtain ⟨hsends, hsent⟩ := ih (b.sendBlk x)
    refine ⟨(b.sendBlk_sends x).trans hsends, hsent.trans ?_⟩
    rw [State.sendBlk_tw]
    exact List.append_assoc _ [x] l

/-- The pieces of a unit, as messages. -/
def blksOf (seg unit n m : Nat) (bs : List Byte) : List TwinBlk :=
  (List.range ((bs.length + 1023) / 1024)).map fun i =>
    { seg := seg, n := n, m := m, off := 1024 * i,
      payload := leBytes 18 unit ++ leBytes 3 (tagOf n) ++ leBytes 1 m ++ leBytes 4 (1024 * i) ++ (bs.drop (1024 * i)).take 1024 }

theorem State.sendBytes_eq (seg unit n m : Nat) (bs : List Byte) : b.sendBytes seg unit n m bs = b.sendEach (blksOf seg unit n m bs) := by
  rw [State.sendEach, blksOf, List.foldl_map]
  rfl

theorem blksOf_spec (seg unit n m : Nat) (bs : List Byte) : (∀ y ∈ blksOf seg unit n m bs, y.seg = seg) ∧
    (blksOf seg unit n m bs).length = (bs.length + 1023) / 1024 := by
  refine ⟨fun y hy => ?_, by rw [blksOf, List.length_map, List.length_range]⟩
  obtain ⟨i, -, rfl⟩ := List.mem_map.mp hy
  rfl

/-- The unit of an axis is sent as it stands. -/
theorem State.sendAxisUnit_spec {a k : Nat} (hseg : b.segOf a = some k) : (∀ y ∈ (b.sendAxisUnit a).tw.sent, b.segOf a = some y.seg) ∧
    (b.sendAxisUnit a).tw.sent.length = ((b.axisBytes a).length + 1023) / 1024 ∧
    b.sendAxisUnit a = { b with out := (b.sendAxisUnit a).out, tw := { b.tw with sent := (b.sendAxisUnit a).tw.sent }, asy := (b.sendAxisUnit a).asy } := by
  obtain ⟨l, hunit, hsegs, hlength⟩ : ∃ l, b.sendAxisUnit a = ({ b with tw := { b.tw with sent := [] } } : State).sendEach l ∧
      (∀ y ∈ l, y.seg = k) ∧ l.length = ((b.axisBytes a).length + 1023) / 1024 := by
    refine ⟨_, ?_, blksOf_spec k (unitIdent k (b.axisLen a) [a] []) (b.seg k).cur.n (b.seg k).cur.m (b.axisBytes a)⟩
    unfold State.sendAxisUnit
    rw [hseg]
    exact State.sendBytes_eq _ _ _ _ _ _
  obtain ⟨⟨o, y, l', hsends⟩, hsent⟩ := State.sendEach_spec ({ b with tw := { b.tw with sent := [] } } : State) l
  rw [hunit]
  refine ⟨fun y hy => ?_, ?_, ?_⟩
  · rw [hsent] at hy
    rw [hseg, hsegs y hy]
  · rw [hsent]
    exact hlength
  · rw [hsends]

/-- A repeat that the other device asks for. -/
def State.reqTaken (off : Nat) : State :=
  if !b.twinUp then b
  else if 0x80000000 ≤ off then
    (if decide (b.tw.pair = .paired) && decide (off - 0x80000000 < 528) then b.sendAxisUnit (off - 0x80000000) else b)
  else if b.leads || !b.tw.sent.isEmpty then b.resendEach (b.tw.sent.filter fun x => decide (x.off = off))
  else b

theorem exec_reqReceived (s : State) (t off : Nat) : exec (.reqReceived t off) s = .next (ends s t ((s.before t).reqTaken off)) :=
  does_eq s t (State.reqTaken · off)

variable {b} {off : Nat}

theorem State.mayResend_iff : (b.leads || !b.tw.sent.isEmpty) = true ↔ b.leads = true ∨ b.tw.sent ≠ [] := by
  rw [Bool.or_eq_true, Bool.not_eq_true', List.isEmpty_eq_false_iff]

theorem State.reqTaken_resends (hup : b.twinUp = true) (hoff : off < 0x80000000) (hmay : b.leads = true ∨ b.tw.sent ≠ []) :
    b.reqTaken off = b.resendEach (b.tw.sent.filter fun x => decide (x.off = off)) :=
  (if_neg (by rw [hup]; decide)).trans ((if_neg (by omega)).trans (if_pos (State.mayResend_iff.mpr hmay)))

theorem State.reqTaken_restores (hup : b.twinUp = true) (hoff : 0x80000000 ≤ off) (hpair : b.tw.pair = .paired)
    (haxis : off - 0x80000000 < 528) : b.reqTaken off = b.sendAxisUnit (off - 0x80000000) :=
  (if_neg (by rw [hup]; decide)).trans ((if_pos hoff).trans (if_pos (by rw [decide_eq_true hpair, decide_eq_true haxis]; rfl)))

theorem State.reqTaken_idle (h : b.twinUp = false ∨ (¬ (off < 0x80000000 ∧ (b.leads = true ∨ b.tw.sent ≠ [])) ∧
    ¬ (0x80000000 ≤ off ∧ b.tw.pair = .paired ∧ off - 0x80000000 < 528 ∧ (b.segOf (off - 0x80000000)).isSome = true))) :
    b.reqTaken off = b := by
  unfold State.reqTaken
  split
  · rfl
  · next hup =>
    obtain ⟨hresends, hrestores⟩ := h.resolve_left fun hdown => hup (by rw [hdown]; rfl)
    split
    · next hoff =>
      split
      · next hmay =>
        obtain ⟨hpair, haxis⟩ := (Bool.and_eq_true _ _).mp hmay
        have hnone : b.segOf (off - 0x80000000) = none := Option.not_isSome_iff_eq_none.mp fun hsome =>
          hrestores ⟨hoff, of_decide_eq_true hpair, of_decide_eq_true haxis, hsome⟩
        rw [State.sendAxisUnit, hnone]
      · rfl
    · next hoff =>
      rw [if_neg fun hmay => hresends ⟨Nat.lt_of_not_le hoff, State.mayResend_iff.mp hmay⟩]

end

end Sys2Proof.Machine
end


section
/-! O60: each message of a leader's, and what it leaves of the device that hears it (15 R587, R590, R594, R596 to R599, R601; 01 R23). -/

namespace Sys2Proof.Machine

/-! ## What each message does -/

section
variable {s : State} {t : Nat}

theorem State.hearsLeader_posts {b : State} (h : b.hearsLeader = true) : b.postsLeaders = true := ((Bool.and_eq_true _ _).mp h).2

/-- The descriptor at the position of a TAG that already holds one of the same command. -/
def State.taggedAt (b : State) (x : Tag) : Option Entry :=
  b.host.acc.find? fun e => decide (e.ring = x.ring ∧ e.pos = x.pos) && e.tagged.isSome && decide (e.seq = x.seq)

/-- A TAG of the leader's is taken. -/
def State.tagTaken (b : State) (x : Tag) : State :=
  match b.taggedAt x with
  | some e => (b.retag e x).postReady
  | none => (b.tagArrived x).matchTags.postReady

theorem State.tagTaken_again {b : State} {x : Tag} {e : Entry} (h : b.taggedAt x = some e) : b.tagTaken x = (b.retag e x).postReady := by
  rw [State.tagTaken, h]

theorem State.tagTaken_new {b : State} {x : Tag} (hears : b.hearsLeader = true) (h : b.taggedAt x = none) :
    b.tagTaken x = (b.tagArrived x).tagsMet.postReady := by
  rw [State.tagTaken, h, ← State.matchTags_eq (b.tagArrived x) (State.hearsLeader_posts hears)]

/-- What a TAG leaves: on the descriptor that held one already, or on the one that it meets first. -/
theorem State.tagTaken_spec {b : State} (hears : b.hearsLeader = true) (x : Tag) : let w := b.tagTaken x
    Desk b w ∧ w.tw.role = b.tw.role ∧
    (∀ e, b.taggedAt x = some e → w.tw.tags = b.tw.tags ∧ w.tw.lastTag = b.tw.lastTag ∧ w.Tagged e.id x.tag x.minor x.status) ∧
    (b.taggedAt x = none → w.tw.lastTag.lookup x.ring = some ((x.pos + 1) % 2 ^ 32) ∧
      (b.heldAt x.ring x.pos = none → x ∈ w.tw.tags) ∧
      ∀ e, b.heldAt x.ring x.pos = some e → x ∉ w.tw.tags ∧
        (opcOf e.op = x.opc ∧ e.seq = x.seq ∧ e.crc = x.crc → w.Tagged e.id x.tag x.minor x.status) ∧
        (¬ (opcOf e.op = x.opc ∧ e.seq = x.seq ∧ e.crc = x.crc) → w.tw.pair = .unsynced)) := by
  dsimp only
  cases hagain : b.taggedAt x with
  | some e =>
    obtain ⟨hdesk, hrole, htags, hlast, htagged⟩ := b.retag_spec x e
    rw [State.tagTaken_again hagain]
    refine ⟨hdesk, hrole, fun e' he' => ?_, fun hnone => absurd hnone (Option.some_ne_none e)⟩
    rw [← Option.some.inj he']
    exact ⟨htags, hlast, htagged⟩
  | none =>
    obtain ⟨hdesk, hrole, hlast, hwaits, hmeets⟩ := b.tagArrived_spec x
    rw [State.tagTaken_new hears hagain]
    exact ⟨hdesk, hrole, fun e' he' => absurd he'.symm (Option.some_ne_none e'), fun _ => ⟨hlast, hwaits, fun e he =>
      ⟨(hmeets e he).gone, (hmeets e he).fits, (hmeets e he).differs⟩⟩⟩

section
variable (seg ring pos seq opc crc st tag minor : Nat)

theorem exec_tagReceived_deaf (hdeaf : (s.before t).hearsLeader = false) :
    exec (.tagReceived t seg ring pos seq opc crc st tag minor) s = .next (ends s t (s.before t)) := by
  show execTagReceived t seg ring pos seq opc crc st tag minor s = _
  exact does_of_effect (if_pos (by rw [hdeaf]; rfl))

theorem exec_tagReceived_hears (hears : (s.before t).hearsLeader = true) :
    exec (.tagReceived t seg ring pos seq opc crc st tag minor) s =
      .next (ends s t ((s.before t).tagTaken ⟨seg, ring, pos, seq, opc, crc, st, tag, minor⟩)) := by
  show execTagReceived t seg ring pos seq opc crc st tag minor s = _
  exact does_of_effect (if_neg (by rw [hears]; decide))

end

section
variable (ring pos : Nat) (rec_ : List Byte)

theorem exec_cplReceived_deaf (hdeaf : (s.before t).hearsLeader = false) :
    exec (.cplReceived t ring pos rec_) s = .next (ends s t (s.before t)) := by
  show execCplReceived t ring pos rec_ s = _
  exact does_of_effect (if_neg (by rw [hdeaf]; decide))

theorem exec_cplReceived_hears (hears : (s.before t).hearsLeader = true) :
    exec (.cplReceived t ring pos rec_) s = .next (ends s t ((s.before t).cplArrived ring pos rec_).postReady) := by
  show execCplReceived t ring pos rec_ s = _
  exact does_of_effect (if_pos hears)

end

section
variable (seg tag minor map : Nat) (recs : List (Nat × List Byte)) (xs es : List (Nat × Int))

theorem exec_useReceived_takes (hears : (s.before t).hearsLeader = true) (htag : tagOf (s.before t).cyc = tag)
    (hminor : (s.before t).minor seg = minor) :
    exec (.useReceived t seg tag minor map recs xs es) s = .next (ends s t ((s.before t).useTaken seg map recs xs es)) := by
  show execUseReceived t seg tag minor map recs xs es s = _
  exact does_of_effect (if_pos (by rw [hears, decide_eq_true ⟨htag, hminor⟩]; rfl))

theorem exec_useReceived_idle (h : (s.before t).hearsLeader = false ∨ tagOf (s.before t).cyc ≠ tag ∨ (s.before t).minor seg ≠ minor) :
    exec (.useReceived t seg tag minor map recs xs es) s = .next (ends s t (s.before t)) := by
  show execUseReceived t seg tag minor map recs xs es s = _
  refine does_of_effect (if_neg fun htakes => ?_)
  obtain ⟨hears, hcycle⟩ := (Bool.and_eq_true _ _).mp htakes
  obtain ⟨htag, hminor⟩ := of_decide_eq_true hcycle
  obtain h | h | h := h
  · exact Bool.false_ne_true (h.symm.trans hears)
  · exact h htag
  · exact h hminor

end

theorem exec_mstReceived_deaf (hdeaf : (s.before t).hearsLeader = false) (vals : List MasterVal) :
    exec (.mstReceived t vals) s = .next (ends s t (s.before t)) := by
  show execMstReceived t vals s = _
  exact does_of_effect (if_pos (by rw [hdeaf]; rfl))

theorem exec_mstReceived_hears (hears : (s.before t).hearsLeader = true) (vals : List MasterVal) :
    exec (.mstReceived t vals) s = .next (ends s t ((s.before t).mstTaken vals)) := by
  show execMstReceived t vals s = _
  exact does_of_effect (if_neg (by rw [hears]; decide))

section
variable (seg tag minor dig : Nat)

theorem exec_digReceived_idle (h : (s.before t).twinUp = false ∨ (s.before t).tw.pair ≠ .paired) :
    exec (.digReceived t seg tag minor dig) s = .next (ends s t (s.before t)) := by
  show execDigReceived t seg tag minor dig s = _
  refine does_of_effect (if_neg fun hboth => ?_)
  obtain ⟨hup, hpair⟩ := (Bool.and_eq_true _ _).mp hboth
  exact h.elim (fun h => Bool.false_ne_true (h.symm.trans hup)) fun h => h (of_decide_eq_true hpair)

theorem exec_digReceived_paired (hup : (s.before t).twinUp = true) (hpair : (s.before t).tw.pair = .paired) :
    exec (.digReceived t seg tag minor dig) s = .next (ends s t (((s.before t).digArrived seg tag minor dig).digestCompare seg)) := by
  show execDigReceived t seg tag minor dig s = _
  exact does_of_effect (if_pos (by rw [hup, decide_eq_true hpair]; rfl))

end

theorem exec_outReceived_deaf (hdeaf : (s.before t).hearsLeader = false) (o : TwinOut) :
    exec (.outReceived t o) s = .next (ends s t (s.before t)) := by
  show execOutReceived t o s = _
  exact does_of_effect (if_neg (by rw [hdeaf]; decide))

theorem exec_outReceived_hears (hears : (s.before t).hearsLeader = true) (o : TwinOut) :
    exec (.outReceived t o) s = .next (ends s t ((s.before t).outTaken o)) := by
  show execOutReceived t o s = _
  exact does_of_effect (if_pos hears)

theorem exec_evtReceived (s : State) (t : Nat) (mark : List Byte) :
    exec (.evtReceived t mark) s = .next (ends s t ((s.before t).evtTaken mark)) := does_eq s t (State.evtTaken · mark)

theorem State.evtTaken_follower {b : State} (hears : b.hearsLeader = true) (hfollows : b.following = true) (mark : List Byte) :
    b.evtTaken mark = b.post 24 (padTo 32 mark) := if_pos (by rw [hears, hfollows]; rfl)

theorem State.evtTaken_idle {b : State} (h : b.hearsLeader = false ∨ b.following = false ∨ (b.ringOf 24).on = false) (mark : List Byte) :
    b.evtTaken mark = b := by
  refine ite_eq_of (fun htakes => ?_) fun _ => rfl
  obtain ⟨hears, hfollows⟩ := (Bool.and_eq_true _ _).mp htakes
  obtain h | h | h := h
  · exact absurd (h.symm.trans hears) Bool.false_ne_true
  · exact absurd (h.symm.trans hfollows) Bool.false_ne_true
  · exact State.post_off _ h

section
variable (seg unit tag minor off : Nat) (data : List Byte)

theorem exec_blkReceived_deaf (ok : Bool) (h : (s.before t).takesBlk seg = false) :
    exec (.blkReceived t seg unit tag minor off ok data) s = .next (ends s t (s.before t)) := by
  show execBlkReceived t seg unit tag minor off ok data s = _
  exact does_of_effect (if_pos (by rw [h]; rfl))

theorem exec_blkReceived_bad (h : (s.before t).takesBlk seg = true) :
    exec (.blkReceived t seg unit tag minor off false data) s = .next (ends s t ((s.before t).blkRefused seg tag minor off)) := by
  show execBlkReceived t seg unit tag minor off false data s = _
  exact does_of_effect ((if_neg (by rw [h]; decide)).trans (if_pos rfl))

theorem exec_blkReceived_good (h : (s.before t).takesBlk seg = true) :
    exec (.blkReceived t seg unit tag minor off true data) s = .next (ends s t ((s.before t).blkTaken seg unit tag minor off data)) := by
  show execBlkReceived t seg unit tag minor off true data s = _
  exact does_of_effect ((if_neg (by rw [h]; decide)).trans (if_neg (by decide)))

end

end

/-! ## Digests that meet (15 R601) -/

section
variable {b : State} {seg tag minor : Nat}

/-- A device's own digest of a cycle that `n` and `minor` name. -/
theorem State.digestsMeet_iff : (∃ d, b.DigestsMeet seg tag minor d) ↔
    b.tw.role = .follower ∧ (b.twSeg seg).st ≠ .resync ∧ ∃ n d, (b.twSeg seg).own = some (n, minor, d) ∧ tagOf n = tag :=
  ⟨fun ⟨d, hrole, hst, n, hown, htag⟩ => ⟨hrole, hst, n, d, hown, htag⟩, fun ⟨hrole, hst, n, d, hown, htag⟩ => ⟨d, hrole, hst, n, hown, htag⟩⟩

/-- Equal digests end a run of differing ones. -/
def State.digEquals (b : State) (seg tag minor dig : Nat) : State := (b.digDone seg tag minor dig).modTwSeg seg fun g => { g with misrun := 0 }

theorem State.digEquals_spec (b : State) (seg tag minor dig : Nat) : let w := b.digEquals seg tag minor dig
    (w.twSeg seg).own = none ∧ (w.twSeg seg).peer = none ∧ (w.twSeg seg).misrun = 0 ∧ w.asy = b.asy := by
  dsimp only
  rw [State.digEquals, State.modTwSeg_twSeg_same, State.digDone_twSeg, State.modTwSeg_asy, State.digDone, State.modTwSeg_asy,
    State.digArrived, State.modTwSeg_asy]
  exact ⟨rfl, rfl, rfl, rfl⟩

/-- The comparison of two digests of one cycle. -/
theorem State.digestCompare_spec {d : Nat} (hmeet : b.DigestsMeet seg tag minor d) (dig : Nat) :
    let w := (b.digArrived seg tag minor dig).digestCompare seg; let misrun := (b.twSeg seg).misrun
    (w.twSeg seg).own = none ∧ (w.twSeg seg).peer = none ∧ (d = dig → (w.twSeg seg).misrun = 0 ∧ w.asy = b.asy) ∧
      (d ≠ dig → (w.twSeg seg).misrun = min 3 (misrun + 1) ∧
        (misrun = 0 → ∃ y, w.asy.held = b.asy.held ++ [y] ∧ y.src = srcTwin ∧ y.kind = 0x65) ∧
        (2 ≤ misrun → (w.twSeg seg).st = .resync)) := by
  have hjudges := State.digestCompare_judges dig hmeet
  dsimp only
  rw [hjudges]
  by_cases hsame : d = dig
  · rw [if_pos hsame]
    obtain ⟨hown, hpeer, hmisrun, hasy⟩ := b.digEquals_spec seg tag minor dig
    exact ⟨hown, hpeer, fun _ => ⟨hmisrun, hasy⟩, fun hdiff => absurd hsame hdiff⟩
  · rw [if_neg hsame]
    obtain ⟨hown, hpeer, hdiffers⟩ := State.digDiffers_spec (b := b) (seg := seg) (tag := tag) (minor := minor) dig
    exact ⟨hown, hpeer, fun h => absurd h hsame, fun _ => hdiffers⟩

end

/-! ## The indices of a ring (15 R590) -/

theorem Ring.indices_iff {g : Ring} {own host : Nat} : g.indices = (own, host) ↔ g.own = own ∧ g.host = host := by
  rw [Ring.indices, Prod.mk.injEq]

section
variable (b : State) {r : Nat} (p c : Nat)

theorem State.outTaken_commandRing (hr : r < 8) : ((b.outTaken (.ringIndices r p c)).ringOf r).own = c ∧
    ((b.outTaken (.ringIndices r p c)).ringOf r).host = p ∧ ∀ e ∈ (b.outTaken (.ringIndices r p c)).host.acc, e.ring ≠ r := by
  obtain ⟨hindices, hacc⟩ := (b.outTaken_indices r p c).1 hr
  obtain ⟨hown, hhost⟩ := Ring.indices_iff.mp hindices
  exact ⟨hown, hhost, hacc⟩

theorem State.outTaken_otherRing (hr : 8 ≤ r) (hacc : ∀ e ∈ b.host.acc, 8 + e.ring ≠ r) :
    ((b.outTaken (.ringIndices r p c)).ringOf r).own = p ∧ ((b.outTaken (.ringIndices r p c)).ringOf r).host = c :=
  Ring.indices_iff.mp ((b.outTaken_indices r p c).2 hr hacc)

end

/-- Settles O60: each message by what it does, where the device hears its sender and where it does not. -/
theorem aFollowerTakesFromItsLeader : Obligations.AFollowerTakesFromItsLeader := by
  unfold Obligations.AFollowerTakesFromItsLeader
  intro s t b x hear at'
  refine ⟨fun seg ring pos seq opc crc st tag minor hdeaf => exec_tagReceived_deaf seg ring pos seq opc crc st tag minor hdeaf, ?tag,
    fun ring pos rec_ hdeaf => exec_cplReceived_deaf ring pos rec_ hdeaf, ?cpl,
    fun seg tag minor map recs xs es hears htag hminor => ⟨_, exec_useReceived_takes seg tag minor map recs xs es hears htag hminor,
      (s.before t).useTaken_spec seg map recs xs es⟩,
    fun seg tag minor map recs xs es h => exec_useReceived_idle seg tag minor map recs xs es h,
    fun vals hdeaf => exec_mstReceived_deaf hdeaf vals,
    fun vals hears => ⟨_, exec_mstReceived_hears hears vals, (s.before t).mstTaken_spec vals⟩, ?dig,
    fun o hdeaf => exec_outReceived_deaf hdeaf o, ?out, ?noEvt, ?evt, ?evtFull, ?noBlk, ?blk, ?req⟩
  case tag =>
    intro seg ring pos seq opc crc st tag minor hears again tg marked
    exact ⟨_, exec_tagReceived_hears seg ring pos seq opc crc st tag minor hears, State.tagTaken_spec hears tg⟩
  case cpl =>
    intro ring pos rec_ hears
    obtain ⟨hdesk, htw, hwaits⟩ := (s.before t).cplArrived_spec ring pos rec_
    refine ⟨_, exec_cplReceived_hears ring pos rec_ hears, ?_, hwaits, fun e r hacc hring hpos haligned hbegun hnew hon hfree =>
      (s.before t).cplArrived_out ring pos rec_ (State.hearsLeader_posts hears) hacc hring hpos haligned hbegun hnew hon hfree⟩
    rw [← htw]
    exact hdesk
  case dig =>
    intro seg tag minor dig g compares
    refine ⟨fun h => exec_digReceived_idle seg tag minor dig h, fun hup hpair hnot => ?_, fun hup hpair hcompares => ?_⟩
    · exact (exec_digReceived_paired seg tag minor dig hup hpair).trans
        (by rw [State.digestCompare_waits dig fun hmeet => hnot (State.digestsMeet_iff.mp hmeet)]; rfl)
    · obtain ⟨d, hmeet⟩ := State.digestsMeet_iff.mpr hcompares
      obtain ⟨hown, hpeer, hsame, hdiffers⟩ := State.digestCompare_spec hmeet dig
      refine ⟨_, exec_digReceived_paired seg tag minor dig hup hpair, hown, hpeer, fun n m d' howns => ?_⟩
      obtain ⟨-, -, n', howns', -⟩ := hmeet
      cases (howns.symm.trans howns')
      exact ⟨hsame, hdiffers⟩
  case out =>
    intro o hears
    refine ⟨_, exec_outReceived_hears hears o, (s.before t).outTaken_role o, ?_, ?_, ?_, ?_, ?_, ?_, ?_, ?_, ?_, ?_, ?_, ?_⟩
    · rintro n rfl
      exact (s.before t).outTaken_handover n
    · rintro c rfl hpairs hdiff
      exact (s.before t).outTaken_mismatch hpairs hdiff
    · rintro c rfl h
      exact (s.before t).outTaken_agrees h
    · rintro k rfl
      exact ((s.before t).outTaken_degrade k).1
    · rintro k rfl
      exact ((s.before t).outTaken_degrade k).2
    · rintro a r rfl hresample
      exact ((s.before t).outTaken_resample hresample).1
    · rintro a r rfl hresample
      exact ((s.before t).outTaken_resample hresample).2
    · rintro a reason y rfl hident hopen
      exact (s.before t).outTaken_ident hident hopen
    · rintro a cause rfl ha
      exact (s.before t).outTaken_fault cause ha
    · rintro rfl
      exact (s.before t).outTaken_safeHold
    · rintro r p c rfl hr
      exact (s.before t).outTaken_commandRing p c hr
    · rintro r p c rfl hr hacc
      exact (s.before t).outTaken_otherRing p c hr hacc
  case noEvt =>
    intro mark h
    exact (exec_evtReceived s t mark).trans (by rw [State.evtTaken_idle h mark])
  case evt =>
    intro mark hears hfollows hon hroom
    refine ⟨_, exec_evtReceived s t mark, ?_⟩
    rw [State.evtTaken_follower hears hfollows mark]
    exact ⟨State.post_own hon hroom _, fun hfree => State.mem_post_out hon hroom hfree _⟩
  case evtFull =>
    intro mark hears hfollows hon hfull
    refine ⟨_, exec_evtReceived s t mark, ?_⟩
    rw [State.evtTaken_follower hears hfollows mark]
    exact State.post_drops _ hon hfull
  case noBlk =>
    intro seg unit tag minor off ok data hdeaf h
    refine exec_blkReceived_deaf seg unit tag minor off data ok (Bool.eq_false_of_not_eq_true fun htakes => ?_)
    obtain hears | ⟨hup, hlost⟩ := ((s.before t).takesBlk_iff seg).mp htakes
    · exact Bool.false_ne_true (hdeaf.symm.trans hears)
    · exact h.elim (fun h => Bool.false_ne_true (h.symm.trans hup)) hlost
  case blk =>
    intro seg unit tag minor off data h
    have htakes := ((s.before t).takesBlk_iff seg).mpr h
    exact ⟨⟨_, exec_blkReceived_bad seg unit tag minor off data htakes,
        (s.before t).blkRefused_spec ((s.before t).takesBlk_up htakes) seg tag minor off⟩,
      _, exec_blkReceived_good seg unit tag minor off data htakes, (s.before t).blkTaken_only seg unit tag minor off data,
      fun hseg => (s.before t).blkTaken_cam hseg unit tag minor off data, fun hseg => (s.before t).blkTaken_unit hseg unit tag minor off data⟩
  case req =>
    intro off axis resends restores
    refine ⟨fun hup hresends => ?_, fun hup hrestores => ?_, fun h => ?_⟩
    · obtain ⟨hoff, hmay⟩ := hresends
      refine ⟨_, exec_reqReceived s t off, ?_⟩
      rw [State.reqTaken_resends hup hoff hmay]
      exact State.resendEach_spec _ _
    · obtain ⟨hoff, hpair, haxis, hsome⟩ := hrestores
      obtain ⟨k, hseg⟩ := Option.isSome_iff_exists.mp hsome
      refine ⟨_, exec_reqReceived s t off, ?_⟩
      rw [State.reqTaken_restores hup hoff hpair haxis]
      exact State.sendAxisUnit_spec _ hseg
    · exact (exec_reqReceived s t off).trans (by rw [State.reqTaken_idle h])

end Sys2Proof.Machine
end
